-- ==== Sys2Proof/Word.lean ====
section
/-!
DEFINITION. The word types of the model: bytes, byte strings and the 32-bit register word (R8: fields are
little-endian; a byte string lists its bytes from the lowest address up).
-/
namespace Sys2Proof

/-- One byte. -/
abbrev Byte := BitVec 8

/-- A byte string, lowest address first. -/
abbrev Bytes := List (BitVec 8)

/-- The value of one 32-bit register access. -/
abbrev Word := BitVec 32

end Sys2Proof
end

