-- ==== Sys2Proof/Types.lean ====
section
/-!
DEFINITION. The types that commands carry and State holds, other than State's own structures: functions of the PCIe
interface, pools, statuses, completions, and the operands of each kind of command.
-/
namespace Sys2Proof

/-- Which part of the family the module is (00_scope.md, the family table). -/
inductive Part where
  | yq9
  | yq7
  | yq5
deriving DecidableEq, Repr

/-- A PCIe function or a slice of PF1 (R119, R428). -/
inductive Fn where
  | pf0
  | pf1
  | vf (n : Nat)
  | slice (n : Nat)
deriving DecidableEq, Repr

/-- A pool of units (R54). -/
inductive Pool where
  | vcc
  | bce
  | dge
  | mae
deriving DecidableEq, Repr

/-- The status of a completion (R198), with the admin-only BUDGET_EXCEEDED. -/
inductive Status where
  | ok
  | malformedDescriptor
  | lengthMismatch
  | translationFault
  | outputTooSmall
  | keyNotFound
  | keyRetired
  | keyPolicy
  | keyDomain
  | inputRejected
  | verifyFailed
  | abortedHost
  | abortedTamper
  | abortedFault
  | unitAbsent
  | algorithmDisabled
  | stateExhausted
  | ledgerUnavailable
  | budgetExceeded
deriving DecidableEq, Repr

/-- The 16-bit code of a status (R198). -/
def Status.code : Status → Nat
  | .ok => 0x0000
  | .malformedDescriptor => 0x0101
  | .lengthMismatch => 0x0102
  | .translationFault => 0x0103
  | .outputTooSmall => 0x0104
  | .keyNotFound => 0x0201
  | .keyRetired => 0x0202
  | .keyPolicy => 0x0203
  | .keyDomain => 0x0204
  | .inputRejected => 0x0301
  | .verifyFailed => 0x0302
  | .abortedHost => 0x0401
  | .abortedTamper => 0x0402
  | .abortedFault => 0x0403
  | .unitAbsent => 0x0501
  | .algorithmDisabled => 0x0502
  | .stateExhausted => 0x0601
  | .ledgerUnavailable => 0x0602
  | .budgetExceeded => 0x0701

/-- A parameters block as the fetch finds it (R184, R189): AUX names none (or 0), the bytes read, or a failed read. -/
inductive BlockIn where
  | zero
  | bytes (b : Bytes)
  | failed
deriving DecidableEq, Repr

/-- What the loaded program of a RUN job takes and returns (R348, R349), with its charge. -/
structure RunShape where
  inLen : Nat := 0
  outLen : Nat := 0
  keyed : Bool := false
  charge : Nat := 0
deriving DecidableEq, Repr


/-- Queue states (R160). -/
inductive QState where
  | enabled
  | error
  | quiesced
deriving DecidableEq, Repr

/-- Slot states (R217). -/
inductive SlotSt where
  | free
  | occupied
  | retiring
deriving DecidableEq, Repr

/-- STATE of a POOL_STATUS record (R500). -/
inductive UnitState where
  | inService
  | fencedKat
  | fencedFault
  | withheldTest
  | heldTamper
deriving DecidableEq, Repr

/-- States of the Meridian unit (R40). -/
inductive MerSt where
  | acquiring
  | locked
  | holdover
  | freeRun
deriving DecidableEq, Repr

/-- TOKEN_STATUS.SESSION (R257). -/
inductive SessKind where
  | noSession
  | full
  | limited
  | ended
  | maintenance
deriving DecidableEq, Repr

/-- Where a fetched job stands (R511, R54): waiting at items (a) to (d), ready, running, preempted, waiting for tokens of R276, or finished with its entry not yet written. -/
inductive Phase where
  | waitTokens
  | waitPlace
  | waitCredit
  | waitStaging
  | ready
  | running
  | preempted
  | overrun
  | done
deriving DecidableEq, Repr

/-- What a completion says before it is written (R195, R196), and whether it counts as an implicit rejection (R284); `fixed` is the 32-byte entry of a restored held completion (R442). -/
structure Completion where
  tag : Nat := 0
  status : Status := .ok
  restarted : Bool := false
  poisoned : Bool := false
  bytes : Nat := 0
  inline : Bytes := []
  implicit : Bool := false
  fixed : Option Bytes := none
deriving DecidableEq, Repr

/-- The causes of R61 met while a job was pending. -/
structure LateCause where
  suspended : Bool := false
  debug : Bool := false
  budget : Bool := false
  cqFull : Bool := false
  resource : Bool := false
deriving DecidableEq, Repr

/-- One operation of an operation set (R47): opcode, ALG_FAMILY for KEYGEN (else 0), PARAM_SET. -/
structure OpEntry where
  op : Nat := 0
  fam : Nat := 0
  ps : Nat := 0
deriving DecidableEq, Repr

/-- The body of an Ephemeris item (R105), decoded; TAMPER_FLOOR (R467), ALMANAC_POLICY (R490), AUM (R232) and KERNEL (R421) are bytes. -/
inductive EphBody where
  | functionMode (slice : Bool) (vfLimit sliceLimit : Nat)
  | meridian (source dialogMs holdoverS : Nat)
  | coaxUse (trace : Bool)
  | bezel (dark : Bool)
  | cls (num d rank order : Nat)
  | classPool (cls : Nat) (pool : Pool) (rho sigma lmax : Nat) (ops : List OpEntry)
  | domainQuota (domain slots queues inflight : Nat)
  | algorithmEnable (bits : List (Nat × Nat))
  | reservation (handle exp : Nat)
  | stagingSplit (holdBack pkCache bouquet : Nat)
  | tamperFloor (body : Bytes)
  | almanacPolicy (body : Bytes)
  | aum (msg : Bytes)
  | kernel (pkg : Bytes)
  | unknown
deriving DecidableEq, Repr

/-- A CLASS entry in effect (R47), with its item index. -/
structure ClassCfg where
  num : Nat := 0
  d : Nat := 1
  rank : Nat := 0
  order : Nat := 1
  item : Nat := 0xFFFF
deriving DecidableEq, Repr

/-- A CLASS_POOL entry in effect (R47), with its item index; `all` allows every operation whose charge is at most `cap` ns (the factory rule, R110). -/
structure PoolCfg where
  cls : Nat := 0
  pool : Pool := .vcc
  rho : Nat := 0
  sigma : Nat := 1
  lmax : Nat := 4096
  ops : List OpEntry := []
  all : Bool := false
  cap : Nat := 0
  item : Nat := 0xFFFF
deriving DecidableEq, Repr

/-- The configuration that an Ephemeris applies (R105); the defaults are those of absent items. -/
structure EphCfg where
  slice : Option Bool := none
  vfLimit : Nat := 255
  sliceLimit : Nat := 4096
  merSource : Option Nat := none
  dialogMs : Nat := 10
  holdoverS : Nat := 0
  coaxTrace : Bool := false
  dark : Option Bool := none
  classes : List ClassCfg := []
  pools : List PoolCfg := []
  quotas : List (Nat × Nat × Nat × Nat) := []
  allAlgs : Bool := false
  algs : List (Nat × Nat) := []
  reservations : List (Nat × Nat) := []
  split : Nat × Nat × Nat := (16, 8, 8)
  floors : List (Nat × Nat) := []
  minSeverity : Nat := 1
  traceSuppress : Nat := 75
  coalesceMs : Nat := 1000
  factory : Bool := false
deriving DecidableEq, Repr

/-- A modulus-table entry (R424). -/
structure ModEntry where
  value : Nat := 0
  method : Nat := 0
  const : Nat := 0
  r2 : Nat := 0
deriving DecidableEq, Repr

/-- An operation entry of a kernel package (R422). -/
structure KOp where
  opbyte : Nat := 0
  keyType : Nat := 0
  key2Type : Nat := 0
  policyBit : Nat := 0xFF
  ps : Nat := 0
  auxLen : Nat := 0
  inMin : Nat := 0
  inMax : Nat := 0
  outBase : Nat := 0
  outPerIn : Nat := 0
  entry : Nat := 0
deriving DecidableEq, Repr

/-- A WCET entry of a kernel package (R423). -/
structure KWcet where
  ps : Nat := 0
  opbyte : Nat := 0
  vlen : Nat := 8
  order : Nat := 0
  maskBpc : Nat := 0
  wcet : Nat := 0
  nps : Nat := 0
  perKib : Nat := 0
deriving DecidableEq, Repr

/-- A loaded kernel package (R421). -/
structure KernelPkg where
  digest : Bytes := []
  orders : Nat := 0
  mae : Bool := false
  owner : Bool := false
  algId : Nat := 0
  compatQ4 : Bool := false
  gf2 : Bool := false
  gang : Nat := 0
  version : Nat := 0
  family : Nat := 0
  ops : List KOp := []
  wcets : List KWcet := []
  mods : List ModEntry := []
  map : List (Nat × Nat × Nat × Nat) := []
  code : List Nat := []
  operandTiles : Nat := 1
  windowTiles : Nat := 0
  constTiles : List Bytes := []
  windowed : Nat := 0
deriving DecidableEq, Repr

/-- An anchored owner authority (class 1, R211, R233). -/
structure AuthKey where
  index : Nat := 0
  hybrid : Bool := false
  ml : Bytes := []
  ec : Bytes := []
deriving DecidableEq, Repr

/-- A domain master key (class 2, R213). -/
structure MasterKey where
  domain : Nat := 0
  index : Nat := 0
  version : Nat := 1
  keyId : Nat := 0
  key : Bytes := []
deriving DecidableEq, Repr

/-- A custody-bank entry (R209, R211, R236): the custody key under the custody-bank key of the entry's index; burned entries are used, and a live
one has its end fuse. -/
structure CustodyEntry where
  key : Bytes := []
  counter : Nat := 0
  live : Bool := false
  blown : Bool := false
deriving DecidableEq, Repr

/-- A BEGIN record of an AUM in the token journal (R236): counter, operation, ARGS bytes and payload. -/
structure AumRec where
  counter : Nat := 0
  operation : Nat := 0
  args : Bytes := []
  payload : Bytes := []
deriving DecidableEq, Repr

/-- A stored debug certificate (R459, R461). -/
structure DbgCert where
  rights : Nat := 0
  cyclesLeft : Nat := 0
  target : Bytes := []
  counter : Nat := 0
  testClusters : Nat := 0
deriving DecidableEq, Repr

/-- Traps of a cluster (R414). -/
inductive TrapKind where
  | constTile
  | operandTile
  | grant
  | secretFlow
  | watchdog
  | selfFault
deriving DecidableEq, Repr

/-- A trap that the cluster supervisor handles (R412, R414): element index and physical tile. -/
structure Trap where
  kind : TrapKind
  element : Nat := 0
  tile : Nat := 0
deriving DecidableEq, Repr

/-- An admin command that completes later. -/
inductive AdminKind where
  | quiesce
  | eraseSlot
  | eraseDomain
  | sliceReset
  | sliceDestroy
  | dirtyLog
deriving DecidableEq, Repr

/-- What the header of a request says of it (R25, R125, R126, R130, R139): routing ID, PASID, translated or untranslated address, the ordering
attributes and hints (never set), ECRC, the tag of a non-posted request, and the IDE stream that protects it, with the ciphertext and MAC that the link
carries then. -/
structure Tlp where
  rid : Nat := 0
  pasid : Option Nat := none
  translated : Bool := false
  relaxed : Bool := false
  noSnoop : Bool := false
  idOrdered : Bool := false
  hints : Bool := false
  ecrc : Bool := false
  tag : Option Nat := none
  ide : Option Nat := none
  guard : Bytes := []
deriving DecidableEq, Repr

/-- What leaves the module: posted writes and reads by IOVA, AtomicOps, translation requests, messages, values returned by reads, and the bezel
and coax outputs. `casBits` is the 64-bit CompareAndSwap at an address, repeated until the bits of the mask are set in that word (R126, R437). -/
inductive LinkMsg where
  | memWrite (h : Tlp) (addr : Nat) (data : Bytes)
  | memRead (h : Tlp) (addr len : Nat)
  | casBits (h : Tlp) (addr mask : Nat)
  | atsRequest (h : Tlp) (page : Nat)
  | msix (h : Tlp) (vector addr data : Nat)
  | readValue (value : Nat)
  | smbus (data : Bytes)
  | ptmRequest
  | doe (data : Bytes)
  | spdmError (code : Nat)
  | atsComplete (fn : Fn) (itag : Nat)
  | trace (frame : Bytes)
  | cplUr (fn : Fn)
deriving DecidableEq, Repr

/-- What the token answers in the second message of step 5 (R245): serial, ML-DSA-44 public key, certificate, nonce Nt, ML-KEM-768 ciphertext
and its signature of the transcript. -/
structure TokenReply where
  serial : Bytes := []
  pk : Bytes := []
  cert : Bytes := []
  nonce : Bytes := []
  ct : Bytes := []
  sig : Bytes := []
deriving DecidableEq, Repr

/-- A step 5 attempt as the ledger link carries it (R245): whether the token answers in time, what reaches the SC in place of its answer, if
anything does, and whether the frames that follow keep their tags and counters. -/
structure Handshake where
  answers : Bool := true
  forged : Option TokenReply := none
  frame : Option Bytes := none
  authentic : Bool := true
deriving DecidableEq, Repr

/-- What the LT-1 desk writer did under a MAINTENANCE session (R246, R258): a copy region erased, B or else A, and how many bytes of an image
programmed into it. -/
structure DeskWrite where
  copyB : Bool := false
  image : Bytes := []
  done : Nat := 0
deriving DecidableEq, Repr

/-- A reservation record of the state area (R252): a RESERVE of one key's leaves, or a CHECKPOINT with its entries of KEY_ID and END_LEAF; the
block it lies in, and its MAC. -/
structure LeafRec where
  checkpoint : Bool := false
  keyId : Nat := 0
  seq : Nat := 0
  first : Nat := 0
  last : Nat := 0
  pc : Nat := 0
  entries : List (Nat × Nat) := []
  mac : Bytes := []
  block : Nat := 0
deriving DecidableEq, Repr

/-- The end of a PTM dialog (R40, R41): the residual after correction and the offset of the reference over Meridian time, in ns; or a failure. -/
inductive PtmResult where
  | answered (residual offset : Int)
  | failed
deriving DecidableEq, Repr

/-- A coax marker (R40, R41): edges since the previous one by the local estimate, and the measured offset used at a relock. -/
structure CoaxMarker where
  edges : Nat := 10000000
  offset : Int := 0
deriving DecidableEq, Repr

/-- How a DMA access fails (R127): three completions that a read returns, or a denied translation. -/
inductive DmaFail where
  | unsupportedRequest
  | completerAbort
  | poisoned
  | denied
deriving DecidableEq, Repr

/-- What an ATS invalidation names (R131): a PASID or none, the first page of 4 KiB, how many. -/
structure AtsRange where
  pasid : Option Nat := none
  first : Nat := 0
  count : Nat := 1
deriving DecidableEq, Repr

/-- What a failed DMA access was for (R127). -/
inductive DmaTarget where
  | job (id : Nat)
  | sqEntry (fn : Fn) (q : Nat)
  | eventRing (fn : Fn)
  | cqWrite (fn : Fn) (q : Nat)
  | dirtyLog (fn : Fn)
deriving DecidableEq, Repr

/-- The stream, key set, sub-stream and direction of an IDE_KM message, and the key and IV of KEY_PROG (R139). -/
structure IdeSlot where
  stream : Nat := 0
  keySet : Nat := 0
  sub : Nat := 0
  rx : Bool := false
  key : Bytes := []
  iv : Bytes := []
deriving DecidableEq, Repr

/-- A TLP of a stream that fails its integrity check, and the job that loses its read with it, if one does (R140). -/
structure IdeLoss where
  stream : Nat := 0
  lost : Option Nat := none
deriving DecidableEq, Repr

/-- An ATS invalidation request: its tag and what it covers, everything where no range is named (R130, R131). -/
structure AtsInval where
  itag : Nat := 0
  range : Option AtsRange := none
deriving DecidableEq, Repr

/-- A DMA read or a translation that fails: what it was for, and how (R127). -/
structure DmaFailure where
  target : DmaTarget
  why : DmaFail := .unsupportedRequest
deriving DecidableEq, Repr

/-- A capability of R119. -/
inductive Cap where
  | pm | pcie | msix | aer | ari | sriov | ats | ptm | acs | doe | ide | pasid
deriving DecidableEq, Repr

/-- Configuration-space fields (R119 to R142): those that host software writes, then those that only report. A BAR is named by its number, 0, 2
or 4; an IDE field by the register block of its stream. `busNumber` is what the module sees of the bus numbers in use: PF0's bus in bits 7 to 0,
the last bus that the upstream port routes to it in bits 15 to 8 (R120). -/
inductive CfgField where
  | busMaster
  | memSpace
  | atsEnable
  | msixEnable
  | functionMask
  | vectorMask (v : Nat)
  | ptmEnable
  | vfEnable
  | numVfs
  | atomicOp
  | pasidEnable
  | busNumber
  | maxPayload
  | maxReadRequest
  | tag10
  | ecrcEnable
  | timeoutValue
  | timeoutDisable
  | aerCorrectable
  | aerUncorrectable
  | aerCorrectableMask
  | aerUncorrectableMask
  | aerSeverity
  | acsControl
  | bar (n : Nat)
  | vfBar (n : Nat)
  | pageSize
  | ideStream (block : Nat)
  | ideRid (block base limit : Nat)
  | ideAddr (block k base limit : Nat)
  | vendorId
  | deviceId
  | classCode
  | capability (c : Cap)
  | totalVfs
  | initialVfs
  | firstVfOffset
  | vfStride
  | supportedPageSizes
  | tableSize
  | maxPayloadSupported
  | timeoutRanges
  | timeoutDisableSupported
  | pasidWidth
  | pasidExecute
  | pasidPrivileged
  | atsPageAligned
  | atsGlobalInvalidate
  | atsQueueDepth
  | acsCapability
  | aerHeader
  | pmeSupport
  | noSoftReset
  | doeStatus
  | doeWrite
deriving DecidableEq, Repr

/-- Where a register access goes: a BAR0, BAR2 or BAR4 of a function, or a configuration-space field. PF1 pages lie in its BARs. -/
inductive RegTarget where
  | bar0 (fn : Fn)
  | bar2 (fn : Fn)
  | bar4 (fn : Fn)
  | config (fn : Fn) (f : CfgField)
deriving DecidableEq, Repr

/-- What can be wrong with a request or completion that arrives, or with the buffer that holds it (R134). -/
inductive TlpError where
  | malformed
  | ecrc
  | overflow
  | unexpected
  | completerAbort
  | bufferCorrected
  | bufferFatal
deriving DecidableEq, Repr

/-- A register write (R501): target, byte offset, width in bits and value, the requester, the IDE stream that the write arrived under (R140), and an
error that its packet meets (R134). -/
structure RegAccess where
  target : RegTarget := .bar0 .pf0
  off : Nat := 0
  width : Nat := 32
  value : Nat := 0
  rid : Nat := 0
  ide : Option Nat := none
  error : Option TlpError := none
deriving DecidableEq, Repr

/-- What the DMA reads of one SQ fetch return (R184, R189): the entry, and the parameters block when the entry names one. -/
structure Fetch where
  entry : Option Bytes := none
  block : BlockIn := .zero
deriving DecidableEq, Repr

/-- A memory error met when a job is dispatched (R17, R480): DRAM channel or SRAM array, address, corrected or not, ECC or MAC. -/
structure MemErr where
  dram : Bool := true
  index : Nat := 0
  addr : Nat := 0
  fatal : Bool := false
  mac : Bool := false
deriving DecidableEq, Repr

/-- What a dispatch meets and what the spec leaves unspecified: the units taken (none named: the lowest free ones), the free slot taken (R225), the input laid out in tiles with its list's entries (R186, R188, R416), a stall on the link (R118), a
failed context tag, a memory error, and the physical tiles of the chosen clusters that are found to fail their check words (R397). -/
structure DispatchIn where
  units : List Nat := []
  slot : Nat := 0
  input : Bytes := []
  inList : List Bytes := []
  stalled : Bool := false
  ctxTagBad : Bool := false
  memErr : Option MemErr := none
  badTiles : List Nat := []
deriving DecidableEq, Repr

/-- An admin command: the function, the 64-byte entry (none: its read fails), the readable bytes of BUF (none: its read fails), and whether its writes pass. -/
structure AdminIn where
  fn : Fn := .pf0
  entry : Option Bytes := none
  buf : Option Bytes := some []
  writeOk : Bool := true
deriving DecidableEq, Repr

/-- A fault met while a job runs (R33, R277, R363, R379, R380, R414, R20): the fenced kinds re-execute. -/
inductive JobFault where
  | resultCheck
  | dupCompare (at_ : Nat)
  | tileCheck (tile : Nat)
  | verdictPair (pair : Nat)
  | dram (chan line : Nat) (mac : Bool)
  | sram (array word : Nat)
deriving DecidableEq, Repr

/-- The run of a dispatched job: the input bytes that the reads returned, fragment-list entries (a list that ends before LAST is a failed read), strings or AAD (none: a failed read), what stage strings and stage lists return, how many input bytes it
takes before it stops (the unspecified read-ahead; GCM_SIV_ENCRYPT takes its input twice, R360), a fault, whether an output write is denied, of which stage the fault or the denied write is, whether its DMA stalled on the link for more than 1 us (R118), and `more`: the job has only come as far
as `progress` input bytes and goes on. -/
structure JobRun where
  job : Nat := 0
  input : Bytes := []
  inList : List Bytes := []
  outList : List Bytes := []
  strings : Option Bytes := some []
  stageStrings : List (Option Bytes) := []
  stageLists : List (List Bytes) := []
  progress : Nat := 0
  fault : Option JobFault := none
  denied : Bool := false
  deniedStage : Nat := 0
  stalled : Bool := false
  more : Bool := false
deriving DecidableEq, Repr

/-- ATTEST as a job or as an admin command (R238). -/
inductive AttestIn where
  | job (r : JobRun)
  | admin (a : AdminIn)
deriving DecidableEq, Repr

/-- A raw command word of an MAE (R346). -/
structure MaeCmd where
  len : Nat := 0
  dst : Nat := 0
  a : Nat := 0
  b : Nat := 0
  m : Nat := 0
deriving DecidableEq, Repr

/-- Operands of an S-format instruction (R399). -/
structure ScalarOps where
  rd : Nat := 0
  rs1 : Nat := 0
  rs2 : Nat := 0
  imm : Option Int := none
deriving DecidableEq, Repr

/-- Operands of a VV- or VS-format instruction (R399); `vs2` is GS for VS. -/
structure VecOps where
  vd : Nat := 0
  vs1 : Nat := 0
  vs2 : Nat := 0
  me : Bool := false
  vm : Nat := 0
  ew : Nat := 0
deriving DecidableEq, Repr

/-- Operands of an M-format instruction (R399): IX is the index vector, or names the stride register in its low bits. -/
structure MemOps where
  vr : Nat := 0
  ab : Nat := 0
  ix : Nat := 0
  me : Bool := false
  vm : Nat := 0
  ew : Nat := 0
  mode : Nat := 0
deriving DecidableEq, Repr

/-- Operands of an H-format instruction (R399); `fn` holds the FN bits that are operands (SHARED, INVERSE, log2 N). -/
structure HOps where
  a : Nat := 0
  b : Nat := 0
  c : Nat := 0
  q : Nat := 0
  fn : Nat := 0
deriving DecidableEq, Repr

/-- What a code word of a vector cluster spells (R399, R400): an instruction, by its mnemonic in the opcode table, with its operands. -/
inductive CodeWord where
  /-- ADD -/
  | add (o : ScalarOps)
  /-- SUB -/
  | sub (o : ScalarOps)
  /-- AND -/
  | and_ (o : ScalarOps)
  /-- OR -/
  | or_ (o : ScalarOps)
  /-- XOR -/
  | xor_ (o : ScalarOps)
  /-- SLL -/
  | sll (o : ScalarOps)
  /-- SRL -/
  | srl (o : ScalarOps)
  /-- SRA -/
  | sra (o : ScalarOps)
  /-- MUL -/
  | mul (o : ScalarOps)
  /-- MULHU -/
  | mulhu (o : ScalarOps)
  /-- SLTU -/
  | sltu (o : ScalarOps)
  /-- LUI -/
  | lui (rd : Nat) (imm : Int)
  /-- SETVL -/
  | setvl (rd : Nat) (rs1 : Nat) (ew : Nat)
  /-- CSRR -/
  | csrr (rd : Nat) (fn : Nat)
  /-- VMVX -/
  | vmvx (rd : Nat) (vs : Nat) (j : Nat)
  /-- VADD -/
  | vadd (o : VecOps)
  /-- VSUB -/
  | vsub (o : VecOps)
  /-- VAND -/
  | vand (o : VecOps)
  /-- VOR -/
  | vor (o : VecOps)
  /-- VXOR -/
  | vxor (o : VecOps)
  /-- VSLL -/
  | vsll (o : VecOps)
  /-- VSRL -/
  | vsrl (o : VecOps)
  /-- VMUL -/
  | vmul (o : VecOps)
  /-- VMULH -/
  | vmulh (o : VecOps)
  /-- VCMP -/
  | vcmp (rel : Nat) (o : VecOps)
  /-- SLIDEUP -/
  | slideup (o : VecOps)
  /-- SLIDEDOWN -/
  | slidedown (o : VecOps)
  /-- REVERSE -/
  | reverse (o : VecOps)
  /-- ZIP -/
  | zip (o : VecOps)
  /-- UNZIP -/
  | unzip (o : VecOps)
  /-- BROADCAST -/
  | broadcast (o : VecOps)
  /-- SHXOR -/
  | shxor (o : VecOps)
  /-- SHAND -/
  | shand (o : VecOps)
  /-- SHXORP -/
  | shxorp (o : VecOps)
  /-- SHANDP -/
  | shandp (o : VecOps)
  /-- SHADD -/
  | shadd (o : VecOps)
  /-- SHREF -/
  | shref (o : VecOps)
  /-- SHBA -/
  | shba (o : VecOps)
  /-- SHAB -/
  | shab (o : VecOps)
  /-- SHSEL -/
  | shsel (o : VecOps)
  /-- SHCMPZ -/
  | shcmpz (o : VecOps)
  /-- SVADD -/
  | svadd (o : VecOps)
  /-- SVXOR -/
  | svxor (o : VecOps)
  /-- SVROT -/
  | svrot (o : VecOps)
  /-- SVMUL -/
  | svmul (o : VecOps)
  /-- VADD_X -/
  | vaddX (o : VecOps)
  /-- VSUB_X -/
  | vsubX (o : VecOps)
  /-- VAND_X -/
  | vandX (o : VecOps)
  /-- VOR_X -/
  | vorX (o : VecOps)
  /-- VXOR_X -/
  | vxorX (o : VecOps)
  /-- VSLL_X -/
  | vsllX (o : VecOps)
  /-- VSRL_X -/
  | vsrlX (o : VecOps)
  /-- VMUL_X -/
  | vmulX (o : VecOps)
  /-- VLD -/
  | vld (o : MemOps)
  /-- VST -/
  | vst (o : MemOps)
  /-- SHLD_SPLIT -/
  | shldSplit (o : MemOps)
  /-- SHLD_SHARES -/
  | shldShares (o : MemOps)
  /-- SHST -/
  | shst (o : MemOps)
  /-- SVLD -/
  | svld (o : MemOps)
  /-- SVST -/
  | svst (o : MemOps)
  /-- WIN_FETCH -/
  | winFetch (src : Nat) (h : HOps)
  /-- WIN_WAIT -/
  | winWait
  /-- XMOV -/
  | xmov (peer : Nat) (h : HOps)
  /-- RAND -/
  | rand (h : HOps)
  /-- NTT -/
  | ntt (h : HOps)
  /-- MADD -/
  | madd (h : HOps)
  /-- MSUB -/
  | msub (h : HOps)
  /-- MMUL -/
  | mmul (h : HOps)
  /-- MRED -/
  | mred (h : HOps)
  /-- TOMONT -/
  | tomont (h : HOps)
  /-- FROMMONT -/
  | frommont (h : HOps)
  /-- KEC_INIT -/
  | kecInit
  /-- KEC_INITS -/
  | kecInits
  /-- KEC_XB -/
  | kecXb (h : HOps)
  /-- KEC_XBS -/
  | kecXbs (h : HOps)
  /-- KEC_PERM -/
  | kecPerm
  /-- KEC_OUT -/
  | kecOut (h : HOps)
  /-- KEC_X4 -/
  | kecX4 (h : HOps)
  /-- SHA2_C256 -/
  | sha2C256 (h : HOps)
  /-- SHA2_C512 -/
  | sha2C512 (h : HOps)
  /-- GFMUL -/
  | gfmul (h : HOps)
  /-- CLMUL -/
  | clmul (h : HOps)
  /-- VERDICT_JOB -/
  | verdictJob (h : HOps)
  /-- VERDICT_CHECK -/
  | verdictCheck (h : HOps)
  /-- BEQ -/
  | beq (ra : Nat) (rb : Nat) (imm : Int)
  /-- BNE -/
  | bne (ra : Nat) (rb : Nat) (imm : Int)
  /-- BLTU -/
  | bltu (ra : Nat) (rb : Nat) (imm : Int)
  /-- JAL -/
  | jal (ra : Nat) (imm : Int)
  /-- JR -/
  | jr (ra : Nat)
  /-- YIELD -/
  | yield_
  /-- YIELD_EXTEND -/
  | yieldExtend
  /-- SYS_FAULT -/
  | sysFault
  /-- UNTAG -/
  | untag (ra : Nat) (file : Nat)
  /-- END -/
  | end_ (shared : Bool) (keyout : Bool)
deriving DecidableEq, Repr

/-- What a status LED shows (R83): steady, blinking at 1 Hz, or green and amber in turn. -/
inductive Led where
  | off
  | amber
  | amberBlink
  | green
  | greenBlink
  | alternating
deriving DecidableEq, Repr

end Sys2Proof
end

