-- ==== Sys2Proof/TokenData.lean ====
section
/-!
DEFINITION. What a ledger token holds (R241 to R256) and what a start meets (R92), carried by commands and by State.
-/
namespace Sys2Proof

/-- A class-4 stateful signing key (R296 to R305). -/
structure StatefulKey where
  /-- 16 b, 11 R297 -/
  domain : Nat := 0
  /-- 0..255, 11 R296 -/
  index : Nat := 0
  /-- 16 b, 11 R297; reset: 1 when installed -/
  version : Nat := 1
  /-- 64 b, 11 R296 -/
  keyId : Nat := 0
  /-- 24 b shape, 11 R295 -/
  param : Nat := 0
  /-- LMS type code per level, 11 R296 HEIGHTS -/
  heights : List Nat := []
  /-- m B, 11 R296 -/
  seed : Bytes := []
  /-- 16 B, 11 R296 I -/
  ident : Bytes := []
  /-- T[1] of the top tree, 11 R296 -/
  root : Bytes := []
  /-- next leaf, 09 R253, 11 R304; reset: FIRST_LEAF -/
  next : Nat := 0
  /-- committed reservations [FIRST, END) not yet used up, 09 R253; reset: none -/
  ranges : List (Nat × Nat) := []
  /-- a reservation record is being written, 09 R253; reset: no -/
  writing : Bool := false
  /-- highest END_LEAF on the token, 09 R253; reset: FIRST_LEAF -/
  endLeaf : Nat := 0
  /-- the tree cache is complete, 11 R302; reset: no -/
  prepared : Bool := false
  /-- bottom tree that the cache holds as current, 11 R302 -/
  cacheTree : Nat := 0
  /-- leaves built of the next tree, by level, 11 R302, R303; reset: none -/
  nextBuilt : List Nat := []
  /-- LEAVES_LOW recorded this start, 11 R305; reset: no -/
  lowNoted : Bool := false
deriving DecidableEq, Repr

/-- What the LT-1 in the socket holds. -/
structure Token where
  /-- 16 B, 09 R241 -/
  serial : Bytes := []
  /-- ML-DSA-44 public key, 09 R241 -/
  idPk : Bytes := []
  /-- ML-DSA-44 private key, which never leaves it, 09 R241 -/
  idSk : Bytes := []
  /-- Llynyan token certificate, 09 R241 -/
  cert : Bytes := []
  /-- ENROLLED mark, 09 R250; reset: blank -/
  enrolled : Bool := false
  /-- 32 B custody-auth key, 09 R247, R249; reset: none -/
  custodyAuth : Option Bytes := none
  /-- two wrap slots: sequence, TCK under a custody-seal key, 09 R249, R251; reset: none -/
  wraps : List (Nat × Bytes) := []
  /-- power cycles, 09 R252 TOKEN_PC; reset: 0 -/
  pc : Nat := 0
  /-- SEQUENCE of its last record, 09 R243, R252; reset: 0 -/
  seq : Nat := 0
  /-- 32 B, the content key that seals its regions, which it holds only wrapped, 09 R249; reset: none -/
  sealedBy : Option Bytes := none
  /-- logical and physical block where they differ, 09 R243; reset: identity -/
  blockMap : List (Nat × Nat) := []
  /-- physical block and its erases, where any, 09 R243; reset: none -/
  wearCount : List (Nat × Nat) := []
  /-- free physical blocks, the next first, 09 R242 spare pool; reset: 448 -/
  spare : List Nat := List.range' 576 448
  /-- blocks at 10,000 erases, 09 R243; reset: none -/
  retired : List Nat := []
  /-- free blocks of the journal, 09 R242; reset: 32 -/
  journalFree : Nat := 32
  /-- records in the journal block being filled, 09 R242; reset: 0 -/
  journalPages : Nat := 0
  /-- claim latch (holder's tag), 09 R247; reset: clear -/
  claim : Option Bytes := none
  /-- 32 b highest Ephemeris sequence, 04 R102; reset: 0 -/
  journalSeq : Nat := 0
  /-- 64 b update counter J, 08 R234; reset: 0 -/
  journalJ : Nat := 0
  /-- BEGIN without END, 08 R236; reset: none -/
  aumBegin : Option AumRec := none
  /-- lifecycle BEGIN record, 18 R452; reset: none -/
  lcsBegin : Option Nat := none
  /-- Almanac clear BEGIN record, 19 R493; reset: no -/
  almBegin : Bool := false
  /-- 4 MiB region A as programmed, 09 R242; reset: EMPTY -/
  copyA : Bytes := []
  /-- 4 MiB region B as programmed, 09 R242; reset: EMPTY -/
  copyB : Bytes := []
  /-- class 1, 08 R211; reset: none -/
  authorities : List AuthKey := []
  /-- class 2, 08 R211; reset: none -/
  masters : List MasterKey := []
  /-- class 3, 08 R211; reset: none -/
  kernelKeys : List (Nat × Bytes) := []
  /-- class 4, 11 R296; reset: none -/
  stateful : List StatefulKey := []
  /-- fleet attestation secret, 08 R211; reset: none -/
  attest : Option Bytes := none
  /-- domain policies that differ from the default, 08 R222; reset: none -/
  policies : List (Nat × BitVec 32) := []
  /-- erase units, 09 R243; reset: 10,240,000 -/
  units : Nat := 10240000
  /-- 1 b, 09 R256; reset: 0 -/
  readOnly : Bool := false
  /-- records of the state area, oldest first, 09 R252; reset: none -/
  log : List LeafRec := []
  /-- block being filled, 09 R255 -/
  logAt : Nat := 127
  /-- free blocks of the state area, 09 R255; reset: 128 -/
  logFree : Nat := 128
  /-- records in the block being filled, 09 R252; reset: 0 -/
  logPages : Nat := 0
  /-- Almanac index and record, 19 R477; reset: none -/
  almRecords : List (Nat × Bytes) := []
  /-- 18 b, 19 R491 ALM_NEXT; reset: 0 -/
  almNext : Nat := 0
  /-- 13 b, 19 R491 ALM_RESERVE_NEXT; reset: 0 -/
  almReserve : Nat := 0
  /-- KIND and count, as last written, 19 R488; reset: none -/
  overflow : List (Nat × Nat) := []
deriving DecidableEq, Repr

/-- What a start meets outside the SC (R92 to R99). -/
structure BootEnv where
  /-- the token seated or removed before this start (none: unchanged), 09 R80, R259; reset: unchanged -/
  seat : Option (Option Token) := none
  /-- outcome of the first step 5 attempt, 09 R245 -/
  hs : Handshake := {}
  /-- switch positions, 03 R84 -/
  straps : BitVec 8 := 0
  /-- the auxiliary rail is in range, 03 R73 -/
  aux : Bool := true
  /-- start-up tests of the noise sources, 04 R98 -/
  sources : List Bool := List.replicate 4 true
  /-- units that fail a known-answer test, with the algorithm id, 04 R95 -/
  kat : List (Nat × Nat) := []
  /-- the SPDM certificate bank has been written (MAKER only), 05 R137 -/
  certBank : Bool := false
  /-- what the desk writer did to the token before this start, 09 R246, R258 -/
  desk : List DeskWrite := []
  /-- the burn of the Device Root Secret reads back otherwise than it was burned, 04 R96 -/
  badDrs : Bool := false
  /-- power was lost in an erase of the state area's log, 09 R260 -/
  tornErase : Bool := false
  /-- power was lost in a custody-bank entry's burn, 08 R236 -/
  tornFuse : Bool := false
  /-- power was lost between this AUM's BEGIN and END, 08 R236 -/
  tornAum : Option AumRec := none
  /-- step, sensor, quadrant, reading of alarms during the start, 04 R99 -/
  alarms : List (Nat × Nat × Nat × Nat) := []
deriving DecidableEq, Repr

end Sys2Proof
end

