-- ==== Sys2Proof/Syntax.lean ====
section
/-!
DEFINITION. The commands of the block: one constructor per row of spec/opcode_table.json, with the row's operands.
-/
namespace Sys2Proof

/-- A command (opcode_table.json). -/
inductive Instr where
  /-- POWER_GOOD -/
  | powerGood (env : BootEnv)
  /-- TOKEN_SESSION_RETRY -/
  | tokenSessionRetry (hs : Handshake)
  /-- STARTUP_HOLD_RESUME -/
  | startupHoldResume
  /-- POWER_LOSS -/
  | powerLoss
  /-- PG_DIP -/
  | pgDip (mv : Nat) (ns : Nat)
  /-- PERST_ASSERT -/
  | perstAssert
  /-- PERST_DEASSERT -/
  | perstDeassert (env : BootEnv)
  /-- PWRDIS_ASSERT -/
  | pwrdisAssert
  /-- PWRDIS_DEASSERT -/
  | pwrdisDeassert
  /-- AUX_ABSENT -/
  | auxAbsent
  /-- LATCH_OPEN -/
  | latchOpen
  /-- THERMAL_WARN -/
  | thermalWarn (celsius : Int)
  /-- THERMAL_WARN_CLEAR -/
  | thermalWarnClear
  /-- ACTIVITY_STRETCH_END -/
  | activityStretchEnd
  /-- SMBUS_OFFSET_WRITE -/
  | smbusOffsetWrite (addr : Nat) (off : Byte)
  /-- SMBUS_FRU_READ -/
  | smbusFruRead (n : Nat) (pec : Bool)
  /-- SMBUS_HEALTH_READ -/
  | smbusHealthRead (n : Nat) (pec : Bool)
  /-- HEALTH_SNAPSHOT -/
  | healthSnapshot (tj : Int) (tb : Int) (p12 : Nat)
  /-- STRAPS_READ -/
  | strapsRead (live : Byte)
  /-- TRANSIT_NOW_LO_READ -/
  | transitNowLoRead (wide : Bool)
  /-- PTM_DIALOG -/
  | ptmDialog
  /-- PTM_RESPONSE -/
  | ptmResponse (r : PtmResult)
  /-- COAX_MARKER -/
  | coaxMarker (m : CoaxMarker)
  /-- COAX_EDGE_LOSS -/
  | coaxEdgeLoss
  /-- PTM_ENABLE_CLEAR -/
  | ptmEnableClear
  /-- HOLDOVER_EXPIRED -/
  | holdoverExpired
  /-- HOLDOVER_DRIFT_UPDATE -/
  | holdoverDriftUpdate
  /-- CATCH_UP_END -/
  | catchUpEnd
  /-- LINK_UP -/
  | linkUp (w : Nat) (speed : Nat)
  /-- LINK_RETRAIN -/
  | linkRetrain (w : Nat) (speed : Nat)
  /-- FLR_VF -/
  | flrVf (n : Nat)
  /-- FLR_PF0 -/
  | flrPf0
  /-- FLR_PF1 -/
  | flrPf1
  /-- HOT_RESET -/
  | hotReset
  /-- SECONDARY_BUS_RESET -/
  | secondaryBusReset
  /-- DL_DOWN -/
  | dlDown
  /-- FUNCTION_RESET_COMPLETE -/
  | functionResetComplete (fn : Fn)
  /-- D3HOT_ENTRY -/
  | d3hotEntry (fn : Fn)
  /-- D0_ENTRY -/
  | d0Entry (fn : Fn)
  /-- BUS_MASTER_ENABLE_CLEAR -/
  | busMasterEnableClear (fn : Fn)
  /-- MEMORY_SPACE_ENABLE_CLEAR -/
  | memorySpaceEnableClear (fn : Fn)
  /-- VF_ENABLE -/
  | vfEnable (numVfs : Nat)
  /-- VF_READY -/
  | vfReady (n : Nat)
  /-- VF_ENABLE_CLEAR -/
  | vfEnableClear
  /-- ATS_INVALIDATE -/
  | atsInvalidate (fn : Fn) (req : AtsInval)
  /-- DMA_READ_FAILURE -/
  | dmaReadFailure (fail : DmaFailure)
  /-- COMPLETION_TIMEOUT -/
  | completionTimeout (t : DmaTarget)
  /-- MSIX_UNMASK -/
  | msixUnmask (fn : Fn) (vec : Option Nat)
  /-- DOE_DISCOVERY -/
  | doeDiscovery (index : Nat)
  /-- DOE_ABORT -/
  | doeAbort
  /-- GET_VERSION -/
  | getVersion
  /-- GET_CAPABILITIES -/
  | getCapabilities
  /-- NEGOTIATE_ALGORITHMS -/
  | negotiateAlgorithms
  /-- GET_DIGESTS -/
  | getDigests
  /-- GET_CERTIFICATE -/
  | getCertificate (off : Nat) (len : Nat)
  /-- SPDM_CHALLENGE -/
  | spdmChallenge (nonce : Bytes)
  /-- GET_MEASUREMENTS -/
  | getMeasurements (index : Nat) (signed : Bool) (nonce : Bytes)
  /-- KEY_EXCHANGE -/
  | keyExchange (req : Bytes)
  /-- FINISH -/
  | finish (session : Nat) (mac : Bytes)
  /-- END_SESSION -/
  | endSession (session : Nat)
  /-- SPDM_UNSUPPORTED_REQUEST -/
  | spdmUnsupportedRequest (code : Nat)
  /-- IDE_KM_QUERY -/
  | ideKmQuery (session : Nat)
  /-- IDE_KM_KEY_PROG -/
  | ideKmKeyProg (session : Nat) (p : IdeSlot)
  /-- IDE_KM_K_SET_GO -/
  | ideKmKSetGo (session : Nat) (p : IdeSlot)
  /-- IDE_KM_K_SET_STOP -/
  | ideKmKSetStop (session : Nat) (p : IdeSlot)
  /-- IDE_INTEGRITY_FAILURE -/
  | ideIntegrityFailure (fail : IdeLoss)
  /-- SQ_TAIL_DOORBELL -/
  | sqTailDoorbell (w : RegAccess)
  /-- CQ_HEAD_DOORBELL -/
  | cqHeadDoorbell (w : RegAccess)
  /-- AQ_ENABLE -/
  | aqEnable (fn : Fn) (value : Word)
  /-- EVR_HEAD -/
  | evrHead (fn : Fn) (value : Word)
  /-- EVR_DROPPED_READ -/
  | evrDroppedRead (fn : Fn)
  /-- CQ_INTERRUPT_TIMER -/
  | cqInterruptTimer (fn : Fn) (q : Nat)
  /-- SQ_FETCH -/
  | sqFetch (fn : Fn) (q : Nat) (f : Fetch)
  /-- JOB_RESERVE -/
  | jobReserve (job : Nat)
  /-- JOB_DISPATCH -/
  | jobDispatch (job : Nat) (d : DispatchIn)
  /-- JOB_PREEMPT -/
  | jobPreempt (victim : Nat) (by_ : Nat) (d : DispatchIn)
  /-- OVERRUN_TOKEN -/
  | overrunToken (job : Nat)
  /-- SLOT_RETIRED -/
  | slotRetired (slot : Nat)
  /-- IDENTIFY -/
  | identify (a : AdminIn)
  /-- CREATE_CQ -/
  | createCq (a : AdminIn)
  /-- CREATE_SQ -/
  | createSq (a : AdminIn)
  /-- DESTROY_SQ -/
  | destroySq (a : AdminIn)
  /-- DESTROY_CQ -/
  | destroyCq (a : AdminIn)
  /-- ABORT_JOB -/
  | abortJob (a : AdminIn)
  /-- GET_LOG_QUEUE_STATUS -/
  | getLogQueueStatus (a : AdminIn)
  /-- GET_LOG_POOL_STATUS -/
  | getLogPoolStatus (a : AdminIn)
  /-- SET_EVENT_RING -/
  | setEventRing (a : AdminIn)
  /-- MONITOR_SNAPSHOT -/
  | monitorSnapshot (a : AdminIn)
  /-- SLOT_INFO -/
  | slotInfo (a : AdminIn)
  /-- DOMAIN_INFO -/
  | domainInfo (a : AdminIn)
  /-- KEY_ADMIN_ERASE -/
  | keyAdminErase (a : AdminIn)
  /-- ERASE_DOMAIN -/
  | eraseDomain (a : AdminIn)
  /-- ANCHOR_INFO -/
  | anchorInfo (a : AdminIn)
  /-- AUM_SUBMIT -/
  | aumSubmit (a : AdminIn)
  /-- DBG_CERT_SUBMIT -/
  | dbgCertSubmit (a : AdminIn)
  /-- QUIESCE -/
  | quiesce (a : AdminIn)
  /-- QUIESCE_DRAINED -/
  | quiesceDrained (fn : Fn)
  /-- QUIESCE_RESUME -/
  | quiesceResume (a : AdminIn)
  /-- SAVE_STATE -/
  | saveState (a : AdminIn)
  /-- RESTORE_STATE -/
  | restoreState (a : AdminIn)
  /-- DIRTY_LOG_ENABLE -/
  | dirtyLogEnable (a : AdminIn)
  /-- DIRTY_LOG_DISABLE -/
  | dirtyLogDisable (a : AdminIn)
  /-- DIRTY_LOG_SYNC -/
  | dirtyLogSync (a : AdminIn)
  /-- SLICE_CREATE -/
  | sliceCreate (a : AdminIn)
  /-- SLICE_RESET -/
  | sliceReset (a : AdminIn)
  /-- SLICE_DESTROY -/
  | sliceDestroy (a : AdminIn)
  /-- ML_KEM_ENCAPS -/
  | mlKemEncaps (x : JobRun)
  /-- ML_KEM_DECAPS -/
  | mlKemDecaps (x : JobRun)
  /-- ML_DSA_SIGN -/
  | mlDsaSign (x : JobRun)
  /-- ML_DSA_VERIFY -/
  | mlDsaVerify (x : JobRun)
  /-- ML_DSA_HASH_SIGN -/
  | mlDsaHashSign (x : JobRun)
  /-- ML_DSA_HASH_VERIFY -/
  | mlDsaHashVerify (x : JobRun)
  /-- SLH_DSA_SIGN -/
  | slhDsaSign (x : JobRun)
  /-- SLH_DSA_VERIFY -/
  | slhDsaVerify (x : JobRun)
  /-- SLH_DSA_HASH_SIGN -/
  | slhDsaHashSign (x : JobRun)
  /-- SLH_DSA_HASH_VERIFY -/
  | slhDsaHashVerify (x : JobRun)
  /-- HSS_SIGN -/
  | hssSign (x : JobRun)
  /-- HSS_VERIFY -/
  | hssVerify (x : JobRun)
  /-- PREPARE -/
  | prepare (x : JobRun)
  /-- PUBLIC_KEY -/
  | publicKey (x : JobRun)
  /-- CODE_ENCAPS -/
  | codeEncaps (x : JobRun)
  /-- CODE_DECAPS -/
  | codeDecaps (x : JobRun)
  /-- LOAD_PUBLIC -/
  | loadPublic (x : JobRun)
  /-- SEAL -/
  | seal (x : JobRun)
  /-- RESEAL -/
  | reseal (x : JobRun)
  /-- OPEN -/
  | open_ (x : JobRun)
  /-- RSA_SIGN -/
  | rsaSign (x : JobRun)
  /-- RSA_VERIFY -/
  | rsaVerify (x : JobRun)
  /-- RSA_DECRYPT -/
  | rsaDecrypt (x : JobRun)
  /-- RSA_ENCRYPT -/
  | rsaEncrypt (x : JobRun)
  /-- ECDSA_SIGN -/
  | ecdsaSign (x : JobRun)
  /-- ECDSA_VERIFY -/
  | ecdsaVerify (x : JobRun)
  /-- ECDH -/
  | ecdh (x : JobRun)
  /-- AGREE -/
  | agree (x : JobRun)
  /-- ED_SIGN -/
  | edSign (x : JobRun)
  /-- ED_VERIFY -/
  | edVerify (x : JobRun)
  /-- RAW_ADD -/
  | rawAdd (x : JobRun)
  /-- RAW_SUB -/
  | rawSub (x : JobRun)
  /-- RAW_MUL -/
  | rawMul (x : JobRun)
  /-- RAW_SQR -/
  | rawSqr (x : JobRun)
  /-- RAW_INV -/
  | rawInv (x : JobRun)
  /-- RAW_EXP -/
  | rawExp (x : JobRun)
  /-- RUN -/
  | run (x : JobRun)
  /-- MAE_ADD -/
  | maeAdd (m : Nat) (k : MaeCmd)
  /-- MAE_SUB -/
  | maeSub (m : Nat) (k : MaeCmd)
  /-- MAE_MUL -/
  | maeMul (m : Nat) (k : MaeCmd)
  /-- MAE_SQR -/
  | maeSqr (m : Nat) (k : MaeCmd)
  /-- MAE_INV -/
  | maeInv (m : Nat) (k : MaeCmd)
  /-- MAE_EXP -/
  | maeExp (m : Nat) (k : MaeCmd)
  /-- MAE_END -/
  | maeEnd (m : Nat) (k : MaeCmd)
  /-- CBC_ENCRYPT -/
  | cbcEncrypt (x : JobRun)
  /-- CBC_DECRYPT -/
  | cbcDecrypt (x : JobRun)
  /-- CTR -/
  | ctr (x : JobRun)
  /-- XTS_ENCRYPT -/
  | xtsEncrypt (x : JobRun)
  /-- XTS_DECRYPT -/
  | xtsDecrypt (x : JobRun)
  /-- GCM_ENCRYPT -/
  | gcmEncrypt (x : JobRun)
  /-- GCM_DECRYPT -/
  | gcmDecrypt (x : JobRun)
  /-- GMAC_GENERATE -/
  | gmacGenerate (x : JobRun)
  /-- GMAC_VERIFY -/
  | gmacVerify (x : JobRun)
  /-- GCM_SIV_ENCRYPT -/
  | gcmSivEncrypt (x : JobRun)
  /-- GCM_SIV_DECRYPT -/
  | gcmSivDecrypt (x : JobRun)
  /-- CCM_ENCRYPT -/
  | ccmEncrypt (x : JobRun)
  /-- CCM_DECRYPT -/
  | ccmDecrypt (x : JobRun)
  /-- KW_WRAP -/
  | kwWrap (x : JobRun)
  /-- KW_UNWRAP -/
  | kwUnwrap (x : JobRun)
  /-- KWP_WRAP -/
  | kwpWrap (x : JobRun)
  /-- KWP_UNWRAP -/
  | kwpUnwrap (x : JobRun)
  /-- CHACHA_POLY_ENCRYPT -/
  | chachaPolyEncrypt (x : JobRun)
  /-- CHACHA_POLY_DECRYPT -/
  | chachaPolyDecrypt (x : JobRun)
  /-- CTX_OPEN -/
  | ctxOpen (x : JobRun)
  /-- CTX_CLOSE -/
  | ctxClose (x : JobRun)
  /-- HASH -/
  | hash (x : JobRun)
  /-- HMAC_GENERATE -/
  | hmacGenerate (x : JobRun)
  /-- HMAC_VERIFY -/
  | hmacVerify (x : JobRun)
  /-- KMAC_GENERATE -/
  | kmacGenerate (x : JobRun)
  /-- KMAC_VERIFY -/
  | kmacVerify (x : JobRun)
  /-- VERIFY_DIGEST -/
  | verifyDigest (x : JobRun)
  /-- DGE_CTX_OPEN -/
  | dgeCtxOpen (x : JobRun)
  /-- DGE_CTX_CLOSE -/
  | dgeCtxClose (x : JobRun)
  /-- STATE_EXPORT -/
  | stateExport (x : JobRun)
  /-- STATE_IMPORT -/
  | stateImport (x : JobRun)
  /-- LEAF -/
  | leaf (x : JobRun)
  /-- ROOT -/
  | root (x : JobRun)
  /-- CHUNK_ROOT -/
  | chunkRoot (x : JobRun)
  /-- VERIFY_PATH -/
  | verifyPath (x : JobRun)
  /-- BOUQUET -/
  | bouquet (x : JobRun)
  /-- KEYGEN -/
  | keygen (x : JobRun)
  /-- DERIVE -/
  | derive (x : JobRun)
  /-- UNWRAP -/
  | unwrap (x : JobRun)
  /-- WRAP -/
  | wrap (x : JobRun)
  /-- ERASE -/
  | erase (x : JobRun)
  /-- RANDOM -/
  | random (x : JobRun)
  /-- ATTEST_CHALLENGE -/
  | attestChallenge (x : AttestIn)
  /-- ATTEST_QUOTE -/
  | attestQuote (x : AttestIn)
  /-- ATTEST_IDENTITY -/
  | attestIdentity (x : AttestIn)
  /-- ADD -/
  | add (c : Nat) (o : ScalarOps)
  /-- SUB -/
  | sub (c : Nat) (o : ScalarOps)
  /-- AND -/
  | and_ (c : Nat) (o : ScalarOps)
  /-- OR -/
  | or_ (c : Nat) (o : ScalarOps)
  /-- XOR -/
  | xor_ (c : Nat) (o : ScalarOps)
  /-- SLL -/
  | sll (c : Nat) (o : ScalarOps)
  /-- SRL -/
  | srl (c : Nat) (o : ScalarOps)
  /-- SRA -/
  | sra (c : Nat) (o : ScalarOps)
  /-- MUL -/
  | mul (c : Nat) (o : ScalarOps)
  /-- MULHU -/
  | mulhu (c : Nat) (o : ScalarOps)
  /-- SLTU -/
  | sltu (c : Nat) (o : ScalarOps)
  /-- LUI -/
  | lui (c : Nat) (rd : Nat) (imm : Int)
  /-- SETVL -/
  | setvl (c : Nat) (rd : Nat) (rs1 : Nat) (ew : Nat)
  /-- CSRR -/
  | csrr (c : Nat) (rd : Nat) (fn : Nat)
  /-- VMVX -/
  | vmvx (c : Nat) (rd : Nat) (vs : Nat) (j : Nat)
  /-- VADD -/
  | vadd (c : Nat) (o : VecOps)
  /-- VSUB -/
  | vsub (c : Nat) (o : VecOps)
  /-- VAND -/
  | vand (c : Nat) (o : VecOps)
  /-- VOR -/
  | vor (c : Nat) (o : VecOps)
  /-- VXOR -/
  | vxor (c : Nat) (o : VecOps)
  /-- VSLL -/
  | vsll (c : Nat) (o : VecOps)
  /-- VSRL -/
  | vsrl (c : Nat) (o : VecOps)
  /-- VMUL -/
  | vmul (c : Nat) (o : VecOps)
  /-- VMULH -/
  | vmulh (c : Nat) (o : VecOps)
  /-- VCMP -/
  | vcmp (c : Nat) (rel : Nat) (o : VecOps)
  /-- SLIDEUP -/
  | slideup (c : Nat) (o : VecOps)
  /-- SLIDEDOWN -/
  | slidedown (c : Nat) (o : VecOps)
  /-- REVERSE -/
  | reverse (c : Nat) (o : VecOps)
  /-- ZIP -/
  | zip (c : Nat) (o : VecOps)
  /-- UNZIP -/
  | unzip (c : Nat) (o : VecOps)
  /-- BROADCAST -/
  | broadcast (c : Nat) (o : VecOps)
  /-- SHXOR -/
  | shxor (c : Nat) (o : VecOps)
  /-- SHAND -/
  | shand (c : Nat) (o : VecOps)
  /-- SHXORP -/
  | shxorp (c : Nat) (o : VecOps)
  /-- SHANDP -/
  | shandp (c : Nat) (o : VecOps)
  /-- SHADD -/
  | shadd (c : Nat) (o : VecOps)
  /-- SHREF -/
  | shref (c : Nat) (o : VecOps)
  /-- SHBA -/
  | shba (c : Nat) (o : VecOps)
  /-- SHAB -/
  | shab (c : Nat) (o : VecOps)
  /-- SHSEL -/
  | shsel (c : Nat) (o : VecOps)
  /-- SHCMPZ -/
  | shcmpz (c : Nat) (o : VecOps)
  /-- SVADD -/
  | svadd (c : Nat) (o : VecOps)
  /-- SVXOR -/
  | svxor (c : Nat) (o : VecOps)
  /-- SVROT -/
  | svrot (c : Nat) (o : VecOps)
  /-- SVMUL -/
  | svmul (c : Nat) (o : VecOps)
  /-- VADD_X -/
  | vaddX (c : Nat) (o : VecOps)
  /-- VSUB_X -/
  | vsubX (c : Nat) (o : VecOps)
  /-- VAND_X -/
  | vandX (c : Nat) (o : VecOps)
  /-- VOR_X -/
  | vorX (c : Nat) (o : VecOps)
  /-- VXOR_X -/
  | vxorX (c : Nat) (o : VecOps)
  /-- VSLL_X -/
  | vsllX (c : Nat) (o : VecOps)
  /-- VSRL_X -/
  | vsrlX (c : Nat) (o : VecOps)
  /-- VMUL_X -/
  | vmulX (c : Nat) (o : VecOps)
  /-- VLD -/
  | vld (c : Nat) (o : MemOps)
  /-- VST -/
  | vst (c : Nat) (o : MemOps)
  /-- SHLD_SPLIT -/
  | shldSplit (c : Nat) (o : MemOps)
  /-- SHLD_SHARES -/
  | shldShares (c : Nat) (o : MemOps)
  /-- SHST -/
  | shst (c : Nat) (o : MemOps)
  /-- SVLD -/
  | svld (c : Nat) (o : MemOps)
  /-- SVST -/
  | svst (c : Nat) (o : MemOps)
  /-- WIN_FETCH -/
  | winFetch (c : Nat) (src : Nat) (h : HOps)
  /-- WIN_FETCH_COMPLETE -/
  | winFetchComplete (c : Nat) (job : Nat)
  /-- WIN_WAIT -/
  | winWait (c : Nat)
  /-- XMOV -/
  | xmov (c : Nat) (peer : Nat) (h : HOps)
  /-- RAND -/
  | rand (c : Nat) (h : HOps)
  /-- NTT -/
  | ntt (c : Nat) (h : HOps)
  /-- MADD -/
  | madd (c : Nat) (h : HOps)
  /-- MSUB -/
  | msub (c : Nat) (h : HOps)
  /-- MMUL -/
  | mmul (c : Nat) (h : HOps)
  /-- MRED -/
  | mred (c : Nat) (h : HOps)
  /-- TOMONT -/
  | tomont (c : Nat) (h : HOps)
  /-- FROMMONT -/
  | frommont (c : Nat) (h : HOps)
  /-- KEC_INIT -/
  | kecInit (c : Nat)
  /-- KEC_INITS -/
  | kecInits (c : Nat)
  /-- KEC_XB -/
  | kecXb (c : Nat) (h : HOps)
  /-- KEC_XBS -/
  | kecXbs (c : Nat) (h : HOps)
  /-- KEC_PERM -/
  | kecPerm (c : Nat)
  /-- KEC_OUT -/
  | kecOut (c : Nat) (h : HOps)
  /-- KEC_X4 -/
  | kecX4 (c : Nat) (h : HOps)
  /-- SHA2_C256 -/
  | sha2C256 (c : Nat) (h : HOps)
  /-- SHA2_C512 -/
  | sha2C512 (c : Nat) (h : HOps)
  /-- GFMUL -/
  | gfmul (c : Nat) (h : HOps)
  /-- CLMUL -/
  | clmul (c : Nat) (h : HOps)
  /-- VERDICT_JOB -/
  | verdictJob (c : Nat) (h : HOps)
  /-- VERDICT_CHECK -/
  | verdictCheck (c : Nat) (h : HOps)
  /-- BEQ -/
  | beq (c : Nat) (ra : Nat) (rb : Nat) (imm : Int)
  /-- BNE -/
  | bne (c : Nat) (ra : Nat) (rb : Nat) (imm : Int)
  /-- BLTU -/
  | bltu (c : Nat) (ra : Nat) (rb : Nat) (imm : Int)
  /-- JAL -/
  | jal (c : Nat) (ra : Nat) (imm : Int)
  /-- JR -/
  | jr (c : Nat) (ra : Nat)
  /-- YIELD -/
  | yield_ (c : Nat)
  /-- YIELD_EXTEND -/
  | yieldExtend (c : Nat)
  /-- SYS_FAULT -/
  | sysFault (c : Nat)
  /-- UNTAG -/
  | untag (c : Nat) (ra : Nat) (file : Nat)
  /-- END -/
  | end_ (c : Nat) (shared : Bool) (keyout : Bool) (x : JobRun)
  /-- WATCHDOG -/
  | watchdog (c : Nat)
  /-- TILE_RELOAD -/
  | tileReload (c : Nat) (again : Bool)
  /-- RESERVATION_COMMIT -/
  | reservationCommit (domain : Nat) (index : Nat)
  /-- TOKEN_SESSION_END -/
  | tokenSessionEnd
  /-- TOKEN_LIFE_REFRESH -/
  | tokenLifeRefresh
  /-- ALMANAC_COMMIT -/
  | almanacCommit
  /-- COALESCE_WINDOW_CLOSE -/
  | coalesceWindowClose (kind : Nat) (source : Nat)
  /-- HOUR_TICK -/
  | hourTick
  /-- ALM_CURSOR_WRITE -/
  | almCursorWrite (value : Word)
  /-- ALM_WINDOW15_READ -/
  | almWindow15Read
  /-- ALM_WINDOW_LOAD -/
  | almWindowLoad
  /-- ALM_STATUS_READ -/
  | almStatusRead
  /-- ALM_CLEAR -/
  | almClear (value : Word)
  /-- ALMANAC_CLEARED -/
  | almanacCleared
  /-- LCS_ADVANCE_INTEGRATOR -/
  | lcsAdvanceIntegrator (value : Word)
  /-- LCS_ADVANCE_FIELDED -/
  | lcsAdvanceFielded (value : Word)
  /-- LCS_ADVANCE_RETURNED -/
  | lcsAdvanceReturned (value : Word)
  /-- LCS_ADVANCE_SCRAPPED -/
  | lcsAdvanceScrapped (value : Word)
  /-- LCS_TRANSITION -/
  | lcsTransition
  /-- DBG_RIGHTS_WRITE -/
  | dbgRightsWrite (value : Word)
  /-- DBG_STEP_ARM -/
  | dbgStepArm (value : Word)
  /-- DBG_STEP -/
  | dbgStep
  /-- DBG_STEP_RUN -/
  | dbgStepRun
  /-- TAMPER_ALARM -/
  | tamperAlarm (sensor : Nat) (quadrant : Nat) (reading : Nat)
  /-- SEALING_KEY_DESTROY -/
  | sealingKeyDestroy
  /-- DESTROY_ZEROIZE_END -/
  | destroyZeroizeEnd
  /-- TAMPER_HOLD_END -/
  | tamperHoldEnd (sensor : Nat) (quadrant : Nat)
  /-- TAMPER_ACK_SENSOR -/
  | tamperAckSensor (value : Word)
  /-- TAMPER_ACK_SLEEP_LATCH -/
  | tamperAckSleepLatch (value : Word)
  /-- FAULT_ACK -/
  | faultAck (value : Word)
  /-- HANG -/
  | hang (unit : Nat)
  /-- ENTROPY -/
  | entropy (source : Nat) (test : Nat)
  /-- LOCKSTEP -/
  | lockstep (orrery : Bool)
  /-- MASK_RESEED -/
  | maskReseed (unit : Nat)
  /-- DDP_START -/
  | ddpStart (fn : Fn) (alg : Nat)
  /-- DDP_RELEASE -/
  | ddpRelease (fn : Fn)
  /-- DDP_DATA -/
  | ddpData (fn : Fn) (w : RegAccess)
  /-- DDP_LAST_WORD -/
  | ddpLastWord (fn : Fn) (w : RegAccess)
  /-- DDP_LAST_LENGTH -/
  | ddpLastLength (fn : Fn) (value : Word)
  /-- DDP_DONE -/
  | ddpDone (fn : Fn) (mismatch : Bool)
  /-- OUT_SEND -/
  | outSend (fn : Fn)
  /-- IN_ACK -/
  | inAck (fn : Fn)
  /-- IN_SEND -/
  | inSend
  /-- OUT_ACK -/
  | outAck
  /-- REGISTER_WRITE -/
  | registerWrite (w : RegAccess)
  /-- DRAM_CHANNEL_LINK_FAILURE -/
  | dramChannelLinkFailure (chan : Nat)
  /-- COAX_MARKER_MISSING -/
  | coaxMarkerMissing
  /-- TAMPER_CONDITION_CLEAR -/
  | tamperConditionClear (sensor : Nat) (quadrant : Nat)
  /-- AUXILIARY_POWER_ON -/
  | auxiliaryPowerOn
  /-- AUXILIARY_POWER_LOSS -/
  | auxiliaryPowerLoss
  /-- TRACE_FRAME_SENT -/
  | traceFrameSent
  /-- MAILBOX_DATA_WRITE -/
  | mailboxDataWrite (w : RegAccess)
deriving DecidableEq, Repr

end Sys2Proof
end

