-- ==== Sys2Proof/Decode.lean ====
section
/-!
DEFINITION. The command that a word spells by the table's bits: no row of spec/opcode_table.json gives bits. The instruction that a 32-bit code word
of a vector cluster spells (R399, R400).
-/
namespace Sys2Proof

/-- No row of the table gives bits, so no word spells a command. -/
def decodeTableWord (_nbits _w : Nat) : Option Instr := none

/-! ### Code words of the vector clusters (R399, R400) -/

/-- Bits `[lo + n - 1 : lo]` of a word. -/
def wordBits (w lo n : Nat) : Nat := w / 2 ^ lo % 2 ^ n

/-- A bit of a word. -/
def wordBit (w i : Nat) : Bool := wordBits w i 1 == 1

/-- A field of `n` bits as a signed number. -/
def signedField (n v : Nat) : Int := if v < 2 ^ (n - 1) then (v : Int) else (v : Int) - (2 ^ n : Nat)

/-- The operands of format S: I = 0 takes RS2, I = 1 the signed IMM15. -/
def fieldsS (w : Nat) : ScalarOps :=
  if wordBit w 15 then { rd := wordBits w 21 5, rs1 := wordBits w 16 5, imm := some (signedField 15 (wordBits w 0 15)) }
  else { rd := wordBits w 21 5, rs1 := wordBits w 16 5, rs2 := wordBits w 10 5 }

/-- The operands of formats VV and VS. -/
def fieldsV (w : Nat) : VecOps :=
  { vd := wordBits w 21 5, vs1 := wordBits w 16 5, vs2 := wordBits w 11 5, me := wordBit w 10, vm := wordBits w 7 3, ew := wordBits w 5 2 }

/-- The operands of format M. -/
def fieldsM (w : Nat) : MemOps :=
  { vr := wordBits w 21 5, ab := wordBits w 18 3, ix := wordBits w 13 5, me := wordBit w 12, vm := wordBits w 9 3, ew := wordBits w 7 2, mode := wordBits w 5 2 }

/-- The operands of format H; `fn` is what of FN is an operand. -/
def fieldsH (w fn : Nat) : HOps := { a := wordBits w 21 5, b := wordBits w 16 5, c := wordBits w 11 5, q := wordBits w 8 3, fn := fn }

/-- OP 0x01 to 0x0F: the scalar instructions. -/
def decodeScalar (op w : Nat) : Option CodeWord :=
  let o := fieldsS w
  match op with
  | 0x01 => some (.add o)
  | 0x02 => some (.sub o)
  | 0x03 => some (.and_ o)
  | 0x04 => some (.or_ o)
  | 0x05 => some (.xor_ o)
  | 0x06 => some (.sll o)
  | 0x07 => some (.srl o)
  | 0x08 => some (.sra o)
  | 0x09 => some (.mul o)
  | 0x0A => some (.mulhu o)
  | 0x0B => some (.sltu o)
  | 0x0C => some (.lui o.rd (signedField 15 (wordBits w 0 15)))
  | 0x0D => some (.setvl o.rd o.rs1 (wordBits w 0 2))
  | 0x0E => some (.csrr o.rd (wordBits w 0 10))
  | 0x0F => some (.vmvx o.rd o.rs1 (wordBits w 0 10))
  | _ => none

/-- OP 0x1A: VPERM by FN. -/
def decodePerm (o : VecOps) : Nat → Option CodeWord
  | 0 => some (.slideup o)
  | 1 => some (.slidedown o)
  | 2 => some (.reverse o)
  | 3 => some (.zip o)
  | 4 => some (.unzip o)
  | 5 => some (.broadcast o)
  | _ => none

/-- OP 0x1B: the share-aware instructions by FN (R404). -/
def decodeShare (o : VecOps) : Nat → Option CodeWord
  | 0 => some (.shxor o)
  | 1 => some (.shand o)
  | 2 => some (.shxorp o)
  | 3 => some (.shandp o)
  | 4 => some (.shadd o)
  | 5 => some (.shref o)
  | 6 => some (.shba o)
  | 7 => some (.shab o)
  | 8 => some (.shsel o)
  | 9 => some (.shcmpz o)
  | _ => none

/-- OP 0x10 to 0x27: the vector instructions. -/
def decodeVector (op w : Nat) : Option CodeWord :=
  let o := fieldsV w
  let fn := wordBits w 0 5
  match op with
  | 0x10 => some (.vadd o)
  | 0x11 => some (.vsub o)
  | 0x12 => some (.vand o)
  | 0x13 => some (.vor o)
  | 0x14 => some (.vxor o)
  | 0x15 => some (.vsll o)
  | 0x16 => some (.vsrl o)
  | 0x17 => some (.vmul o)
  | 0x18 => some (.vmulh o)
  | 0x19 => if fn < 3 then some (.vcmp fn o) else none
  | 0x1A => decodePerm o fn
  | 0x1B => decodeShare o fn
  | 0x1C => some (.svadd o)
  | 0x1D => some (.svxor o)
  | 0x1E => some (.svrot o)
  | 0x1F => some (.svmul o)
  | 0x20 => some (.vaddX o)
  | 0x21 => some (.vsubX o)
  | 0x22 => some (.vandX o)
  | 0x23 => some (.vorX o)
  | 0x24 => some (.vxorX o)
  | 0x25 => some (.vsllX o)
  | 0x26 => some (.vsrlX o)
  | 0x27 => some (.vmulX o)
  | _ => none

/-- OP 0x28 to 0x2C: the memory instructions (R403). -/
def decodeMemory (op w : Nat) : Option CodeWord :=
  let o := fieldsM w
  match op, wordBits w 0 5 with
  | 0x28, 0 => some (.vld o)
  | 0x29, 0 => some (.vst o)
  | 0x2A, 0 => some (.shldSplit o)
  | 0x2A, 1 => some (.shldShares o)
  | 0x2B, 1 => some (.shst o)
  | 0x2C, 0 => some (.svld o)
  | 0x2C, 1 => some (.svst o)
  | _, _ => none

/-- OP 0x31: MOD by FN[2:0]; FN[5] SHARED is an operand (R405). -/
def decodeMod (w : Nat) : Option CodeWord :=
  let h := fieldsH w (32 * wordBits w 5 1)
  match wordBits w 0 3 with
  | 0 => some (.madd h)
  | 1 => some (.msub h)
  | 2 => some (.mmul h)
  | 3 => some (.mred h)
  | 4 => some (.tomont h)
  | 5 => some (.frommont h)
  | _ => none

/-- OP 0x32: KEC by FN (R405). -/
def decodeKec (w : Nat) : Option CodeWord :=
  let h := fieldsH w 0
  match wordBits w 0 8 with
  | 0 => some (.kecInit)
  | 1 => some (.kecInits)
  | 2 => some (.kecXb h)
  | 3 => some (.kecXbs h)
  | 4 => some (.kecPerm)
  | 5 => some (.kecOut h)
  | 6 => some (.kecX4 h)
  | _ => none

/-- OP 0x2D to 0x35: the H-class instructions (R405). -/
def decodeH (op w : Nat) : Option CodeWord :=
  let fn := wordBits w 0 8
  let h := fieldsH w 0
  match op with
  | 0x2D => if fn < 3 then some (.winFetch fn h) else if fn == 3 then some (.winWait) else none
  | 0x2E => if fn < 4 then some (.xmov fn h) else none
  | 0x2F => some (.rand h)
  | 0x30 => some (.ntt (fieldsH w fn))
  | 0x31 => decodeMod w
  | 0x32 => decodeKec w
  | 0x33 => some (if wordBit w 0 then .sha2C512 (fieldsH w (16 * wordBits w 4 1)) else .sha2C256 (fieldsH w (16 * wordBits w 4 1)))
  | 0x34 => some (if fn == 0 then .gfmul h else .clmul h)
  | 0x35 => some (if fn == 0 then .verdictJob h else .verdictCheck h)
  | _ => none

/-- OP 0x38 to 0x3F: branches, jumps, SYS and END (R400). -/
def decodeControl (op w : Nat) : Option CodeWord :=
  let ra := wordBits w 21 5
  let rb := wordBits w 16 5
  let imm := signedField 16 (wordBits w 0 16)
  match op with
  | 0x38 => some (.beq ra rb imm)
  | 0x39 => some (.bne ra rb imm)
  | 0x3A => some (.bltu ra rb imm)
  | 0x3B => some (.jal ra imm)
  | 0x3C => some (.jr ra)
  | 0x3D =>
    match wordBits w 0 4 with
    | 0 => some (.yield_)
    | 1 => some (.yieldExtend)
    | 2 => some (.sysFault)
    | 3 => some (.untag ra (wordBits w 4 2))
    | _ => none
  | 0x3F => some (.end_ (wordBit w 0) (wordBit w 1))
  | _ => none

/-- The instruction that a code word spells; none for an invalid opcode or function (R399 to R401). -/
def vccDecode (w : Nat) : Option CodeWord :=
  let op := wordBits w 26 6
  if op < 0x10 then decodeScalar op w
  else if op < 0x28 then decodeVector op w
  else if op < 0x2D then decodeMemory op w
  else if op < 0x36 then decodeH op w
  else decodeControl op w

end Sys2Proof
end

