-- ==== Sys2Proof/Machine/Bits.lean ====
section
/-!
DEFINITION. Byte strings and numbers: little-endian and big-endian conversion, slices, exclusive or, bit fields,
ceiling division. Every multi-byte field of the model is read and written through these (R8).
-/
namespace Sys2Proof.Machine

/-- The byte of value `n mod 256`. -/
def byteOf (n : Nat) : Byte := BitVec.ofNat 8 n

/-- The unsigned value of a little-endian byte string (R8). -/
def leNat : Bytes → Nat
  | [] => 0
  | b :: r => b.toNat + 256 * leNat r

/-- `n` bytes of `v`, little-endian; bits above are dropped (R8). -/
def leBytes : Nat → Nat → Bytes
  | 0, _ => []
  | n + 1, v => byteOf v :: leBytes n (v / 256)

/-- The unsigned value of a big-endian byte string. -/
def beNat (bs : Bytes) : Nat := bs.foldl (fun a b => 256 * a + b.toNat) 0

/-- `n` bytes of `v`, big-endian; bits above are dropped. -/
def beBytes (n v : Nat) : Bytes := (leBytes n v).reverse

/-- `n` zero bytes. -/
def zeros (n : Nat) : Bytes := List.replicate n 0

/-- Bytes `[off, off + len)` of `bs`; bytes past its end are absent. -/
def sliceOf (bs : Bytes) (off len : Nat) : Bytes := (bs.drop off).take len

/-- Bytes `[off, off + len)` of `bs`, with zeros past its end. -/
def sliceZ (bs : Bytes) (off len : Nat) : Bytes :=
  let x := sliceOf bs off len
  x ++ zeros (len - x.length)

/-- The little-endian field of `len` bytes at byte `off`. -/
def fieldLE (bs : Bytes) (off len : Nat) : Nat := leNat (sliceOf bs off len)

/-- The byte at `off` as a number; 0 past the end. -/
def byteAt (bs : Bytes) (off : Nat) : Nat := (bs.getD off 0).toNat

/-- Every byte is 0. -/
def allZero (bs : Bytes) : Bool := bs.all (· == 0)

/-- `bs` with `x` written over it at `off` (the parts that lie inside). -/
def overwrite (bs : Bytes) (off : Nat) (x : Bytes) : Bytes :=
  bs.take off ++ x.take (bs.length - off) ++ bs.drop (off + x.length)

/-- Bytewise exclusive or, as long as the shorter operand. -/
def xorBytes (a b : Bytes) : Bytes := List.zipWith (· ^^^ ·) a b

/-- The bytes of an ASCII text. -/
def ascii (s : String) : Bytes := s.toList.map (fun c => byteOf c.toNat)

/-- The least integer at or above `a / b`. -/
def ceilDiv (a b : Nat) : Nat := (a + b - 1) / b

/-- `a` raised to the next multiple of `b`. -/
def roundUp (a b : Nat) : Nat := ceilDiv a b * b

/-- Bit `i` of `n`. -/
def bitOf (n i : Nat) : Bool := n / 2 ^ i % 2 == 1

/-- Bits `[lo + w - 1 : lo]` of `n`. -/
def bitsOf (n lo w : Nat) : Nat := n / 2 ^ lo % 2 ^ w

/-- 1 for true, shifted left by `i`. -/
def bitAt (b : Bool) (i : Nat) : Nat := if b then 2 ^ i else 0

/-- `n` held at its maximum `m` (a counter that saturates). -/
def satAt (m n : Nat) : Nat := if n > m then m else n

/-- A 32-bit counter raised by 1, saturating. -/
def sat32 (n : Nat) : Nat := satAt 0xFFFFFFFF (n + 1)

/-- An 8-bit counter raised by 1, saturating. -/
def sat8 (n : Nat) : Nat := satAt 0xFF (n + 1)

/-- `bs` cut into pieces of `n` bytes (the last one shorter); `fuel` bounds their number. -/
def chunksFuel (n : Nat) : Nat → Bytes → List Bytes
  | 0, _ => []
  | f + 1, bs => if bs.isEmpty then [] else bs.take n :: chunksFuel n f (bs.drop n)

/-- `bs` cut into pieces of `n` bytes, the last one possibly shorter. -/
def chunks (n : Nat) (bs : Bytes) : List Bytes := chunksFuel n bs.length bs

/-- The list with its element at `i` replaced through `f` (nothing past the end). -/
def modAt {α : Type} (l : List α) (i : Nat) (f : α → α) : List α :=
  match l, i with
  | [], _ => []
  | a :: r, 0 => f a :: r
  | a :: r, n + 1 => a :: modAt r n f

/-- The first element that `p` accepts, replaced through `f`. -/
def modFirst {α : Type} (p : α → Bool) (f : α → α) : List α → List α
  | [] => []
  | a :: r => if p a then f a :: r else a :: modFirst p f r

/-- The list with an entry put where `p` finds one, else at the end. -/
def putWhere {α : Type} (p : α → Bool) (x : α) (l : List α) : List α := if l.any p then modFirst p (fun _ => x) l else l ++ [x]

/-- Every element that `p` accepts, replaced through `f`. -/
def modWhere {α : Type} (p : α → Bool) (f : α → α) (l : List α) : List α :=
  l.map (fun a => if p a then f a else a)

/-- Does `s` stand at the start of `bs`? -/
def startsWith (bs s : Bytes) : Bool := bs.take s.length == s

end Sys2Proof.Machine
end

