-- ==== Sys2Proof/Machine/Keccak.lean ====
section
/-!
DEFINITION. Keccak-f[1600], SHA-3 and SHAKE of FIPS 202, cSHAKE, KMAC and KMACXOF of SP 800-185: the functions of the
DGE (R374), of the clusters' Keccak core (R405) and of every KMAC-based derivation of the SC (R209).
-/
namespace Sys2Proof.Machine

/-- The 25 lanes of the Keccak state, lane `x + 5 y` (R383). -/
abbrev Lanes := List (BitVec 64)

/-- The 24 round constants. -/
def keccakRc : List (BitVec 64) :=
  [0x0000000000000001, 0x0000000000008082, 0x800000000000808A, 0x8000000080008000, 0x000000000000808B, 0x0000000080000001,
   0x8000000080008081, 0x8000000000008009, 0x000000000000008A, 0x0000000000000088, 0x0000000080008009, 0x000000008000000A] ++
  [0x000000008000808B, 0x800000000000008B, 0x8000000000008089, 0x8000000000008003, 0x8000000000008002, 0x8000000000000080,
   0x000000000000800A, 0x800000008000000A, 0x8000000080008081, 0x8000000000008080, 0x0000000080000001, 0x8000000080008008]

/-- The rotation of lane `x + 5 y` in the rho step. -/
def keccakRho : List Nat :=
  [0, 1, 62, 28, 27, 36, 44, 6, 55, 20, 3, 10, 43, 25, 39, 41, 45, 15, 21, 8, 18, 2, 61, 56, 14]

/-- Lane `(x, y)`. -/
def lane (a : Lanes) (x y : Nat) : BitVec 64 := a.getD (x % 5 + 5 * (y % 5)) 0

/-- The theta step. -/
def keccakTheta (a : Lanes) : Lanes :=
  let c := (List.range 5).map (fun x => lane a x 0 ^^^ lane a x 1 ^^^ lane a x 2 ^^^ lane a x 3 ^^^ lane a x 4)
  let d := (List.range 5).map (fun x => c.getD ((x + 4) % 5) 0 ^^^ (c.getD ((x + 1) % 5) 0).rotateLeft 1)
  a.mapIdx (fun i l => l ^^^ d.getD (i % 5) 0)

/-- The rho and pi steps: lane `(x, y)` of the result is lane `(x + 3y, x)` rotated. -/
def keccakRhoPi (a : Lanes) : Lanes :=
  let r := List.zipWith (fun (l : BitVec 64) n => l.rotateLeft n) a keccakRho
  (List.range 25).map (fun i => lane r (i % 5 + 3 * (i / 5)) (i % 5))

/-- The chi step. -/
def keccakChi (a : Lanes) : Lanes :=
  a.mapIdx (fun i l => l ^^^ (~~~(lane a (i % 5 + 1) (i / 5)) &&& lane a (i % 5 + 2) (i / 5)))

/-- One round. -/
def keccakRound (a : Lanes) (rc : BitVec 64) : Lanes :=
  match keccakChi (keccakRhoPi (keccakTheta a)) with
  | [] => []
  | l :: r => (l ^^^ rc) :: r

/-- Keccak-f[1600]. -/
def keccakF (a : Lanes) : Lanes := keccakRc.foldl keccakRound a

/-- The zero state. -/
def keccakZero : Lanes := List.replicate 25 0

/-- Little-endian lanes of a byte string. -/
def bytesLanes (bs : Bytes) : Lanes := (chunks 8 bs).map (fun c => BitVec.ofNat 64 (leNat c))

/-- The bytes of lanes. -/
def lanesBytes (a : Lanes) : Bytes := a.flatMap (fun l => leBytes 8 l.toNat)

/-- Exclusive or of a block of whole lanes into the state. -/
def keccakXorIn (a : Lanes) (blk : Bytes) : Lanes :=
  let b := bytesLanes blk
  a.mapIdx (fun i l => l ^^^ b.getD i 0)

/-- Absorb one rate-sized block. -/
def keccakAbsorb (a : Lanes) (blk : Bytes) : Lanes := keccakF (keccakXorIn a blk)

/-- The padded message: domain suffix `suffix` (with the first pad bit), then the final bit, for rate `rate`. -/
def keccakPad (rate : Nat) (suffix : Nat) (len : Nat) : Bytes :=
  let q := rate - len % rate
  if q == 1 then [byteOf (suffix + 0x80)] else [byteOf suffix] ++ zeros (q - 2) ++ [0x80]

/-- Squeeze `n` blocks of `rate` bytes. -/
def keccakSqueeze (rate : Nat) : Nat → Lanes → Bytes
  | 0, _ => []
  | n + 1, a => (lanesBytes a).take rate ++ keccakSqueeze rate n (keccakF a)

/-- The sponge: rate, domain suffix, message, output length in bytes. -/
def sponge (rate suffix : Nat) (m : Bytes) (out : Nat) : Bytes :=
  let a := (chunks rate (m ++ keccakPad rate suffix m.length)).foldl keccakAbsorb keccakZero
  (keccakSqueeze rate (ceilDiv out rate) a).take out

def sha3_224 (m : Bytes) : Bytes := sponge 144 0x06 m 28
def sha3_256 (m : Bytes) : Bytes := sponge 136 0x06 m 32
def sha3_384 (m : Bytes) : Bytes := sponge 104 0x06 m 48
def sha3_512 (m : Bytes) : Bytes := sponge 72 0x06 m 64
def shake128 (m : Bytes) (out : Nat) : Bytes := sponge 168 0x1F m out
def shake256 (m : Bytes) (out : Nat) : Bytes := sponge 136 0x1F m out

/-- The fewest bytes (at least one) that hold `n`, big-endian. -/
def minBytes (n : Nat) : Bytes :=
  let b := (beBytes 16 n).dropWhile (· == 0)
  if b.isEmpty then [0] else b

/-- left_encode of SP 800-185. -/
def leftEncode (n : Nat) : Bytes := let b := minBytes n; byteOf b.length :: b

/-- right_encode of SP 800-185. -/
def rightEncode (n : Nat) : Bytes := let b := minBytes n; b ++ [byteOf b.length]

/-- encode_string of SP 800-185. -/
def encodeString (s : Bytes) : Bytes := leftEncode (8 * s.length) ++ s

/-- bytepad of SP 800-185. -/
def bytepad (w : Nat) (x : Bytes) : Bytes :=
  let y := leftEncode w ++ x
  y ++ zeros (roundUp y.length w - y.length)

/-- cSHAKE of rate `rate` with function name `n` and customization `s`; SHAKE when both are empty (R377). -/
def cshake (rate : Nat) (n s m : Bytes) (out : Nat) : Bytes :=
  if n.isEmpty && s.isEmpty then sponge rate 0x1F m out
  else sponge rate 0x04 (bytepad rate (encodeString n ++ encodeString s) ++ m) out

/-- KMAC (fixed `L`) or KMACXOF (`xof`) of rate `rate` (SP 800-185, R377). -/
def kmac (rate : Nat) (xof : Bool) (key m : Bytes) (out : Nat) (s : Bytes) : Bytes :=
  let body := bytepad rate (encodeString key) ++ m ++ rightEncode (if xof then 0 else 8 * out)
  cshake rate (ascii "KMAC") s body out

/-- KMAC256(K, X, 8 * out, S): the SC's key derivation of R209, R224, R227, R232, R240, R325. -/
def kmac256 (key x : Bytes) (out : Nat) (s : Bytes) : Bytes := kmac 136 false key x out s

end Sys2Proof.Machine
end

