-- ==== Sys2Proof/Machine/Sha2.lean ====
section
/-!
DEFINITION. SHA-224, SHA-256, SHA-384, SHA-512 and SHA-512/256 of FIPS 180-4, the functions of the DGE (R374) and of the
clusters' SHA-2 cores (R405). Compression is exposed, because SHA2.C256 and SHA2.C512 run one compression.
-/
namespace Sys2Proof.Machine

/-- `n` words of `w` bits out of one number, the first in its highest bits. -/
def wordsIn (w n v : Nat) : List (BitVec w) := (List.range n).map (fun i => BitVec.ofNat w (v / 2 ^ (w * (n - 1 - i))))

/-- The 80 round constants of SHA-512 (FIPS 180-4, 4.2.3), five to a number. -/
def sha512K : List (BitVec 64) :=
  List.flatMap (wordsIn 64 5)
    ([
      0x428a2f98d728ae227137449123ef65cdb5c0fbcfec4d3b2fe9b5dba58189dbbc3956c25bf348b538,
      0x59f111f1b605d019923f82a4af194f9bab1c5ed5da6d8118d807aa98a303024212835b0145706fbe,
      0x243185be4ee4b28c550c7dc3d5ffb4e272be5d74f27b896f80deb1fe3b1696b19bdc06a725c71235,
      0xc19bf174cf692694e49b69c19ef14ad2efbe4786384f25e30fc19dc68b8cd5b5240ca1cc77ac9c65,
      0x2de92c6f592b02754a7484aa6ea6e4835cb0a9dcbd41fbd476f988da831153b5983e5152ee66dfab,
      0xa831c66d2db43210b00327c898fb213fbf597fc7beef0ee4c6e00bf33da88fc2d5a79147930aa725,
      0x06ca6351e003826f142929670a0e6e7027b70a8546d22ffc2e1b21385c26c9264d2c6dfc5ac42aed,
      0x53380d139d95b3df650a73548baf63de766a0abb3c77b2a881c2c92e47edaee692722c851482353b] ++ [
      0xa2bfe8a14cf10364a81a664bbc423001c24b8b70d0f89791c76c51a30654be30d192e819d6ef5218,
      0xd69906245565a910f40e35855771202a106aa07032bbd1b819a4c116b8d2d0c81e376c085141ab53,
      0x2748774cdf8eeb9934b0bcb5e19b48a8391c0cb3c5c95a634ed8aa4ae3418acb5b9cca4f7763e373,
      0x682e6ff3d6b2b8a3748f82ee5defb2fc78a5636f43172f6084c87814a1f0ab728cc702081a6439ec,
      0x90befffa23631e28a4506cebde82bde9bef9a3f7b2c67915c67178f2e372532bca273eceea26619c,
      0xd186b8c721c0c207eada7dd6cde0eb1ef57d4f7fee6ed17806f067aa72176fba0a637dc5a2c898a6,
      0x113f9804bef90dae1b710b35131c471b28db77f523047d8432caab7b40c724933c9ebe0a15c9bebc,
      0x431d67c49c100d4c4cc5d4becb3e42b6597f299cfc657e2a5fcb6fab3ad6faec6c44198c4a475817])

/-- The 64 round constants of SHA-256 (FIPS 180-4, 4.2.2): both tables are the first bits of the fractional parts of the cube roots of
the primes, so these are the high halves of the others. -/
def sha256K : List (BitVec 32) := (sha512K.take 64).map (fun k => k.extractLsb' 32 32)

/-- Big-endian words of `w` bits from a byte string. -/
def beWords (w : Nat) (bs : Bytes) : List (BitVec w) := (chunks (w / 8) bs).map (fun c => BitVec.ofNat w (beNat c))

/-- The bytes of big-endian words. -/
def wordsBe {w : Nat} (ws : List (BitVec w)) : Bytes := ws.flatMap (fun x => beBytes (w / 8) x.toNat)

/-- The rotation amounts of one SHA-2 width. -/
structure Sha2Rot where
  big0 : Nat × Nat × Nat
  big1 : Nat × Nat × Nat
  small0 : Nat × Nat × Nat
  small1 : Nat × Nat × Nat

/-- The rotations of SHA-256 (FIPS 180-4, 4.1.2). -/
def sha256Rot : Sha2Rot := ⟨(2, 13, 22), (6, 11, 25), (7, 18, 3), (17, 19, 10)⟩

/-- The rotations of SHA-512 (FIPS 180-4, 4.1.3). -/
def sha512Rot : Sha2Rot := ⟨(28, 34, 39), (14, 18, 41), (1, 8, 7), (19, 61, 6)⟩

/-- Three rotations, exclusive-ored. -/
def sigmaBig {w : Nat} (r : Nat × Nat × Nat) (x : BitVec w) : BitVec w :=
  x.rotateRight r.1 ^^^ x.rotateRight r.2.1 ^^^ x.rotateRight r.2.2

/-- Two rotations and a shift, exclusive-ored. -/
def sigmaSmall {w : Nat} (r : Nat × Nat × Nat) (x : BitVec w) : BitVec w :=
  x.rotateRight r.1 ^^^ x.rotateRight r.2.1 ^^^ (x >>> r.2.2)

/-- The message schedule: `n` more words from the last sixteen, newest first in `ws`. -/
def sha2Schedule {w : Nat} (r : Sha2Rot) : Nat → List (BitVec w) → List (BitVec w)
  | 0, ws => ws
  | n + 1, ws =>
    let x := sigmaSmall r.small1 (ws.getD 1 0) + ws.getD 6 0 + sigmaSmall r.small0 (ws.getD 14 0) + ws.getD 15 0
    sha2Schedule r n (x :: ws)

/-- One round on the eight working variables. -/
def sha2Round {w : Nat} (r : Sha2Rot) (v : List (BitVec w)) (kw : BitVec w × BitVec w) : List (BitVec w) :=
  match v with
  | [a, b, c, d, e, f, g, h] =>
    let t1 := h + sigmaBig r.big1 e + ((e &&& f) ^^^ (~~~e &&& g)) + kw.1 + kw.2
    let t2 := sigmaBig r.big0 a + ((a &&& b) ^^^ (a &&& c) ^^^ (b &&& c))
    [t1 + t2, a, b, c, d + t1, e, f, g]
  | v => v

/-- One compression: chaining value and message block (sixteen words). -/
def sha2Compress {w : Nat} (r : Sha2Rot) (ks h blk : List (BitVec w)) : List (BitVec w) :=
  let ws := (sha2Schedule r (ks.length - 16) blk.reverse).reverse
  List.zipWith (· + ·) h ((ks.zip ws).foldl (sha2Round r) h)

/-- One SHA-256 compression of a 64-byte block. -/
def sha256Block (h : List (BitVec 32)) (blk : Bytes) : List (BitVec 32) :=
  sha2Compress sha256Rot sha256K h (beWords 32 blk)

/-- One SHA-512 compression of a 128-byte block. -/
def sha512Block (h : List (BitVec 64)) (blk : Bytes) : List (BitVec 64) :=
  sha2Compress sha512Rot sha512K h (beWords 64 blk)

/-- The padding of FIPS 180-4, 5.1, for a message of `len` bytes and blocks of `blk` bytes. -/
def sha2Pad (blk len : Nat) : Bytes :=
  let lw := blk / 8
  let fill := (2 * blk - 1 - lw - len % blk) % blk
  [0x80] ++ zeros fill ++ beBytes lw (8 * len)

/-- The initial values of SHA-512, SHA-384 and SHA-512/256 (FIPS 180-4, 5.3.4 to 5.3.6). -/
def sha512Iv : List (BitVec 64) :=
  wordsIn 64 8 0x6a09e667f3bcc908bb67ae8584caa73b3c6ef372fe94f82ba54ff53a5f1d36f1510e527fade682d19b05688c2b3e6c1f1f83d9abfb41bd6b5be0cd19137e2179
def sha384Iv : List (BitVec 64) :=
  wordsIn 64 8 0xcbbb9d5dc1059ed8629a292a367cd5079159015a3070dd17152fecd8f70e593967332667ffc00b318eb44a8768581511db0c2e0d64f98fa747b5481dbefa4fa4
def sha512t256Iv : List (BitVec 64) :=
  wordsIn 64 8 0x22312194fc2bf72c9f555fa3c84c64c22393b86b6f53b151963877195940eabd96283ee2a88effe3be5e1e25538639922b0199fc2c85b8aa0eb72ddc81c52ca2

/-- SHA-256 starts from the first 32 bits of the square roots that SHA-512 takes 64 of (FIPS 180-4, 5.3.3); SHA-224 from the second 32 bits
of those that SHA-384 takes (5.3.2). -/
def sha256Iv : List (BitVec 32) := sha512Iv.map (fun k => k.extractLsb' 32 32)
def sha224Iv : List (BitVec 32) := sha384Iv.map (fun k => k.extractLsb' 0 32)

/-- The 32-bit hashes, `out` bytes of digest. -/
def sha2Small (iv : List (BitVec 32)) (out : Nat) (m : Bytes) : Bytes :=
  (wordsBe ((chunks 64 (m ++ sha2Pad 64 m.length)).foldl sha256Block iv)).take out

/-- The 64-bit hashes, `out` bytes of digest. -/
def sha2Large (iv : List (BitVec 64)) (out : Nat) (m : Bytes) : Bytes :=
  (wordsBe ((chunks 128 (m ++ sha2Pad 128 m.length)).foldl sha512Block iv)).take out

def sha224 (m : Bytes) : Bytes := sha2Small sha224Iv 28 m
def sha256 (m : Bytes) : Bytes := sha2Small sha256Iv 32 m
def sha384 (m : Bytes) : Bytes := sha2Large sha384Iv 48 m
def sha512 (m : Bytes) : Bytes := sha2Large sha512Iv 64 m
def sha512t256 (m : Bytes) : Bytes := sha2Large sha512t256Iv 32 m

end Sys2Proof.Machine
end

