-- ==== Sys2Proof/Machine/Digests.lean ====
section
/-!
DEFINITION. The functions of the digest engines by function id (R374), HMAC (R377), the Merkle Tree Hash of RFC 9162
(R386, R387), and CRC-32C (R397).
-/
namespace Sys2Proof.Machine

/-- What R374 gives a function id: output length, block (rate) in bytes, rate r_f in hundredths of a GB/s, and the jobs that
accept it. -/
structure HashFn where
  out : Nat
  block : Nat
  rate : Nat
  hash : Bool
  hmac : Bool
  kmac : Bool
  merkle : Bool
  ddp : Bool
  xof : Bool

/-- The table of R374; `none` for an id that it does not list. -/
def hashFn : Nat → Option HashFn
  | 0x01 => some ⟨28, 64, 1280, true, true, false, false, false, false⟩
  | 0x02 => some ⟨32, 64, 1280, true, true, false, true, true, false⟩
  | 0x03 => some ⟨48, 128, 1000, true, true, false, true, true, false⟩
  | 0x04 => some ⟨64, 128, 1000, true, true, false, true, true, false⟩
  | 0x05 => some ⟨32, 128, 1000, true, true, false, true, false, false⟩
  | 0x06 => some ⟨28, 144, 1920, true, true, false, false, false, false⟩
  | 0x07 => some ⟨32, 136, 1800, true, true, false, true, true, false⟩
  | 0x08 => some ⟨48, 104, 1380, true, true, false, true, false, false⟩
  | 0x09 => some ⟨64, 72, 960, true, true, false, true, true, false⟩
  | 0x0A => some ⟨0, 168, 2240, true, false, false, false, false, true⟩
  | 0x0B => some ⟨0, 136, 1800, true, false, false, false, false, true⟩
  | 0x0C => some ⟨0, 168, 2240, true, false, false, false, false, true⟩
  | 0x0D => some ⟨0, 136, 1800, true, false, false, false, false, true⟩
  | 0x0E => some ⟨0, 168, 2240, false, false, true, false, false, false⟩
  | 0x0F => some ⟨0, 136, 1800, false, false, true, false, true, false⟩
  | 0x10 => some ⟨0, 168, 2240, false, false, true, false, false, true⟩
  | 0x11 => some ⟨0, 136, 1800, false, false, true, false, false, true⟩
  | _ => none

/-- The hash of function id `id` (R374) with output length `out` and, for cSHAKE, the strings `n` and `s`. -/
def hashBytes (id : Nat) (out : Nat) (n s : Bytes) (m : Bytes) : Bytes :=
  match id with
  | 0x01 => sha224 m
  | 0x02 => sha256 m
  | 0x03 => sha384 m
  | 0x04 => sha512 m
  | 0x05 => sha512t256 m
  | 0x06 => sha3_224 m
  | 0x07 => sha3_256 m
  | 0x08 => sha3_384 m
  | 0x09 => sha3_512 m
  | 0x0A => shake128 m out
  | 0x0B => shake256 m out
  | 0x0C => cshake 168 n s m out
  | 0x0D => cshake 136 n s m out
  | _ => []

/-- A hash of R374 with a fixed output length. -/
def hashFixed (id : Nat) (m : Bytes) : Bytes := hashBytes id 0 [] [] m

/-- The key block of HMAC: a key longer than the block is hashed first (R377). -/
def hmacKeyBlock (id : Nat) (key : Bytes) : Bytes :=
  let blk := match hashFn id with | some f => f.block | none => 0
  let k := if key.length > blk then hashFixed id key else key
  k ++ zeros (blk - k.length)

/-- HMAC (FIPS 198-1) with the hash of id `id` (R377). -/
def hmac (id : Nat) (key m : Bytes) : Bytes :=
  let k := hmacKeyBlock id key
  hashFixed id (k.map (· ^^^ 0x5C) ++ hashFixed id (k.map (· ^^^ 0x36) ++ m))

/-- KMAC and KMACXOF by function id (R374, R377). -/
def kmacBytes (id : Nat) (key : Bytes) (out : Nat) (s m : Bytes) : Bytes :=
  match id with
  | 0x0E => kmac 168 false key m out s
  | 0x0F => kmac 136 false key m out s
  | 0x10 => kmac 168 true key m out s
  | 0x11 => kmac 136 true key m out s
  | _ => []

/-- The leaf hash H(0x00 | d) (R386). -/
def merkleLeaf (id : Nat) (d : Bytes) : Bytes := hashFixed id (0 :: d)

/-- The interior node H(0x01 | left | right) (R386). -/
def merkleNode (id : Nat) (l r : Bytes) : Bytes := hashFixed id (1 :: l ++ r)

/-- Merge a new node of `size` leaves into the pending nodes (smallest first): equal sizes pair up at once. -/
def merklePush (id : Nat) : Bytes → Nat → List (Nat × Bytes) → List (Nat × Bytes)
  | h, n, [] => [(n, h)]
  | h, n, (m, g) :: r => if n == m then merklePush id (merkleNode id g h) (2 * n) r else (n, h) :: (m, g) :: r

/-- The Merkle Tree Hash over leaf hashes: a tree of `k` leaves splits at the largest power of two below `k` (R386);
`none` for no leaf. -/
def merkleRoot (id : Nat) (leaves : List Bytes) : Option Bytes :=
  match leaves.foldl (fun st l => merklePush id l 1 st) [] with
  | [] => none
  | (_, h) :: r => some (r.foldl (fun acc x => merkleNode id x.2 acc) h)

/-- CHUNK_ROOT of R386: H of the empty string for an empty input. -/
def chunkRoot (id chunk : Nat) (d : Bytes) : Bytes :=
  match merkleRoot id ((chunks chunk d).map (merkleLeaf id)) with
  | some r => r
  | none => hashFixed id []

/-- The number of trailing zero bits, at most `fuel`. -/
def trailingZeros : Nat → Nat → Nat
  | 0, _ => 0
  | f + 1, n => if n % 2 == 0 then 1 + trailingZeros f (n / 2) else 0

/-- One step of the inclusion-proof check of RFC 9162, 2.1.3.2: `fn`, `sn` and the running hash, with whether the path is
too long so far. -/
def pathStep (id : Nat) (st : Nat × Nat × Bytes × Bool) (p : Bytes) : Nat × Nat × Bytes × Bool :=
  let (fn, sn, r, bad) := st
  if sn == 0 then (fn, sn, r, true)
  else if fn % 2 == 1 || fn == sn then
    let k := if fn % 2 == 1 then 0 else trailingZeros 64 fn
    let k := if fn == 0 then 64 else k
    let fn' := fn / 2 ^ k
    let sn' := sn / 2 ^ k
    (fn' / 2, sn' / 2, merkleNode id p r, bad)
  else (fn / 2, sn / 2, merkleNode id r p, bad)

/-- The root that an audit path leads to, `none` when the path has the wrong length (RFC 9162, 2.1.3.2; R387). -/
def pathRoot (id m n : Nat) (leaf : Bytes) (path : List Bytes) : Option Bytes :=
  let (_, sn, r, bad) := path.foldl (pathStep id) (m, n - 1, leaf, false)
  if bad || sn != 0 then none else some r

/-- The length of the audit path of leaf `m` in a tree of `n` leaves (RFC 9162, 2.1.3.1; R387); `fuel` bounds the depth. -/
def pathLen : Nat → Nat → Nat → Nat
  | 0, _, _ => 0
  | f + 1, m, n =>
    if n ≤ 1 then 0
    else
      let k := 2 ^ (Nat.log2 (n - 1))
      if m < k then 1 + pathLen f m k else 1 + pathLen f (m - k) (n - k)

/-- CRC-32C of one byte: eight reflected steps. -/
def crcByte (c : BitVec 32) (b : Byte) : BitVec 32 :=
  (List.range 8).foldl (fun c _ => if c.getLsbD 0 then (c >>> 1) ^^^ 0x82F63B78 else c >>> 1) (c ^^^ (b.zeroExtend 32))

/-- CRC-32C with initial value `seed` and a final complement (R397, R478). -/
def crc32c (seed : BitVec 32) (bs : Bytes) : BitVec 32 := ~~~(bs.foldl crcByte seed)

end Sys2Proof.Machine
end

