-- ==== Sys2Proof/Config.lean ====
section
/-!
DEFINITION. The model's configuration: the counts of each part (00_scope.md), and the free values: opaque constants that
nothing can evaluate, one for each value the spec leaves open or draws at random (log 2, log 5).
-/
namespace Sys2Proof

/-- The family table of 00_scope.md: VCCs. -/
def Config.nVcc : Part → Nat
  | .yq9 => 32
  | .yq7 => 16
  | .yq5 => 8

/-- BCEs. -/
def Config.nBce : Part → Nat
  | .yq9 => 8
  | .yq7 => 4
  | .yq5 => 2

/-- DGEs. -/
def Config.nDge : Part → Nat
  | .yq9 => 8
  | .yq7 => 4
  | .yq5 => 2

/-- MAEs. -/
def Config.nMae : Part → Nat
  | .yq9 => 4
  | .yq7 => 2
  | .yq5 => 0

/-- Is the GF(2) unit built in? -/
def Config.gf2 : Part → Bool
  | .yq9 => true
  | .yq7 => true
  | .yq5 => false

/-- VLEN in bits. -/
def Config.vlen : Part → Nat
  | .yq9 => 2048
  | .yq7 => 1024
  | .yq5 => 1024

/-- Lane passes per vector operation (R2). -/
def Config.lanePasses : Part → Nat
  | .yq9 => 1
  | .yq7 => 2
  | .yq5 => 4

/-- Sealed DRAM in GiB. -/
def Config.dramGiB : Part → Nat
  | .yq9 => 32
  | .yq7 => 16
  | .yq5 => 8

/-- PCIe lanes. -/
def Config.lanes : Part → Nat
  | .yq9 => 16
  | .yq7 => 8
  | .yq5 => 4

/-- FREE VALUE: byte `i` that the random bit generators deliver (R18, R20, R209, R225, R229; log 2). -/
opaque Config.freeByte : Nat → BitVec 8

/-- FREE VALUE: the n-th mask-generator seed that the DRBG of a quadrant delivers (R11, R18; log 2). -/
opaque Config.drbgSeed : Nat → Nat → Bytes

/-- FREE VALUE: a number the spec leaves open, drawn with the model's counter (log 2). -/
opaque Config.freeNat : Nat → Nat

/-- OPEN VALUE: the second half that the model puts in place of one equal to the first in an AES_256_XTS key (R355; log 39), by the material. -/
opaque Config.otherHalf : List (BitVec 8) → List (BitVec 8)

/-- OPEN VALUE: the WCET entry and non-preemptible section of a ROM kernel on a part of VLEN 1,024: the kernel packages hold them,
the manual does not print them (R282, R292, R307, R319, R352; log 5). Arguments: opcode, key family, PARAM_SET, order. -/
opaque Config.lesserWcet : Nat → Nat → Nat → Nat → Nat × Nat

/-- OPEN VALUE: the ns that a cluster takes to hash the input of a HASH_SIGN job at its rate (R292; log 5), by length. -/
opaque Config.clusterHashNs : Nat → Nat

/-- The ROM's kernels by algorithm id: ML-KEM and ML-DSA (10_lattice_services.md), SLH-DSA and the stateful signatures
(11_hash_based_signatures.md), the code-based KEMs and capsules (12_code_based_and_capsules.md), the vector kernels (R329). -/
def Config.romKernels : List Nat := [0x0010, 0x0011, 0x0012, 0x0013, 0x0014, 0x0015, 0x0022]

/-- OPEN VALUE: the SHA3-256 of a ROM kernel's package by part and algorithm id (R239; log 5). -/
opaque Config.romDigest : Part → Nat → Bytes

/-- OPEN VALUE: the Llynyan certificate chain in the OTP bank (R137; log 5): the manual does not print it. -/
opaque Config.spdmChain : List (BitVec 8)

/-- OPEN VALUE: SHA-384 of the SC ROM (R138; log 5). -/
opaque Config.romHash : List (BitVec 8)

/-- OPEN VALUE: the fixed 32-byte message of the pairwise tests: the manual does not print it (R279, R289; log 5). -/
opaque Config.pairwiseMessage : List (BitVec 8)

/-- OPEN VALUE: the byte that WIN FETCH copies from past the end of its source (R405; log 22): by source and offset. -/
opaque Config.pastSource : Nat → Nat → Byte

/-- OPEN VALUE: the factor of input coefficient `j` in output coefficient `i` of an NTT (R405; log 22): the manual gives neither the root of unity,
nor the order of the coefficients, nor the layout of the twiddle table. By direction, log2 N, modulus entry, twiddle table, `i` and `j`. -/
opaque Config.nttFactor : Bool → Nat → ModEntry → List (BitVec 8) → Nat → Nat → Nat

/-- OPEN VALUE: the fresh mask bits of one shared permutation or compression: 0 Keccak-f, 1 SHA-256, 2 SHA-512 (R405; log 39), by shares. -/
opaque Config.sharedMaskBits : Nat → Nat → Nat

/-- OPEN VALUES: what the packages of the ROM kernels hold, which the manual does not print (R421, R424; log 39): WINDOW_TILES and ENTRY by opcode
and PARAM_SET, the resident and the windowed constant tiles by algorithm id, and the value and method of a modulus entry by algorithm id and Q. -/
opaque Config.romWindow : Nat → Nat → Nat
opaque Config.romEntry : Nat → Nat → Nat
opaque Config.romConsts : Nat → List (List (BitVec 8))
opaque Config.romImage : Nat → List (List (BitVec 8))
opaque Config.romModulus : Nat → Nat → Nat
opaque Config.romMethod : Nat → Nat → Nat

/-- OPEN VALUE: Llynyan's kernel key, whose digest the SC ROM holds (R425; log 5). -/
opaque Config.kernelKey : List (BitVec 8)

/-- OPEN VALUE: the version of a ROM kernel by part and algorithm id (R107; log 5). -/
opaque Config.romVersion : Part → Nat → Nat

/-- OPEN VALUE: SHA3-256 and SEQUENCE of the factory Ephemeris in ROM (R110, R112; log 5). -/
opaque Config.factoryDigest : Part → List (BitVec 8)
opaque Config.factorySequence : Part → Nat

/-- OPEN VALUE: the fingerprint of the die, with which the Device Root Secret is XOR-split (R96; log 5). -/
opaque Config.dieFingerprint : List (BitVec 8)

/-- OPEN VALUE: the SHA3-256 of the Llynyan token authority's public key, which the SC ROM holds (R241; log 5). -/
opaque Config.tokenAuthority : List (BitVec 8)

/-- OPEN VALUE: a token certificate verifies under the authority with a digest, for a serial and an ML-DSA-44 public key (R241, R245; log 38): the
manual gives neither its layout nor its signature algorithm. -/
opaque Config.tokenCertGood : Bytes → Bytes → Bytes → Bytes → Bool

/-- OPEN VALUE: the body of an Ephemeris item of a kind whose layout the manual does not print, decoded; none where it is malformed (R105;
log 38). -/
opaque Config.itemBody : Nat → Bytes → Option EphBody

/-- OPEN VALUE: the module serial number and the date of manufacture of the FRU data, and the bytes past its two areas (R87; log 36). -/
opaque Config.fruSerial : List (BitVec 8)
opaque Config.fruDate : BitVec 24
opaque Config.fruByte : Nat → BitVec 8

/-- OPEN VALUE: the 56-bit MAC of a DRAM line under the sealing key, over its physical address and ciphertext (R17; log 5). -/
opaque Config.lineMac : Bytes → Nat → Bytes → BitVec 56

/-- FREE VALUE: what a sensor reads at an instant at which no condition of it stands (log 26). -/
opaque Config.sensorReading (sensor now : Nat) : Nat

/-- OPEN VALUES: the header of a request as the link carries it, and the PCRC of its data, whose layouts are PCIe's (R139; log 39): by header,
address and length, and by data. -/
opaque Config.tlpHeader : Tlp → Nat → Nat → List (BitVec 8)
opaque Config.pcrc : List (BitVec 8) → List (BitVec 8)

/-- OPEN VALUE: the PCI vendor number of Llynyan Microsystems, which R119 names and does not print (log 5). -/
opaque Config.vendorId : BitVec 16

/-- OPEN VALUE: the silicon stepping of a part, counted from the first (R505; log 5). -/
opaque Config.stepping : Part → Nat

/-- OPEN VALUE: the versions of the ROM and of the ROM kernel set of a part (R505; log 5). -/
opaque Config.romVersions : Part → BitVec 16

end Sys2Proof
end

