-- ==== Sys2Proof/Machine/ModArith.lean ====
section
/-!
DEFINITION. Modular arithmetic on natural numbers: the raw MAE commands (R346), RSA with the encodings of RFC 8017
(R331 to R335), the NIST P-curves (R337 to R340), X25519 and X448 (RFC 7748) and Ed25519 and Ed448 (RFC 8032) (R341 to R343).
Blinding (R335, R340, R344) changes no result and is not carried.
-/
namespace Sys2Proof.Machine

/-- `acc * b ^ e mod m`, `n` bits of `e`, low bit first. -/
def modPowLoop (m : Nat) : Nat → Nat → Nat → Nat → Nat
  | 0, acc, _, _ => acc
  | n + 1, acc, b, e => modPowLoop m n (if e % 2 == 1 then acc * b % m else acc) (b * b % m) (e / 2)

/-- `b ^ e mod m`. -/
def modPow (b e m : Nat) : Nat := modPowLoop m (Nat.log2 e + 1) (1 % m) (b % m) e

/-- The extended Euclid loop: `(r0, r1)` with coefficients `(t0, t1)`. -/
def egcdLoop : Nat → Nat → Nat → Int → Int → Nat × Int
  | 0, r0, _, t0, _ => (r0, t0)
  | f + 1, r0, r1, t0, t1 => if r1 == 0 then (r0, t0) else egcdLoop f r1 (r0 % r1) t1 (t0 - (r0 / r1 : Nat) * t1)

/-- `gcd(a, m)` and the coefficient of `a`. -/
def egcd (a m : Nat) : Nat × Int := egcdLoop (2 * (Nat.log2 m + 2)) m (a % m) 0 1

/-- The inverse of `a` modulo `m`, where it exists. -/
def modInv? (a m : Nat) : Option Nat :=
  let x := egcd a m
  if x.1 == 1 then some (x.2 % (m : Int)).toNat else none

/-- The inverse of `a` modulo `m`; 0 where none exists. -/
def modInv (a m : Nat) : Nat := (modInv? a m).getD 0

/-- `a - b` modulo `m`. -/
def modSub (a b m : Nat) : Nat := (a % m + m - b % m) % m

/-! ### RSA -/

/-- MGF1 with the hash of function id `id` (RFC 8017, B.2.1). -/
def mgf1 (id : Nat) (seed : Bytes) (len : Nat) : Bytes :=
  let h := match hashFn id with | some f => f.out | none => 1
  (((List.range (ceilDiv len h)).map (fun i => hashFixed id (seed ++ beBytes 4 i))).flatten).take len

/-- The pre-hash functions of R271 by PH_ID: function id of R374, output length, last OID byte. -/
def preHash : Nat → Option (Nat × Nat × Nat)
  | 0x01 => some (0x02, 32, 0x01)
  | 0x02 => some (0x03, 48, 0x02)
  | 0x03 => some (0x04, 64, 0x03)
  | 0x04 => some (0x07, 32, 0x08)
  | 0x05 => some (0x09, 64, 0x0A)
  | 0x06 => some (0x0A, 32, 0x0B)
  | 0x07 => some (0x0B, 64, 0x0C)
  | _ => none

/-- PH(M) of R271. -/
def preHashOf (ph : Nat) (m : Bytes) : Bytes :=
  match preHash ph with
  | some (id, n, _) => hashBytes id n [] [] m
  | none => []

/-- The OID of R271. -/
def preHashOid (ph : Nat) : Bytes :=
  match preHash ph with
  | some (_, _, x) => [0x06, 0x09, 0x60, 0x86, 0x48, 0x01, 0x65, 0x03, 0x04, 0x02, byteOf x]
  | none => []

/-- EMSA-PKCS1-v1_5 of a digest (RFC 8017, 9.2; R333). -/
def emsaPkcs1 (ph : Nat) (digest : Bytes) (len : Nat) : Bytes :=
  let n := digest.length
  let t := [0x30, byteOf (17 + n), 0x30, 0x0D] ++ preHashOid ph ++ [0x05, 0x00, 0x04, byteOf n] ++ digest
  [0, 1] ++ List.replicate (len - t.length - 3) 0xFF ++ [0] ++ t

/-- EMSA-PSS encoding of a digest with a salt, for a modulus of `8 * len` bits with its top bit set at `bits` (RFC 8017, 9.1.1). -/
def emsaPss (ph : Nat) (digest salt : Bytes) (bits : Nat) : Bytes :=
  let id := match preHash ph with | some (i, _, _) => i | none => 0
  let em := ceilDiv (bits - 1) 8
  let h := hashFixed id (zeros 8 ++ digest ++ salt)
  let db := zeros (em - salt.length - digest.length - 2) ++ [1] ++ salt
  let mdb := xorBytes db (mgf1 id h db.length)
  let top := 8 * em - (bits - 1)
  let mdb := match mdb with | [] => [] | b :: r => (b &&& byteOf (2 ^ (8 - top) - 1)) :: r
  mdb ++ h ++ [0xBC]

/-- EMSA-PSS verification with a salt of exactly `sLen` bytes (RFC 8017, 9.1.2; R333). -/
def pssVerify (ph : Nat) (digest em : Bytes) (sLen bits : Nat) : Bool :=
  let id := match preHash ph with | some (i, _, _) => i | none => 0
  let hl := digest.length
  let n := ceilDiv (bits - 1) 8
  let top := 8 * n - (bits - 1)
  if n < hl + sLen + 2 then false
  else
    let em := em.drop (em.length - n)
    let mdb := em.take (n - hl - 1)
    let h := sliceOf em (n - hl - 1) hl
    let db := xorBytes mdb (mgf1 id h mdb.length)
    let db := match db with | [] => [] | b :: r => (b &&& byteOf (2 ^ (8 - top) - 1)) :: r
    let salt := db.drop (db.length - sLen)
    em.getD (n - 1) 0 == 0xBC && (mdb.getD 0 0).toNat < 2 ^ (8 - top) &&
      db.take (db.length - sLen) == zeros (db.length - sLen - 1) ++ [1] &&
      hashFixed id (zeros 8 ++ digest ++ salt) == h

/-- EME-OAEP encoding (RFC 8017, 7.1.1). -/
def oaepEncode (ph : Nat) (label m seed : Bytes) (k : Nat) : Bytes :=
  let (id, hl) := match preHash ph with | some (i, n, _) => (i, n) | none => (0, 0)
  let db := hashFixed id label ++ zeros (k - m.length - 2 * hl - 2) ++ [1] ++ m
  let mdb := xorBytes db (mgf1 id seed db.length)
  let ms := xorBytes seed (mgf1 id mdb hl)
  [0] ++ ms ++ mdb

/-- EME-OAEP decoding: `none` on any decoding error (R334). -/
def oaepDecode (ph : Nat) (label em : Bytes) : Option Bytes :=
  let (id, hl) := match preHash ph with | some (i, n, _) => (i, n) | none => (0, 0)
  let ms := sliceOf em 1 hl
  let mdb := em.drop (1 + hl)
  let seed := xorBytes ms (mgf1 id mdb hl)
  let db := xorBytes mdb (mgf1 id seed mdb.length)
  let rest := (db.drop hl).dropWhile (· == 0)
  if em.getD 0 1 == 0 && db.take hl == hashFixed id label && rest.headD 0 == 1 then some (rest.drop 1) else none

/-- An RSA private key as R331 lays it out, with `W` 64-bit words. -/
structure RsaSk where
  n : Nat
  e : Nat
  p : Nat
  q : Nat
  dp : Nat
  dq : Nat
  qi : Nat

/-- Reads RSA_SK material of `w` words (R331). -/
def rsaSkOf (w : Nat) (m : Bytes) : RsaSk :=
  let h := 4 * w
  let f := fun i => beNat (sliceOf m (8 * w + 4 + i * h) h)
  { n := beNat (m.take (8 * w)), e := beNat (sliceOf m (8 * w) 4), p := f 0, q := f 1, dp := f 2, dq := f 3, qi := f 4 }

/-- The private operation by CRT (R331). -/
def rsaCrt (k : RsaSk) (c : Nat) : Nat :=
  let m1 := modPow c k.dp k.p
  let m2 := modPow c k.dq k.q
  let h := k.qi * modSub m1 m2 k.p % k.p
  m2 + h * k.q

/-- A public key of R331 is valid: n odd with a non-zero top word, e odd and at least 3 (R334). -/
def rsaPubOk (w n e : Nat) : Bool := n % 2 == 1 && n ≥ 2 ^ (64 * w - 64) && e % 2 == 1 && e ≥ 3

/-- The bit length of a number. -/
def bitLen (n : Nat) : Nat := if n == 0 then 0 else Nat.log2 n + 1

/-- RSA_SK material of primes `p > q` with e = 65,537 (R331, R336). -/
def rsaMaterial (w p q : Nat) : Bytes :=
  let n := p * q
  let e := 65537
  let h := 4 * w
  let dp := modInv e (p - 1)
  let dq := modInv e (q - 1)
  beBytes (8 * w) n ++ beBytes 4 e ++ beBytes h p ++ beBytes h q ++ beBytes h dp ++ beBytes h dq ++ beBytes h (modInv q p)

/-! ### NIST P-curves -/

/-- A short Weierstrass curve y^2 = x^3 - 3x + b over p, base point, order, and field width in bytes. -/
structure PCurve where
  p : Nat
  b : Nat
  gx : Nat
  gy : Nat
  n : Nat
  f : Nat

/-- P-256, P-384 and P-521 (FIPS 186-5, SP 800-186) by PARAM_SET (R337). -/
def pCurve : Nat → Option PCurve
  | 1 => some
    { p := 2 ^ 256 - 2 ^ 224 + 2 ^ 192 + 2 ^ 96 - 1
      b := 0x5ac635d8aa3a93e7b3ebbd55769886bc651d06b0cc53b0f63bce3c3e27d2604b
      gx := 0x6b17d1f2e12c4247f8bce6e563a440f277037d812deb33a0f4a13945d898c296
      gy := 0x4fe342e2fe1a7f9b8ee7eb4a7c0f9e162bce33576b315ececbb6406837bf51f5
      n := 0xffffffff00000000ffffffffffffffffbce6faada7179e84f3b9cac2fc632551
      f := 32 }
  | 2 => some
    { p := 2 ^ 384 - 2 ^ 128 - 2 ^ 96 + 2 ^ 32 - 1
      b := 0xb3312fa7e23ee7e4988e056be3f82d19181d9c6efe8141120314088f5013875ac656398d8a2ed19d2a85c8edd3ec2aef
      gx := 0xaa87ca22be8b05378eb1c71ef320ad746e1d3b628ba79b9859f741e082542a385502f25dbf55296c3a545e3872760ab7
      gy := 0x3617de4a96262c6f5d9e98bf9292dc29f8f41dbd289a147ce9da3113b5f0b8c00a60b1ce1d7e819d7a431d7c90ea0e5f
      n := 0xffffffffffffffffffffffffffffffffffffffffffffffffc7634d81f4372ddf581a0db248b0a77aecec196accc52973
      f := 48 }
  | 3 => some
    { p := 2 ^ 521 - 1
      b := 0x0051953eb9618e1c9a1f929a21a0b68540eea2da725b99b315f3b8b489918ef109e156193951ec7e937b1652c0bd3bb1bf073573df883d2c34f1ef451fd46b503f00
      gx := 0x00c6858e06b70404e9cd9e3ecb662395b4429c648139053fb521f828af606b4d3dbaa14b5e77efe75928fe1dc127a2ffa8de3348b3c1856a429bf97e7e31c2e5bd66
      gy := 0x011839296a789a3bc0045c8a5fb42c7d1bd998f54449579b446817afbd17273e662c97ee72995ef42640c550b9013fad0761353c7086a272c24088be94769fd16650
      n := 0x01fffffffffffffffffffffffffffffffffffffffffffffffffffffffffffffffffa51868783bf2f966b7fcc0148f709a5d03bb5c9b8899c47aebb6fb71e91386409
      f := 66 }
  | _ => none

/-- An affine point; `none` is the point at infinity. -/
abbrev APoint := Option (Nat × Nat)

/-- Is the affine pair on the curve, with coordinates in range? -/
def pOnCurve (c : PCurve) (x y : Nat) : Bool :=
  x < c.p && y < c.p && y * y % c.p == (x * x % c.p * x + (c.p - 3) * x + c.b) % c.p

/-- Point addition on a P-curve. -/
def pAdd (c : PCurve) (a b : APoint) : APoint :=
  match a, b with
  | none, q => q
  | q, none => q
  | some (x1, y1), some (x2, y2) =>
    if x1 == x2 && (y1 + y2) % c.p == 0 then none
    else
      let l := if x1 == x2 then (3 * x1 * x1 + c.p - 3) * modInv (2 * y1) c.p % c.p
               else modSub y2 y1 c.p * modInv (modSub x2 x1 c.p) c.p % c.p
      let x3 := modSub (l * l) (x1 + x2) c.p
      some (x3, modSub (l * modSub x1 x3 c.p) y1 c.p)

/-- `k` times `a`: `n` bits of `k`, low bit first, added to `acc`. -/
def pMulLoop (c : PCurve) : Nat → APoint → APoint → Nat → APoint
  | 0, acc, _, _ => acc
  | n + 1, acc, a, k => pMulLoop c n (if k % 2 == 1 then pAdd c acc a else acc) (pAdd c a a) (k / 2)

/-- Scalar multiplication on a P-curve. -/
def pMul (c : PCurve) (k : Nat) (a : APoint) : APoint := pMulLoop c (Nat.log2 k + 1) none a k

/-- The base point. -/
def pBase (c : PCurve) : APoint := some (c.gx, c.gy)

/-- SEC1 uncompressed encoding (R337). -/
def pEncode (c : PCurve) (a : APoint) : Bytes :=
  match a with
  | none => [0]
  | some (x, y) => [4] ++ beBytes c.f x ++ beBytes c.f y

/-- Reads an uncompressed point; `none` when R339 rejects it. -/
def pDecode (c : PCurve) (q : Bytes) : Option (Nat × Nat) :=
  let x := beNat (sliceOf q 1 c.f)
  let y := beNat (sliceOf q (1 + c.f) c.f)
  if q.length == 1 + 2 * c.f && q.getD 0 0 == 4 && pOnCurve c x y then some (x, y) else none

/-- The digest as an integer: its leftmost bitlen(n) bits (R338). -/
def ecDigest (c : PCurve) (d : Bytes) : Nat :=
  let bits := 8 * d.length
  let nb := bitLen c.n
  if bits > nb then beNat d / 2 ^ (bits - nb) else beNat d

/-- A scalar from `bitlen(n) + 64` random bits: (c mod (n - 1)) + 1 (R338, R209). -/
def ecScalar (c : PCurve) (r : Nat) : Nat := r % (c.n - 1) + 1

/-- The random bytes that `ecScalar` takes. -/
def ecScalarLen (c : PCurve) : Nat := ceilDiv (bitLen c.n + 64) 8

/-- A random integer of `bitlen(n) + 64` bits from big-endian bytes. -/
def ecScalarBits (c : PCurve) (b : Bytes) : Nat := beNat b % 2 ^ (bitLen c.n + 64)

/-- ECDSA signature `r | s` with nonce `k` (R337, R338). -/
def ecdsaSign (c : PCurve) (d k : Nat) (digest : Bytes) : Bytes :=
  let r := match pMul c k (pBase c) with | some (x, _) => x % c.n | none => 0
  let s := modInv k c.n * ((ecDigest c digest + r * d) % c.n) % c.n
  beBytes c.f r ++ beBytes c.f s

/-- The ECDSA verification equation for in-range `r`, `s`. -/
def ecdsaVerify (c : PCurve) (q : Nat × Nat) (r s : Nat) (digest : Bytes) : Bool :=
  let w := modInv s c.n
  let u1 := ecDigest c digest * w % c.n
  let u2 := r * w % c.n
  match pAdd c (pMul c u1 (pBase c)) (pMul c u2 (some q)) with
  | some (x, _) => x % c.n == r
  | none => false

/-! ### X25519 and X448 -/

/-- One step of the Montgomery ladder of RFC 7748 (a24 and p of the curve), on (x1, x2, z2, x3, z3). -/
def ladderStep (p a24 x1 : Nat) (st : Nat × Nat × Nat × Nat) (bit : Bool) : Nat × Nat × Nat × Nat :=
  let (x2, z2, x3, z3) := if bit then (st.2.2.1, st.2.2.2, st.1, st.2.1) else st
  let a := x2 + z2; let aa := a * a % p
  let b := modSub x2 z2 p; let bb := b * b % p
  let e := modSub aa bb p
  let da := modSub x3 z3 p * a % p
  let cb := (x3 + z3) * b % p
  let x3' := (da + cb) * (da + cb) % p
  let d := modSub da cb p
  let z3' := x1 * (d * d % p) % p
  let x2' := aa * bb % p
  let z2' := e * ((aa + a24 * e) % p) % p
  if bit then (x3', z3', x2', z2') else (x2', z2', x3', z3')

/-- The ladder over `n` bits of `k`, most significant first. -/
def ladderLoop (p a24 x1 k : Nat) : Nat → Nat × Nat × Nat × Nat → Nat × Nat × Nat × Nat
  | 0, st => st
  | n + 1, st => ladderLoop p a24 x1 k n (ladderStep p a24 x1 st (bitOf k n))

/-- The u-coordinate of k times u. -/
def montLadder (p a24 bits k u : Nat) : Nat :=
  let st := ladderLoop p a24 (u % p) k bits (1, 0, u % p, 1)
  st.1 * modPow st.2.1 (p - 2) p % p

/-- X25519 (RFC 7748): scalar and u as 32 bytes; the top bit of u is masked (R343). -/
def x25519 (k u : Bytes) : Bytes :=
  let kn := leNat k
  let kc := (kn % 2 ^ 254 / 8 * 8) + 2 ^ 254
  leBytes 32 (montLadder (2 ^ 255 - 19) 121665 255 kc (leNat u % 2 ^ 255))

/-- X448 (RFC 7748): scalar and u as 56 bytes. -/
def x448 (k u : Bytes) : Bytes :=
  let kc := (leNat k % 2 ^ 447 / 4 * 4) + 2 ^ 447
  leBytes 56 (montLadder (2 ^ 448 - 2 ^ 224 - 1) 39081 448 kc (leNat u))

/-! ### Ed25519 and Ed448 -/

/-- An Edwards curve a x^2 + y^2 = 1 + d x^2 y^2 with base point, order, encoding width and log of the cofactor. -/
structure EdCurve where
  p : Nat
  a : Nat
  d : Nat
  bx : Nat
  bY : Nat
  l : Nat
  len : Nat
  c : Nat

/-- edwards25519. -/
def ed25519Curve : EdCurve :=
  { p := 2 ^ 255 - 19, a := 2 ^ 255 - 20
    d := 37095705934669439343138083508754565189542113879843219016388785533085940283555
    bx := 15112221349535400772501151409588531511454012693041857206046113283949847762202
    bY := 46316835694926478169428394003475163141307993866256225615783033603165251855960
    l := 2 ^ 252 + 27742317777372353535851937790883648493, len := 32, c := 3 }

/-- edwards448. -/
def ed448Curve : EdCurve :=
  { p := 2 ^ 448 - 2 ^ 224 - 1, a := 1, d := 2 ^ 448 - 2 ^ 224 - 1 - 39081
    bx := 224580040295924300187604334099896036246789641632564134246125461686950415467406032909029192869357953282578032075146446173674602635247710
    bY := 298819210078481492676017930443930673437544040154080242095928241372331506189835876003536878655418784733982303233503462500531545062832660
    l := 2 ^ 446 - 13818066809895115352007386748515426880336692474882178609894547503885, len := 57, c := 2 }

/-- A projective Edwards point (X : Y : Z). -/
abbrev EPoint := Nat × Nat × Nat

/-- The complete addition of Edwards points. -/
def edAdd (c : EdCurve) (u v : EPoint) : EPoint :=
  let p := c.p
  let (x1, y1, z1) := u
  let (x2, y2, z2) := v
  let a := z1 * z2 % p; let b := a * a % p
  let cc := x1 * x2 % p; let dd := y1 * y2 % p
  let e := c.d * cc % p * dd % p
  let f := modSub b e p; let g := (b + e) % p
  let xy := modSub ((x1 + y1) * (x2 + y2)) (cc + dd) p
  (a * f % p * xy % p, a * g % p * modSub dd (c.a * cc) p % p, f * g % p)

/-- Scalar multiplication, `n` bits of `k`, low bit first. -/
def edMulLoop (c : EdCurve) : Nat → EPoint → EPoint → Nat → EPoint
  | 0, acc, _, _ => acc
  | n + 1, acc, q, k => edMulLoop c n (if k % 2 == 1 then edAdd c acc q else acc) (edAdd c q q) (k / 2)

/-- Scalar multiplication on an Edwards curve. -/
def edMul (c : EdCurve) (k : Nat) (q : EPoint) : EPoint := edMulLoop c (Nat.log2 k + 1) (0, 1, 1) q k

/-- Encoding of a point (RFC 8032, 5.1.2 and 5.2.2). -/
def edEncode (c : EdCurve) (q : EPoint) : Bytes :=
  let zi := modPow q.2.2 (c.p - 2) c.p
  let x := q.1 * zi % c.p
  let y := q.2.1 * zi % c.p
  leBytes c.len (y + (x % 2) * 2 ^ (8 * c.len - 1))

/-- A square root of u / v modulo p, where one exists. -/
def edSqrt (c : EdCurve) (u v : Nat) : Option Nat :=
  let p := c.p
  let w := u * modPow v (p - 2) p % p
  if p % 8 == 5 then
    let r := modPow w ((p + 3) / 8) p
    if r * r % p == w then some r
    else let r2 := r * modPow 2 ((p - 1) / 4) p % p
         if r2 * r2 % p == w then some r2 else none
  else
    let r := modPow w ((p + 1) / 4) p
    if r * r % p == w then some r else none

/-- Decoding of a point; `none` when non-canonical (y >= p) or not a point (R343). -/
def edDecode (c : EdCurve) (b : Bytes) : Option EPoint :=
  let v := leNat b
  let sign := v / 2 ^ (8 * c.len - 1)
  let y := v % 2 ^ (8 * c.len - 1)
  if b.length != c.len || y ≥ c.p then none
  else
    match edSqrt c (modSub (y * y) 1 c.p) (modSub (c.d * (y * y % c.p)) c.a c.p) with
    | none => none
    | some x => if x == 0 && sign == 1 then none else some (if x % 2 == sign then x else (c.p - x) % c.p, y, 1)

/-- The hash of the signature scheme: SHA-512, or SHAKE256 with dom4 and `ctx` (114 bytes) (R342). -/
def edHash (ed448 : Bool) (ctx m : Bytes) : Bytes :=
  if ed448 then shake256 (ascii "SigEd448" ++ [0, byteOf ctx.length] ++ ctx ++ m) 114 else sha512 m

/-- The secret scalar and prefix of a seed. -/
def edExpand (ed448 : Bool) (seed : Bytes) : Nat × Bytes :=
  if ed448 then
    let h := shake256 seed 114
    let s := leNat (h.take 56)
    ((s % 2 ^ 447 / 4 * 4) + 2 ^ 447, h.drop 57)
  else
    let h := sha512 seed
    ((leNat (h.take 32) % 2 ^ 254 / 8 * 8) + 2 ^ 254, h.drop 32)

/-- The curve of the scheme. -/
def edCurve (ed448 : Bool) : EdCurve := if ed448 then ed448Curve else ed25519Curve

/-- The base point. -/
def edBase (c : EdCurve) : EPoint := (c.bx, c.bY, 1)

/-- The public key A of a seed. -/
def edPublic (ed448 : Bool) (seed : Bytes) : Bytes :=
  let c := edCurve ed448
  edEncode c (edMul c (edExpand ed448 seed).1 (edBase c))

/-- The signature R | S. -/
def edSign (ed448 : Bool) (seed pub ctx m : Bytes) : Bytes :=
  let c := edCurve ed448
  let k := edExpand ed448 seed
  let r := leNat (edHash ed448 ctx (k.2 ++ m)) % c.l
  let rB := edEncode c (edMul c r (edBase c))
  let h := leNat (edHash ed448 ctx (rB ++ pub ++ m)) % c.l
  rB ++ leBytes c.len ((r + h * k.1) % c.l)

/-- Verification by the cofactored equation: `none` when an input is rejected (R343). -/
def edVerify (ed448 : Bool) (pub sig ctx m : Bytes) : Option Bool :=
  let c := edCurve ed448
  let rB := sig.take c.len
  let s := leNat (sig.drop c.len)
  match edDecode c pub, edDecode c rB with
  | some a, some r =>
    if s ≥ c.l then none
    else
      let h := leNat (edHash ed448 ctx (rB ++ pub ++ m)) % c.l
      let lhs := edMul c (2 ^ c.c) (edMul c s (edBase c))
      let rhs := edMul c (2 ^ c.c) (edAdd c r (edMul c h a))
      some (edEncode c lhs == edEncode c rhs)
  | _, _ => none

end Sys2Proof.Machine
end

