-- ==== Sys2Proof/Machine/HashSig.lean ====
section
/-!
DEFINITION. Hash-based signatures as chapter 11 runs them: SLH-DSA (FIPS 205; R285 to R289), LMS and HSS with the key
derivation of R298 (RFC 8554), and XMSS and XMSS^MT verification (RFC 8391, SP 800-208; R300).
-/
namespace Sys2Proof.Machine

/-! ### SLH-DSA -/

/-- A parameter set of SLH-DSA (FIPS 205, Table 2), and whether it uses SHAKE. -/
structure SlhSet where
  n : Nat
  h : Nat
  d : Nat
  hp : Nat
  a : Nat
  k : Nat
  m : Nat
  shake : Bool

/-- The sets by PARAM_SET (R285): odd ids are SHA2 sets, even ids SHAKE sets. -/
def slhSet (ps : Nat) : SlhSet :=
  let s := ps % 2 == 0
  match (ps + 1) / 2 with
  | 1 => ⟨16, 63, 7, 9, 12, 14, 30, s⟩
  | 2 => ⟨16, 66, 22, 3, 6, 33, 34, s⟩
  | 3 => ⟨24, 63, 7, 9, 14, 17, 39, s⟩
  | 4 => ⟨24, 66, 22, 3, 8, 33, 42, s⟩
  | 5 => ⟨32, 64, 8, 8, 14, 22, 47, s⟩
  | _ => ⟨32, 68, 17, 4, 9, 35, 49, s⟩

/-- Sizes by PARAM_SET: pk, sk, signature (R285). -/
def slhSizes : Nat → Option (Nat × Nat × Nat)
  | 1 | 2 => some (32, 64, 7856)
  | 3 | 4 => some (32, 64, 17088)
  | 5 | 6 => some (48, 96, 16224)
  | 7 | 8 => some (48, 96, 35664)
  | 9 | 10 => some (64, 128, 29792)
  | 11 | 12 => some (64, 128, 49856)
  | _ => none

/-- An address of FIPS 205 (4.2): layer, tree, type and three words. -/
structure Adrs where
  layer : Nat := 0
  tree : Nat := 0
  typ : Nat := 0
  w1 : Nat := 0
  w2 : Nat := 0
  w3 : Nat := 0

/-- The address as the hash functions take it: 32 bytes, or 22 for the SHA2 sets. -/
def adrsBytes (shake : Bool) (x : Adrs) : Bytes :=
  let tail := beBytes 4 x.w1 ++ beBytes 4 x.w2 ++ beBytes 4 x.w3
  if shake then beBytes 4 x.layer ++ beBytes 12 x.tree ++ beBytes 4 x.typ ++ tail
  else [byteOf x.layer] ++ beBytes 8 x.tree ++ [byteOf x.typ] ++ tail

/-- F and PRF, and T and H at category 1: SHA-256 or SHAKE256, cut to n bytes. -/
def slhF (p : SlhSet) (pkSeed : Bytes) (x : Adrs) (m : Bytes) : Bytes :=
  if p.shake then shake256 (pkSeed ++ adrsBytes true x ++ m) p.n
  else (sha256 (pkSeed ++ zeros (64 - p.n) ++ adrsBytes false x ++ m)).take p.n

/-- H and T. -/
def slhT (p : SlhSet) (pkSeed : Bytes) (x : Adrs) (m : Bytes) : Bytes :=
  if p.shake || p.n == 16 then slhF p pkSeed x m
  else (sha512 (pkSeed ++ zeros (128 - p.n) ++ adrsBytes false x ++ m)).take p.n

/-- PRF. -/
def slhPrf (p : SlhSet) (pkSeed skSeed : Bytes) (x : Adrs) : Bytes := slhF p pkSeed x skSeed

/-- PRF_msg. -/
def slhPrfMsg (p : SlhSet) (skPrf opt m : Bytes) : Bytes :=
  if p.shake then shake256 (skPrf ++ opt ++ m) p.n
  else (hmac (if p.n == 16 then 0x02 else 0x04) skPrf (opt ++ m)).take p.n

/-- H_msg. -/
def slhHMsg (p : SlhSet) (r pkSeed pkRoot m : Bytes) : Bytes :=
  if p.shake then shake256 (r ++ pkSeed ++ pkRoot ++ m) p.m
  else
    let id := if p.n == 16 then 0x02 else 0x04
    mgf1 id (r ++ pkSeed ++ hashFixed id (r ++ pkSeed ++ pkRoot ++ m)) p.m

/-- `n` digits of `w` bits, most significant first, of a byte string. -/
def base2b (w n : Nat) (bs : Bytes) : List Nat :=
  let bits := 8 * bs.length
  let v := beNat bs
  (List.range n).map (fun i => v / 2 ^ (bits - w * (i + 1)) % 2 ^ w)

/-- The message digits of WOTS+ with their checksum (FIPS 205, Algorithm 7; the same in RFC 8391 with w = 16). -/
def wotsDigits (n : Nat) (m : Bytes) : List Nat :=
  let ds := base2b 4 (2 * n) m
  let cs := (ds.map (fun d => 15 - d)).sum * 16
  ds ++ base2b 4 3 (beBytes 2 cs)

/-- The chaining function: `s` steps from step `i`. -/
def slhChain (p : SlhSet) (pkSeed : Bytes) (x : Adrs) : Nat → Nat → Bytes → Bytes
  | 0, _, t => t
  | s + 1, i, t => slhChain p pkSeed x s (i + 1) (slhF p pkSeed { x with w3 := i } t)

/-- The secret of chain `c` of key pair `kp`. -/
def slhWotsSk (p : SlhSet) (skSeed pkSeed : Bytes) (layer tree kp c : Nat) : Bytes :=
  slhPrf p pkSeed skSeed { layer := layer, tree := tree, typ := 5, w1 := kp, w2 := c }

/-- The compressed WOTS+ public key from the chain ends. -/
def slhWotsPk (p : SlhSet) (pkSeed : Bytes) (layer tree kp : Nat) (ends : List Bytes) : Bytes :=
  slhT p pkSeed { layer := layer, tree := tree, typ := 1, w1 := kp } ends.flatten

/-- wots_pkGen. -/
def slhWotsPkGen (p : SlhSet) (skSeed pkSeed : Bytes) (layer tree kp : Nat) : Bytes :=
  slhWotsPk p pkSeed layer tree kp ((List.range (2 * p.n + 3)).map (fun c =>
    slhChain p pkSeed { layer := layer, tree := tree, typ := 0, w1 := kp, w2 := c } 15 0 (slhWotsSk p skSeed pkSeed layer tree kp c)))

/-- wots_sign. -/
def slhWotsSign (p : SlhSet) (skSeed pkSeed : Bytes) (layer tree kp : Nat) (m : Bytes) : List Bytes :=
  (wotsDigits p.n m).mapIdx (fun c d =>
    slhChain p pkSeed { layer := layer, tree := tree, typ := 0, w1 := kp, w2 := c } d 0 (slhWotsSk p skSeed pkSeed layer tree kp c))

/-- wots_pkFromSig. -/
def slhWotsFromSig (p : SlhSet) (pkSeed : Bytes) (layer tree kp : Nat) (sig : List Bytes) (m : Bytes) : Bytes :=
  slhWotsPk p pkSeed layer tree kp ((List.zipWith Prod.mk (wotsDigits p.n m) sig).mapIdx (fun c ds =>
    slhChain p pkSeed { layer := layer, tree := tree, typ := 0, w1 := kp, w2 := c } (15 - ds.1) ds.1 ds.2))

/-- xmss_node: node `i` at height `z`. -/
def slhXmssNode (p : SlhSet) (skSeed pkSeed : Bytes) (layer tree : Nat) : Nat → Nat → Bytes
  | 0, i => slhWotsPkGen p skSeed pkSeed layer tree i
  | z + 1, i =>
    slhT p pkSeed { layer := layer, tree := tree, typ := 2, w2 := z + 1, w3 := i }
      (slhXmssNode p skSeed pkSeed layer tree z (2 * i) ++ slhXmssNode p skSeed pkSeed layer tree z (2 * i + 1))

/-- The root that a leaf and an authentication path lead to; the address of each node comes from `x`. -/
def slhClimb (p : SlhSet) (pkSeed : Bytes) (x : Adrs) : Nat → Nat → Bytes → List Bytes → Bytes
  | _, _, t, [] => t
  | z, i, t, a :: r =>
    let x' := { x with w2 := z + 1, w3 := i / 2 }
    let t' := if i % 2 == 0 then slhT p pkSeed x' (t ++ a) else slhT p pkSeed x' (a ++ t)
    slhClimb p pkSeed x (z + 1) (i / 2) t' r

/-- xmss_sign: the WOTS+ signature followed by the authentication path. -/
def slhXmssSign (p : SlhSet) (skSeed pkSeed : Bytes) (layer tree idx : Nat) (m : Bytes) : Bytes :=
  (slhWotsSign p skSeed pkSeed layer tree idx m).flatten ++
    ((List.range p.hp).map (fun j => slhXmssNode p skSeed pkSeed layer tree j (Nat.xor (idx / 2 ^ j) 1))).flatten

/-- xmss_PKFromSig. -/
def slhXmssFromSig (p : SlhSet) (pkSeed : Bytes) (layer tree idx : Nat) (sig m : Bytes) : Bytes :=
  let w := (2 * p.n + 3) * p.n
  let leaf := slhWotsFromSig p pkSeed layer tree idx (chunks p.n (sig.take w)) m
  slhClimb p pkSeed { layer := layer, tree := tree, typ := 2 } 0 idx leaf (chunks p.n (sig.drop w))

/-- ht_sign, `n` layers from layer `j` up. -/
def slhHtSign (p : SlhSet) (skSeed pkSeed : Bytes) : Nat → Nat → Nat → Nat → Bytes → Bytes
  | 0, _, _, _, _ => []
  | n + 1, j, tree, leaf, m =>
    let s := slhXmssSign p skSeed pkSeed j tree leaf m
    let root := slhXmssFromSig p pkSeed j tree leaf s m
    s ++ slhHtSign p skSeed pkSeed n (j + 1) (tree / 2 ^ p.hp) (tree % 2 ^ p.hp) root

/-- The hypertree root that a signature leads to. -/
def slhHtRoot (p : SlhSet) (pkSeed : Bytes) : Nat → Nat → Nat → List Bytes → Bytes → Bytes
  | _, _, _, [], m => m
  | j, tree, leaf, s :: r, m =>
    slhHtRoot p pkSeed (j + 1) (tree / 2 ^ p.hp) (tree % 2 ^ p.hp) r (slhXmssFromSig p pkSeed j tree leaf s m)

/-- fors_skGen. -/
def slhForsSk (p : SlhSet) (skSeed pkSeed : Bytes) (tree kp idx : Nat) : Bytes :=
  slhPrf p pkSeed skSeed { tree := tree, typ := 6, w1 := kp, w3 := idx }

/-- fors_node. -/
def slhForsNode (p : SlhSet) (skSeed pkSeed : Bytes) (tree kp : Nat) : Nat → Nat → Bytes
  | 0, i => slhF p pkSeed { tree := tree, typ := 3, w1 := kp, w3 := i } (slhForsSk p skSeed pkSeed tree kp i)
  | z + 1, i =>
    slhT p pkSeed { tree := tree, typ := 3, w1 := kp, w2 := z + 1, w3 := i }
      (slhForsNode p skSeed pkSeed tree kp z (2 * i) ++ slhForsNode p skSeed pkSeed tree kp z (2 * i + 1))

/-- fors_sign. -/
def slhForsSign (p : SlhSet) (skSeed pkSeed : Bytes) (tree kp : Nat) (md : Bytes) : Bytes :=
  ((base2b p.a p.k md).mapIdx (fun i x =>
    slhForsSk p skSeed pkSeed tree kp (i * 2 ^ p.a + x) ++
      ((List.range p.a).map (fun j =>
        slhForsNode p skSeed pkSeed tree kp j (i * 2 ^ (p.a - j) + Nat.xor (x / 2 ^ j) 1))).flatten)).flatten

/-- fors_pkFromSig. -/
def slhForsFromSig (p : SlhSet) (pkSeed : Bytes) (tree kp : Nat) (sig md : Bytes) : Bytes :=
  let parts := chunks ((p.a + 1) * p.n) sig
  let roots := (List.zipWith Prod.mk (base2b p.a p.k md) parts).mapIdx (fun i xs =>
    let g := i * 2 ^ p.a + xs.1
    let x : Adrs := { tree := tree, typ := 3, w1 := kp }
    let leaf := slhF p pkSeed { x with w3 := g } (xs.2.take p.n)
    slhClimb p pkSeed x 0 g leaf (chunks p.n (xs.2.drop p.n)))
  slhT p pkSeed { tree := tree, typ := 4, w1 := kp } roots.flatten

/-- The message digest split into FORS digits, tree index and leaf index. -/
def slhSplit (p : SlhSet) (dg : Bytes) : Bytes × Nat × Nat :=
  let c1 := ceilDiv (p.k * p.a) 8
  let ht := p.h - p.hp
  let c2 := ceilDiv ht 8
  let c3 := ceilDiv p.hp 8
  (dg.take c1, beNat (sliceOf dg c1 c2) % 2 ^ ht, beNat (sliceOf dg (c1 + c2) c3) % 2 ^ p.hp)

/-- slh_keygen_internal: public key and private key. -/
def slhKeyGen (ps : Nat) (skSeed skPrf pkSeed : Bytes) : Bytes × Bytes :=
  let p := slhSet ps
  let root := slhXmssNode p skSeed pkSeed (p.d - 1) 0 p.hp 0
  (pkSeed ++ root, skSeed ++ skPrf ++ pkSeed ++ root)

/-- slh_sign_internal (R287). -/
def slhSign (ps : Nat) (sk m opt : Bytes) : Bytes :=
  let p := slhSet ps
  let skSeed := sk.take p.n
  let pkSeed := sliceOf sk (2 * p.n) p.n
  let r := slhPrfMsg p (sliceOf sk p.n p.n) opt m
  let (md, tree, leaf) := slhSplit p (slhHMsg p r pkSeed (sk.drop (3 * p.n)) m)
  let fors := slhForsSign p skSeed pkSeed tree leaf md
  r ++ fors ++ slhHtSign p skSeed pkSeed p.d 0 tree leaf (slhForsFromSig p pkSeed tree leaf fors md)

/-- slh_verify_internal (R287, R288). -/
def slhVerify (ps : Nat) (pk sig m : Bytes) : Bool :=
  let p := slhSet ps
  let pkSeed := pk.take p.n
  let fl := p.k * (p.a + 1) * p.n
  let (md, tree, leaf) := slhSplit p (slhHMsg p (sig.take p.n) pkSeed (pk.drop p.n) m)
  let root0 := slhForsFromSig p pkSeed tree leaf (sliceOf sig p.n fl) md
  let hts := chunks ((2 * p.n + 3 + p.hp) * p.n) (sig.drop (p.n + fl))
  slhHtRoot p pkSeed 0 tree leaf hts root0 == pk.drop p.n

/-! ### LMS and HSS -/

/-- An LM-OTS type (R294): SHAKE or SHA-256, n, w, p, ls. -/
structure OtsType where
  shake : Bool
  n : Nat
  w : Nat
  p : Nat
  ls : Nat

/-- The LM-OTS types by code (R294). -/
def otsType (code : Nat) : Option OtsType :=
  if code == 0 || code > 16 then none
  else
    let g := (code - 1) / 4
    let shake := g ≥ 2
    let n := if g % 2 == 0 then 32 else 24
    match (code - 1) % 4 with
    | 0 => some ⟨shake, n, 1, if n == 32 then 265 else 200, if n == 32 then 7 else 8⟩
    | 1 => some ⟨shake, n, 2, if n == 32 then 133 else 101, 6⟩
    | 2 => some ⟨shake, n, 4, if n == 32 then 67 else 51, 4⟩
    | _ => some ⟨shake, n, 8, if n == 32 then 34 else 26, 0⟩

/-- An LMS type (R294): SHAKE or SHA-256, m, h. -/
structure LmsType where
  shake : Bool
  m : Nat
  h : Nat

/-- The LMS types by code (R294). -/
def lmsType (code : Nat) : Option LmsType :=
  if code < 5 || code > 24 then none
  else
    let g := (code - 5) / 5
    some ⟨g ≥ 2, if g % 2 == 0 then 32 else 24, 5 * ((code - 5) % 5 + 1)⟩

/-- The hash of a type, cut to `n` bytes. -/
def lmsHash (shake : Bool) (n : Nat) (m : Bytes) : Bytes := if shake then shake256 m n else (sha256 m).take n

/-- One LM-OTS chain: `s` steps from step `j`. -/
def otsChain (t : OtsType) (pre : Bytes) : Nat → Nat → Bytes → Bytes
  | 0, _, x => x
  | s + 1, j, x => otsChain t pre s (j + 1) (lmsHash t.shake t.n (pre ++ [byteOf j] ++ x))

/-- The digits of the message hash with its checksum (RFC 8554, 4.4). -/
def otsDigits (t : OtsType) (q : Bytes) : List Nat :=
  let u := 8 * t.n / t.w
  let cs := ((base2b t.w u q).map (fun d => 2 ^ t.w - 1 - d)).sum * 2 ^ t.ls
  base2b t.w t.p (q ++ beBytes 2 cs)

/-- I | u32str(q) | u16str(i). -/
def otsPre (ident : Bytes) (q i : Nat) : Bytes := ident ++ beBytes 4 q ++ beBytes 2 i

/-- The private value x_q[j] (R298). -/
def otsX (t : OtsType) (ident seed : Bytes) (q j : Nat) : Bytes := lmsHash t.shake t.n (otsPre ident q j ++ [0xFF] ++ seed)

/-- The randomizer C of leaf q (R298). -/
def otsC (t : OtsType) (ident seed : Bytes) (q : Nat) : Bytes := lmsHash t.shake t.n (otsPre ident q 0xFFFD ++ [0xFF] ++ seed)

/-- The OTS public key K of leaf q. -/
def otsPublic (t : OtsType) (ident seed : Bytes) (q : Nat) : Bytes :=
  let ys := (List.range t.p).map (fun i => otsChain t (otsPre ident q i) (2 ^ t.w - 1) 0 (otsX t ident seed q i))
  lmsHash t.shake t.n (otsPre ident q 0x8080 ++ ys.flatten)

/-- The OTS signature, type code first (RFC 8554, 4.5). -/
def otsSign (code : Nat) (t : OtsType) (ident seed : Bytes) (q : Nat) (m : Bytes) : Bytes :=
  let c := otsC t ident seed q
  let d := otsDigits t (lmsHash t.shake t.n (otsPre ident q 0x8181 ++ c ++ m))
  beBytes 4 code ++ c ++ (d.mapIdx (fun i a => otsChain t (otsPre ident q i) a 0 (otsX t ident seed q i))).flatten

/-- The OTS public key candidate of a signature body `C | y` (RFC 8554, 4.6). -/
def otsFromSig (t : OtsType) (ident : Bytes) (q : Nat) (c : Bytes) (ys : List Bytes) (m : Bytes) : Bytes :=
  let d := otsDigits t (lmsHash t.shake t.n (otsPre ident q 0x8181 ++ c ++ m))
  let zs := (List.zipWith Prod.mk d ys).mapIdx (fun i ay => otsChain t (otsPre ident q i) (2 ^ t.w - 1 - ay.1) ay.1 ay.2)
  lmsHash t.shake t.n (otsPre ident q 0x8080 ++ zs.flatten)

/-- Node `r` of an LMS tree of height `h`; `f` is the node's height above the leaves. -/
def lmsNode (l : LmsType) (t : OtsType) (ident seed : Bytes) : Nat → Nat → Bytes
  | 0, r => lmsHash l.shake l.m (otsPre ident r 0x8282 ++ otsPublic t ident seed (r - 2 ^ l.h))
  | f + 1, r =>
    lmsHash l.shake l.m (otsPre ident r 0x8383 ++ lmsNode l t ident seed f (2 * r) ++ lmsNode l t ident seed f (2 * r + 1))

/-- An LMS public key: types, I and the root. -/
def lmsPublic (lc oc : Nat) (ident root : Bytes) : Bytes := beBytes 4 lc ++ beBytes 4 oc ++ ident ++ root

/-- An LMS signature at leaf q (RFC 8554, 5.4.1). -/
def lmsSign (lc oc : Nat) (l : LmsType) (t : OtsType) (ident seed : Bytes) (q : Nat) (m : Bytes) : Bytes :=
  let r := 2 ^ l.h + q
  beBytes 4 q ++ otsSign oc t ident seed q m ++ beBytes 4 lc ++
    ((List.range l.h).map (fun j => lmsNode l t ident seed j (Nat.xor (r / 2 ^ j) 1))).flatten

/-- The root that a leaf node and a path lead to. -/
def lmsClimb (l : LmsType) (ident : Bytes) : Nat → Bytes → List Bytes → Bytes
  | _, x, [] => x
  | r, x, p :: ps =>
    lmsClimb l ident (r / 2) (lmsHash l.shake l.m (otsPre ident (r / 2) 0x8383 ++ (if r % 2 == 1 then p ++ x else x ++ p))) ps

/-- LMS verification of a signature of exactly the length of its types (RFC 8554, 5.4.2). -/
def lmsVerify (pub sig m : Bytes) : Bool :=
  let lc := beNat (pub.take 4)
  let oc := beNat (sliceOf pub 4 4)
  match lmsType lc, otsType oc with
  | some l, some t =>
    let ident := sliceOf pub 8 16
    let q := beNat (sig.take 4)
    let ol := 4 + t.n + t.p * t.n
    let c := sliceOf sig 8 t.n
    let ys := chunks t.n (sliceOf sig (8 + t.n) (t.p * t.n))
    let path := chunks l.m (sig.drop (4 + ol + 4))
    if pub.length == 24 + l.m && l.m == t.n && l.shake == t.shake && sig.length == 8 + ol + l.h * l.m &&
        beNat (sliceOf sig 4 4) == oc && beNat (sliceOf sig (4 + ol) 4) == lc && q < 2 ^ l.h then
      let k := otsFromSig t ident q c ys m
      let leaf := lmsHash l.shake l.m (otsPre ident (2 ^ l.h + q) 0x8282 ++ k)
      lmsClimb l ident (2 ^ l.h + q) leaf path == pub.drop 24
    else false
  | _, _ => false

/-- The length of an LMS signature under a public key's types; 0 for unknown types. -/
def lmsSigLen (pub : Bytes) : Nat :=
  match lmsType (beNat (pub.take 4)), otsType (beNat (sliceOf pub 4 4)) with
  | some l, some t => 12 + t.n + t.p * t.n + l.h * l.m
  | _, _ => 0

/-- Every level uses the LM-OTS code `oc` and a height at most `hmax` (R300). -/
def lmsShapeOk (oc hmax : Nat) (pub : Bytes) : Bool :=
  match lmsType (beNat (pub.take 4)) with
  | some l => l.h ≤ hmax && beNat (sliceOf pub 4 4) == oc
  | none => false

/-- HSS verification below a key: `n` signed public keys, then the message (RFC 8554, 6.3). -/
def hssVerifyFrom (oc hmax : Nat) : Nat → Bytes → Bytes → Bytes → Bool
  | 0, pub, sig, m => lmsShapeOk oc hmax pub && lmsVerify pub sig m
  | n + 1, pub, sig, m =>
    let sl := lmsSigLen pub
    let child := sig.drop sl
    let pl := match lmsType (beNat (child.take 4)) with | some l => 24 + l.m | none => 0
    lmsShapeOk oc hmax pub && sl > 0 && pl > 0 && lmsVerify pub (sig.take sl) (child.take pl) &&
      hssVerifyFrom oc hmax n (child.take pl) (child.drop pl) m

/-- VERIFY of an LMS (L = 0) or HSS signature against the shape of PARAM_SET (R300). -/
def hssVerify (levels oc hmax : Nat) (pub sig m : Bytes) : Bool :=
  if levels == 0 then lmsShapeOk oc hmax pub && lmsVerify pub sig m
  else beNat (pub.take 4) == levels && beNat (sig.take 4) == levels - 1 &&
    hssVerifyFrom oc hmax (levels - 1) (pub.drop 4) (sig.drop 4) m

/-- The level seeds below a parent: SEED and I of the child tree (R298). -/
def hssChild (m : Nat) (level : Nat) (seed ident : Bytes) (q : Nat) : Bytes × Bytes :=
  let p := ident ++ beBytes 4 q ++ beBytes 4 level
  (kmac256 seed p m (ascii "YQ9 HSS SEED"), kmac256 seed p 16 (ascii "YQ9 HSS I"))

/-- The product of the leaf counts of the heights. -/
def hssSpan (hs : List Nat) : Nat := 2 ^ hs.sum

/-- The part of an HSS signature from level `level` down: signed child keys, then the message signature (R298, R303).
`codes` are the LMS type codes of this level and below, `g` the leaf within this subtree. -/
def hssSignFrom (oc : Nat) (t : OtsType) : List Nat → Nat → Bytes → Bytes → Nat → Bytes → Bytes
  | [], _, _, _, _, _ => []
  | [lc], _, seed, ident, g, m =>
    match lmsType lc with
    | some l => lmsSign lc oc l t ident seed (g % 2 ^ l.h) m
    | none => []
  | lc :: rest, level, seed, ident, g, m =>
    match lmsType lc with
    | none => []
    | some l =>
      let below := hssSpan (rest.map (fun c => match lmsType c with | some x => x.h | none => 0))
      let q := g / below % 2 ^ l.h
      let (s2, i2) := hssChild l.m level seed ident q
      let cc := rest.headD 0
      let pub := match lmsType cc with
        | some lx => lmsPublic cc oc i2 (lmsNode lx t i2 s2 lx.h 1)
        | none => []
      lmsSign lc oc l t ident seed q pub ++ pub ++ hssSignFrom oc t rest (level + 1) s2 i2 (g % below) m

/-- The public key of the bottom tree that holds leaf `g` of this subtree (R298, R303). -/
def hssBottom (oc : Nat) (t : OtsType) : List Nat → Nat → Bytes → Bytes → Nat → Bytes
  | [], _, _, _, _ => []
  | [lc], _, seed, ident, _ =>
    match lmsType lc with
    | some l => lmsPublic lc oc ident (lmsNode l t ident seed l.h 1)
    | none => []
  | lc :: rest, level, seed, ident, g =>
    match lmsType lc with
    | none => []
    | some l =>
      let below := hssSpan (rest.map (fun c => match lmsType c with | some x => x.h | none => 0))
      let c := hssChild l.m level seed ident (g / below % 2 ^ l.h)
      hssBottom oc t rest (level + 1) c.1 c.2 (g % below)

/-- The bottom LMS signature at the end of an HSS signature of leaf `g` verifies (R303). -/
def hssBottomOk (oc : Nat) (codes : List Nat) (seed ident : Bytes) (g : Nat) (sig m : Bytes) : Bool :=
  match otsType oc with
  | some t => let pub := hssBottom oc t codes 0 seed ident g; lmsVerify pub (sig.drop (sig.length - lmsSigLen pub)) m
  | none => false

/-- The HSS public key u32str(L) | top LMS key (R299). -/
def hssPublic (oc : Nat) (codes : List Nat) (seed ident : Bytes) : Bytes :=
  match lmsType (codes.headD 0), otsType oc with
  | some l, some t => beBytes 4 codes.length ++ lmsPublic (codes.headD 0) oc ident (lmsNode l t ident seed l.h 1)
  | _, _ => []

/-- The HSS signature of leaf `g` (R298, R299). -/
def hssSign (oc : Nat) (codes : List Nat) (seed ident : Bytes) (g : Nat) (m : Bytes) : Bytes :=
  match otsType oc with
  | some t => beBytes 4 (codes.length - 1) ++ hssSignFrom oc t codes 0 seed ident g m
  | none => []

/-! ### XMSS and XMSS^MT -/

/-- A set of R294: SHAKE256 or SHA-256, n, total height, layers. -/
structure XmssSet where
  shake : Bool
  n : Nat
  h : Nat
  d : Nat

/-- The hash family at a position of the OID tables: SHA2_256, SHA2_192, SHAKE256_256, SHAKE256_192. -/
def xmssKind (g h d : Nat) : XmssSet := ⟨g ≥ 2, if g % 2 == 0 then 32 else 24, h, d⟩

/-- The XMSS OIDs of R294. -/
def xmssSet (oid : Nat) : Option XmssSet :=
  let hs := fun i => (([10, 16, 20] : List Nat)).getD i 0
  if 1 ≤ oid && oid ≤ 3 then some (xmssKind 0 (hs (oid - 1)) 1)
  else if 0x0D ≤ oid && oid ≤ 0x15 then some (xmssKind ((oid - 0x0D) / 3 + 1) (hs ((oid - 0x0D) % 3)) 1)
  else none

/-- The XMSS^MT OIDs of R294. -/
def xmssMtSet (oid : Nat) : Option XmssSet :=
  let hd := fun i => (([(20, 2), (20, 4), (40, 2), (40, 4), (40, 8), (60, 3), (60, 6), (60, 12)] : List (Nat × Nat))).getD i (0, 1)
  if 1 ≤ oid && oid ≤ 8 then some (xmssKind 0 (hd (oid - 1)).1 (hd (oid - 1)).2)
  else if 0x21 ≤ oid && oid ≤ 0x38 then
    let i := oid - 0x21
    some (xmssKind (i / 8 + 1) (hd (i % 8)).1 (hd (i % 8)).2)
  else none

/-- The keyed hash with domain number `x` (RFC 8391, 5.1; SP 800-208, 5). -/
def xmssHash (s : XmssSet) (x : Nat) (m : Bytes) : Bytes :=
  let pre := beBytes (if s.n == 32 then 32 else 4) x
  if s.shake then shake256 (pre ++ m) s.n else (sha256 (pre ++ m)).take s.n

/-- An address of RFC 8391, 2.5: layer, tree, type and four words. -/
def xmssAdrs (layer tree typ w1 w2 w3 kam : Nat) : Bytes :=
  beBytes 4 layer ++ beBytes 8 tree ++ beBytes 4 typ ++ beBytes 4 w1 ++ beBytes 4 w2 ++ beBytes 4 w3 ++ beBytes 4 kam

/-- PRF. -/
def xmssPrf (s : XmssSet) (seed adrs : Bytes) : Bytes := xmssHash s 3 (seed ++ adrs)

/-- The WOTS+ chain: `k` steps from step `i` of chain `c` of key `ots`. -/
def xmssChain (s : XmssSet) (seed : Bytes) (layer tree ots c : Nat) : Nat → Nat → Bytes → Bytes
  | 0, _, x => x
  | k + 1, i, x =>
    let key := xmssPrf s seed (xmssAdrs layer tree 0 ots c i 0)
    let bm := xmssPrf s seed (xmssAdrs layer tree 0 ots c i 1)
    xmssChain s seed layer tree ots c k (i + 1) (xmssHash s 0 (key ++ xorBytes x bm))

/-- RAND_HASH at an address of type `typ`. -/
def xmssRandHash (s : XmssSet) (seed : Bytes) (layer tree typ w1 w2 w3 : Nat) (l r : Bytes) : Bytes :=
  let a := fun kam => xmssPrf s seed (xmssAdrs layer tree typ w1 w2 w3 kam)
  xmssHash s 1 (a 0 ++ xorBytes l (a 1) ++ xorBytes r (a 2))

/-- One level of the L-tree. -/
def xmssLLevel (s : XmssSet) (seed : Bytes) (layer tree lt height : Nat) : Nat → List Bytes → List Bytes
  | i, a :: b :: r => xmssRandHash s seed layer tree 1 lt height i a b :: xmssLLevel s seed layer tree lt height (i + 1) r
  | _, r => r

/-- The L-tree root; `fuel` bounds the levels. -/
def xmssLTree (s : XmssSet) (seed : Bytes) (layer tree lt : Nat) : Nat → Nat → List Bytes → Bytes
  | 0, _, ns => ns.headD []
  | f + 1, height, ns =>
    if ns.length ≤ 1 then ns.headD []
    else xmssLTree s seed layer tree lt f (height + 1) (xmssLLevel s seed layer tree lt height 0 ns)

/-- Climbing the tree with an authentication path. -/
def xmssClimb (s : XmssSet) (seed : Bytes) (layer tree : Nat) : Nat → Nat → Bytes → List Bytes → Bytes
  | _, _, x, [] => x
  | k, i, x, p :: ps =>
    let l := if i % 2 == 0 then x else p
    let r := if i % 2 == 0 then p else x
    xmssClimb s seed layer tree (k + 1) (i / 2) (xmssRandHash s seed layer tree 2 0 k (i / 2) l r) ps

/-- The root that one layer's reduced signature leads to. -/
def xmssRootFromSig (s : XmssSet) (seed : Bytes) (layer tree idx : Nat) (sig m : Bytes) : Bytes :=
  let len := 2 * s.n + 3
  let ys := chunks s.n (sig.take (len * s.n))
  let ends := (List.zipWith Prod.mk (wotsDigits s.n m) ys).mapIdx (fun c dy => xmssChain s seed layer tree idx c (15 - dy.1) dy.1 dy.2)
  xmssClimb s seed layer tree 0 idx (xmssLTree s seed layer tree idx 8 0 ends) (chunks s.n (sig.drop (len * s.n)))

/-- The layers of an XMSS^MT signature, bottom first. -/
def xmssLayers (s : XmssSet) (seed : Bytes) : Nat → Nat → Nat → List Bytes → Bytes → Bytes
  | _, _, _, [], m => m
  | j, tree, leaf, g :: r, m =>
    let hl := s.h / s.d
    xmssLayers s seed (j + 1) (tree / 2 ^ hl) (tree % 2 ^ hl) r (xmssRootFromSig s seed j tree leaf g m)

/-- The lengths of public key and signature (RFC 8391; R300). -/
def xmssSizes (s : XmssSet) (mt : Bool) : Nat × Nat :=
  (4 + 2 * s.n, (if mt then ceilDiv s.h 8 else 4) + s.n + s.d * (2 * s.n + 3 + s.h / s.d) * s.n)

/-- XMSS and XMSS^MT verification (R300). -/
def xmssVerify (s : XmssSet) (mt : Bool) (oid : Nat) (pub sig m : Bytes) : Bool :=
  let il := if mt then ceilDiv s.h 8 else 4
  let idx := beNat (sig.take il)
  let root := sliceOf pub 4 s.n
  let seed := pub.drop (4 + s.n)
  let r := sliceOf sig il s.n
  let hl := s.h / s.d
  let msg := xmssHash s 2 (r ++ root ++ beBytes s.n idx ++ m)
  let parts := chunks ((2 * s.n + 3 + hl) * s.n) (sig.drop (il + s.n))
  beNat (pub.take 4) == oid && idx < 2 ^ s.h && xmssLayers s seed 0 (idx / 2 ^ hl) (idx % 2 ^ hl) parts msg == root

end Sys2Proof.Machine
end

