-- ==== Sys2Proof/Machine/Lattice.lean ====
section
/-!
DEFINITION. ML-KEM (FIPS 203) and ML-DSA (FIPS 204) as chapter 10 runs them: KeyGen_internal, Encaps_internal,
Decaps_internal (R265, R266), KeyGen_internal, Sign_internal cut into candidates (R275) and Verify_internal (R272, R273).
Polynomials are lists of 256 numbers modulo q.
-/
namespace Sys2Proof.Machine

/-- A polynomial: 256 coefficients modulo q. -/
abbrev Poly := List Nat

/-- `n` values of `w` bits, low bit first. -/
def bitPack (w : Nat) (vs : List Nat) : Bytes :=
  leBytes (vs.length * w / 8) (vs.foldr (fun v acc => v % 2 ^ w + acc * 2 ^ w) 0)

/-- The `n` values of `w` bits of a byte string, low bit first. -/
def bitUnpackN (w : Nat) : Nat → Nat → List Nat
  | 0, _ => []
  | n + 1, v => v % 2 ^ w :: bitUnpackN w n (v / 2 ^ w)

/-- 256 values of `w` bits. -/
def bitUnpack (w : Nat) (bs : Bytes) : List Nat := bitUnpackN w 256 (leNat bs)

/-- Coefficientwise sum modulo `q`. -/
def polyAdd (q : Nat) (a b : Poly) : Poly := List.zipWith (fun x y => (x + y) % q) a b

/-- Coefficientwise difference modulo `q`. -/
def polySub (q : Nat) (a b : Poly) : Poly := List.zipWith (fun x y => modSub x y q) a b

/-- The zero polynomial. -/
def polyZero : Poly := List.replicate 256 0

/-- The reversal of the low `n` bits of `k`. -/
def bitRev : Nat → Nat → Nat
  | 0, _ => 0
  | n + 1, k => (k % 2) * 2 ^ n + bitRev n (k / 2)

/-- The number-theoretic transform by `depth` layers: node `k` of the tree splits by `z ^ bitRev(total, k)`. -/
def nttTree (q z total : Nat) : Nat → Nat → List Nat → List Nat
  | 0, _, f => f
  | d + 1, k, f =>
    let h := f.length / 2
    let zeta := modPow z (bitRev total k) q
    let a := f.take h
    let t := (f.drop h).map (fun x => zeta * x % q)
    nttTree q z total d (2 * k) (List.zipWith (fun x y => (x + y) % q) a t) ++
      nttTree q z total d (2 * k + 1) (List.zipWith (fun x y => modSub x y q) a t)

/-- The inverse transform. -/
def inttTree (q z total : Nat) : Nat → Nat → List Nat → List Nat
  | 0, _, f => f
  | d + 1, k, f =>
    let h := f.length / 2
    let a := inttTree q z total d (2 * k) (f.take h)
    let b := inttTree q z total d (2 * k + 1) (f.drop h)
    let i2 := (q + 1) / 2
    let iz := i2 * modInv (modPow z (bitRev total k) q) q % q
    List.zipWith (fun x y => (x + y) * i2 % q) a b ++ List.zipWith (fun x y => modSub x y q * iz % q) a b

/-! ### ML-KEM -/

/-- The modulus of ML-KEM. -/
def kq : Nat := 3329

/-- A parameter set of ML-KEM: k, eta1, du, dv. -/
structure KemSet where
  k : Nat
  eta1 : Nat
  du : Nat
  dv : Nat

/-- The sets by PARAM_SET (R261). -/
def kemSet : Nat → KemSet
  | 1 => ⟨2, 3, 10, 4⟩
  | 2 => ⟨3, 2, 10, 4⟩
  | _ => ⟨4, 2, 11, 5⟩

/-- NTT of ML-KEM. -/
def kNtt (f : Poly) : Poly := nttTree kq 17 7 7 1 f

/-- Inverse NTT of ML-KEM. -/
def kIntt (f : Poly) : Poly := inttTree kq 17 7 7 1 f

/-- Products of degree-one pieces, pair `i` modulo X^2 - zeta^(2 BitRev7(i) + 1). -/
def kMulPairs : Nat → Poly → Poly → Poly
  | i, a0 :: a1 :: ar, b0 :: b1 :: br =>
    let g := modPow 17 (2 * bitRev 7 i + 1) kq
    (a0 * b0 + a1 * b1 % kq * g) % kq :: (a0 * b1 + a1 * b0) % kq :: kMulPairs (i + 1) ar br
  | _, _, _ => []

/-- The product in the transformed domain. -/
def kMul (a b : Poly) : Poly := kMulPairs 0 a b

/-- The inner product of vectors in the transformed domain. -/
def kDot (a b : List Poly) : Poly := (List.zipWith kMul a b).foldl (polyAdd kq) polyZero

/-- Rejection sampling from 3-byte groups (FIPS 203, Algorithm 7). -/
def kReject : Bytes → List Nat
  | a :: b :: c :: r =>
    let d1 := a.toNat + 256 * (b.toNat % 16)
    let d2 := b.toNat / 16 + 16 * c.toNat
    (if d1 < kq then [d1] else []) ++ (if d2 < kq then [d2] else []) ++ kReject r
  | _ => []

/-- SampleNTT, with the 280 iterations that FIPS 203, Appendix B, allows as a bound. -/
def kSampleNtt (seed : Bytes) : Poly := (kReject (shake128 seed 840)).take 256

/-- The centred binomial distribution (FIPS 203, Algorithm 8). -/
def kCbd (eta : Nat) (b : Bytes) : Poly :=
  (bitUnpack (2 * eta) b).map (fun v =>
    let pop := fun (x : Nat) => (List.range eta).foldl (fun a i => a + x / 2 ^ i % 2) 0
    modSub (pop v) (pop (v / 2 ^ eta)) kq)

/-- The pseudorandom function. -/
def kPrf (eta : Nat) (s : Bytes) (n : Nat) : Poly := kCbd eta (shake256 (s ++ [byteOf n]) (64 * eta))

/-- Compress to `d` bits. -/
def kCompress (d : Nat) (f : Poly) : List Nat := f.map (fun x => (2 ^ (d + 1) * x + kq) / (2 * kq) % 2 ^ d)

/-- Decompress from `d` bits. -/
def kDecompress (d : Nat) (f : List Nat) : Poly := f.map (fun y => (2 * kq * y + 2 ^ d) / 2 ^ (d + 1))

/-- Row `i` of the matrix: column index first in the seed (FIPS 203, Algorithm 13). -/
def kRow (k : Nat) (rho : Bytes) (i : Nat) : List Poly := (List.range k).map (fun j => kSampleNtt (rho ++ [byteOf j, byteOf i]))

/-- Column `i` of the matrix. -/
def kCol (k : Nat) (rho : Bytes) (i : Nat) : List Poly := (List.range k).map (fun j => kSampleNtt (rho ++ [byteOf i, byteOf j]))

/-- K-PKE.KeyGen. -/
def kpkeKeyGen (p : KemSet) (d : Bytes) : Bytes × Bytes :=
  let g := sha3_512 (d ++ [byteOf p.k])
  let rho := g.take 32
  let sig := g.drop 32
  let s := (List.range p.k).map (fun i => kNtt (kPrf p.eta1 sig i))
  let e := (List.range p.k).map (fun i => kNtt (kPrf p.eta1 sig (p.k + i)))
  let t := (List.range p.k).map (fun i => polyAdd kq (kDot (kRow p.k rho i) s) (e.getD i polyZero))
  (t.flatMap (bitPack 12) ++ rho, s.flatMap (bitPack 12))

/-- K-PKE.Encrypt. -/
def kpkeEnc (p : KemSet) (ek m r : Bytes) : Bytes :=
  let t := (List.range p.k).map (fun i => (bitUnpack 12 (sliceOf ek (384 * i) 384)).map (· % kq))
  let rho := sliceOf ek (384 * p.k) 32
  let y := (List.range p.k).map (fun i => kNtt (kPrf p.eta1 r i))
  let u := (List.range p.k).map (fun i => polyAdd kq (kIntt (kDot (kCol p.k rho i) y)) (kPrf 2 r (p.k + i)))
  let mu := kDecompress 1 (bitUnpack 1 m)
  let v := polyAdd kq (polyAdd kq (kIntt (kDot t y)) (kPrf 2 r (2 * p.k))) mu
  u.flatMap (fun f => bitPack p.du (kCompress p.du f)) ++ bitPack p.dv (kCompress p.dv v)

/-- K-PKE.Decrypt. -/
def kpkeDec (p : KemSet) (dk c : Bytes) : Bytes :=
  let u := (List.range p.k).map (fun i => kDecompress p.du (bitUnpack p.du (sliceOf c (32 * p.du * i) (32 * p.du))))
  let v := kDecompress p.dv (bitUnpack p.dv (c.drop (32 * p.du * p.k)))
  let s := (List.range p.k).map (fun i => bitUnpack 12 (sliceOf dk (384 * i) 384))
  bitPack 1 (kCompress 1 (polySub kq v (kIntt (kDot s (u.map kNtt)))))

/-- ML-KEM.KeyGen_internal: encapsulation key and decapsulation key. -/
def mlKemKeyGen (set : Nat) (d z : Bytes) : Bytes × Bytes :=
  let (ek, dk) := kpkeKeyGen (kemSet set) d
  (ek, dk ++ ek ++ sha3_256 ek ++ z)

/-- ML-KEM.Encaps_internal: shared secret and ciphertext. -/
def mlKemEncaps (set : Nat) (ek m : Bytes) : Bytes × Bytes :=
  let g := sha3_512 (m ++ sha3_256 ek)
  (g.take 32, kpkeEnc (kemSet set) ek m (g.drop 32))

/-- ML-KEM.Decaps_internal: the shared secret and whether the implicit-rejection key was taken (R266). -/
def mlKemDecaps (set : Nat) (dk c : Bytes) : Bytes × Bool :=
  let p := kemSet set
  let ek := sliceOf dk (384 * p.k) (384 * p.k + 32)
  let h := sliceOf dk (768 * p.k + 32) 32
  let z := sliceOf dk (768 * p.k + 64) 32
  let m := kpkeDec p (dk.take (384 * p.k)) c
  let g := sha3_512 (m ++ h)
  if kpkeEnc p ek m (g.drop 32) == c then (g.take 32, false) else (shake256 (z ++ c) 32, true)

/-- The modulus check of an encapsulation key (R267). -/
def mlKemEkOk (set : Nat) (ek : Bytes) : Bool :=
  (List.range (kemSet set).k).all (fun i => (bitUnpack 12 (sliceOf ek (384 * i) 384)).all (· < kq))

/-- The hash check of a decapsulation key (R267). -/
def mlKemDkOk (set : Nat) (dk : Bytes) : Bool :=
  let k := (kemSet set).k
  sha3_256 (sliceOf dk (384 * k) (384 * k + 32)) == sliceOf dk (768 * k + 32) 32

/-- The encapsulation key embedded in a decapsulation key (R265). -/
def mlKemEkOf (set : Nat) (dk : Bytes) : Bytes := let k := (kemSet set).k; sliceOf dk (384 * k) (384 * k + 32)

/-- Sizes of ML-KEM by PARAM_SET: ek, dk, c (R262). -/
def mlKemSizes : Nat → Option (Nat × Nat × Nat)
  | 1 => some (800, 1632, 768)
  | 2 => some (1184, 2400, 1088)
  | 3 => some (1568, 3168, 1568)
  | _ => none

/-! ### ML-DSA -/

/-- The modulus of ML-DSA. -/
def dq : Nat := 8380417

/-- A parameter set of ML-DSA (FIPS 204, Table 1). -/
structure DsaSet where
  k : Nat
  l : Nat
  eta : Nat
  tau : Nat
  lam : Nat
  gamma1 : Nat
  gamma2 : Nat
  beta : Nat
  omega : Nat

/-- The sets by PARAM_SET (R261). -/
def dsaSet : Nat → DsaSet
  | 1 => ⟨4, 4, 2, 39, 128, 2 ^ 17, (8380417 - 1) / 88, 78, 80⟩
  | 2 => ⟨6, 5, 4, 49, 192, 2 ^ 19, (8380417 - 1) / 32, 196, 55⟩
  | _ => ⟨8, 7, 2, 60, 256, 2 ^ 19, (8380417 - 1) / 32, 120, 75⟩

/-- Sizes of ML-DSA by PARAM_SET: pk, sk, signature (R262). -/
def mlDsaSizes : Nat → Option (Nat × Nat × Nat)
  | 1 => some (1312, 2560, 2420)
  | 2 => some (1952, 4032, 3309)
  | 3 => some (2592, 4896, 4627)
  | _ => none

/-- NTT of ML-DSA. -/
def dNtt (f : Poly) : Poly := nttTree dq 1753 8 8 1 f

/-- Inverse NTT of ML-DSA. -/
def dIntt (f : Poly) : Poly := inttTree dq 1753 8 8 1 f

/-- Pointwise product. -/
def dMul (a b : Poly) : Poly := List.zipWith (fun x y => x * y % dq) a b

/-- Inner product in the transformed domain. -/
def dDot (a b : List Poly) : Poly := (List.zipWith dMul a b).foldl (polyAdd dq) polyZero

/-- The magnitude of a residue taken in [-(q-1)/2, (q-1)/2]. -/
def dAbs (x : Nat) : Nat := if x > dq / 2 then dq - x else x

/-- The infinity norm of a vector. -/
def dNorm (v : List Poly) : Nat := v.foldl (fun m f => f.foldl (fun m x => max m (dAbs x)) m) 0

/-- BitPack(w, a, b): `b - w` in `bits` bits (FIPS 204, Algorithm 17). -/
def dPack (b bits : Nat) (f : Poly) : Bytes := bitPack bits (f.map (fun x => modSub b x dq))

/-- BitUnpack (FIPS 204, Algorithm 19). -/
def dUnpack (b bits : Nat) (bs : Bytes) : Poly := (bitUnpack bits bs).map (fun v => modSub b v dq)

/-- RejNTTPoly's three-byte candidates. -/
def dReject : Bytes → List Nat
  | a :: b :: c :: r =>
    let z := a.toNat + 256 * b.toNat + 65536 * (c.toNat % 128)
    if z < dq then z :: dReject r else dReject r
  | _ => []

/-- RejNTTPoly (FIPS 204, Algorithm 30), with the 298-iteration bound of Appendix C. -/
def dRejNtt (seed : Bytes) : Poly := (dReject (shake128 seed 894)).take 256

/-- The matrix A (FIPS 204, Algorithm 32). -/
def dExpandA (p : DsaSet) (rho : Bytes) : List (List Poly) :=
  (List.range p.k).map (fun r => (List.range p.l).map (fun s => dRejNtt (rho ++ [byteOf s, byteOf r])))

/-- CoeffFromHalfByte. -/
def dHalf (eta b : Nat) : List Nat :=
  if eta == 2 then (if b < 15 then [modSub 2 (b % 5) dq] else []) else (if b < 9 then [modSub 4 b dq] else [])

/-- RejBoundedPoly (FIPS 204, Algorithm 31), with the 481-iteration bound of Appendix C. -/
def dRejBounded (eta : Nat) (seed : Bytes) : Poly :=
  ((shake256 seed 481).flatMap (fun b => dHalf eta (b.toNat % 16) ++ dHalf eta (b.toNat / 16))).take 256

/-- ExpandMask (FIPS 204, Algorithm 34). -/
def dExpandMask (p : DsaSet) (rho : Bytes) (kappa : Nat) : List Poly :=
  let c := 1 + bitLen (p.gamma1 - 1)
  (List.range p.l).map (fun r => dUnpack p.gamma1 c (shake256 (rho ++ leBytes 2 (kappa + r)) (32 * c)))

/-- Positions drawn for SampleInBall: for each `i`, the first byte at most `i`. -/
def dBallLoop (signs : Nat) (tau : Nat) : Nat → Nat → Bytes → Poly → Poly
  | 0, _, _, c => c
  | _ + 1, _, [], c => c
  | f + 1, i, j :: r, c =>
    if i ≥ 256 then c
    else if j.toNat > i then dBallLoop signs tau f i r c
    else
      let s := if bitOf signs (i + tau - 256) then dq - 1 else 1
      dBallLoop signs tau f (i + 1) r ((c.set i (c.getD j.toNat 0)).set j.toNat s)

/-- SampleInBall (FIPS 204, Algorithm 29), with the 121-byte bound of Appendix C. -/
def dBall (p : DsaSet) (seed : Bytes) : Poly :=
  let b := shake256 seed 264
  dBallLoop (leNat (b.take 8)) p.tau 256 (256 - p.tau) (b.drop 8) polyZero

/-- Decompose (FIPS 204, Algorithm 36): high and low part, the low part as a residue. -/
def dDecompose (g2 r : Nat) : Nat × Nat :=
  let a := 2 * g2
  let r0 := r % a
  let lo := if r0 > g2 then modSub r0 a dq else r0
  let hi := modSub r lo dq
  if hi == dq - 1 then (0, modSub lo 1 dq) else (hi / a, lo)

/-- HighBits of a vector. -/
def dHigh (p : DsaSet) (v : List Poly) : List Poly := v.map (fun f => f.map (fun x => (dDecompose p.gamma2 x).1))

/-- LowBits of a vector. -/
def dLow (p : DsaSet) (v : List Poly) : List Poly := v.map (fun f => f.map (fun x => (dDecompose p.gamma2 x).2))

/-- UseHint (FIPS 204, Algorithm 40). -/
def dUseHint (p : DsaSet) (h : Bool) (r : Nat) : Nat :=
  let m := (dq - 1) / (2 * p.gamma2)
  let (r1, r0) := dDecompose p.gamma2 r
  if !h then r1 else if r0 > 0 && r0 ≤ dq / 2 then (r1 + 1) % m else (r1 + m - 1) % m

/-- w1Encode. -/
def dW1Encode (p : DsaSet) (w : List Poly) : Bytes := w.flatMap (bitPack (if p.gamma2 == (dq - 1) / 88 then 6 else 4))

/-- The bits of a secret coefficient in sk. -/
def dEtaBits (p : DsaSet) : Nat := if p.eta == 2 then 3 else 4

/-- ML-DSA.KeyGen_internal: public key and private key. -/
def mlDsaKeyGen (set : Nat) (xi : Bytes) : Bytes × Bytes :=
  let p := dsaSet set
  let g := shake256 (xi ++ [byteOf p.k, byteOf p.l]) 128
  let rho := g.take 32
  let rhop := sliceOf g 32 64
  let kk := g.drop 96
  let a := dExpandA p rho
  let s1 := (List.range p.l).map (fun r => dRejBounded p.eta (rhop ++ leBytes 2 r))
  let s2 := (List.range p.k).map (fun r => dRejBounded p.eta (rhop ++ leBytes 2 (p.l + r)))
  let s1h := s1.map dNtt
  let t := List.zipWith (fun row s => polyAdd dq (dIntt (dDot row s1h)) s) a s2
  let low := fun (x : Nat) => let r := x % 8192; if r > 4096 then modSub r 8192 dq else r
  let t1 := t.map (fun f => f.map (fun x => modSub x (low x) dq / 8192))
  let t0 := t.map (fun f => f.map low)
  let pk := rho ++ t1.flatMap (bitPack 10)
  let tr := shake256 pk 64
  let e := dPack p.eta (dEtaBits p)
  (pk, rho ++ kk ++ tr ++ s1.flatMap e ++ s2.flatMap e ++ t0.flatMap (dPack 4096 13))

/-- A private key, decoded: rho, K, tr, s1, s2, t0. -/
structure DsaSk where
  rho : Bytes
  kk : Bytes
  tr : Bytes
  s1 : List Poly
  s2 : List Poly
  t0 : List Poly

/-- skDecode (FIPS 204, Algorithm 25). -/
def dSkDecode (p : DsaSet) (sk : Bytes) : DsaSk :=
  let eb := dEtaBits p
  let n := 32 * eb
  let base := 128
  let poly := fun off i => dUnpack p.eta eb (sliceOf sk (off + n * i) n)
  { rho := sk.take 32, kk := sliceOf sk 32 32, tr := sliceOf sk 64 64
    s1 := (List.range p.l).map (poly base)
    s2 := (List.range p.k).map (poly (base + n * p.l))
    t0 := (List.range p.k).map (fun i => dUnpack 4096 13 (sliceOf sk (base + n * (p.l + p.k) + 416 * i) 416)) }

/-- HintBitPack (FIPS 204, Algorithm 20). -/
def dHintPack (p : DsaSet) (h : List (List Bool)) : Bytes :=
  let idx := h.map (fun f => (f.zipIdx.filter (·.1)).map (fun x => byteOf x.2))
  let flat := idx.flatten
  let ends := (List.range p.k).map (fun i => byteOf (((idx.take (i + 1)).map List.length).sum))
  flat ++ zeros (p.omega - flat.length) ++ ends

/-- Is a list of positions strictly rising? -/
def rising : List Nat → Bool
  | a :: b :: r => a < b && rising (b :: r)
  | _ => true

/-- HintBitUnpack (FIPS 204, Algorithm 21); `none` for a malformed hint. -/
def dHintUnpack (p : DsaSet) (y : Bytes) : Option (List (List Bool)) :=
  let ends := (List.range p.k).map (fun i => byteAt y (p.omega + i))
  let starts := 0 :: ends
  let last := ends.getLastD 0
  let seg := fun i => ((sliceOf y (starts.getD i 0) (ends.getD i 0 - starts.getD i 0)).map BitVec.toNat)
  let ok := (List.range p.k).all (fun i => starts.getD i 0 ≤ ends.getD i 0 && ends.getD i 0 ≤ p.omega && rising (seg i)) &&
    allZero (sliceOf y last (p.omega - last))
  if ok then some ((List.range p.k).map (fun i => (List.range 256).map (fun j => (seg i).contains j))) else none

/-- Candidate `kappa` of the rejection loop of Sign_internal: the signature, where every check passes (R275). -/
def mlDsaCandidate (set : Nat) (k : DsaSk) (mu rhopp : Bytes) (kappa : Nat) : Option Bytes :=
  let p := dsaSet set
  let a := dExpandA p k.rho
  let y := dExpandMask p rhopp kappa
  let yh := y.map dNtt
  let w := a.map (fun row => dIntt (dDot row yh))
  let w1 := dHigh p w
  let ct := shake256 (mu ++ dW1Encode p w1) (p.lam / 4)
  let ch := dNtt (dBall p ct)
  let times := fun (v : List Poly) => v.map (fun f => dIntt (dMul ch (dNtt f)))
  let z := List.zipWith (polyAdd dq) y (times k.s1)
  let r := List.zipWith (polySub dq) w (times k.s2)
  let r0 := dLow p r
  let ct0 := times k.t0
  if dNorm z ≥ p.gamma1 - p.beta || dNorm r0 ≥ p.gamma2 - p.beta then none
  else
    let r' := List.zipWith (polyAdd dq) r ct0
    let h := List.zipWith (fun f g => List.zipWith (fun x y => (dDecompose p.gamma2 x).1 != (dDecompose p.gamma2 y).1) f g) r r'
    let ones := (h.map (fun f => (f.filter id).length)).sum
    if dNorm ct0 ≥ p.gamma2 || ones > p.omega then none
    else some (ct ++ z.flatMap (dPack p.gamma1 (1 + bitLen (p.gamma1 - 1))) ++ dHintPack p h)

/-- The first passing candidate among `n`, from number `i` on, with its number (R275). -/
def mlDsaSearch (set : Nat) (k : DsaSk) (mu rhopp : Bytes) : Nat → Nat → Option (Nat × Bytes)
  | 0, _ => none
  | n + 1, i =>
    match mlDsaCandidate set k mu rhopp (i * (dsaSet set).l) with
    | some s => some (i, s)
    | none => mlDsaSearch set k mu rhopp n (i + 1)

/-- The message representative mu = H(tr | M', 64) (R272). -/
def mlDsaMu (tr m' : Bytes) : Bytes := shake256 (tr ++ m') 64

/-- `n` candidates of Sign_internal from candidate `i` on, on mu and rnd (R272, R276). -/
def mlDsaSignMu (set : Nat) (sk mu rnd : Bytes) (n i : Nat) : Option (Nat × Bytes) :=
  let k := dSkDecode (dsaSet set) sk
  mlDsaSearch set k mu (shake256 (k.kk ++ rnd ++ mu) 64) n i

/-- ML-DSA.Verify_internal on mu (R273). -/
def mlDsaVerifyMu (set : Nat) (pk sig mu : Bytes) : Bool :=
  let p := dsaSet set
  let rho := pk.take 32
  let t1 := (List.range p.k).map (fun i => bitUnpack 10 (sliceOf pk (32 + 320 * i) 320))
  let cl := p.lam / 4
  let zb := 1 + bitLen (p.gamma1 - 1)
  let ct := sig.take cl
  let z := (List.range p.l).map (fun i => dUnpack p.gamma1 zb (sliceOf sig (cl + 32 * zb * i) (32 * zb)))
  match dHintUnpack p (sig.drop (cl + 32 * zb * p.l)) with
  | none => false
  | some h =>
    let a := dExpandA p rho
    let ch := dNtt (dBall p ct)
    let zh := z.map dNtt
    let w := List.zipWith (fun row t => dIntt (polySub dq (dDot row zh) (dMul ch (dNtt (t.map (fun x => x * 8192 % dq)))))) a t1
    let w1 := List.zipWith (fun hf wf => List.zipWith (dUseHint p) hf wf) h w
    dNorm z < p.gamma1 - p.beta && shake256 (mu ++ dW1Encode p w1) cl == ct

/-- Verification on M' (R272). -/
def mlDsaVerify (set : Nat) (pk sig m' : Bytes) : Bool := mlDsaVerifyMu set pk sig (mlDsaMu (shake256 pk 64) m')

/-- The public key that a private key determines (R277). -/
def mlDsaPkOf (set : Nat) (sk : Bytes) : Bytes :=
  let p := dsaSet set
  let k := dSkDecode p sk
  let s1h := k.s1.map dNtt
  let t := List.zipWith (fun row s => polyAdd dq (dIntt (dDot row s1h)) s) (dExpandA p k.rho) k.s2
  let low := fun (x : Nat) => let r := x % 8192; if r > 4096 then modSub r 8192 dq else r
  k.rho ++ (t.map (fun f => f.map (fun x => modSub x (low x) dq / 8192))).flatMap (bitPack 10)

/-- M' of the pure form: 0x00 | CTX_LEN | CTX | M (R272). -/
def pureMsg (ctx m : Bytes) : Bytes := [0, byteOf ctx.length] ++ ctx ++ m

/-- M' of the pre-hash form: 0x01 | CTX_LEN | CTX | OID | PH(M) (R272). -/
def hashMsg (ctx : Bytes) (ph : Nat) (digest : Bytes) : Bytes := [1, byteOf ctx.length] ++ ctx ++ preHashOid ph ++ digest

end Sys2Proof.Machine
end

