-- ==== Sys2Proof/Machine/Descriptor.lean ====
section
/-!
DEFINITION. The job descriptor (R181), key handles (R214), the operations of every family, and checks 1, 3, 5 and 6 of R189
as each service chapter states them for its opcodes.
-/
namespace Sys2Proof.Machine

/-! ### Fields of a descriptor (R181) -/

def dOp (d : Bytes) : Nat := fieldLE d 0 2
def dFamily (d : Bytes) : Nat := byteAt d 1
def dFlags (d : Bytes) : Nat := fieldLE d 2 2
def dClass (d : Bytes) : Nat := byteAt d 4
def dParam (d : Bytes) : Nat := fieldLE d 5 3
def dKey (d : Bytes) : Nat := fieldLE d 8 8
def dInRef (d : Bytes) : Nat := fieldLE d 16 8
def dInLen (d : Bytes) : Nat := fieldLE d 24 4
def dOutRef (d : Bytes) : Nat := fieldLE d 28 8
def dOutCap (d : Bytes) : Nat := fieldLE d 36 4
def dAux (d : Bytes) : Nat := fieldLE d 40 8
def dTag (d : Bytes) : Nat := fieldLE d 48 4
/-- OPSPEC byte `i`, numbered as in the descriptor (52 to 63). -/
def dSpec (d : Bytes) (i : Nat) : Nat := byteAt d i
/-- OPSPEC bytes `[lo + n - 1 : lo]`. -/
def dSpecLE (d : Bytes) (lo n : Nat) : Nat := fieldLE d lo n
/-- Are OPSPEC bytes `[hi : lo]` all zero? -/
def specZero (d : Bytes) (lo hi : Nat) : Bool := allZero (sliceOf d lo (hi + 1 - lo))
def dInList (d : Bytes) : Bool := bitOf (dFlags d) 0
def dOutList (d : Bytes) : Bool := bitOf (dFlags d) 1
def dSignal (d : Bytes) : Bool := bitOf (dFlags d) 2

/-! ### Key handles (R214) -/

def hDomain (h : Nat) : Nat := h / 2 ^ 48 % 2 ^ 16
def hType (h : Nat) : Nat := h / 2 ^ 40 % 2 ^ 8
def hGen (h : Nat) : Nat := h / 2 ^ 24 % 2 ^ 16
def hSlot (h : Nat) : Nat := h % 2 ^ 24
/-- The handle of a key (R214). -/
def mkHandle (domain typ gen slot : Nat) : Nat := domain * 2 ^ 48 + typ * 2 ^ 40 + gen * 2 ^ 24 + slot

/-! ### Families and operations -/

/-- The job families (R182). -/
def knownFamily (f : Nat) : Bool :=
  (0x10 ≤ f && f ≤ 0x15) || (0x20 ≤ f && f ≤ 0x23) || (0x30 ≤ f && f ≤ 0x32) || f == 0x38 || (0x40 ≤ f && f ≤ 0x42)

/-- The opcodes the service chapters define. -/
def knownOp (op : Nat) : Bool :=
  op == 0x1001 || op == 0x1002 || (0x1101 ≤ op && op ≤ 0x1104) || (0x1201 ≤ op && op ≤ 0x1204) ||
  (0x1301 ≤ op && op ≤ 0x1304) || (0x1401 ≤ op && op ≤ 0x1403) || (0x1501 ≤ op && op ≤ 0x1503) ||
  (0x2001 ≤ op && op ≤ 0x2004) || (0x2101 ≤ op && op ≤ 0x2103) || (0x2201 ≤ op && op ≤ 0x2203) ||
  (0x2301 ≤ op && op ≤ 0x2306) || op == 0x2310 || (0x3001 ≤ op && op ≤ 0x3013) || op == 0x3020 || op == 0x3021 ||
  (0x3101 ≤ op && op ≤ 0x3106) || (0x3120 ≤ op && op ≤ 0x3123) || (0x3201 ≤ op && op ≤ 0x3204) || op == 0x3801 ||
  (0x4001 ≤ op && op ≤ 0x4005) || op == 0x4101 || (0x4201 ≤ op && op ≤ 0x4203)

/-- The FAMILY flag bits (of bits 15..8) that an opcode allows (R183, R223, R264, R286, R338, R342). -/
def familyFlags (op : Nat) : Nat :=
  if op == 0x1101 || op == 0x1102 then 0x100
  else if op == 0x1103 || op == 0x1104 || op == 0x1203 || op == 0x1204 then 0x200
  else if op == 0x2103 || op == 0x2201 then 0x100
  else if op == 0x4001 then 0x300
  else if op == 0x4002 || op == 0x4003 then 0x100
  else if op == 0x4005 then 0x400
  else 0

/-- Every flag bit that is 1 is defined for the opcode (R183). -/
def flagsOk (d : Bytes) : Bool := (dFlags d).land (0xFFFF - (7 + familyFlags (dOp d))) == 0

/-- MU_INPUT, TO_SLOT, REPLACE share bit 8; DIGEST_INPUT and BLOB bit 9; FORCE is bit 10. -/
def flag8 (d : Bytes) : Bool := bitOf (dFlags d) 8
def flag9 (d : Bytes) : Bool := bitOf (dFlags d) 9
def flag10 (d : Bytes) : Bool := bitOf (dFlags d) 10

/-- The modes of family 0x30 by opcode. -/
def isCbc (op : Nat) : Bool := op == 0x3001 || op == 0x3002
def isXts (op : Nat) : Bool := op == 0x3004 || op == 0x3005
def isGcm (op : Nat) : Bool := op == 0x3006 || op == 0x3007
def isGmac (op : Nat) : Bool := op == 0x3008 || op == 0x3009
def isSiv (op : Nat) : Bool := op == 0x300A || op == 0x300B
def isCcm (op : Nat) : Bool := op == 0x300C || op == 0x300D
def isKw (op : Nat) : Bool := 0x300E ≤ op && op ≤ 0x3011
def isChaPoly (op : Nat) : Bool := op == 0x3012 || op == 0x3013
/-- The AEAD encrypt and decrypt jobs of GCM, GCM-SIV, CCM and ChaCha20-Poly1305. -/
def isAead (op : Nat) : Bool := isGcm op || isSiv op || isCcm op || isChaPoly op
/-- The AEAD-decrypt jobs of R361. -/
def isAeadDec (op : Nat) : Bool := op == 0x3007 || op == 0x300B || op == 0x300D || op == 0x3013 || op == 0x300F || op == 0x3011
/-- The AEAD decrypts that carry a tag. -/
def isTagDec (op : Nat) : Bool := op == 0x3007 || op == 0x300B || op == 0x300D || op == 0x3013
/-- Functions marked S in R354. -/
def ctxS (op : Nat) : Bool :=
  isCbc op || op == 0x3003 || isXts op || op == 0x3006 || isGmac op || op == 0x3012
/-- Functions marked T in R354. -/
def ctxT (op : Nat) : Bool := isAead op

/-- PARAM_SET bytes of family 0x30 (R356). -/
def psTag (ps : Nat) : Nat := ps % 256
def psAux (ps : Nat) : Nat := ps / 256 % 256
def psStream (ps : Nat) : Bool := ps / 65536 % 2 == 1

/-- PARAM_SET of a symmetric function is in the table of R356. -/
def symParamOk (op ps : Nat) : Bool :=
  let t := psTag ps
  let a := psAux ps
  let m := ps / 65536
  let tagOk :=
    if isGcm op || isGmac op then 12 ≤ t && t ≤ 16
    else if isCcm op then 4 ≤ t && t ≤ 16 && t % 2 == 0
    else if isSiv op || isChaPoly op then t == 16 else t == 0
  let auxOk :=
    if isCcm op then 7 ≤ a && a ≤ 13 && (m == 0 || a == 12)
    else if op == 0x3003 then a == 4 || a == 8 || a == 16 else a == 0
  tagOk && auxOk && (m == 0 || (m == 1 && isAead op))

/-- The segment kind of a symmetric or digest job: OPSPEC byte 60 (R369). -/
def dSeg (d : Bytes) : Nat := dSpec d 60
/-- The context handle of a segment job, CTX_CLOSE or STATE_EXPORT (R369, R372, R383). -/
def dCtx (d : Bytes) : Nat := dSpecLE d 52 8

/-- The operation a descriptor's PARAM_SET and block speak of: the function opened, for CTX_OPEN (R356, R367, R382). -/
def dFunc (d : Bytes) : Nat := if dOp d == 0x3020 || dOp d == 0x3120 then dSpecLE d 52 2 else dOp d

/-- KEYGEN fields (R223). -/
def dNewType (d : Bytes) : Nat := dSpec d 52
def dAlgFam (d : Bytes) : Nat := dSpec d 53
def dNewPolicy (d : Bytes) : Nat := dSpecLE d 56 4

/-- W of an RSA PARAM_SET lies in R330's range for the operation. -/
def rsaParamOk (priv : Bool) (ps : Nat) : Bool := if priv then ps == 32 || ps == 48 || ps == 64 else 0x10 ≤ ps && ps ≤ 0x100

/-- A stateful PARAM_SET is in the table of R295, for signing or for verification. -/
def hbsParamOk (sign : Bool) (ps : Nat) : Bool :=
  let b2 := ps / 65536
  let h := ps / 256 % 256
  let b0 := ps % 256
  if b2 ≤ 8 then
    (otsType b0).isSome && (if sign then 1 ≤ b2 && b2 ≤ 4 && (h == 5 || h == 10 || h == 15) else 5 ≤ h && h ≤ 25 && h % 5 == 0)
  else if b2 == 0x80 then !sign && h == 0 && (xmssSet b0).isSome
  else if b2 == 0x81 then !sign && h == 0 && (xmssMtSet b0).isSome
  else false

/-- A code-based PARAM_SET of R310. -/
def codeParamOk (ps : Nat) : Bool := (1 ≤ ps && ps ≤ 0x0A) || (0x11 ≤ ps && ps ≤ 0x13)

/-- Sizes of the code-based sets: pk, sk, ct, K (R310). -/
def codeSizes : Nat → Option (Nat × Nat × Nat × Nat)
  | 1 | 2 => some (261120, 6492, 96, 32)
  | 3 | 4 => some (524160, 13608, 156, 32)
  | 5 | 6 => some (1044992, 13932, 208, 32)
  | 7 | 8 => some (1047319, 13948, 194, 32)
  | 9 | 10 => some (1357824, 14120, 208, 32)
  | 0x11 => some (2249, 2305, 4433, 64)
  | 0x12 => some (4522, 4586, 8978, 64)
  | 0x13 => some (7245, 7317, 14421, 64)
  | _ => none

/-- The capsule PARAM_SET fields (R322). -/
def capMode (ps : Nat) : Nat := ps / 65536
def capCm (ps : Nat) : Nat := ps / 256 % 256
def capMl (ps : Nat) : Nat := ps % 256
def capParamOk (ps : Nat) : Bool :=
  let cm := 1 ≤ capCm ps && capCm ps ≤ 0x0A
  let ml := 1 ≤ capMl ps && capMl ps ≤ 3
  match capMode ps with
  | 1 => cm && capMl ps == 0
  | 2 => ml && capCm ps == 0
  | 3 => cm && ml
  | _ => false

/-- The key length of an object-key type (R324). -/
def objKeyLen : Nat → Nat
  | 0x10 => 16
  | 0x12 => 32
  | 0x13 => 64
  | 0x14 => 32
  | _ => 0

/-- The ciphertext lengths of a capsule: Classic McEliece and ML-KEM parts (R325). -/
def capCtLens (ps : Nat) : Nat × Nat :=
  let cm := if capMode ps == 2 then 0 else match codeSizes (capCm ps) with | some (_, _, c, _) => c | none => 0
  let ml := if capMode ps == 1 then 0 else match mlKemSizes (capMl ps) with | some (_, _, c) => c | none => 0
  (cm, ml)

/-- The capsule length (R325). -/
def capLen (ps objType : Nat) : Nat := (capCtLens ps).1 + (capCtLens ps).2 + objKeyLen objType + 8

/-- The digest parameters block (R376). -/
def bOutLen (b : Bytes) : Nat := fieldLE b 0 4
def bNLen (b : Bytes) : Nat := byteAt b 4
def bSLen (b : Bytes) : Nat := byteAt b 5
def bStrRef (b : Bytes) : Nat := fieldLE b 8 8

/-- The function id suits the digest operation (R374). -/
def digestFnOk (op id : Nat) : Bool :=
  match hashFn id with
  | none => false
  | some f =>
    if op == 0x3101 || op == 0x3106 then f.hash
    else if op == 0x3102 || op == 0x3103 then f.hmac
    else if op == 0x3104 || op == 0x3105 then f.kmac
    else false

/-- The digest block is in range for the function (R376). -/
def digestBlockOk (op id : Nat) (b : Bytes) : Bool :=
  match hashFn id with
  | none => false
  | some f =>
    let o := bOutLen b
    let lenOk :=
      if op == 0x3102 || op == 0x3103 then o == 0 || (4 ≤ o && o ≤ f.out)
      else if f.xof then 1 ≤ o && o ≤ 65536
      else if f.kmac then 4 ≤ o && o ≤ 64
      else o == 0
    let nOk := if id == 0x0C || id == 0x0D then bNLen b ≤ 64 else bNLen b == 0
    let sOk := if id ≥ 0x0C then true else bSLen b == 0
    lenOk && nOk && sOk && allZero (sliceOf b 6 2) && allZero (sliceOf b 16 8) && (bNLen b + bSLen b > 0 || bStrRef b == 0)

/-- The tag length T of a digest job (R375). -/
def digestT (id : Nat) (b : Bytes) : Nat :=
  if bOutLen b != 0 then bOutLen b else match hashFn id with | some f => f.out | none => 0

/-- The symmetric block fields (R357). -/
def sTweak (b : Bytes) : Nat := fieldLE b 0 16
def sDuLen (b : Bytes) : Nat := fieldLE b 16 4
def sAadLen (b : Bytes) : Nat := fieldLE b 13 3
def sAadRef (b : Bytes) : Nat := fieldLE b 16 8

/-- The counter of CTR, which rises by one per block, is back at its start after `n` bytes (R360). -/
def ctrWraps (w n : Nat) : Bool := ceilDiv n 16 ≥ 2 ^ (8 * w)

/-- The symmetric block obeys R357 for the function and PARAM_SET. -/
def symBlockOk (op ps : Nat) (b : Bytes) : Bool :=
  if isCbc op then allZero (sliceOf b 16 8)
  else if op == 0x3003 then allZero (sliceOf b 16 8)
  else if isXts op then allZero (sliceOf b 20 4) && 16 ≤ sDuLen b && sDuLen b ≤ 16777216
  else
    let nlen := if psStream ps then 7 else if isCcm op then psAux ps else 12
    allZero (sliceOf b nlen (13 - nlen)) && sAadLen b ≤ 65536 && (!(isGmac op) || sAadLen b == 0)

/-- The lattice and SLH-DSA parameters block (R270). -/
def mCtxLen (b : Bytes) : Nat := byteAt b 0
def mCtx (b : Bytes) : Bytes := sliceOf b 8 (mCtxLen b)
def mDet (b : Bytes) : Bool := byteAt b 1 % 2 == 1
def mPh (b : Bytes) : Nat := byteAt b 2

/-- The block obeys R270 for a job that signs or verifies, pre-hashed or not. -/
def dsaBlockOk (sign hashed mu : Bool) (b : Bytes) : Bool :=
  byteAt b 1 ≤ 1 && (sign || byteAt b 1 == 0) && allZero (sliceOf b 3 5) && byteAt b 263 == 0 &&
  allZero (sliceOf b (8 + mCtxLen b) (255 - mCtxLen b)) &&
  (if hashed then (preHash (mPh b)).isSome else mPh b == 0) && (!mu || mCtxLen b == 0)

/-- The RSA block (R333). -/
def rPad (b : Bytes) : Nat := byteAt b 0
def rHash (b : Bytes) : Nat := byteAt b 1
def rSalt (b : Bytes) : Nat := byteAt b 2
def rLabel (b : Bytes) : Bytes := sliceOf b 8 (byteAt b 3)
/-- hLen of a HASH_ID. -/
def phLen (ph : Nat) : Nat := match preHash ph with | some (_, n, _) => n | none => 0

/-- The RSA block obeys R333 for the opcode. -/
def rsaBlockOk (op : Nat) (b : Bytes) : Bool :=
  let sig := op == 0x2001 || op == 0x2002
  let p := rPad b
  (p == 2 || (p == 1 && sig)) && 1 ≤ rHash b && rHash b ≤ 5 &&
  (if sig && p == 2 then rSalt b ≤ phLen (rHash b) else rSalt b == 0) &&
  (if sig then byteAt b 3 == 0 else byteAt b 3 ≤ 32) &&
  allZero (sliceOf b 4 4) && allZero (sliceOf b (8 + byteAt b 3) (32 - byteAt b 3)) && allZero (sliceOf b 40 24)

/-- The Merkle block fields and rule (R387). -/
def kChunk (b : Bytes) : Nat := fieldLE b 0 4
def kIndex (b : Bytes) : Nat := fieldLE b 8 8
def kSize (b : Bytes) : Nat := fieldLE b 16 8
def merkleBlockOk (op : Nat) (b : Bytes) : Bool :=
  let c := kChunk b
  allZero (sliceOf b 4 4) &&
  (if op == 0x3203 then 64 ≤ c && c ≤ 16777216 && c % 64 == 0 else c == 0) &&
  (if op == 0x3204 then 1 ≤ kSize b && kSize b ≤ 2 ^ 63 && kIndex b < kSize b else kIndex b == 0 && kSize b == 0)

/-- The capsule block (R324). -/
def cSecond (b : Bytes) : Nat := fieldLE b 0 8
def cObjKey (b : Bytes) : Nat := fieldLE b 8 8
def cObjType (b : Bytes) : Nat := byteAt b 16
def cLabelLen (b : Bytes) : Nat := byteAt b 17
def cLabel (b : Bytes) : Bytes := sliceOf b 32 (cLabelLen b)
def cPolicy (b : Bytes) : Nat := fieldLE b 20 4
def capBlockOk (op ps : Nat) (b : Bytes) : Bool :=
  objKeyLen (cObjType b) != 0 && cLabelLen b ≤ 32 && allZero (sliceOf b 18 2) && allZero (sliceOf b 24 8) &&
  allZero (sliceOf b (32 + cLabelLen b) (32 - cLabelLen b)) &&
  (cPolicy b).land (0xFFFFFFFF - 0x403) == 0 &&
  (if op == 0x1502 then cPolicy b == 0 else cObjKey b == 0) && (if op == 0x1503 && capMode ps == 3 then true else cSecond b == 0)

/-- The key-management block (R224). -/
def gTarget (b : Bytes) : Nat := fieldLE b 0 8
def gWrap (b : Bytes) : Nat := fieldLE b 8 8
def gLength (b : Bytes) : Nat := fieldLE b 16 4
def gLabel (b : Bytes) : Bytes := sliceOf b 26 (byteAt b 24)
def gContext (b : Bytes) : Bytes := sliceOf b 42 (byteAt b 25)

/-- The fixed or chosen length of a raw key type (R215, R224); `none` for a type that is not raw. -/
def rawKeyLen (typ len : Nat) : Option Nat :=
  match typ with
  | 0x02 => if len == 0 then some 32 else none
  | 0x03 => if 16 ≤ len && len ≤ 64 then some len else none
  | 0x10 => if len == 0 then some 16 else none
  | 0x11 => if len == 0 then some 24 else none
  | 0x12 => if len == 0 then some 32 else none
  | 0x13 => if len == 0 then some 64 else none
  | 0x14 => if len == 0 then some 32 else none
  | 0x18 => if 16 ≤ len && len ≤ 128 then some len else none
  | 0x19 => if 16 ≤ len && len ≤ 64 then some len else none
  | _ => none

/-- The key-management block obeys R224 for KEYGEN, DERIVE or UNWRAP. -/
def keyBlockOk (d : Bytes) (b : Bytes) : Bool :=
  let op := dOp d
  allZero (sliceOf b 20 4) && (flag8 d || gTarget b == 0) && ((op == 0x4001 && flag9 d) || gWrap b == 0) &&
  (if op == 0x4002 then byteAt b 24 ≤ 16 && byteAt b 25 ≤ 22 else byteAt b 24 == 0 && byteAt b 25 == 0) &&
  allZero (sliceOf b (26 + byteAt b 24) (16 - byteAt b 24)) && allZero (sliceOf b (42 + byteAt b 25) (22 - byteAt b 25)) &&
  (if op == 0x4003 then gLength b == 0
   else if op == 0x4001 && dAlgFam d != 0 then gLength b == 0
   else (rawKeyLen (dNewType d) (gLength b)).isSome)

/-- The policy bits a KEYGEN of a public-key type may carry (R279, R289, R320, R336, R340, R342); code-based HQC as McEliece. -/
def keygenPolicyMask : Nat → Nat
  | 0x20 => 0x430
  | 0x21 => 0x404
  | 0x22 => 0x404
  | 0x24 => 0x420
  | 0x25 => 0x420
  | 0x30 => 0x406
  | 0x31 => 0xC04
  | 0x32 => 0xC00
  | 0x33 => 0x404
  | _ => 0x1FFF

/-- ALG_FAMILY, PARAM_SET and NEW_TYPE of a KEYGEN match (R223, R279, R289, R296, R320, R330, R336, R340, R342). -/
def keygenPairOk (fam ps typ : Nat) : Bool :=
  match fam with
  | 0 => ps == 0 && (rawKeyLen typ 0).isSome || ps == 0 && (typ == 0x03 || typ == 0x18 || typ == 0x19)
  | 0x10 => 1 ≤ ps && ps ≤ 3 && typ == 0x20
  | 0x11 => 1 ≤ ps && ps ≤ 3 && typ == 0x21
  | 0x12 => 1 ≤ ps && ps ≤ 0x0C && typ == 0x22
  | 0x14 => (1 ≤ ps && ps ≤ 0x0A && typ == 0x24) || (0x11 ≤ ps && ps ≤ 0x13 && typ == 0x25)
  | 0x20 => rsaParamOk true ps && typ == 0x30
  | 0x21 => 1 ≤ ps && ps ≤ 3 && typ == 0x31
  | 0x22 => ((ps == 1 || ps == 2) && typ == 0x32) || ((ps == 3 || ps == 4) && typ == 0x33)
  | _ => false

/-! ### The parameters block (R184) -/

/-- How many bytes the block of AUX has for the opcode, and whether AUX = 0 stands for zeros (`none`: AUX is no block). -/
def blockLen (d : Bytes) : Option Nat :=
  let op := dOp d
  if (0x1101 ≤ op && op ≤ 0x1104) || (0x1201 ≤ op && op ≤ 0x1204) || op == 0x2202 || op == 0x2203 then some 264
  else if 0x1501 ≤ op && op ≤ 0x1503 then some 64
  else if 0x2001 ≤ op && op ≤ 0x2004 then some 64
  else if isKw op || op == 0x3021 then none
  else if (0x3001 ≤ op && op ≤ 0x3020) then some 24
  else if (0x3101 ≤ op && op ≤ 0x3106) || op == 0x3120 then some 24
  else if 0x3201 ≤ op && op ≤ 0x3204 then some 24
  else if op == 0x3801 then some (64 * dSpec d 52)
  else if 0x4001 ≤ op && op ≤ 0x4003 then some 64
  else none

/-- AUX names a block that the fetch reads. -/
def readsBlock (d : Bytes) : Bool := dAux d != 0 && (match blockLen d with | some n => n != 0 | none => false)

/-- The alignment of the block (R184, R203). -/
def blockAlign (d : Bytes) : Nat := if dOp d == 0x3801 then 64 else 8

/-- The block's bytes for the checks: zeros where AUX = 0 stands for them; `none` for a failed read. -/
def blockBytes (d : Bytes) : BlockIn → Option Bytes
  | .zero => some (zeros ((blockLen d).getD 0))
  | .bytes b => some (sliceZ b 0 ((blockLen d).getD 0))
  | .failed => none

/-- A test of the block's content, passed while its read failed (check 1 then leaves the content unexamined, R189). -/
def onBlock (d : Bytes) (b : BlockIn) (f : Bytes → Bool) : Bool :=
  match blockBytes d b with
  | some x => f x
  | none => true

/-! ### Check 1 of R189 -/

/-- Check 1 for a symmetric job other than a context command (R356, R357, R360, R369). -/
def symCheck1 (d : Bytes) (b : BlockIn) : Bool :=
  let op := dOp d
  let ps := dParam d
  let seg := dSeg d
  let stream := psStream ps
  symParamOk op ps && specZero d 61 63 && seg ≤ 2 &&
  (if seg == 0 then
     dCtx d == 0 && !stream && (if isKw op then dAux d == 0 else dAux d != 0 && onBlock d b (fun x => symBlockOk op ps x)) &&
     (op != 0x3003 || !(ctrWraps (psAux ps) (dInLen d)))
   else
     !(isKw op) && (if stream then ctxT op else ctxS op) &&
     (dAux d == 0 || (stream && onBlock d b (fun x => allZero (x.take 13) && sAadLen x ≤ 65536))))

/-- Check 1 for CTX_OPEN of the BCE (R356, R357, R367). -/
def ctxOpenCheck1 (d : Bytes) (b : BlockIn) : Bool :=
  let f := dFunc d
  let ps := dParam d
  specZero d 54 63 && (ctxS f || ctxT f) && symParamOk f ps && (if psStream ps then ctxT f else ctxS f) &&
  dAux d != 0 && onBlock d b (fun x => symBlockOk f ps x)

/-- Check 1 for a digest job; a segment may carry its context's block (R374, R376, R382; DEDUCED, log 39). -/
def digestCheck1 (d : Bytes) (b : BlockIn) : Bool :=
  let op := dOp d
  let ps := dParam d
  ps < 256 && digestFnOk op ps && specZero d 61 63 && dSeg d ≤ 2 &&
  (dSeg d != 0 || dCtx d == 0) && ((dSeg d != 0 && dAux d == 0) || onBlock d b (digestBlockOk op ps))

/-- Check 1 for an ML-DSA or SLH-DSA job (R261, R270, R285, R286). -/
def dsaCheck1 (d : Bytes) (b : BlockIn) : Bool :=
  let lo := dOp d % 256
  let hashed := lo ≥ 3
  (!hashed || dAux d != 0) && specZero d 52 63 && onBlock d b (dsaBlockOk (lo % 2 == 1) hashed (flag8 d && dFamily d == 0x11))

/-- Check 1 for the key-management jobs (R223 to R226). -/
def keyCheck1 (d : Bytes) (b : BlockIn) : Bool :=
  let op := dOp d
  let typ := dNewType d
  if op == 0x4001 then
    keygenPairOk (dAlgFam d) (dParam d) typ && specZero d 54 55 && specZero d 60 63 && dNewPolicy d < 0x2000 &&
      onBlock d b (keyBlockOk d)
  else if op == 0x4002 then
    dParam d == 0 && dAlgFam d == 0 && 0x02 ≤ typ && typ ≤ 0x19 && specZero d 54 55 && specZero d 60 63 &&
      dNewPolicy d < 0x2000 && onBlock d b (keyBlockOk d)
  else if op == 0x4003 then dParam d == 0 && specZero d 52 63 && onBlock d b (keyBlockOk d)
  else dParam d == 0 && specZero d 52 63 && (op != 0x4005 || dAux d == 0)

/-- A raw MAE command word is well formed (R346, R347). -/
def maeWordOk (w : Nat) : Bool :=
  let op := bitsOf w 56 8
  op ≤ 6 && bitsOf w 47 1 == 0 && bitsOf w 39 1 == 0 && bitsOf w 31 1 == 0 && bitsOf w 23 1 == 0 && bitsOf w 0 16 == 0

/-- Stage record fields of a Bouquet (R204). -/
def stKind (r : Bytes) : Nat := byteAt r 0
def stSource (r : Bytes) : Nat := byteAt r 1
def stFlags (r : Bytes) : Nat := byteAt r 2
def stFunc (r : Bytes) : Nat := fieldLE r 4 2
def stParam (r : Bytes) : Nat := fieldLE r 8 3
def stKey (r : Bytes) : Nat := fieldLE r 16 8
def stOutRef (r : Bytes) : Nat := fieldLE r 24 8
def stOutCap (r : Bytes) : Nat := fieldLE r 32 4
def stBlock (r : Bytes) : Bytes := sliceOf r 40 24

/-- The pool of a stage. -/
def stagePool (r : Bytes) : Option Pool := if stKind r == 1 then some .bce else if stKind r == 5 then none else some .dge

/-- The stage records of a Bouquet's block. -/
def stages (blk : Bytes) : List Bytes := chunks 64 blk

/-- Does stage `i` read, through taps, the output of an AEAD-decrypt stage (R206)? Evaluated over the stages in order: the
list says for each stage whether its stream output is such plaintext. -/
def aeadTaint : List Bytes → Bool → List Bool
  | [], _ => []
  | r :: rs, prev =>
    let inTaint := if stSource r == 0 then prev else false
    let out := if stKind r == 1 then isTagDec (stFunc r) else inTaint
    out :: aeadTaint rs out

/-- Check 1 for a stage (R204 to R206), `first` for stage 0, whose SOURCE is ignored; `tin` says whether its input is AEAD-decrypt plaintext.
DESIGN CHOICE: cSHAKE is no unkeyed hash or SHAKE of the DIGEST row; R205 names neither it nor its strings (log 37). -/
def stageCheck1 (first : Bool) (r : Bytes) (tin : Bool) : Bool :=
  let k := stKind r
  let f := stFunc r
  let ps := stParam r
  let kt := hType (stKey r)
  (first || stSource r ≤ 1) && stFlags r ≤ 1 && byteAt r 3 == 0 && allZero (sliceOf r 6 2) && allZero (sliceOf r 11 5) && allZero (sliceOf r 36 4) &&
  (match k with
   | 1 => (isCbc f || f == 0x3003 || isXts f || isGcm f || isCcm f || isChaPoly f) && !psStream ps && symParamOk f ps && symBlockOk f ps (stBlock r) &&
          kt != 0 && !tin
   | 2 => f == 0x3101 && ps < 256 && (match hashFn ps with | some h => h.hash && (ps ≤ 0x0B) | none => false) &&
          digestBlockOk f ps (stBlock r) && kt == 0
   | 3 => (f == 0x3102 || f == 0x3104) && ps < 256 && digestFnOk f ps && digestBlockOk f ps (stBlock r) && kt != 0
   | 4 => f == 0x3201 && ps < 256 && (match hashFn ps with | some h => h.merkle | none => false) && allZero (stBlock r) && kt == 0
   | 5 => f == 0 && ps == 0 && allZero (stBlock r) && kt == 0 && !tin
   | _ => false)

/-- Whether each stage's input is AEAD-decrypt plaintext: stage 0 reads the original input. -/
def stageInTaint (rs : List Bytes) : List Bool :=
  let outs := aeadTaint rs false
  (rs.zip (false :: outs)).mapIdx (fun i ro => if i == 0 then false else if stSource ro.1 == 0 then ro.2 else false)

/-- Check 1 of R189 for every family. -/
def check1 (d : Bytes) (b : BlockIn) : Bool :=
  let op := dOp d
  let ps := dParam d
  knownOp op &&
  (if dFamily d == 0x10 then 1 ≤ ps && ps ≤ 3 && dAux d == 0 && specZero d 52 63
   else if dFamily d == 0x11 then 1 ≤ ps && ps ≤ 3 && dsaCheck1 d b
   else if dFamily d == 0x12 then 1 ≤ ps && ps ≤ 0x0C && dsaCheck1 d b
   else if dFamily d == 0x13 then
     hbsParamOk (op != 0x1302) ps && dAux d == 0 && (if op == 0x1302 then specZero d 60 63 else specZero d 52 63)
   else if dFamily d == 0x14 then codeParamOk ps && dAux d == 0 && specZero d 52 63
   else if dFamily d == 0x15 then capParamOk ps && dAux d != 0 && specZero d 52 63 && onBlock d b (capBlockOk op ps)
   else if dFamily d == 0x20 then
     rsaParamOk (op == 0x2001 || op == 0x2003) ps && dAux d != 0 && specZero d 52 63 && onBlock d b (rsaBlockOk op)
   else if dFamily d == 0x21 then
     1 ≤ ps && ps ≤ 3 && dAux d == 0 && (if op == 0x2103 && flag8 d then specZero d 52 55 && specZero d 60 63 && dNewPolicy d < 0x2000 && ps != 3 else specZero d 52 63)
   else if dFamily d == 0x22 then
     (if op == 0x2201 then (ps == 1 || ps == 2) && dAux d == 0 && (if flag8 d then specZero d 52 55 && specZero d 60 63 && dNewPolicy d < 0x2000 else specZero d 52 63)
      else (ps == 3 || ps == 4) && specZero d 52 63 &&
        onBlock d b (fun x => dsaBlockOk false false false x && (ps == 4 || mCtxLen x == 0)))
   else if op == 0x2310 then dAux d == 0 && specZero d 54 63
   else if dFamily d == 0x23 then 1 ≤ ps && ps ≤ 256 && dAux d == 0 && specZero d 52 63
   else if op == 0x3020 then ctxOpenCheck1 d b
   else if op == 0x3021 then ps == 0 && dAux d == 0 && specZero d 60 63
   else if dFamily d == 0x30 then symCheck1 d b
   else if op == 0x3120 then
     specZero d 54 63 && ps < 256 && digestFnOk (dFunc d) ps && onBlock d b (digestBlockOk (dFunc d) ps)
   else if op == 0x3121 || op == 0x3122 then ps == 0 && dAux d == 0 && specZero d 60 63
   else if op == 0x3123 then ps == 0 && dAux d == 0 && specZero d 52 63
   else if dFamily d == 0x31 then digestCheck1 d b
   else if dFamily d == 0x32 then
     ps < 256 && (match hashFn ps with | some f => f.merkle | none => false) && specZero d 52 63 && onBlock d b (merkleBlockOk op)
   else if op == 0x3801 then
     1 ≤ dSpec d 52 && dSpec d 52 ≤ 4 && specZero d 53 63 && ps == 0 && dKey d == 0 && dOutRef d == 0 && dOutCap d == 0 &&
       !(dOutList d) && dAux d != 0
   else if dFamily d == 0x40 then keyCheck1 d b
   else if op == 0x4101 then
     ps == 0 && dAux d == 0 && specZero d 56 63 && 1 ≤ dSpecLE d 52 4 && dSpecLE d 52 4 ≤ 268435456
   else ps == 0 && dAux d == 0 && specZero d 53 63 && dSpec d 52 ≤ 1)

/-! ### Check 3 of R189 -/

/-- The part has the unit and algorithm of the job (R4, R309, R329). -/
def unitPresent (p : Part) (d : Bytes) : Bool :=
  let fam := if dOp d == 0x4001 then dAlgFam d else dFamily d
  if fam == 0x14 then Config.gf2 p
  else if fam == 0x15 then Config.gf2 p || capMode (dParam d) == 2
  else if fam == 0x20 || fam == 0x21 || fam == 0x23 then Config.nMae p > 0
  else true

/-! ### Check 5 of R189 -/

/-- IN_LEN is a length that the operation accepts (R228, R229, R238, R263, R286, R299, R300, R312, R323, R332, R338, R342, R348,
R358, R369, R375, R382, R385, R386). `blk` is the block's bytes, `run` the program of a RUN job. -/
def inLenOk (d : Bytes) (blk : Bytes) (run : Option RunShape) : Bool :=
  let op := dOp d
  let ps := dParam d
  let n := dInLen d
  let hashed := phLen (mPh blk)
  let verLen := fun (pk sig : Nat) (fixed : Option Nat) =>
    n ≥ pk + sig && (match fixed with | some x => n == pk + sig + x | none => n - (pk + sig) ≤ 65536)
  match op with
  | 0x1001 => match mlKemSizes ps with | some (ek, _, _) => n == (if hType (dKey d) == 0 then ek else 0) | none => false
  | 0x1002 => match mlKemSizes ps with | some (_, _, c) => n == c | none => false
  | 0x1101 => if flag8 d then n == 64 else n ≤ 65536
  | 0x1102 => match mlDsaSizes ps with | some (pk, _, s) => verLen pk s (if flag8 d then some 64 else none) | none => false
  | 0x1103 => if flag9 d then n == hashed else n ≤ 65536
  | 0x1104 => match mlDsaSizes ps with | some (pk, _, s) => verLen pk s (if flag9 d then some hashed else none) | none => false
  | 0x1201 => n ≤ 65536
  | 0x1202 => match slhSizes ps with | some (pk, _, s) => verLen pk s none | none => false
  | 0x1203 => if flag9 d then n == hashed else n ≤ 65536
  | 0x1204 => match slhSizes ps with | some (pk, _, s) => verLen pk s (if flag9 d then some hashed else none) | none => false
  | 0x1301 => n ≤ 65536
  | 0x1302 =>
    let pk := dSpecLE d 52 4
    let sg := dSpecLE d 56 4
    let b2 := ps / 65536
    verLen pk sg none &&
      (if b2 == 0x80 then match xmssSet (ps % 256) with | some s => (pk, sg) == xmssSizes s false | none => false
       else if b2 == 0x81 then match xmssMtSet (ps % 256) with | some s => (pk, sg) == xmssSizes s true | none => false
       else true)
  | 0x1303 | 0x1304 => n == 0
  | 0x1401 => match codeSizes ps with | some (pk, _, _, _) => n == (if hType (dKey d) == 0 then pk else 0) | none => false
  | 0x1402 => match codeSizes ps with | some (_, _, c, _) => n == c | none => false
  | 0x1403 => match codeSizes ps with | some (pk, _, _, _) => n == pk | none => false
  | 0x1501 | 0x1502 => match mlKemSizes (capMl ps) with | some (ek, _, _) => n == ek | none => n == 0
  | 0x1503 => n == capLen ps (cObjType blk)
  | 0x2001 => n == phLen (rHash blk)
  | 0x2002 => n == 16 * ps + 4 + phLen (rHash blk)
  | 0x2003 => n == 8 * ps
  | 0x2004 => 8 * ps ≥ 2 * phLen (rHash blk) + 2 && 8 * ps + 4 ≤ n && n + 2 * phLen (rHash blk) + 2 ≤ 16 * ps + 4
  | 0x2101 => 1 ≤ n && n ≤ 64
  | 0x2102 => match pCurve ps with | some c => 4 * c.f + 2 ≤ n && n ≤ 4 * c.f + 65 | none => false
  | 0x2103 => match pCurve ps with | some c => n == 2 * c.f + 1 | none => false
  | 0x2201 => n == (if ps == 1 then 32 else 56)
  | 0x2202 => n ≤ 65536
  | 0x2203 => if ps == 3 then verLen 32 64 none else verLen 57 114 none
  | 0x2301 | 0x2302 | 0x2303 | 0x2306 => n == 24 * ps
  | 0x2304 | 0x2305 => n == 16 * ps
  | 0x2310 => match run with | some r => n == r.inLen | none => true
  | 0x3020 | 0x3120 => n == 0 && dOutCap d == 0
  | 0x3021 | 0x3121 | 0x3122 => n == 0
  | 0x3123 => n == 280
  | 0x3201 => true
  | 0x3202 => match hashFn ps with | some f => n % f.out == 0 && 1 ≤ n / f.out && n / f.out ≤ 2 ^ 24 | none => false
  | 0x3203 => ceilDiv n (max 1 (kChunk blk)) ≤ 2 ^ 24
  | 0x3204 => match hashFn ps with | some f => n == (pathLen 64 (kIndex blk) (kSize blk) + 2) * f.out | none => false
  | 0x3801 => true
  | 0x4001 | 0x4002 | 0x4004 | 0x4005 | 0x4101 => n == 0
  | 0x4003 => 96 ≤ n && n ≤ 16464
  | 0x4201 | 0x4202 => n == 32
  | 0x4203 => n == 0
  | _ =>
    if 0x3101 ≤ op && op ≤ 0x3106 then
      if dSeg d == 1 then match hashFn ps with | some f => n % f.block == 0 | none => false
      else !(op == 0x3103 || op == 0x3105 || op == 0x3106) || n ≥ digestT ps blk
    else true

/-- The longest plaintext of CCM (R358). -/
def ccmLimit (ps : Nat) : Nat := min (2 ^ (8 * (15 - psAux ps)) - 1) 0xFFFFFFFF

/-- The length rules of the symmetric jobs (R358, R369, R371); `du` is the data-unit length of the block in effect. -/
def symLenOk (op ps seg n du : Nat) : Bool :=
  let t := psTag ps
  if seg == 1 && !psStream ps then
    (if isXts op then du != 0 && n % du == 0 else if isChaPoly op then n % 64 == 0 else n % 16 == 0)
  else if isCbc op then n % 16 == 0
  else if op == 0x3003 then true
  else if isXts op then du != 0 && n % du == 0
  else if isCcm op then
    let lim := ccmLimit ps
    if op == 0x300C then n ≤ lim else t ≤ n && n - t ≤ lim && n ≤ 268435456
  else if isTagDec op then t ≤ n && n ≤ 268435456
  else if op == 0x3009 then t ≤ n
  else if op == 0x300E then 16 ≤ n && n ≤ 4096 && n % 8 == 0
  else if op == 0x300F then 24 ≤ n && n ≤ 4104 && n % 8 == 0
  else if op == 0x3010 then 1 ≤ n && n ≤ 4096
  else if op == 0x3011 then 16 ≤ n && n ≤ 4104 && n % 8 == 0
  else true

/-- References obey R184: a list begins on a 16-byte boundary, a reference of 0 has length 0 and no list, the block is aligned. -/
def refsOk (d : Bytes) : Bool :=
  let one := fun (ref len : Nat) (lst : Bool) => (ref != 0 || (len == 0 && !lst)) && (!lst || ref % 16 == 0)
  one (dInRef d) (dInLen d) (dInList d) && one (dOutRef d) (dOutCap d) (dOutList d) &&
    (!(readsBlock d) || dAux d % blockAlign d == 0)

/-- The references inside a block: AAD and strings (R357, R376). -/
def innerRefsOk (d : Bytes) (blk : Bytes) : Bool :=
  let op := dOp d
  if (dFamily d == 0x30 && readsBlock d && !(isCbc (dFunc d)) && dFunc d != 0x3003 && !(isXts (dFunc d))) then
    sAadRef blk != 0 || sAadLen blk == 0
  else if (0x3101 ≤ op && op ≤ 0x3106) || op == 0x3120 then bStrRef blk != 0 || bNLen blk + bSLen blk == 0
  else true

/-- A digest segment: its context has read the strings that its block names (R382). -/
def isDigestSeg (d : Bytes) : Bool := dFamily d == 0x31 && dOp d ≤ 0x3106 && dSeg d != 0

/-- Check 5 of R189 for a job that is no Bouquet; `du` is the data-unit length of a segment's context. -/
def check5 (d : Bytes) (blk : Bytes) (run : Option RunShape) (du : Nat) : Bool :=
  let op := dOp d
  refsOk d && (isDigestSeg d || innerRefsOk d blk) &&
  (if 0x3001 ≤ op && op ≤ 0x3013 then symLenOk op (dParam d) (dSeg d) (dInLen d) (if dSeg d == 0 then sDuLen blk else du)
   else inLenOk d blk run)

/-- The largest material of a key type over its parameter sets (R226, R215): for PUBLIC the largest public key; for LMS_HSS_SK its SEED and I
(DEDUCED, log 37). -/
def maxMaterial : Nat → Nat
  | 0x01 => 32
  | 0x02 => 32
  | 0x03 => 64
  | 0x10 => 16
  | 0x11 => 24
  | 0x12 => 32
  | 0x13 => 64
  | 0x14 => 32
  | 0x18 => 128
  | 0x19 => 64
  | 0x20 => 3168
  | 0x21 => 4896
  | 0x22 => 128
  | 0x23 => 48
  | 0x24 => 14120
  | 0x25 => 7317
  | 0x28 => 1357824
  | 0x30 => 1796
  | 0x31 => 199
  | 0x32 => 112
  | 0x33 => 114
  | _ => 0

/-- Public key and private material of a KEYGEN (R262, R285, R310, R331, R337, R341). -/
def keygenSizes (fam ps typ len : Nat) : Nat × Nat :=
  match fam with
  | 0x10 => match mlKemSizes ps with | some (e, k, _) => (e, k) | none => (0, 0)
  | 0x11 => match mlDsaSizes ps with | some (p, s, _) => (p, s) | none => (0, 0)
  | 0x12 => match slhSizes ps with | some (p, s, _) => (p, s) | none => (0, 0)
  | 0x14 => match codeSizes ps with | some (p, s, _, _) => (p, s) | none => (0, 0)
  | 0x20 => (8 * ps + 4, 28 * ps + 4)
  | 0x21 => match pCurve ps with | some c => (2 * c.f + 1, 3 * c.f + 1) | none => (0, 0)
  | 0x22 => match ps with | 1 => (32, 64) | 2 => (56, 112) | 3 => (32, 64) | _ => (57, 114)
  | _ => (0, (rawKeyLen typ len).getD 0)

/-- The HSS capacity bound of R299: every level at h_max. -/
def hssBound (ps : Nat) : Nat :=
  let l := ps / 65536
  let h := ps / 256 % 256
  match otsType (ps % 256) with
  | some t => 4 + l * (12 + t.n + t.p * t.n + h * t.n) + (l - 1) * (24 + t.n)
  | none => 0

/-- The largest output of a symmetric job (R358). -/
def symOut (op ps seg n : Nat) : Nat :=
  let t := psTag ps
  let tagDue := seg != 1 || psStream ps
  if op == 0x3008 then (if tagDue then t else 0)
  else if op == 0x3009 then 0
  else if isTagDec op then n - t
  else if isAead op then n + (if tagDue then t else 0)
  else if op == 0x300E then n + 8
  else if op == 0x300F || op == 0x3011 then n - 8
  else if op == 0x3010 then roundUp n 8 + 8
  else n

/-- The least OUT_CAP of check 6 (R226, R229, R238, R263, R299, R312, R320, R323, R332, R358, R375); `kernels` is the number of
loaded kernels, for the attestation statement (R239). -/
def outNeed (d : Bytes) (blk : Bytes) (run : Option RunShape) (kernels : Nat) : Nat :=
  let op := dOp d
  let ps := dParam d
  let n := dInLen d
  match op with
  | 0x1001 => match mlKemSizes ps with | some (_, _, c) => c + 32 | none => 0
  | 0x1002 => 32
  | 0x1101 | 0x1103 => match mlDsaSizes ps with | some (_, _, s) => s | none => 0
  | 0x1201 | 0x1203 => match slhSizes ps with | some (_, _, s) => s | none => 0
  | 0x1301 => hssBound ps
  | 0x1304 => 28 + (match otsType (ps % 256) with | some t => t.n | none => 0)
  | 0x1401 => match codeSizes ps with | some (_, _, c, k) => c + k | none => 0
  | 0x1402 => match codeSizes ps with | some (_, _, _, k) => k | none => 0
  | 0x1501 | 0x1502 => capLen ps (cObjType blk)
  | 0x2001 => 8 * ps
  | 0x2003 => 8 * ps - 2 * phLen (rHash blk) - 2
  | 0x2004 => 8 * ps
  | 0x2101 => match pCurve ps with | some c => 2 * c.f | none => 0
  | 0x2103 => if flag8 d then 0 else match pCurve ps with | some c => c.f | none => 0
  | 0x2201 => if flag8 d then 0 else if ps == 1 then 32 else 56
  | 0x2202 => if ps == 3 then 64 else 114
  | 0x2301 | 0x2302 | 0x2303 | 0x2304 | 0x2305 | 0x2306 => 8 * ps
  | 0x2310 => match run with | some r => r.outLen | none => 0
  | 0x3020 | 0x3021 | 0x3120 | 0x3121 | 0x3123 | 0x3204 => 0
  | 0x3122 => 280
  | 0x3201 | 0x3202 | 0x3203 => match hashFn ps with | some f => f.out | none => 0
  | 0x4001 =>
    let (pk, sk) := keygenSizes (dAlgFam d) ps (dNewType d) (gLength blk)
    pk + (if flag9 d then 80 + sk else 0)
  | 0x4004 => 80 + maxMaterial (hType (dKey d))
  | 0x4101 => dSpecLE d 52 4
  | 0x4201 => 160 + 32 * kernels + 32
  | 0x4202 => 160 + 32 * kernels + 4627
  | 0x4203 => 4257
  | _ =>
    if 0x3001 ≤ op && op ≤ 0x3013 then symOut op ps (dSeg d) n
    else if op == 0x3101 || op == 0x3102 || op == 0x3104 then (if dSeg d == 1 then 0 else digestT ps blk)
    else 0

end Sys2Proof.Machine
end

