-- ==== Sys2Proof/Machine/Charges.lean ====
section
/-!
DEFINITION. Rates, WCET tables, charged lengths and charges (R49, R207, R224, R229, R282, R292, R307, R317, R319, R321, R328,
R344, R351, R352, R364, R374, R378, R388). All times are whole nanoseconds, each formula rounded up once (R49, R55).
-/
namespace Sys2Proof.Machine

/-- A rate in bytes per ns as an exact ratio. -/
structure Rate where
  num : Nat
  den : Nat

/-- `base` ns plus `len` bytes at a rate, rounded up once. -/
def atRate (base len : Nat) (r : Rate) : Nat := base + ceilDiv (len * r.den) r.num

/-- Is rate `a` below rate `b`? -/
def Rate.slower (a b : Rate) : Bool := a.num * b.den < b.num * a.den

/-- The lower of two rates. -/
def Rate.lower (a b : Rate) : Rate := if a.slower b then a else b

/-- The per-engine rates of the BCE functions (R364), exact; `du` is DU_LEN for XTS. -/
def bceRate (func du order : Nat) : Rate :=
  let two := order == 2
  if isKw func then (if two then ⟨4, 45⟩ else ⟨2, 15⟩)
  else if func == 0x3001 || isCcm func then (if two then ⟨16, 15⟩ else ⟨8, 5⟩)
  else if func == 0x300A || (isXts func && du < 512) then (if two then ⟨64, 15⟩ else ⟨32, 5⟩)
  else if isChaPoly func then (if two then ⟨12, 1⟩ else ⟨20, 1⟩)
  else if func == 0x4101 then ⟨2, 1⟩
  else (if two then ⟨128, 15⟩ else ⟨64, 5⟩)

/-- The per-engine rate of a DGE function id (R374). -/
def dgeRate (id : Nat) : Rate := match hashFn id with | some f => ⟨f.rate, 100⟩ | none => ⟨1, 1⟩

/-- t_node of R388 in tenths of a ns. -/
def nodeTenths : Nat → Nat
  | 0x02 => 100
  | 0x03 | 0x05 => 125
  | 0x04 => 250
  | 0x07 | 0x08 => 75
  | 0x09 => 150
  | _ => 0

/-- N_nodes of R388. -/
def merkleNodes (d blk : Bytes) : Nat :=
  let out := match hashFn (dParam d) with | some f => f.out | none => 1
  match dOp d with
  | 0x3202 => dInLen d / out - 1
  | 0x3203 => if dInLen d == 0 then 1 else 2 * ceilDiv (dInLen d) (max 1 (kChunk blk)) - 1
  | 0x3204 => pathLen 64 (kIndex blk) (kSize blk) + 1
  | _ => 0

/-- The pool that a job is charged in (R223, R238, R263, R329, R354, R374); `none` for ERASE and the Bouquet. -/
def poolOfOp (d : Bytes) : Option Pool :=
  let fam := dFamily d
  if 0x10 ≤ fam && fam ≤ 0x15 then some .vcc
  else if fam == 0x22 then some .vcc
  else if 0x20 ≤ fam && fam ≤ 0x23 then some .mae
  else if fam == 0x30 then some .bce
  else if fam == 0x31 || fam == 0x32 then some .dge
  else match dOp d with
    | 0x4001 => if dAlgFam d == 0 then some .bce else if dAlgFam d == 0x20 || dAlgFam d == 0x21 then some .mae else some .vcc
    | 0x4002 => some .dge
    | 0x4003 | 0x4004 | 0x4101 => some .bce
    | 0x4201 | 0x4203 => some .dge
    | 0x4202 => some .vcc
    | _ => none

/-- The charged length of a BCE or DGE job (R49, R224, R229, R362, R364, R378). `cblk` is the block in effect: the job's own, or its
context's for a segment; `mat` the material length of the key that WRAP exports. -/
def chargedLen (d cblk : Bytes) (mat : Nat) : Nat :=
  let op := dOp d
  match op with
  | 0x4001 => (rawKeyLen (dNewType d) (gLength cblk)).getD 0 + (if flag9 d then 80 else 0)
  | 0x4002 => 408
  | 0x4003 => dInLen d
  | 0x4004 => 80 + mat
  | 0x4101 => dSpecLE d 52 4
  | 0x3020 => if isCbc (dFunc d) || dFunc d == 0x3003 || isXts (dFunc d) then 0 else sAadLen cblk
  | 0x3021 | 0x3121 | 0x3122 | 0x3123 => 0
  | 0x3120 =>
    let blk := match hashFn (dParam d) with | some f => f.block | none => 0
    (if dFunc d == 0x3101 || dFunc d == 0x3106 then 0 else blk) + bNLen cblk + bSLen cblk
  | _ =>
    if 0x3001 ≤ op && op ≤ 0x3013 then
      dInLen d + (if isAead op || isGmac op then sAadLen cblk else 0)
    else if 0x3101 ≤ op && op ≤ 0x3106 then
      let xof := match hashFn (dParam d) with | some f => f.xof | none => false
      dInLen d + bNLen cblk + bSLen cblk + (if xof then bOutLen cblk else 0)
    else dInLen d

/-- The rate r_f of a BCE or DGE job (R364, R374; key management on the GCM datapath; DERIVE at KMAC256). -/
def jobRate (d cblk : Bytes) (order : Nat) : Rate :=
  let op := dOp d
  match poolOfOp d with
  | some .bce =>
    if op == 0x4001 || op == 0x4003 || op == 0x4004 then bceRate 0x3006 0 order
    else bceRate (dFunc d) (sDuLen cblk) order
  | some .dge => if op == 0x4002 || dFamily d == 0x42 then dgeRate 0x0F else dgeRate (dParam d)
  | _ => ⟨1, 1⟩

/-- The charge of a BCE or DGE job of charged length `len` (R49, R224, R388); CTX_CLOSE is charged 0 (R364, R382). -/
def streamCharge (d cblk : Bytes) (order len : Nat) : Nat :=
  let op := dOp d
  if op == 0x3021 || op == 0x3121 then 0
  else if dFamily d == 0x32 then
    let r := jobRate d cblk order
    200 + ceilDiv (len * r.den * 10 + merkleNodes d cblk * nodeTenths (dParam d) * r.num) (r.num * 10)
  else atRate 200 len (jobRate d cblk order)

/-! ### VCC kernels in ROM, VLEN 2,048 -/

/-- Entry `i` of a small table. -/
def tab (l : List Nat) (i : Nat) : Nat := l.getD i 0

/-- Classic McEliece set number 0 to 4 of a PARAM_SET, an f set as its base (R319). -/
def cmIdx (ps : Nat) : Nat := (ps - 1) / 2

/-- The KEM part of a capsule's WCET (R328). -/
def capKemWcet (dec : Bool) (ps order : Nat) : Nat :=
  let two := order == 2
  let cm := if capMode ps == 2 then 0 else
    tab (if dec then (if two then [16000, 27000, 38000, 35000, 38000] else [10000, 17000, 24000, 22000, 24000])
         else (if two then [6000, 12000, 23000, 23000, 29000] else [5000, 10000, 19000, 19000, 24000])) (cmIdx (capCm ps))
  let ml := if capMode ps == 1 then 0 else
    tab (if dec then (if two then [15000, 23000, 36000] else [7000, 10500, 16500])
         else (if two then [8400, 12000, 18500] else [3900, 5600, 8600])) (capMl ps - 1)
  cm + ml

/-- The order-1 SLH-DSA entries in tenths of a microsecond: SIGN and VERIFY (R292). -/
def slhTenths (ps : Nat) : Nat × Nat :=
  let i := (ps - 1) / 2
  if ps % 2 == 1 then (tab [190000, 9900, 350000, 16500, 310000, 33000] i, tab [60, 125, 100, 200, 140, 210] i)
  else (tab [475000, 24800, 875000, 41300, 775000, 82500] i, tab [150, 310, 250, 500, 350, 530] i)

/-- t_leaf of R307 by LM-OTS code. -/
def leafNs (oc : Nat) : Nat :=
  let i := (oc - 1) % 4
  match (oc - 1) / 4 with
  | 0 => tab [830, 750, 1390, 10910] i
  | 1 => tab [600, 560, 1050, 8340] i
  | 2 => tab [2080, 1880, 3480, 27280] i
  | _ => tab [1500, 1400, 2630, 20850] i

/-- The stateful charges of R307 at order 1. -/
def hbsWcet (op ps : Nat) : Nat :=
  let l := ps / 65536
  let h := ps / 256 % 256
  let t := leafNs (ps % 256)
  let x := fun (s : XmssSet) =>
    let tx := if s.shake then (if s.n == 32 then 19000 else 14350) else (if s.n == 32 then 7600 else 5740)
    s.d * tx + 40 * s.h + 2000
  match op with
  | 0x1301 => (l + 3) * t + 10 * h * l + 1500
  | 0x1302 =>
    if l == 0x80 then match xmssSet (ps % 256) with | some s => x s | none => 0
    else if l == 0x81 then match xmssMtSet (ps % 256) with | some s => x s | none => 0
    else max l 1 * (t + 10 * h) + 2000
  | 0x1303 => 2 * l * 2 ^ h * t + 50000
  | _ => 2000

/-- The ROM's kernels carry an operation of a family with a PARAM_SET (R261, R285, R295, R310, R322, R341). -/
def romHas (op fam ps : Nat) : Bool :=
  let kg := op == 0x4001
  (kg || knownOp op) &&
  (if fam == 0x10 || fam == 0x11 then 1 ≤ ps && ps ≤ 3
   else if fam == 0x12 then 1 ≤ ps && ps ≤ 0x0C
   else if fam == 0x13 then !kg && hbsParamOk (op != 0x1302) ps
   else if fam == 0x14 then codeParamOk ps
   else if fam == 0x15 then !kg && capParamOk ps
   else if fam == 0x22 then (if kg then 1 ≤ ps && ps ≤ 4 else if op == 0x2201 then ps == 1 || ps == 2 else ps == 3 || ps == 4)
   else false)

/-- The WCET entry and the longest non-preemptible section of a ROM kernel operation at VLEN 2,048 (R282, R292, R307, R319, R321, R328,
R352); `fam` is ALG_FAMILY for a KEYGEN. The ROM carries no other operation; QUOTE's is open (log 5). -/
def romWcet (op fam ps order : Nat) : Option (Nat × Nat) :=
  let two := order == 2
  let e := fun (a b : Nat) => if two then b else a
  let i := ps - 1
  let f := if op == 0x4001 then fam else op / 256
  if !(romHas op f ps) then none
  else match f with
  | 0x10 =>
    let n := e 6000 9000
    if op == 0x1001 then some (tab (if two then [8400, 12000, 18500] else [3900, 5600, 8600]) i, n)
    else if op == 0x1002 then some (tab (if two then [15000, 23000, 36000] else [7000, 10500, 16500]) i, n)
    else some (tab (if two then [24000, 36000, 55000] else [11000, 16500, 25500]) i, n)
  | 0x11 =>
    if op == 0x1101 || op == 0x1103 then
      some (tab (if two then [420000, 660000, 920000] else [190000, 300000, 420000]) i, e 18000 19500)
    else if op == 0x1102 || op == 0x1104 then some (tab [8500, 13000, 21500] i, 8000)
    else some (tab (if two then [450000, 700000, 980000] else [210000, 330000, 460000]) i, e 18000 19500)
  | 0x12 =>
    let (s1, v) := slhTenths ps
    let s := if two then roundUp (s1 * 11) 100 / 10 else s1
    if op == 0x1201 || op == 0x1203 then some (s * 100, 16000)
    else if op == 0x1202 || op == 0x1204 then some (v * 100, 16000)
    else some (roundUp (s * 108) 10000, 16000)
  | 0x13 => some (if two then ceilDiv (hbsWcet op ps * 11) 10 else hbsWcet op ps, 16000)
  | 0x14 =>
    let hq := ps - 0x11
    let cm := cmIdx ps
    if ps ≥ 0x11 then
      if op == 0x1401 then some (tab (if two then [14000, 28000, 47000] else [9000, 18000, 30000]) hq, 12000)
      else if op == 0x1402 then some (tab (if two then [32000, 64000, 105000] else [20000, 40000, 66000]) hq, 12000)
      else if op == 0x1403 then some (5000, 12000)
      else some (tab (if two then [55000, 105000, 170000] else [35000, 66000, 110000]) hq, 12000)
    else
      if op == 0x1401 then some (tab (if two then [6000, 12000, 23000, 23000, 29000] else [5000, 10000, 19000, 19000, 24000]) cm, 12000)
      else if op == 0x1402 then some (tab (if two then [16000, 27000, 38000, 35000, 38000] else [10000, 17000, 24000, 22000, 24000]) cm, 12000)
      else if op == 0x1403 then some (tab [25000, 40000, 70000, 70000, 85000] cm, 12000)
      else some (1000000 * tab (if two then [90, 291, 1095, 990, 1326] else [60, 194, 730, 660, 884]) cm, 12000)
  | 0x15 => some (capKemWcet (op == 0x1503) ps order + e 2000 3000, if capMode ps == 2 then e 6000 9000 else 12000)
  | 0x22 =>
    let k := if ps % 2 == 0 then 1 else 0
    let n := e 8000 10000
    let agree := tab (if two then [12500, 38000] else [8500, 26000]) k
    let sign := tab (if two then [15500, 45000] else [10500, 31000]) k
    if op == 0x2201 then some (agree, n) else if op == 0x2202 then some (sign, n)
    else if op == 0x2203 then some (tab [12500, 36000] k, n) else some (if ps ≤ 2 then agree else sign, n)
  | _ => none

/-- How many clusters a VCC job is accounted as occupying: its quadrant's under the GF(2) grant (R317), a gang's four, a pair's two
(R344). -/
def vccFactor (p : Part) (op fam ps : Nat) : Nat :=
  let perQuad := Config.nVcc p / 4
  if op == 0x1401 || op == 0x1402 || (op == 0x4001 && fam == 0x14 && ps ≥ 0x11) then perQuad
  else if op / 256 == 0x15 && capMode ps != 2 then perQuad
  else if op == 0x2201 || op == 0x2202 || (op == 0x4001 && fam == 0x22) then 4
  else if op == 0x2203 then 2 else 1

/-! ### MAE -/

/-- The cycles of a raw command at W words (R346). -/
def maeCycles (op w : Nat) : Nat :=
  let m := ceilDiv (w * w) 32 + 6
  match op with
  | 1 | 2 => ceilDiv w 4 + 4
  | 3 | 4 => m
  | 5 => 128 * w * (ceilDiv w 4 + 2)
  | 6 => (80 * w + 16) * m
  | _ => 0

/-- Cycles at 1.6 GHz in ns, rounded up, plus `base`. -/
def cyclesNs (base cycles : Nat) : Nat := base + ceilDiv (cycles * 5) 8

/-- The MAE charges of R351. -/
def maeCharge (op fam ps : Nat) : Nat :=
  let w3 := if ps == 32 then 0 else if ps == 48 then 1 else 2
  if op == 0x2001 || op == 0x2003 then tab [27000, 63000, 133000] w3
  else if op == 0x2002 || op == 0x2004 then roundUp (cyclesNs 1500 (64 * (ceilDiv (ps * ps) 32 + 6))) 100
  else if op == 0x2101 then tab [28500, 64000, 140000] (ps - 1)
  else if op == 0x2102 then tab [24500, 56000, 125000] (ps - 1)
  else if op == 0x2103 then tab [20000, 48000, 100000] (ps - 1)
  else if 0x2301 ≤ op && op ≤ 0x2306 then cyclesNs 2000 (maeCycles (op - 0x2300) ps)
  else if op == 0x4001 && fam == 0x20 then tab [62500000, 150000000, 250000000] w3
  else if op == 0x4001 && fam == 0x21 then tab [30000, 66000, 145000] (ps - 1)
  else 0

end Sys2Proof.Machine
end

