-- ==== Sys2Proof/Machine/Aes.lean ====
section
/-!
DEFINITION. AES of FIPS 197 (128, 192 and 256-bit keys) on byte lists: the block cipher of the BCE modes (R360), of the
key blobs (R227), of the saved contexts (R366) and of the capsules (R325).
-/
namespace Sys2Proof.Machine

/-- Multiplication by x in GF(2^8) modulo x^8 + x^4 + x^3 + x + 1. -/
def xtime (b : Byte) : Byte := (b <<< 1) ^^^ (if b.msb then 0x1B else 0)

/-- Product in GF(2^8); `n` bits of `c` are used, low bit first. -/
def gf8MulN : Nat → Byte → Nat → Byte
  | 0, _, _ => 0
  | n + 1, b, c => (if c % 2 == 1 then b else 0) ^^^ gf8MulN n (xtime b) (c / 2)

/-- Product in GF(2^8). -/
def gf8Mul (b : Byte) (c : Byte) : Byte := gf8MulN 8 b c.toNat

/-- The S-box of FIPS 197, 5.1.1. -/
def aesSbox : List Byte :=
  [0x63,0x7c,0x77,0x7b,0xf2,0x6b,0x6f,0xc5,0x30,0x01,0x67,0x2b,0xfe,0xd7,0xab,0x76,0xca,0x82,0xc9,0x7d,0xfa,0x59,0x47,0xf0,0xad,0xd4,0xa2,0xaf,0x9c,0xa4,0x72,0xc0] ++
  [0xb7,0xfd,0x93,0x26,0x36,0x3f,0xf7,0xcc,0x34,0xa5,0xe5,0xf1,0x71,0xd8,0x31,0x15,0x04,0xc7,0x23,0xc3,0x18,0x96,0x05,0x9a,0x07,0x12,0x80,0xe2,0xeb,0x27,0xb2,0x75] ++
  [0x09,0x83,0x2c,0x1a,0x1b,0x6e,0x5a,0xa0,0x52,0x3b,0xd6,0xb3,0x29,0xe3,0x2f,0x84,0x53,0xd1,0x00,0xed,0x20,0xfc,0xb1,0x5b,0x6a,0xcb,0xbe,0x39,0x4a,0x4c,0x58,0xcf] ++
  [0xd0,0xef,0xaa,0xfb,0x43,0x4d,0x33,0x85,0x45,0xf9,0x02,0x7f,0x50,0x3c,0x9f,0xa8,0x51,0xa3,0x40,0x8f,0x92,0x9d,0x38,0xf5,0xbc,0xb6,0xda,0x21,0x10,0xff,0xf3,0xd2] ++
  [0xcd,0x0c,0x13,0xec,0x5f,0x97,0x44,0x17,0xc4,0xa7,0x7e,0x3d,0x64,0x5d,0x19,0x73,0x60,0x81,0x4f,0xdc,0x22,0x2a,0x90,0x88,0x46,0xee,0xb8,0x14,0xde,0x5e,0x0b,0xdb] ++
  [0xe0,0x32,0x3a,0x0a,0x49,0x06,0x24,0x5c,0xc2,0xd3,0xac,0x62,0x91,0x95,0xe4,0x79,0xe7,0xc8,0x37,0x6d,0x8d,0xd5,0x4e,0xa9,0x6c,0x56,0xf4,0xea,0x65,0x7a,0xae,0x08] ++
  [0xba,0x78,0x25,0x2e,0x1c,0xa6,0xb4,0xc6,0xe8,0xdd,0x74,0x1f,0x4b,0xbd,0x8b,0x8a,0x70,0x3e,0xb5,0x66,0x48,0x03,0xf6,0x0e,0x61,0x35,0x57,0xb9,0x86,0xc1,0x1d,0x9e] ++
  [0xe1,0xf8,0x98,0x11,0x69,0xd9,0x8e,0x94,0x9b,0x1e,0x87,0xe9,0xce,0x55,0x28,0xdf,0x8c,0xa1,0x89,0x0d,0xbf,0xe6,0x42,0x68,0x41,0x99,0x2d,0x0f,0xb0,0x54,0xbb,0x16]

/-- SubBytes on one byte. -/
def subByte (b : Byte) : Byte := aesSbox.getD b.toNat 0

/-- InvSubBytes on one byte. -/
def invSubByte (b : Byte) : Byte := byteOf (aesSbox.findIdx (· == b))

/-- The round constants' first byte. -/
def aesRcon : Nat → Byte
  | 0 => 1
  | n + 1 => xtime (aesRcon n)

/-- `n` more words of the key schedule; `ws` holds the words so far, newest first, `i` is the index of the next. -/
def aesExpand (nk : Nat) : Nat → Nat → List Bytes → List Bytes
  | 0, _, ws => ws
  | n + 1, i, ws =>
    let prev := ws.headD []
    let t := if i % nk == 0 then
        let r := (prev.drop 1 ++ prev.take 1).map subByte
        xorBytes r [aesRcon (i / nk - 1), 0, 0, 0]
      else if nk > 6 && i % nk == 4 then prev.map subByte
      else prev
    aesExpand nk n (i + 1) (xorBytes (ws.getD (nk - 1) []) t :: ws)

/-- The round keys, 16 bytes each. -/
def aesRoundKeys (key : Bytes) : List Bytes :=
  let nk := key.length / 4
  let ws := (aesExpand nk (4 * (nk + 7) - nk) nk (chunks 4 key).reverse).reverse
  chunks 16 ws.flatten

/-- ShiftRows: byte `r + 4 c` of the result is byte `r + 4 (c + r)`. -/
def shiftRows (s : Bytes) : Bytes := (List.range 16).map (fun i => s.getD (i % 4 + 4 * ((i / 4 + i % 4) % 4)) 0)

/-- InvShiftRows. -/
def invShiftRows (s : Bytes) : Bytes := (List.range 16).map (fun i => s.getD (i % 4 + 4 * ((i / 4 + 4 - i % 4) % 4)) 0)

/-- A column times the circulant matrix with first row `m`. -/
def mixCols (m : List Byte) (s : Bytes) : Bytes :=
  (List.range 16).map (fun i =>
    let c := i / 4
    (List.range 4).foldl (fun a k => a ^^^ gf8Mul (s.getD (4 * c + k) 0) (m.getD ((k + 4 - i % 4) % 4) 0)) 0)

/-- One AES block encryption with expanded keys. -/
def aesEncBlock (rks : List Bytes) (blk : Bytes) : Bytes :=
  match rks with
  | [] => blk
  | k0 :: rest =>
    let s := rest.dropLast.foldl (fun s k => xorBytes (mixCols [2, 3, 1, 1] (shiftRows (s.map subByte))) k) (xorBytes blk k0)
    xorBytes (shiftRows (s.map subByte)) (rest.getLastD [])

/-- One AES block decryption with expanded keys. -/
def aesDecBlock (rks : List Bytes) (blk : Bytes) : Bytes :=
  match rks.reverse with
  | [] => blk
  | k0 :: rest =>
    let s := rest.dropLast.foldl (fun s k => mixCols [14, 11, 13, 9] (xorBytes ((invShiftRows s).map invSubByte) k)) (xorBytes blk k0)
    xorBytes ((invShiftRows s).map invSubByte) (rest.getLastD [])

/-- AES encryption of one block under `key`. -/
def aesEnc (key blk : Bytes) : Bytes := aesEncBlock (aesRoundKeys key) blk

/-- AES decryption of one block under `key`. -/
def aesDec (key blk : Bytes) : Bytes := aesDecBlock (aesRoundKeys key) blk

end Sys2Proof.Machine
end

