-- ==== Sys2Proof/Machine/Ciphers.lean ====
section
/-!
DEFINITION. The cipher modes of the BCE (R360): CBC, CTR, XTS, GCM and GMAC, GCM-SIV, CCM, KW, KWP and
ChaCha20-Poly1305, each as the standard named in R360 has it. A decrypt answers the text and whether the check passed.
-/
namespace Sys2Proof.Machine

/-- CBC encryption, no padding (SP 800-38A); the blocks in order. -/
def cbcEncLoop (rks : List Bytes) : Bytes → List Bytes → List Bytes
  | _, [] => []
  | iv, p :: r => let c := aesEncBlock rks (xorBytes p iv); c :: cbcEncLoop rks c r

/-- CBC encryption (R360). -/
def cbcEnc (key iv p : Bytes) : Bytes := (cbcEncLoop (aesRoundKeys key) iv (chunks 16 p)).flatten

/-- CBC decryption; the blocks in order. -/
def cbcDecLoop (rks : List Bytes) : Bytes → List Bytes → List Bytes
  | _, [] => []
  | iv, c :: r => xorBytes (aesDecBlock rks c) iv :: cbcDecLoop rks c r

/-- CBC decryption (R360). -/
def cbcDec (key iv c : Bytes) : Bytes := (cbcDecLoop (aesRoundKeys key) iv (chunks 16 c)).flatten

/-- A counter block whose low `w` bytes are a big-endian counter raised by `i` (R360). -/
def ctrBlock (w : Nat) (icb : Bytes) (i : Nat) : Bytes :=
  icb.take (16 - w) ++ beBytes w (beNat (icb.drop (16 - w)) + i)

/-- CTR over `p` from block number `i0` (R360). -/
def ctrFrom (key : Bytes) (w : Nat) (icb : Bytes) (i0 : Nat) (p : Bytes) : Bytes :=
  let rks := aesRoundKeys key
  ((chunks 16 p).mapIdx (fun i c => xorBytes c (aesEncBlock rks (ctrBlock w icb (i0 + i))))).flatten

/-- Multiplication of an XTS tweak by alpha (IEEE 1619). -/
def xtsDouble (t : Bytes) : Bytes :=
  let v := leNat t * 2
  leBytes 16 (if v ≥ 2 ^ 128 then (v - 2 ^ 128).xor 0x87 else v)

/-- The tweaks of `n` blocks, starting with `t`. -/
def xtsTweaks : Nat → Bytes → List Bytes
  | 0, _ => []
  | n + 1, t => t :: xtsTweaks n (xtsDouble t)

/-- One XTS block: `f` between two additions of the tweak. -/
def xtsBlock (f : Bytes → Bytes) (t b : Bytes) : Bytes := xorBytes (f (xorBytes b t)) t

/-- One data unit of XTS with ciphertext stealing (R360). -/
def xtsUnit (enc : Bool) (key tweak d : Bytes) : Bytes :=
  let k1 := aesRoundKeys (key.take 32)
  let k2 := aesRoundKeys (key.drop 32)
  let f := if enc then aesEncBlock k1 else aesDecBlock k1
  let m := d.length / 16
  let rem := d.length % 16
  let ts := xtsTweaks (m + 1) (aesEncBlock k2 tweak)
  let bs := chunks 16 d
  if rem == 0 then (List.zipWith (xtsBlock f) ts bs).flatten
  else
    let head := (List.zipWith (xtsBlock f) (ts.take (m - 1)) bs).flatten
    let tLast := ts.getD (m - 1) []
    let tNext := ts.getD m []
    let full := bs.getD (m - 1) []
    let part := bs.getD m []
    let cc := xtsBlock f (if enc then tLast else tNext) full
    let pp := part ++ cc.drop rem
    head ++ xtsBlock f (if enc then tNext else tLast) pp ++ cc.take rem

/-- XTS over data units of `du` bytes, the first with sequence number `tweak` (R357, R360). -/
def xts (enc : Bool) (key : Bytes) (tweak du : Nat) (d : Bytes) : Bytes :=
  ((chunks du d).mapIdx (fun i u => xtsUnit enc key (leBytes 16 (tweak + i)) u)).flatten

/-- Product in GF(2^128) as GCM numbers bits; `n` bits of `x` are used, most significant first. -/
def ghashMulN : Nat → Nat → Nat → Nat
  | 0, _, _ => 0
  | n + 1, x, v =>
    (if x / 2 ^ n % 2 == 1 then v else 0).xor (ghashMulN n x (if v % 2 == 1 then (v / 2).xor (0xE1 * 2 ^ 120) else v / 2))

/-- GHASH of whole blocks under `h` (SP 800-38D). -/
def ghash (h : Bytes) (d : Bytes) : Bytes :=
  let hv := beNat h
  beBytes 16 ((chunks 16 d).foldl (fun y b => ghashMulN 128 (y.xor (beNat b)) hv) 0)

/-- Zero bytes up to a multiple of 16. -/
def pad16 (n : Nat) : Bytes := zeros ((16 - n % 16) % 16)

/-- The GCM tag over additional data and ciphertext (12-byte IV). -/
def gcmTag (key iv aad c : Bytes) : Bytes :=
  let h := aesEnc key (zeros 16)
  let s := ghash h (aad ++ pad16 aad.length ++ c ++ pad16 c.length ++ beBytes 8 (8 * aad.length) ++ beBytes 8 (8 * c.length))
  xorBytes s (aesEnc key (iv ++ [0, 0, 0, 1]))

/-- The GCM keystream applied to `p` from block `i0` (0 is the first text block). -/
def gcmCtr (key iv : Bytes) (i0 : Nat) (p : Bytes) : Bytes := ctrFrom key 4 (iv ++ [0, 0, 0, 2]) i0 p

/-- GCM encryption: ciphertext then tag of `t` bytes. -/
def gcmEnc (key iv aad p : Bytes) (t : Nat) : Bytes :=
  let c := gcmCtr key iv 0 p
  c ++ (gcmTag key iv aad c).take t

/-- GCM decryption of ciphertext and tag of `t` bytes. -/
def gcmDec (key iv aad ct : Bytes) (t : Nat) : Bytes × Bool :=
  let c := ct.take (ct.length - t)
  (gcmCtr key iv 0 c, (gcmTag key iv aad c).take t == ct.drop (ct.length - t))

/-- POLYVAL of RFC 8452 through GHASH on reversed bytes. -/
def polyval (h : Bytes) (d : Bytes) : Bytes :=
  let hv := beNat h.reverse
  let hx := if hv % 2 == 1 then (hv / 2).xor (0xE1 * 2 ^ 120) else hv / 2
  (ghash (beBytes 16 hx) ((chunks 16 d).flatMap List.reverse)).reverse

/-- The message-authentication and message-encryption keys of RFC 8452, section 4. -/
def sivKeys (key nonce : Bytes) : Bytes × Bytes :=
  let blk := fun i => (aesEnc key (leBytes 4 i ++ nonce)).take 8
  (blk 0 ++ blk 1, if key.length == 16 then blk 2 ++ blk 3 else blk 2 ++ blk 3 ++ blk 4 ++ blk 5)

/-- The CTR pass of GCM-SIV: a 32-bit little-endian counter in the first four bytes of the block. -/
def sivCtr (ek tag p : Bytes) : Bytes :=
  let rks := aesRoundKeys ek
  let b0 := tag.take 15 ++ [tag.getD 15 0 ||| 0x80]
  let c0 := leNat (b0.take 4)
  ((chunks 16 p).mapIdx (fun i c => xorBytes c (aesEncBlock rks (leBytes 4 (c0 + i) ++ b0.drop 4)))).flatten

/-- The GCM-SIV tag. -/
def sivTag (ak ek nonce aad p : Bytes) : Bytes :=
  let s := polyval ak (aad ++ pad16 aad.length ++ p ++ pad16 p.length ++ leBytes 8 (8 * aad.length) ++ leBytes 8 (8 * p.length))
  let s := xorBytes s (nonce ++ zeros 4)
  aesEnc ek (s.take 15 ++ [s.getD 15 0 &&& 0x7F])

/-- GCM-SIV encryption (RFC 8452). -/
def sivEnc (key nonce aad p : Bytes) : Bytes :=
  let k := sivKeys key nonce
  let t := sivTag k.1 k.2 nonce aad p
  sivCtr k.2 t p ++ t

/-- GCM-SIV decryption (RFC 8452). -/
def sivDec (key nonce aad ct : Bytes) : Bytes × Bool :=
  let k := sivKeys key nonce
  let t := ct.drop (ct.length - 16)
  let p := sivCtr k.2 t (ct.take (ct.length - 16))
  (p, sivTag k.1 k.2 nonce aad p == t)

/-- The CBC-MAC of whole blocks. -/
def cbcMac (key d : Bytes) : Bytes :=
  let rks := aesRoundKeys key
  (chunks 16 d).foldl (fun y b => aesEncBlock rks (xorBytes y b)) (zeros 16)

/-- The formatted length of CCM's additional data (SP 800-38C, A.2.2). -/
def ccmAad (aad : Bytes) : Bytes :=
  if aad.isEmpty then []
  else
    let a := if aad.length < 0xFF00 then beBytes 2 aad.length ++ aad else [0xFF, 0xFE] ++ beBytes 4 aad.length ++ aad
    a ++ pad16 a.length

/-- The CCM tag (SP 800-38C): `t` bytes over nonce, additional data and plaintext. -/
def ccmTag (key nonce aad p : Bytes) (t : Nat) : Bytes :=
  let q := 15 - nonce.length
  let flags := (if aad.isEmpty then 0 else 64) + 8 * ((t - 2) / 2) + (q - 1)
  let b := [byteOf flags] ++ nonce ++ beBytes q p.length ++ ccmAad aad ++ p ++ pad16 p.length
  let s0 := aesEnc key ([byteOf (q - 1)] ++ nonce ++ zeros q)
  (xorBytes (cbcMac key b) s0).take t

/-- The CCM keystream applied to `p`. -/
def ccmCtr (key nonce p : Bytes) : Bytes :=
  let q := 15 - nonce.length
  ctrFrom key q ([byteOf (q - 1)] ++ nonce ++ zeros q) 1 p

/-- CCM encryption. -/
def ccmEnc (key nonce aad p : Bytes) (t : Nat) : Bytes := ccmCtr key nonce p ++ ccmTag key nonce aad p t

/-- CCM decryption. -/
def ccmDec (key nonce aad ct : Bytes) (t : Nat) : Bytes × Bool :=
  let p := ccmCtr key nonce (ct.take (ct.length - t))
  (p, ccmTag key nonce aad p t == ct.drop (ct.length - t))

/-- One pass of the wrapping function W of SP 800-38F over the semiblocks, `t0` steps done. -/
def kwPass (rks : List Bytes) : Nat → Bytes → List Bytes → Bytes × List Bytes
  | _, a, [] => (a, [])
  | t, a, r :: rs =>
    let b := aesEncBlock rks (a ++ r)
    let x := kwPass rks (t + 1) (xorBytes (b.take 8) (beBytes 8 t)) rs
    (x.1, b.drop 8 :: x.2)

/-- Six passes of W. -/
def kwW (key : Bytes) (s : Bytes) : Bytes :=
  let rks := aesRoundKeys key
  let n := s.length / 8 - 1
  let x := (List.range 6).foldl (fun (st : Bytes × List Bytes) j => kwPass rks (n * j + 1) st.1 st.2) (s.take 8, chunks 8 (s.drop 8))
  x.1 ++ x.2.flatten

/-- One inverse pass, last semiblock first; `rs` is reversed, `t` counts down. -/
def kwUnpass (rks : List Bytes) : Nat → Bytes → List Bytes → Bytes × List Bytes
  | _, a, [] => (a, [])
  | t, a, r :: rs =>
    let b := aesDecBlock rks (xorBytes a (beBytes 8 t) ++ r)
    let x := kwUnpass rks (t - 1) (b.take 8) rs
    (x.1, b.drop 8 :: x.2)

/-- The inverse of W. -/
def kwWInv (key : Bytes) (c : Bytes) : Bytes :=
  let rks := aesRoundKeys key
  let n := c.length / 8 - 1
  let x := (List.range 6).foldl
    (fun (st : Bytes × List Bytes) j => kwUnpass rks (n * (6 - j)) st.1 st.2)
    (c.take 8, (chunks 8 (c.drop 8)).reverse)
  x.1 ++ x.2.reverse.flatten

/-- The default ICV of KW (R360). -/
def kwIcv : Bytes := List.replicate 8 0xA6

/-- KW (SP 800-38F). -/
def kwWrap (key p : Bytes) : Bytes := kwW key (kwIcv ++ p)

/-- KW unwrap: the text and whether the ICV matched. -/
def kwUnwrap (key c : Bytes) : Bytes × Bool :=
  let s := kwWInv key c
  (s.drop 8, s.take 8 == kwIcv)

/-- KWP (SP 800-38F), with the alternative ICV 0xA65959A6 and a 32-bit length (R360). -/
def kwpWrap (key p : Bytes) : Bytes :=
  let pad := zeros (roundUp p.length 8 - p.length)
  let s := [0xA6, 0x59, 0x59, 0xA6] ++ beBytes 4 p.length ++ p ++ pad
  if s.length == 16 then aesEnc key s else kwW key s

/-- KWP unwrap: ICV, length and padding must check out (R361). -/
def kwpUnwrap (key c : Bytes) : Bytes × Bool :=
  let s := if c.length == 16 then aesDec key c else kwWInv key c
  let n := beNat (sliceOf s 4 4)
  let d := s.drop 8
  let ok := s.take 4 == [0xA6, 0x59, 0x59, 0xA6] && n ≤ d.length && d.length < n + 8 && allZero (d.drop n) && n > 0
  (d.take n, ok)

/-- Quarter round of ChaCha20 on positions `a b c d`. -/
def chachaQuarter (a b c d : Nat) (s : List (BitVec 32)) : List (BitVec 32) :=
  let g := fun i => s.getD i 0
  let a1 := g a + g b; let d1 := (g d ^^^ a1).rotateLeft 16
  let c1 := g c + d1; let b1 := (g b ^^^ c1).rotateLeft 12
  let a2 := a1 + b1; let d2 := (d1 ^^^ a2).rotateLeft 8
  let c2 := c1 + d2; let b2 := (b1 ^^^ c2).rotateLeft 7
  (((s.set a a2).set b b2).set c c2).set d d2

/-- A double round of ChaCha20. -/
def chachaDouble (s : List (BitVec 32)) : List (BitVec 32) :=
  chachaQuarter 3 4 9 14 (chachaQuarter 2 7 8 13 (chachaQuarter 1 6 11 12 (chachaQuarter 0 5 10 15
    (chachaQuarter 3 7 11 15 (chachaQuarter 2 6 10 14 (chachaQuarter 1 5 9 13 (chachaQuarter 0 4 8 12 s)))))))

/-- The ChaCha20 block function (RFC 8439, 2.3). -/
def chachaBlock (key nonce : Bytes) (ctr : Nat) : Bytes :=
  let w := fun (b : Bytes) => (chunks 4 b).map (fun c => BitVec.ofNat 32 (leNat c))
  let s : List (BitVec 32) := [0x61707865, 0x3320646e, 0x79622d32, 0x6b206574] ++ w key ++ [BitVec.ofNat 32 ctr] ++ w nonce
  let r := (List.range 10).foldl (fun s _ => chachaDouble s) s
  (List.zipWith (· + ·) r s).flatMap (fun x => leBytes 4 x.toNat)

/-- ChaCha20 over `p` from block counter `c0`. -/
def chacha20 (key nonce : Bytes) (c0 : Nat) (p : Bytes) : Bytes :=
  ((chunks 64 p).mapIdx (fun i b => xorBytes b (chachaBlock key nonce (c0 + i)))).flatten

/-- Poly1305 (RFC 8439, 2.5). -/
def poly1305 (key m : Bytes) : Bytes :=
  let r := leNat (key.take 16) &&& 0x0ffffffc0ffffffc0ffffffc0fffffff
  let p := 2 ^ 130 - 5
  let a := (chunks 16 m).foldl (fun acc b => (acc + leNat (b ++ [1])) * r % p) 0
  leBytes 16 (a + leNat (key.drop 16))

/-- The ChaCha20-Poly1305 tag. -/
def cpTag (key nonce aad c : Bytes) : Bytes :=
  poly1305 ((chachaBlock key nonce 0).take 32)
    (aad ++ pad16 aad.length ++ c ++ pad16 c.length ++ leBytes 8 aad.length ++ leBytes 8 c.length)

/-- ChaCha20-Poly1305 encryption (RFC 8439). -/
def cpEnc (key nonce aad p : Bytes) : Bytes :=
  let c := chacha20 key nonce 1 p
  c ++ cpTag key nonce aad c

/-- ChaCha20-Poly1305 decryption. -/
def cpDec (key nonce aad ct : Bytes) : Bytes × Bool :=
  let c := ct.take (ct.length - 16)
  (chacha20 key nonce 1 c, cpTag key nonce aad c == ct.drop (ct.length - 16))

end Sys2Proof.Machine
end

