-- ==== Sys2Proof/Machine/State.lean ====
section
/-!
DEFINITION. The state of the module: plain data, every register, queue, buffer, mode and pin that the spec gives it, each field
with the rule that names it and its reset value; the queue of waiting commands; the reasons for a stop; the state after reset.
-/
namespace Sys2Proof.Machine

/-- The mailbox of one instance (R433 to R435). -/
structure FnMbx where
  /-- 9 b, 17 R433 MBX_IN_LEN; reset: 0 -/
  inLen : Nat := 0
  /-- 1 b, 17 R433 MBX_CTRL.IN_PEND; reset: 0 -/
  inPend : Bool := false
  /-- 256 B, 17 R433 MBX_OUT; reset: 0 -/
  outWin : Bytes := List.replicate 256 0
  /-- 9 b, 17 R433 MBX_CTRL.OUT_LEN; reset: 0 -/
  outLen : Nat := 0
  /-- 9 b, 17 R434 MGR_MBX_CTRL.OUT_LEN (length as sent); reset: 0 -/
  outSent : Nat := 0
  /-- 1 b, 17 R433 OUT_PEND; reset: 0 -/
  outPend : Bool := false
  /-- 1 b, 17 R433 ENABLE; reset: 0 -/
  enable : Bool := false
  /-- 11 b, 17 R433 VECTOR; reset: 0 -/
  vector : Nat := 0
  /-- 1 b, 17 R433 OVERRUN; reset: 0 -/
  overrun : Bool := false
  /-- 256 B, 17 R433 MBX_IN, R434 MGR_MBX_IN; reset: 0 -/
  inWin : Bytes := List.replicate 256 0
deriving DecidableEq, Repr

/-- The direct digest port of one function page (R389 to R392). -/
structure FnDdp where
  /-- 8 b, 15 R389 DDP_CTRL.ALG; reset: 0 -/
  alg : Nat := 0
  /-- 8 b, 15 R390, R392 the algorithm that START took; reset: 0 -/
  runAlg : Nat := 0
  /-- 64 b, 15 R389 DDP_KEY_LO/HI; reset: 0 -/
  key : Nat := 0
  /-- 16 b, 15 R389 DDP_STATUS.SEQ; reset: 0 -/
  seq : Nat := 0
  /-- 4 b, 15 R389 ERROR; reset: 0 -/
  error : Nat := 0
  /-- 1 b, 15 R389 RESTARTED; reset: 0 -/
  restarted : Bool := false
  /-- 1 b, 15 R389 DONE; reset: 0 -/
  done : Bool := false
  /-- 1 b, 15 R389 BUSY; reset: 0 -/
  busy : Bool := false
  /-- 1 b, 15 R391 the length write was taken, the digest is due; reset: 0 -/
  ending : Bool := false
  /-- 64 B, 15 R389 DDP_DIGEST0-15 (words beyond read 0); reset: empty -/
  digest : Bytes := []
  /-- unbounded, 15 R389 message bytes taken since START; reset: empty -/
  msg : Bytes := []
  /-- 0..512, 15 R391 words buffered and not yet absorbed; reset: 0 -/
  buffered : Nat := 0
  /-- ns, 15 R391 time up to which buffered words have been absorbed; reset: 0 -/
  drainAt : Nat := 0
  /-- 64 b, 15 R389 DDP_LAST word; reset: 0 -/
  lastWord : Bytes := List.replicate 8 0
  /-- slot, generation, material, 15 R390 the key reference START took; reset: none -/
  keyed : Option (Nat × Nat × Bytes) := none
  /-- 1 b, 15 R390 the key is a KMAC key; reset: no -/
  kmac : Bool := false
  /-- 1 b, 15 R391 the key reference was dropped under it; reset: no -/
  keyLost : Bool := false
deriving DecidableEq, Repr

/-- The event ring of one function or slice (R178 to R180). -/
structure FnEvr where
  /-- 1 b, 06 R178 a ring is registered; reset: no ring -/
  present : Bool := false
  /-- 1 b, 06 R180 EVR_STATUS.STATE = 10; reset: 0 -/
  stopped : Bool := false
  /-- 64 b, 06 R178; reset: 0 -/
  base : Nat := 0
  /-- 4..12, 06 R178; reset: 0 -/
  log2 : Nat := 0
  /-- 16 b, 06 R178; reset: 0 -/
  vector : Nat := 0
  /-- 17 b, 06 R180; reset: 0 -/
  head : Nat := 0
  /-- 17 b, 06 R180 EVR_STATUS.TAIL; reset: 0 -/
  tail : Nat := 0
  /-- 32 b, 06 R180 EVR_DROPPED; reset: 0 -/
  droppedReg : Nat := 0
  /-- 32 b, 06 R179 dropped since the previous record written; reset: 0 -/
  droppedPrev : Nat := 0
deriving DecidableEq, Repr

/-- A dirty bitmap and what it covers (R436, R437). -/
structure DirtyMap where
  /-- 64 b, 17 R436 BUF; reset: 0 -/
  bitmap : Nat := 0
  /-- bytes, 17 R436 BUF_LEN; reset: 0 -/
  len : Nat := 0
  /-- 64 b, 17 R436 COVER_BASE; reset: 0 -/
  cover : Nat := 0
deriving DecidableEq, Repr

/-- The dirty log of one instance (R436 to R438). -/
structure FnDirty where
  /-- 1 b, 17 R436; reset: off -/
  enabled : Bool := false
  /-- 1 b, 17 R438; reset: 0 -/
  failed : Bool := false
  /-- 17 R436 the bitmap in use; reset: 0 -/
  map : DirtyMap := {}
  /-- 32 b saturating, 17 R436 OUTSIDE; reset: 0 -/
  outside : Nat := 0
deriving DecidableEq, Repr

/-- Advanced error reporting of a physical function (R134). -/
structure Aer where
  /-- 32 b, 05 R134 Correctable Error Status; reset: PRESUMED 0 (log 37) -/
  cor : BitVec 32 := 0
  /-- 32 b, 05 R134 Uncorrectable Error Status; reset: PRESUMED 0 (log 37) -/
  unc : BitVec 32 := 0
  /-- 32 b, 05 R134 Correctable Error Mask; reset: PRESUMED PCIe's 0x0000_E000 (log 37) -/
  corMask : BitVec 32 := 0xE000
  /-- 32 b, 05 R134 Uncorrectable Error Mask; reset: PRESUMED PCIe's 0x0040_0000 (log 37) -/
  uncMask : BitVec 32 := 0x400000
  /-- 32 b, 05 R134 Uncorrectable Error Severity; reset: PRESUMED PCIe's 0x0046_2030 (log 37) -/
  severity : BitVec 32 := 0x462030
  /-- error bit, routing ID, 05 R134 First Error Pointer and header log; reset: none -/
  header : Option (Nat × Nat) := none
deriving DecidableEq, Repr

/-- Configuration space of a function that its page and enables leave out (R119 to R135). -/
structure FnCfg where
  /-- 3 b, 05 R125 Max Payload Size code; reset: PRESUMED PCIe's 0, 128 B (log 37) -/
  mps : Nat := 0
  /-- 3 b, 05 R125 Max Read Request Size code; reset: PRESUMED PCIe's 2, 512 B (log 37) -/
  mrrs : Nat := 2
  /-- 1 b, 05 R125 10-Bit Tag Requester Enable; reset: PRESUMED 0 (log 37) -/
  tag10 : Bool := false
  /-- 1 b, 05 R125 ECRC Generation Enable; reset: PRESUMED 0 (log 37) -/
  ecrc : Bool := false
  /-- 4 b, 05 R127 Completion Timeout Value; reset: PRESUMED 0 (log 37) -/
  timeout : Nat := 0
  /-- 1 b, 05 R134 Completion Timeout Disable; reset: PRESUMED 0 (log 37) -/
  noTimeout : Bool := false
  /-- 16 b, 05 R135 ACS Control; reset: PRESUMED 0 (log 37) -/
  acs : Nat := 0
  /-- 3 × 64 b, 05 R122 BAR0, BAR2, BAR4 addresses; reset: PRESUMED 0 (log 37) -/
  bars : List Nat := [0, 0, 0]
  /-- 3 × 64 b, 05 R122 VF BAR0, BAR2, BAR4 of PF0's SR-IOV capability; reset: PRESUMED 0 (log 37) -/
  vfBars : List Nat := [0, 0, 0]
  /-- 1 b, 05 R122 System Page Size is 64 KiB; reset: PRESUMED 4 KiB (log 37) -/
  page64 : Bool := false
  /-- 05 R134; reset: reset values -/
  aer : Aer := {}
deriving DecidableEq, Repr

/-- One function or slice: its page, its configuration space and what serves it. -/
structure FnState where
  /-- name, 05 R119, 17 R428; reset: PF0 and PF1 exist from link up -/
  fn : Fn := .pf0
  /-- 1 b, 04 R111 FN_STATUS.READY; reset: 0 -/
  ready : Bool := false
  /-- 1 b, 05 R143 a reset is in progress; reset: 0 -/
  resetting : Bool := false
  /-- D0/D3hot, 05 R141; reset: D0 -/
  d3 : Bool := false
  /-- 1 b, 05 R128 Bus Master Enable; reset: DESIGN CHOICE 0 (log 4: PCIe's own value; the spec gives none) -/
  busMaster : Bool := false
  /-- 1 b, 05 R128 Memory Space Enable; reset: DESIGN CHOICE 0 (log 4) -/
  memSpace : Bool := false
  /-- 1 b, 05 R130; reset: DESIGN CHOICE 0 (log 4) -/
  atsEnable : Bool := false
  /-- 1 b, 05 R132; reset: DESIGN CHOICE 0 (log 4) -/
  msixEnable : Bool := false
  /-- 1 b, 05 R132 Function Mask; reset: DESIGN CHOICE 0 (log 4) -/
  fnMask : Bool := false
  /-- vectors not masked, 05 R132; reset: DESIGN CHOICE none unmasked (log 4) -/
  unmasked : List Nat := []
  /-- pending bits, 05 R132; reset: none -/
  pba : List Nat := []
  /-- vector, 64 b address, 32 b data; a vector not listed holds 0 and 0, 05 R122, R132 MSI-X table; reset: DESIGN CHOICE 0 (log 4) -/
  msixTable : List (Nat × Nat × Nat) := []
  /-- 05 R119 to R135; reset: reset values -/
  cfg : FnCfg := {}
  /-- PASID, page; at most 2,048 in all functions, 05 R130 translations cached, oldest first; reset: empty -/
  atc : List (Option Nat × Nat) := []
  /-- 64 b, 06 R167; reset: 0 -/
  aqSqBase : BitVec 64 := 0
  /-- 64 b, 06 R167; reset: 0 -/
  aqCqBase : BitVec 64 := 0
  /-- 1 b, 06 R167 AQ_SIZE.ENABLE; reset: 0 -/
  aqEnable : Bool := false
  /-- 5 b, 06 R167; reset: 0 -/
  aqSqLog2 : Nat := 0
  /-- 5 b, 06 R167; reset: 0 -/
  aqCqLog2 : Nat := 0
  /-- 1 b, 06 R167 CONFIG_ERR; reset: 0 -/
  aqConfigErr : Bool := false
  /-- 1 b, 17 R439 the instance is quiesced; reset: no -/
  quiesced : Bool := false
  /-- 1 b, 17 R439 a QUIESCE command waits for the drain; reset: no -/
  quiescing : Bool := false
  /-- 06 R178; reset: no ring -/
  evr : FnEvr := {}
  /-- 17 R433; reset: reset values -/
  mbx : FnMbx := {}
  /-- 15 R389; reset: reset values -/
  ddp : FnDdp := {}
  /-- 17 R436; reset: disabled -/
  dirty : FnDirty := {}
  /-- counts the tags of its non-posted requests, 05 R125; reset: 0 -/
  nextTag : Nat := 0
deriving DecidableEq, Repr

/-- A slice as SLICE_CREATE defined it (R430). -/
structure Slice where
  /-- 12 b, 17 R430 -/
  num : Nat := 0
  /-- 12 b, 17 R430, 05 R124 -/
  firstPage : Nat := 0
  /-- 1..256, 17 R430 -/
  pageCount : Nat := 1
  /-- 16 b, 17 R430 -/
  domain : Nat := 0
  /-- 11 b, 17 R430 -/
  vecBase : Nat := 0
  /-- 1..2048, 17 R430 -/
  vecCount : Nat := 1
  /-- 20 b, 17 R430 -/
  pasid : Nat := 0
deriving DecidableEq, Repr

/-- The token bucket of one SQ in one pool (R51, R52). -/
structure Bucket where
  /-- VCC..MAE, 02 R51 -/
  pool : Pool := .vcc
  /-- tokens in units of 1/(4096*10^9*rhoDen), 02 R52; reset: full at CREATE_SQ -/
  level : Int := 0
  /-- ns, 02 R52 deadline-clock ns at which level held; reset: creation -/
  asOf : Nat := 0
deriving DecidableEq, Repr

/-- A submission queue. -/
structure Sq where
  /-- name, 06 R145 -/
  fn : Fn := .pf0
  /-- 16 b (0xFFFF admin), 06 R145, R170 -/
  id : Nat := 0
  /-- 2 b, 06 R160; reset: ENABLED at creation -/
  st : QState := .enabled
  /-- 8 b, 06 R161; reset: 0 -/
  reason : Nat := 0
  /-- 17 b, 06 R161; reset: 0 -/
  latched : Nat := 0
  /-- 64 b, 06 R146 -/
  base : Nat := 0
  /-- 1..16, 06 R145 -/
  log2 : Nat := 1
  /-- 17 b index, 06 R148; reset: 0 -/
  head : Nat := 0
  /-- 17 b index, 06 R148; reset: 0 -/
  tail : Nat := 0
  /-- 4 b, 06 R172 -/
  cls : Nat := 0
  /-- 16 b, 06 R172 -/
  cq : Nat := 0
  /-- 1..4096, 02 R51 -/
  share : Nat := 0
  /-- 16 b, 06 R172, 08 R220 -/
  domain : Nat := 0
  /-- 02 R51; reset: full -/
  buckets : List Bucket := []
  /-- ns per visible unfetched entry, 01 R21, 02 R38; reset: empty -/
  arrivals : List Nat := []
  /-- unfetched entries that a CQ-full episode stopped, 06 R159; reset: 0 -/
  fullStop : Nat := 0
  /-- unfetched entries that the in-flight limit stopped, 02 R61, 01 R26; reset: 0 -/
  limitStop : Nat := 0
  /-- 32 b, 02 R64; reset: 0xFFFF_FFFF -/
  latMin : Nat := 0xFFFFFFFF
  /-- 32 b, 02 R64; reset: 0 -/
  latMax : Nat := 0
  /-- 64 b, 02 R64; reset: 0 -/
  count : Nat := 0
deriving DecidableEq, Repr

/-- A completion that waits in a CQ's holding area (R157). -/
structure Held where
  /-- internal id, 06 R157 -/
  job : Nat := 0
  /-- 1 b, 01 R511 holds a credit -/
  credited : Bool := true
  /-- 32 B, 07 R195 -/
  entry : Completion := {}
deriving DecidableEq, Repr

/-- A completion queue. -/
structure Cq where
  /-- name, 06 R145 -/
  fn : Fn := .pf0
  /-- 16 b (0xFFFF admin), 06 R145 -/
  id : Nat := 0
  /-- 1 b, 06 R160; reset: ENABLED at creation -/
  st : QState := .enabled
  /-- 8 b, 06 R161; reset: 0 -/
  reason : Nat := 0
  /-- 17 b, 06 R161; reset: 0 -/
  latched : Nat := 0
  /-- 64 b, 06 R146 -/
  base : Nat := 0
  /-- 1..16, 06 R145 -/
  log2 : Nat := 1
  /-- 17 b index, 06 R151; reset: 0 -/
  head : Nat := 0
  /-- 17 b index, 06 R153; reset: 0 -/
  tail : Nat := 0
  /-- 0..N, 06 R156; reset: N at creation -/
  credits : Nat := 0
  /-- 16 b, 06 R166 -/
  vector : Nat := 0xFFFF
  /-- 16 b, 06 R166 -/
  k : Nat := 0
  /-- 16 b, Tr, 06 R166 -/
  t : Nat := 0
  /-- count, 06 R166 entries written since the last signal; reset: 0 -/
  sinceSig : Nat := 0
  /-- ns, 06 R166 first entry not yet signalled; reset: none -/
  firstUnsig : Option Nat := none
  /-- 06 R157 holding area; reset: empty -/
  held : List Held := []
  /-- 1 b, 06 R158 CQ-full episode; reset: no -/
  episode : Bool := false
deriving DecidableEq, Repr

/-- A context that a preempted job left wrapped (R32, R366). -/
structure SavedCtx where
  /-- last use, 01 R32 -/
  use : Nat := 0
  /-- 1 b, it lies in sealed DRAM, 01 R32 -/
  spilled : Bool := false
  /-- 64 B, bytes [63:0] of its record, 14 R366 -/
  head : Bytes := []
deriving DecidableEq, Repr

/-- A job between its fetch and its completion entry. -/
structure Job where
  /-- internal id, 01 R23 (fetch order) -/
  id : Nat := 0
  /-- name, 07 R181 -/
  fn : Fn := .pf0
  /-- 16 b, 07 R195 -/
  sq : Nat := 0
  /-- 16 b, 06 R172 -/
  cq : Nat := 0
  /-- 32 b, 07 R181 TAG -/
  tag : Nat := 0
  /-- 64 B, 07 R181 -/
  desc : Bytes := []
  /-- parameters block, 07 R184 -/
  block : Bytes := []
  /-- 4 b, 02 R46 -/
  cls : Nat := 0
  /-- 16 b, 08 R220 -/
  domain : Nat := 0
  /-- ns, 02 R38 -/
  arrival : Nat := 0
  /-- Tr, 01 R21, 02 R50 -/
  deadline : Nat := 0
  /-- R511 item, ready, running, preempted, overrun, ending, held, 01 R511, 02 R54 -/
  phase : Phase := .waitTokens
  /-- completion of a failed check, 07 R190 -/
  failed : Option Completion := none
  /-- 16 b unit ids held, 02 R54 -/
  units : List Nat := []
  /-- 1 b, 01 R22 -/
  credit : Bool := false
  /-- 1 b, 01 R511 (b) -/
  inPlace : Bool := false
  /-- bytes, 01 R27 -/
  holdBack : Nat := 0
  /-- bytes, 01 R27 -/
  largeStage : Nat := 0
  /-- bytes, 01 R31 -/
  bouquetBuf : Nat := 0
  /-- bytes, 12 R313 -/
  resident : Nat := 0
  /-- slot and generation, 01 R24 -/
  pins : List (Nat × Nat) := []
  /-- slot taken at dispatch, 08 R225 -/
  newSlot : Option Nat := none
  /-- context index, 14 R369 -/
  ctx : Option Nat := none
  /-- 64 b, 09 R254 -/
  leaf : Option Nat := none
  /-- the stateful key as dispatched, 11 R304 -/
  skey : Option StatefulKey := none
  /-- the master key as dispatched, 08 R24, R237 -/
  mkey : Option MasterKey := none
  /-- bytes, 07 R193 highest offset written -/
  streamed : Nat := 0
  /-- 1 b, 07 R196 -/
  restarted : Bool := false
  /-- units a re-execution may not use, 19 R496, 13 R344 -/
  excluded : List Nat := []
  /-- further tokens under R276, 10 R276 -/
  extra : Nat := 0
  /-- random bytes the job holds across R276, 10 R276 -/
  rnd : Bytes := []
  /-- attempts made so far, 10 R276, R278 -/
  round : Nat := 0
  /-- its first staged or completion write is issued, 07 R201 -/
  pastEnd : Bool := false
  /-- input kept across R276, 10 R276 -/
  input : Bytes := []
  /-- causes seen while pending, 02 R61 -/
  late0 : LateCause := {}
  /-- between dispatch and its entry, 03 R68 -/
  dispatched : Bool := false
  /-- its unit failed it: it is to be re-executed, or is being so, 19 R496 -/
  again : Bool := false
  /-- bytes of each streamed output written in this execution, 07 R193 -/
  sent : Nat := 0
  /-- bitmap, page of 4 KiB: what the job has written and its end marks, 17 R437 -/
  dirty : List (DirtyMap × Nat) := []
  /-- input bytes consumed in this execution, 07 R208 -/
  taken : Nat := 0
  /-- its saved contexts, one for each engine, 14 R366, 01 R32; reset: none -/
  saves : List SavedCtx := []
  /-- what ended the reading of its input into tiles, 07 R188 -/
  inBad : Option Status := none
deriving DecidableEq, Repr

/-- A retiring copy of a slot's old material (R218). -/
structure KeyCopy where
  /-- 16 b, 08 R218 -/
  gen : Nat := 0
  /-- references, 08 R218 -/
  pins : Nat := 0
  /-- 24 b, 08 R226 -/
  param : Nat := 0
  /-- 32 b, 08 R216 -/
  policy : BitVec 32 := 0
  /-- 64 b, 08 R225 -/
  keyId : Nat := 0
  /-- as the slot's, 08 R218 -/
  material : Bytes := []
deriving DecidableEq, Repr

/-- What an ERASE or REWRITE found in a slot: a dispatch of the same fabric cycle comes before it (R24, R219). -/
structure SlotChange where
  /-- ns, 08 R219 when -/
  clk : Nat := 0
  /-- 16 b, 08 R219 the slot's domain -/
  domain : Nat := 0
  /-- 8 b, 08 R215 its key type -/
  ktype : Nat := 0
  /-- 01 R24 the key as it stood -/
  old : KeyCopy := {}
deriving DecidableEq, Repr

/-- An entry of the slot table; FREE slots stay listed for their generation. -/
structure Slot where
  /-- 24 b, 08 R214 -/
  idx : Nat := 0
  /-- FREE, OCCUPIED, RETIRING, 08 R217; reset: FREE -/
  st : SlotSt := .free
  /-- 16 b, 08 R217; reset: 0 -/
  gen : Nat := 0
  /-- generation under which the material was pinned, 08 R217, R218; reset: 0 -/
  matGen : Nat := 0
  /-- its ERASE or REWRITE of this instant, gone with the next one, 08 R219, 01 R24; reset: none -/
  changed : Option SlotChange := none
  /-- 16 b, 08 R220 -/
  domain : Nat := 0
  /-- 8 b, 08 R215 -/
  ktype : Nat := 0
  /-- 24 b, 08 R226 -/
  param : Nat := 0
  /-- 32 b, 08 R216 -/
  policy : BitVec 32 := 0
  /-- 64 b, 08 R225 -/
  keyId : Nat := 0
  /-- 16..16384 B, or a public key, 08 R215 -/
  material : Bytes := []
  /-- references to the current material, 08 R218; reset: 0 -/
  pins : Nat := 0
  /-- retiring copies, 08 R218; reset: none -/
  copies : List KeyCopy := []
  /-- DRAM channel the entry touches, 19 R498 -/
  channel : Nat := 0
deriving DecidableEq, Repr

/-- An explicit context (R366 to R373). -/
structure Ctx where
  /-- 15 b, 14 R368 -/
  idx : Nat := 0
  /-- 16 b, 14 R368; reset: 0 -/
  gen : Nat := 0
  /-- 1 b, 14 R372; reset: no context -/
  live : Bool := false
  /-- 16 b, 14 R368 -/
  domain : Nat := 0
  /-- 1 BCE, 2 DGE, 14 R366 -/
  engine : Nat := 1
  /-- 16 b, 14 R366 -/
  func : Nat := 0
  /-- 64 b, 14 R366 -/
  key : Nat := 0
  /-- 64 b, 14 R366 -/
  keyId : Nat := 0
  /-- 1 or 2, 14 R366 MASK_ORDER -/
  order : Nat := 1
  /-- 24 b, 14 R366 -/
  param : Nat := 0
  /-- the opening parameters block, 14 R367 -/
  block : Bytes := []
  /-- 64 b, 14 R366 TOTAL -/
  total : Nat := 0
  /-- 32 b, 14 R366 SEGMENT -/
  segment : Nat := 0
  /-- the bytes that the chaining state stands for, 14 R366 STATE -/
  chain : Bytes := []
  /-- additional data absorbed at CTX_OPEN, 14 R367 -/
  aad : Bytes := []
  /-- 1 b, 14 R370 -/
  busy : Bool := false
  /-- 1 b, 01 R32 -/
  spilled : Bool := false
  /-- last use, 01 R32 -/
  use : Nat := 0
  /-- the key was erased while busy, 14 R372 -/
  keyGone : Bool := false
  /-- 96 b, 14 R366 WRAP_NONCE of its record; reset: 0 -/
  nonce : Nat := 0
deriving DecidableEq, Repr

/-- One VCC, BCE, DGE or MAE. -/
structure UnitSt where
  /-- 16 b unit id, 19 R481 -/
  id : Nat := 0
  /-- R500 STATE, 19 R500; reset: IN_SERVICE once enumerated -/
  st : UnitState := .inService
  /-- FAULT_STATUS bit, 19 R500; reset: 0 -/
  cause : Nat := 0
  /-- Tr, 19 R500; reset: 0 -/
  fenceAt : Nat := 0
  /-- the job running, 02 R54; reset: none -/
  job : Option Nat := none
  /-- ns, 02 R65; reset: 0 -/
  busySince : Nat := 0
  /-- 0..2^20, 01 R18 output blocks since the last reseed; reset: 0 -/
  maskBlocks : Nat := 0
  /-- seed of its mask generator, 01 R11, R18; reset: none -/
  maskSeed : Bytes := []
  /-- the seed fetched ahead, 01 R18; reset: none -/
  maskNext : Bytes := []
  /-- ns of the last operand-tile failures, 19 R495; reset: none -/
  operandFails : List Nat := []
deriving DecidableEq, Repr

/-- One sealed DRAM channel. -/
structure Chan where
  /-- 1 b, 19 R495, R500; reset: in service -/
  inService : Bool := true
  /-- ns of the last uncorrectable errors, 19 R495; reset: none -/
  errors : List Nat := []
  /-- Tr, 19 R500; reset: 0 -/
  fenceAt : Nat := 0
deriving DecidableEq, Repr

/-- One set of class counters (R61, R63, R65, R284). -/
structure ClassMon where
  /-- 32 b, 02 R65; reset: 0xFFFF_FFFF -/
  latMin : Nat := 0xFFFFFFFF
  /-- 32 b, 02 R65; reset: 0 -/
  latMax : Nat := 0
  /-- 64 b, 02 R65; reset: 0 -/
  count : Nat := 0
  /-- 64 b, 02 R65; reset: 0 -/
  sum : Nat := 0
  /-- 32 b, 02 R61; reset: 0 -/
  missGuaranteed : Nat := 0
  /-- 32 b, 02 R61; reset: 0 -/
  missSuspended : Nat := 0
  /-- 32 b, 02 R61; reset: 0 -/
  missBudget : Nat := 0
  /-- 32 b, 02 R61; reset: 0 -/
  missCqFull : Nat := 0
  /-- 32 b, 02 R61; reset: 0 -/
  missResource : Nat := 0
  /-- 32 b, 02 R61; reset: 0 -/
  missDebug : Nat := 0
  /-- 32 b, 10 R284; reset: 0 -/
  irCount : Nat := 0
  /-- 32 b, 10 R284; reset: 0 -/
  signOverrun : Nat := 0
  /-- 64 x 32 b, 02 R63; reset: 0 -/
  hist : List Nat := List.replicate 64 0
deriving DecidableEq, Repr

/-- One set of pool counters (R65). -/
structure PoolMon where
  /-- 64 b, 02 R65 BUSY; reset: 0 -/
  busy : Nat := 0
  /-- 32 b, 02 R65 PREEMPT; reset: 0 -/
  preempt : Nat := 0
  /-- 64 b, 02 R65 SNAP_TRANSIT; reset: 0 -/
  snapTr : Nat := 0
deriving DecidableEq, Repr

/-- The monitor block. -/
structure Monitors where
  /-- 16 classes, 02 R63; reset: reset values -/
  live : List ClassMon := List.replicate 16 {}
  /-- 16 classes, 02 R64, R65; reset: reset values -/
  snap : List ClassMon := List.replicate 16 {}
  /-- 4 pools, 02 R65; reset: 0 -/
  poolLive : List PoolMon := List.replicate 4 {}
  /-- 4 pools, 02 R64; reset: 0 -/
  poolSnap : List PoolMon := List.replicate 4 {}
deriving DecidableEq, Repr

/-- The Meridian unit (R36 to R45, R510). -/
structure Meridian where
  /-- 3 b, 02 R40, R45 STATE; reset: 000 ACQUIRING -/
  st : MerSt := .acquiring
  /-- 2 b, 02 R45 SOURCE; reset: 10 -/
  source : Nat := 2
  /-- 1 b, 02 R45; reset: 0 -/
  fromStrap : Bool := false
  /-- 1 b, 02 R44; reset: 0 -/
  slewing : Bool := false
  /-- ns of offset not yet absorbed, 02 R43, R44; reset: 0 -/
  slewLeft : Nat := 0
  /-- half-rate phase, 02 R44; reset: 0 -/
  slewHalf : Bool := false
  /-- 8 b, 02 R45; reset: 0 -/
  lossCount : Nat := 0
  /-- 8 b, 02 R45; reset: 0 -/
  stepCount : Nat := 0
  /-- 64 b Meridian time, 02 R36; reset: 0 -/
  ns : Nat := 0
  /-- the unit has been started, 02 R510; reset: not started -/
  running : Bool := false
  /-- 32 b, 02 R45 TRANSIT_NOW_HI; reset: 0 -/
  hiLatch : Nat := 0
  /-- 32 b, 02 R43 HOLDOVER_DRIFT; reset: 0 -/
  drift : Nat := 0
  /-- ns, 02 R43; reset: 0 -/
  lossAt : Nat := 0
  /-- ns, 02 R43; reset: 0 -/
  lossResid : Nat := 0
  /-- consecutive good dialogs or markers, 02 R40; reset: 0 -/
  good : Nat := 0
  /-- consecutive failed dialogs, 02 R41; reset: 0 -/
  bad : Nat := 0
  /-- consecutive dialogs beyond 1 us, 02 R41; reset: 0 -/
  beyond : Nat := 0
  /-- consecutive bad seconds, 02 R41; reset: 0 -/
  markerMiss : Nat := 0
  /-- edges from the last marker in place to the last marker, 02 R41; reset: 0 -/
  markerEdges : Nat := 0
  /-- 1 b, 05 R133 PTM Enable; reset: DESIGN CHOICE 0 (log 4) -/
  ptmEnable : Bool := false
  /-- a PTM Request is outstanding, 05 R133; reset: no -/
  dialogOpen : Bool := false
  /-- ns of the last PTM Request, 02 R41; reset: 0 -/
  dialogAt : Nat := 0
  /-- 1..100, 02 R41; reset: 10 ms (default) -/
  dialogMs : Nat := 10
  /-- 0..65535, 02 R44; reset: 0 -/
  holdoverS : Nat := 0
  /-- input or trace mode, 03 R82; reset: input -/
  coaxTrace : Bool := false
deriving DecidableEq, Repr

/-- Start-up (R92 to R115). -/
structure Boot where
  /-- 4 b, 04 R111 BOOT_STEP; reset: 1 -/
  step : Nat := 1
  /-- 1 b, 04 R111 (0xF); reset: 0 -/
  done : Bool := false
  /-- a start has begun, 04 R92; reset: no -/
  running : Bool := false
  /-- step-5 attempts made, 04 R97; reset: 0 -/
  attempt : Nat := 0
  /-- ns of the last failed attempt, 04 R97; reset: 0 -/
  retryAt : Nat := 0
  /-- 1 b, 04 R99 TAMPER_HOLD; reset: 0 -/
  hold : Bool := false
  /-- what the start meets outside the SC, 04 R92; reset: empty -/
  env : BootEnv := {}
  /-- 0 none, 1 copy A, 2 copy B, 3 factory, 04 R101, R109 what this start tries; reset: 0 -/
  copy : Nat := 0
  /-- 8 b, 04 R107 outcome so far of the copy tried; reset: 0 -/
  reason : Nat := 0
  /-- 8 b, 04 R101 why copy A failed; reset: 0 -/
  aReason : Nat := 0
  /-- 16 b, 04 R105 item of the failure; reset: 0xFFFF -/
  item : Nat := 0xFFFF
  /-- this start began at power-good, 04 R92, 03 R76; reset: no -/
  fromPg : Bool := false
  /-- step 5 waits for a retry, 04 R97; reset: no -/
  waiting : Bool := false
  /-- 0..16, 04 R106 embedded AUMs applied in this start; reset: 0 -/
  aums : Nat := 0
deriving DecidableEq, Repr

/-- The Ephemeris registers and the image in effect. -/
structure Eph where
  /-- 1 b, 04 R111; reset: 0 -/
  configured : Bool := false
  /-- 1 b, 04 R111; reset: 0 -/
  factory : Bool := false
  /-- 8 b, 04 R112; reset: 0x00 -/
  reason : Nat := 0
  /-- 8 b, 04 R112; reset: 0x00 -/
  aReason : Nat := 0
  /-- 16 b, 04 R112; reset: 0xFFFF -/
  item : Nat := 0xFFFF
  /-- 32 b, 04 R112 EPH_INFO; reset: 0 -/
  sequence : Nat := 0
  /-- 2 b, 04 R112 EPH_SOURCE; reset: 0 -/
  source : Nat := 0
  /-- 32 B, 04 R112 EPH_DIGEST; reset: 0 -/
  digest : Bytes := List.replicate 32 0
  /-- the applied configuration, 04 R105; reset: defaults -/
  cfg : EphCfg := {}
  /-- classes suspended, 02 R59; reset: none -/
  suspended : List Nat := []
  /-- Tr, 19 R500 RERUN_TRANSIT; reset: 0 -/
  rerunAt : Nat := 0
  /-- loaded owner and vendor packages, 16 R426; reset: none -/
  kernels : List KernelPkg := []
deriving DecidableEq, Repr

/-- Power, resets, connector and bezel (R66 to R91). -/
structure Power where
  /-- 1 b, 03 R70; reset: not asserted -/
  pg : Bool := false
  /-- 12 V main present, 03 R74; reset: off -/
  main : Bool := false
  /-- 3.3 V auxiliary present, 03 R74; reset: off -/
  aux : Bool := false
  /-- the auxiliary domain has power, 03 R73, R74; reset: off -/
  auxPowered : Bool := false
  /-- lost since the previous boot, 03 R75; reset: no -/
  auxLost : Bool := false
  /-- AUX_ABSENT recorded this power cycle, 03 R73; reset: no -/
  auxNoted : Bool := false
  /-- filtered PWRDIS, 03 R78; reset: deasserted -/
  pwrdis : Bool := false
  /-- PERST# asserted, 03 R76; reset: asserted -/
  perst : Bool := true
  /-- PERST# has deasserted since PG, 03 R76; reset: no -/
  perstSeen : Bool := false
  /-- 8 b, 03 R84; reset: DESIGN CHOICE 0x00 (log 4: the switches, the spec gives none) -/
  straps : BitVec 8 := 0
  /-- 8 b, 03 R84 LIVE; reset: DESIGN CHOICE 0x00 (log 4) -/
  live : BitVec 8 := 0
  /-- STRAP_CHANGED recorded this power cycle, 03 R86; reset: no -/
  strapNoted : Bool := false
  /-- 1 b, 03 R91 ALERTS.THERMAL_WARN; reset: 0 -/
  thermWarn : Bool := false
  /-- LED/activity, 03 R68; reset: released -/
  activity : Bool := false
  /-- ns of the last assertion, 03 R68; reset: 0 -/
  activityAt : Nat := 0
  /-- 0..511, 03 R87 offset of region 0x53; reset: DESIGN CHOICE 0 (log 4) -/
  smbOffFru : Nat := 0
  /-- 8 b, 03 R87 offset of region 0x3A; reset: DESIGN CHOICE 0 (log 4) -/
  smbOffHealth : Nat := 0
  /-- 32 B, 03 R88, R89; reset: the values of R89 -/
  health : Bytes := [0x01, 0x00, 0x00, 0x80, 0x80, 0x00, 0x00, 0xFF] ++ List.replicate 24 0
  /-- ns of the last snapshot, 03 R88; reset: none -/
  healthAt : Option Nat := none
deriving DecidableEq, Repr

/-- The PCIe link and device-wide configuration space. -/
structure LinkSt where
  /-- 1 b, 05 R94, R116; reset: down -/
  up : Bool := false
  /-- lanes, 05 R116; reset: 0 -/
  width : Nat := 0
  /-- GT/s, 05 R116; reset: 0 -/
  speed : Nat := 0
  /-- 1 b, 05 R142 VF Enable; reset: DESIGN CHOICE 0 (log 4) -/
  vfEnable : Bool := false
  /-- 16 b, 05 R120 NumVFs; reset: DESIGN CHOICE 0 (log 4) -/
  numVfs : Nat := 0
  /-- ns, 04 R114; reset: 0 -/
  vfEnableAt : Nat := 0
  /-- AtomicOp Requester Enable on PF0, 05 R126; reset: DESIGN CHOICE 0 (log 4) -/
  atomicOp : Bool := false
  /-- PASID Enable on PF1, 05 R129; reset: DESIGN CHOICE 0 (log 4) -/
  pasidEnable : Bool := false
  /-- 8 b, 05 R120 PF0's bus N; reset: DESIGN CHOICE 0 (log 37) -/
  bus : Nat := 0
  /-- 8 b, 05 R120 last bus the upstream port routes to the module; reset: DESIGN CHOICE 0 (log 37) -/
  lastBus : Nat := 0
  /-- lanes trained at link up, 05 R117; reset: 0 -/
  full : Nat := 0
deriving DecidableEq, Repr

/-- A selective IDE stream (R139, R140). -/
structure IdeStream where
  /-- 8 b, 05 R139 -/
  id : Nat := 0
  /-- Secure or Insecure, 05 R140; reset: Insecure -/
  secure : Bool := false
  /-- SPDM session that programmed it, 05 R140 -/
  session : Nat := 0
  /-- key set, sub-stream, direction programmed, 05 R139; reset: none -/
  keys : List (Nat × Nat × Bool) := []
  /-- key set in use per sub-stream, direction, 05 R139; reset: none -/
  active : List (Nat × Nat × Bool) := []
  /-- 256 b key and IV of each programmed key set, 05 R139; reset: none -/
  mats : List ((Nat × Nat × Bool) × Bytes × Bytes) := []
  /-- messages sent before each key set in use took over, 05 R139; reset: none -/
  since : List ((Nat × Nat × Bool) × Nat) := []
deriving DecidableEq, Repr

/-- The register block of a selective IDE stream (R139). -/
structure IdeBlock where
  /-- 8 b, 05 R139 Stream ID; reset: DESIGN CHOICE 0 (log 37) -/
  id : Nat := 0
  /-- 1 b, 05 R139 stream enabled; reset: DESIGN CHOICE 0 (log 37) -/
  on : Bool := false
  /-- 1 b, 05 R139 PCRC enabled; reset: DESIGN CHOICE 0 (log 37) -/
  pcrc : Bool := false
  /-- base, limit, 05 R139 RID association block; reset: DESIGN CHOICE none (log 37) -/
  rid : Option (Nat × Nat) := none
  /-- base, limit, 05 R139 two address association blocks; reset: DESIGN CHOICE none (log 37) -/
  addrs : List (Option (Nat × Nat)) := [none, none]
deriving DecidableEq, Repr

/-- The secrets of one SPDM session (R137). -/
structure SpdmKeys where
  /-- session number, 05 R137 -/
  session : Nat := 0
  /-- 32 b session id, both halves, 05 R137 -/
  id : Nat := 0
  /-- 48 B handshake secret, 05 R137 -/
  secret : Bytes := []
  /-- 48 B secret of the requests' direction, 05 R137 -/
  request : Bytes := []
  /-- 48 B secret of the answers' direction, 05 R137 -/
  response : Bytes := []
  /-- answers sealed under the direction's secret, 05 R137; reset: 0 -/
  sent : Nat := 0
  /-- requests taken under the direction's secret, 05 R137; reset: 0 -/
  received : Nat := 0
  /-- messages of the session's handshake, 05 R137 -/
  transcript : Bytes := []
deriving DecidableEq, Repr

/-- The DOE mailbox, the SPDM responder and IDE (R136 to R140). -/
structure Doe where
  /-- GET_VERSION answered, 05 R137; reset: no -/
  version : Bool := false
  /-- GET_CAPABILITIES answered, 05 R137; reset: no -/
  caps : Bool := false
  /-- NEGOTIATE_ALGORITHMS answered, 05 R137; reset: no -/
  algs : Bool := false
  /-- session number, FINISH done; at most 2, 05 R137; reset: none -/
  sessions : List (Nat × Bool) := []
  /-- at most 8, 05 R139; reset: none -/
  streams : List IdeStream := []
  /-- 1 b, 05 R136 DOE Error, after a data object above 16 KiB; reset: DESIGN CHOICE 0 (log 37) -/
  error : Bool := false
  /-- version, capability and algorithm messages, 05 R137; reset: empty -/
  vca : Bytes := []
  /-- one to each session, 05 R137; reset: none -/
  secrets : List SpdmKeys := []
  /-- at most 16,376 B, what the DOE write mailbox holds of a data object, 05 R136; reset: DESIGN CHOICE empty (log 21) -/
  mailbox : Bytes := []
  /-- 8 stream register blocks, 05 R139; reset: reset values -/
  blocks : List IdeBlock := List.replicate 8 {}
deriving DecidableEq, Repr

/-- The module's side of the ledger token. -/
structure TokSt where
  /-- 1 b, 09 R257 PRESENT; reset: 0 -/
  present : Bool := false
  /-- 1 b, 09 R257 LATCH_CLOSED; reset: 0 -/
  latchClosed : Bool := false
  /-- 2 b, 09 R257 SESSION; reset: 00 -/
  session : SessKind := .noSession
  /-- 4 b, 09 R257; reset: 0xF -/
  custodyEntry : Nat := 0xF
  /-- 8 b, 09 R257; reset: 0 -/
  failReason : Nat := 0
  /-- 1 b, 09 R257; reset: 0 -/
  readOnly : Bool := false
  /-- 1 b, 09 R257; reset: 0 -/
  wear : Bool := false
  /-- 1 b, 09 R257; reset: 0 -/
  enrolled : Bool := false
  /-- UNITS as last refreshed, 09 R256 TOKEN_LIFE; reset: none (reads 0xFF00_0000) -/
  life : Option Nat := none
  /-- ns of the last refresh, 09 R256; reset: 0 -/
  lifeAt : Nat := 0
  /-- 32 B key of frames to the token, 09 R245; reset: none -/
  txKey : Bytes := []
  /-- 32 B key of frames from the token, 09 R245; reset: none -/
  rxKey : Bytes := []
  /-- 88 b frame counter, 09 R245; reset: 0 -/
  txCount : Nat := 0
  /-- 88 b frame counter, 09 R245; reset: 0 -/
  rxCount : Nat := 0
  /-- 32 B token content key, 09 R249; reset: none -/
  tck : Option Bytes := none
  /-- the token in the socket, 09 R80; reset: DESIGN CHOICE none (log 4) -/
  socket : Option Token := none
  /-- the token's anchored keys are in SC memory, 08 R212; reset: no -/
  keysLoaded : Bool := false
deriving DecidableEq, Repr

/-- Fuses and the security controller's secrets. -/
structure Sc where
  /-- OTP word: the Device Root Secret XOR the die fingerprint, 04 R96; reset: none (MAKER, before the first start) -/
  drs : Option Bytes := none
  /-- fuses all ones, 18 R450; reset: no -/
  drsBlown : Bool := false
  /-- SPDM certificate bank written, 05 R137; reset: DESIGN CHOICE not written (log 4) -/
  certBank : Bool := false
  /-- 32 B owner root digest fuses, 08 R211; reset: none -/
  rootDigest : Option Bytes := none
  /-- all ones, 18 R450; reset: no -/
  rootBlown : Bool := false
  /-- 64 b, 08 R234, R236 the counter burned with the owner root; reset: 0 -/
  rootCounter : Nat := 0
  /-- 8 entries, 08 R211, R236; reset: none used -/
  custodyBank : List CustodyEntry := []
  /-- 0..4096 thermometer fuses, 08 R234 F; reset: 0 -/
  floor : Nat := 0
  /-- debug lock fuse, 18 R450; reset: no -/
  debugLock : Bool := false
  /-- L0..L4 burned, 18 R446; reset: L0 (wafer test) -/
  lcFuses : List Nat := [0]
  /-- E1..E4 burned, 18 R446; reset: none -/
  endFuses : List Nat := []
  /-- 32 B, 08 R209; reset: none -/
  bootNonce : Bytes := []
  /-- 64 B DRAM sealing key, 08 R209, 01 R17, 18 R469; reset: none -/
  sealKey : Option Bytes := none
  /-- destroyed by an ERASE, no new one until reset, 18 R469; reset: no -/
  sealDead : Bool := false
  /-- context-wrapping key, 08 R209; reset: none -/
  wrapKey : Option Bytes := none
  /-- SC-held custody key copy usable, 18 R469; reset: no -/
  custodyCopy : Bool := false
  /-- class 1 keys in SC memory, 08 R212, 04 R108; reset: none -/
  heldAuth : List AuthKey := []
  /-- attestation secret in SC memory, 08 R212, 04 R108; reset: none -/
  heldAttest : Option Bytes := none
  /-- domain policies read from the token that differ from the default, 08 R222; reset: none -/
  policies : List (Nat × BitVec 32) := []
  /-- 96 b, 14 R366; reset: 0 -/
  wrapNonce : Nat := 0
  /-- noise sources passing, 01 R19; reset: 4 pass -/
  sources : List Bool := List.replicate 4 true
  /-- the DRBGs run, 01 R20; reset: not yet instantiated -/
  drbgOn : Bool := false
  /-- mask seeds drawn from each quadrant's DRBG: the model's counters, 01 R11, R18; reset: DESIGN CHOICE 0 (log 2) -/
  drbgs : List Nat := [0, 0, 0, 0]
deriving DecidableEq, Repr

/-- The lifecycle registers (R445 to R455). -/
structure Lifecycle where
  /-- 1 b, 18 R455 BUSY; reset: 0 -/
  busy : Bool := false
  /-- 8 b target of the transition in progress, 18 R450; reset: 0 -/
  target : Nat := 0
  /-- 8 b, 18 R455 REFUSED_COUNT; reset: 0 -/
  refused : Nat := 0
  /-- 8 b, 18 R455 LAST_REFUSE; reset: 0 -/
  lastRefuse : Nat := 0
deriving DecidableEq, Repr

/-- Debug rights, certificate store and stepping (R456 to R463). -/
structure Debug where
  /-- 6 b, 18 R458 ACTIVE; reset: 0 -/
  active : BitVec 6 := 0
  /-- certificate store, 18 R461; reset: empty -/
  cert : Option DbgCert := none
  /-- the stored certificate's rights are available, 18 R461; reset: no -/
  certLive : Bool := false
  /-- clusters withheld at this start, 18 R463; reset: 0 -/
  testMask : Nat := 0
  /-- 1 b, 18 R462 ARM; reset: 0 -/
  arm : Bool := false
  /-- the halted job may execute one instruction, 18 R462 STEP; reset: no -/
  stepOne : Bool := false
  /-- 5 b, 18 R462 CLUSTER; reset: 0 -/
  cluster : Nat := 0
  /-- the job halted, 18 R462 HALTED; reset: none -/
  halted : Option Nat := none
  /-- 5 b, the cluster on which it halted, 18 R462; reset: 0 -/
  haltedOn : Nat := 0
  /-- ns at which the last halt ended, 02 R61, 18 R462; reset: none -/
  haltEnd : Option Nat := none
  /-- 16 b, 18 R462 PC; reset: 0 -/
  stepPc : Nat := 0
  /-- the coax output is sending a frame, 18 R464; reset: idle -/
  traceBusy : Bool := false
  /-- frames dropped, 18 R464; reset: 0 -/
  traceDrop : Nat := 0
  /-- 31 B, the frame that follows a DROPPED frame, 18 R464; reset: none -/
  traceNext : Option Bytes := none
deriving DecidableEq, Repr

/-- What the alarms of one instant did, until a higher class governs them (R472). -/
structure AlarmNow where
  /-- ns, the instant, 18 R472; reset: 0 -/
  at_ : Nat := 0
  /-- an ERASE or DESTROY was among them, 18 R472; reset: no -/
  erase : Bool := false
  /-- units that ABORT took out of dispatch, 18 R472; reset: none -/
  held : List Nat := []
  /-- holds before, 18 R472; reset: none -/
  holds : List (Nat × Option Nat) := []
  /-- classes suspended before, 18 R472; reset: none -/
  suspended : List Nat := []
deriving DecidableEq, Repr

/-- The tamper registers (auxiliary domain; R468 to R476). -/
structure Tamper where
  /-- 16 b, 18 R475 SENSOR; reset: 0 -/
  sensor : BitVec 16 := 0
  /-- class each set sensor bit was raised at, 18 R475 CLASS_SEEN; reset: none -/
  classOf : List (Nat × Nat) := []
  /-- 16 x 8 b, 18 R475 TAMPER_COUNT; reset: 0 -/
  counts : List Nat := List.replicate 16 0
  /-- 3 b, 18 R475 Q_CAUSE; reset: 0 -/
  qCause : Nat := 0
  /-- 1 b, 18 R473, 04 R111; reset: 0 -/
  quarantine : Bool := false
  /-- 1 b, 18 R470; reset: 0 -/
  destroyPending : Bool := false
  /-- non-volatile latch, 18 R475 SLEEP_LATCH; reset: 0 -/
  sleepLatch : Bool := false
  /-- a TAMPER event is due at the first SET_EVENT_RING, 18 R471; reset: no -/
  latchEvent : Bool := false
  /-- sensor, quadrant, ns since which clear, 18 R468; reset: none -/
  conds : List (Nat × Nat × Option Nat) := []
  /-- ABORT hold: unit id, sensor, 18 R468; reset: none -/
  holds : List (Nat × Option Nat) := []
  /-- classes of sensors 12, 13, 15 held in the auxiliary domain, 18 R467; reset: none (minimum) -/
  auxClass : List (Nat × Nat) := []
  /-- 16 x 32 b, 18 R475 TAMPER_RAW; reset: 0 -/
  raw : List Nat := List.replicate 16 0
  /-- ns of the last mismatches (FAULT_RATE), 18 R465; reset: none -/
  mismatches : List Nat := []
  /-- alarms of the present instant, 18 R472; reset: none -/
  now : AlarmNow := {}
  /-- an ERASE ends the token session as its instant ends, 18 R469; reset: no -/
  sessionOver : Bool := false
deriving DecidableEq, Repr

/-- The fault registers (auxiliary domain; R494). -/
structure FaultRegs where
  /-- 16 b, 19 R494 FAULT_STATUS; reset: 0 -/
  status : BitVec 16 := 0
  /-- 16 x 8 b, 19 R494 FAULT_COUNT; reset: 0 -/
  counts : List Nat := List.replicate 16 0
  /-- 1 b, 04 R111 DEGRADED; reset: 0 -/
  degraded : Bool := false
deriving DecidableEq, Repr

/-- An Almanac record before it is committed (R478). -/
structure AlmRec where
  /-- 32 b, 19 R478 -/
  powerCycle : Nat := 0
  /-- 24 b, 19 R478 -/
  hours : Nat := 0
  /-- 12 b, 19 R478 -/
  seconds : Nat := 0
  /-- 1 b, 19 R478 -/
  holdover : Bool := false
  /-- 1 b, 19 R478 -/
  auxTime : Bool := false
  /-- 1 b, 19 R478 -/
  test : Bool := false
  /-- 1 b, 19 R478 -/
  summary : Bool := false
  /-- 64 b, 19 R478 -/
  merNs : Nat := 0
  /-- 16 b, 19 R480 -/
  kind : Nat := 0
  /-- 16 b, 19 R481 -/
  source : Nat := 0
  /-- 8 b, 19 R480 -/
  severity : Nat := 1
  /-- 32 B, 19 R478 -/
  payload : Bytes := []
  /-- 32 b, 19 R478 EVENT_SEQ -/
  seq : Nat := 0
deriving DecidableEq, Repr

/-- An open coalescing window (R486). -/
structure CoalWin where
  /-- 16 b, 19 R486 -/
  kind : Nat := 0
  /-- 16 b, 19 R486 -/
  source : Nat := 0
  /-- ns, 19 R486 -/
  openAt : Nat := 0
  /-- the first repeat, 19 R486; reset: none -/
  first : Option AlmRec := none
  /-- the last repeat, 19 R486 -/
  last : AlmRec := {}
  /-- 32 b saturating, 19 R486; reset: 0 -/
  count : Nat := 0
deriving DecidableEq, Repr

/-- The Almanac path, the counters and the Eyepiece. -/
structure Almanac where
  /-- at most 256, 19 R482; reset: empty -/
  staging : List AlmRec := []
  /-- at most 4096, 19 R482; reset: empty -/
  queue : List AlmRec := []
  /-- 19 R486; reset: none -/
  windows : List CoalWin := []
  /-- KIND, 32 b count, 19 R488; reset: 0 -/
  overflow : List (Nat × Nat) := []
  /-- 16 b, 19 R491 QUEUE_DROPS; reset: 0 -/
  drops : Nat := 0
  /-- 32 b, 19 R478; reset: 0 -/
  eventSeq : Nat := 0
  /-- AUDIT records in the queue when main power was lost, 19 R487; reset: 0 -/
  lostCount : Nat := 0
  /-- 32 b, 19 R479; reset: 0 -/
  powerCycle : Nat := 0
  /-- 24 b, 19 R479; reset: 0 -/
  hours : Nat := 0
  /-- ns within the hour, 19 R479 SECONDS; reset: 0 -/
  hourNs : Nat := 0
  /-- ns since power-good deasserted (a 32 b count of seconds), 19 R479; reset: 0 -/
  offNs : Nat := 0
  /-- non-volatile copy of POWER_CYCLE, 19 R479; reset: 0 -/
  copyCycle : Nat := 0
  /-- non-volatile copy of HOURS, 19 R479; reset: 0 -/
  copyHours : Nat := 0
  /-- 18 b, 19 R491 ALM_CURSOR; reset: 0 -/
  cursor : Nat := 0
  /-- 1 b, 19 R491 LOADING; reset: 0 -/
  loading : Bool := false
  /-- 1 b, 19 R491 CLEARING; reset: 0 -/
  clearing : Bool := false
  /-- 64 B, 19 R491 ALM_WINDOW; reset: 0 -/
  window : Bytes := List.replicate 64 0
  /-- 16 b, 19 R491 ALM_OVF_SEL; reset: 0 -/
  ovfSel : Nat := 0
deriving DecidableEq, Repr

/-- The kernel-visible registers of a cluster with their secrecy tags (R393, R408). -/
structure RegSave where
  /-- 32 x 64 b, 16 R393; reset: 0 -/
  g : List (BitVec 64) := List.replicate 32 0
  /-- 32 x VLEN, 16 R393; reset: 0 -/
  v : List (BitVec 2048) := List.replicate 32 0
  /-- 8 x VLEN/8, 16 R393; reset: 0 -/
  m : List (BitVec 256) := List.replicate 8 0
  /-- 16 x 256 b, 16 R393; reset: 0 -/
  s : List (BitVec 256) := List.replicate 16 0
  /-- tagged g registers, 16 R393, R408; reset: untagged -/
  gTag : List Nat := []
  /-- tagged v registers, 16 R393, R408; reset: untagged -/
  vTag : List Nat := []
  /-- tagged m registers, 16 R393, R408; reset: untagged -/
  mTag : List Nat := []
  /-- tagged s registers, 16 R393, R408; reset: untagged -/
  sTag : List Nat := []
  /-- 0..256, 16 R395; reset: DESIGN CHOICE 0 (log 4) -/
  vl : Nat := 0
  /-- 2 b, 16 R395; reset: DESIGN CHOICE 0 (log 4) -/
  ew : Nat := 0
  /-- the code-word index kept with saved registers, 16 R420; reset: 0 -/
  pc : Nat := 0
  /-- 1, 2 or 3 shares of 1600 b, 16 R393, R405; reset: zero, plain -/
  kec : List (List (BitVec 64)) := [List.replicate 25 0]
deriving DecidableEq, Repr

/-- What a resident job sees of its cluster (R396, R416). -/
structure JobView where
  /-- 0..448, 16 R396 OPERAND_TILES; reset: 0 -/
  opTiles : Nat := 0
  /-- 0..32, 16 R421; reset: 0 -/
  windowTiles : Nat := 0
  /-- 0..256, 16 R396 CONST_RESIDENT; reset: 0 -/
  constTiles : Nat := 0
  /-- tile, 16 R396 first constant tile of the kernel; reset: 0 -/
  constBase : Nat := 0
  /-- 1 or 2, 16 R417 g5; reset: 1 -/
  order : Nat := 1
  /-- view address, 16 R416; reset: 0 -/
  outBase : Nat := 0
  /-- view address, 16 R416; reset: 0 -/
  keyOutBase : Nat := 0
  /-- bytes, 16 R417 g2; reset: 0 -/
  outCap : Nat := 0
  /-- COMPAT_Q4, 16 R413; reset: no -/
  compat : Bool := false
  /-- GF2 flag, 16 R421; reset: no -/
  gf2 : Bool := false
  /-- clusters of the gang, by member index, 16 R405, 13 R344; reset: none -/
  gang : List Nat := []
  /-- resident public key, 16 R405 FETCH source 0; reset: empty -/
  source0 : Bytes := []
  /-- windowed constant image, 16 R405 FETCH source 1; reset: empty -/
  source1 : Bytes := []
  /-- staged large input, 16 R405, R419; reset: empty -/
  source2 : Bytes := []
  /-- ns, 16 R420 NPS_NS; reset: 20000 -/
  nps : Nat := 20000
  /-- an owner operation, 16 R427; reset: no -/
  owner : Bool := false
  /-- ALG_ID of the ROM kernel that serves the job, 16 R421, R424; reset: none -/
  rom : Option Nat := none
deriving DecidableEq, Repr

/-- A job resident on a cluster: its saved registers when it is not the one running (R420). -/
structure Resid where
  /-- internal id, 16 R396 -/
  job : Nat := 0
  /-- 0..3, 16 R396 -/
  slot : Nat := 0
  /-- save area, 16 R420; reset: none -/
  saved : Option RegSave := none
  /-- FETCH copies outstanding: view address, source, source offset, bytes, 16 R405; reset: none -/
  window : List (Nat × Nat × Nat × Nat) := []
  /-- FAULT or a failed VERDICT CHECK, 16 R418; reset: no -/
  faulted : Bool := false
  /-- VERDICT JOB result, 16 R405; reset: none -/
  verdict : Option Bool := none
  /-- ns at which the current section began, 16 R420; reset: 0 -/
  yielded : Nat := 0
  /-- a gang member waiting at its YIELD, 16 R420; reset: no -/
  atYield : Bool := false
  /-- a gang member that reached END, 13 R344, 16 R418; reset: no -/
  ended : Bool := false
  /-- it stands at a YIELD, with nothing of the next section executed, 16 R420; reset: no -/
  point : Bool := false
  /-- grant of the job, 16 R396 -/
  view : JobView := {}
deriving DecidableEq, Repr

/-- The architectural state of one VCC (R393). -/
structure Cluster where
  /-- g, v, m, s, VL, EW, Keccak state and their tags, 16 R393; reset: zero, untagged -/
  regs : RegSave := {}
  /-- code-word index, 16 R400; reset: 0 -/
  pc : Nat := 0
  /-- element index, 16 R412; reset: 0 -/
  vresume : Nat := 0
  /-- 1 MiB, byte address in the cluster, 16 R396; reset: zero tiles (R398) -/
  tiles : List Host.Cell := []
  /-- 32 b each, the tiles whose check word is not the CRC-32C of their bytes, with the exclusive or of the two, 16 R397; reset: none -/
  badChecks : List (Nat × BitVec 32) := []
  /-- secret tiles, 16 R393; reset: none -/
  tileTags : List Nat := []
  /-- at most 4, 16 R396; reset: none -/
  resid : List Resid := []
  /-- a trap the supervisor is handling, 16 R414; reset: none -/
  trap : Option Trap := none
  /-- tiles already reloaded within this instruction, 16 R414; reset: none -/
  reloaded : List Nat := []
  /-- index of the running job's slot, 16 R396; reset: 0 -/
  grants : Nat := 0
  /-- the running kernel's modulus table, 16 R424; reset: none -/
  modulus : List ModEntry := []
deriving DecidableEq, Repr

/-- One MAE's private memory (R346). -/
structure MaeMem where
  /-- P0-P127, 256 words of 64 b each, 13 R346; reset: zero -/
  regs : List (Nat × Nat) := []
  /-- command buffer, at most 2,048 words of 64 b, 13 R345 (before R346); reset: zero -/
  program : List Nat := []
  /-- a command failed validation, 13 R347; reset: no -/
  rejected : Bool := false
  /-- END was executed, 13 R346; reset: no -/
  ended : Bool := false
  /-- job whose program runs, 13 R349; reset: none -/
  job : Option Nat := none
deriving DecidableEq, Repr

/-- The manager's mailbox block (R434). -/
structure MgrMbx where
  /-- 2 b, 17 R434; reset: 0 -/
  selType : Nat := 0
  /-- 12 b, 17 R434; reset: 0 -/
  selInst : Nat := 0
  /-- 1 b, 17 R434; reset: 0 -/
  enable : Bool := false
  /-- 11 b, 17 R434; reset: 0 -/
  vector : Nat := 0
  /-- 9 b, 17 R434 MGR_MBX_CTRL.IN_LEN; reset: 0 -/
  inLen : Nat := 0
  /-- 1 b, 17 R434 MGR_MBX_CTRL.OVERRUN; reset: 0 -/
  overrun : Bool := false
deriving DecidableEq, Repr

/-- Shared memories and reservations. -/
structure Mem where
  /-- bytes, 01 R27; reset: 0 -/
  holdBackUsed : Nat := 0
  /-- bytes of 4 GiB, 01 R16, R27; reset: 0 -/
  largeUsed : Nat := 0
  /-- bytes, 01 R31; reset: 0 -/
  bouquetUsed : Nat := 0
  /-- slot, bytes, last use, 01 R30; reset: empty -/
  pkCache : List (Nat × Nat × Nat) := []
  /-- slot, last use; at most 65,536, 01 R15; reset: empty -/
  keyCache : List (Nat × Nat) := []
  /-- holder of the elimination area, 12 R320; reset: free -/
  elimBy : Option Nat := none
  /-- GF(2) grant per quadrant, 12 R317; reset: free -/
  grants : List (Option Nat) := List.replicate 4 none
  /-- use counter, 01 R15; reset: 0 -/
  lruTick : Nat := 0
  /-- pools that a fence left with no unit in service, 19 R497; reset: none -/
  emptied : List Pool := []
deriving DecidableEq, Repr

/-- An admin command that completes later. -/
structure AdminWait where
  /-- name, 06 R169 -/
  fn : Fn := .pf0
  /-- what it waits for, 06 R169, 17 R439 -/
  kind : AdminKind := .quiesce
  /-- the instance acted on, 17 R439 -/
  target : Fn := .pf0
  /-- slot or count, 08 R231 -/
  arg : Nat := 0
  /-- 32 b, 06 R170 TAG -/
  tag : Nat := 0
  /-- jobs waited for, 08 R223, R230; OUTSIDE, 17 R436 -/
  count : Nat := 0
  /-- jobs whose writes have bits due, 17 R436 -/
  due : List Nat := []
  /-- 1 b, 17 R438 the log had failed as the command began -/
  failed : Bool := false
deriving DecidableEq, Repr

/-- The Yarca Q9 module. -/
structure State where
  /-- which part, 00 R2 (fixed as built); reset: YQ9-E3T16 (R1) -/
  part : Part := .yq9
  /-- ns, 02 R37 deadline clock; reset: DESIGN CHOICE 0 (log 4) -/
  clk : Nat := 0
  /-- 03; reset: see Power -/
  pwr : Power := {}
  /-- 04; reset: see Boot -/
  boot : Boot := {}
  /-- 04; reset: see Eph -/
  eph : Eph := {}
  /-- 02; reset: see Meridian -/
  mer : Meridian := {}
  /-- 05; reset: see LinkSt -/
  link : LinkSt := {}
  /-- 05 R119; reset: PF0 and PF1 -/
  fns : List FnState := [{ fn := .pf0 }, { fn := .pf1 }]
  /-- 17 R430; reset: none -/
  slices : List Slice := []
  /-- 17 R434; reset: 0 -/
  mgr : MgrMbx := {}
  /-- 06; reset: none -/
  sqs : List Sq := []
  /-- 06; reset: none -/
  cqs : List Cq := []
  /-- at most 8,192 in flight, 01 R26; reset: none -/
  jobs : List Job := []
  /-- fetch order, 01 R23; reset: 0 -/
  nextJob : Nat := 0
  /-- 06 R169; reset: none -/
  waits : List AdminWait := []
  /-- 16,777,216 entries, sparse, 01 R16; reset: all FREE -/
  slots : List Slot := []
  /-- 24,576 indices, sparse, 14 R367; reset: all free -/
  ctxs : List Ctx := []
  /-- 01 R14-R32; reset: see Mem -/
  mem : Mem := {}
  /-- enumerated at step 12, 04 R95; reset: none registered -/
  units : List UnitSt := []
  /-- 8 channels, 19 R498; reset: in service -/
  chans : List Chan := List.replicate 8 {}
  /-- 02 R65; reset: see Monitors -/
  mon : Monitors := {}
  /-- 32 clusters, 16 R393; reset: cleared -/
  vcc : List Cluster := List.replicate 32 {}
  /-- 4 engines, 13 R346; reset: cleared -/
  mae : List MaeMem := List.replicate 4 {}
  /-- 08 R209; reset: see Sc -/
  sc : Sc := {}
  /-- 09 R257; reset: see TokSt -/
  tok : TokSt := {}
  /-- 18 R455; reset: see Lifecycle -/
  lcs : Lifecycle := {}
  /-- 18 R458; reset: see Debug -/
  dbg : Debug := {}
  /-- 18 R475; reset: see Tamper -/
  tam : Tamper := {}
  /-- 19 R494; reset: see FaultRegs -/
  flt : FaultRegs := {}
  /-- 19 R482; reset: see Almanac -/
  alm : Almanac := {}
  /-- 05 R136; reset: see Doe -/
  doe : Doe := {}
  /-- what has left the module, oldest first, 05 R25; reset: empty -/
  out : List LinkMsg := []
  /-- the model's own counter of free values drawn, MODEL'S OWN field (log 2); reset: DESIGN CHOICE 0 (log 2) -/
  free : Nat := 0
  /-- commands waiting, first in first out, the block's queue (log 1); reset: empty -/
  pending : List Instr := []
deriving DecidableEq, Repr

/-- Reasons a step can stop with a fault. No command of this block stops it: every error the spec names is a status, an error
flag, a trap or a queue state, and is a next state; nothing raises this reason (safe). -/
inductive Fault where
  /-- Kept so that the type has a value; raised by nothing (safe). -/
  | none
deriving DecidableEq, Repr

/-- Reasons a command is refused. -/
inductive Refusal where
  /-- A command whose meaning this model does not give yet; raised by exec's arm of that command (safe). -/
  | notModelled (mnemonic : String)
deriving DecidableEq, Repr

/-- The module before its first power-good: every register at its reset value (R507, R508), the other fields as their lines in
INVENTORY.md say; nothing waits (log 1, log 4, log 7). -/
def State.reset : State := {}

end Sys2Proof.Machine
end

