-- ==== Sys2Proof/Machine/Ops.lean ====
section
/-!
DEFINITION. The shared operations of the block: its clocks, functions and slices, ring indices, posted writes with dirty logging,
MSI-X, event rings, Almanac records, trace frames, the sticky fault registers, and free values.
-/
namespace Sys2Proof.Machine

/-! ### Clocks (R36 to R38, R42) -/

/-- TRANSIT_NOW (R36). -/
def transitNow (s : State) : Nat := s.mer.ns / 1024

/-- The deadline clock in Transits (R38). -/
def clkTr (s : State) : Nat := s.clk / 1024

/-- Timestamps carry HOLDOVER (R42). -/
def holdoverNow (s : State) : Bool := s.mer.st != .locked || s.mer.slewing

/-! ### Free values (log 2) -/

/-- `n` fresh bytes of the random bit generators, and the state with the counter advanced. -/
def drawBytes (n : Nat) (s : State) : Bytes × State :=
  ((List.range n).map (fun i => Config.freeByte (s.free + i)), { s with free := s.free + n })

/-- A fresh number below `m` (0 for `m = 0`). -/
def drawNat (m : Nat) (s : State) : Nat × State := (Config.freeNat s.free % m, { s with free := s.free + 1 })

/-- A fresh 64-bit key id (R225). -/
def drawKeyId (s : State) : Nat × State := drawNat (2 ^ 64) s

/-- A mask-generator seed from the DRBG of a quadrant (R11, R18). -/
def drawSeed (q : Nat) (s : State) : Bytes × State :=
  (Config.drbgSeed q (s.sc.drbgs.getD q 0), { s with sc := { s.sc with drbgs := modAt s.sc.drbgs q (· + 1) } })

/-! ### Functions and slices -/

/-- The function or slice, if it exists. -/
def State.fn? (s : State) (f : Fn) : Option FnState := s.fns.find? (fun x => x.fn == f)

/-- The function or slice; one at reset values where it does not exist. -/
def State.fnOf (s : State) (f : Fn) : FnState := (s.fn? f).getD { fn := f }

/-- The function or slice changed through `g`. -/
def State.onFn (s : State) (f : Fn) (g : FnState → FnState) : State :=
  { s with fns := modFirst (fun x => x.fn == f) g s.fns }

/-- The slice record of a slice. -/
def State.slice? (s : State) (n : Nat) : Option Slice := s.slices.find? (fun x => x.num == n)

/-- The queue, if it exists. -/
def State.sq? (s : State) (f : Fn) (q : Nat) : Option Sq := s.sqs.find? (fun x => x.fn == f && x.id == q)
def State.cq? (s : State) (f : Fn) (q : Nat) : Option Cq := s.cqs.find? (fun x => x.fn == f && x.id == q)
def State.onSq (s : State) (f : Fn) (q : Nat) (g : Sq → Sq) : State :=
  { s with sqs := modFirst (fun x => x.fn == f && x.id == q) g s.sqs }
def State.onCq (s : State) (f : Fn) (q : Nat) (g : Cq → Cq) : State :=
  { s with cqs := modFirst (fun x => x.fn == f && x.id == q) g s.cqs }

/-- A job by its internal id. -/
def State.job? (s : State) (j : Nat) : Option Job := s.jobs.find? (fun x => x.id == j)
def State.onJob (s : State) (j : Nat) (g : Job → Job) : State := { s with jobs := modFirst (fun x => x.id == j) g s.jobs }

/-- A slot, context or unit by its index. -/
def State.slot? (s : State) (i : Nat) : Option Slot := s.slots.find? (fun x => x.idx == i)
def State.onSlot (s : State) (i : Nat) (g : Slot → Slot) : State := { s with slots := modFirst (fun x => x.idx == i) g s.slots }
def State.ctx? (s : State) (i : Nat) : Option Ctx := s.ctxs.find? (fun x => x.idx == i)
def State.onCtx (s : State) (i : Nat) (g : Ctx → Ctx) : State := { s with ctxs := modFirst (fun x => x.idx == i) g s.ctxs }
def State.unit? (s : State) (i : Nat) : Option UnitSt := s.units.find? (fun x => x.id == i)
def State.onUnit (s : State) (i : Nat) (g : UnitSt → UnitSt) : State := { s with units := modFirst (fun x => x.id == i) g s.units }

/-- Slice mode is in effect (R105, R121). -/
def sliceMode (s : State) : Bool := s.eph.configured && s.eph.cfg.slice == some true
/-- VF mode is in effect. -/
def vfMode (s : State) : Bool := s.eph.configured && s.eph.cfg.slice == some false

/-- A VF that is an instance and no function that merely enumerates: VF mode is in effect, VF Enable is set and its number is within the VF limit
(R121, R428). -/
def vfLives (s : State) (n : Nat) : Bool := vfMode s && s.link.vfEnable && n ≤ s.eph.cfg.vfLimit

/-- A live instance (R428). -/
def isInstance (s : State) : Fn → Bool
  | .vf n => vfLives s n && (s.fn? (.vf n)).isSome
  | .slice n => (s.slice? n).isSome && (s.fn? (.slice n)).isSome
  | _ => false

/-- MSI-X vectors that a function or slice has (R122, R176, R429). -/
def vectorsOf (s : State) : Fn → Nat
  | .vf _ => 64
  | .slice n => ((s.slice? n).map (fun x => x.vecCount)).getD 0
  | _ => 2048

/-- The key domain of an instance (R220, R428); `none` for PF0, PF1 and a VF that merely enumerates. -/
def domainOf (s : State) : Fn → Option Nat
  | .vf n => if vfLives s n then some n else none
  | .slice n => (s.slice? n).map (fun x => x.domain)
  | _ => none

/-- The number that names a function in frames and records (R464). -/
def fnCode : Fn → Nat
  | .slice n => 0x1000 + n
  | .vf n => 0x2000 + n
  | _ => 0

/-! ### Ring indices (R148, R149, R153) -/

/-- The slot and the wrap bit of a 17-bit index. -/
def idxSlot (v : Nat) : Nat := v % 65536
def idxWrap (v : Nat) : Nat := v / 65536 % 2
/-- The position of an index in a ring of depth `n` (R148). -/
def idxPos (n v : Nat) : Nat := idxWrap v * n + idxSlot v
/-- The index of a position. -/
def idxOf (n p : Nat) : Nat := (p / n % 2) * 65536 + p % n
/-- The next index. -/
def idxNext (n v : Nat) : Nat := idxOf n ((idxPos n v + 1) % (2 * n))
/-- `(b - a) mod 2N` (R149). -/
def idxDist (n a b : Nat) : Nat := (idxPos n b + 2 * n - idxPos n a) % (2 * n)
/-- The phase bit that goes with a tail (R153). -/
def phaseBit (v : Nat) : Nat := 1 - idxWrap v

/-! ### Output of the module -/

/-- A message leaves the module. -/
def emit (m : LinkMsg) (s : State) : State := { s with out := s.out ++ [m] }

/-! ### Requests (R119, R120, R125, R126, R130, R139) -/

/-- The PCIe function that carries an instance: PF1 for a slice (R126). -/
def carrier : Fn → Fn
  | .slice _ => .pf1
  | f => f

/-- The function whose control registers hold for an instance's requests, and whose AER logs its errors (R134): PF0 for a VF. -/
def governor : Fn → Fn
  | .vf _ => .pf0
  | f => carrier f

/-- The routing ID of a function (R119, R120, R126): VF n is function n + 1, which for VF 255 lies on the next bus. -/
def ridOf (s : State) (f : Fn) : Nat :=
  256 * s.link.bus + (match f with | .pf0 => 0 | .vf n => n + 1 | _ => 1)

/-- The upstream port routes the function's bus to the module: VF 255 needs bus N + 1 (R120). -/
def routed (s : State) (f : Fn) : Bool := f != .vf 255 || s.link.bus + 1 ≤ s.link.lastBus

/-- The PASID of an instance's requests: only slices send one (R126, R129). -/
def pasidOf (s : State) : Fn → Option Nat
  | .slice n => (s.slice? n).map (fun x => x.pasid)
  | _ => none

/-- Bytes of one write, and of one read request, within 512 B and 4 KiB (R125). -/
def maxPayload (s : State) (f : Fn) : Nat := 128 * 2 ^ min 2 (s.fnOf (governor f)).cfg.mps
def maxRead (s : State) (f : Fn) : Nat := 128 * 2 ^ min 5 (s.fnOf (governor f)).cfg.mrrs

/-- Non-posted requests that may be outstanding at once: 768, or what 8-bit tags allow (R125). -/
def outstandingMax (s : State) (f : Fn) : Nat := if (s.fnOf (governor f)).cfg.tag10 then 768 else 256

/-- The Secure stream that an address belongs to: an enabled block associates it (R139, R140). -/
def ideStreamOf (s : State) (addr : Nat) : Option Nat :=
  (s.doe.blocks.find? (fun (b : IdeBlock) =>
    b.on && s.doe.streams.any (fun x => x.id == b.id && x.secure) &&
      b.addrs.any (fun r => match r with | some (lo, hi) => lo ≤ addr && addr ≤ hi | none => false))).map (fun b => b.id)

/-- The header of an instance's request (R25, R125, R126, R130). -/
def tlpOf (s : State) (f : Fn) (addr : Nat) : Tlp :=
  { rid := ridOf s f, pasid := pasidOf s f, translated := (s.fnOf (carrier f)).atsEnable, ecrc := (s.fnOf (governor f)).cfg.ecrc,
    ide := ideStreamOf s addr }

/-- The header of a request, with its IDE sub-stream: 0 posted, 1 non-posted. -/
def requestOf : LinkMsg → Option (Tlp × Nat)
  | .memWrite h _ _ => some (h, 0)
  | .msix h _ _ _ => some (h, 0)
  | .memRead h _ _ => some (h, 1)
  | .casBits h _ _ => some (h, 1)
  | .atsRequest h _ => some (h, 1)
  | _ => none

/-- Requests of a stream's sub-stream since `n` messages had been sent. -/
def ideSent (s : State) (id sub n : Nat) : Nat :=
  ((s.out.drop n).filter (fun m => match requestOf m with | some (h, k) => h.ide == some id && k == sub | none => false)).length

/-- What the link carries of a request that a Secure stream protects: AES-GCM-256 under the key set in use, the IV counted on with each request,
over its data and, where enabled, their PCRC (R139; log 39). -/
def ideGuard (s : State) (h : Tlp) (sub addr : Nat) (body : Bytes) : Bytes :=
  match h.ide.bind (fun id => s.doe.streams.find? (fun x => x.id == id)) with
  | none => []
  | some x =>
    match x.active.find? (fun k => k.2 == (sub, false)) with
    | none => []
    | some k =>
      match x.mats.find? (fun m => m.1 == k) with
      | none => []
      | some m =>
        let from_ := ((x.since.find? (fun e => e.1 == k)).map (fun e => e.2)).getD 0
        let crc := if s.doe.blocks.any (fun b => b.id == x.id && b.pcrc) then Config.pcrc body else []
        gcmEnc m.2.1 (zeros 4 ++ leBytes 8 (leNat m.2.2 + ideSent s x.id sub from_)) (Config.tlpHeader h addr body.length) (body ++ crc) 12

/-- A memory write leaves, one request. -/
def sendWrite (f : Fn) (addr : Nat) (data : Bytes) (s : State) : State :=
  let h := tlpOf s f addr
  emit (.memWrite { h with guard := ideGuard s h 0 addr data } addr data) s

/-- A non-posted request leaves under the function's next tag: as many are in use as may be outstanding (R125). -/
def sendAsk (f : Fn) (addr : Nat) (h : Tlp) (m : Tlp → LinkMsg) (s : State) : State :=
  let h := { h with tag := some ((s.fnOf (carrier f)).nextTag % outstandingMax s f) }
  (emit (m { h with guard := ideGuard s h 1 addr [] }) s).onFn (carrier f) (fun x => { x with nextTag := x.nextTag + 1 })

/-- A run of bytes as requests of at most `max` bytes, none across a 4 KiB boundary: address and length of each. -/
def tlpRuns (max : Nat) : Nat → Nat → Nat → List (Nat × Nat)
  | 0, _, _ => []
  | n + 1, addr, len =>
    if len == 0 then []
    else
      let k := min len (min max (4096 - addr % 4096))
      (addr, k) :: tlpRuns max n (addr + k) (len - k)

/-- The pages of 4 KiB that `len` bytes from `addr` touch. -/
def pagesOf (addr len : Nat) : List Nat :=
  if len == 0 then [] else (List.range ((addr + len - 1) / 4096 - addr / 4096 + 1)).map (fun i => addr / 4096 + i)

/-- Room for one more cached translation: with 2,048 of them the oldest of the first function that has any goes (R130, DESIGN CHOICE of which,
log 37). -/
def atcRoom (s : State) : State :=
  if (s.fns.map (fun x => x.atc.length)).sum < 2048 then s
  else { s with fns := modFirst (fun (x : FnState) => !x.atc.isEmpty) (fun x => { x with atc := x.atc.drop 1 }) s.fns }

/-- The translation of one page is asked for where the function uses ATS and holds none (R130). -/
def translatePage (f : Fn) (page : Nat) (s : State) : State :=
  let x := s.fnOf (carrier f)
  if !x.atsEnable || x.atc.contains (pasidOf s f, page) then s
  else
    let s := sendAsk f (4096 * page) { tlpOf s f (4096 * page) with translated := false } (fun h => .atsRequest h page) (atcRoom s)
    s.onFn (carrier f) (fun x => { x with atc := x.atc ++ [(pasidOf s f, page)] })

/-- The translations of a run of bytes (R130). -/
def translate (f : Fn) (addr len : Nat) (s : State) : State := (pagesOf addr len).foldl (fun s p => translatePage f p s) s

/-- A posted write leaves as requests within Max Payload Size (R125). -/
def postWrite (f : Fn) (addr : Nat) (data : Bytes) (s : State) : State :=
  (tlpRuns (maxPayload s f) data.length addr data.length).foldl
    (fun s r => sendWrite f r.1 (sliceOf data (r.1 - addr) r.2) s) (translate f addr data.length s)

/-- A read leaves as requests within Max Read Request Size (R125); what it returns is an operand of the command that reads. -/
def postRead (f : Fn) (addr len : Nat) (s : State) : State :=
  (tlpRuns (maxRead s f) len addr len).foldl (fun s r => sendAsk f r.1 (tlpOf s f r.1) (fun h => .memRead h r.1 r.2) s) (translate f addr len s)

/-- The read of the entry at an SQ's head: 64 bytes at base + i × 64 (R146). -/
def fetchRead (f : Fn) (q : Nat) (s : State) : State :=
  match s.sq? f q with
  | some x => postRead f (x.base + idxSlot x.head * 64) 64 s
  | none => s

/-! ### AER (R134) -/

/-- The AER registers of a physical function changed. -/
def onAer (f : Fn) (g : Aer → Aer) (s : State) : State := s.onFn (governor f) (fun x => { x with cfg := { x.cfg with aer := g x.cfg.aer } })

/-- A status register with one more bit. -/
def withBit (v : BitVec 32) (n : Nat) : BitVec 32 := v ||| BitVec.ofNat 32 (2 ^ n)

/-- A correctable error (R134; bit numbers of PCIe, PRESUMED, log 37). -/
def aerCorrected (f : Fn) (bit : Nat) (s : State) : State := onAer f (fun a => { a with cor := withBit a.cor bit }) s

/-- An uncorrectable error: unless masked, the header log takes its routing ID, or has no room, which is Header Log Overflow (R134). -/
def aerFatal (f : Fn) (bit : Nat) (s : State) : State :=
  let rid := ridOf s f
  onAer f (fun a =>
    let b := { a with unc := withBit a.unc bit }
    if a.uncMask.getLsbD bit then b
    else if a.header.isNone then { b with header := some (bit, rid) }
    else { b with cor := withBit b.cor 15 }) s

/-- A read answered with Unsupported Request: an advisory non-fatal error (R128, R134). -/
def answerUr (f : Fn) (s : State) : State := aerCorrected f 13 (aerFatal f 20 (emit (.cplUr f) s))

/-- An error that a received packet meets: the packet is discarded and AER logs the error; the two ECC events of the PCIe block's own buffers are the
Internal Errors (R134; bit numbers of PCIe, PRESUMED, log 37). -/
def tlpError (f : Fn) (e : TlpError) (s : State) : State :=
  match e with
  | .malformed => aerFatal f 18 s
  | .ecrc => aerFatal f 19 s
  | .overflow => aerFatal f 17 s
  | .unexpected => aerFatal f 16 s
  | .completerAbort => aerFatal f 15 s
  | .bufferFatal => aerFatal f 22 s
  | .bufferCorrected => aerCorrected f 14 s

/-! ### Interrupts -/

/-- A vector's entry of the MSI-X table: address and data (R122). -/
def msixEntry (x : FnState) (v : Nat) : Nat × Nat := ((x.msixTable.find? (fun e => e.1 == v)).map (fun e => e.2)).getD (0, 0)

/-- The message of a vector: a write of its table entry's data to its address (R122, R132). -/
def sendMsix (f : Fn) (v : Nat) (s : State) : State :=
  let e := msixEntry (s.fnOf f) v
  let h := { tlpOf s f e.1 with translated := false }
  emit (.msix { h with guard := ideGuard s h 0 e.1 (leBytes 4 e.2) } v e.1 e.2) s

/-- MSI-X vector `v` of a function, or of a slice's range on PF1 (R132, R166): 0xFFFF is polled; a masked message stays pending;
nothing is sent while MSI-X Enable is 0, nor for a vector outside the instance's range, which no other instance's message may leave by (R429; log 39). -/
def signal (f : Fn) (v : Nat) (s : State) : State :=
  if v == 0xFFFF || v ≥ vectorsOf s f then s
  else
    let (t, vec) := match f with
      | .slice n => (Fn.pf1, v + ((s.slice? n).map (fun x => x.vecBase)).getD 0)
      | g => (g, v)
    let x := s.fnOf t
    if !x.msixEnable then s
    else if x.fnMask || !(x.unmasked.contains vec) then
      s.onFn t (fun y => { y with pba := if y.pba.contains vec then y.pba else y.pba ++ [vec] })
    else sendMsix t vec s

/-- The AtomicOp that sets bits of one word of a dirty bitmap, PF0's own (R126, R437). -/
def markWord (addr mask : Nat) (s : State) : State :=
  let s := translate .pf0 addr 8 s
  sendAsk .pf0 addr (tlpOf s .pf0 addr) (fun h => .casBits h addr mask) s

/-- A page that a bitmap covers (R437). -/
def DirtyMap.covers (d : DirtyMap) (p : Nat) : Bool := d.cover / 4096 ≤ p && p < d.cover / 4096 + 8 * d.len

/-- Written pages marked in a dirty bitmap: one AtomicOp for each of its words (R437). -/
def markMap (d : DirtyMap) (pages : List Nat) (s : State) : State :=
  let bits := (pages.filter d.covers).map (fun p => p - d.cover / 4096)
  let mask := fun (w : Nat) => ((bits.filter (fun b => b / 64 == w)).map (fun b => 2 ^ (b % 64))).foldl (· ||| ·) 0
  ((bits.map (fun b => b / 64)).eraseDups).foldl (fun s w => markWord (d.bitmap + 8 * w) (mask w) s) s

/-- The dirty log of an instance fails: no further bits are set (R438). -/
def failLog (f : Fn) (s : State) : State := s.onFn f (fun x => { x with dirty := { x.dirty with failed := true } })

/-- Bits for pages in bitmaps of an instance, each bitmap in turn; a failed log sets none. DESIGN CHOICE (log 39): PF0, whose AtomicOps they are, cannot
issue them while its Bus Master Enable is 0, so the log fails. -/
def markAll (f : Fn) (l : List (DirtyMap × Nat)) (s : State) : State :=
  if l.isEmpty || (s.fnOf f).dirty.failed then s
  else if !(s.link.up && (s.fnOf .pf0).busMaster) then failLog f s
  else ((l.map (fun e => e.1)).eraseDups).foldl (fun s d => markMap d ((l.filter (fun e => e.1 == d)).map (fun e => e.2)) s) s

/-- The pages of a write, for the bitmap in use; none while the log is off or has failed (R437, R438). -/
def dirtyPages (s : State) (f : Fn) (addr len : Nat) : List (DirtyMap × Nat) :=
  let d := (s.fnOf f).dirty
  if d.enabled && !d.failed then (pagesOf addr len).map (fun p => (d.map, p)) else []

/-- A write that falls outside the range that a dirty log covers is counted, by a failed log too (R436). -/
def countOutside (f : Fn) (addr len : Nat) (s : State) : State :=
  let d := (s.fnOf f).dirty
  if d.enabled && (pagesOf addr len).any (fun p => !(d.map.covers p)) then
    s.onFn f (fun y => { y with dirty := { y.dirty with outside := sat32 y.dirty.outside } })
  else s

/-- Dirty logging of one write by an instance (R436, R437). -/
def dirtyMark (f : Fn) (addr len : Nat) (s : State) : State := countOutside f addr len (markAll f (dirtyPages s f addr len) s)

/-- The pages that a job has written are marked as it ends, once for each word of a bitmap (R437). -/
def flushDirty (id : Nat) (s : State) : State :=
  match s.job? id with
  | some j => (markAll j.fn j.dirty s).onJob id (fun j => { j with dirty := [] })
  | none => s

/-- A posted write of an admin command's output, logged after it (R25, R437). -/
def writeOut (f : Fn) (addr : Nat) (data : Bytes) (s : State) : State :=
  if data.isEmpty then s else dirtyMark f addr data.length (postWrite f addr data s)

/-- A posted write of a ring entry, logged before it (R437): 32 aligned bytes, one request. -/
def writeRing (f : Fn) (addr : Nat) (data : Bytes) (s : State) : State :=
  sendWrite f addr data (translate f addr data.length (dirtyMark f addr data.length s))

/-! ### Event rings (R178 to R180) -/

/-- The bytes of an event record (R179). -/
def eventBytes (s : State) (kind source detail value dropped tail : Nat) : Bytes :=
  leBytes 2 kind ++ leBytes 2 source ++ leBytes 4 detail ++ leBytes 8 value ++ leBytes 4 dropped ++ leBytes 3 (transitNow s) ++
    [byteOf (bitAt (holdoverNow s) 0)] ++ zeros 7 ++ [byteOf (phaseBit tail)]

/-- An event is written to the function's ring, or dropped and counted (R178 to R180). -/
def ringEvent (f : Fn) (kind source detail value : Nat) (s : State) : State :=
  match s.fn? f with
  | none => s
  | some x =>
    let e := x.evr
    let n := 2 ^ e.log2
    if !e.present || e.stopped || idxDist n e.head e.tail ≥ n then
      s.onFn f (fun y => { y with evr := { y.evr with droppedReg := sat32 e.droppedReg, droppedPrev := sat32 e.droppedPrev } })
    else
      let b := eventBytes s kind source detail value e.droppedPrev e.tail
      let s := writeRing f (e.base + idxSlot e.tail * 32) b s
      let s := s.onFn f (fun y => { y with evr := { y.evr with tail := idxNext n e.tail, droppedPrev := 0 } })
      signal f e.vector s

/-- An event for the rings of every function and slice. -/
def ringEventAll (kind detail value : Nat) (s : State) : State :=
  s.fns.foldl (fun s x => ringEvent x.fn kind 0xFFFF detail value s) s

/-! ### The Almanac (R477 to R490) -/

/-- The severity of a kind (R480): 1 INFO, 2 WARN, 3 FAULT, 4 ALARM; `none` for a code that is no kind. -/
def kindSeverity (k : Nat) : Option Nat :=
  if k == 0x0109 || k == 0x0201 || k == 0x0301 || k == 0x0302 || k == 0x0303 || k == 0x0305 || k == 0x0306 || k == 0x0307 || k == 0x0401 then some 1
  else if (0x0101 ≤ k && k ≤ 0x0108) || k == 0x0202 || k == 0x0304 || k == 0x0308 || (0x0402 ≤ k && k ≤ 0x0404) || k == 0x0501 || k == 0x0605 || k == 0x0607 then some 2
  else if k == 0x0502 || (0x0601 ≤ k && k ≤ 0x0604) || k == 0x0606 || (0x0608 ≤ k && k ≤ 0x060F) then some 3
  else if k == 0x0701 then some 4 else none

/-- An overflow counter raised (R488). -/
def overflowUp (kind : Nat) (s : State) : State :=
  let old := ((s.alm.overflow.find? (fun x => x.1 == kind)).map (fun x => x.2)).getD 0
  { s with alm := { s.alm with overflow := (s.alm.overflow.filter (fun x => x.1 != kind)) ++ [(kind, sat32 old)] } }

/-- The list without its last element that `p` accepts. -/
def dropLastWhere {α : Type} (p : α → Bool) (l : List α) : List α :=
  (((l.reverse.takeWhile (fun x => !(p x))) ++ (l.reverse.dropWhile (fun x => !(p x))).drop 1)).reverse

/-- The last element that `p` accepts. -/
def lastWhere {α : Type} (p : α → Bool) (l : List α) : Option α := l.reverse.find? p

/-- A record goes into its buffer (R482, R483). -/
def bufferRecord (r : AlmRec) (s : State) : State :=
  if r.severity ≥ 3 then
    if s.alm.staging.length < 256 then { s with alm := { s.alm with staging := s.alm.staging ++ [r] } }
    else if r.severity == 4 then
      match lastWhere (fun x => x.severity == 3) s.alm.staging with
      | some old =>
        overflowUp old.kind { s with alm := { s.alm with staging := dropLastWhere (fun x => x.severity == 3) s.alm.staging ++ [r] } }
      | none => overflowUp r.kind s
    else overflowUp r.kind s
  else if s.alm.queue.length < 4096 then { s with alm := { s.alm with queue := s.alm.queue ++ [r] } }
  else
    let drop := fun (k : Nat) (s : State) => overflowUp k { s with alm := { s.alm with drops := satAt 0xFFFF (s.alm.drops + 1) } }
    if r.severity == 2 then
      match lastWhere (fun x => x.severity == 1) s.alm.queue with
      | some old => drop old.kind { s with alm := { s.alm with queue := dropLastWhere (fun x => x.severity == 1) s.alm.queue ++ [r] } }
      | none => drop r.kind s
    else drop r.kind s

/-- The record of an event that happens now (R478, R479). -/
def makeRecord (kind source : Nat) (payload : Bytes) (test : Bool) (s : State) : AlmRec :=
  let off := !s.pwr.pg
  let p := payload ++ zeros (32 - payload.length)
  { powerCycle := s.alm.powerCycle, hours := s.alm.hours, seconds := s.alm.hourNs / 1000000000, holdover := holdoverNow s,
    auxTime := off, test := test, merNs := s.mer.ns, kind := kind, source := source, severity := (kindSeverity kind).getD 1,
    payload := if off then overwrite p 24 (leBytes 4 (s.alm.offNs / 1000000000)) else p.take 32, seq := s.alm.eventSeq }

/-- An event is accepted: EVENT_SEQ rises; MIN_SEVERITY may exclude it; it joins an open window of its kind and source, or is
recorded and opens one (R478, R486, R490). -/
def raiseEvent (kind source : Nat) (payload : Bytes) (s : State) (test : Bool := false) : State :=
  let s := { s with alm := { s.alm with eventSeq := sat32 s.alm.eventSeq } }
  let r := makeRecord kind source payload test s
  if r.severity < s.eph.cfg.minSeverity then s
  else if s.alm.windows.any (fun w => w.kind == kind && w.source == source) then
    let upd : CoalWin → CoalWin := fun w => { w with first := some (w.first.getD r), last := r, count := sat32 w.count }
    { s with alm := { s.alm with windows := modFirst (fun w => w.kind == kind && w.source == source) upd s.alm.windows } }
  else
    bufferRecord r { s with alm := { s.alm with windows := s.alm.windows ++ [{ kind := kind, source := source, openAt := s.clk }] } }

/-- A FAULT_STATUS bit is set and counted (R484, R494). -/
def setFault (bit : Nat) (s : State) : State :=
  { s with flt := { s.flt with status := s.flt.status ||| BitVec.ofNat 16 (2 ^ bit), counts := modAt s.flt.counts bit sat8 } }

/-- A fault: the sticky bit, then the record (R484). -/
def faultEvent (bit kind source : Nat) (payload : Bytes) (s : State) (test : Bool := false) : State :=
  raiseEvent kind source payload (setFault bit s) test

/-! ### Trace frames (R464, R485) -/

/-- One byte of CRC-16/CCITT-FALSE. -/
def crc16Byte (c : BitVec 16) (b : Byte) : BitVec 16 :=
  (List.range 8).foldl (fun c _ => if c.msb then (c <<< 1) ^^^ 0x1021 else c <<< 1) (c ^^^ (b.setWidth 16 <<< 8))

/-- CRC-16/CCITT-FALSE (R464). -/
def crc16 (bs : Bytes) : BitVec 16 := bs.foldl crc16Byte 0xFFFF

/-- The fields of a trace frame that depend on the event (R464). -/
structure TraceEv where
  kind : Nat
  unit : Nat := 0
  inst : Nat := 0
  sq : Nat := 0
  value : Nat := 0
  opcode : Nat := 0
  status : Nat := 0
  cls : Nat := 0
  flags : Nat := 0
deriving DecidableEq, Repr

/-- The 31 data bytes of a frame (R464). -/
def frameBytes (s : State) (e : TraceEv) : Bytes :=
  let b := [byteOf e.kind, byteOf e.unit] ++ leBytes 4 (transitNow s) ++ leBytes 2 e.inst ++ leBytes 2 e.sq ++ leBytes 4 e.value ++
    leBytes 2 e.opcode ++ leBytes 2 e.status ++ [byteOf e.cls, byteOf e.flags] ++ zeros 9
  b ++ leBytes 2 (crc16 b).toNat

/-- UNIT of a frame from a unit id (R464, R481): pool in bits [7:6], number in bits [5:0]. -/
def frameUnit (id : Nat) : Nat := (id / 256 % 4) * 64 + id % 64

/-- Trace frames are generated: TRACE_READ is active and the coax is in trace mode (R485). -/
def traceOn (s : State) : Bool := s.dbg.active.getLsbD 0 && s.mer.coaxTrace

/-- A frame is sent, dropped and counted, or suppressed while the event queue is filling. After drops a DROPPED frame goes first, and the frame follows
it (R464, R485). -/
def trace (e : TraceEv) (s : State) : State :=
  let dropped := { s with dbg := { s.dbg with traceDrop := sat32 s.dbg.traceDrop } }
  if !(traceOn s) then s
  else if e.kind ≤ 3 && 100 * s.alm.queue.length ≥ s.eph.cfg.traceSuppress * 4096 then dropped
  else if s.dbg.traceBusy then dropped
  else if s.dbg.traceDrop > 0 then
    emit (.trace (frameBytes s { kind := 6, value := s.dbg.traceDrop })) { s with dbg := { s.dbg with traceBusy := true, traceDrop := 0, traceNext := some (frameBytes s e) } }
  else emit (.trace (frameBytes s e)) { s with dbg := { s.dbg with traceBusy := true } }

/-! ### Units (R11, R481) -/

def vccId (n : Nat) : Nat := n
def bceId (n : Nat) : Nat := 0x100 + n
def dgeId (n : Nat) : Nat := 0x200 + n
def maeId (n : Nat) : Nat := 0x300 + n
/-- The pool of a unit id, for units of the four pools. -/
def poolOfUnit (id : Nat) : Option Pool :=
  match id / 256 with
  | 0 => some .vcc
  | 1 => some .bce
  | 2 => some .dge
  | 3 => some .mae
  | _ => none
/-- How many units of a pool the part has. -/
def built (p : Part) : Pool → Nat
  | .vcc => Config.nVcc p
  | .bce => Config.nBce p
  | .dge => Config.nDge p
  | .mae => Config.nMae p
/-- The unit class of a pool (R481). -/
def poolClass : Pool → Nat
  | .vcc => 0
  | .bce => 1
  | .dge => 2
  | .mae => 3
/-- The quadrant of a unit (R11): index order, spread as evenly as the count allows; the YQ7's MAE1 and the YQ5's second engines lie in
Q2. -/
def quadrantOf (p : Part) (id : Nat) : Nat :=
  match poolOfUnit id with
  | some q => let n := built p q; if n == 0 then 0 else id % 256 * 4 / n
  | none => 0xFF
/-- Units of a pool in service. -/
def inService (s : State) (p : Pool) : Nat := (s.units.filter (fun u => poolOfUnit u.id == some p && u.st == .inService)).length

/-- The pool has been left without a unit: a fence left it none in service, or every one is fenced or withheld. An ABORT hold alone, after
which units come back, does not empty a pool (R468, R497; log 26). -/
def poolDead (s : State) (p : Pool) : Bool :=
  s.mem.emptied.contains p || !(s.units.any (fun u => poolOfUnit u.id == some p && (u.st == .inService || u.st == UnitState.heldTamper)))

/-- The mask generator of a unit has reached 2^20 blocks: it switches to the seed fetched before, and fetches the next from its quadrant's DRBG
while that runs (R11, R18, R20). -/
def reseedMask (u : Nat) (s : State) : State :=
  let d := if s.sc.drbgOn then drawSeed (quadrantOf s.part u) s else ([], s)
  d.2.onUnit u (fun (x : UnitSt) => { x with maskBlocks := x.maskBlocks - 2 ^ 20, maskSeed := x.maskNext, maskNext := d.1 })

end Sys2Proof.Machine
end

