-- ==== Sys2Proof/Machine/Admission.lean ====
section
/-!
DEFINITION. Operation sets, the charge of an operation for its class, the blocking terms, the admission check, and the rerun after a
fence (R47 to R49, R55 to R60, R110, R423).
-/
namespace Sys2Proof.Machine

/-- A descriptor that carries an operation-set entry: opcode, PARAM_SET, ALG_FAMILY or program id, and an input length. -/
def entryDesc (e : OpEntry) (len : Nat) : Bytes :=
  overwrite (overwrite (overwrite (overwrite (zeros 64) 0 (leBytes 2 e.op)) 5 (leBytes 3 e.ps)) 24 (leBytes 4 len)) 52
    (if e.op == 0x4001 then [0, byteOf e.fam] else if e.op == 0x2310 then leBytes 2 e.fam else if e.op == 0x4101 then leBytes 4 len else [])

/-- An operation byte of an owner package (R427). -/
def isOwnerOp (op : Nat) : Bool := op % 256 ≥ 0x80 && ((0x10 ≤ op / 256 && op / 256 ≤ 0x15) || op / 256 == 0x22)

/-- A KEYGEN's ALG_FAMILY is one that KEYGEN serves (R223). -/
def keygenFamily (f : Nat) : Bool := f == 0 || f == 0x10 || f == 0x11 || f == 0x12 || f == 0x14 || f == 0x20 || f == 0x21 || f == 0x22

/-- PARAM_SET of an operation of the BCE, DGE or MAE pool is one of its chapter's (R223, R229, R238, R330, R337, R346, R356, R374, R382). A VCC
operation's is judged by its WCET entry (R58). -/
def entryParamOk (e : OpEntry) : Bool :=
  let op := e.op
  let ps := e.ps
  if op == 0x4001 then (if e.fam == 0 then ps == 0 else if e.fam == 0x20 then rsaParamOk true ps else e.fam != 0x21 || (1 ≤ ps && ps ≤ 3))
  else if 0x2001 ≤ op && op ≤ 0x2004 then rsaParamOk (op == 0x2001 || op == 0x2003) ps
  else if op / 256 == 0x21 then 1 ≤ ps && ps ≤ 3
  else if 0x2301 ≤ op && op ≤ 0x2306 then 1 ≤ ps && ps ≤ 256
  else if 0x3001 ≤ op && op ≤ 0x3013 then symParamOk op ps
  else if op == 0x3020 then (List.range 0x13).any (fun i => symParamOk (0x3001 + i) ps && (ctxS (0x3001 + i) || ctxT (0x3001 + i)))
  else if 0x3101 ≤ op && op ≤ 0x3106 then digestFnOk op ps
  else if op == 0x3120 then (List.range 6).any (fun i => digestFnOk (0x3101 + i) ps)
  else if op / 256 == 0x32 then ((hashFn ps).map (fun f => f.merkle)).getD false
  else if op == 0x2310 || poolOfOp (entryDesc e 0) == some .vcc then true
  else ps == 0

/-- The pools that run an operation of an operation set (R105): one of a service chapter with a PARAM_SET of that chapter, or an owner's; the
Bouquet belongs to two, ERASE to none. -/
def entryPools (e : OpEntry) : List Pool :=
  if e.op == 0x3801 then (if e.ps == 0 then [.bce, .dge] else [])
  else if isOwnerOp e.op || (knownOp e.op && (e.op != 0x4001 || keygenFamily e.fam) && entryParamOk e) then (poolOfOp (entryDesc e 0)).toList
  else []

/-- The operation entry of a loaded package that serves an opcode and PARAM_SET (R422, R427). -/
def kernelOp (ks : List KernelPkg) (op ps : Nat) : Option (KernelPkg × KOp) :=
  ks.findSome? (fun k => if k.mae || k.family != op / 256 then none
    else (k.ops.find? (fun o => o.opbyte == op % 256 && o.ps == ps)).map (fun o => (k, o)))

/-- The part has what a package needs: the GF(2) unit for one that names it, and for every job of family 0x14 (R4, R309). -/
def pkgPresent (p : Part) (k : KernelPkg) : Bool := Config.gf2 p || !(k.gf2 || k.family == 0x14)

/-- The WCET entry of a package for an operation on this part at an order, or at order 0 (R423). DESIGN CHOICE: where the package holds both,
the one listed first (log 37). -/
def kernelWcet (p : Part) (k : KernelPkg) (op ps order : Nat) : Option KWcet :=
  k.wcets.find? (fun w => w.opbyte == op % 256 && w.ps == ps && w.vlen == Config.vlen p / 256 && (w.order == order || w.order == 0))

/-- The loaded program that RUN names (R348, R349). -/
def maeProgram (ks : List KernelPkg) (alg : Nat) : Option KernelPkg := ks.find? (fun k => k.mae && k.algId == alg)

/-- The charge of a program (R349). -/
def maeProgramCharge (k : KernelPkg) : Nat :=
  cyclesNs 2000 ((k.code.map (fun w => maeCycles (bitsOf w 56 8) (bitsOf w 48 8 + 1))).sum)

/-- What a program takes and returns, from its operand map (R348, R349, R427). -/
def maeProgramShape (k : KernelPkg) : RunShape :=
  { inLen := (k.map.map (fun m => if m.1 == 1 then m.2.2.2 + 8 * m.2.2.1 else 0)).foldl max 0,
    outLen := (k.map.map (fun m => if m.1 == 3 then 8 * m.2.2.1 else 0)).sum,
    keyed := k.map.any (fun m => m.1 == 2), charge := maeProgramCharge k }

/-- A WCET entry that the manual does not print (log 5); its non-preemptible section is at most 20,000 ns, and its mask bits per cycle at
most 256, for the factory image passes (R55, R110, R423). -/
def printedNot (op fam ps order : Nat) : Nat × Nat × Nat :=
  let x := Config.lesserWcet op fam ps order
  (x.1, min x.2 20000, 0)

/-- WCET, non-preemptible section and mask bits per cycle of a VCC operation: a loaded package's entry, or the ROM's (R107, R423, HASH_SIGN
with the time to hash its input R292;
log 5 for the lesser parts and for QUOTE). `none`: no entry. -/
def vccEntry (p : Part) (ks : List KernelPkg) (e : OpEntry) (order len : Nat) : Option (Nat × Nat × Nat) :=
  match kernelOp ks e.op e.ps with
  | some (k, o) => (kernelWcet p k e.op e.ps order).map (fun w => (w.wcet + w.perKib * ceilDiv (min len o.inMax) 1024, w.nps, w.maskBpc))
  | none =>
    if isOwnerOp e.op then none
    else if e.op == 0x4202 then (if e.ps == 0 then some (printedNot e.op 0 0 order) else none)
    else match romWcet e.op e.fam e.ps order with
      | some x =>
        if p == .yq9 then some (x.1 + (if e.op == 0x1203 then Config.clusterHashNs (min len 65536) else 0), x.2, 0)
        else some (printedNot e.op e.fam e.ps order)
      | none => none

/-- Clusters that an operation is accounted as occupying (R317, R344, R423). -/
def entryFactor (p : Part) (ks : List KernelPkg) (e : OpEntry) : Nat :=
  match kernelOp ks e.op e.ps with
  | some (k, _) => if k.gf2 then Config.nVcc p / 4 else if k.gang == 2 then 4 else if k.gang == 1 then 2 else 1
  | none => vccFactor p e.op e.fam e.ps

/-- The functions that a CTX_OPEN of a PARAM_SET may open and that take AAD (R354, R356, R364). -/
def openFuncs (ps : Nat) : List Nat :=
  ((List.range 0x13).map (fun i => 0x3001 + i)).filter (fun f => (isAead f || isGmac f) && symParamOk f ps && (if psStream ps then ctxT f else ctxS f))

/-- The largest charged length that a BCE or DGE operation accepts (R49, R224, R358, R364, R382). -/
def entryMaxLen (e : OpEntry) (lmax : Nat) : Nat :=
  match e.op with
  | 0x4001 => 208
  | 0x4002 => 408
  | 0x4003 | 0x4004 => min lmax 16464
  | 0x3020 => if (openFuncs e.ps).isEmpty then 0 else min lmax 65536
  | 0x300C => min lmax (ccmLimit e.ps + 65536)
  | 0x300D => min lmax (ccmLimit e.ps + psTag e.ps + 65536)
  | 0x3021 | 0x3121 | 0x3122 | 0x3123 | 0x4005 => 0
  | 0x3120 => min lmax (match hashFn e.ps with
    | some f => (if f.hmac || f.kmac then f.block else 0) + (if e.ps == 0x0C || e.ps == 0x0D then 64 else 0) + (if e.ps ≥ 0x0C then 255 else 0)
    | none => 0)
  | 0x300E | 0x3010 => min lmax 4096
  | 0x300F | 0x3011 => min lmax 4104
  | 0x4101 => min lmax 268435456
  | 0x4201 | 0x4203 => min lmax 32
  | 0x3204 => min lmax (65 * ((hashFn e.ps).map (fun f => f.out)).getD 0)
  | _ => lmax

/-- The rate r_f that counts for an operation at admission: XTS at its lower rate, since DU_LEN is the job's, CTX_OPEN at the lowest of the functions
that its PARAM_SET may open (log 16). Closing, exporting and importing a context have none (R364, R382, R383). -/
def entryRate (e : OpEntry) (order : Nat) : Option Rate :=
  if e.op == 0x3021 || e.op == 0x3121 || e.op == 0x3122 || e.op == 0x3123 then none
  else if e.op == 0x3020 then
    match (openFuncs e.ps).map (fun f => bceRate f 0 order) with
    | [] => none
    | r :: rs => some (rs.foldl Rate.lower r)
  else some (jobRate (entryDesc e 0) (zeros 64) order)

/-- The lowest of the rates of some operations, each at an order. -/
def lowestRate (es : List (Nat × OpEntry)) : Rate :=
  ((es.filter (fun x => x.2.op != 0x3801)).filterMap (fun x => entryRate x.2 x.1)).foldl Rate.lower ⟨1000000, 1⟩

/-- The charge of an operation of a class in a pool (R49): WCET entry times its clusters, MAE charge, or 200 ns + L / r_f. -/
def entryCharge (p : Part) (ks : List KernelPkg) (e : OpEntry) (order lmax : Nat) : Nat :=
  match poolOfOp (entryDesc e 0) with
  | some .vcc => ((vccEntry p ks e order 0xFFFFFFFF).map (fun x => x.1)).getD 0 * entryFactor p ks e
  | some .mae => if e.op == 0x2310 then ((maeProgram ks e.fam).map maeProgramCharge).getD 0 else maeCharge e.op e.fam e.ps
  | some _ =>
    let l := entryMaxLen e lmax
    let blk := if e.op == 0x3203 then leBytes 4 64 ++ zeros 20 else if e.op == 0x3204 then zeros 8 ++ leBytes 8 0 ++ leBytes 8 (2 ^ 63) else zeros 64
    if e.op == 0x3020 then ((entryRate e order).map (atRate 200 l)).getD 200 else streamCharge (entryDesc e l) blk order l
  | none => 0

/-- Every operation that a ROM of the part offers in a pool, for the factory operation set (R110). -/
def allEntries (p : Part) (pool : Pool) : List OpEntry :=
  let up := fun (lo n : Nat) => (List.range n).map (fun i => lo + i)
  let ops := fun (os pss : List Nat) => os.flatMap (fun o => pss.map (fun q => ({ op := o, ps := q } : OpEntry)))
  let kg := fun (f : Nat) (pss : List Nat) => pss.map (fun q => ({ op := 0x4001, fam := f, ps := q } : OpEntry))
  match pool with
  | .vcc =>
    ops [0x1001, 0x1002] (up 1 3) ++ kg 0x10 (up 1 3) ++ ops [0x1101, 0x1102, 0x1103, 0x1104] (up 1 3) ++ kg 0x11 (up 1 3) ++
    ops [0x1201, 0x1202, 0x1203, 0x1204] (up 1 12) ++ kg 0x12 (up 1 12) ++
    ops [0x1301, 0x1303, 0x1304] ((up 1 4).flatMap (fun l => [5, 10, 15].flatMap (fun h => (up 1 16).map (fun o => l * 65536 + h * 256 + o)))) ++
    ops [0x1302] ((up 0 9).flatMap (fun l => [5, 10, 15, 20, 25].flatMap (fun h => (up 1 16).map (fun o => l * 65536 + h * 256 + o)))) ++
    (if Config.gf2 p then
      ops [0x1401, 0x1402, 0x1403] (up 1 10 ++ up 0x11 3) ++ kg 0x14 (up 1 10 ++ up 0x11 3) ++
      ops [0x1501, 0x1502, 0x1503] ((up 1 10).flatMap (fun c => (0x10000 + c * 256) :: (up 1 3).map (fun m => 0x30000 + c * 256 + m)))
     else []) ++
    ops [0x1501, 0x1502, 0x1503] ((up 1 3).map (fun m => 0x20000 + m)) ++
    ops [0x2201] [1, 2] ++ ops [0x2202, 0x2203] [3, 4] ++ kg 0x22 (up 1 4) ++ [{ op := 0x4202 }]
  | .mae =>
    if Config.nMae p == 0 then [] else
      ops [0x2001, 0x2003] [32, 48, 64] ++ ops [0x2002, 0x2004] (up 0x10 241) ++ ops [0x2101, 0x2102, 0x2103] (up 1 3) ++
      ops [0x2301, 0x2302, 0x2303, 0x2304, 0x2305, 0x2306] (up 1 256) ++ kg 0x20 [32, 48, 64] ++ kg 0x21 (up 1 3)
  | .bce => [0x3001, 0x3002, 0x3004, 0x3006, 0x3007, 0x300A, 0x300B, 0x300C, 0x300D, 0x300E, 0x300F, 0x3010, 0x3011, 0x3012, 0x3013, 0x4001, 0x4003,
      0x4004, 0x4101].map (fun o => ({ op := o } : OpEntry))
  | .dge => (up 1 0x1F).flatMap (fun f => if (hashFn f).isSome then [({ op := 0x3101, ps := f } : OpEntry), { op := 0x3203, ps := f }] else []) ++
      [{ op := 0x4002 }, { op := 0x4201 }]

/-- The part has the units of an operation; an enable of one that it lacks has no effect (R4, R6). -/
def entryPresent (p : Part) (ks : List KernelPkg) (e : OpEntry) : Bool :=
  if isOwnerOp e.op then ((kernelOp ks e.op e.ps).map (fun x => pkgPresent p x.1)).getD true else unitPresent p (entryDesc e 0)

/-- The operations that an entry of the configuration enables, for the arithmetic (R6). -/
def poolEntries (p : Part) (ks : List KernelPkg) (order : Nat) (c : PoolCfg) : List OpEntry :=
  if c.all then (allEntries p c.pool).filter (fun e => entryCharge p ks e order c.lmax ≤ c.cap) else c.ops.filter (entryPresent p ks)

/-- The configuration of a class and of a class in a pool. -/
def classOf (c : EphCfg) (n : Nat) : Option ClassCfg := c.classes.find? (fun x => x.num == n)
def poolCfgOf (c : EphCfg) (n : Nat) (p : Pool) : Option PoolCfg := c.pools.find? (fun x => x.cls == n && x.pool == p)
/-- The masking order of a class. -/
def orderOf (c : EphCfg) (n : Nat) : Nat := ((classOf c n).map (fun x => x.order)).getD 1

/-- The lowest rate among the functions of a class in the two streaming pools (R49). -/
def classSlowest (p : Part) (ks : List KernelPkg) (c : EphCfg) (n : Nat) : Rate :=
  let es := [Pool.bce, Pool.dge].flatMap (fun q => ((poolCfgOf c n q).map (poolEntries p ks (orderOf c n))).getD [])
  lowestRate (es.map (fun e => (orderOf c n, e)))

/-- The class WCET C_c in a pool (R49). -/
def classWcet (p : Part) (ks : List KernelPkg) (c : EphCfg) (pc : PoolCfg) : Nat :=
  let o := orderOf c pc.cls
  ((poolEntries p ks o pc).map (fun e =>
    if e.op == 0x3801 then atRate 200 pc.lmax (classSlowest p ks c pc.cls) else entryCharge p ks e o pc.lmax)).foldl max 0

/-- The blocking term B_p (R55): entries with a rate above 0 count, those of suspended classes included. -/
def blocking (p : Part) (ks : List KernelPkg) (c : EphCfg) (pool : Pool) : Nat :=
  let es := (c.pools.filter (fun x => x.pool == pool && x.rho > 0)).flatMap (fun x => (poolEntries p ks (orderOf c x.cls) x).map (fun e => (orderOf c x.cls, e)))
  match pool with
  | .vcc => (es.map (fun x => ((vccEntry p ks x.2 x.1 0).map (fun y => y.2.1)).getD 0)).foldl max 0
  | .mae => (es.map (fun x => entryCharge p ks x.2 x.1 0)).foldl max 0
  | _ =>
    let r := lowestRate es
    max 500 (ceilDiv (4096 * r.den) r.num + 150) + 1000

/-- The demand and burst sums of R56 over the active classes: ΣρC and ΣσC. -/
def poolSums (p : Part) (ks : List KernelPkg) (c : EphCfg) (susp : List Nat) (pool : Pool) : Nat × Nat :=
  let act := c.pools.filter (fun x => x.pool == pool && x.rho > 0 && !(susp.contains x.cls))
  ((act.map (fun x => x.rho * classWcet p ks c x)).sum, (act.map (fun x => x.sigma * classWcet p ks c x)).sum)

/-- Condition (1) of R56, exactly: U_p is at most 0.85. -/
def utilOk (n demand : Nat) : Bool := 20 * demand ≤ 17 * n * 1000000000 && (n > 0 || demand == 0)

/-- Q_p of R56, rounded up once. -/
def queueBound (n demand burst : Nat) : Nat := ceilDiv (burst * 1000000000) (n * 1000000000 - demand)

/-- The classes of a pool that fail condition (2), in ascending number. -/
def deadlineFails (p : Part) (ks : List KernelPkg) (c : EphCfg) (susp : List Nat) (n : Nat) (pool : Pool) : List Nat :=
  let (dm, bu) := poolSums p ks c susp pool
  let q := queueBound n dm bu
  let b := blocking p ks c pool
  (List.range 16).filter (fun k =>
    match poolCfgOf c k pool, classOf c k with
    | some x, some y => x.rho > 0 && !(susp.contains k) && y.d * 1024 < classWcet p ks c x + b + q
    | _, _ => false)

/-- A pool passes R56. -/
def poolPasses (p : Part) (ks : List KernelPkg) (c : EphCfg) (susp : List Nat) (n : Nat) (pool : Pool) : Bool :=
  let act := c.pools.any (fun x => x.pool == pool && x.rho > 0 && !(susp.contains x.cls))
  !act || (n > 0 && utilOk n (poolSums p ks c susp pool).1 && (deadlineFails p ks c susp n pool).isEmpty)

/-- The pools in the order of R57. -/
def poolOrder : List Pool := [.vcc, .bce, .dge, .mae]

/-- The first item of a list at which the running sum first exceeds a limit (R58). -/
def firstOver (lim : Nat) : List (Nat × Nat) → Nat → Option Nat
  | [], _ => none
  | (i, v) :: r, acc => if acc + v > lim then some i else firstOver lim r (acc + v)

/-- The resource conflicts of R58, in table order: code and item; MASK_RANDOMNESS speaks of what a class enables (R55), and neither it nor
WCET_MISSING of what the part lacks (R6). `quotas`: item, slots, queues; `coax` and `split`: item and
conflict. -/
def resourceConflict (p : Part) (ks : List KernelPkg) (c : EphCfg) (coax split : Option Nat) (slots queues : List (Nat × Nat)) : Option (Nat × Nat) :=
  match coax with
  | some i => some (0x21, i)
  | none =>
  match split with
  | some i => some (0x22, i)
  | none =>
  match firstOver 16777216 slots 0 with
  | some i => some (0x23, i)
  | none =>
  match firstOver 65536 queues 0 with
  | some i => some (0x24, i)
  | none =>
  let vs := c.pools.filter (fun x => x.pool == .vcc && !x.all)
  let bad := fun (f : PoolCfg → OpEntry → Bool) => (vs.find? (fun x => x.ops.any (fun e => entryPresent p ks e && f x e))).map (fun x => x.item)
  match bad (fun x e => x.rho > 0 && match vccEntry p ks e (orderOf c x.cls) 0 with | some y => y.2.2 > 256 | none => false) with
  | some i => some (0x25, i)
  | none =>
  match bad (fun x e => (vccEntry p ks e (orderOf c x.cls) 0).isNone) with
  | some i => some (0x26, i)
  | none => none

/-- Conditions (1) and (2) of one pool at load (R57): the code and the item of the failure. -/
def poolFailure (p : Part) (ks : List KernelPkg) (c : EphCfg) (n : Nat) (pool : Pool) : Option (Nat × Nat) :=
  let act := c.pools.filter (fun x => x.pool == pool && x.rho > 0)
  if act.isEmpty then none
  else if n == 0 || !(utilOk n (poolSums p ks c [] pool).1) then
    let top := (act.map (fun x => x.cls)).foldl max 0
    some (0x27, ((poolCfgOf c top pool).map (fun x => x.item)).getD 0xFFFF)
  else match deadlineFails p ks c [] n pool with
    | k :: _ => some (0x28, ((classOf c k).map (fun x => x.item)).getD 0xFFFF)
    | [] => none

/-- The class that a rerun suspends next (R59): the unsuspended class of lowest rank among those that budget a failing pool. -/
def nextSuspend (p : Part) (ks : List KernelPkg) (c : EphCfg) (susp : List Nat) (n : Pool → Nat) : Option Nat :=
  let failing := poolOrder.filter (fun q => !(poolPasses p ks c susp (n q) q))
  let cands := c.classes.filter (fun x => !(susp.contains x.num) && failing.any (fun q => ((poolCfgOf c x.num q).map (fun y => decide (y.rho > 0))).getD false))
  (cands.foldl (fun (b : Option ClassCfg) x => match b with | some y => if x.rank < y.rank then some x else some y | none => some x) none).map (fun x => x.num)

/-- Suspensions, one at a time, until every pool passes (R59). -/
def rerunLoop (p : Part) (ks : List KernelPkg) (c : EphCfg) (n : Pool → Nat) : Nat → List Nat → List Nat
  | 0, susp => susp
  | f + 1, susp => match nextSuspend p ks c susp n with
    | some k => rerunLoop p ks c n f (susp ++ [k])
    | none => susp

/-- The admission rerun (R59): DEGRADED, the suspended classes, their record and events, and the causes of pending jobs. -/
def rerunAdmission (pool : Pool) (s : State) : State :=
  let susp := rerunLoop s.part s.eph.kernels s.eph.cfg (inService s) 17 s.eph.suspended
  let fresh := susp.filter (fun k => !(s.eph.suspended.contains k))
  let s := { s with eph := { s.eph with suspended := susp, rerunAt := transitNow s }, flt := { s.flt with degraded := true },
                    jobs := s.jobs.map (fun j => if fresh.contains j.cls then { j with late0 := { j.late0 with suspended := true } } else j) }
  let mask := (fresh.map (fun k => 2 ^ k)).sum
  let s := if fresh.isEmpty then s else raiseEvent 0x0501 0xFF00 (leBytes 2 mask ++ [byteOf (poolClass pool)]) s
  ringEventAll 0x0010 ((susp.map (fun k => 2 ^ k)).sum) 0 s

end Sys2Proof.Machine
end

