-- ==== Sys2Proof/Machine/Finish.lean ====
section
/-!
DEFINITION. How a job ends: release of what it holds, its completion entry, the holding area, monitors, interrupts, CQ-full
episodes, early ends, fences and re-execution (R22, R25, R61, R63, R153 to R166, R190 to R202, R494 to R498, R511).
-/
namespace Sys2Proof.Machine

/-! ### Tiles, pins, slots and contexts -/

/-- A cluster's memory with the tiles of a resident slot wiped (R396, R398). -/
def wipeSlot (slot : Nat) (c : Cluster) : Cluster :=
  let lo := 256 + 448 * slot
  { c with tiles := c.tiles.filter (fun x => !(lo * 512 ≤ x.1 && x.1 < (lo + 448) * 512)),
           badChecks := c.badChecks.filter (fun x => !(lo ≤ x.1 && x.1 < lo + 448)),
           tileTags := c.tileTags.filter (fun t => !(lo ≤ t && t < lo + 448)) }

/-- A job leaves a cluster: its slot is wiped and, where it was the running one, the registers are cleared (R398). -/
def leaveCluster (job : Nat) (c : Cluster) : Cluster :=
  match c.resid.find? (fun r => r.job == job) with
  | none => c
  | some r =>
    let c' := wipeSlot r.slot { c with resid := c.resid.filter (fun x => x.job != job) }
    if r.saved.isNone then { c' with regs := {}, pc := 0, vresume := 0, trap := none, reloaded := [], modulus := [] } else c'

/-- One reference to the material of generation `g` drops (R218). -/
def unpinSlot (g : Nat) (x : Slot) : Slot :=
  if x.matGen == g then { x with pins := x.pins - 1 }
  else { x with copies := (x.copies.map (fun c => if c.gen == g then { c with pins := c.pins - 1 } else c)).filter (fun c => c.pins > 0) }

/-- One reference more to the current material. -/
def pinSlot (x : Slot) : Slot := { x with pins := x.pins + 1 }

/-- A generation one higher, up to 0xFFFF (R217). -/
def genUp (g : Nat) : Nat := if g ≥ 0xFFFF then g else g + 1

/-- A slot without its key; its generation stays (R217, R225). -/
def freeSlot (x : Slot) : Slot :=
  { idx := x.idx, gen := x.gen, matGen := x.matGen, changed := x.changed, channel := x.channel }

/-- A context destroyed: its index returns with the generation raised (R372). -/
def killCtx (x : Ctx) : Ctx := { idx := x.idx, gen := x.gen + 1 }

/-- The end of a job on its context (R370, R372): no longer busy; destroyed where the job or its key destroys it. -/
def endCtx (destroy : Bool) (x : Ctx) : Ctx :=
  if x.live && (destroy || x.keyGone) then killCtx x else { x with busy := false }

/-- Units stop working for a job; the busy time goes into the pool's counter (R65). -/
def freeUnits (job : Nat) (s : State) : State :=
  let mine := s.units.filter (fun u => u.job == some job)
  let spent := fun (i : Nat) => ((mine.filter (fun u => u.id / 256 == i)).map (fun u => s.clk - u.busySince)).sum
  let addBusy := fun (i : Nat) (m : PoolMon) => { m with busy := satAt (2 ^ 64 - 1) (m.busy + spent i) }
  { s with units := s.units.map (fun u => if u.job == some job then { u with job := none } else u),
           mon := { s.mon with poolLive := s.mon.poolLive.mapIdx addBusy },
           mae := s.mae.map (fun m => if m.job == some job then {} else m),
           mem := { s.mem with grants := s.mem.grants.map (fun g => if g == some job then none else g) } }

/-- The halt of a job ends with it; when it ended stays noted (R61, R462). -/
def endHalt (job : Nat) (s : State) : Debug :=
  if s.dbg.halted == some job then { s.dbg with halted := none, stepOne := false, haltEnd := some s.clk } else s.dbg

/-- A job's resources return (R200, R511): units, tiles, MAE memory, grants, the elimination area, staging, pins, a halt. -/
def releaseJob (j : Job) (s : State) : State :=
  let s := freeUnits j.id s
  let s := j.pins.foldl (fun s p => s.onSlot p.1 (unpinSlot p.2)) s
  { s with vcc := s.vcc.map (leaveCluster j.id),
           mem := { s.mem with holdBackUsed := s.mem.holdBackUsed - j.holdBack, largeUsed := s.mem.largeUsed - j.largeStage,
                               bouquetUsed := s.mem.bouquetUsed - j.bouquetBuf,
                               elimBy := if s.mem.elimBy == some j.id then none else s.mem.elimBy },
           dbg := endHalt j.id s }

/-- What a job that did not end OK gives back besides: its new slot (R225). -/
def dropNew (j : Job) (s : State) : State :=
  if dOp j.desc == 0x4005 then s
  else match j.newSlot with
    | some i => s.onSlot i freeSlot
    | none => s

/-! ### Completion entries (R153 to R158, R195) -/

def Cq.depth (c : Cq) : Nat := 2 ^ c.log2
/-- Entries written and not yet released (R151). -/
def Cq.used (c : Cq) : Nat := idxDist c.depth c.head c.tail
/-- The ring has a free slot (R157). -/
def Cq.room (c : Cq) : Bool := c.used < c.depth
def Sq.depth (q : Sq) : Nat := 2 ^ q.log2
/-- The head moves past the oldest visible entry, where there is one (R146). -/
def Sq.pass (q : Sq) : Sq := if q.arrivals.isEmpty then q else { q with head := idxNext q.depth q.head, arrivals := q.arrivals.drop 1 }

/-- The inline result as 8 bytes. -/
def inline8 (b : Bytes) : Bytes := sliceZ b 0 8

/-- The 32 bytes of a completion entry (R195, R196). -/
def entryBytes (s : State) (c : Completion) (late : Bool) (sq head tail : Nat) : Bytes :=
  match c.fixed with
  | some b => overwrite b 31 [byteOf (phaseBit tail)]
  | none =>
    leBytes 4 c.tag ++ leBytes 2 c.status.code ++
      leBytes 2 (bitAt late 0 + bitAt c.restarted 1 + bitAt c.poisoned 2 + bitAt (holdoverNow s) 3) ++
      leBytes 4 c.bytes ++ inline8 c.inline ++ leBytes 3 (transitNow s) ++ [0] ++ leBytes 2 sq ++ leBytes 2 (idxSlot head) ++
      zeros 3 ++ [byteOf (phaseBit tail)]

/-- The histogram bin of a latency (R63): bin `k` begins at floor(2^(7 + k/4)). -/
def histBin (lat : Nat) : Nat := ((List.range 63).map (fun k => k + 1)).foldl (fun b k => if (lat + 1) ^ 4 > 2 ^ (28 + k) then k else b) 0

/-- The miss counter of a late job (R61), first that applies. -/
def missUp (l : LateCause) (m : ClassMon) : ClassMon :=
  if l.suspended then { m with missSuspended := sat32 m.missSuspended }
  else if l.debug then { m with missDebug := sat32 m.missDebug }
  else if l.budget then { m with missBudget := sat32 m.missBudget }
  else if l.cqFull then { m with missCqFull := sat32 m.missCqFull }
  else if l.resource then { m with missResource := sat32 m.missResource }
  else { m with missGuaranteed := sat32 m.missGuaranteed }

/-- One completion in a class's counters (R63). -/
def classUp (lat : Nat) (late : Option LateCause) (m : ClassMon) : ClassMon :=
  let m' := match late with | some l => missUp l m | none => m
  { m' with latMin := min m.latMin lat, latMax := max m.latMax (satAt 0xFFFFFFFF lat), count := satAt (2 ^ 64 - 1) (m.count + 1),
            sum := satAt (2 ^ 64 - 1) (m.sum + lat), hist := modAt m.hist (histBin lat) sat32 }

/-- IR_COUNT of a class, raised with the entry of a DECAPS that rejected implicitly (R284, R315). -/
def irUp (implicit : Bool) (m : ClassMon) : ClassMon := if implicit then { m with irCount := sat32 m.irCount } else m

/-- One completion in an SQ's counters (R63, R64). -/
def sqUp (lat : Nat) (q : Sq) : Sq :=
  { q with latMin := min q.latMin lat, latMax := max q.latMax (satAt 0xFFFFFFFF lat), count := satAt (2 ^ 64 - 1) (q.count + 1) }

/-- The CQ's vector is signalled and its counts restart (R166). -/
def signalCq (f : Fn) (q : Nat) (s : State) : State :=
  match s.cq? f q with
  | none => s
  | some c => signal f c.vector (s.onCq f q (fun c => { c with sinceSig := 0, firstUnsig := none }))

/-- The SOURCE of a queue event (R179). -/
def queueSource (q : Nat) : Nat := if q == 0xFFFF then 0xFFFF else q

/-- After a write the ring may be full: a CQ-full episode begins (R158). -/
def beginEpisode (f : Fn) (q : Nat) (s : State) : State :=
  match s.cq? f q with
  | none => s
  | some c =>
    if c.room || c.episode then s
    else ringEvent f 0x0003 (queueSource q) 0 c.tail (s.onCq f q (fun c => { c with episode := true }))

/-- An episode ends when the ring has room and nothing is held; the entries that it kept from being fetched are marked (R158,
R159). -/
def endEpisode (f : Fn) (q : Nat) (s : State) : State :=
  match s.cq? f q with
  | none => s
  | some c =>
    if c.episode && c.room && c.held.isEmpty then
      { s.onCq f q (fun c => { c with episode := false }) with
        sqs := s.sqs.map (fun x => if x.fn == f && x.cq == q then { x with fullStop := x.arrivals.length } else x) }
    else s

/-- A credit returns: to the first held completion without one, else to the queue (R156, R511). -/
def returnCredit (c : Cq) : Cq :=
  if c.held.any (fun h => !h.credited) then { c with held := modFirst (fun h => !h.credited) (fun h => { h with credited := true }) c.held }
  else { c with credits := c.credits + 1 }

/-- The place of a job is given up; at the limit of R26 fetching had stopped, and the entries it stopped are marked. -/
def releasePlace (j : Job) (s : State) : State :=
  let n := (s.jobs.filter (fun x => x.inPlace)).length
  let s' := { s with jobs := s.jobs.filter (fun x => x.id != j.id) }
  if j.inPlace && n ≥ 8192 then { s' with sqs := s'.sqs.map (fun x => { x with limitStop := max x.limitStop x.arrivals.length }) } else s'

/-- The entry goes into the ring slot at the tail, which is free (R153, R157), with the interrupt rules of R166. -/
def putEntry (f : Fn) (q : Nat) (b : Bytes) (sig : Bool) (s : State) : State :=
  match s.cq? f q with
  | none => s
  | some c =>
    if !c.room then s else
    let s := writeRing f (c.base + idxSlot c.tail * 32) b s
    let s := s.onCq f q (fun c => { c with tail := idxNext c.depth c.tail, sinceSig := c.sinceSig + 1, firstUnsig := some (c.firstUnsig.getD s.clk) })
    if sig || c.sinceSig + 1 ≥ max c.k 1 then signalCq f q s else s

/-- A completion is written (steps 9 and 10): ring entry, credit, monitors, trace frame, place. -/
def writeCompletion (f : Fn) (q : Nat) (job : Option Job) (credited : Bool) (c : Completion) (s : State) : State :=
  let sqid := match job with | some j => j.sq | none => 0xFFFF
  let head := ((s.sq? f sqid).map (fun x => x.head)).getD 0
  let tail := ((s.cq? f q).map (fun x => x.tail)).getD 0
  let late := match job with | some j => decide (clkTr s > j.deadline) | none => false
  let b := entryBytes s c late sqid head tail
  let s := putEntry f q b (match job with | some j => dSignal j.desc | none => false) s
  let s := if credited then s.onCq f q returnCredit else s
  let s := match job with
    | none => s
    | some j =>
      let lat := s.clk - j.arrival
      let cause := { j.late0 with suspended := j.late0.suspended || s.eph.suspended.contains j.cls }
      let s := { s with mon := { s.mon with live := modAt s.mon.live j.cls (irUp c.implicit ∘ classUp lat (if late then some cause else none)) } }
      let s := s.onSq f j.sq (sqUp lat)
      let s := trace { kind := 2, unit := frameUnit (j.units.headD 0), inst := fnCode f, sq := j.sq, value := c.tag, opcode := dOp j.desc,
                       status := c.status.code, cls := j.cls, flags := byteAt b 6 } s
      releasePlace j s
  beginEpisode f q s

/-- The completion of an admin command (R170). -/
def adminDone (f : Fn) (tag : Nat) (st : Status) (inline : Bytes) (s : State) : State :=
  match s.cq? f 0xFFFF with
  | some c => if c.st == .enabled then writeCompletion f 0xFFFF none false { tag := tag, status := st, inline := inline } s else s
  | none => s

/-- OUTSIDE and the failed flag (R436). -/
def dirtyInline (outside : Nat) (failed : Bool) : Bytes := leBytes 4 outside ++ [byteOf (bitAt failed 0)]

/-- A DIRTY_LOG of an instance whose due bits have all been set (R436). -/
def dirtyOver (s : State) (f : Fn) (w : AdminWait) : Bool :=
  w.kind == .dirtyLog && w.target == f && !(s.jobs.any (fun j => w.due.contains j.id && !j.dirty.isEmpty))

/-- DIRTY_LOG (OP in `arg`) completes: a failed log fails SYNC and DISABLE, which then change nothing; else DISABLE turns the log off and SYNC counts
from here (R436, R438). -/
def dirtyDone (w : AdminWait) (s : State) : State :=
  let d := (s.fnOf w.target).dirty
  let off : Job → Job := fun j => if j.fn == w.target then { j with dirty := [] } else j
  if w.arg == 1 then adminDone w.fn w.tag .ok (dirtyInline w.count (w.failed || d.failed)) s
  else if d.failed then adminDone w.fn w.tag .translationFault [0x31, 0, 0, 0, 1] s
  else
    adminDone w.fn w.tag .ok (dirtyInline w.count false)
      (if w.arg == 0 then { s.onFn w.target (fun x => { x with dirty := {} }) with jobs := s.jobs.map off }
       else s.onFn w.target (fun x => { x with dirty := { x.dirty with outside := x.dirty.outside - w.count } }))

/-- The DIRTY_LOGs of an instance that wait for nothing more complete. -/
def dirtyChecks (f : Fn) (s : State) : State :=
  let ended := s.waits.filter (dirtyOver s f)
  ended.foldl (fun s w => dirtyDone w s) { s with waits := s.waits.filter (fun w => !(dirtyOver s f w)) }

/-- The bits due for a job's writes are set as it ends, and a DIRTY_LOG that waited for them completes (R436, R437). -/
def settleDirty (f : Fn) (id : Nat) (s : State) : State := dirtyChecks f (flushDirty id s)

/-- Held completions are written in order while slots are free; one without a credit is passed over until it has taken one
(R157, R511). -/
def drainHeld (f : Fn) (q : Nat) : Nat → State → State
  | 0, s => s
  | n + 1, s =>
    match s.cq? f q with
    | none => s
    | some c =>
      if c.st != .enabled || !c.room || (s.fnOf f).quiesced then s
      else match c.held.find? (fun h => h.credited) with
        | none => s
        | some h =>
          let s := s.onCq f q (fun c => { c with held := (c.held.takeWhile (fun x => !x.credited)) ++ ((c.held.dropWhile (fun x => !x.credited)).drop 1) })
          drainHeld f q n (writeCompletion f q (s.job? h.job) true h.entry s)

/-- Drains the holding area, then ends the episode if it may. -/
def drainCq (f : Fn) (q : Nat) (s : State) : State :=
  match s.cq? f q with
  | none => s
  | some c => endEpisode f q (drainHeld f q (c.held.length + 1) s)

/-- A finished job's completion, after the bits of its dirty pages (R437): written now where its CQ has room and nothing is held before it, else held; the credit that a written entry
gives back may let a held one follow (R157, R511). -/
def deliver (j : Job) (c : Completion) (s : State) : State :=
  let s := settleDirty j.fn j.id s
  match s.cq? j.fn j.cq with
  | none => { s with jobs := s.jobs.filter (fun x => x.id != j.id) }
  | some q =>
    let take := !j.credit && q.credits > 0
    let s := if take then s.onCq j.fn j.cq (fun q => { q with credits := q.credits - 1 }) else s
    let credited := j.credit || take
    let j := { j with credit := credited, phase := .done, pastEnd := true, dirty := [] }
    let s := s.onJob j.id (fun _ => j)
    if credited && q.st == .enabled && q.room && !(q.held.any (fun h => h.credited)) && !(s.fnOf j.fn).quiesced then
      drainCq j.fn j.cq (writeCompletion j.fn j.cq (some j) true c s)
    else
      let s := s.onJob j.id (fun j => { j with late0 := { j.late0 with cqFull := true } })
      s.onCq j.fn j.cq (fun q => { q with held := q.held ++ [{ job := j.id, credited := credited, entry := c }] })

/-! ### Ends -/

/-- BYTES of a job that fails: the highest offset that any execution streamed to; of a Bouquet the input bytes consumed (R193, R208). -/
def failBytes (j : Job) : Nat := if dOp j.desc == 0x3801 then max j.taken j.streamed else j.streamed

/-- The completion of a job with a status other than OK, with what it streamed (R193, R195, R208). -/
def failEntry (j : Job) (st : Status) (inline : Bytes) : Completion :=
  { tag := j.tag, status := st, restarted := j.restarted, poisoned := j.streamed > 0, bytes := failBytes j, inline := inline }

/-- INLINE of a Bouquet that fails in the stage `i` (R208). -/
def stageInline (j : Job) (i : Nat) : Bytes := if dOp j.desc == 0x3801 then [byteOf i, byteOf (dSpec j.desc 52)] else []

/-- INLINE of a Bouquet that fails as a whole (R208). -/
def wholeInline (j : Job) : Bytes := stageInline j 0xFE

/-- The unit that a Bouquet's stage holds: one BCE per CIPHER stage, one DGE per DGE stage, in stage order (R207). -/
def stageUnit (j : Job) (i : Nat) : Option Nat :=
  let rs := stages j.block
  match rs[i]? with
  | none => none
  | some r => match stagePool r with
    | none => none
    | some p => (j.units.filter (fun u => poolOfUnit u == some p))[((rs.take i).filter (fun q => stagePool q == some p)).length]?

/-- INLINE of a job that the failure of a unit ends: of a Bouquet the stage that the unit served (R208). -/
def unitInline (j : Job) (u : Nat) : Bytes :=
  match (List.range (stages j.block).length).find? (fun i => stageUnit j i == some u) with
  | some i => stageInline j i
  | none => wholeInline j

/-- Is the job a segment, CTX_CLOSE or STATE_EXPORT: does it name a context? -/
def isSegment (d : Bytes) : Bool := ((0x3001 ≤ dOp d && dOp d ≤ 0x3013) || (0x3101 ≤ dOp d && dOp d ≤ 0x3106)) && dSeg d != 0
def namesCtx (d : Bytes) : Bool := isSegment d || dOp d == 0x3021 || dOp d == 0x3121 || dOp d == 0x3122

/-- The job leaves new chaining state in its context: a segment, CTX_OPEN or STATE_IMPORT. -/
def writesCtx (d : Bytes) : Bool := isSegment d || dOp d == 0x3020 || dOp d == 0x3120 || dOp d == 0x3123

/-- An end with this status destroys the context that the job named: every end of a job that writes it, and the early ends of R200 for every
job (R200, R372). -/
def losesCtx (j : Job) (st : Status) : Bool :=
  writesCtx j.desc || st == .abortedHost || st == .abortedTamper || st == .abortedFault || st == .lengthMismatch || st == .translationFault

/-- One job ends with a failure: resources and new slot returned, its context destroyed (R200, R372). -/
def failOne (j : Job) (c : Completion) (s : State) : State :=
  let s := dropNew j (releaseJob j s)
  let s := match j.ctx with | some i => s.onCtx i (endCtx (losesCtx j c.status)) | none => s
  deliver j c s

/-- Bytes [63:0] of a context's record (R366). -/
def ctxRecord (engine func handle key keyId param order total segment nonce : Nat) : Bytes :=
  ascii "YQCX" ++ [1, byteOf engine] ++ leBytes 2 func ++ leBytes 8 handle ++ leBytes 8 key ++ leBytes 8 keyId ++ leBytes 3 param ++ [byteOf order] ++
    leBytes 8 total ++ leBytes 4 segment ++ zeros 4 ++ leBytes 12 nonce

/-- A context that is left open with new chaining state is wrapped again, under the next WRAP_NONCE (R366). -/
def wrapCtx (j : Job) (s : State) : State :=
  match j.ctx.bind s.ctx? with
  | some c =>
    if c.live && writesCtx j.desc then
      let n := s.sc.wrapNonce + 1
      State.onCtx { s with sc := { s.sc with wrapNonce := n } } c.idx (fun c => { c with nonce := n })
    else s
  | none => s

/-- One job ends OK: its new slot stays, its context stays open unless the job closes it (R225, R372). -/
def okOne (j : Job) (c : Completion) (s : State) : State :=
  let s := wrapCtx j (releaseJob j s)
  let s := match j.ctx with | some i => s.onCtx i (endCtx false) | none => s
  deliver j c s

/-- The PREPARE jobs that wait for the one that is building their key's cache (R302). -/
def followers (j : Job) (s : State) : List Job :=
  if dOp j.desc == 0x1303 && (j.phase == .running || j.phase == .preempted) then
    s.jobs.filter (fun x => x.id != j.id && dOp x.desc == 0x1303 && dKey x.desc == dKey j.desc && x.phase == .waitStaging)
  else []

/-- A job ends with a failure, and the jobs that wait for its outcome with the same status (R200, R302). -/
def failJob (j : Job) (c : Completion) (s : State) : State :=
  (followers j s).foldl (fun s x => failOne x (failEntry x c.status []) s) (failOne j c s)

/-- A job ends OK, and the jobs that wait for its outcome (R302). -/
def okJob (j : Job) (c : Completion) (s : State) : State :=
  (followers j s).foldl (fun s x => okOne x { tag := x.tag } s) (okOne j c s)

/-- A job that failed a check of R189 ends: its context is left as it was, or ends with its key (R190, R372). -/
def checkedOut (j : Job) (c : Completion) (s : State) : State :=
  let s := dropNew j (releaseJob j s)
  let s := match j.ctx with | some i => s.onCtx i (endCtx false) | none => s
  deliver j c s

/-- A job ends with a failure wherever it stands; one that has ended already is left (R17, R414). -/
def endJob (st : Status) (inline : Job → Bytes) (id : Nat) (s : State) : State :=
  match s.job? id with
  | some j => if j.phase == .done then s else failJob j (failEntry j st (inline j)) s
  | none => s

/-- An abort of a job (R199 to R201, R511): no effect past its end, and a job that already holds a status keeps it. -/
def abortJob (st : Status) (id : Nat) (s : State) : State :=
  match s.job? id with
  | none => s
  | some j => if j.phase == .done || j.pastEnd || j.failed.isSome then s else failJob j (failEntry j st (wholeInline j)) s

/-- Many aborts, in fetch order. -/
def abortJobs (st : Status) (p : Job → Bool) (s : State) : State :=
  ((s.jobs.filter p).map (fun j => j.id)).foldl (fun s i => abortJob st i s) s

/-- A reset ends a job with no completion; what it has written is logged, and the credit that it or its held completion had returns (R128, R143,
R156, R200, R437). -/
def dropJob (id : Nat) (s : State) : State :=
  match s.job? id with
  | none => s
  | some j =>
    let s := settleDirty j.fn id s
    let s := if j.phase == .done then s else dropNew j (releaseJob j s)
    let s := match j.ctx with | some i => s.onCtx i (endCtx true) | none => s
    let credited := j.credit || ((s.cq? j.fn j.cq).map (fun q => q.held.any (fun h => h.job == id && h.credited))).getD false
    let s := s.onCq j.fn j.cq (fun q => { q with held := q.held.filter (fun h => h.job != id) })
    endEpisode j.fn j.cq (releasePlace j (if credited then s.onCq j.fn j.cq returnCredit else s))

/-- The package and entry that serve an owner operation (R427). -/
def ownerOp (s : State) (d : Bytes) : Option (KernelPkg × KOp) :=
  if isOwnerOp (dOp d) then kernelOp s.eph.kernels (dOp d) (dParam d) else none

/-- Clusters that a VCC job runs on (R344, R421). -/
def gangOf (s : State) (d : Bytes) : Nat :=
  match ownerOp s d with
  | some (k, _) => if k.gang == 2 then 4 else if k.gang == 1 then 2 else 1
  | none => if dOp d == 0x2201 || dOp d == 0x2202 || (dOp d == 0x4001 && dAlgFam d == 0x22) then 4 else if dOp d == 0x2203 then 2 else 1

/-- The pools whose units a job uses: a Bouquet's stages use two (R207). -/
def jobPools (j : Job) : List Pool :=
  if dOp j.desc == 0x3801 then
    [Pool.bce, Pool.dge].filter (fun p => (stages j.block).any (fun r => stagePool r == some p))
  else (poolOfOp j.desc).toList

/-- The units of a pool in service that a job may use. -/
def servingOf (j : Job) (s : State) (p : Pool) : List Nat :=
  ((s.units.filter (fun u => poolOfUnit u.id == some p && u.st == .inService)).map (fun u => u.id)).filter (fun u => !(j.excluded.contains u))

/-- Other units in service can serve the job: its gang in one quadrant, its stages' engines, or one unit (R33, R207, R277, R344, R363). -/
def otherUnit (j : Job) (s : State) : Bool :=
  (jobPools j).all (fun p =>
    if p == .vcc then (List.range 4).any (fun q => decide (((servingOf j s .vcc).filter (fun u => quadrantOf s.part u == q)).length ≥ gangOf s j.desc))
    else decide ((servingOf j s p).length ≥ if dOp j.desc == 0x3801 then ((stages j.block).filter (fun r => stagePool r == some p)).length else 1))

/-- A job goes back into its pool's order for a run from its start (R496): deadline, tokens, credit, staging and pins kept. RESTARTED is set
when that run starts (R196, R197). -/
def requeueJob (bad : List Nat) (j : Job) (s : State) : State :=
  let s := freeUnits j.id s
  let s := { s with vcc := s.vcc.map (leaveCluster j.id),
                    dbg := endHalt j.id s }
  s.onJob j.id (fun j => { j with phase := .ready, again := true, units := [], excluded := j.excluded ++ bad, leaf := none, round := 0,
                                  rnd := [], input := [], sent := 0, taken := 0, saves := [] })

/-- A job whose unit failed it: re-executed once on another unit, else ABORTED_FAULT (R33, R277, R363, R496). -/
def retryJob (bad : List Nat) (id : Nat) (s : State) : State :=
  match s.job? id with
  | none => s
  | some j =>
    if j.phase == .done then s
    else if j.again || !(otherUnit { j with excluded := j.excluded ++ bad } s) then failJob j (failEntry j .abortedFault (unitInline j (bad.headD 0xFFFF))) s
    else requeueJob bad j s

/-- The jobs that a unit runs or that are resident on it (R496). -/
def jobsOn (u : Nat) (s : State) : List Nat :=
  (s.units.filter (fun x => x.id == u)).flatMap (fun x => x.job.toList) ++
    (if u < 256 then ((s.vcc[u]?).map (fun c => c.resid.map (fun r => r.job))).getD [] else [])

/-- A job that waits for its re-execution when no other unit or gang that could run it is left (R33, R277, R344, R363). -/
def stranded (j : Job) (s : State) : Bool := j.again && j.phase == .ready && !(otherUnit j s)

/-- The stranded jobs complete with ABORTED_FAULT. -/
def endStranded (s : State) : State := ((s.jobs.filter (fun j => stranded j s)).map (fun j => j.id)).foldl (fun s i => endJob .abortedFault wholeInline i s) s

/-- A pool without a unit (R497): the record, its jobs, and the grants of quadrants without a cluster. -/
def emptyPool (p : Pool) (s : State) : State :=
  let s := { s with mem := { s.mem with grants := s.mem.grants.mapIdx (fun q g =>
    if s.units.any (fun u => poolOfUnit u.id == some .vcc && quadrantOf s.part u.id == q && u.st == .inService) then g else none) } }
  if s.units.any (fun u => poolOfUnit u.id == some p && u.st == .inService) then s
  else
    let s := { s with mem := { s.mem with emptied := p :: s.mem.emptied.filter (fun q => q != p) } }
    abortJobs .abortedFault (fun j => (jobPools j).contains p) (raiseEvent 0x0502 0xFF00 [byteOf (poolClass p)] s)

/-- A unit is fenced (R495, R496, R59, R497). -/
def fenceUnit (u cause : Nat) (s : State) : State :=
  match s.unit? u, poolOfUnit u with
  | some x, some p =>
    if x.st == .fencedFault || x.st == .fencedKat then s
    else
      let jobs := (jobsOn u s).eraseDups
      let s := s.onUnit u (fun y => { y with st := .fencedFault, cause := cause, fenceAt := transitNow s })
      let s := setFault 13 s
      let s := ringEvent .pf0 0x0031 0xFFFF s.flt.status.toNat u s
      let s := raiseEvent 0x0601 u (byteOf cause :: leBytes 8 (transitNow s)) s
      let s := trace { kind := 4, unit := frameUnit u } s
      let s := jobs.foldl (fun s i => retryJob [u] i s) s
      emptyPool p (rerunAdmission p (endStranded s))
  | _, _ => s

/-- The mismatches that FAULT_RATE counts (R465), the last 100 ms. -/
def noteMismatch (s : State) : State :=
  { s with tam := { s.tam with mismatches := (s.tam.mismatches.filter (fun t => s.clk < t + 100000000)) ++ [s.clk] } }

/-- A slot touches a channel: with its entry, or with material that spans channels from its entry's on, 4 KiB on each (R498; where material lies is
DESIGN CHOICE, log 13). -/
def touches (ch : Nat) (x : Slot) : Bool :=
  (List.range (max 1 (ceilDiv x.material.length 4096))).any (fun k => (x.channel + k) % 8 == ch)

/-- The channel in which a spilled context lies: eight records of 512 bytes fill 4 KiB (R366, R498; log 37). -/
def spillChan (i : Nat) : Nat := i / 8 % 8

/-- A slot whose channel is lost: FREE under the raised generation; what jobs in flight have already read of its material stays with them. -/
def lostSlot (x : Slot) : Slot :=
  let kept : List KeyCopy := if x.pins > 0 then
    [{ gen := x.matGen, pins := x.pins, param := x.param, policy := x.policy, keyId := x.keyId, material := x.material }] else []
  { freeSlot x with gen := genUp x.gen, matGen := x.gen + 1, copies := x.copies ++ kept }

/-- A job that the loss of a channel sends back: it uses large staging, or a saved context of it lies spilled there (R498, log 37). -/
def usesChan (ch : Nat) (j : Job) : Bool :=
  (j.largeStage > 0 && (j.phase == .running || j.phase == .preempted)) || ((j.phase == .preempted || j.phase == .overrun) && spillChan j.id == ch && j.saves.any (fun x => x.spilled))

/-- A DRAM channel is fenced (R495, R496, R498): slots and contexts on it are lost, jobs staged there are re-executed, and admission is rerun, which
finds no pool smaller. -/
def fenceChannel (ch : Nat) (s : State) : State :=
  if ((s.chans[ch]?).map (fun c => c.inService)).getD false then
    let s := { s with chans := modAt s.chans ch (fun c => { c with inService := false, fenceAt := transitNow s }) }
    let s := setFault 13 s
    let s := ringEvent .pf0 0x0031 0xFFFF s.flt.status.toNat (0x400 + ch) s
    let s := raiseEvent 0x0601 (0x400 + ch) (byteOf 5 :: leBytes 8 (transitNow s)) s
    let lost := fun (x : Slot) => touches ch x && x.st != .free
    let gone := fun (i : Nat) => s.slots.any (fun x => x.idx == i && lost x)
    let s := { s with slots := s.slots.map (fun x => if lost x then lostSlot x else x),
                      ctxs := s.ctxs.map (fun (x : Ctx) => if x.live && x.spilled && spillChan x.idx == ch then killCtx x else x),
                      mem := { s.mem with pkCache := s.mem.pkCache.filter (fun k => !(gone k.1)), keyCache := s.mem.keyCache.filter (fun k => !(gone k.1)) },
                      flt := { s.flt with degraded := true } }
    let s := ((s.jobs.filter (usesChan ch)).map (fun j => j.id)).foldl (fun s i => retryJob [] i s) s
    rerunAdmission .vcc s
  else s

/-- An uncorrectable DRAM error (R17, R495): the record, and the fence at the second within 1 s. -/
def dramError (ch line : Nat) (mac : Bool) (s : State) : State :=
  let s := faultEvent 5 0x0606 (0x400 + ch) (byteOf ch :: (leBytes 8 line ++ [byteOf (bitAt mac 0)])) s
  let near := ((s.chans[ch]?).map (fun c => c.errors.any (fun t => s.clk < t + 1000000000))).getD false
  let s := { s with chans := modAt s.chans ch (fun c => { c with errors := (c.errors.filter (fun t => s.clk < t + 1000000000)) ++ [s.clk] }) }
  if near then fenceChannel ch s else s

/-- An operand tile that failed its check word (R414, R495): the record, and the fence at the third within 1 s. -/
def operandTileError (u tile alg pc : Nat) (s : State) : State :=
  let s := faultEvent 0 0x0602 u (leBytes 2 tile ++ [0] ++ leBytes 2 alg ++ leBytes 2 pc) s
  let recent := ((s.unit? u).map (fun x => x.operandFails.filter (fun t => s.clk < t + 1000000000))).getD []
  let s := s.onUnit u (fun x => { x with operandFails := recent ++ [s.clk] })
  if recent.length ≥ 2 then fenceUnit u 0 s else s

end Sys2Proof.Machine
end

