-- ==== Sys2Proof/Machine/Identity.lean ====
section
/-!
DEFINITION. The device's identity and what it reports of itself: identity keys, lifecycle code, update counter, kernel digests, instance
numbers (R176, R209, R210, R234, R239, R446).
-/
namespace Sys2Proof.Machine

/-! ### Keys derived from the DRS (R209, R210) -/

/-- The Device Root Secret: the OTP word rejoined with the die's fingerprint; all ones in OTP once SCRAPPED has blown it (R96, R210). -/
def deviceRoot (s : State) : Bytes := xorBytes (sliceZ (s.sc.drs.getD []) 0 32) (sliceZ Config.dieFingerprint 0 32)
/-- A DRS-derived key. -/
def drsKey (s : State) (ctx : Bytes) (len : Nat) (label : String) : Bytes := kmac256 (deviceRoot s) ctx len (ascii label)
/-- The ML-DSA-87 identity key pair: public and private encodings. -/
def idMlDsa (s : State) : Bytes × Bytes := mlDsaKeyGen 3 (drsKey s [] 32 "YQ9 ID MLDSA")
/-- The ML-KEM-1024 identity key pair. -/
def idMlKem (s : State) : Bytes × Bytes :=
  let k := drsKey s [] 64 "YQ9 ID MLKEM"
  mlKemKeyGen 3 (k.take 32) (k.drop 32)
/-- The ECDSA P-384 identity private key and public point. -/
def idP384 (s : State) : Nat × Bytes :=
  match pCurve 2 with
  | some c =>
    let d := beNat (drsKey s [] 56 "YQ9 ID P384") % (c.n - 1) + 1
    (d, pEncode c (pMul c d (pBase c)))
  | none => (0, [])
/-- The device identity digest (R210). -/
def deviceId (s : State) : Bytes := sha3_256 (idMlDsa s).1

/-! ### Lifecycle and counters -/

/-- LCS_STATE.CODE (R446). -/
def lcCode (s : State) : Nat := 2 ^ (s.sc.lcFuses.foldl max 0 + 1) - 1

/-- A FULL token session is open. -/
def fullSession (s : State) : Bool := s.tok.session == .full
/-- A token session of either kind is open. -/
def anySession (s : State) : Bool := s.tok.session == .full || s.tok.session == .limited

/-- The custody-bank key of an entry (R209), and an entry's contents under it; the cipher is PRESUMED AES Key Wrap (log 38). -/
def bankKey (s : State) (i : Nat) : Bytes := drsKey s [byteOf i] 32 "YQ9 CUSTODY BANK"
def bankSeal (s : State) (i : Nat) (custody : Bytes) : Bytes := kwWrap (bankKey s i) custody
def bankOpen (s : State) (i : Nat) (e : CustodyEntry) : Option Bytes := let r := kwUnwrap (bankKey s i) e.key; if e.live && r.2 then some r.1 else none

/-- The live custody entries, newest first: place in the bank, custody key, counter (R211, R249). -/
def liveCustody (s : State) : List (Nat × Bytes × Nat) :=
  ((s.sc.custodyBank.mapIdx (fun i (e : CustodyEntry) => (bankOpen s i e).map (fun k => (i, k, e.counter)))).filterMap id).reverse

/-- The custody entry written last (R234, R236). -/
def newestCustody (s : State) : Option CustodyEntry := (s.sc.custodyBank.filter (fun (e : CustodyEntry) => e.live)).getLast?

/-- The update counter in effect (R234); the counter burned with the owner root counts beside the custody bank's (R236; log 19). -/
def counterNow (s : State) : Nat :=
  let j := if fullSession s then (s.tok.socket.map (fun t => t.journalJ)).getD 0 else 0
  let b := ((newestCustody s).map (fun e => e.counter)).getD 0
  max (max j s.sc.rootCounter) (max b (256 * s.sc.floor))

/-- The digests of the loaded kernels: ROM kernels that no package replaces, then packages in load order (R107, R239). -/
def kernelDigests (s : State) : List Bytes :=
  ((Config.romKernels.filter (fun i => !(s.eph.kernels.any (fun k => k.algId == i)))).map (fun i => sliceZ (Config.romDigest s.part i) 0 32)) ++
    s.eph.kernels.map (fun k => sliceZ k.digest 0 32)

/-! ### Instances (R176, R239) -/

/-- FN_TYPE. -/
def fnType : Fn → Nat
  | .slice _ => 1
  | .vf _ => 2
  | _ => 0
/-- INSTANCE: the VF or slice number, 0 on PF0. -/
def fnNumber : Fn → Nat
  | .slice n => n
  | .vf n => n
  | _ => 0

/-! ### The attestation statement (R239) -/

/-- The statement of a form and scope over a nonce. -/
def statement (s : State) (f : Fn) (form scope : Nat) (nonce : Bytes) : Bytes :=
  let ks := kernelDigests s
  let dev := scope == 1
  ascii "YQAT" ++ [1, byteOf form, byteOf scope, byteOf (lcCode s), byteOf (if dev then 0 else fnType f),
    byteOf (bitAt (holdoverNow s) 0 + bitAt s.eph.configured 1 + bitAt s.tam.quarantine 2 + bitAt s.flt.degraded 3)] ++
    leBytes 2 (if dev then 0 else fnNumber f) ++ leBytes 2 (if dev then 0xFFFF else (domainOf s f).getD 0xFFFF) ++ leBytes 2 ks.length ++
    leBytes 8 (transitNow s) ++ leBytes 8 (counterNow s) ++ deviceId s ++ sliceZ s.eph.digest 0 32 ++
    (if anySession s then sliceZ ((s.tok.socket.map (fun t => t.serial)).getD []) 0 16 else zeros 16) ++ zeros 16 ++ sliceZ nonce 0 32 ++ ks.flatten

/-- The fleet attestation secret, while a FULL session holds it (R211, R212). -/
def attestSecret (s : State) : Option Bytes := if s.tok.keysLoaded then s.sc.heldAttest else none

/-- The output of the IDENTITY form (R238). -/
def identityKeys (s : State) : Bytes := (idMlDsa s).1 ++ (idP384 s).2 ++ (idMlKem s).1

/-- The output of the CHALLENGE form under a secret (R240). -/
def challengeOut (s : State) (f : Fn) (scope : Nat) (nonce secret : Bytes) : Bytes :=
  let m := statement s f 1 scope nonce
  m ++ kmac256 secret m 32 (ascii "YQ9 ATTEST")

end Sys2Proof.Machine
end

