-- ==== Sys2Proof/Machine/Checks.lean ====
section
/-!
DEFINITION. The checks of R189 on a fetched job: checks 1 to 7 at fetch, check 8 against the slots, contexts and domain policies as
they stand, check 9; for Bouquets stage by stage (R207); for owner operations by their package's entries (R422, R427).
-/
namespace Sys2Proof.Machine

/-! ### The operation and its parameters block -/

/-- AUX of an owner operation is a second key handle. -/
def ownerAuxIsKey (o : KOp) : Bool := o.key2Type != 0 && o.auxLen == 0

/-- How many bytes of a parameters block the fetch reads for a descriptor (R184, R422). -/
def wantBlock (s : State) (d : Bytes) : Nat :=
  match ownerOp s d with
  | some (_, o) => if ownerAuxIsKey o then 0 else 8 * o.auxLen
  | none => (blockLen d).getD 0

/-- The block's bytes for the checks, zeros where there is none or its read failed. -/
def blockOf (s : State) (d : Bytes) (b : BlockIn) : Bytes :=
  match b with
  | .bytes x => sliceZ x 0 (wantBlock s d)
  | _ => zeros (wantBlock s d)

/-- The loaded program of a RUN job. -/
def runProgram (s : State) (d : Bytes) : Option KernelPkg := maeProgram s.eph.kernels (dSpecLE d 52 2)
def runShapeOf (s : State) (d : Bytes) : Option RunShape := if dOp d == 0x2310 then (runProgram s d).map maeProgramShape else none

/-! ### Contexts (R368, R370, R373) -/

def cDomain (h : Nat) : Nat := h / 2 ^ 48 % 2 ^ 16
def cGen (h : Nat) : Nat := h / 2 ^ 32 % 2 ^ 16
def cIndex (h : Nat) : Nat := h % 2 ^ 15
/-- The handle of a context (R368). -/
def mkCtxHandle (domain gen idx : Nat) : Nat := domain * 2 ^ 48 + gen * 2 ^ 32 + idx

/-- The live context that a job names, if its handle names one. -/
def namedCtx (s : State) (d : Bytes) : Option Ctx :=
  if namesCtx d then
    match s.ctx? (cIndex (dCtx d)) with
    | some c => if c.live && c.gen == cGen (dCtx d) && c.domain == cDomain (dCtx d) then some c else none
    | none => none
  else none

/-- The live context of a segment that agrees with it in function, PARAM_SET and key (R370). -/
def segCtx (s : State) (d : Bytes) : Option Ctx :=
  (namedCtx s d).bind (fun c => if isSegment d && c.func == dOp d && c.param == dParam d && c.key == dKey d then some c else none)

/-- The block in effect for lengths and charges: a segment's is its context's, or a STREAM segment's own where it names one (R369, R382). -/
def effBlock (s : State) (d blk : Bytes) : Bytes :=
  if isSegment d && (dAux d == 0 || dFamily d == 0x31) then ((segCtx s d).map (fun c => c.block)).getD (zeros 24) else blk

/-- The most message bytes that a digest context absorbs (R384). -/
def digestLimit (id : Nat) : Nat := if id % 256 ≤ 2 then 2 ^ 61 - 1 else 2 ^ 64 - 1

/-- The message bytes of a segment: a FINAL segment of a verify function ends with its tag or digest (R369, R382). -/
def segmentText (c : Ctx) (d : Bytes) : Nat :=
  if dSeg d != 2 then dInLen d
  else if c.func == 0x3009 then dInLen d - psTag c.param
  else if c.func == 0x3103 || c.func == 0x3105 || c.func == 0x3106 then dInLen d - digestT c.param c.block
  else dInLen d

/-- A segment carries the context's TOTAL past its mode's limit (R373, R384). -/
def pastLimit (c : Ctx) (d : Bytes) : Bool :=
  let n := segmentText c d
  if c.engine == 2 then c.total + n > digestLimit c.param
  else if psStream c.param then dSeg d == 1 && c.segment ≥ 2 ^ 32 - 1
  else if isGcm c.func || isGmac c.func then c.total + n > 2 ^ 36 - 32
  else if isChaPoly c.func then c.total + n > 2 ^ 38 - 64
  else if isXts c.func then sDuLen c.block != 0 && c.total / sDuLen c.block + n / sDuLen c.block > 2 ^ 64
  else if isCbc c.func then c.total + n > 2 ^ 64 - 16
  else false

/-- Resolution of the context that a job names, after KEY (R370, R372, R383). -/
def ctxStatus (s : State) (q : Nat) (d : Bytes) : Option Status :=
  let h := dCtx d
  if cDomain h != q then some .keyDomain
  else if cIndex h ≥ 24576 then some .keyNotFound
  else match s.ctx? (cIndex h) with
  | none => some .keyNotFound
  | some c =>
    if !c.live then (if c.gen != cGen h then some .keyRetired else some .keyNotFound)
    else if c.gen != cGen h then some .keyRetired
    else if c.domain != q then some .keyNotFound
    else if isSegment d && (c.func != dOp d || c.param != dParam d || c.key != dKey d) then some .keyPolicy
    else if !(isSegment d) && c.engine != (if dOp d == 0x3021 then 1 else 2) then some .keyPolicy
    else if c.busy then some .keyPolicy
    else if isSegment d && pastLimit c d then some .keyPolicy
    else none

/-! ### Checks 1 to 7 -/

/-- Check 1, for service and owner operations; a CTR segment may not carry its counter back to its start (R360). -/
def check1All (s : State) (d : Bytes) (b : BlockIn) : Bool :=
  if isOwnerOp (dOp d) then
    match ownerOp s d with
    | some (_, o) => specZero d 52 63 && (o.auxLen != 0 || o.key2Type != 0 || dAux d == 0)
    | none => false
  else
    check1 d b && (dOp d != 0x2310 || (match runProgram s d with | some k => k.ops.any (fun (o : KOp) => o.ps == dParam d) | none => false)) &&
      (match segCtx s d with
       | some c => dOp d != 0x3003 || !(ctrWraps (psAux c.param) (c.total + dInLen d))
       | none => true)

/-- Check 3 (R4, R309, R426). -/
def check3 (s : State) (d : Bytes) : Bool :=
  match ownerOp s d with
  | some (k, _) => pkgPresent s.part k
  | none => unitPresent s.part d

/-- The bit of ALGORITHM_ENABLE that governs an operation (R105). -/
def algBit (d : Bytes) : Nat × Nat :=
  if dFamily d == 0x30 then (0x30, dOp d % 256)
  else if dFamily d == 0x31 || dFamily d == 0x32 then (dFamily d, dParam d % 256)
  else if dOp d == 0x4001 && dAlgFam d != 0 then (dAlgFam d, dParam d)
  else (dFamily d, dParam d)

/-- The operation of a descriptor as an operation set names it (R47). -/
def jobEntry (d : Bytes) : OpEntry :=
  { op := dOp d, fam := if dOp d == 0x4001 then dAlgFam d else if dOp d == 0x2310 then dSpecLE d 52 2 else 0, ps := dParam d }

/-- The class's operation set for a pool holds an operation (R47, R48, R110). -/
def inOpSet (s : State) (cls : Nat) (pool : Pool) (e : OpEntry) : Bool :=
  match poolCfgOf s.eph.cfg cls pool with
  | none => false
  | some c =>
    if c.rho == 0 then false
    else if c.all then entryCharge s.part s.eph.kernels e (orderOf s.eph.cfg cls) c.lmax ≤ c.cap
    else c.ops.any (fun x => x.op == e.op && x.ps == e.ps && x.fam == e.fam)

/-- The algorithm is enabled (R105, R110, R427). -/
def algEnabled (s : State) (d : Bytes) : Bool := isOwnerOp (dOp d) || s.eph.cfg.allAlgs || s.eph.cfg.algs.contains (algBit d)

/-- Check 4 for a job that is no Bouquet. -/
def check4 (s : State) (cls : Nat) (d : Bytes) : Bool :=
  algEnabled s d &&
    (if dOp d == 0x4005 || dOp d == 0x3021 || dOp d == 0x3121 then true
     else match poolOfOp d with
      | some p => inOpSet s cls p (jobEntry d)
      | none => false)

/-- A block whose read failed (R189). -/
def blockLost (s : State) (d : Bytes) (b : BlockIn) : Bool := b == .failed && wantBlock s d > 0

/-- The divisors of a length of 32 bits. -/
def divisors (n : Nat) : List Nat := ((List.range 65536).filter (fun k => k > 0 && n % k == 0)).flatMap (fun k => [k, n / k])

/-- Blocks that stand for all that a block whose read failed may have said of the job's lengths: each field that they rest on, at every value
that makes a difference to checks 5 and 6 (R286, R323, R332, R357, R375, R387, R224). -/
def blockGuesses (d : Bytes) : List Bytes :=
  let op := dOp d
  let n := dInLen d
  let at_ := fun (i : Nat) (v : Nat) => overwrite (zeros 264) i [byteOf v]
  if op == 0x1103 || op == 0x1104 || op == 0x1203 || op == 0x1204 then (List.range 256).map (at_ 2)
  else if 0x1501 ≤ op && op ≤ 0x1503 then ((List.range 256).filter (fun t => objKeyLen t != 0)).map (at_ 16)
  else if dFamily d == 0x20 then [at_ 1 1, at_ 1 2, at_ 1 3, at_ 1 4, at_ 1 5]
  else if isXts op then ((16 :: divisors n).filter (fun k => decide (16 ≤ k) && decide (k ≤ 16777216))).map (fun k => overwrite (zeros 24) 16 (leBytes 4 k))
  else if op == 0x3203 then [overwrite (zeros 24) 0 (leBytes 4 16777216)]
  else if op == 0x3204 then (List.range 64).map (fun k => overwrite (zeros 24) 16 (leBytes 8 (2 ^ k)))
  else if 0x3101 ≤ op && op ≤ 0x3106 then
    zeros 24 :: ((List.range 256).map (fun t => overwrite (zeros 24) 0 (leBytes 4 t))).filter (digestBlockOk op (dParam d))
  else if op == 0x4001 && dAlgFam d == 0 then zeros 64 :: [overwrite (zeros 64) 16 (leBytes 4 16)]
  else [zeros 264]

/-- Check 5, with the entries of an owner operation (R422). -/
def check5All (s : State) (d blk : Bytes) : Bool :=
  match ownerOp s d with
  | some (_, o) => refsOk d && o.inMin ≤ dInLen d && dInLen d ≤ o.inMax && (o.auxLen == 0 || dAux d % 8 == 0)
  | none =>
    let du := match segCtx s d with | some c => sDuLen c.block | none => 1
    check5 d (effBlock s d blk) (runShapeOf s d) du

/-- The output that check 6 asks room for. -/
def needOut (s : State) (d blk : Bytes) : Nat :=
  match ownerOp s d with
  | some (_, o) => o.outBase + o.outPerIn * dInLen d
  | none => outNeed d (effBlock s d blk) (runShapeOf s d) (kernelDigests s).length

/-- The first check of 1 to 7 that a job other than a Bouquet fails, with the bytes that its completion names (R189, R195). Of a block whose read
failed, checks 5 and 6 find only what no content of it could mend (DEDUCED, log 39). -/
def checks17 (s : State) (cls : Nat) (d : Bytes) (b : BlockIn) : Option (Status × Nat) :=
  let lost := blockLost s d b
  let fits := (if lost then blockGuesses d else [blockOf s d b]).filter (check5All s d)
  let need := (fits.map (needOut s d)).foldl min (needOut s d (fits.headD []))
  if !(check1All s d b) then some (.malformedDescriptor, 0)
  else if dClass d != cls then some (.malformedDescriptor, 0)
  else if !(check3 s d) then some (.unitAbsent, 0)
  else if !(check4 s cls d) then some (.algorithmDisabled, 0)
  else if fits.isEmpty then some (.malformedDescriptor, 0)
  else if dOutCap d < need then some (.outputTooSmall, need)
  else if lost then some (.translationFault, 0)
  else none

/-! ### Bouquets (R203 to R207) -/

/-- The length of the text that a stage passes on. -/
def stageText (r : Bytes) (n : Nat) : Nat := if stKind r == 1 && isTagDec (stFunc r) then n - psTag (stParam r) else n

/-- The input length of every stage: the original input, or the previous stage's stream output. -/
def stageLens (n : Nat) : List Bytes → Nat → Bool → List Nat
  | [], _, _ => []
  | r :: rs, prev, first =>
    let x := if first || stSource r == 1 then n else prev
    x :: stageLens n rs (stageText r x) false

/-- A stage as the single job it stands for: function, parameters, key, input length, output, and an own block. -/
def stageDesc (d r : Bytes) (n : Nat) : Bytes :=
  leBytes 2 (stFunc r) ++ leBytes 2 (2 * (stFlags r % 2)) ++ [byteOf (dClass d)] ++ leBytes 3 (stParam r) ++ leBytes 8 (stKey r) ++
    leBytes 8 (dInRef d) ++ leBytes 4 n ++ leBytes 8 (stOutRef r) ++ leBytes 4 (stOutCap r) ++ leBytes 8 8 ++ zeros 16

/-- The output a stage needs room for. -/
def stageNeed (d r : Bytes) (n : Nat) : Nat := if stKind r == 5 then n else outNeed (stageDesc d r n) (stBlock r) none 0

/-- Checks 1 to 7 of one stage (R207); check 1 is made with the taint of R206. -/
def stageChecks (s : State) (cls : Nat) (d : Bytes) (first : Bool) (r : Bytes) (tin : Bool) (n : Nat) : Option Status :=
  let sd := stageDesc d r n
  if !(stageCheck1 first r tin) then some .malformedDescriptor
  else if stKind r == 1 && stFunc r == 0x3003 && ctrWraps (psAux (stParam r)) n then some .malformedDescriptor
  else if stKind r != 5 && !(algEnabled s sd && (match stagePool r with | some p => inOpSet s cls p (jobEntry sd) | none => true)) then some .algorithmDisabled
  else if !((stOutRef r != 0 || (stOutCap r == 0 && stFlags r == 0)) && (stFlags r == 0 || stOutRef r % 16 == 0)) then some .malformedDescriptor
  else if stKind r != 5 && !(check5 sd (stBlock r) none 0) then some .malformedDescriptor
  else if stOutCap r < stageNeed d r n then some .outputTooSmall
  else none

/-- Checks 1 to 7 on a Bouquet: its own fields, then each stage; the failing stage, or 0xFE (R207, R208). -/
def bouquetChecks (s : State) (cls : Nat) (d : Bytes) (b : BlockIn) : Option (Status × Nat) :=
  let rs := stages (blockOf s d b)
  let usesB := rs.any (fun r => stKind r == 1)
  let usesD := rs.any (fun r => stKind r == 2 || stKind r == 3 || stKind r == 4)
  let has := fun p => inOpSet s cls p { op := 0x3801 }
  let set4 := if usesB || usesD then (!usesB || has .bce) && (!usesD || has .dge) else has .bce || has .dge
  if !(check1 d b) || dClass d != cls then some (.malformedDescriptor, 0xFE)
  else if !(algEnabled s d) || !set4 then some (.algorithmDisabled, 0xFE)
  else if !(refsOk d) then some (.malformedDescriptor, 0xFE)
  else if b == .failed then some (.translationFault, 0xFE)
  else
    let lens := stageLens (dInLen d) rs 0 true
    let all := (rs.zip ((stageInTaint rs).zip lens)).mapIdx (fun i x => (i, stageChecks s cls d (i == 0) x.1 x.2.1 x.2.2))
    all.findSome? (fun x => x.2.map (fun st => (st, x.1)))

/-! ### Check 8: key handles -/

/-- What an operation asks of one key handle: whether type 0x00 will do, the key types, the policy bit, the parameter set. -/
structure KeyReq where
  h : Nat
  noneOk : Bool := false
  types : List Nat := []
  bit : Option Nat := none
  ps : Option Nat := none
  /-- A pairing that the key's resolution finds forbidden (R224). -/
  deny : Bool := false

/-- The domain policy (R222). -/
def domainPolicy (s : State) (dom : Nat) : BitVec 32 := ((s.sc.policies.find? (fun p => p.1 == dom)).map (fun p => p.2)).getD 7

/-- The class-4 and class-2 keys of the token, while a FULL session holds them in SC memory (R212). -/
def anchored (s : State) : Option Token := if s.tok.keysLoaded then s.tok.socket else none

/-- The master key that a handle of type 0x01 names by domain and index. -/
def masterKey? (s : State) (h : Nat) : Option MasterKey :=
  (anchored s).bind (fun t => t.masters.find? (fun m => m.domain == hDomain h && m.index == hSlot h))
/-- The stateful key that a handle of type 0x23 names by domain and index (R297). -/
def stateful? (s : State) (h : Nat) : Option StatefulKey :=
  (anchored s).bind (fun t => t.stateful.find? (fun k => k.domain == hDomain h && k.index == hSlot h))

/-- The fixed policy of domain master keys: WRAP, UNWRAP, DERIVE (R216). -/
def masterPolicy : BitVec 32 := 0x380

/-- The state of the slot under a handle, once its domain has matched (R217). -/
def slotStatus (s : State) (dom h : Nat) : Option Status :=
  match s.slot? (hSlot h) with
  | none => some .keyNotFound
  | some x =>
    if x.st == .free || x.domain != dom then some .keyNotFound
    else if x.st == .retiring then some .keyRetired
    else if x.gen != hGen h then some .keyRetired
    else if x.ktype != hType h then some .keyNotFound
    else none

/-- Check 8 for one handle (R189, R213, R216, R217); a stateful key's needs a FULL session first (R301). -/
def keyStatus (s : State) (dom : Nat) (r : KeyReq) : Option Status :=
  let t := hType r.h
  if t == 0 then (if r.noneOk then none else some .keyNotFound)
  else if t == 0x23 && s.tok.session != .full then some .ledgerUnavailable
  else if hDomain r.h != dom then some .keyDomain
  else if t == 1 then
    match masterKey? s r.h with
    | none => some .keyNotFound
    | some m =>
      if m.version != hGen r.h then some .keyRetired
      else if r.deny || !(r.types.contains 1) || (match r.bit with | some b => !(masterPolicy.getLsbD b) | none => false) then some .keyPolicy
      else none
  else if t == 0x23 then
    match stateful? s r.h with
    | none => some .keyNotFound
    | some k => if k.version != hGen r.h then some .keyRetired else some .keyPolicy
  else match slotStatus s dom r.h with
    | some st => some st
    | none =>
      match s.slot? (hSlot r.h) with
      | none => some .keyNotFound
      | some x =>
        if r.deny || !(r.types.contains t) then some .keyPolicy
        else if (match r.bit with | some b => !(x.policy.getLsbD b) | none => false) then some .keyPolicy
        else if (match r.ps with | some p => x.param != p | none => false) then some .keyPolicy
        else none

/-- The leaves of a stateful key: 2^H (R298). -/
def leafCount (k : StatefulKey) : Nat := 2 ^ ((k.heights.map (fun c => ((lmsType c).map (fun l => l.h)).getD 0)).sum)

/-- Check 8 for a handle of type 0x23 (R301). -/
def hbsStatus (s : State) (dom : Nat) (d : Bytes) : Option Status :=
  let h := dKey d
  let sign := dOp d == 0x1301
  if hType h == 0 then some .keyNotFound
  else if hType h != 0x23 then
    keyStatus s dom { h := h, types := [0x23] }
  else if s.tok.session != .full || (sign && s.tok.readOnly) then some .ledgerUnavailable
  else if hDomain h != dom then some .keyDomain
  else match stateful? s h with
  | none => some .keyNotFound
  | some k =>
    if k.version != hGen h then some .keyRetired
    else if k.param != dParam d then some .keyPolicy
    else if sign && !k.prepared then some .keyPolicy
    else if dOp d != 0x1304 && k.next ≥ leafCount k then some .stateExhausted
    else none

/-- In the instant of an ERASE or REWRITE, a handle of the generation before it is of a retired key (R219); a handle of a stuck generation
names the current one. DEDUCED: one instant of the deadline clock stands for one fabric cycle (log 37). -/
def erasedNow (s : State) (dom h : Nat) (x : Slot) : Bool := x.changed.any (fun c => c.clk == s.clk && c.domain == dom) && x.gen != hGen h

/-- The generation that an ERASE accepts: the current one, or the one that a pending ERASE retired, which the material still bears (R218). -/
def eraseStatus (s : State) (dom h : Nat) : Option Status :=
  if hType h == 0 then some .keyNotFound
  else if hDomain h != dom then some .keyDomain
  else if hType h == 0x23 || hType h == 1 then some .keyPolicy
  else match s.slot? (hSlot h) with
  | none => some .keyNotFound
  | some x =>
    if erasedNow s dom h x then some .keyRetired
    else if x.st == .free || x.domain != dom then some .keyNotFound
    else if x.st == .retiring then
      (if hGen h == x.gen || hGen h == x.matGen then (if x.ktype != hType h then some .keyNotFound else none) else some .keyRetired)
    else if x.gen != hGen h then some .keyRetired
    else if x.ktype != hType h then some .keyNotFound
    else none

/-- Key type, policy bit of a symmetric function (R354). -/
def symReq (op h : Nat) : KeyReq :=
  let types := if isXts op then [0x13] else if isChaPoly op then [0x14] else if isSiv op then [0x10, 0x12] else [0x10, 0x11, 0x12]
  let bit := if isGmac op then 6
    else if op == 0x3002 || op == 0x3005 || isAeadDec op then 1 else 0
  { h := h, types := types, bit := some bit }

/-- Key requirement of a digest function (R375). -/
def digestReq (op h : Nat) : KeyReq :=
  if op == 0x3102 || op == 0x3103 then { h := h, types := [0x18], bit := some 6 }
  else if op == 0x3104 || op == 0x3105 then { h := h, types := [0x19], bit := some 6 }
  else { h := h, noneOk := true }

/-- The key handles of a job in the order in which check 8 resolves them, KEY first (R189, R223, R263, R289, R299, R312, R323,
R332, R338, R342, R348, R354, R375, R385, R422). -/
def keyReqs (s : State) (d blk : Bytes) : List KeyReq :=
  let op := dOp d
  let ps := dParam d
  let k := dKey d
  let none1 : KeyReq := { h := k, noneOk := true }
  match ownerOp s d with
  | some (_, o) =>
    [{ h := k, noneOk := o.keyType == 0, types := [o.keyType], bit := if o.policyBit == 0xFF then none else some o.policyBit }] ++
      (if ownerAuxIsKey o then [{ h := dAux d, types := [o.key2Type] }] else [])
  | none =>
  match op with
  | 0x1001 => [{ h := k, noneOk := true, types := [0x20], bit := some 4, ps := some ps }]
  | 0x1002 => [{ h := k, types := [0x20], bit := some 5, ps := some ps }]
  | 0x1101 | 0x1103 => [{ h := k, types := [0x21], bit := some 2, ps := some ps }]
  | 0x1201 | 0x1203 => [{ h := k, types := [0x22], bit := some 2, ps := some ps }]
  | 0x1401 => [{ h := k, noneOk := ps ≥ 0x11, types := [0x28], bit := some 4, ps := some ps }]
  | 0x1402 => [{ h := k, types := [if ps ≥ 0x11 then 0x25 else 0x24], bit := some 5, ps := some ps }]
  | 0x1501 | 0x1502 =>
    [if capMode ps == 2 then none1 else { h := k, types := [0x28], bit := some 4, ps := some (capCm ps) }] ++
      (if op == 0x1502 then [{ h := cObjKey blk, types := [cObjType blk], bit := some 10 }] else [])
  | 0x1503 =>
    [if capMode ps == 2 then { h := k, types := [0x20], bit := some 5, ps := some (capMl ps) }
     else { h := k, types := [0x24], bit := some 5, ps := some (capCm ps) }] ++
      (if capMode ps == 3 then [{ h := cSecond blk, types := [0x20], bit := some 5, ps := some (capMl ps) }] else [])
  | 0x2001 => [{ h := k, types := [0x30], bit := some 2, ps := some ps }]
  | 0x2003 => [{ h := k, types := [0x30], bit := some 1, ps := some ps }]
  | 0x2101 => [{ h := k, types := [0x31], bit := some 2, ps := some ps }]
  | 0x2103 => [{ h := k, types := [0x31], bit := some 11, ps := some ps }]
  | 0x2201 => [{ h := k, types := [0x32], bit := some 11, ps := some ps }]
  | 0x2202 => [{ h := k, types := [0x33], bit := some 2, ps := some ps }]
  | 0x2310 => [{ h := k, noneOk := !(((runProgram s d).map (fun p => (maeProgramShape p).keyed)).getD false), types := [0x03], bit := some 7 }]
  | 0x3020 => [symReq (dFunc d) k]
  | 0x3120 => [digestReq (dFunc d) k]
  | 0x3123 => if hType k == 0 then [none1] else [{ h := k, types := [0x18, 0x19], bit := some 6 }]
  | 0x4001 =>
    [none1] ++ (if flag8 d then [{ h := gTarget blk, types := [dNewType d] }] else []) ++
      (if flag9 d then [{ h := gWrap blk, types := [1, 2], bit := some 8 }] else [])
  | 0x4002 => [{ h := k, types := [1, 2, 3], bit := some 7, deny := hType k != 3 && dNewType d == 0x02 }] ++ (if flag8 d then [{ h := gTarget blk, types := [dNewType d] }] else [])
  | 0x4003 => [{ h := k, types := [1, 2], bit := some 9 }] ++
      (if flag8 d then [{ h := gTarget blk, types := (List.range 256).filter (fun t => t > 1 && t != 0x23) }] else [])
  | 0x4004 =>
    [{ h := k, types := (List.range 256).filter (fun t => t > 1 && t != 0x23 && t != 0x28), bit := some 10 }, { h := dAux d, types := [1, 2], bit := some 8 }]
  | _ =>
    if 0x3001 ≤ op && op ≤ 0x3013 then [symReq op k]
    else if 0x3101 ≤ op && op ≤ 0x3106 then [digestReq op k]
    else [none1]

/-- The policy rules beside single handles: NEW_POLICY, domain policy, frames (R217, R222, R225, R279, R313,
R324, R340). -/
def policyStatus (s : State) (dom : Nat) (d blk : Bytes) : Option Status :=
  let op := dOp d
  let pol := domainPolicy s dom
  let export_ := pol.getLsbD 0
  let bad (b : Bool) : Option Status := if b then some .keyPolicy else none
  let worn := (op == 0x4001 || op == 0x4002 || op == 0x4003) && flag8 d && ((s.slot? (hSlot (gTarget blk))).map (fun x => decide (x.gen ≥ 0xFFFF))).getD false
  if worn then some .keyPolicy
  else if op == 0x4001 then
    let t := dNewType d
    bad ((dNewPolicy d).land (0xFFFFFFFF - keygenPolicyMask t) != 0 || (bitOf (dNewPolicy d) 10 && !export_) || (flag9 d && !export_) ||
      (0x30 ≤ t && t ≤ 0x33 && !(pol.getLsbD 2)))
  else if op == 0x4002 then
    let srcExp := ((s.slot? (hSlot (dKey d))).map (fun x => hType (dKey d) != 1 && x.policy.getLsbD 10)).getD false
    bad (bitOf (dNewPolicy d) 10 && (!export_ || !srcExp))
  else if op == 0x4004 then bad (!export_)
  else if op == 0x1501 || op == 0x1503 then bad (bitOf (cPolicy blk) 10 && !export_)
  else if op == 0x1502 then bad (!export_)
  else if (op == 0x2103 || op == 0x2201) && flag8 d then bad ((dNewPolicy d).land (0xFFFFFFFF - 0x480) != 0 || (bitOf (dNewPolicy d) 10 && !export_))
  else none

/-- A handle in a job is of a type other than 0x00 and PUBLIC. -/
def secretHandle (h : Nat) : Bool := hType h != 0 && hType h != 0x28

/-- A job bears a secret (R457). -/
def bearsSecret (s : State) (d blk : Bytes) : Bool :=
  let op := dOp d
  (keyReqs s d blk).any (fun r => secretHandle r.h) ||
  (op == 0x3801 && (stages blk).any (fun r => secretHandle (stKey r))) ||
  (match namedCtx s d with | some c => secretHandle c.key | none => false) ||
  op == 0x4001 || op == 0x4002 || op == 0x4003 || op == 0x4004 || op == 0x4101 || op == 0x1001 || op == 0x1401 || op == 0x1501 || op == 0x1502

/-- Check 8 of a Bouquet: each stage in turn (R207); the failing stage. -/
def bouquetKeys (s : State) (dom : Nat) (blk : Bytes) : Option (Status × Nat) :=
  ((stages blk).mapIdx (fun i r => (i, if stKind r == 1 then keyStatus s dom (symReq (stFunc r) (stKey r))
    else if stKind r == 3 then keyStatus s dom (digestReq (stFunc r) (stKey r)) else none))).findSome? (fun x => x.2.map (fun st => (st, x.1)))

/-- Check 8 for a job of a queue's domain (R189, R217, R301, R370, R457).
DESIGN CHOICE (log 39): a Bouquet that a debug right forbids (R457) fails after the key checks of all its stages, as a whole: FAILED_STAGE is 0xFE. -/
def check8 (s : State) (dom : Nat) (d blk : Bytes) : Option (Status × Nat) :=
  let locked := (s.dbg.active.getLsbD 3 || s.dbg.active.getLsbD 5) && bearsSecret s d blk
  let own : Option Status :=
    if dOp d == 0x1301 || dOp d == 0x1303 || dOp d == 0x1304 then hbsStatus s dom d
    else if dOp d == 0x4005 then eraseStatus s dom (dKey d)
    else if dOp d == 0x4201 && (attestSecret s).isNone then some .keyNotFound
    else (keyReqs s d blk).findSome? (keyStatus s dom)
  if dOp d == 0x3801 then
    match bouquetKeys s dom blk with
    | some x => some x
    | none => if locked then some (.keyPolicy, 0xFE) else none
  else match own with
  | some st => some (st, 0)
  | none =>
    match policyStatus s dom d blk with
    | some st => some (st, 0)
    | none =>
      match (if namesCtx d then ctxStatus s dom d else none) with
      | some st => some (st, 0)
      | none => if locked then some (.keyPolicy, 0) else none

/-- The operation stages its input whole in sealed DRAM (R419). -/
def stagesInput (s : State) (d : Bytes) : Bool :=
  match kernelOp s.eph.kernels (dOp d) (dParam d) with
  | some (k, o) => decide (o.inMax > (k.operandTiles - k.windowTiles - 1) * 512)
  | none => dOp d == 0x1403

/-- A job that is not secret-bearing needs sealed DRAM: a spilled context, a resident public key, to load one, or input that is staged there
(R313, R419, R469). -/
def needsDram (s : State) (d blk : Bytes) : Bool :=
  (match namedCtx s d with | some c => c.spilled | none => false) || dOp d == 0x1403 || (keyReqs s d blk).any (fun r => hType r.h == 0x28) ||
    stagesInput s d

/-- Check 9 (R189, R469, R474). -/
def check9 (s : State) (d blk : Bytes) : Option Status :=
  if s.tam.quarantine && (bearsSecret s d blk || (s.sc.sealDead && needsDram s d blk)) then some .abortedTamper else none

/-- An owner operation runs masked: its package supports an order and its WCET entry is of one (R421, R423). -/
def ownerMasked (s : State) (d : Bytes) (k : KernelPkg) : Bool :=
  k.orders != 0 && ((kernelWcet s.part k (dOp d) (dParam d) (orderOf s.eph.cfg (dClass d))).map (fun w => w.order != 0)).getD true

/-- A job needs fresh randomness (R20); an owner operation does where it runs masked (DEDUCED: nothing else says whether it draws, log 37). -/
def needsRandom (s : State) (d : Bytes) : Bool :=
  let op := dOp d
  let f := dFamily d
  match ownerOp s d with
  | some (k, _) => ownerMasked s d k
  | none =>
  if f == 0x30 then op != 0x3021
  else if f == 0x31 || f == 0x32 || f == 0x23 then false
  else if f == 0x38 then true
  else if f == 0x10 then true
  else if f == 0x11 || f == 0x12 then op % 2 == 1
  else if f == 0x13 then op == 0x1301 || op == 0x1303
  else if f == 0x14 || f == 0x15 then true
  else if f == 0x20 then op != 0x2002
  else if f == 0x21 then op != 0x2102
  else if f == 0x22 then op != 0x2203
  else op == 0x4001 || op == 0x4002 || op == 0x4003 || op == 0x4004 || op == 0x4101 || op == 0x4202

/-- A Bouquet needs randomness where a stage runs on a BCE (R20, R362). -/
def needsRandomB (s : State) (d blk : Bytes) : Bool := if dOp d == 0x3801 then (stages blk).any (fun r => stKind r == 1) else needsRandom s d

/-- The completion of a job that failed a check (R190, R195, R208). -/
def checkEntry (d : Bytes) (tag : Nat) (st : Status) (n : Nat) : Completion :=
  if dOp d == 0x3801 then { tag := tag, status := st, inline := [byteOf n, byteOf (dSpec d 52)] }
  else { tag := tag, status := st, bytes := if st == .outputTooSmall then n else 0 }

/-- Checks 1 to 9 at fetch and step 4, in order (R189, R207). -/
def fetchChecks (s : State) (cls dom : Nat) (d : Bytes) (b : BlockIn) : Option Completion :=
  let tag := dTag d
  let blk := blockOf s d b
  let whole := if dOp d == 0x3801 then 0xFE else 0
  match (if dOp d == 0x3801 then bouquetChecks s cls d b else checks17 s cls d b) with
  | some (st, n) => some (checkEntry d tag st n)
  | none =>
    match check8 s dom d blk with
    | some (st, n) => some (checkEntry d tag st n)
    | none => (check9 s d blk).map (fun st => checkEntry d tag st whole)

end Sys2Proof.Machine
end

