-- ==== Sys2Proof/Machine/Queues.lean ====
section
/-!
DEFINITION. Doorbells, the admin queue's start, the event ring's head and the interrupt timer (R122 to R124, R148 to R152, R160 to R168,
R178 to R180).
-/
namespace Sys2Proof.Machine

/-! ### Who answers -/

/-- The function or slice exists, is READY and is not in reset (R113, R121, R143). -/
def serves (s : State) (f : Fn) : Bool :=
  (match s.fn? f with | some x => x.ready && !x.resetting && !x.d3 | none => false) &&
    (match s.fn? (carrier f) with | some x => !x.resetting && !x.d3 | none => false)

/-- BAR accesses reach the function: its bus is routed, Memory Space Enable is 1 and it is in D0 (R120, R128, R141). -/
def barOpen (s : State) (f : Fn) : Bool :=
  s.link.up && routed s f && (match s.fn? (carrier f) with | some x => x.memSpace && !x.d3 | none => false)

/-- The instance may issue DMA (R121, R128). -/
def mayDma (s : State) (f : Fn) : Bool := serves s f && s.link.up && (s.fnOf (carrier f)).busMaster

/-- Register writes reach a page: it exists, its BAR answers, and no reset is in progress (R128, R143). -/
def pageOpen (s : State) (f : Fn) : Bool := barOpen s f && (match s.fn? f with | some x => !x.resetting | none => false)

/-- Whether a function serves once no reset is in progress (R108, R114, R121). -/
def mayServe (s : State) : Fn → Bool
  | .pf0 => s.boot.done
  | .pf1 => s.boot.done && sliceMode s
  | .vf n => s.boot.done && vfLives s n && n ≤ s.link.numVfs
  | .slice n => s.boot.done && (s.slice? n).isSome

/-- Admin-queue registers take writes from link up (R113), but not those of a function whose READY stays 0 (R121). -/
def aqOpen (s : State) (f : Fn) : Bool := pageOpen s f && (!s.boot.done || mayServe s f)

/-- A write that an IDE stream carried is discarded where the stream is not Secure (R140), or where its RID association, if one is set, does not cover
the requester (R139; log 39). -/
def ideDiscards (s : State) (w : RegAccess) : Bool :=
  match w.ide with
  | some id => !(s.doe.streams.any (fun x => x.id == id && x.secure)) ||
      s.doe.blocks.any (fun b => b.id == id && b.on && (b.rid.map (fun r => !(decide (r.1 ≤ w.rid) && decide (w.rid ≤ r.2)))).getD false)
  | none => false

/-- A register read answered: Unsupported Request while the BARs are closed (R128), zeros while the function resets (R143). -/
def answerRead (f : Fn) (v : Nat) (s : State) : State :=
  if !(barOpen s f) then answerUr f s else emit (.readValue (if (s.fnOf f).resetting then 0 else v)) s

/-- The slice that owns a doorbell page (R124). -/
def pageOwner (s : State) (page : Nat) : Option Slice := s.slices.find? (fun x => x.firstPage ≤ page && page < x.firstPage + x.pageCount)

/-- The function page that a BAR0 offset lies in, with the offset within it (R122). -/
def pageAt (s : State) (t : RegTarget) (off : Nat) : Option (Fn × Nat) :=
  match t with
  | .bar0 .pf0 => if 0x100000 ≤ off && off < 0x101000 then some (.pf0, off - 0x100000) else none
  | .bar0 .pf1 => if (s.slice? (off / 4096)).isSome then some (.slice (off / 4096), off % 4096) else none
  | .bar0 (.vf n) => if off < 4096 then some (.vf n, off) else none
  | _ => none

/-- A slice's queue pair under a doorbell: one of page 255's last slot would be 0xFFFF, the admin queue's id, and does not exist (R124, R145). -/
def slicePair (x : Slice) (off : Nat) : Option (Fn × Nat × Bool) :=
  let q := (off / 4096 - x.firstPage) * 256 + off % 4096 / 16
  if q == 0xFFFF then none else some (.slice x.num, q, off % 16 == 8)

/-- The doorbell under a register write: its instance, its queue-pair id, and whether it is the CQ head (R123, R124, R167). -/
def doorbellAt (s : State) (w : RegAccess) : Option (Fn × Nat × Bool) :=
  if w.width != 32 || ideDiscards s w then none
  else match w.target with
  | .bar2 .pf1 => if w.off % 8 != 0 then none else (pageOwner s (w.off / 4096)).bind (fun x => slicePair x w.off)
  | .bar2 (.slice _) => none
  | .bar2 f => if w.off % 8 == 0 && w.off < 65536 then some (f, w.off / 16, w.off % 16 == 8) else none
  | t =>
    match pageAt s t w.off with
    | some (f, 0x114) => some (f, 0xFFFF, false)
    | some (f, 0x118) => some (f, 0xFFFF, true)
    | _ => none

/-! ### Error stops (R161 to R164) -/

/-- The event of a queue that stopped (R163, R179). -/
def stopEvent (f : Fn) (q kind reason latched : Nat) (s : State) : State :=
  if q == 0xFFFF then ringEvent f 0x0004 0xFFFF reason latched s else ringEvent f kind q reason latched s

/-- An SQ stops in error (R161 to R163). -/
def stopSq (f : Fn) (q reason latched : Nat) (s : State) : State :=
  match s.sq? f q with
  | none => s
  | some x =>
    if x.st == .error then s
    else stopEvent f q 0x0001 reason latched (s.onSq f q (fun x => { x with st := .error, reason := reason, latched := latched }))

/-- A CQ stops in error, and every SQ bound to it with CQ_ERROR; the admin SQ is never stopped so (R161, R164, R169). -/
def stopCq (f : Fn) (q reason latched : Nat) (s : State) : State :=
  match s.cq? f q with
  | none => s
  | some x =>
    if x.st == .error then s
    else
      let s := stopEvent f q 0x0002 reason latched (s.onCq f q (fun x => { x with st := .error, reason := reason, latched := latched }))
      (s.sqs.filter (fun x => x.fn == f && x.cq == q && x.id != 0xFFFF)).foldl (fun s x => stopSq f x.id 0x0A x.head s) s

/-! ### Doorbell rules (R150 to R152) -/

/-- An SQ-tail doorbell of value `v` (R150). -/
def sqTailRule (f : Fn) (q v : Nat) (s : State) : State :=
  match s.sq? f q with
  | none => s
  | some x =>
    let n := x.depth
    let i := v % 131072
    if x.st == .error then s
    else if idxSlot i ≥ n then stopSq f q 0x01 i s
    else if idxDist n x.head i > n then stopSq f q 0x02 i s
    else if idxDist n x.head i < idxDist n x.head x.tail then stopSq f q 0x03 i s
    else s.onSq f q (fun x => { x with tail := i, arrivals := x.arrivals ++ List.replicate (idxDist n x.tail i) s.clk })

/-- A CQ-head doorbell of value `v` (R151, R157, R158). -/
def cqHeadRule (f : Fn) (q v : Nat) (s : State) : State :=
  match s.cq? f q with
  | none => s
  | some c =>
    let i := v % 131072
    if c.st == .error then s
    else if idxSlot i ≥ c.depth then stopCq f q 0x11 i s
    else if idxDist c.depth c.head i > c.used then stopCq f q 0x12 i s
    else drainCq f q (s.onCq f q (fun c => { c with head := i }))

/-- A doorbell write where it lands, if anywhere (R113, R121, R123, R124, R128). -/
def doorbellWrite (head : Bool) (w : RegAccess) (s : State) : State :=
  match doorbellAt s w with
  | none => s
  | some (f, q, h) =>
    if h != head || !(serves s f) || !(barOpen s f) then s
    else if h then cqHeadRule f q w.value s else sqTailRule f q w.value s

/-- SQ_TAIL_DOORBELL (R150). -/
def execSqTailDoorbell (w : RegAccess) (s : State) : Host.Outcome State Fault Refusal := .next (doorbellWrite false w s)

/-- CQ_HEAD_DOORBELL (R151). -/
def execCqHeadDoorbell (w : RegAccess) (s : State) : Host.Outcome State Fault Refusal := .next (doorbellWrite true w s)

/-! ### The admin queue (R167, R168) -/

/-- The empty admin queues of an instance (R168). -/
def adminSq (x : FnState) : Sq := { fn := x.fn, id := 0xFFFF, base := x.aqSqBase.toNat, log2 := x.aqSqLog2, cq := 0xFFFF }
def adminCq (x : FnState) : Cq :=
  { fn := x.fn, id := 0xFFFF, base := x.aqCqBase.toNat, log2 := x.aqCqLog2, credits := 2 ^ x.aqCqLog2, vector := 0, k := 1 }

/-- A depth field lies in 1 to 12. -/
def adminLog2Ok (n : Nat) : Bool := 1 ≤ n && n ≤ 12

/-- A write of AQ_SIZE (R113, R167, R168); a refused ENABLE = 1 still stores its depth fields (DESIGN CHOICE: R168 does not say, log 38). -/
def aqSizeWrite (f : Fn) (v : Nat) (s : State) : State :=
  match s.fn? f with
  | none => s
  | some x =>
    if x.aqEnable || !(aqOpen s f) then s
    else
      let y := { x with aqSqLog2 := bitsOf v 0 5, aqCqLog2 := bitsOf v 8 5 }
      if !(bitOf v 31) then s.onFn f (fun _ => y)
      else if !(serves s f) then s
      else if !(adminLog2Ok y.aqSqLog2) || !(adminLog2Ok y.aqCqLog2) || y.aqSqBase == 0 || y.aqCqBase == 0 then
        s.onFn f (fun _ => { y with aqConfigErr := true })
      else
        { s.onFn f (fun _ => { y with aqEnable := true, aqConfigErr := false }) with sqs := s.sqs ++ [adminSq y], cqs := s.cqs ++ [adminCq y] }

/-- AQ_ENABLE (R168): `value` is the word written to AQ_SIZE. -/
def execAqEnable (fn : Fn) (value : Word) (s : State) : Host.Outcome State Fault Refusal := .next (aqSizeWrite fn value.toNat s)

/-! ### The event ring (R178 to R180) -/

/-- A write of EVR_HEAD releases records, or stops the ring (R151, R180). -/
def evrHeadWrite (f : Fn) (v : Nat) (s : State) : State :=
  match s.fn? f with
  | none => s
  | some x =>
    let e := x.evr
    let n := 2 ^ e.log2
    let i := v % 131072
    if !e.present || e.stopped || !(pageOpen s f) then s
    else if idxSlot i ≥ n || idxDist n e.head i > idxDist n e.head e.tail then s.onFn f (fun y => { y with evr := { y.evr with stopped := true } })
    else s.onFn f (fun y => { y with evr := { y.evr with head := i } })

/-- EVR_HEAD (R180). -/
def execEvrHead (fn : Fn) (value : Word) (s : State) : Host.Outcome State Fault Refusal := .next (evrHeadWrite fn value.toNat s)

/-- A read of EVR_DROPPED returns the count and clears it (R180). -/
def evrDroppedRead (f : Fn) (s : State) : State :=
  let t := answerRead f (s.fnOf f).evr.droppedReg s
  if barOpen s f && !(s.fnOf f).resetting then t.onFn f (fun y => { y with evr := { y.evr with droppedReg := 0 } }) else t

/-- EVR_DROPPED_READ (R180). -/
def execEvrDroppedRead (fn : Fn) (s : State) : Host.Outcome State Fault Refusal := .next (evrDroppedRead fn s)

/-! ### The interrupt timer (R166) -/

/-- The vector is signalled once T Transits have passed since the first entry not yet signalled (R166). -/
def cqTimer (f : Fn) (q : Nat) (s : State) : State :=
  match s.cq? f q with
  | none => s
  | some c =>
    match c.firstUnsig with
    | some t => if c.t > 0 && s.clk ≥ t + 1024 * c.t then signalCq f q s else s
    | none => s

/-- CQ_INTERRUPT_TIMER (R166). -/
def execCqInterruptTimer (fn : Fn) (q : Nat) (s : State) : Host.Outcome State Fault Refusal := .next (cqTimer fn q s)

end Sys2Proof.Machine
end

