-- ==== Sys2Proof/Machine/Tiles.lean ====
section
/-!
DEFINITION. Cluster memory: 1 MiB of tiles held as the bytes that are not zero, in strictly rising order of address (R396, R398).
-/
namespace Sys2Proof.Machine

/-- The canonical form: addresses strictly rising, no zero byte listed. -/
def Memory.wf : List Host.Cell → Bool
  | [] => true
  | [c] => c.2 != 0
  | c :: d :: r => c.2 != 0 && decide (c.1 < d.1) && Memory.wf (d :: r)

/-- One byte; an unlisted one reads 0. -/
def cellRead : List Host.Cell → Nat → Byte
  | [], _ => 0
  | c :: r, a => if c.1 = a then c.2 else cellRead r a

/-- One byte written; a zero is not listed. -/
def cellWrite : List Host.Cell → Nat → Byte → List Host.Cell
  | [], a, b => if b = 0 then [] else [(a, b)]
  | c :: r, a, b =>
    if a < c.1 then (if b = 0 then c :: r else (a, b) :: c :: r)
    else if a = c.1 then (if b = 0 then r else (a, b) :: r)
    else c :: cellWrite r a b

/-- `n` bytes from `a` upward. -/
def cellsRead (m : List Host.Cell) (a n : Nat) : Bytes := (List.range n).map (fun i => cellRead m (a + i))

/-- A byte string written from `a` upward. -/
def cellsWrite (m : List Host.Cell) (a : Nat) : Bytes → List Host.Cell
  | [] => m
  | b :: r => cellsWrite (cellWrite m a b) (a + 1) r

/-- The tiles of 512 bytes that `n` bytes from `a` touch. -/
def tilesOf (a n : Nat) : List Nat := if n = 0 then [] else (List.range ((a + n - 1) / 512 - a / 512 + 1)).map (fun i => a / 512 + i)

end Sys2Proof.Machine
end

