-- ==== Sys2Proof/Machine/Orrery.lean ====
section
/-!
DEFINITION. The Orrery: fetch (R148 to R162, R189), step 5 (R511, R50 to R52), dispatch and preemption (R22 to R24, R54, R60, R207),
and the further tokens of R276.
-/
namespace Sys2Proof.Machine

/-! ### Budget tokens (R50 to R52) -/

/-- One token in the units that a bucket's level counts: jobs per second times ns times 4,096. -/
def tokenUnit : Nat := 4096 * 1000000000

/-- The depth of a queue's bucket in a pool (R51). -/
def bucketDepth (s : State) (q : Sq) (p : Pool) : Nat := ((poolCfgOf s.eph.cfg q.cls p).map (fun c => c.sigma * q.share / 4096)).getD 0

/-- The rate of a queue's bucket in a pool, in the same units per ns (R51). -/
def bucketRate (s : State) (q : Sq) (p : Pool) : Nat := ((poolCfgOf s.eph.cfg q.cls p).map (fun c => c.rho * q.share)).getD 0

/-- A bucket brought up to now: it accrues, and it is full at its depth (R51, R52). -/
def accrue (s : State) (q : Sq) (b : Bucket) : Bucket :=
  { b with level := min ((bucketDepth s q b.pool * tokenUnit : Nat) : Int) (b.level + ((bucketRate s q b.pool * (s.clk - b.asOf) : Nat) : Int)), asOf := s.clk }

/-- The bucket lets `k` tokens go: it holds them, or it is full and `k` is above its depth (R52). -/
def bucketGives (s : State) (q : Sq) (k : Nat) (b : Bucket) : Bool :=
  decide ((accrue s q b).level ≥ ((min k (bucketDepth s q b.pool) * tokenUnit : Nat) : Int))

/-- `k` tokens taken; the level may fall below zero (R52). -/
def takeFrom (s : State) (q : Sq) (k : Nat) (b : Bucket) : Bucket :=
  let a := accrue s q b
  { a with level := a.level - ((k * tokenUnit : Nat) : Int) }

/-- L_max of a class in a pool. -/
def lmaxOf (s : State) (cls : Nat) (p : Pool) : Nat := ((poolCfgOf s.eph.cfg cls p).map (fun c => c.lmax)).getD 4096

/-- `k` of R50 for a charged length. -/
def tokensFor (s : State) (cls : Nat) (p : Pool) (len : Nat) : Nat := max 1 (ceilDiv len (max 1 (lmaxOf s cls p)))

/-- The material length of the key that a handle names. -/
def materialLen (s : State) (h : Nat) : Nat := ((s.slot? (hSlot h)).map (fun x => x.material.length)).getD 0

/-- The tokens that a job takes, pool by pool (R50, R207); ERASE, the closing of a context and an all-COPY Bouquet take none. -/
def jobTokens (s : State) (cls : Nat) (d blk : Bytes) : List (Pool × Nat) :=
  let op := dOp d
  if op == 0x4005 || op == 0x3021 || op == 0x3121 then []
  else if op == 0x3801 then
    let k := fun (p : Pool) => (((stages blk).filter (fun r => stagePool r == some p)).map (fun r =>
      let sd := stageDesc d r (dInLen d)
      tokensFor s cls p (chargedLen sd (stBlock r) 0))).sum
    ([Pool.bce, Pool.dge].map (fun p => (p, k p))).filter (fun x => x.2 > 0)
  else match poolOfOp d with
    | none => []
    | some .vcc => [(.vcc, 1)]
    | some .mae => [(.mae, 1)]
    | some p => [(p, tokensFor s cls p (chargedLen d (effBlock s d blk) (materialLen s (dKey d))))]

/-- The largest k of a job: a Bouquet's largest over its stages (R50). -/
def jobK (s : State) (cls : Nat) (d blk : Bytes) : Nat :=
  if dOp d == 0x3801 then
    ((stages blk).map (fun r => match stagePool r with
      | some p => tokensFor s cls p (chargedLen (stageDesc d r (dInLen d)) (stBlock r) 0)
      | none => 1)).foldl max 1
  else ((jobTokens s cls d blk).map (fun x => x.2)).foldl max 1

/-- D of a class. -/
def deadlineOf (s : State) (cls : Nat) : Nat := ((classOf s.eph.cfg cls).map (fun c => c.d)).getD 1

/-! ### Step 5 (R511) -/

/-- A job that waits for tokens. -/
def waitsTokens (j : Job) : Bool := j.failed.isNone && (j.phase == .waitTokens || j.phase == .overrun)

/-- Tokens are free for a job: each bucket gives them, and no earlier job of its SQ waits for tokens (R52). -/
def tokensFree (s : State) (j : Job) (need : List (Pool × Nat)) : Bool :=
  match s.sq? j.fn j.sq with
  | none => true
  | some q =>
    !(s.jobs.any (fun x => x.fn == j.fn && x.sq == j.sq && x.id < j.id && waitsTokens x && !((jobTokens s x.cls x.desc x.block).isEmpty))) &&
      need.all (fun n => match q.buckets.find? (fun b => b.pool == n.1) with | some b => bucketGives s q n.2 b | none => true)

/-- Tokens leave a queue's buckets. -/
def spendTokens (s : State) (j : Job) (need : List (Pool × Nat)) : State :=
  s.onSq j.fn j.sq (fun q => { q with buckets := q.buckets.map (fun b => match need.find? (fun n => n.1 == b.pool) with | some n => takeFrom s q n.2 b | none => b) })

/-- Item (a): budget tokens (R50, R52). -/
def takeTokens (id : Nat) (s : State) : State :=
  match s.job? id with
  | none => s
  | some j =>
    if j.phase != .waitTokens then s
    else
      let need := jobTokens s j.cls j.desc j.block
      if need.isEmpty || tokensFree s j need then (spendTokens s j need).onJob id (fun j => { j with phase := .waitPlace })
      else s.onJob id (fun j => { j with late0 := { j.late0 with budget := true } })

/-- The domain's in-flight quota (R105, R221). -/
def inflightQuota (s : State) (dom : Nat) : Nat := ((s.eph.cfg.quotas.find? (fun q => q.1 == dom)).map (fun q => q.2.2.2)).getD 0
def slotQuota (s : State) (dom : Nat) : Nat := ((s.eph.cfg.quotas.find? (fun q => q.1 == dom)).map (fun q => q.2.1)).getD 0
def queueQuota (s : State) (dom : Nat) : Nat := ((s.eph.cfg.quotas.find? (fun q => q.1 == dom)).map (fun q => q.2.2.1)).getD 0

/-- Item (b): a place in the domain's quota and under the device limit (R26, R221). -/
def takePlace (id : Nat) (s : State) : State :=
  match s.job? id with
  | none => s
  | some j =>
    if j.phase != .waitPlace then s
    else
      let mine := (s.jobs.filter (fun x => x.inPlace && x.domain == j.domain)).length
      let all := (s.jobs.filter (fun x => x.inPlace)).length
      if mine < inflightQuota s j.domain && all < 8192 then s.onJob id (fun j => { j with inPlace := true, phase := .waitCredit })
      else s.onJob id (fun j => { j with late0 := { j.late0 with resource := true } })

/-- Item (c): a completion credit (R22, R156). -/
def takeCredit (id : Nat) (s : State) : State :=
  match s.job? id with
  | none => s
  | some j =>
    if j.phase != .waitCredit || j.failed.isSome then s
    else match s.cq? j.fn j.cq with
    | none => s
    | some c =>
      if c.credits > 0 then
        (s.onCq j.fn j.cq (fun c => { c with credits := c.credits - 1 })).onJob id (fun j => { j with credit := true, phase := .waitStaging })
      else s.onJob id (fun j => { j with late0 := { j.late0 with cqFull := true } })

/-- Bytes that a job's AEAD plaintext needs in hold-back (R27, R206, R361). -/
def holdNeed (j : Job) : Nat :=
  if dOp j.desc == 0x3801 then
    let rs := stages j.block
    ((rs.zip (stageLens (dInLen j.desc) rs 0 true)).map (fun x => if stKind x.1 == 1 && isTagDec (stFunc x.1) then x.2 else 0)).sum
  else if isAeadDec (dOp j.desc) then dInLen j.desc else 0

/-- The regions of sealed DRAM (R16). -/
inductive Region where
  | slotTable
  | arena
  | residentKeys
  | largeStaging
  | ctxOverflow
  | perDomain
  | scReserved

/-- The size of a region in MiB (R16). -/
def Region.mib : Region → Nat
  | .slotTable => 1024
  | .arena => 24576
  | .residentKeys => 2048
  | .largeStaging => 4096
  | .ctxOverflow => 256
  | .perDomain => 512
  | .scReserved => 256

/-- DRAM channels out of service, each of which takes an eighth of every region (R498). -/
def lostChans (s : State) : Nat := (s.chans.filter (fun c => !c.inService)).length
/-- `n` lowered by the share of the channels that are lost. -/
def cutByLoss (s : State) (n : Nat) : Nat := n / 8 * (8 - min 8 (lostChans s))
/-- The bytes that a region offers now (R16, R498). -/
def regionCap (s : State) (r : Region) : Nat := cutByLoss s (r.mib * 1048576)

/-- The resident public key that a job reads through the public-key cache: its slot (R30, R318). -/
def pkSlot (j : Job) : Option Nat :=
  let op := dOp j.desc
  if hType (dKey j.desc) == 0x28 && (op == 0x1401 || ((op == 0x1501 || op == 0x1502) && capMode (dParam j.desc) != 2)) then some (hSlot (dKey j.desc)) else none

/-- A job is past step 5 and not yet ended. -/
def pastStep5 (j : Job) : Bool := j.phase == .ready || j.phase == .running || j.phase == .preempted || j.phase == .overrun

/-- Evicts cached public keys that no job uses, the least recently used first, until `need` bytes fit in `cap` (R30). -/
def pkEvict (busy : List Nat) (cap need : Nat) : Nat → List (Nat × Nat × Nat) → Option (List (Nat × Nat × Nat))
  | 0, c => if (c.map (fun x => x.2.1)).sum + need ≤ cap then some c else none
  | f + 1, c =>
    if (c.map (fun x => x.2.1)).sum + need ≤ cap then some c
    else
      let free := c.filter (fun x => !(busy.contains x.1))
      match free.foldl (fun (b : Option (Nat × Nat × Nat)) x => match b with | some y => if x.2.2 < y.2.2 then some x else some y | none => some x) none with
      | none => none
      | some v => pkEvict busy cap need f (c.filter (fun x => x.1 != v.1))

/-- The bytes of the tree cache of a stateful key: every level's two trees, and 16 KiB (R302). -/
def treeCache (k : StatefulKey) : Nat :=
  let m := k.seed.length
  (k.heights.map (fun c => 2 ^ (((lmsType c).map (fun l => l.h)).getD 0 + 2) * m)).sum + 16384

/-- The tree cache of a key takes room: it is prepared, or a PREPARE past step 5 builds it (R302). -/
def cacheHeld (s : State) (k : StatefulKey) : Bool :=
  k.prepared || s.jobs.any (fun (j : Job) => dOp j.desc == 0x1303 && pastStep5 j && (stateful? s (dKey j.desc)).any (fun x => x.domain == k.domain && x.index == k.index))

/-- The length of the key that a job puts into its new slot (R225, R226). -/
def newKeyLen (j : Job) : Nat :=
  let op := dOp j.desc
  if op == 0x4001 then (keygenSizes (dAlgFam j.desc) (dParam j.desc) (dNewType j.desc) (gLength j.block)).2
  else if op == 0x4002 then (rawKeyLen (dNewType j.desc) (gLength j.block)).getD 0
  else if op == 0x2103 then if flag8 j.desc then ((pCurve (dParam j.desc)).map (fun c => c.f)).getD 0 else 0
  else if op == 0x2201 then if flag8 j.desc then (if dParam j.desc == 1 then 32 else 56) else 0
  else if op == 0x4003 then dInLen j.desc - 80
  else if dFamily j.desc == 0x15 then objKeyLen (cObjType j.block) else 0

/-- Material of this length lies in the arena (R15). -/
def arenaPart (n : Nat) : Nat := if n > 32 then n else 0

/-- The room in the arena that a job's new key takes (R15, R16); a job that finds none waits at step 5 (log 37). -/
def arenaNeed (j : Job) : Nat := arenaPart (newKeyLen j)

/-- The key-material arena's use: materials above 32 bytes, retiring copies, what jobs past step 5 will add, and tree caches (R15, R16, R302). -/
def arenaUsed (s : State) : Nat :=
  (s.slots.map (fun x => (if x.ktype != 0x28 then arenaPart x.material.length else 0) + (x.copies.map (fun c => arenaPart c.material.length)).sum)).sum +
    ((s.jobs.filter pastStep5).map arenaNeed).sum + ((anchored s).map (fun t => ((t.stateful.filter (cacheHeld s)).map treeCache).sum)).getD 0

/-- The next committed leaf that no job has taken, with its range (R253, R304). -/
def freeLeaf (k : StatefulKey) : Option (Nat × Nat × Nat) := (k.ranges.find? (fun r => max k.next r.1 < r.2)).map (fun r => (max k.next r.1, r.1, r.2))

/-- No reservation is written any more: no FULL session, or a read-only token (R254, R256). -/
def noReservations (s : State) : Bool := s.tok.session != .full || s.tok.readOnly

/-- The lowest context index that no context or job holds. -/
def freeCtx (s : State) : Option Nat :=
  (List.range (min 24576 (s.ctxs.length + 1))).find? (fun i => match s.ctx? i with | none => true | some c => !c.live && !c.busy && c.gen < 0x10000)

/-- Contexts kept wrapped, explicit ones and those of preempted jobs, and how many the store and the overflow region hold together
(R32, R366, R498). -/
def ctxKept (s : State) : Nat := (s.ctxs.filter (fun c => c.live || c.busy)).length + (s.jobs.map (fun j => j.saves.length)).sum
def ctxLimit (s : State) : Nat := 8192 + cutByLoss s 16384

/-- The contexts a domain holds open, reserved ones included (R367). -/
def openCtxs (s : State) (dom : Nat) : Nat := (s.ctxs.filter (fun c => (c.live || c.busy) && c.domain == dom)).length

/-- What item (d) answers: the job waits, ends with a status, or has taken everything. -/
inductive Staging where
  | wait
  | fail (st : Status)
  | took (s : State)

/-- A context index reserved for a job that opens one (R32, R367). -/
def reserveCtx (j : Job) (i : Nat) (s : State) : State :=
  let s : State := match s.ctx? i with
    | some _ => s.onCtx i (fun c => { c with busy := true, domain := j.domain })
    | none => { s with ctxs := s.ctxs ++ [{ idx := i, gen := 1, busy := true, domain := j.domain }] }
  s.onJob j.id (fun j => { j with ctx := some i })

/-- The bytes of resident public keys: those in their slots, and what jobs that load one have reserved (R16, R313). -/
def residentUsed (s : State) : Nat :=
  ((s.slots.filter (fun x => x.ktype == 0x28)).map (fun x => x.material.length)).sum + ((s.jobs.filter (fun j => j.phase != .done)).map (fun j => j.resident)).sum

/-- The bytes of large staging that a job's input takes, where its kernel reads it through the window (R16, R419). -/
def inputStaging (s : State) (d : Bytes) : Nat := if dOp d != 0x1403 && poolOfOp d == some .vcc && stagesInput s d then dInLen d else 0

/-- Item (d): staging and every other reservation (R27 to R32, R302, R304, R313, R320, R367). -/
def stageJob (j : Job) (s : State) : Staging :=
  let op := dOp j.desc
  let mib := 1048576
  let n := holdNeed j
  let buf := if op == 0x3801 then 8192 * (dSpec j.desc 52 - 1) else 0
  if arenaNeed j > 0 && arenaUsed s + arenaNeed j > regionCap s .arena then .wait
  else if op == 0x3801 && s.mem.bouquetUsed + buf > s.eph.cfg.split.2.2 * mib then .wait
  else if op == 0x1403 then
    if residentUsed s + dInLen j.desc > regionCap s .residentKeys then .fail .keyPolicy
    else .took (s.onJob j.id (fun j => { j with resident := dInLen j.desc }))
  else if op == 0x4001 && dAlgFam j.desc == 0x14 && dParam j.desc ≤ 0x0A then
    if s.mem.elimBy.isSome then .wait else .took { s with mem := { s.mem with elimBy := some j.id } }
  else if op == 0x3020 || op == 0x3120 || op == 0x3123 then
    if openCtxs s j.domain ≥ inflightQuota s j.domain then .fail .keyPolicy
    else match freeCtx s with
    | some i => if ctxKept s < ctxLimit s then .took (reserveCtx j i s) else .wait
    | none => .wait
  else if op == 0x1301 then
    if noReservations s then .fail .ledgerUnavailable
    else match stateful? s (dKey j.desc) with
    | some k => if (freeLeaf k).isSome || k.next ≥ leafCount k || k.version != hGen (dKey j.desc) then .took s else .wait
    | none => .took s
  else if op == 0x1303 then
    if s.jobs.any (fun x => x.id != j.id && dOp x.desc == 0x1303 && dKey x.desc == dKey j.desc && pastStep5 x) then .wait
    else match stateful? s (dKey j.desc) with
    | some k => if !k.prepared && arenaUsed s + treeCache k > regionCap s .arena then .wait else .took s
    | none => .took s
  else match pkSlot j with
  | some sl =>
    let tick := s.mem.lruTick + 1
    if s.mem.pkCache.any (fun x => x.1 == sl) then
      .took { s with mem := { s.mem with lruTick := tick, pkCache := s.mem.pkCache.map (fun x => if x.1 == sl then (x.1, x.2.1, tick) else x) } }
    else
      let len := materialLen s (dKey j.desc)
      match pkEvict ((s.jobs.filter pastStep5).filterMap pkSlot) (s.eph.cfg.split.2.1 * mib) len s.mem.pkCache.length s.mem.pkCache with
      | some c => .took { s with mem := { s.mem with lruTick := tick, pkCache := c ++ [(sl, len, tick)] } }
      | none => .wait
  | none =>
    let onDie := s.mem.holdBackUsed + n ≤ s.eph.cfg.split.1 * mib
    let large := (if onDie then 0 else n) + inputStaging s j.desc
    if large > 0 && s.mem.largeUsed + large > regionCap s .largeStaging then .wait
    else
      let m := { s.mem with bouquetUsed := s.mem.bouquetUsed + buf, holdBackUsed := s.mem.holdBackUsed + (if onDie then n else 0),
                            largeUsed := s.mem.largeUsed + large }
      .took (State.onJob { s with mem := m } j.id (fun j => { j with bouquetBuf := buf, holdBack := if onDie then n else 0, largeStage := large }))

/-- Item (d) taken, waited for, or answered with a status. -/
def takeStaging (id : Nat) (s : State) : State :=
  match s.job? id with
  | none => s
  | some j =>
    if j.phase != .waitStaging then s
    else match stageJob j s with
    | .wait => s.onJob id (fun j => { j with late0 := { j.late0 with resource := true } })
    | .fail st => failJob j (failEntry j st []) s
    | .took s' => s'.onJob id (fun j => { j with phase := .ready })

/-- A job that failed a check takes a credit and completes, or waits for one (R190, R511). -/
def completeFailed (j : Job) (c : Completion) (s : State) : State :=
  match s.cq? j.fn j.cq with
  | none => s
  | some q =>
    if q.credits > 0 then deliver j c s
    else s.onJob j.id (fun j => { j with phase := .waitCredit, late0 := { j.late0 with cqFull := true } })

/-- A job goes through step 5 as far as it can (R511). -/
def reserveJob (id : Nat) (s : State) : State :=
  match s.job? id with
  | none => s
  | some j =>
    match j.failed with
    | some c => if j.phase == .done then s else completeFailed j c s
    | none => takeStaging id (takeCredit id (takePlace id (takeTokens id s)))

/-- JOB_RESERVE (R511). -/
def execJobReserve (job : Nat) (s : State) : Host.Outcome State Fault Refusal := .next (reserveJob job s)

/-! ### Fetch (R148 to R162, R188 to R190) -/

/-- The Orrery fetches from an SQ now (R26, R128, R158, R160). -/
def canFetch (s : State) (f : Fn) (x : Sq) : Bool :=
  x.st == .enabled && x.id != 0xFFFF && !x.arrivals.isEmpty && mayDma s f &&
    (match s.cq? f x.cq with | some c => c.st == .enabled && !c.episode | none => false) &&
    (s.jobs.filter (fun j => j.inPlace)).length < 8192

/-- The entry reason of R161 that an entry breaks, the lowest first; 0 for none. -/
def entryReason (s : State) (f : Fn) (q : Nat) (d : Bytes) : Nat :=
  if !(knownFamily (dFamily d)) then 0x05
  else if !(flagsOk d) then 0x06
  else if dClass d > 15 then 0x07
  else if s.jobs.any (fun j => j.fn == f && j.sq == q && j.tag == dTag d) then 0x08
  else 0

/-- A pool that the job needs has no unit in service (R497). -/
def poolGone (s : State) (j : Job) : Bool := (jobPools j).any (fun p => poolDead s p)

/-- A job was halted under KERNEL_STEP at some time since `t` (R61, R462). -/
def haltedSince (t : Nat) (s : State) : Bool := s.dbg.halted.isSome || s.dbg.haltEnd.any (fun e => decide (t ≤ e))

/-- The read of the parameters block that an entry names (R184). -/
def blockRead (f : Fn) (d : Bytes) (s : State) : State := if wantBlock s d == 0 then s else postRead f (dAux d) (wantBlock s d) s

/-- An entry is accepted: its block is read; its job takes the arrival Transit and deadline, goes through the checks, and enters step 5 (R21, R50, R189). -/
def acceptEntry (f : Fn) (x : Sq) (d : Bytes) (b : BlockIn) (s : State) : State :=
  let blk := blockOf s d b
  let arr := x.arrivals.headD s.clk
  let bad := if dFamily d == 0x42 && dSpec d 52 == 1 && f != .pf0 then some (checkEntry d (dTag d) .malformedDescriptor 0)
    else fetchChecks s x.cls x.domain d b
  let j0 : Job := { id := s.nextJob, fn := f, sq := x.id, cq := x.cq, tag := dTag d, desc := d, block := blk, cls := x.cls, domain := x.domain, arrival := arr }
  let bad := match bad with
    | some c => some c
    | none => if poolGone s j0 then some (failEntry j0 .abortedFault (wholeInline j0)) else none
  let c := if bad.isNone then (namedCtx s d).map (fun c => c.idx) else none
  let late : LateCause := { suspended := s.eph.suspended.contains x.cls, debug := haltedSince arr s && (jobPools j0).contains .vcc,
                            cqFull := decide (x.fullStop > 0), resource := decide (x.limitStop > 0) }
  let j := { j0 with deadline := arr / 1024 + jobK s x.cls d blk * deadlineOf s x.cls, failed := bad, ctx := c, late0 := late,
                     phase := if bad.isSome then .waitCredit else .waitTokens }
  let upd : Sq → Sq := fun y => { y.pass with fullStop := y.fullStop - 1, limitStop := y.limitStop - 1 }
  let s := blockRead f d s
  let s := { s.onSq f x.id upd with jobs := s.jobs ++ [j], nextJob := s.nextJob + 1 }
  let s := match c with | some i => s.onCtx i (fun c => { c with busy := true }) | none => s
  reserveJob j.id s

/-- One fetch from an SQ: the read at base + i × 64, then its answer (R146, R161, R162, R189). -/
def fetchOne (f : Fn) (q : Nat) (x : Fetch) (s : State) : State :=
  match s.sq? f q with
  | none => s
  | some sq =>
    if !(canFetch s f sq) then s
    else
      let s := fetchRead f q s
      match x.entry with
      | none => stopSq f q 0x04 sq.head s
      | some e =>
      let d := sliceZ e 0 64
      let r := entryReason s f q d
      if r != 0 then stopSq f q r sq.head s else acceptEntry f sq d x.block s

/-- SQ_FETCH (R189). -/
def execSqFetch (fn : Fn) (q : Nat) (f : Fetch) (s : State) : Host.Outcome State Fault Refusal := .next (fetchOne fn q f s)

/-! ### The EDF order and the choice of units (R54, R60, R207, R317, R344) -/

/-- EDF order: jobs of suspended classes last, then the deadline, then the order of fetch (R23, R54, R60). -/
def before (s : State) (a b : Job) : Bool :=
  let sa := s.eph.suspended.contains a.cls
  let sb := s.eph.suspended.contains b.cls
  if sa != sb then sb else if a.deadline != b.deadline then a.deadline < b.deadline else a.id < b.id

/-- The package that serves a VCC job, if a loaded one does (R107, R427). -/
def pkgOf (s : State) (j : Job) : Option (KernelPkg × KOp) := kernelOp s.eph.kernels (dOp j.desc) (dParam j.desc)

/-- The algorithm id under which the ROM carries the kernel of a job's family (10_lattice_services.md, 11_hash_based_signatures.md,
12_code_based_and_capsules.md, R329); KEYGEN names the family. -/
def romAlg (d : Bytes) : Nat :=
  let f := if dOp d == 0x4001 then dAlgFam d else dFamily d
  (Config.romKernels.find? (fun a => a == f)).getD 0

/-- The algorithm id that a record about a job's kernel names (R414). -/
def algOf (s : State) (j : Job) : Nat := ((pkgOf s j).map (fun k => k.1.algId)).getD (romAlg j.desc)

/-- The ROM kernel of a job: the whole slot as its grant, its window, constants and entry open within their bounds (R421; log 39). -/
def romPkg (d : Bytes) : KernelPkg × KOp :=
  let image := Config.romImage (romAlg d)
  ({ algId := romAlg d, operandTiles := 448, windowTiles := Config.romWindow (dOp d) (dParam d) % 33, windowed := image.length,
     constTiles := (Config.romConsts (romAlg d)).take 256 ++ image }, { entry := Config.romEntry (dOp d) (dParam d) })

/-- The kernel that serves a VCC job: a loaded one, or the ROM's (R107). -/
def kernelFor (s : State) (j : Job) : KernelPkg × KOp := (pkgOf s j).getD (romPkg j.desc)

/-- A VCC job that holds its quadrant's GF(2) grant (R317, R421). -/
def takesGrant (s : State) (d : Bytes) : Bool :=
  match ownerOp s d with
  | some (k, _) => k.gf2
  | none => dOp d == 0x1401 || dOp d == 0x1402 || (dOp d == 0x4001 && dAlgFam d == 0x14 && dParam d ≥ 0x11) || (dFamily d == 0x15 && capMode (dParam d) != 2)

/-- A unit in service that runs nothing and that the job may use. -/
def unitFree (s : State) (j : Job) (u : Nat) : Bool :=
  !(j.excluded.contains u) && (match s.unit? u with | some x => x.st == .inService && x.job.isNone | none => false)

/-- Free units of a pool for a job, in ascending id. -/
def freeOf (s : State) (j : Job) (p : Pool) : List Nat := ((s.units.filter (fun u => poolOfUnit u.id == some p)).map (fun u => u.id)).filter (unitFree s j)

/-- A free cluster with a free resident slot (R54, R396). -/
def clusterOpen (s : State) (j : Job) (u : Nat) : Bool :=
  unitFree s j u && decide (((s.vcc[u]?).map (fun c => c.resid.length)).getD 4 < 4) && !(s.dbg.halted.isSome && s.dbg.haltedOn == u)

/-- The GF(2) grant of a quadrant is free where the job needs it. -/
def grantOpen (s : State) (j : Job) (q : Nat) : Bool := !(takesGrant s j.desc) || (s.mem.grants.getD q none).isNone

/-- The clusters that a new VCC job takes: those named, where they can serve it together, else the first quadrant's lowest. -/
def placeClusters (s : State) (j : Job) (want : List Nat) : Option (List Nat) :=
  let g := gangOf s j.desc
  let inQuad := fun (q : Nat) => ((List.range 32).filter (fun u => quadrantOf s.part u == q && clusterOpen s j u))
  let named := want.length == g && want.eraseDups.length == g &&
    (List.range 4).any (fun q => grantOpen s j q && want.all (fun u => (inQuad q).contains u))
  if named then some want
  else ((List.range 4).find? (fun q => grantOpen s j q && decide ((inQuad q).length ≥ g))).map (fun q => (inQuad q).take g)

/-- The units that a job would take now; `none` where it cannot run (R54, R207). -/
def placeUnits (s : State) (j : Job) (want : List Nat) : Option (List Nat) :=
  let d := j.desc
  let named := fun (us : List Nat) => want.length == us.length && want.eraseDups.length == want.length && want.all (fun u => unitFree s j u)
  if dOp d == 0x3801 then
    let nb := ((stages j.block).filter (fun r => stagePool r == some .bce)).length
    let nd := ((stages j.block).filter (fun r => stagePool r == some .dge)).length
    let us := (freeOf s j .bce).take nb ++ (freeOf s j .dge).take nd
    if us.length < nb + nd then none
    else if named us && (want.filter (fun u => poolOfUnit u == some .bce)).length == nb && (want.filter (fun u => poolOfUnit u == some .dge)).length == nd then some want
    else some us
  else if dOp d == 0x4005 || dOp d == 0x3021 || dOp d == 0x3121 then some []
  else match poolOfOp d with
    | none => some []
    | some .vcc =>
      if j.phase == .preempted then
        (if j.units.all (unitFree s j) && grantOpen s j (quadrantOf s.part (j.units.headD 0)) && !(s.dbg.halted.isSome && j.units.contains s.dbg.haltedOn) then some j.units else none)
      else placeClusters s j want
    | some p =>
      match freeOf s j p with
      | [] => none
      | u :: _ => if named [u] && want.all (fun x => poolOfUnit x == some p) then some want else some [u]

/-- A job that waits in the order of its pools. -/
def isReady (j : Job) : Bool := j.phase == .ready || j.phase == .preempted

/-- The pools in whose order a job waits: none for a job without a unit. -/
def orderPools (j : Job) : List Pool := if dOp j.desc == 0x4005 || dOp j.desc == 0x3021 || dOp j.desc == 0x3121 then [] else jobPools j

/-- No ready job before it in its pools can run now; a Bouquet waits until none is before it at all (R54, R207).
DESIGN CHOICE (log 39): a suspended class's job takes a free unit that the unsuspended jobs ready in the pool cannot use, since R54 holds no unit
idle and R60 speaks of any ready job. -/
def isNextUp (s : State) (j : Job) : Bool :=
  !(s.jobs.any (fun x => x.id != j.id && isReady x && before s x j && (orderPools x).any (fun p => (orderPools j).contains p) &&
    (dOp j.desc == 0x3801 || (placeUnits s x []).isSome)))

/-! ### What a dispatch takes -/

/-- Handles that name slots, for pinning: KEY, AUX and the block's (R24, R218). -/
def pinHandles (s : State) (j : Job) : List Nat :=
  let hs := if dOp j.desc == 0x3801 then ((stages j.block).filter (fun r => stKind r == 1 || stKind r == 3)).map stKey
    else if dOp j.desc == 0x4005 then [] else (keyReqs s j.desc j.block).map (fun r => r.h)
  hs.filter (fun h => hType h != 0 && hType h != 1 && hType h != 0x23)

/-- The jobs that fill a new slot (R20, R225, R313, R324, R338, R342). -/
def fillsSlot (d : Bytes) : Bool :=
  let op := dOp d
  ((op == 0x4001 || op == 0x4002 || op == 0x4003) && !(flag8 d)) || op == 0x1403 || op == 0x1501 || op == 0x1503 || ((op == 0x2103 || op == 0x2201) && flag8 d)

/-- Slots that count against a domain's quota (R221). -/
def slotsUsed (s : State) (dom : Nat) : Nat := (s.slots.filter (fun x => x.st != .free && x.domain == dom)).length

/-- A slot that may take a new key: its entry lies on a channel in service (R217, R498). -/
def slotOpen (s : State) (i : Nat) : Bool :=
  i < 16777216 && ((s.chans[i / 64 % 8]?).map (fun c => c.inService)).getD true && (match s.slot? i with | none => true | some x => x.st == .free && x.gen < 0xFFFF)

/-- The slot that a new key takes: the one named where it is FREE, else the lowest (R225). -/
def chooseSlot (s : State) (want : Nat) : Option Nat :=
  let n := s.slots.length + 1
  if slotOpen s want then some want else (List.range (if lostChans s == 0 then n else 8 * n + 512)).find? (slotOpen s)

/-- A slot reserved for a job's new key: counted, holding no key yet. -/
def reserveSlot (dom i : Nat) (s : State) : State :=
  match s.slot? i with
  | some _ => s.onSlot i (fun x => { x with st := .occupied, domain := dom })
  | none => { s with slots := s.slots ++ [{ idx := i, st := .occupied, domain := dom, channel := i / 64 % 8 }] }

/-- A stateful key of the token changed through `g`. -/
def onStateful (dom index : Nat) (g : StatefulKey → StatefulKey) (s : State) : State :=
  let upd := modFirst (fun (k : StatefulKey) => k.domain == dom && k.index == index) g
  { s with tok := { s.tok with socket := s.tok.socket.map (fun t => { t with stateful := upd t.stateful }) } }

/-- The heights of a stateful key's levels, top first. -/
def levelHeights (k : StatefulKey) : List Nat := k.heights.map (fun c => ((lmsType c).map (fun l => l.h)).getD 0)

/-- The height of the bottom trees. -/
def bottomHeight (k : StatefulKey) : Nat := (levelHeights k).getLastD 0

/-- The levels whose tree changes where leaf `g` opens a new bottom tree. -/
def crossedLevels (k : StatefulKey) (g : Nat) : List Nat :=
  (List.range k.heights.length).filter (fun i => g % 2 ^ ((levelHeights k).drop i).sum == 0)

/-- The leaf leads into a tree whose next tree is incomplete (R303). -/
def crossStops (k : StatefulKey) (g : Nat) : Bool :=
  g / 2 ^ bottomHeight k != k.cacheTree && (crossedLevels k g).any (fun i => k.nextBuilt.getD i 0 < 2 ^ (levelHeights k).getD i 0)

/-- The reservation exponent of a stateful key (R105, R305). -/
def reserveExp (s : State) (k : StatefulKey) : Nat :=
  ((s.eph.cfg.reservations.find? (fun r => hDomain r.1 == k.domain && hSlot r.1 == k.index && (hGen r.1 == 0 || hGen r.1 == k.version))).map (fun r => r.2)).getD 16

/-- Leaf `g` of range [a, b) is taken: the next reservation is written once half of the range is taken (R253, R303, R304). -/
def takeLeaf (g a b : Nat) (k : StatefulKey) : StatefulKey :=
  let cross := g / 2 ^ bottomHeight k != k.cacheTree
  let built := if cross then k.nextBuilt.mapIdx (fun i n => if (crossedLevels k g).contains i then 0 else n) else k.nextBuilt
  { k with next := g + 1, ranges := k.ranges.filter (fun r => g + 1 < r.2), nextBuilt := built, cacheTree := g / 2 ^ bottomHeight k,
           writing := k.writing || (decide (2 * (g + 1 - a) ≥ b - a) && decide (k.endLeaf < leafCount k) && decide (k.ranges.length < 2)) }

/-- The event of a key that runs low, once a start (R305). -/
def noteLow (dom index : Nat) (s : State) : State :=
  match (anchored s).bind (fun t => t.stateful.find? (fun k => k.domain == dom && k.index == index)) with
  | none => s
  | some k =>
    let left := leafCount k - k.next
    if k.lowNoted || left ≥ 2 * 2 ^ reserveExp s k then s
    else raiseEvent 0x0404 0x0C00 (leBytes 8 (mkHandle dom 0x23 k.version index) ++ leBytes 8 left) (onStateful dom index (fun k => { k with lowNoted := true }) s)

/-! ### A VCC job laid out on its cluster (R416, R417) -/

/-- Random shares of a byte string: their exclusive or is the string (R280, R416). -/
def splitShares (n : Nat) (x : Bytes) (s : State) : List Bytes × State :=
  let r := (List.range (n - 1)).foldl (fun (acc : List Bytes × State) _ =>
    let d := drawBytes x.length acc.2
    (acc.1 ++ [d.1], d.2)) ([], s)
  (r.1 ++ [r.1.foldl xorBytes x], r.2)

/-- Bytes raised to whole tiles. -/
def tileBytes (n : Nat) : Nat := 512 * ceilDiv n 512

/-- The layout of a job's slot: share count, then lengths and bases of the regions. -/
structure SlotPlan where
  n : Nat := 1
  input : Bytes := []
  key : Bytes := []
  key2 : Bytes := []
  staged : Bool := false
  keyBase : Nat := 0x200
  key2Base : Nat := 0x200
  outBase : Nat := 0x200
  keyOut : Nat := 0x200
  free : Nat := 0x200
  outStride : Nat := 0

/-- The shares that a job's data takes: order + 1, or 1 for a kernel without masking (R416, R421). -/
def shareCount (s : State) (j : Job) : Nat :=
  match pkgOf s j with
  | some (k, _) => if k.orders == 0 then 1 else orderOf s.eph.cfg j.cls + 1
  | none => orderOf s.eph.cfg j.cls + 1

/-- The key material that a job pinned under a handle (R24, R218). -/
def keyBytes (s : State) (j : Job) (h : Nat) : Bytes :=
  if hType h == 1 then (j.mkey.map (fun k => k.key)).getD []
  else if hType h == 0x23 then (j.skey.map (fun k => k.seed)).getD []
  else match s.slot? (hSlot h) with
  | none => []
  | some x =>
    match j.pins.find? (fun p => p.1 == hSlot h) with
    | none => []
    | some p => if x.matGen == p.2 then x.material else ((x.copies.find? (fun c => c.gen == p.2)).map (fun c => c.material)).getD []

/-- The material that a job of the VCC pool finds in its slot, as it pinned it: none for a PUBLIC key; the seed of a stateful one. -/
def slotKey (s : State) (j : Job) (h : Nat) : Bytes := if hType h == 0 || hType h == 0x28 then [] else keyBytes s j h

/-- The plan of R416. -/
def slotPlan (s : State) (j : Job) (opTiles windowTiles : Nat) (input : Bytes) : SlotPlan :=
  let d := j.desc
  let n := shareCount s j
  let staged := match pkgOf s j with
    | some (_, o) => decide (o.inMax > (opTiles - windowTiles - 1) * 512)
    | none => dOp d == 0x1403
  let key := slotKey s j (dKey d)
  let key2 := match ownerOp s d with | some (_, o) => if ownerAuxIsKey o then slotKey s j (dAux d) else [] | none => []
  let kb := 0x200 + (if staged then 0 else tileBytes (dInLen d))
  let k2 := kb + n * tileBytes key.length
  let ob := k2 + n * tileBytes key2.length
  let os := tileBytes (dOutCap d)
  let ko := ob + n * os
  { n := n, input := if staged then [] else sliceZ input 0 (dInLen d), key := key, key2 := key2, staged := staged, keyBase := kb, key2Base := k2, outBase := ob,
    keyOut := ko, free := ko + n * tileBytes (newKeyLen j), outStride := os }

/-- The entry values of the scalar registers (R417). -/
def entryRegs (s : State) (j : Job) (p : SlotPlan) (opTiles windowTiles member quad : Nat) : List (BitVec 64) :=
  let d := j.desc
  ([0, dInLen d, dOutCap d, dParam d, dOp d, orderOf s.eph.cfg j.cls, p.key.length, tileBytes p.key.length, p.key2.length, tileBytes p.key2.length,
    Config.vlen s.part, member + 4 * quad, p.outStride] ++ List.replicate 11 0 ++
   [0x200, p.keyBase, p.key2Base, p.outBase, p.keyOut, (opTiles - windowTiles) * 512, 0x40000, p.free]).map (BitVec.ofNat 64)

/-- Shares written into a slot, `stride` bytes apart. -/
def writeShares (m : List Host.Cell) (base stride : Nat) (xs : List Bytes) : List Host.Cell :=
  (xs.mapIdx (fun i x => (i, x))).foldl (fun m x => cellsWrite m (base + x.1 * stride) x.2) m

/-- A kernel's resident constant tiles come before its windowed ones (R421). -/
def residentConsts (k : KernelPkg) : List Bytes := k.constTiles.take (k.constTiles.length - k.windowed)

/-- Resident constants go into the constant region whole (R396, R426). -/
def writeConsts (consts : List Bytes) (m : List Host.Cell) : List Host.Cell :=
  (consts.mapIdx (fun i t => (i, t))).foldl (fun m x => cellsWrite m (512 * x.1) (sliceZ x.2 0 512)) m

/-- The check words that still differ once the tiles that `whole` names are written whole (R397). -/
def keptChecks (whole : Nat → Bool) (c : Cluster) : List (Nat × BitVec 32) := c.badChecks.filter (fun x => !(whole x.1))

/-- Tiles found to fail: their check words differ from those of their bytes by free values other than 0 (R397; log 39). -/
def corrupted (s : State) (ts : List Nat) : List (Nat × BitVec 32) :=
  ts.mapIdx (fun i t => (t, BitVec.ofNat 32 (Config.freeNat (s.free + i) % (2 ^ 32 - 1) + 1)))

/-- A job takes a resident slot of a cluster: tiles, tags, registers and view (R396, R398, R416, R417, R426). -/
def enterCluster (j : Job) (d : DispatchIn) (gang : List Nat) (u : Nat) (s : State) : State :=
  match s.vcc[u]? with
  | none => s
  | some c =>
    let slot := ((List.range 4).find? (fun i => !(c.resid.any (fun r => r.slot == i)))).getD 0
    let pk := kernelFor s j
    let opT := pk.1.operandTiles
    let winT := pk.1.windowTiles
    let consts := residentConsts pk.1
    let input := d.input
    let p := slotPlan s j opT winT input
    let base := (256 + 448 * slot) * 512
    let r1 := splitShares p.n p.key s
    let r2 := splitShares p.n p.key2 r1.2
    let s := r2.2
    let m := cellsWrite c.tiles base (j.desc ++ j.block.take 448)
    let m := cellsWrite m (base + 0x200) p.input
    let m := if p.key.isEmpty then m else writeShares m (base + p.keyBase) (tileBytes p.key.length) r1.1
    let m := if p.key2.isEmpty then m else writeShares m (base + p.key2Base) (tileBytes p.key2.length) r2.1
    let m := writeConsts consts m
    let member := gang.findIdx (fun x => x == u)
    let regs : RegSave := { g := entryRegs s j p opT winT member (quadrantOf s.part u) }
    let pub := if hType (dKey j.desc) == 0x28 then keyBytes s j (dKey j.desc) else []
    let win := (pk.1.constTiles.drop consts.length).flatten
    let nps := ((vccEntry s.part s.eph.kernels (jobEntry j.desc) (orderOf s.eph.cfg j.cls) (dInLen j.desc)).map (fun x => x.2.1)).getD 20000
    let view : JobView := { opTiles := opT, windowTiles := winT, constTiles := consts.length, order := orderOf s.eph.cfg j.cls, outBase := p.outBase, keyOutBase := p.keyOut, outCap := dOutCap j.desc, compat := pk.1.compatQ4, gf2 := takesGrant s j.desc, gang := gang, source0 := pub, source1 := win, source2 := if p.staged then sliceZ input 0 (dInLen j.desc) else [], nps := nps, owner := (ownerOp s j.desc).isSome, rom := if (pkgOf s j).isNone then some pk.1.algId else none }
    let lo := 256 + 448 * slot
    let secret := (List.range (448)).filter (fun t => p.keyBase ≤ 512 * t && 512 * t < p.outBase)
    let c' : Cluster := { c with tiles := m, tileTags := c.tileTags ++ secret.map (fun t => lo + t), badChecks := keptChecks (fun t => t < consts.length) c ++ corrupted s (d.badTiles.filter (fun t => t < consts.length || (lo ≤ t && t < lo + opT))), regs := regs, pc := pk.2.entry, vresume := 0, trap := none, reloaded := [], grants := slot, modulus := pk.1.mods, resid := c.resid ++ [{ job := j.id, slot := slot, yielded := s.clk, view := view }] }
    { s with vcc := modAt s.vcc u (fun _ => c'), free := s.free + d.badTiles.length }

/-- The running job of a cluster. -/
def runningResid (c : Cluster) : Option Resid := c.resid.find? (fun r => r.saved.isNone)

/-- A window copy lands in its tiles, and a tile written whole has a new check word (R397, R405, R419); the spec gives no value for bytes past the end of the source (log 22). -/
def landFetch (r : Resid) (w : Nat × Nat × Nat × Nat) (c : Cluster) : Cluster :=
  let src := if w.2.1 == 0 then r.view.source0 else if w.2.1 == 1 then r.view.source1 else r.view.source2
  let got := sliceOf src w.2.2.1 w.2.2.2
  let rest := (List.range (w.2.2.2 - got.length)).map (fun i => Config.pastSource w.2.1 (w.2.2.1 + got.length + i))
  let p := (256 + 448 * r.slot) * 512 + w.1
  { c with tiles := cellsWrite c.tiles p (got ++ rest), badChecks := keptChecks (fun k => decide (p ≤ 512 * k) && decide (512 * k + 512 ≤ p + w.2.2.2)) c }

/-- The outstanding copies of a job complete (R420). -/
def landAll (job : Nat) (c : Cluster) : Cluster :=
  match c.resid.find? (fun r => r.job == job) with
  | none => c
  | some r =>
    let c := r.window.foldl (fun c w => landFetch r w c) c
    { c with resid := modFirst (fun x => x.job == job) (fun x => { x with window := [] }) c.resid }

/-- The registers of a cluster go into its running job's save area, after its outstanding copies (R420). -/
def saveCluster (job : Nat) (c : Cluster) : Cluster :=
  let c := landAll job c
  let upd : Resid → Resid := fun r => { r with saved := some { c.regs with pc := c.pc }, window := [] }
  { c with resid := modFirst (fun r => r.job == job && r.saved.isNone) upd c.resid, regs := {}, pc := 0, vresume := 0, reloaded := [], modulus := [] }

/-- A resident job's registers come back from its save area, with its kernel's constants (R420, R426). -/
def restoreCluster (now : Nat) (pk : KernelPkg) (job : Nat) (c : Cluster) : Cluster :=
  match c.resid.find? (fun r => r.job == job) with
  | none => c
  | some r =>
    let g := r.saved.getD {}
    let consts := residentConsts pk
    { c with tiles := writeConsts consts c.tiles, badChecks := keptChecks (fun t => t < consts.length) c, regs := { g with pc := 0 }, pc := g.pc, grants := r.slot, modulus := pk.mods, resid := modFirst (fun x => x.job == job) (fun x => { x with saved := none, yielded := now, point := true }) c.resid }

/-! ### An MAE's private memory (R345 to R349) -/

/-- A register of the private memory. -/
def maeReg (m : MaeMem) (r : Nat) : Nat := ((m.regs.find? (fun x => x.1 == r)).map (fun x => x.2)).getD 0

/-- The low `w` words of a register written. -/
def maeSet (m : MaeMem) (r w v : Nat) : MaeMem :=
  let old := maeReg m r
  { m with regs := m.regs.filter (fun x => x.1 != r) ++ [(r, old / 2 ^ (64 * w) * 2 ^ (64 * w) + v % 2 ^ (64 * w))] }

/-- The operand map loads input bytes and key material into registers (R349, R427). -/
def maeLoad (k : KernelPkg) (key inp : Bytes) (m : MaeMem) : MaeMem :=
  let load := fun (m : MaeMem) (e : Nat × Nat × Nat × Nat) =>
    if e.1 == 1 then maeSet m e.2.1 e.2.2.1 (beNat (sliceOf inp e.2.2.2 (8 * e.2.2.1)))
    else if e.1 == 2 then maeSet m e.2.1 e.2.2.1 (beNat key) else m
  k.map.foldl load m

/-- A program job finds its program and its operands in its engine (R345, R349). -/
def loadEngines (j : Job) (us : List Nat) (input : Bytes) (s : State) : State :=
  match runProgram s j.desc with
  | some k =>
    if dOp j.desc == 0x2310 then
      { s with mae := s.mae.mapIdx (fun i m => if us.contains (maeId i) then maeLoad k (keyBytes s j (dKey j.desc)) input { m with program := k.code } else m) }
    else s
  | none => s

/-! ### Fragment lists (R185 to R187) -/

/-- What the entries of a fragment list give before it ends: fragments, their sum, and the status of a breach. -/
structure Frags where
  frags : List (Nat × Nat) := []
  sum : Nat := 0
  bad : Option Status := none

/-- The entries of a list in order, against the declared length; `left` entries may still come. An entry that breaks both rules is a length
mismatch (R202). -/
def walkList (declared : Nat) : List Bytes → Nat → Frags → Frags
  | [], _, f => { f with bad := some .translationFault }
  | e :: r, left, f =>
    let len := fieldLE e 8 4
    let fl := fieldLE e 12 4
    if f.sum + len > declared || ((fl % 2 == 1 || left ≤ 1) && f.sum + len < declared) then { f with bad := some .lengthMismatch }
    else if fl > 1 then { f with bad := some .malformedDescriptor }
    else
      let f := { f with frags := f.frags ++ [(fieldLE e 0 8, len)], sum := f.sum + len }
      if fl == 1 || left ≤ 1 then f else walkList declared r (left - 1) f

/-- A whole list of at most 65,536 entries (R186). -/
def readList (declared : Nat) (es : List Bytes) : Frags := walkList declared es 65536 {}

/-- The input as the job reads it: its bytes, and the status of a list breach or a failed read. -/
def inputOf (d got : Bytes) (list : List Bytes) : Bytes × Option Status :=
  let n := dInLen d
  if dInList d then
    let f := readList n list
    let lim := min f.sum n
    if got.length < lim then (got, some .translationFault) else (got.take lim, f.bad)
  else if got.length < n then (got, some .translationFault)
  else (got.take n, none)

/-- Where output goes: the fragments of the output list, or the one buffer. -/
def outputOf (d : Bytes) (es : List Bytes) : Frags :=
  if dOutList d then readList (dOutCap d) es else { frags := [(dOutRef d, dOutCap d)], sum := dOutCap d }

/-- The entries of a list that have been read: those that gave a fragment, and one that breaks a rule (R186). -/
def entriesRead (f : Frags) : Nat := f.frags.length + (match f.bad with | some .translationFault => 0 | some _ => 1 | none => 0)

/-- The reads of a list: entries of 16 bytes, at most 32 a read (R186). -/
def listReads (f : Fn) (base n : Nat) (s : State) : State :=
  (List.range (ceilDiv n 32)).foldl (fun s i => postRead f (base + 512 * i) (16 * min 32 (n - 32 * i)) s) s

/-- The reads of `n` bytes laid out over fragments. -/
def dataReads (f : Fn) : List (Nat × Nat) → Nat → State → State
  | [], _, s => s
  | (a, k) :: r, n, s => dataReads f r (n - k) (postRead f a (min k n) s)

/-- The AAD that a symmetric parameters block names, read at dispatch (R184, R357): address and length. -/
def aadOf (b : Bytes) : Nat × Nat := (sAadRef b, sAadLen b)

/-- The strings that a digest parameters block names, read at dispatch (R184, R376): address and length. -/
def stringsOf (b : Bytes) : Nat × Nat := (bStrRef b, bNLen b + bSLen b)

/-- What the parameters blocks of a job, or of a Bouquet's stages, name by reference and its dispatch reads (R184, R205, R357, R367, R369, R376, R382). -/
def namedReads (j : Job) : List (Nat × Nat) :=
  let op := dOp j.desc
  let f := dFunc j.desc
  let whole := dSeg j.desc == 0
  if op == 0x3801 then
    (stages j.block).flatMap (fun r =>
      if stKind r == 1 && isAead (stFunc r) then [aadOf (stBlock r)] else if stKind r == 3 && stFunc r == 0x3104 then [stringsOf (stBlock r)] else [])
  else if op == 0x3120 || (0x3101 ≤ op && op ≤ 0x3106 && whole) then [stringsOf j.block]
  else if op == 0x3020 then (if !(psStream (dParam j.desc)) && (isGcm f || isGmac f || isChaPoly f) then [aadOf j.block] else [])
  else if isAead op && (whole || psStream (dParam j.desc)) then [aadOf j.block]
  else []

/-- The reads of a job's input, of its input list, and of what its parameters name, which leave as it starts (R125, R130, R184 to R188; log 39). -/
def inputReads (j : Job) (list : List Bytes) (s : State) : State :=
  let s := (namedReads j).foldl (fun s r => if r.2 == 0 then s else postRead j.fn r.1 r.2 s) s
  let n := dInLen j.desc
  if dInList j.desc then
    let f := readList n list
    dataReads j.fn f.frags (min f.sum n) (listReads j.fn (dInRef j.desc) (entriesRead f) s)
  else postRead j.fn (dInRef j.desc) n s

/-! ### Dispatch (R22 to R24, R54) -/

/-- Units start a job; a holder of the grant takes its quadrant's (R317). -/
def claimUnits (j : Job) (us : List Nat) (s : State) : State :=
  let q := quadrantOf s.part (us.headD 0)
  let grants := if takesGrant s j.desc && poolOfOp j.desc == some .vcc then modAt s.mem.grants q (fun _ => some j.id) else s.mem.grants
  { s with units := s.units.map (fun u => if us.contains u.id then { u with job := some j.id, busySince := s.clk } else u),
           mem := { s.mem with grants := grants },
           mae := s.mae.mapIdx (fun i m => if us.contains (maeId i) then { job := some j.id } else m) }

/-- LED/activity is asserted (R68). -/
def showActivity (s : State) : State := { s with pwr := { s.pwr with activity := true, activityAt := s.clk } }

/-- The dispatch frame, and KERNEL_STEP's halt before the first instruction (R61, R462, R464). -/
def noteDispatch (j : Job) (us : List Nat) (fresh : Bool) (s : State) : State :=
  let s := trace { kind := 1, unit := frameUnit (us.headD 0), inst := fnCode j.fn, sq := j.sq, value := j.tag, opcode := dOp j.desc, cls := j.cls } (showActivity s)
  if fresh && s.dbg.arm && s.dbg.halted.isNone && poolOfOp j.desc == some .vcc && us.contains s.dbg.cluster then
    let s := { s with dbg := { s.dbg with halted := some j.id, haltedOn := s.dbg.cluster, stepPc := ((s.vcc[s.dbg.cluster]?).map (fun (c : Cluster) => c.pc)).getD 0 } }
    { s with jobs := s.jobs.map (fun x => if (jobPools x).contains .vcc then { x with late0 := { x.late0 with debug := true } } else x) }
  else s

/-- The key cache keeps a slot's use (R15). -/
def useKeys (hs : List Nat) (s : State) : State :=
  hs.foldl (fun s h =>
    let i := hSlot h
    let t := s.mem.lruTick + 1
    let c := s.mem.keyCache.filter (fun x => x.1 != i) ++ [(i, t)]
    let pinned := fun (k : Nat) => ((s.slot? k).map (fun x => decide (x.pins > 0))).getD false
    let c := if c.length > 65536 then
        match c.find? (fun x => !(pinned x.1)) with
        | some v => c.filter (fun x => x.1 != v.1)
        | none => c
      else c
    { s with mem := { s.mem with keyCache := c, lruTick := t } }) s

/-- Contexts in the store: explicit ones and those of preempted jobs that are not spilled (R32). -/
def storeUsed (s : State) : Nat :=
  (s.ctxs.filter (fun c => (c.live || c.busy) && !c.spilled)).length + (s.jobs.map (fun j => (j.saves.filter (fun x => !x.spilled)).length)).sum

/-- The contexts of the store that may be spilled, each with its last use and the move to sealed DRAM: explicit ones that no engine runs, and
those that preempted jobs saved (R32). -/
def spillable (s : State) : List (Nat × (State → State)) :=
  (s.ctxs.filter (fun c => c.live && !c.spilled && !(s.jobs.any (fun (j : Job) => j.ctx == some c.idx && j.phase == .running)))).map
      (fun c => (c.use, fun (s : State) => s.onCtx c.idx (fun c => { c with spilled := true }))) ++
    (s.jobs.filter (fun j => j.saves.any (fun x => !x.spilled))).map (fun j =>
      (((j.saves.find? (fun x => !x.spilled)).map (fun x => x.use)).getD 0,
        fun (s : State) => s.onJob j.id (fun j => { j with saves := modFirst (fun x => !x.spilled) (fun x => { x with spilled := true }) j.saves })))

/-- While the store holds more than 8,192 contexts, the least recently used one moves to sealed DRAM, still wrapped (R32). -/
def fitStore : Nat → State → State
  | 0, s => s
  | n + 1, s =>
    if storeUsed s ≤ 8192 then s
    else
      let first := fun (b : Option (Nat × (State → State))) (x : Nat × (State → State)) => match b with | some y => if x.1 < y.1 then some x else some y | none => some x
      match (spillable s).foldl first none with
      | some v => fitStore n (v.2 s)
      | none => s

/-- A context comes back into the store; where the store is full, the least recently used one that no engine runs is spilled (R32). -/
def useCtx (i : Nat) (s : State) : State :=
  let t := s.mem.lruTick + 1
  fitStore 1 { s.onCtx i (fun c => { c with spilled := false, use := t }) with mem := { s.mem with lruTick := t } }

/-- The id of the key that a job uses under a handle (R24, R366). -/
def pinnedKeyId (s : State) (j : Job) (h : Nat) : Nat :=
  match s.slot? (hSlot h), j.pins.find? (fun p => p.1 == hSlot h) with
  | some x, some p => if x.matGen == p.2 then x.keyId else ((x.copies.find? (fun c => c.gen == p.2)).map (fun c => c.keyId)).getD 0
  | _, _ => 0

/-- Bytes [63:0] of the record of job `j`'s state on its engine `u`: of a Bouquet the state of the stage that the engine serves (R207, R366). -/
def saveHead (s : State) (j : Job) (u nonce : Nat) : Bytes :=
  let r := if dOp j.desc == 0x3801 then ((List.range 4).find? (fun i => stageUnit j i == some u)).bind (fun i => (stages j.block)[i]?) else none
  let key := (r.map stKey).getD (dKey j.desc)
  let c := j.ctx.bind s.ctx?
  ctxRecord (if poolOfUnit u == some .bce then 1 else 2) ((r.map stFunc).getD (dOp j.desc)) 0 key (pinnedKeyId s j key) ((r.map stParam).getD (dParam j.desc))
    (orderOf s.eph.cfg j.cls) (((c.map (fun c => c.total)).getD 0) + j.taken) ((c.map (fun c => c.segment)).getD 0) nonce

/-- A job's state is wrapped, once for each engine of `us`, into the store, or past it into sealed DRAM; a preemption's record has HANDLE 0
(R32, R336, R366). -/
def saveCtxs (j : Job) (us : List Nat) (spilled : Bool) (s : State) : State :=
  let t := s.mem.lruTick + 1
  let w := s.sc.wrapNonce
  let recs := us.mapIdx (fun i u => ({ use := t, spilled := spilled, head := saveHead s j u (w + i + 1) } : SavedCtx))
  let s := s.onJob j.id (fun j => { j with saves := recs })
  fitStore us.length { s with mem := { s.mem with lruTick := t }, sc := { s.sc with wrapNonce := w + us.length } }

/-- What stops a job at its dispatch: check 8 again, or no randomness (R20, R24). -/
inductive DispatchStop where
  | check (c : Completion)
  | noRandom
  | noLeaf

/-- A slot as a dispatch of this instant finds it: an ERASE or REWRITE of the same cycle comes after the dispatch (R24). -/
def slotBefore (now : Nat) (x : Slot) : Slot :=
  match x.changed with
  | some c =>
    if c.clk == now && (x.st == .retiring || x.gen != c.old.gen) then
      { x with st := .occupied, gen := c.old.gen, matGen := c.old.gen, domain := c.domain, ktype := c.ktype, param := c.old.param, policy := c.old.policy,
               keyId := c.old.keyId, material := c.old.material }
    else x
  | none => x

/-- Check 8 again, with the job's own hold on its context left out of account, against the slots as they stand or as they stood before a change
of this instant; a re-executed job keeps what it pinned (R24, R496). -/
def dispatchKeys (s : State) (j : Job) : Option (Status × Nat) :=
  let s' := match j.ctx with | some i => if namesCtx j.desc then s.onCtx i (fun c => { c with busy := false }) else s | none => s
  if j.again then none
  else match check8 s' j.domain j.desc j.block with
    | none => none
    | some x => if (check8 { s' with slots := s'.slots.map (slotBefore s.clk) } j.domain j.desc j.block).isNone then none else some x

/-- What stops the dispatch of a job (R20, R24, R225, R304). A SIGN that runs again takes its new leaf from the version that its handle names: where
that one is replaced, its leaves are burned, and the job completes with KEY_RETIRED (DESIGN CHOICE, log 39). -/
def dispatchStop (s : State) (j : Job) : Option DispatchStop :=
  match dispatchKeys s j with
  | some (st, n) => some (.check (checkEntry j.desc j.tag st n))
  | none =>
    if !s.sc.drbgOn && needsRandomB s j.desc j.block then some .noRandom
    else if dOp j.desc == 0x1301 then
      if noReservations s then some (.check { tag := j.tag, status := .ledgerUnavailable })
      else match stateful? s (dKey j.desc) with
      | none => if j.again then some (.check { tag := j.tag, status := .ledgerUnavailable }) else none
      | some k =>
        if k.version != hGen (dKey j.desc) then some (.check { tag := j.tag, status := .keyRetired })
        else match freeLeaf k with
        | none => if k.next ≥ leafCount k then some (.check { tag := j.tag, status := .stateExhausted }) else some .noLeaf
        | some (g, _, _) => if crossStops k g then some (.check { tag := j.tag, status := .keyPolicy }) else none
    else if fillsSlot j.desc && j.newSlot.isNone && slotsUsed s j.domain ≥ slotQuota s j.domain then some (.check { tag := j.tag, status := .keyPolicy })
    else none

/-- A key whose next tree is incomplete stops being prepared (R303). -/
def unprepare (j : Job) (s : State) : State :=
  if dOp j.desc == 0x1301 then
    match stateful? s (dKey j.desc) with
    | some k => match freeLeaf k with
      | some (g, _, _) => if crossStops k g then onStateful k.domain k.index (fun k => { k with prepared := false }) s else s
      | none => s
    | none => s
  else s

/-- A reference to the material that a handle names, and the generation it lies under: that before a change of this instant where the handle
names it (R24, R218). -/
def pinFor (now h : Nat) (x : Slot) : Slot × Nat :=
  match x.changed with
  | some c =>
    if c.clk == now && hGen h == c.old.gen && x.gen != hGen h && x.matGen != c.old.gen then
      ({ x with copies := if x.copies.any (fun k => k.gen == c.old.gen) then x.copies.map (fun k => if k.gen == c.old.gen then { k with pins := k.pins + 1 } else k)
                          else x.copies ++ [{ c.old with pins := 1 }] }, c.old.gen)
    else (pinSlot x, x.matGen)
  | none => (pinSlot x, x.matGen)

/-- The slot that a job's new key takes, unless it holds one from an earlier dispatch (R225). -/
def bindSlot (want : Nat) (j : Job) (s : State) : Job × State :=
  if fillsSlot j.desc && j.newSlot.isNone then
    match chooseSlot s want with
    | some i => ({ j with newSlot := some i }, reserveSlot j.domain i s)
    | none => (j, s)
  else (j, s)

/-- The references to the keys that the job names, unless it holds them from an earlier dispatch (R24, R218). -/
def bindPins (hs : List Nat) (j : Job) (s : State) : Job × State :=
  if j.pins.isEmpty then
    ({ j with pins := hs.map (fun h => (hSlot h, ((s.slot? (hSlot h)).map (fun x => (pinFor s.clk h x).2)).getD 0)) },
      hs.foldl (fun s h => s.onSlot (hSlot h) (fun x => (pinFor s.clk h x).1)) s)
  else (j, s)

/-- The next free leaf of the stateful key that a handle names is taken, where there is one (R253, R304). -/
def nextLeaf (h : Nat) (s : State) : Option Nat × State :=
  match stateful? s h with
  | some k => match freeLeaf k with
    | some (g, a, b) => (some g, noteLow k.domain k.index (onStateful k.domain k.index (takeLeaf g a b) s))
    | none => (none, s)
  | none => (none, s)

/-- The leaf of a SIGN (R304). -/
def bindLeaf (j : Job) (s : State) : Job × State :=
  if dOp j.desc == 0x1301 then
    let r := nextLeaf (dKey j.desc) s
    ({ j with leaf := r.1 }, r.2)
  else (j, s)

/-- The anchored keys of a job, those of its first dispatch (R24, R237). -/
def bindKeys (s : State) (j : Job) : Job :=
  { j with skey := j.skey <|> (if hType (dKey j.desc) == 0x23 then stateful? s (dKey j.desc) else none),
           mkey := j.mkey <|> (((keyReqs s j.desc j.block).find? (fun (r : KeyReq) => hType r.h == 1)).bind (fun (r : KeyReq) => masterKey? s r.h)) }

/-- The job's slot, pins, leaf and anchored keys at dispatch; a re-executed job keeps the keys of its first dispatch (R24, R225, R237, R304). -/
def bindJob (j : Job) (d : DispatchIn) (s : State) : State :=
  let p := bindSlot d.slot j s
  let hs := pinHandles p.2 p.1
  let p := bindPins hs p.1 p.2
  let p := bindLeaf p.1 (useKeys hs p.2)
  let j := bindKeys p.2 p.1
  let s := match j.ctx with | some i => useCtx i p.2 | none => p.2
  s.onJob j.id (fun _ => j)

/-- An error that the dispatched job's reads meet in memory (R17, R480); a fatal one ends the job. -/
def memError (e : MemErr) (s : State) : State :=
  if e.dram then
    (if e.fatal then dramError e.index e.addr e.mac s else faultEvent 4 0x0605 (0x400 + e.index) (byteOf e.index :: leBytes 8 e.addr) s)
  else if e.fatal then faultEvent 7 0x0608 (0x700 + e.index) (byteOf e.index :: leBytes 4 e.addr) s
  else faultEvent 6 0x0607 (0x700 + e.index) (byteOf e.index :: leBytes 4 e.addr) s

/-- The job's DMA stalled on the link for more than 1 us: a resource wait (R118). -/
def noteStall (id : Nat) (stalled : Bool) (s : State) : State :=
  if stalled then s.onJob id (fun j => { j with late0 := { j.late0 with resource := true } }) else s

/-- What a job's reads meet in memory as it starts: an error, and a record of its context whose tag fails; a fatal one ends it
(R17, R366, R480). -/
def memTroubles (j : Job) (us : List Nat) (d : DispatchIn) (s : State) : State :=
  let s := match d.memErr with | some e => memError e s | none => s
  let tagBad := d.ctxTagBad && ((j.ctx.isSome && namesCtx j.desc) || !(j.saves.isEmpty))
  let s := if tagBad then faultEvent 14 0x060E (us.headD 0xFFFF) (leBytes 8 (dCtx j.desc)) s else s
  if tagBad || d.memErr.any (fun e => e.fatal) then endJob .abortedFault wholeInline j.id s else s

/-- A job of an owner operation whose input could not be read into its tiles ends before its kernel starts (R187, R188). -/
def inputStop (j : Job) (s : State) : State :=
  match j.inBad with
  | some st => if (ownerOp s j.desc).isSome then failJob j (failEntry j st []) s else s
  | none => s

/-- A ready job starts on its units; a re-execution sets RESTARTED (R22 to R24, R68, R188, R197, R416). -/
def startJob (j : Job) (us : List Nat) (d : DispatchIn) (s : State) : State :=
  let s := inputReads j d.inList (bindJob j d s)
  let inp := inputOf j.desc d.input d.inList
  let s := claimUnits j us (s.onJob j.id (fun j => { j with phase := .running, units := us, dispatched := true, restarted := j.again, inBad := inp.2 }))
  let j := (s.job? j.id).getD j
  let s := if poolOfOp j.desc == some .vcc then us.foldl (fun s u => enterCluster j { d with input := inp.1 } us u s) s else s
  let s := loadEngines j us inp.1 s
  let s := noteStall j.id d.stalled (noteDispatch j us true s)
  let s := memTroubles j us d s
  match s.job? j.id with
  | some j => if j.phase == .running && poolOfOp j.desc == some .vcc then inputStop j s else s
  | none => s

/-- A preempted job resumes, its saved contexts restored, its explicit one back in the store (R17, R32, R54, R365, R366, R420). -/
def resumeJob (j : Job) (us : List Nat) (d : DispatchIn) (s : State) : State :=
  let s := claimUnits j us (s.onJob j.id (fun j => { j with phase := .running, units := us, saves := [] }))
  let s := match j.ctx with | some i => useCtx i s | none => s
  let s := if poolOfOp j.desc == some .vcc then us.foldl (fun s u => { s with vcc := modAt s.vcc u (restoreCluster s.clk (kernelFor s j).1 j.id) }) s else s
  memTroubles j us d (noteStall j.id d.stalled (noteDispatch j us false s))

/-- A job is dispatched where it is next and can run (R54).
DESIGN CHOICE (log 39): a Bouquet stopped for want of randomness (R20) ends as a whole: FAILED_STAGE is 0xFE. -/
def dispatchJob (id : Nat) (d : DispatchIn) (s : State) : State :=
  match s.job? id with
  | none => s
  | some j =>
    if !(isReady j) || !(isNextUp s j) then s
    else match placeUnits s j d.units with
    | none => s
    | some us =>
      if j.phase == .preempted then resumeJob j us d s
      else match dispatchStop s j with
      | some (.check c) => checkedOut j c (unprepare j s)
      | some .noRandom => failJob j (failEntry j .abortedFault (wholeInline j)) s
      | some .noLeaf => s.onJob id (fun j => { j with phase := .waitStaging, late0 := { j.late0 with resource := true } })
      | none => startJob j us d s

/-- JOB_DISPATCH (R54). -/
def execJobDispatch (job : Nat) (d : DispatchIn) (s : State) : Host.Outcome State Fault Refusal := .next (dispatchJob job d s)

/-! ### Preemption (R54, R60, R207, R317, R365, R420) -/

/-- The engines of a job whose state a preemption wraps: none on the clusters, whose tiles stay resident (R54, R366). -/
def enginesOf (j : Job) : Nat := if (jobPools j).contains .vcc then 0 else j.units.length

/-- Jobs that may be preempted while they run: not on an MAE, not KW or KWP, not while halted, and with room for what they save
(R32, R54, R364, R365, R462, log 37). -/
def preemptible (s : State) (j : Job) : Bool :=
  j.phase == .running && s.dbg.halted != some j.id && !(isKw (dOp j.desc)) && !((jobPools j).contains .mae) && !((jobPools j).isEmpty) &&
    (enginesOf j == 0 || decide (ctxKept s + enginesOf j ≤ ctxLimit s))

/-- A cluster's job stands at its YIELD, nothing of the next section executed and no trap in hand (R415, R420). -/
def atYieldPoint (c : Cluster) (job : Nat) : Bool :=
  (c.resid.find? (fun r => r.job == job)).all (fun r => r.point) && c.trap.isNone && c.vresume == 0 && c.reloaded.isEmpty

/-- A job stands at a preemption point: on the engines at a 4 KiB boundary of its input, or between the two passes of a GCM-SIV encryption; on
the clusters where each has just executed its YIELD (R54, R365, R415, R420). -/
def atPoint (s : State) (j : Job) : Bool :=
  if (jobPools j).contains .vcc then
    j.units.all (fun u => (s.vcc[u]?).all (fun (c : Cluster) => atYieldPoint c j.id))
  else if dOp j.desc == 0x300A && j.taken ≥ dInLen j.desc then (j.taken - dInLen j.desc) % 4096 == 0
  else j.taken % 4096 == 0

/-- A running job must yield to a ready one (R54, R60). -/
def yieldsTo (s : State) (v b : Job) : Bool :=
  let sv := s.eph.suspended.contains v.cls
  let sb := s.eph.suspended.contains b.cls
  if sv != sb then sv else decide (b.deadline < v.deadline)

/-- The pools in which a ready job finds too few free units (R54, R207). -/
def shortPools (s : State) (b : Job) : List Pool :=
  if dOp b.desc == 0x3801 then
    (jobPools b).filter (fun p => decide ((freeOf s b p).length < ((stages b.block).filter (fun r => stagePool r == some p)).length))
  else jobPools b

/-- The running job holds what the ready one lacks: a unit that it may use of a pool in which it finds too few; a cluster with a free resident
slot, in the quadrant `q` where one is set; or the clusters on which the ready job is resident (R54, R344). -/
def holdsFor (s : State) (b : Job) (q : Option Nat) (v : Job) : Bool :=
  (shortPools s b).any (fun p =>
    (jobPools v).contains p && v.units.any (fun u => poolOfUnit u == some p && !(b.excluded.contains u) &&
      (p != .vcc ||
        (if b.phase == .preempted then b.units.contains u
         else decide (((s.vcc[u]?).map (fun c => c.resid.length)).getD 4 < 4) && q.all (fun q => quadrantOf s.part u == q)))))

/-- A running job leaves its units, saved (R54, R366, R420). -/
def saveJob (v : Job) (s : State) : State :=
  let vccJob := (jobPools v).contains .vcc
  let pools := (jobPools v).map poolClass
  let s := freeUnits v.id s
  let keep := fun (c : Cluster) => if c.resid.any (fun (r : Resid) => r.job == v.id) then saveCluster v.id c else c
  let count := fun (i : Nat) (m : PoolMon) => if pools.contains i then { m with preempt := sat32 m.preempt } else m
  let s := { s with vcc := s.vcc.map keep, mon := { s.mon with poolLive := s.mon.poolLive.mapIdx count } }
  let s := s.onJob v.id (fun v => { v with phase := .preempted, units := if vccJob then v.units else [] })
  let s := saveCtxs v (if vccJob then [] else v.units) false s
  trace { kind := 3, unit := frameUnit (v.units.headD 0), inst := fnCode v.fn, sq := v.sq, value := v.tag, opcode := dOp v.desc, cls := v.cls } s

/-- The last of some jobs in EDF order. -/
def latest (s : State) (l : List Job) : Option Job :=
  l.foldl (fun b x => match b with | some y => if before s y x then some x else some y | none => some x) none

/-- The running jobs that may yield their units to a ready one (R54, R60). -/
def mayYield (s : State) (b : Job) (q : Option Nat) : List Job := s.jobs.filter (fun v => preemptible s v && yieldsTo s v b && holdsFor s b q v)

/-- Running jobs are saved, the latest deadline first, until the ready job finds its units; `none` where that does not come about. -/
def clearUnits : Nat → Job → Option Nat → State → Option (List Nat × State)
  | n, b, q, s =>
    if (placeUnits s b []).isSome then some ([], s)
    else match n with
    | 0 => none
    | n + 1 =>
      match latest s (mayYield s b q) with
      | none => none
      | some v => (clearUnits n b q (saveJob v s)).map (fun r => (v.id :: r.1, r.2))

/-- The same for a job that goes to clusters: the latest job whose cluster serves it, with the others of that quadrant where it needs a gang
(R54, R317, R344). -/
def clearGang (b : Job) (s : State) : Nat → List Job → Option (List Nat × State)
  | 0, _ => none
  | n + 1, l =>
    match latest s l with
    | none => none
    | some v =>
      match clearUnits (gangOf s b.desc - 1) b (some (quadrantOf s.part (v.units.headD 0))) (saveJob v s) with
      | some r => some (v.id :: r.1, r.2)
      | none => clearGang b s n (l.filter (fun x => x.id != v.id))

/-- The jobs that a ready job preempts, and the state in which they are saved: no job is saved for one that still finds no place (R54, R207). -/
def roomFor (s : State) (b : Job) : Option (List Nat × State) :=
  if (jobPools b).contains .vcc && b.phase != .preempted then clearGang b s 32 (mayYield s b none) else clearUnits 8 b none s

/-- A ready job may preempt: it finds no free unit, and it is the head of its pool's order or resident on the cluster (R54). -/
def mayPreempt (s : State) (b : Job) : Bool :=
  isReady b && (placeUnits s b []).isNone &&
    ((b.phase == .preempted && (jobPools b).contains .vcc) ||
      !(s.jobs.any (fun x => x.id != b.id && isReady x && before s x b && (jobPools x).any (fun p => (jobPools b).contains p) &&
        !(x.phase == .preempted && (jobPools x).contains .vcc))))

/-- A preemption: the named victim is among the jobs that the ready one preempts, each of them stands at a preemption point; they are saved and
it takes its units (R54, R60, R207). -/
def preemptJob (victim by_ : Nat) (d : DispatchIn) (s : State) : State :=
  match s.job? by_ with
  | none => s
  | some b =>
    if !(mayPreempt s b) then s
    else match roomFor s b with
    | none => s
    | some (vs, t) =>
      if vs.contains victim && vs.all (fun i => (s.job? i).all (atPoint s)) then dispatchJob by_ d t else s

/-- JOB_PREEMPT (R54). -/
def execJobPreempt (victim by_ : Nat) (d : DispatchIn) (s : State) : Host.Outcome State Fault Refusal := .next (preemptJob victim by_ d s)

/-! ### Further tokens (R276, R321, R336) -/

/-- A job that exhausted its covered rounds takes a further token, its deadline grows by D, and it is in EDF order again. -/
def overrunTake (id : Nat) (s : State) : State :=
  match s.job? id with
  | none => s
  | some j =>
    if j.phase != .overrun then s
    else
      let need := (orderPools j).map (fun p => (p, 1))
      if tokensFree s j need then
        let s := spendTokens s j need
        let s := { s with mon := { s.mon with live := modAt s.mon.live j.cls (fun m => { m with signOverrun := sat32 m.signOverrun }) } }
        s.onJob id (fun j => { j with phase := .preempted, deadline := j.deadline + deadlineOf s j.cls, extra := j.extra + 1 })
      else s.onJob id (fun j => { j with late0 := { j.late0 with budget := true } })

/-- OVERRUN_TOKEN (R276). -/
def execOverrunToken (job : Nat) (s : State) : Host.Outcome State Fault Refusal := .next (overrunTake job s)

end Sys2Proof.Machine
end

