-- ==== Sys2Proof/Machine/Rights.lean ====
section
/-!
DEFINITION. Debug rights: which are available, how ACTIVE changes, and SETTLED (R445, R456 to R458, R461, R462).
-/
namespace Sys2Proof.Machine

/-- The rights that a lifecycle state gives without a certificate (R445). -/
def stateRights (code : Nat) : Nat :=
  if code == 0x07 then 0 else if code == 0x0F then 0x3F else 0x1F

/-- The stored certificate's rights are AVAILABLE (R461). -/
def certHolds (s : State) : Bool :=
  match s.dbg.cert with
  | some c => s.dbg.certLive && c.cyclesLeft > 0 && c.counter == counterNow s && c.target == deviceId s
  | none => false

/-- DBG_RIGHTS.AVAILABLE (R458). -/
def rightsAvailable (s : State) : Nat :=
  stateRights (lcCode s) ||| (if lcCode s == 0x07 && certHolds s then ((s.dbg.cert.map (fun c => c.rights)).getD 0) else 0)

/-- The halted job goes on to its end and ARM clears (R462). -/
def stepRun (s : State) : State :=
  { s with dbg := { s.dbg with arm := false, stepOne := false, halted := none, haltEnd := if s.dbg.halted.isSome then some s.clk else s.dbg.haltEnd } }

/-- ACTIVE takes the bits of `v` that are AVAILABLE; a change is recorded, and clearing KERNEL_STEP acts as RUN (R458, R462, R480). -/
def setActive (v : Nat) (s : State) : State :=
  let new : BitVec 6 := BitVec.ofNat 6 (v &&& rightsAvailable s)
  if new == s.dbg.active then s
  else
    let old := s.dbg.active
    let s := { s with dbg := { s.dbg with active := new } }
    let s := if old.getLsbD 3 && !(new.getLsbD 3) then stepRun s else s
    raiseEvent 0x0306 0x0500 [byteOf old.toNat, byteOf new.toNat] s

/-- Bits that have left AVAILABLE are cleared (R458). -/
def clampRights (s : State) : State := if s.dbg.active == 0 then s else setActive s.dbg.active.toNat s

/-- DBG_RIGHTS.SETTLED: no job in flight bears a secret; a job whose completion is held is in flight (R457, R511). -/
def settled (s : State) : Bool := !(s.jobs.any (fun (j : Job) => bearsSecret s j.desc j.block))

/-- The certificate store is erased (R450, R461, R469); its rights lapse. -/
def eraseCert (s : State) : State := clampRights { s with dbg := { s.dbg with cert := none, certLive := false } }

end Sys2Proof.Machine
end

