-- ==== Sys2Proof/Machine/Status.lean ====
section
/-!
DEFINITION. Status words that registers show and events carry (R45, R111, R257, R475).
-/
namespace Sys2Proof.Machine

/-! ### TAMPER_STATUS (R475) -/

/-- An ALARM record is not yet committed to the Almanac. -/
def alarmPending (p : AlmRec → Bool) (s : State) : Bool :=
  s.alm.staging.any (fun (r : AlmRec) => r.kind == 0x0701 && p r) ||
    s.alm.windows.any (fun (w : CoalWin) => w.kind == 0x0701 && (match w.first with | some r => p r | none => false))

/-- The CLASS_SEEN bits of an alarm class: DESTROY acts as ERASE besides. -/
def classBits : Nat → Nat
  | 0 => 1
  | 1 => 2
  | 2 => 4
  | _ => 12

/-- CLASS_SEEN. -/
def classSeen (s : State) : Nat := (s.tam.classOf.map (fun c => classBits c.2)).foldl Nat.lor 0

/-- TAMPER_STATUS. -/
def tamperStatus (s : State) : Nat :=
  (if s.tam.quarantine then s.tam.qCause else 0) * 2 ^ 29 + bitAt (alarmPending (fun _ => true) s) 28 + bitAt s.tam.destroyPending 27 +
    bitAt s.tam.sleepLatch 26 + classSeen s * 2 ^ 20 + s.tam.sensor.toNat

/-! ### TOKEN_STATUS and TOKEN_LIFE (R257) -/

/-- SESSION. -/
def sessCode : SessKind → Nat
  | .noSession => 0
  | .full => 1
  | .limited => 2
  | .ended => 3
  | .maintenance => 0

/-- TOKEN_STATUS. -/
def tokenStatus (s : State) : Nat :=
  s.tok.custodyEntry * 2 ^ 20 + s.tok.failReason * 2 ^ 8 + bitAt s.tok.readOnly 7 + bitAt s.tok.wear 6 + bitAt s.tok.enrolled 5 +
    sessCode s.tok.session * 4 + bitAt s.tok.latchClosed 1 + bitAt s.tok.present 0

/-- TOKEN_LIFE. -/
def tokenLife (s : State) : Nat :=
  match s.tok.life with
  | some u => (100 * u / 10240000) * 2 ^ 24 + u
  | none => 0xFF000000

/-! ### FN_STATUS (R111) and MERIDIAN_STATUS (R45) -/

/-- FN_STATUS of a function page; on PF1's pages and the VFs it reads 0 until READY (R508). -/
def fnStatus (s : State) (f : Fn) : Nat :=
  let pf0 := f == .pf0
  let up := (s.fnOf f).ready && !(s.fnOf f).resetting
  if !pf0 && !up then 0
  else (if pf0 then (if s.boot.done then 0xF else s.boot.step) else 0) * 2 ^ 24 + bitAt s.eph.factory 8 + bitAt (pf0 && s.boot.hold) 4 +
    bitAt s.tam.quarantine 3 + bitAt s.flt.degraded 2 + bitAt s.eph.configured 1 + bitAt up 0

/-- STATE of MERIDIAN_STATUS. -/
def merCode : MerSt → Nat
  | .acquiring => 0
  | .locked => 1
  | .holdover => 2
  | .freeRun => 3

/-- MERIDIAN_STATUS. -/
def merStatus (s : State) : Nat :=
  s.mer.lossCount * 2 ^ 24 + s.mer.stepCount * 2 ^ 16 + bitAt s.mer.slewing 8 + merCode s.mer.st * 16 + bitAt s.mer.fromStrap 2 + s.mer.source

/-! ### DEV_CAP0 to DEV_CAP3 (R506) -/

/-- The part as built. -/
def devCap : Part → List Nat
  | .yq9 => [0x04081020, 0x00040808, 0x00000049, 0x00080020]
  | .yq7 => [0x04042010, 0x00020404, 0x00000039, 0x00040010]
  | .yq5 => [0x04044008, 0x00000202, 0x00000028, 0x00020008]

end Sys2Proof.Machine
end

