-- ==== Sys2Proof/Machine/TokenStore.lean ====
section
/-!
DEFINITION. The LT-1's memory: blocks, wear and erases (R242, R243, R256), the journal, the state-area log and its records (R252, R255), and what
each kind of session may use (R246).
-/
namespace Sys2Proof.Machine

/-! ### Regions and sessions (R242, R246, R258) -/

/-- The logical regions of the token (R242). -/
inductive TokenRegion where
  | ephA
  | ephB
  | anchored
  | journal
  | stateArea
  | almanac
deriving DecidableEq, Repr

/-- First logical block and number of blocks of a region (R242). -/
def regionBlocks : TokenRegion → Nat × Nat
  | .ephA => (0, 64)
  | .ephB => (64, 64)
  | .anchored => (128, 32)
  | .journal => (160, 32)
  | .stateArea => (192, 128)
  | .almanac => (320, 256)

/-- The logical blocks of a region. -/
def blocksOf (r : TokenRegion) : List Nat := List.range' (regionBlocks r).1 (regionBlocks r).2

/-- The sealed regions. -/
def sealedRegion (r : TokenRegion) : Bool := r != .ephA && r != .ephB

/-- A session of a kind may read, or write, a region (R246). -/
def mayReadRegion (k : SessKind) (r : TokenRegion) : Bool :=
  match k with
  | .full => true
  | .limited | .maintenance => !(sealedRegion r)
  | _ => false
def mayWriteRegion (k : SessKind) (r : TokenRegion) : Bool :=
  match k with
  | .full => sealedRegion r
  | .maintenance => !(sealedRegion r)
  | _ => false

/-! ### Erases (R243, R256) -/

/-- The physical block that a logical block is mapped onto, and its erases so far. -/
def physBlock (t : Token) (l : Nat) : Nat := ((t.blockMap.find? (fun m => m.1 == l)).map (fun m => m.2)).getD l
def eraseCount (t : Token) (p : Nat) : Nat := ((t.wearCount.find? (fun m => m.1 == p)).map (fun m => m.2)).getD 0

/-- One block erase: refused where it would leave fewer than 51,200 units, and the token is read-only from then on (R256). It spends a unit; the
logical block moves to the next spare block, and the erased one joins the pool, or is retired at 10,000 erases (R243; the order of the pool
is a DESIGN CHOICE, log 19). A token that has no spare block to replace a retired one takes no further erase (DESIGN CHOICE, log 39). -/
def eraseBlock (l : Nat) (t : Token) : Token :=
  if t.readOnly then t
  else if t.units < 51200 + 1 then { t with readOnly := true }
  else
    let p := physBlock t l
    let n := eraseCount t p + 1
    let t := { t with units := t.units - 1, wearCount := putWhere (fun m => m.1 == p) (p, n) t.wearCount }
    match t.spare with
    | [] => if n < 10000 then t else { t with readOnly := true, retired := t.retired ++ [p] }
    | q :: rest =>
      { t with blockMap := putWhere (fun m => m.1 == l) (l, q) t.blockMap, spare := rest ++ (if n < 10000 then [p] else []),
               retired := t.retired ++ (if n < 10000 then [] else [p]) }

/-- Blocks erased one after another, up to one that is refused. -/
def eraseBlocks (ls : List Nat) (t : Token) : Token := ls.foldl (fun t l => eraseBlock l t) t

/-- The logical block that lies on the least worn physical block. -/
def coldBlock (t : Token) : Nat :=
  (List.range' 1 575).foldl (fun a l => if eraseCount t (physBlock t l) < eraseCount t (physBlock t a) then l else a) 0

/-- The most worn spare block. -/
def hotSpare (t : Token) : Option Nat :=
  t.spare.foldl (fun a q => match a with | some x => some (if eraseCount t x < eraseCount t q then q else x) | none => some q) none

/-- A wear-levelling block move: what lies on the least worn block is copied to the most worn spare one, the map record commits, and the source is
erased and joins the pool (R243, R260). DESIGN CHOICE (log 39): a token moves a block where the two are 1,000 erases apart, so that moves cost less than
a thousandth of the erases that they level (R255). -/
def wearMove (t : Token) : Token :=
  if t.readOnly || !(t.wearCount.any (fun m => m.2 ≥ 1000)) || t.units < 51200 + 1 then t
  else match hotSpare t with
  | none => t
  | some q =>
    let l := coldBlock t
    let p := physBlock t l
    let n := eraseCount t p + 1
    if eraseCount t q < n + 999 then t
    else { t with units := t.units - 1, wearCount := putWhere (fun m => m.1 == p) (p, n) t.wearCount,
                  blockMap := putWhere (fun m => m.1 == l) (l, q) t.blockMap, spare := t.spare.filter (fun x => x != q) ++ [p] }

/-! ### The journal (R242, R247, R236) -/

/-- One record programmed into the counter and lifecycle journal: a page of the block being filled, or of the next free block; where one block is
left, the oldest is erased first (DESIGN CHOICE: the manual gives neither a journal record's size nor when blocks are erased, log 19). It takes the next
SEQUENCE (R243). -/
def journalPage (t : Token) : Token :=
  let t := { t with seq := t.seq + 1 }
  if t.journalPages != 0 && t.journalPages < 16 then { t with journalPages := t.journalPages + 1 }
  else if t.journalFree > 1 then { t with journalFree := t.journalFree - 1, journalPages := 1 }
  else
    let u := eraseBlock (regionBlocks .journal).1 t
    if u.readOnly then u else { u with journalPages := 1 }

/-! ### The state area (R252, R255) -/

/-- Bytes [4063:0] of a record (R252). -/
def leafRecBody (r : LeafRec) : Bytes :=
  ascii "YQLR" ++ [1, if r.checkpoint then 2 else 1, 0, 0] ++ leBytes 8 r.keyId ++ leBytes 8 r.seq ++ leBytes 8 r.first ++ leBytes 8 r.last ++ leBytes 8 r.pc ++
    sliceZ (r.entries.flatMap (fun e => leBytes 8 e.1 ++ leBytes 8 e.2)) 0 4016

/-- The MAC of a record under the token content key (R252). -/
def leafRecMac (tck : Bytes) (r : LeafRec) : Bytes := kmac256 tck (leafRecBody r) 32 (ascii "YQ9 LEAF")

/-- The log with a page to program: of the block being filled, or of the next free one. -/
def logOpen (t : Token) : Option Token :=
  if t.logPages != 0 && t.logPages < 16 then some { t with logPages := t.logPages + 1 }
  else if t.logFree == 0 then none else some { t with logFree := t.logFree - 1, logPages := 1, logAt := (t.logAt + 1) % 128 }

/-- A record programmed into the log, with the next SEQUENCE, the power-cycle count and its MAC.
DESIGN CHOICE (log 39): SEQUENCE counts the records of the state area and of the journal, claims among them; wraps, anchored keys and Almanac records
have numbers of their own or none. -/
def logProgram (tck : Bytes) (r : LeafRec) (t : Token) : Token :=
  match logOpen t with
  | none => t
  | some t =>
    let r := { r with seq := t.seq + 1, pc := t.pc, block := t.logAt }
    { t with seq := t.seq + 1, log := t.log ++ [{ r with mac := leafRecMac tck r }] }

/-- The CHECKPOINT records that carry every key's END_LEAF, up to 251 entries in each (R252, R255). -/
def checkpoints (t : Token) : List LeafRec :=
  let es := t.stateful.map (fun k => (k.keyId, k.endLeaf))
  (List.range (max 1 (ceilDiv es.length 251))).map (fun i => { checkpoint := true, entries := (es.drop (251 * i)).take 251 })

/-- The blocks in use before a compaction, oldest first. -/
def logBlocks (t : Token) : List Nat := (List.range (128 - t.logFree)).map (fun i => (t.logAt + 1 + t.logFree + i) % 128)

/-- CHECKPOINT records go into free blocks, and only then the oldest blocks are erased, up to an erase that is refused (R255, R256). -/
def compactLog (tck : Bytes) (t : Token) : Token :=
  let old := logBlocks t
  let u := (checkpoints t).foldl (fun u r => logProgram tck r u) { t with logPages := 16 }
  let v := eraseBlocks (old.map (fun b => (regionBlocks .stateArea).1 + b)) u
  let gone := old.take (u.units - v.units)
  { v with logFree := v.logFree + gone.length, log := v.log.filter (fun r => !(gone.contains r.block)) }

/-- A record of the state area whose MAC does not hold under the content key is treated as never written (R243, R252). -/
def leafRecGood (tck : Bytes) (r : LeafRec) : Bool := r.mac == leafRecMac tck r

/-- The highest END_LEAF that the records of the state area give a key; 0 for none (R253). -/
def loggedEnd (tck : Bytes) (t : Token) (keyId : Nat) : Nat :=
  let ends := fun (r : LeafRec) => if r.checkpoint then (r.entries.filter (fun e => e.1 == keyId)).map (fun e => e.2) else if r.keyId == keyId then [r.last] else []
  ((t.log.filter (leafRecGood tck)).flatMap ends).foldl max 0

/-- The block of the log whose erase a power loss may have cut short: the last one freed. -/
def lastFreed (t : Token) : Nat := (regionBlocks .stateArea).1 + (t.logAt + t.logFree) % 128

/-! ### The sealed regions (R243, R249) -/

/-- The sealed regions as a session reads them. They are encrypted under the token content key: records that another key sealed fail their check and are
treated as never written (R243, R249). DESIGN CHOICE (log 39): the manual gives neither the cipher nor the layout of the anchored and journal records,
so they are held as their contents, beside the key that seals them. -/
def readSealed (tck : Bytes) (t : Token) : Token :=
  if t.sealedBy == some tck then t
  else { t with sealedBy := some tck, authorities := [], masters := [], kernelKeys := [], stateful := [], attest := none, policies := [],
                journalSeq := 0, journalJ := 0, aumBegin := none, lcsBegin := none, almBegin := false, overflow := [], log := [], almRecords := [] }

/-- One record more; with fewer than two free blocks the log is compacted (R255). -/
def logRecord (tck : Bytes) (r : LeafRec) (t : Token) : Token :=
  let t := logProgram tck r t
  if t.logFree ≥ 2 || t.readOnly then t else compactLog tck t

/-! ### The desk writer (R246, R258) -/

/-- A region's bytes once its first `n` blocks have been erased. -/
def wipeBlocks (n : Nat) (b : Bytes) : Bytes := List.replicate (min b.length (65536 * n)) 0xFF ++ b.drop (65536 * n)

/-- What the desk writer does under a MAINTENANCE session: it erases a copy region and programs `done` bytes of an image. Where the token refuses an erase,
the blocks erased before it read erased, so that the copy no longer verifies. -/
def deskWrite (w : DeskWrite) (t : Token) : Token :=
  let r : TokenRegion := if w.copyB then .ephB else .ephA
  let u := eraseBlocks (blocksOf r) t
  let n := t.units - u.units
  if !(mayWriteRegion .maintenance r) then u
  else if u.readOnly then (if w.copyB then { u with copyB := wipeBlocks n u.copyB } else { u with copyA := wipeBlocks n u.copyA })
  else if w.copyB then { u with copyB := w.image.take w.done } else { u with copyA := w.image.take w.done }

end Sys2Proof.Machine
end

