-- ==== Sys2Proof/Machine/Ledger.lean ====
section
/-!
DEFINITION. The ledger token's session, life, state area and anchored key area (R243, R248, R252 to R257, R305, R470).
-/
namespace Sys2Proof.Machine

/-- The token in the socket changed through `f`. -/
def State.onToken (s : State) (f : Token → Token) : State := { s with tok := { s.tok with socket := s.tok.socket.map f } }

/-- A change of SESSION, WEAR or READ_ONLY: the TOKEN event and the Almanac event (R257). -/
def tokenEvent (kind payload : Nat) (s : State) : State :=
  raiseEvent kind 0x0C00 (leBytes 4 payload) (ringEvent .pf0 0x0020 0xFFFF (tokenStatus s) 0 s)

/-- A change of SESSION (R257). -/
def sessionEvent (s : State) : State := tokenEvent 0x0401 (tokenStatus s) s

/-- Reserved leaves that no job has taken are burned (R248, R253, R256). -/
def burnLeaves (k : StatefulKey) : StatefulKey := { k with next := max k.next k.endLeaf, ranges := [], writing := false }

/-- The token-held anchored keys leave SC memory (R212, R248, R469). -/
def dropAnchoredKeys (s : State) : State := { s with tok := { s.tok with keysLoaded := false }, sc := { s.sc with heldAuth := [], heldAttest := none } }

/-- The session's keys and the content key are gone (R245, R248). -/
def dropSessionKeys (t : TokSt) : TokSt := { t with txKey := [], rxKey := [], txCount := 0, rxCount := 0, tck := none }

/-- The session ends during operation (R248), and rights that rested on its counter lapse (R458, R461); an Almanac clear under way is repeated by a
later start (R493). CUSTODY_ENTRY keeps the entry that
opened the token (DESIGN CHOICE: R257 does not say whether it returns to 0xF, log 38). -/
def endSession (s : State) : State :=
  if !(anySession s) then s
  else
    let s := dropAnchoredKeys (s.onToken (fun (t : Token) => { t with stateful := t.stateful.map burnLeaves }))
    clampRights (sessionEvent { s with tok := { dropSessionKeys s.tok with session := .ended, life := none }, alm := { s.alm with clearing := false } })

/-! ### Life (R243, R256) -/

/-- The module takes notice of WEAR and of read-only: status, events, and the open reservations burned (R256, R257). -/
def noteLife (t : Token) (s : State) : State :=
  let s := if decide (t.units ≤ 1024000) && !s.tok.wear then
      (let s := { s with tok := { s.tok with wear := true } }
       tokenEvent 0x0402 (tokenLife s) s) else s
  if t.readOnly && !s.tok.readOnly then
    let s := s.onToken (fun (t : Token) => { t with stateful := t.stateful.map burnLeaves })
    let s := { s with tok := { s.tok with readOnly := true } }
    tokenEvent 0x0403 (tokenLife s) s
  else s

/-- The module takes notice where the token has refused an erase (R256). -/
def noteToken (s : State) : State :=
  match s.tok.socket with
  | some t => if t.readOnly then noteLife t s else s
  | none => s

/-- One exchange on the link: a frame to the token and its answer, each under the next counter of its direction (R245). -/
def State.framed (s : State) : State := { s with tok := { s.tok with txCount := s.tok.txCount + 1, rxCount := s.tok.rxCount + 1 } }

/-- A record in the journal beside a change of the token (R242, R256). -/
def State.onJournal (s : State) (f : Token → Token) : State := noteToken (s.framed.onToken (fun t => journalPage (f t)))

/-- TOKEN_LIFE is refreshed (R256). -/
def refreshLife (s : State) : State :=
  match s.tok.socket with
  | some t => noteLife t (State.framed { s with tok := { s.tok with life := some t.units, lifeAt := s.clk } })
  | none => s

/-- A refresh after an erase, no more than once a second (R256). -/
def lifeTick (s : State) : State := if anySession s && s.clk ≥ s.tok.lifeAt + 1000000000 then refreshLife s else s

/-! ### The state area (R252 to R255) -/

/-- A record of the state area under the session's content key (R252, R255). -/
def writeLeafRec (r : LeafRec) (s : State) : State := noteToken (s.framed.onToken (logRecord (s.tok.tck.getD []) r))

/-- The reservation that is being written for a key commits: its leaves become usable (R243, R253, R255). -/
def reservationDone (dom index : Nat) (s : State) : State :=
  match (anchored s).bind (fun (t : Token) => t.stateful.find? (fun k => k.domain == dom && k.index == index)) with
  | none => s
  | some k =>
    if !(fullSession s) || s.tok.readOnly || !k.writing || !s.pwr.pg then s
    else
      let hi := max k.endLeaf (min (k.endLeaf + 2 ^ reserveExp s k) (leafCount k))
      let fresh := if k.endLeaf < hi then [(k.endLeaf, hi)] else []
      let s := onStateful dom index (fun k => { k with ranges := k.ranges ++ fresh, endLeaf := hi, writing := false }) s
      noteLow dom index (writeLeafRec { keyId := k.keyId, first := k.endLeaf, last := hi } s)

/-! ### The anchored key area (R450, R470) -/

/-- Every page of the anchored key area reads zeros: its records are gone, the domain policies among them (R236, R470). -/
def zeroAnchored (t : Token) : Token := { t with authorities := [], masters := [], kernelKeys := [], stateful := [], attest := none, policies := [] }

/-- The token's anchored key area zeroed; the domain policies have their default again (R222, R450, R470). -/
def zeroArea (s : State) : State := { s.onToken zeroAnchored with sc := { s.sc with policies := [] } }

/-! ### Commands -/

/-- The latch is forced open: the token counts as removed (R80). -/
def latchForced (s : State) : State :=
  if !(s.pwr.pg && s.tok.latchClosed) then s
  else
    let s := endSession { s with tok := { s.tok with latchClosed := false, present := false } }
    raiseEvent 0x0107 0x0C00 [] s

/-- LATCH_OPEN (R80). -/
def execLatchOpen (s : State) : Host.Outcome State Fault Refusal := .next (latchForced s)
/-- TOKEN_SESSION_END (R248). -/
def execTokenSessionEnd (s : State) : Host.Outcome State Fault Refusal := .next (endSession s)
/-- TOKEN_LIFE_REFRESH (R256). -/
def execTokenLifeRefresh (s : State) : Host.Outcome State Fault Refusal := .next (lifeTick s)
/-- RESERVATION_COMMIT (R253). -/
def execReservationCommit (domain index : Nat) (s : State) : Host.Outcome State Fault Refusal := .next (reservationDone domain index s)

end Sys2Proof.Machine
end

