-- ==== Sys2Proof/Machine/Almanac.lean ====
section
/-!
DEFINITION. The Almanac: records, commits, coalescing windows, the hour, and the Eyepiece (R477 to R493).
-/
namespace Sys2Proof.Machine

/-! ### Records (R478) -/

/-- The 60 bytes of a record before its CHECK. MODULE is the recording module's. -/
def recordHead (s : State) (r : AlmRec) : Bytes :=
  let flags := bitAt r.holdover 12 + bitAt r.auxTime 13 + bitAt r.test 14 + bitAt r.summary 15
  leBytes 4 r.powerCycle ++ leBytes 3 r.hours ++ leBytes 2 (r.seconds % 4096 + flags) ++ leBytes 8 r.merNs ++ leBytes 2 r.kind ++
    leBytes 2 r.source ++ [byteOf r.severity] ++ sliceZ (deviceId s) 0 2 ++ sliceZ r.payload 0 32 ++ leBytes 4 r.seq

/-- The 64 bytes of a record. -/
def recordOut (s : State) (r : AlmRec) : Bytes :=
  let b := recordHead s r
  b ++ leBytes 4 (crc32c 0xFFFFFFFF b).toNat

/-! ### Committing (R477, R482, R488, R489) -/

/-- The waiting records in commit order: ALARM, then FAULT, then AUDIT, each oldest first (R482). -/
def waiting (s : State) : List AlmRec :=
  s.alm.staging.filter (fun (r : AlmRec) => r.severity == 4) ++ s.alm.staging.filter (fun (r : AlmRec) => r.severity != 4) ++ s.alm.queue

/-- The first record that `p` accepts leaves the list. -/
def dropFirst {α : Type} (p : α → Bool) : List α → List α
  | [] => []
  | x :: l => if p x then l else x :: dropFirst p l

/-- The record at the head of the commit order leaves its buffer. -/
def popRecord (s : State) : State :=
  if s.alm.staging.any (fun (r : AlmRec) => r.severity == 4) then
    { s with alm := { s.alm with staging := dropFirst (fun (r : AlmRec) => r.severity == 4) s.alm.staging } }
  else if s.alm.staging.isEmpty then { s with alm := { s.alm with queue := s.alm.queue.drop 1 } }
  else { s with alm := { s.alm with staging := s.alm.staging.drop 1 } }

/-- Where a record goes on the token: the ordinary region, or the reserve for FAULT and ALARM; `none`: no room (R477, R488). -/
def placeRecord (t : Token) (sev : Nat) : Option Nat :=
  if t.almNext < 258048 then some t.almNext else if sev ≥ 3 && t.almReserve < 4096 then some (258048 + t.almReserve) else none

/-- A record appended at its index (R477). -/
def appendRecord (i : Nat) (b : Bytes) (t : Token) : Token :=
  let t := { t with almRecords := t.almRecords ++ [(i, b)] }
  if i < 258048 then { t with almNext := i + 1 } else { t with almReserve := i + 1 - 258048 }

/-- One record is committed, or only counted where there is no room (R482, R488). -/
def commitOne (s : State) : State :=
  match s.tok.socket, (waiting s).head? with
  | some t, some r =>
    match placeRecord t r.severity with
    | some i => (popRecord s).framed.onToken (appendRecord i (recordOut s r))
    | none => overflowUp r.kind (popRecord s)
  | _, _ => s

/-- Commits take place while a FULL session is open and no clear is in progress (R489, R493). -/
def commitNext (s : State) : State := if s.pwr.pg && fullSession s && !s.alm.clearing then commitOne s else s

/-- Every waiting record is committed: at step 7, before any new record (R489). -/
def commitAll : Nat → State → State
  | 0, s => s
  | n + 1, s => if (waiting s).isEmpty then s else commitAll n (commitOne s)

/-! ### Coalescing (R486) -/

/-- The summary record of a window. -/
def summaryOf (w : CoalWin) (first : AlmRec) : AlmRec :=
  let p := leBytes 4 w.count ++ leBytes 4 w.last.powerCycle ++ leBytes 3 w.last.hours ++ leBytes 2 w.last.seconds ++ [0] ++ leBytes 8 w.last.merNs
  { first with summary := true, payload := p ++ sliceZ first.payload 0 10 }

/-- A window closes; its summary, if any repeat came, enters its buffer. -/
def closeWindow (w : CoalWin) (s : State) : State :=
  let s := { s with alm := { s.alm with windows := dropFirst (fun (x : CoalWin) => x.kind == w.kind && x.source == w.source) s.alm.windows } }
  match w.first with
  | some r => bufferRecord (summaryOf w r) s
  | none => s

/-- Every window closes (R486): main power is lost. -/
def closeWindows (s : State) : State := s.alm.windows.foldl (fun s (w : CoalWin) => closeWindow w s) s

/-- The window of a kind and source closes once COALESCE_MS have passed. -/
def windowEnd (kind source : Nat) (s : State) : State :=
  match s.alm.windows.find? (fun (w : CoalWin) => w.kind == kind && w.source == source) with
  | some w => if s.clk ≥ w.openAt + s.eph.cfg.coalesceMs * 1000000 then closeWindow w s else s
  | none => s

/-! ### The hour (R479, R488) -/

/-- The overflow counters as the token's journal holds them (R488). -/
def saveOverflow (s : State) : State := if fullSession s then s.onJournal (fun (t : Token) => { t with overflow := s.alm.overflow }) else s

/-- A whole hour of operation has passed: HOURS, its copy and POWER_CYCLE's, and the counter table (R479, R488). -/
def hourPassed (s : State) : State :=
  if !(s.pwr.pg && s.alm.hourNs ≥ 3600000000000) then s
  else
    let h := (s.alm.hours + 1) % 2 ^ 24
    saveOverflow { s with alm := { s.alm with hours := h, hourNs := s.alm.hourNs - 3600000000000, copyHours := h, copyCycle := s.alm.powerCycle } }

/-! ### The Eyepiece (R491, R492) -/

/-- A stored record as it reads: 64 zero bytes where its CHECK fails (R478). -/
def readRecord (r : Bytes) : Bytes := if r.length == 64 && fieldLE r 60 4 == (crc32c 0xFFFFFFFF (r.take 60)).toNat then r else zeros 64

/-- The record under the cursor: the token's, or a waiting one while no FULL session is open. -/
def cursorRecord (s : State) : Bytes :=
  if fullSession s then
    (s.tok.socket.bind (fun (t : Token) => (t.almRecords.find? (fun x => x.1 == s.alm.cursor)).map (fun x => readRecord x.2))).getD (zeros 64)
  else ((waiting s)[s.alm.cursor]?.map (recordOut s)).getD (zeros 64)

/-- The window starts to load the record at an index. -/
def loadAt (i : Nat) (s : State) : State := { s with alm := { s.alm with cursor := i % 262144, loading := true } }

/-- A write of ALM_CURSOR. -/
def cursorWrite (v : Nat) (s : State) : State := if barOpen s .pf0 && !(s.fnOf .pf0).resetting then loadAt v s else s

/-- The load completes. -/
def windowLoad (s : State) : State :=
  if s.alm.loading then { s with alm := { s.alm with loading := false, window := cursorRecord s } } else s

/-- A read of ALM_WINDOW15: the word, and the advance (R491, R492). -/
def window15Read (s : State) : State :=
  let t := answerRead .pf0 (if s.alm.loading then 0 else fieldLE s.alm.window 60 4) s
  if barOpen s .pf0 && !(s.fnOf .pf0).resetting && !s.alm.loading then loadAt (s.alm.cursor + 1) t else t

/-- ALM_STATUS. -/
def almStatus (s : State) : Nat :=
  s.alm.drops * 65536 + s.alm.staging.length * 16 + bitAt s.alm.clearing 3 + bitAt (!(fullSession s)) 2 +
    bitAt (fullSession s && ((s.tok.socket.map (fun (t : Token) => decide (t.almReserve ≥ 4096))).getD false)) 1 + bitAt s.alm.loading 0

/-- A read of ALM_STATUS clears QUEUE_DROPS. -/
def almStatusRead (s : State) : State :=
  let t := answerRead .pf0 (almStatus s) s
  if barOpen s .pf0 && !(s.fnOf .pf0).resetting then { t with alm := { t.alm with drops := 0 } } else t

/-! ### Clearing (R493) -/

/-- A write of ALM_CLEAR. -/
def almClearWrite (v : Nat) (s : State) : State :=
  let allowed := s.dbg.active.getLsbD 1 || lcCode s == 0x0F
  let tokenOk := fullSession s && !s.tok.readOnly && ((s.tok.socket.map (fun (t : Token) => !t.readOnly)).getD false)
  if barOpen s .pf0 && !(s.fnOf .pf0).resetting && bitsOf v 8 8 == 0xA5 && bitOf v 0 && allowed && tokenOk && !s.alm.clearing then
    let s := s.onJournal (fun (t : Token) => { t with almBegin := true })
    { s with alm := { s.alm with clearing := true } }
  else s

/-- The 256 blocks are erased, everything starts again, and ALMANAC_CLEARED is record 0. A token that refuses an erase keeps the
records of the blocks not yet erased, 1,024 in each (log 23). -/
def clearAlmanac (s : State) : State :=
  match s.tok.socket with
  | none => s
  | some t =>
    let u := eraseBlocks (blocksOf .almanac) t
    let ended := fun (s : State) =>
      let s := s.onJournal (fun (t : Token) => { t with almBegin := false })
      { s with alm := { s.alm with clearing := false } }
    if u.readOnly then ended (noteLife u (s.onToken (fun _ => { u with almRecords := u.almRecords.filter (fun x => x.1 ≥ 1024 * (t.units - u.units)) })))
    else
      let sum := (s.alm.overflow.map (fun x => x.2)).sum
      let erased := t.almNext + t.almReserve
      let s := s.onToken (fun _ => { u with almRecords := [], almNext := 0, almReserve := 0, overflow := [] })
      let s := { s with alm := { s.alm with eventSeq := 1, overflow := [] } }
      let r := makeRecord 0x0307 0xFF00 (leBytes 4 erased ++ leBytes 4 (min sum 0xFFFFFFFF)) false s
      ended (s.onToken (appendRecord 0 (recordOut s r)))

/-- The erase completes. -/
def clearDone (s : State) : State := if s.alm.clearing && fullSession s then clearAlmanac s else s

/-! ### Commands -/

/-- ALMANAC_COMMIT (R482). -/
def execAlmanacCommit (s : State) : Host.Outcome State Fault Refusal := .next (commitNext s)
/-- COALESCE_WINDOW_CLOSE (R486). -/
def execCoalesceWindowClose (kind source : Nat) (s : State) : Host.Outcome State Fault Refusal := .next (windowEnd kind source s)
/-- HOUR_TICK (R479). -/
def execHourTick (s : State) : Host.Outcome State Fault Refusal := .next (hourPassed s)
/-- ALM_CURSOR_WRITE (R491). -/
def execAlmCursorWrite (value : Word) (s : State) : Host.Outcome State Fault Refusal := .next (cursorWrite value.toNat s)
/-- ALM_WINDOW15_READ (R491). -/
def execAlmWindow15Read (s : State) : Host.Outcome State Fault Refusal := .next (window15Read s)
/-- ALM_WINDOW_LOAD (R492). -/
def execAlmWindowLoad (s : State) : Host.Outcome State Fault Refusal := .next (windowLoad s)
/-- ALM_STATUS_READ (R491). -/
def execAlmStatusRead (s : State) : Host.Outcome State Fault Refusal := .next (almStatusRead s)
/-- ALM_CLEAR (R493). -/
def execAlmClear (value : Word) (s : State) : Host.Outcome State Fault Refusal := .next (almClearWrite value.toNat s)
/-- ALMANAC_CLEARED (R493). -/
def execAlmanacCleared (s : State) : Host.Outcome State Fault Refusal := .next (clearDone s)

end Sys2Proof.Machine
end

