-- ==== Sys2Proof/Machine/Slots.lean ====
section
/-!
DEFINITION. Slots as they leave: the direct digest port's key reference, retirement, zeroization, forced erasure, and the ERASE jobs and
admin commands that wait for the last reference (R217, R218, R230, R372, R391).
-/
namespace Sys2Proof.Machine

/-- Contexts of a key whose generation is gone end, busy ones with their job (R372). -/
def endKeyCtxs (h : Nat) (s : State) : State :=
  let upd : Ctx → Ctx := fun c => if c.live && c.key == h then (if c.busy then { c with keyGone := true } else killCtx c) else c
  { s with ctxs := s.ctxs.map upd }

/-- A port's key reference goes; an open computation ends with ERROR = KEY (R391). -/
def endDdp (y : FnState) : FnState :=
  let d := { y.ddp with keyed := none, keyLost := true }
  if d.busy then { y with ddp := { d with busy := false, ending := false, done := false, error := 2, digest := [], msg := [], buffered := 0 } }
  else { y with ddp := d }

/-- The port holds a reference to the slot's material. -/
def ddpHolds (i : Nat) (y : FnState) : Bool := match y.ddp.keyed with | some k => k.1 == i | none => false

/-- Every port's reference to a slot is dropped (R391). -/
def dropDdp (i : Nat) (s : State) : State := { s with fns := s.fns.map (fun y => if ddpHolds i y then endDdp y else y) }

/-- References held to a slot's material, over all copies (R218, R230). -/
def slotRefs (s : State) (x : Slot) : Nat :=
  x.pins + (x.copies.map (fun c => c.pins)).sum + (s.fns.filter (ddpHolds x.idx)).length

/-- The jobs that hold references to a slot. -/
def slotHolders (s : State) (i : Nat) : List Nat :=
  (s.jobs.filter (fun (j : Job) => j.phase != .done && j.pins.any (fun p => p.1 == i))).map (fun j => j.id)

/-- The key of a slot as an ERASE or REWRITE finds it (R24, R219). -/
def changeOf (s : State) (x : Slot) : SlotChange :=
  { clk := s.clk, domain := x.domain, ktype := x.ktype,
    old := { gen := x.gen, param := x.param, policy := x.policy, keyId := x.keyId, material := x.material } }

/-- An OCCUPIED slot becomes RETIRING and its generation rises (R217, R218); its contexts end (R372). -/
def retireSlot (i : Nat) (s : State) : State :=
  match s.slot? i with
  | none => s
  | some x =>
    if x.st != .occupied then s
    else
      let s := dropDdp i (endKeyCtxs (mkHandle x.domain x.ktype x.gen i) s)
      s.onSlot i (fun x => { x with st := .retiring, gen := genUp x.gen, changed := some (changeOf s x) })

/-- A slot's material is zeroized in the key cache and the arena, and the slot is FREE (R218). -/
def zeroSlot (i : Nat) (s : State) : State :=
  match s.slot? i with
  | none => s
  | some _ =>
    { s.onSlot i freeSlot with
      mem := { s.mem with keyCache := s.mem.keyCache.filter (fun k => k.1 != i), pkCache := s.mem.pkCache.filter (fun k => k.1 != i) } }

/-- A waiting KEY_ADMIN ERASE or ERASE_DOMAIN has nothing left to wait for. -/
def eraseOver (s : State) (w : AdminWait) : Bool :=
  match w.kind with
  | .eraseSlot => !(s.slots.any (fun x => x.idx == w.arg && x.st == .retiring))
  | .eraseDomain => !(s.slots.any (fun x => x.domain == w.arg && x.st == .retiring))
  | _ => false

/-- The admin commands whose wait is over complete (R230). -/
def endEraseWaits (s : State) : State :=
  let ended := s.waits.filter (eraseOver s)
  let s := { s with waits := s.waits.filter (fun w => !(eraseOver s w)) }
  ended.foldl (fun s w => adminDone w.fn w.tag .ok (leBytes 4 w.count) s) s

/-- The ERASE jobs that wait for a slot complete OK (R218). -/
def endEraseJobs (i : Nat) (s : State) : State :=
  (s.jobs.filter (fun (j : Job) => dOp j.desc == 0x4005 && j.phase == .running && j.newSlot == some i)).foldl
    (fun s j => okJob j { tag := j.tag, restarted := j.restarted, inline := leBytes 4 j.round } s) s

/-- A RETIRING slot that nothing references any more is zeroized, and what waited for it completes (R218). -/
def finishRetire (i : Nat) (s : State) : State := endEraseWaits (endEraseJobs i (zeroSlot i s))

/-- SLOT_RETIRED: the last reference to a RETIRING slot has dropped (R218). -/
def slotRetired (i : Nat) (s : State) : State :=
  match s.slot? i with
  | some x => if x.st == .retiring && slotRefs s x == 0 then finishRetire i s else s
  | none => s

/-- An erasure of a slot: how many jobs it waits for or aborted, and whether the slot is zeroized (R218, R223). -/
def eraseSlot (force : Bool) (i : Nat) (s : State) : Nat × Bool × State :=
  let hs := slotHolders s i
  let s := retireSlot i s
  if force then (hs.length, true, finishRetire i (hs.foldl (fun s h => abortJob .abortedHost h s) s))
  else if hs.isEmpty then (0, true, finishRetire i s)
  else (hs.length, false, s)

/-- SLOT_RETIRED (R218). -/
def execSlotRetired (slot : Nat) (s : State) : Host.Outcome State Fault Refusal := .next (slotRetired slot s)

end Sys2Proof.Machine
end

