-- ==== Sys2Proof/Machine/Tamper.lean ====
section
/-!
DEFINITION. Tamper alarms and their responses, and the tamper registers (R465 to R476, R99).
-/
namespace Sys2Proof.Machine

/-! ### Sensors and classes (R465 to R467) -/

/-- The minimum class of a sensor: 0 WARN, 1 ABORT, 2 ERASE. -/
def minClass (sensor : Nat) : Nat := if sensor < 10 then 1 else if sensor < 15 then 2 else 0

/-- A sensor that exists once in each quadrant. -/
def quadrantLocal (sensor : Nat) : Bool := [2, 3, 6, 7, 11].contains sensor

/-- The sensors that run from the auxiliary domain (R466). -/
def auxSensor (sensor : Nat) : Bool := [12, 13, 15].contains sensor

/-- The class an Ephemeris or, with main power off, the auxiliary domain gives a sensor. -/
def setClass (s : State) (sensor : Nat) : Nat :=
  let given := if s.pwr.pg then s.eph.cfg.floors else s.tam.auxClass
  max (minClass sensor) (((given.find? (fun x => x.1 == sensor)).map (fun x => x.2)).getD 0)

/-- The class an alarm applies: DESTROY only in FIELDED; LIGHT and FAULT_RATE at WARN while SCAN is active in RETURNED (R466, R467). -/
def alarmClass (s : State) (sensor : Nat) : Nat :=
  if lcCode s == 0x0F && s.dbg.active.getLsbD 5 && (sensor == 11 || sensor == 14) then 0
  else if setClass s sensor == 3 && lcCode s != 0x07 then 2
  else setClass s sensor

/-- The sensor can alarm: its domain has power; FAULT_RATE needs eight mismatches within 100 ms (R73, R465). -/
def canAlarm (s : State) (sensor : Nat) : Bool :=
  (if auxSensor sensor then s.pwr.auxPowered else s.pwr.pg) &&
    (sensor != 14 || decide ((s.tam.mismatches.filter (fun t => s.clk < t + 100000000)).length ≥ 8))

/-- The unit id of a sensor (R481). -/
def sensorUnit (sensor quadrant : Nat) : Nat := 0x1000 + sensor + (if quadrantLocal sensor then 16 * quadrant else 0)

/-! ### The record of an alarm (R468, R475) -/

/-- The sensor's bit, class, count and reading, and its condition present. -/
def noteSensor (sensor quadrant cls reading : Nat) (t : Tamper) : Tamper :=
  let q := if quadrantLocal sensor then quadrant else 0
  { t with sensor := t.sensor ||| BitVec.ofNat 16 (2 ^ sensor),
           classOf := if t.classOf.contains (sensor, cls) then t.classOf else t.classOf ++ [(sensor, cls)],
           counts := modAt t.counts sensor sat8, raw := modAt t.raw sensor (fun _ => reading % 2 ^ 32),
           conds := t.conds.filter (fun (c : Nat × Nat × Option Nat) => !(c.1 == sensor && c.2.1 == q)) ++ [(sensor, q, none)] }

/-- TAMPER_STATUS, the ALARM record, and with main power the event and the trace frame (R464, R468). -/
def noteAlarm (sensor quadrant cls reading : Nat) (s : State) : State :=
  let s := { s with tam := noteSensor sensor quadrant cls reading s.tam }
  let s := raiseEvent 0x0701 (sensorUnit sensor quadrant) ([byteOf cls] ++ leBytes 4 reading ++ leBytes 4 (tamperStatus s)) s
  if s.pwr.pg then trace { kind := 5, value := tamperStatus s } (ringEvent .pf0 0x0030 0xFFFF (tamperStatus s) 0 s) else s

/-! ### ABORT (R468) -/

/-- A unit lies under a sensor's alarm: its quadrant, or everywhere for a global sensor. -/
def underSensor (p : Part) (sensor quadrant unit : Nat) : Bool := !(quadrantLocal sensor) || quadrantOf p unit == quadrant

/-- What the alarms of this instant did so far (R472). -/
def alarmsNow (s : State) : AlarmNow := if s.tam.now.at_ == s.clk then s.tam.now else { at_ := s.clk, holds := s.tam.holds, suspended := s.eph.suspended }

/-- Jobs on the affected units stop with ABORTED_TAMPER, and the units take no dispatch; admission is rerun for each pool (R59, R468). -/
def abortUnits (sensor quadrant : Nat) (s : State) : State :=
  let hit := (s.units.filter (fun (u : UnitSt) => underSensor s.part sensor quadrant u.id)).map (fun (u : UnitSt) => u.id)
  let ids := (hit.flatMap (fun u => jobsOn u s)).eraseDups
  let s := ids.foldl (fun s i => abortJob .abortedTamper i s) s
  let pools := poolOrder.filter (fun p => s.units.any (fun (u : UnitSt) => hit.contains u.id && u.st == .inService && poolOfUnit u.id == some p))
  let held := hit.filter (fun u => s.units.any (fun (x : UnitSt) => x.id == u && (x.st == .inService || x.st == .heldTamper)))
  let s : State := { s with units := s.units.map (fun (u : UnitSt) => if hit.contains u.id && u.st == UnitState.inService then { u with st := .heldTamper } else u) }
  let other := s.tam.holds.filter (fun (h : Nat × Option Nat) => h.2 != some sensor || !(held.contains h.1))
  let s := { s with tam := { s.tam with holds := other ++ held.map (fun u => (u, some sensor)) } }
  pools.foldl (fun s p => rerunAdmission p s) s

/-- ABORT. An ERASE of the same instant governs it (R472). -/
def abortAlarm (sensor quadrant : Nat) (s : State) : State :=
  let n := alarmsNow s
  if n.erase then s
  else
    let t := abortUnits sensor quadrant s
    let held := (s.units.filter (fun (u : UnitSt) => u.st == .inService && underSensor s.part sensor quadrant u.id)).map (fun (u : UnitSt) => u.id)
    { t with tam := { t.tam with now := { n with held := n.held ++ held } } }

/-- An ERASE governs the ABORTs of its instant: units that they alone hold return, and the classes that this suspended resume (R472). -/
def governAborts (s : State) : State :=
  let n := alarmsNow s
  let s : State := { s with tam := { s.tam with now := { n with erase := true, held := [] } } }
  if n.held.isEmpty then s
  else { s with tam := { s.tam with holds := n.holds }, eph := { s.eph with suspended := n.suspended },
                units := s.units.map (fun (u : UnitSt) => if n.held.contains u.id && u.st == .heldTamper then { u with st := .inService } else u) }

/-! ### ERASE and DESTROY (R469, R470) -/

/-- The DDP engines drop their key references (R391, R469). -/
def dropDdpKeys (s : State) : State :=
  { s with fns := s.fns.map (fun x => if x.ddp.keyed.isSome then endDdp x else x) }

/-- Every volatile key is destroyed: caches, contexts, the wrapping key, SC-held keys; the sealing key is to follow (R469). -/
def eraseKeys (s : State) : State :=
  let s := dropAnchoredKeys (dropDdpKeys s)
  { s with ctxs := s.ctxs.map (fun (c : Ctx) => if c.live || c.busy then killCtx c else c), mem := { s.mem with keyCache := [] },
           sc := { s.sc with wrapKey := none, custodyCopy := false, sealDead := true } }

/-- QUARANTINE for a cause; an earlier cause stands (R473). -/
def quarantine (cause : Nat) (s : State) : State :=
  if s.tam.quarantine then s else { s with tam := { s.tam with quarantine := true, qCause := cause } }

/-- A token step of a transition or of a DESTROY keeps the session open (R470, R472). -/
def keepsSession (s : State) : Bool := fullSession s && (s.tam.destroyPending || s.lcs.busy)

/-- ERASE with main power on (R469). The session ends as the instant does, so that a DESTROY of the same instant keeps it (R470, R472; log 39). -/
def eraseAlarm (s : State) : State :=
  let s := quarantine 1 (governAborts s)
  let s := abortJobs .abortedTamper (fun _ => true) s
  let s := setActive 0 (eraseCert (eraseKeys s))
  { s with tam := { s.tam with sessionOver := true } }

/-- The instant of an ERASE ends: the token session ends, but for the token steps that keep it (R469, R470, R472). -/
def settleErase (s : State) : State :=
  if !s.tam.sessionOver then s
  else
    let s := { s with tam := { s.tam with sessionOver := false } }
    if keepsSession s then s else endSession s

/-- The sealing key is destroyed: every slot reads FREE (R469). -/
def destroySeal (s : State) : State :=
  if !(s.sc.sealDead && s.sc.sealKey.isSome) then s
  else
    { s with sc := { s.sc with sealKey := none }, slots := s.slots.map (fun x => { freeSlot x with changed := none }),
             mem := { s.mem with pkCache := [] } }

/-- The writes of a DESTROY end: the anchored area reads zeros, and the session ends (R470). -/
def zeroizeEnd (s : State) : State :=
  if !(s.pwr.pg && s.tam.destroyPending && fullSession s) then s
  else
    let s := zeroArea s
    endSession { s with tam := { s.tam with destroyPending := false } }

/-! ### By phase (R99, R471) -/

/-- The per-boot keys: boot nonce, sealing key, context-wrapping key (R209). -/
def bootKeys (s : State) : State :=
  let d := drawBytes 32 s
  let s := d.2
  let s := { s with sc := { s.sc with bootNonce := d.1, sealKey := some (drsKey s d.1 64 "YQ9 SEAL"), sealDead := false, custodyCopy := true, wrapNonce := 0 } }
  { s with sc := { s.sc with wrapKey := some (drsKey s d.1 32 "YQ9 CTX WRAP") } }

/-- An alarm of a class while start-up runs at a step (R99, R471). -/
def startAlarm (cls : Nat) (s : State) : State :=
  if cls == 0 then s
  else
    let s := { s with boot := { s.boot with hold := true } }
    if cls == 1 then s
    else
      let s := setActive 0 (eraseCert (quarantine 1 { s with tam := { s.tam with destroyPending := s.tam.destroyPending || cls == 3 } }))
      if s.boot.step > 3 && s.sc.drbgOn then bootKeys s else s

/-- An alarm of a class with main power off (R75, R471). -/
def auxAlarm (cls : Nat) (s : State) : State :=
  if cls < 2 then s
  else { s with tam := { s.tam with sleepLatch := true, destroyPending := s.tam.destroyPending || cls == 3 }, dbg := { s.dbg with cert := none, certLive := false } }

/-- An alarm in operation (R468 to R470). -/
def runAlarm (sensor quadrant cls : Nat) (s : State) : State :=
  if cls == 0 then s
  else if cls == 1 then abortAlarm sensor quadrant s
  else eraseAlarm { s with tam := { s.tam with destroyPending := s.tam.destroyPending || cls == 3 } }

/-- A sensor alarms (R465 to R471). -/
def tamperAlarm (sensor quadrant reading : Nat) (s : State) : State :=
  if !(canAlarm s sensor) then s
  else
    let cls := alarmClass s sensor
    let s := noteAlarm sensor quadrant cls reading s
    if !s.pwr.pg then auxAlarm cls s
    else if s.boot.done then runAlarm sensor quadrant cls s
    else startAlarm cls s

/-! ### The condition clears (R99, R468, R476) -/

/-- The condition returns within limits. -/
def condClear (sensor quadrant : Nat) (s : State) : State :=
  let q := if quadrantLocal sensor then quadrant else 0
  let upd := fun (c : Nat × Nat × Option Nat) => if c.1 == sensor && c.2.1 == q then (c.1, c.2.1, some (c.2.2.getD s.clk)) else c
  { s with tam := { s.tam with conds := s.tam.conds.map upd } }

/-- A condition has been clear for 1,000 Tr. -/
def clearLong (s : State) (c : Nat × Nat × Option Nat) : Bool :=
  match c.2.2 with
  | some t => decide (s.clk ≥ t + 1024000)
  | none => false

/-- Units held for a sensor's alarm return to dispatch after 1,000 Tr of clear condition (R468, R500). -/
def holdEnd (sensor quadrant : Nat) (s : State) : State :=
  let q := if quadrantLocal sensor then quadrant else 0
  if s.tam.conds.any (fun c => c.1 == sensor && c.2.1 == q && clearLong s c) then
    let holds := s.tam.holds.filter (fun (h : Nat × Option Nat) => !(h.2 == some sensor && underSensor s.part sensor quadrant h.1))
    let back := fun (u : UnitSt) => u.st == .heldTamper && !(holds.any (fun h => h.1 == u.id))
    let s : State := { s with tam := { s.tam with holds := holds }, units := s.units.map (fun (u : UnitSt) => if back u then { u with st := .inService } else u) }
    { s with mem := { s.mem with emptied := s.mem.emptied.filter (fun p => inService s p == 0) } }
  else s

/-! ### TAMPER_ACK (R475, R476) -/

/-- A sensor's ALARM records are committed and its condition is clear. -/
def sensorAckable (s : State) (n : Nat) : Bool :=
  !(alarmPending (fun (r : AlmRec) => r.source % 16 == n) s) && s.tam.conds.all (fun c => c.1 != n || c.2.2.isSome)

/-- Sensor `n`'s bit clears, with its class and its count. -/
def clearSensor (n : Nat) (t : Tamper) : Tamper :=
  { t with sensor := t.sensor &&& ~~~(BitVec.ofNat 16 (2 ^ n)), classOf := t.classOf.filter (fun c => c.1 != n), counts := modAt t.counts n (fun _ => 0) }

/-- The sensor bits of a TAMPER_ACK write. -/
def ackSensors (v : Nat) (s : State) : State :=
  if !(barOpen s .pf0 && !(s.fnOf .pf0).resetting) then s
  else { s with tam := (List.range 16).foldl (fun t n => if bitOf v n && sensorAckable s n then clearSensor n t else t) s.tam }

/-- The SLEEP_LATCH bit of a TAMPER_ACK write. -/
def ackLatch (v : Nat) (s : State) : State :=
  if barOpen s .pf0 && !(s.fnOf .pf0).resetting && bitOf v 26 && !s.tam.destroyPending then { s with tam := { s.tam with sleepLatch := false } } else s

/-! ### Commands -/

/-- TAMPER_ALARM (R468). -/
def execTamperAlarm (sensor quadrant reading : Nat) (s : State) : Host.Outcome State Fault Refusal := .next (tamperAlarm sensor quadrant reading s)
/-- SEALING_KEY_DESTROY (R469). -/
def execSealingKeyDestroy (s : State) : Host.Outcome State Fault Refusal := .next (destroySeal s)
/-- DESTROY_ZEROIZE_END (R470). -/
def execDestroyZeroizeEnd (s : State) : Host.Outcome State Fault Refusal := .next (zeroizeEnd s)
/-- TAMPER_HOLD_END (R468). -/
def execTamperHoldEnd (sensor quadrant : Nat) (s : State) : Host.Outcome State Fault Refusal := .next (holdEnd sensor quadrant s)
/-- TAMPER_CONDITION_CLEAR (R468). -/
def execTamperConditionClear (sensor quadrant : Nat) (s : State) : Host.Outcome State Fault Refusal := .next (condClear sensor quadrant s)
/-- TAMPER_ACK_SENSOR (R476). -/
def execTamperAckSensor (value : Word) (s : State) : Host.Outcome State Fault Refusal := .next (ackSensors value.toNat s)
/-- TAMPER_ACK_SLEEP_LATCH (R476). -/
def execTamperAckSleepLatch (value : Word) (s : State) : Host.Outcome State Fault Refusal := .next (ackLatch value.toNat s)

end Sys2Proof.Machine
end

