-- ==== Sys2Proof/Machine/Clock.lean ====
section
/-!
DEFINITION. The tick: what a nanosecond does when no command waits (log 1).
-/
namespace Sys2Proof.Machine

/-- Meridian time after one nanosecond of the deadline clock: at half rate while a catch-up has offset left (R37, R44). -/
def merTick (m : Meridian) : Meridian :=
  if !m.running then m
  else if m.slewing && m.slewLeft > 0 then
    if m.slewHalf then { m with ns := (m.ns + 1) % 2 ^ 64, slewHalf := false } else { m with slewHalf := true, slewLeft := m.slewLeft - 1 }
  else { m with ns := (m.ns + 1) % 2 ^ 64 }

/-- The changes of slots belong to the instant that ends (R219). -/
def settleSlots (s : State) : State := { s with slots := s.slots.map (fun x => { x with changed := none }) }

/-- A nanosecond passes. The instant of an ERASE ends (R469), and the token levels its wear while it has power (R243). Operating time advances only
while power-good is asserted, the off counter only while main power is off (R479). -/
def tick (s : State) : State :=
  let s := settleErase (settleSlots s)
  let s := if s.pwr.pg then s.onToken wearMove else s
  { s with clk := s.clk + 1, mer := merTick s.mer,
           alm := if s.pwr.pg then { s.alm with hourNs := s.alm.hourNs + 1 } else { s.alm with offNs := s.alm.offNs + 1 } }

end Sys2Proof.Machine
end

