-- ==== Sys2Proof/Machine/AdminBase.lean ====
section
/-!
DEFINITION. The admin queue: entries, the checks every command shares, completions and details (R108, R169 to R172, R177, R431, R432).
-/
namespace Sys2Proof.Machine

/-! ### Entries (R170) -/

def aOp (e : Bytes) : Nat := byteAt e 0
def aBuf (e : Bytes) : Nat := fieldLE e 8 8
def aBufLen (e : Bytes) : Nat := fieldLE e 16 4
def aTag (e : Bytes) : Nat := fieldLE e 48 4
/-- The instance that a PF0-only command names (R177): `none` for a TYPE other than 1 or 2. -/
def aTarget (e : Bytes) : Option Fn :=
  match byteAt e 26 with
  | 1 => some (.slice (fieldLE e 24 2))
  | 2 => some (.vf (fieldLE e 24 2))
  | _ => none

/-- How an admin command ends: OK with the bytes written to BUF and its inline result, a failure with detail and the length needed, or
later, when what it waits for has happened. -/
inductive AdminRes where
  | ok (bytes : Nat) (inline : Bytes) (s : State)
  | fail (st : Status) (detail : Nat) (need : Nat)
  | wait (w : AdminWait) (s : State)

/-- A failure with its detail. -/
def aFail (st : Status) (detail : Nat) : AdminRes := .fail st detail 0
/-- A failure with MALFORMED_DESCRIPTOR. -/
def aBad (detail : Nat) : AdminRes := .fail .malformedDescriptor detail 0

/-- The first check that fails, else the command's work. -/
def aChecks : List (Bool × AdminRes) → (Unit → AdminRes) → AdminRes
  | [], k => k ()
  | (bad, r) :: rest, k => if bad then r else aChecks rest k

/-! ### The admin table (R172, R177, R230, R238, R436, R439) -/

/-- The row of the command table that an entry belongs to: opcode × 256 + sub-operation; none for no row. -/
def rowCode (e : Bytes) : Option Nat :=
  let op := aOp e
  let sub := byteAt e 24
  if op == 7 then (if sub == 1 || sub == 2 then some (0x0700 + sub) else none)
  else if op == 0x0A then (if 1 ≤ sub && sub ≤ 5 then some (0x0A00 + sub) else none)
  else if op == 0x0B then (if 1 ≤ sub && sub ≤ 3 then some (0x0B00 + sub) else none)
  else if op == 0x10 then some (0x1000 + byteAt e 27 % 2)
  else if op == 0x13 then (if byteAt e 27 ≤ 2 then some (0x1300 + byteAt e 27) else none)
  else if (1 ≤ op && op ≤ 0x0D) || (0x10 ≤ op && op ≤ 0x16) then some (256 * op) else none

/-- An opcode of the admin table. -/
def adminOp (op : Nat) : Bool := (1 ≤ op && op ≤ 0x0D) || (0x10 ≤ op && op ≤ 0x16)

/-- Entry bytes 24 to 63 that a command names (R172, R177, R230, R238, R430, R436, R439). -/
def namedBytes (op : Nat) : List Nat :=
  match op with
  | 0x02 => [24, 25, 26, 28, 29, 30, 31, 32, 33]
  | 0x03 => [24, 25, 26, 27, 28, 29, 30, 31, 32, 33]
  | 0x04 => [24, 25]
  | 0x05 => [24, 25]
  | 0x06 => [24, 25, 28, 29, 30, 31]
  | 0x07 => [24]
  | 0x08 => [26, 28, 29]
  | 0x09 => [24]
  | 0x0A => [24, 25, 32, 33, 34, 35, 36, 37, 38, 39]
  | 0x0B => [24, 25, 26]
  | 0x10 => [24, 25, 26, 27]
  | 0x11 => [24, 25, 26]
  | 0x12 => [24, 25, 26]
  | 0x13 => [24, 25, 26, 27, 52, 53, 54, 55, 56, 57, 58, 59]
  | 0x14 => [24, 25, 26, 28, 29, 30, 31, 32, 33, 34, 35, 36, 37, 40, 41, 42]
  | 0x15 => [24, 25, 26]
  | 0x16 => [24, 25, 26]
  | _ => []

/-- Commands that take a buffer. -/
def usesBuf (op : Nat) : Bool :=
  op == 1 || op == 2 || op == 3 || (7 ≤ op && op ≤ 0x0D) || op == 0x11 || op == 0x12 || op == 0x13

/-- Every reserved byte of an entry is 0 (R170). -/
def reservedOk (e : Bytes) : Bool :=
  let op := aOp e
  allZero (sliceOf e 1 7) && (usesBuf op || allZero (sliceOf e 8 12)) && allZero (sliceOf e 20 4) &&
    (List.range 40).all (fun i => (48 ≤ i + 24 && i + 24 < 52) || (namedBytes op).contains (i + 24) || byteAt e (i + 24) == 0)

/-- Commands that the unconfigured state accepts (R108). -/
def unconfOk (e : Bytes) : Bool :=
  let op := aOp e
  op == 1 || op == 7 || op == 0x0B || op == 0x0C || op == 0x0D || (op == 0x0A && byteAt e 24 == 5)

/-- The checks before a command's own list (R108, R171): 0x01, 0x40, 0x02. -/
def adminGate (s : State) (f : Fn) (e : Bytes) (k : Unit → AdminRes) : AdminRes :=
  aChecks
    [(!(adminOp (aOp e)) || (aOp e ≥ 0x10 && f != .pf0), aBad 0x01),
     (!s.eph.configured && !(unconfOk e), aFail .algorithmDisabled 0x40),
     (!(reservedOk e), aBad 0x02)] k

/-- An entry whose sub-operation, log id, form or OP is unknown (R171, R231). -/
def unknownSub (e : Bytes) : AdminRes :=
  match aOp e with
  | 7 => aBad 0x0C
  | 0x0A => aBad 0x59
  | _ => aBad 0x02

/-! ### Instances (R177, R431, R432) -/

/-- Check 0x60: the TYPE and the function mode fit (R432). -/
def modeBad (s : State) (e : Bytes) : Bool :=
  match aTarget e with
  | some (.slice _) => !(sliceMode s)
  | some _ => !(vfMode s)
  | none => true

/-- Check 0x61: the named instance exists (R432). -/
def instanceBad (s : State) (e : Bytes) : Bool :=
  match aTarget e with
  | some (.slice n) => n ≥ s.eph.cfg.sliceLimit || (s.slice? n).isNone
  | some (.vf n) => n == 0 || n > s.eph.cfg.vfLimit || (s.fn? (.vf n)).isNone
  | _ => true

/-! ### Buffers (R170, R171) -/

/-- Data is written to the command's buffer from offset 0; then the command goes on. -/
def toBuf (a : AdminIn) (e data : Bytes) (k : State → AdminRes) (s : State) : AdminRes :=
  if aBufLen e < data.length then .fail .outputTooSmall 0x30 data.length
  else if !a.writeOk then aFail .translationFault 0x31
  else k (writeOut a.fn (aBuf e) data s)

/-- The buffer's contents, `n` bytes of it; none where its read fails. -/
def fromBuf (a : AdminIn) (n : Nat) : Option Bytes := a.buf.bind (fun b => if b.length < n then none else some (b.take n))

/-! ### Execution (R169, R170) -/

/-- The function can start an admin command: its SQ is enabled and not empty, its CQ is enabled with room, no command of it waits.
DESIGN CHOICE (log 39): the limit of 8,192 jobs in flight, at which fetching "from every SQ" stops (R26), does not stop the admin SQ. -/
def adminCanStart (s : State) (f : Fn) (q : Sq) : Bool :=
  q.st == .enabled && !q.arrivals.isEmpty && mayDma s f && !(s.waits.any (fun w => w.fn == f)) &&
    (match s.cq? f 0xFFFF with | some c => c.st == .enabled && c.room && !c.episode | none => false)

/-- The inline result of a failure: the detail, for BUFFER the length needed, and byte 4 of a failed dirty log (R170, R171, R438). -/
def failInline (detail need : Nat) : Bytes := if need > 0 then [byteOf detail, 0, 0, 0] ++ leBytes 4 need else [byteOf detail]

/-- A command's result becomes its completion, or a wait (R169, R170); OUTPUT_TOO_SMALL gives the length needed in BYTES too (R195). -/
def adminFinish (f : Fn) (tag : Nat) (s : State) : AdminRes → State
  | .ok n inl s' => writeCompletion f 0xFFFF none false { tag := tag, bytes := n, inline := inl } s'
  | .fail st d need => writeCompletion f 0xFFFF none false { tag := tag, status := st, bytes := if st == .outputTooSmall then need else 0, inline := failInline d need } s
  | .wait w s' => { s' with waits := s'.waits ++ [{ w with fn := f, tag := tag }] }

/-- Bytes that a command reads from BUF: the image of AUM_SUBMIT, DBG_CERT_SUBMIT and RESTORE_STATE, the nonce of ATTEST (R172, R231, R460). -/
def bufReadLen (e : Bytes) : Nat :=
  match rowCode e with
  | some 0x0C00 => aBufLen e
  | some 0x0D00 => aBufLen e
  | some 0x1200 => aBufLen e
  | some c => if c == 0x0B01 || c == 0x0B02 then 32 else 0
  | none => 0

/-- The read of BUF. DESIGN CHOICE (log 39): it leaves as the command starts, before the command's own checks. -/
def bufRead (f : Fn) (e : Bytes) (s : State) : State := if bufReadLen e == 0 then s else postRead f (aBuf e) (bufReadLen e) s

/-- One admin command of row `row` (R169): the entry is fetched, checked and executed. -/
def adminRun (row : Nat) (body : Bytes → AdminIn → State → AdminRes) (a : AdminIn) (s : State) : State :=
  match s.sq? a.fn 0xFFFF with
  | none => s
  | some q =>
    if !(adminCanStart s a.fn q) then s
    else match a.entry with
    | none => stopSq a.fn 0xFFFF 0x04 q.head (fetchRead a.fn 0xFFFF s)
    | some e0 =>
      let e := sliceZ e0 0 64
      if !(rowCode e == some row || (rowCode e).isNone) then s
      else
        let s := (fetchRead a.fn 0xFFFF s).onSq a.fn 0xFFFF Sq.pass
        let s := bufRead a.fn e s
        adminFinish a.fn (aTag e) s (adminGate s a.fn e (fun _ => if (rowCode e).isNone then unknownSub e else body e a s))

end Sys2Proof.Machine
end

