-- ==== Sys2Proof/Machine/AdminQueues.lean ====
section
/-!
DEFINITION. The queue and log commands: IDENTIFY, CREATE_CQ, CREATE_SQ, DESTROY_SQ, DESTROY_CQ, ABORT_JOB, GET_LOG, SET_EVENT_RING and
MONITOR_SNAPSHOT (R51, R53, R64, R145, R147, R172 to R178, R471, R500).
-/
namespace Sys2Proof.Machine

/-! ### Limits (R122, R145, R147) -/

/-- A vector a command may name (R171). -/
def vectorOk (s : State) (f : Fn) (v : Nat) : Bool := v == 0xFFFF || v < vectorsOf s f

/-- Queue-pair ids of a function or slice (R145). -/
def qpIds (s : State) : Fn → Nat
  | .slice n => min (256 * ((s.slice? n).map (fun x => x.pageCount)).getD 0) 0xFFFF
  | _ => 4096

/-- Queue pairs of the whole device, admin pairs apart (R147). -/
def qpTotal (s : State) : Nat :=
  (((s.sqs.filter (fun q => q.id != 0xFFFF)).map (fun q => (q.fn, q.id)) ++ (s.cqs.filter (fun q => q.id != 0xFFFF)).map (fun q => (q.fn, q.id))).eraseDups).length

/-! ### IDENTIFY (R176) -/

/-- The 64 bytes. -/
def identifyBytes (s : State) (f : Fn) : Bytes :=
  let d := domainOf s f
  let quota := fun (g : State → Nat → Nat) => leBytes 4 ((d.map (g s)).getD 0)
  [byteOf (fnType f), byteOf (bitAt s.eph.configured 0 + bitAt s.eph.factory 1 + bitAt s.flt.degraded 2 + bitAt s.tam.quarantine 3)] ++
    leBytes 2 (fnNumber f) ++ leBytes 2 (d.getD 0xFFFF) ++ leBytes 2 (vectorsOf s f) ++ leBytes 4 (qpIds s f) ++ [16, 0, 0, 0] ++
    ((devCap s.part).map (leBytes 4)).flatten ++ leBytes 4 s.eph.sequence ++ quota queueQuota ++ quota slotQuota ++ quota inflightQuota ++ zeros 16

/-- IDENTIFY. -/
def adminIdentify (e : Bytes) (a : AdminIn) (s : State) : AdminRes := toBuf a e (identifyBytes s a.fn) (fun s => .ok 64 [] s) s

/-- IDENTIFY (R176). -/
def execIdentify (a : AdminIn) (s : State) : Host.Outcome State Fault Refusal := .next (adminRun 0x0100 adminIdentify a s)

/-! ### CREATE and DESTROY (R51, R53, R172) -/

/-- CREATE_CQ. -/
def adminCreateCq (e : Bytes) (a : AdminIn) (s : State) : AdminRes :=
  let id := fieldLE e 24 2
  let n := byteAt e 26
  aChecks
    [(id ≥ qpIds s a.fn, aBad 0x06), ((s.cq? a.fn id).isSome, aBad 0x05), (n == 0 || n > 16, aBad 0x03),
     (aBuf e % 4096 != 0 || aBufLen e != 32 * 2 ^ n, aBad 0x04), (!(vectorOk s a.fn (fieldLE e 28 2)), aBad 0x08),
     ((s.sq? a.fn id).isNone && qpTotal s ≥ 65536, aFail .budgetExceeded 0x22)]
    (fun _ => .ok 0 [] { s with cqs := s.cqs ++ [{ fn := a.fn, id := id, base := aBuf e, log2 := n, credits := 2 ^ n, vector := fieldLE e 28 2,
                                                   k := fieldLE e 30 2, t := fieldLE e 32 2 }] })

/-- A failure of R51: the class's shares pass 4,096, a bucket would have depth 0, or the class is suspended. -/
def shareBad (s : State) (cls share : Nat) : Bool :=
  let used := ((s.sqs.filter (fun q => q.cls == cls && q.id != 0xFFFF)).map (fun q => q.share)).sum
  share == 0 || used + share > 4096 || s.eph.suspended.contains cls ||
    s.eph.cfg.pools.any (fun p => p.cls == cls && p.rho > 0 && p.sigma * share / 4096 == 0)

/-- The pools in which a class has a budget. -/
def classPools (s : State) (cls : Nat) : List Pool := (s.eph.cfg.pools.filter (fun p => p.cls == cls && p.rho > 0)).map (fun p => p.pool)

/-- An SQ with full buckets (R51). -/
def newSq (s : State) (q : Sq) : Sq :=
  { q with buckets := (classPools s q.cls).map (fun p => { pool := p, level := ((bucketDepth s q p * tokenUnit : Nat) : Int), asOf := s.clk }) }

/-- SQs of a domain, which its queue quota counts (R221). -/
def domainSqs (s : State) (dom : Nat) : Nat := (s.sqs.filter (fun q => q.id != 0xFFFF && q.domain == dom)).length

/-- CREATE_SQ.
DESIGN CHOICE (log 39): the second queue of a pair that exists adds no pair, so DEVICE_LIMIT is not raised for it at 65,536 pairs (R171). -/
def adminCreateSq (e : Bytes) (a : AdminIn) (s : State) : AdminRes :=
  let id := fieldLE e 24 2
  let n := byteAt e 26
  let cls := byteAt e 27
  let field := fieldLE e 32 2
  let own := domainOf s a.fn
  let dom := own.getD field
  let share := fieldLE e 30 2
  aChecks
    [(id ≥ qpIds s a.fn, aBad 0x06), ((s.sq? a.fn id).isSome, aBad 0x05), (n == 0 || n > 16, aBad 0x03),
     (aBuf e % 4096 != 0 || aBufLen e != 64 * 2 ^ n, aBad 0x04),
     (fieldLE e 28 2 == 0xFFFF || (match s.cq? a.fn (fieldLE e 28 2) with | some c => c.st == .error | none => true), aBad 0x07),
     (cls > 15 || (classOf s.eph.cfg cls).isNone, aBad 0x09),
     (if own.isSome then field != 0 else queueQuota s dom == 0, aBad 0x0D),
     (domainSqs s dom ≥ queueQuota s dom, aFail .budgetExceeded 0x21),
     ((s.cq? a.fn id).isNone && qpTotal s ≥ 65536, aFail .budgetExceeded 0x22),
     (shareBad s cls share, aFail .budgetExceeded 0x20)]
    (fun _ => .ok 0 [] { s with sqs := s.sqs ++ [newSq s { fn := a.fn, id := id, base := aBuf e, log2 := n, cls := cls, cq := fieldLE e 28 2, share := share, domain := dom }] })

/-- An I/O queue id that names a queue which exists. -/
def qidBad (s : State) (f : Fn) (id : Nat) (sq : Bool) : Bool :=
  id ≥ qpIds s f || (if sq then (s.sq? f id).isNone else (s.cq? f id).isNone)

/-- DESTROY_SQ (R53, R171). -/
def adminDestroySq (e : Bytes) (a : AdminIn) (s : State) : AdminRes :=
  let id := fieldLE e 24 2
  let busy := s.jobs.any (fun (j : Job) => j.fn == a.fn && j.sq == id) ||
    (match s.sq? a.fn id with | some q => q.st == .enabled && q.head != q.tail | none => false)
  aChecks [(qidBad s a.fn id true, aBad 0x06), (busy, aBad 0x0A)]
    (fun _ => .ok 0 [] { s with sqs := s.sqs.filter (fun q => !(q.fn == a.fn && q.id == id)) })

/-- DESTROY_CQ. -/
def adminDestroyCq (e : Bytes) (a : AdminIn) (s : State) : AdminRes :=
  let id := fieldLE e 24 2
  aChecks [(qidBad s a.fn id false, aBad 0x06), (s.sqs.any (fun q => q.fn == a.fn && q.cq == id && q.id != 0xFFFF), aBad 0x0B)]
    (fun _ => .ok 0 [] { s with cqs := s.cqs.filter (fun q => !(q.fn == a.fn && q.id == id)) })

/-- CREATE_CQ (R172). -/
def execCreateCq (a : AdminIn) (s : State) : Host.Outcome State Fault Refusal := .next (adminRun 0x0200 adminCreateCq a s)
/-- CREATE_SQ (R172). -/
def execCreateSq (a : AdminIn) (s : State) : Host.Outcome State Fault Refusal := .next (adminRun 0x0300 adminCreateSq a s)
/-- DESTROY_SQ (R172). -/
def execDestroySq (a : AdminIn) (s : State) : Host.Outcome State Fault Refusal := .next (adminRun 0x0400 adminDestroySq a s)
/-- DESTROY_CQ (R172). -/
def execDestroyCq (a : AdminIn) (s : State) : Host.Outcome State Fault Refusal := .next (adminRun 0x0500 adminDestroyCq a s)

/-! ### ABORT_JOB (R173) -/

/-- ABORT_JOB: NOT_FOUND, ABORTED or COMPLETING. -/
def adminAbortJob (e : Bytes) (a : AdminIn) (s : State) : AdminRes :=
  let id := fieldLE e 24 2
  aChecks [(qidBad s a.fn id true, aBad 0x06)]
    (fun _ =>
      match s.jobs.find? (fun (j : Job) => j.fn == a.fn && j.sq == id && j.tag == fieldLE e 28 4) with
      | none => .ok 0 [0] s
      | some j => if j.phase == .done || j.pastEnd || j.failed.isSome then .ok 0 [2] s else .ok 0 [1] (abortJob .abortedHost j.id s))

/-- ABORT_JOB (R173). -/
def execAbortJob (a : AdminIn) (s : State) : Host.Outcome State Fault Refusal := .next (adminRun 0x0600 adminAbortJob a s)

/-! ### GET_LOG (R174, R500) -/

/-- SQ_STATE of a record. -/
def qstCode : QState → Nat
  | .enabled => 0
  | .error => 1
  | .quiesced => 2

/-- The record of one queue pair (R174). -/
def qpRecord (s : State) (f : Fn) (id : Nat) : Bytes :=
  let q := s.sq? f id
  let c := s.cq? f id
  let ofQ := fun (g : Sq → Nat) => (q.map g).getD 0
  let ofC := fun (g : Cq → Nat) => (c.map g).getD 0
  leBytes 2 id ++ [byteOf (bitAt q.isSome 0 + bitAt c.isSome 1), byteOf (ofQ (fun q => qstCode q.st)), byteOf (ofC (fun c => qstCode c.st)),
    byteOf (ofQ (fun q => q.reason)), byteOf (ofC (fun c => c.reason)), 0] ++
    leBytes 4 (ofQ (fun q => q.latched)) ++ leBytes 4 (ofC (fun c => c.latched)) ++
    leBytes 4 (ofQ (fun _ => (s.jobs.filter (fun (j : Job) => j.fn == f && j.sq == id)).length)) ++ leBytes 4 (ofC (fun c => c.held.length)) ++
    leBytes 4 (ofQ (fun q => q.head)) ++ leBytes 4 (ofC (fun c => c.tail))

/-- Queue-pair ids in use, ascending. -/
def qpUsed (s : State) (f : Fn) : List Nat :=
  let ids := (s.sqs.filter (fun q => q.fn == f && q.id != 0xFFFF)).map (fun q => q.id) ++ (s.cqs.filter (fun q => q.fn == f && q.id != 0xFFFF)).map (fun q => q.id)
  (List.range (ids.foldl max 0 + 1)).filter (fun i => ids.contains i)

/-- QUEUE_STATUS. -/
def queueStatusBytes (s : State) (f : Fn) : Bytes := ((qpUsed s f).map (qpRecord s f)).flatten

/-- STATE of a unit record (R500). -/
def unitCode : UnitState → Nat
  | .inService => 0
  | .fencedKat => 1
  | .fencedFault => 2
  | .withheldTest => 3
  | .heldTamper => 4

/-- The record of one unit (R500). -/
def unitRecord (s : State) (id : Nat) : Bytes :=
  let u := (s.unit? id).getD { id := id }
  let c := unitCode u.st
  leBytes 2 id ++ [byteOf (quadrantOf s.part id), byteOf c, byteOf (if c == 1 || c == 2 then u.cause else 0), 0, 0, 0] ++ leBytes 8 u.fenceAt

/-- The record of one DRAM channel (R500). -/
def chanRecord (i : Nat) (c : Chan) : Bytes :=
  leBytes 2 (0x400 + i) ++ [0xFF, byteOf (if c.inService then 0 else 2), byteOf (if c.inService then 0 else 5), 0, 0, 0] ++ leBytes 8 c.fenceAt

/-- A quadrant holds its GF(2) grant as long as it has a VCC in service (R317, R497, R500). -/
def quadrantGrant (s : State) (q : Nat) : Bool :=
  s.units.any (fun (u : UnitSt) => poolOfUnit u.id == some .vcc && quadrantOf s.part u.id == q && u.st == .inService)

/-- POOL_STATUS (R500). -/
def poolStatusBytes (s : State) : Bytes :=
  let ids := poolOrder.flatMap (fun p => (List.range (built s.part p)).map (fun i => 256 * poolClass p + i))
  let mask := fun (l : List Bool) => (l.mapIdx (fun i b => bitAt b i)).sum
  leBytes 4 (ids.length + s.chans.length) ++ poolOrder.map (fun p => byteOf (inService s p)) ++
    [byteOf (mask ((List.range 4).map (quadrantGrant s))), byteOf (mask (s.chans.map (fun c => c.inService)))] ++
    leBytes 2 ((s.eph.suspended.map (fun c => 2 ^ c)).foldl Nat.lor 0) ++ leBytes 8 s.eph.rerunAt ++ zeros 12 ++
    (ids.map (unitRecord s)).flatten ++ (s.chans.mapIdx chanRecord).flatten

/-- A log goes to the buffer; INLINE gives its length (R172). -/
def adminLog (log : State → Fn → Bytes) (e : Bytes) (a : AdminIn) (s : State) : AdminRes :=
  let b := log s a.fn
  toBuf a e b (fun s => .ok b.length (leBytes 4 b.length) s) s

/-- GET_LOG QUEUE_STATUS (R174). -/
def execGetLogQueueStatus (a : AdminIn) (s : State) : Host.Outcome State Fault Refusal := .next (adminRun 0x0701 (adminLog queueStatusBytes) a s)
/-- GET_LOG POOL_STATUS (R500). -/
def execGetLogPoolStatus (a : AdminIn) (s : State) : Host.Outcome State Fault Refusal := .next (adminRun 0x0702 (adminLog (fun s _ => poolStatusBytes s)) a s)

/-! ### SET_EVENT_RING (R178, R471) -/

/-- The ring set, or removed by BUF = 0. -/
def setRing (f : Fn) (base log2 vector : Nat) (s : State) : State :=
  let old := (s.fnOf f).evr
  let r : FnEvr := if base == 0 then { droppedReg := old.droppedReg, droppedPrev := old.droppedPrev }
    else { present := true, base := base, log2 := log2, vector := vector, droppedReg := old.droppedReg, droppedPrev := old.droppedPrev }
  let s := s.onFn f (fun x => { x with evr := r })
  if f == .pf0 && base != 0 && s.tam.latchEvent then
    ringEvent .pf0 0x0030 0xFFFF (tamperStatus s) 0 { s with tam := { s.tam with latchEvent := false } }
  else s

/-- SET_EVENT_RING; a removal is checked only for reserved bytes. -/
def adminSetRing (e : Bytes) (a : AdminIn) (s : State) : AdminRes :=
  let n := byteAt e 26
  let on := aBuf e != 0
  aChecks
    [(on && (n < 4 || n > 12), aBad 0x03), (on && (aBuf e % 4096 != 0 || aBufLen e != 32 * 2 ^ n), aBad 0x04),
     (on && !(vectorOk s a.fn (fieldLE e 28 2)), aBad 0x08)]
    (fun _ => .ok 0 [] (setRing a.fn (aBuf e) n (fieldLE e 28 2) s))

/-- SET_EVENT_RING (R178). -/
def execSetEventRing (a : AdminIn) (s : State) : Host.Outcome State Fault Refusal := .next (adminRun 0x0800 adminSetRing a s)

/-! ### MONITOR_SNAPSHOT (R64, R65, R175) -/

/-- The records of a function's SQs, from id 0 to the highest (R175). -/
def snapshotBytes (s : State) (f : Fn) : Bytes :=
  let ids := (s.sqs.filter (fun q => q.fn == f && q.id != 0xFFFF)).map (fun q => q.id)
  if ids.isEmpty then []
  else ((List.range (ids.foldl max 0 + 1)).map (fun i => match s.sq? f i with
    | some q => leBytes 4 q.latMin ++ leBytes 4 q.latMax ++ leBytes 8 q.count
    | none => zeros 16)).flatten

/-- The pool counters as they stand now: BUSY includes the jobs that run (R65). -/
def poolNow (s : State) : List PoolMon :=
  s.mon.poolLive.mapIdx (fun i m =>
    let run := ((s.units.filter (fun u => u.id / 256 == i && u.job.isSome)).map (fun u => s.clk - u.busySince)).sum
    { m with busy := satAt (2 ^ 64 - 1) (m.busy + run), snapTr := clkTr s })

/-- The live counters go to the snapshot set, and with RESET start again (R64). -/
def takeSnapshot (f : Fn) (reset : Bool) (s : State) : State :=
  let s := if f == .pf0 then { s with mon := { s.mon with snap := s.mon.live, poolSnap := poolNow s } } else s
  if !reset then s
  else
    let s := { s with sqs := s.sqs.map (fun q => if q.fn == f then { q with latMin := 0xFFFFFFFF, latMax := 0, count := 0 } else q) }
    if f == .pf0 then
      { s with mon := { s.mon with live := List.replicate 16 {}, poolLive := List.replicate 4 {} },
               units := s.units.map (fun u => if u.job.isSome then { u with busySince := s.clk } else u) }
    else s

/-- MONITOR_SNAPSHOT. -/
def adminSnapshot (e : Bytes) (a : AdminIn) (s : State) : AdminRes :=
  let b := snapshotBytes s a.fn
  aChecks [(byteAt e 24 > 1, aBad 0x02)]
    (fun _ => toBuf a e b (fun s => .ok b.length (leBytes 4 (b.length / 16)) (takeSnapshot a.fn (byteAt e 24 == 1) s)) s)

/-- MONITOR_SNAPSHOT (R64). -/
def execMonitorSnapshot (a : AdminIn) (s : State) : Host.Outcome State Fault Refusal := .next (adminRun 0x0900 adminSnapshot a s)

end Sys2Proof.Machine
end

