-- ==== Sys2Proof/Machine/Run.lean ====
section
/-!
DEFINITION. The run of a dispatched job on its unit (steps 7 to 9): input and fragment lists, faults, outputs, the new key, the completion
(R34, R183 to R197, R218, R225, R276, R380, R495, R496).
-/
namespace Sys2Proof.Machine

/-- A job's write: its pages are due in the dirty log at the job's end (R25, R436, R437). -/
def writeJob (j : Job) (addr : Nat) (data : Bytes) (s : State) : State :=
  let s := countOutside j.fn addr data.length (postWrite j.fn addr data s)
  let ds := dirtyPages s j.fn addr data.length
  if ds.isEmpty then s else s.onJob j.id (fun x => { x with dirty := (x.dirty ++ ds).eraseDups })

/-- Bytes of a job laid out over fragments in order. -/
def scatter (j : Job) : List (Nat × Nat) → Bytes → State → State
  | [], _, s => s
  | (a, n) :: r, bs, s => if bs.isEmpty then s else scatter j r (bs.drop n) (writeJob j a (bs.take n) s)

/-- Fragments without their first bytes. -/
def dropFrags : Nat → List (Nat × Nat) → List (Nat × Nat)
  | 0, l => l
  | _, [] => []
  | n, (a, k) :: r => if k ≤ n then dropFrags (n - k) r else (a + n, k - n) :: r

/-! ### Results -/

/-- The new key of a job (R225). -/
structure NewKey where
  ktype : Nat := 0
  param : Nat := 0
  policy : BitVec 32 := 0
  keyId : Nat := 0
  material : Bytes := []

/-- What a unit has worked out when it has taken the whole input: streamed output, staged output behind it, INLINE, the new key,
an implicit rejection, an output that failed its test before release (R277), or the rounds used up with what the job keeps for the next ones (R276). -/
structure Result where
  status : Status := .ok
  streamed : Bytes := []
  staged : Bytes := []
  inline : Bytes := []
  key : Option NewKey := none
  implicit : Bool := false
  faulty : Bool := false
  overrun : Option (Bytes × Nat) := none

/-- The verdict words (R380). -/
def verdictWords (ok : Bool) : Bytes :=
  if ok then leBytes 4 0x3C96A5F0 ++ leBytes 4 0xC3695A0F else leBytes 4 0xC3695A0F ++ leBytes 4 0x3C96A5F0

/-- A verification's result (R273, R380). -/
def verdict (ok : Bool) : Result := { status := if ok then .ok else .verifyFailed, inline := verdictWords ok }

/-- An input that is rejected (R34). -/
def rejected : Result := { status := .inputRejected }

/-- The work of a service: the job, its input, its strings or AAD, and the state that its random draws advance. -/
abbrev Svc := Job → Bytes → Bytes → State → Result × State

/-! ### The new key (R218, R225) -/

/-- A slot with a new key under the raised generation; referenced old material becomes a retiring copy. -/
def slotWithKey (domain : Nat) (k : NewKey) (x : Slot) : Slot :=
  { x with st := .occupied, gen := x.gen + 1, matGen := x.gen + 1, domain := domain, ktype := k.ktype, param := k.param, policy := k.policy,
           keyId := k.keyId, material := k.material, pins := 0,
           copies := if x.pins > 0 then x.copies ++ [{ gen := x.matGen, pins := x.pins, param := x.param, policy := x.policy, keyId := x.keyId, material := x.material }] else x.copies }

/-- An XTS key with equal halves does not fit its type (R355). -/
def xtsEqual (typ : Nat) (m : Bytes) : Bool := typ == 0x13 && m.take 32 == m.drop 32

/-- New material whose halves differ where its type asks it (R355). DESIGN CHOICE: the spec says that no XTS key has equal halves and not what
takes their place; the other half is the free value `Config.otherHalf` (log 39). -/
def unequal (typ : Nat) (m : Bytes) : Bytes :=
  if xtsEqual typ m then
    let h := sliceZ (Config.otherHalf m) 0 32
    m.take 32 ++ (if h == m.take 32 then h.map (fun b => b ^^^ 1) else h)
  else m

/-- A job with REPLACE (R223). -/
def replaces (d : Bytes) : Bool := (dOp d == 0x4001 || dOp d == 0x4002 || dOp d == 0x4003) && flag8 d

/-- The new key takes its slot; `none` where TARGET's generation has changed (R218). -/
def placeKey (j : Job) (k : NewKey) (s : State) : Option (Nat × State) :=
  if replaces j.desc then
    let h := gTarget j.block
    match s.slot? (hSlot h) with
    | none => none
    | some x =>
      if x.st != .occupied || x.gen != hGen h || x.domain != j.domain then none
      else some (mkHandle j.domain k.ktype (x.gen + 1) x.idx, dropDdp x.idx (endKeyCtxs h (s.onSlot x.idx (fun y => { slotWithKey j.domain k y with changed := some (changeOf s y) }))))
  else match j.newSlot with
    | none => none
    | some i => match s.slot? i with
      | none => none
      | some x => some (mkHandle j.domain k.ktype (x.gen + 1) i, s.onSlot i (slotWithKey j.domain k))

/-! ### Ends of a run -/

/-- Output goes out over its fragments from byte `sent` on. -/
def writeFrom (sent : Nat) (j : Job) (fr : List (Nat × Nat)) (out : Bytes) (s : State) : State := scatter j (dropFrags sent fr) (out.drop sent) s

/-- Output that this execution has not written yet goes out over its fragments (R193). -/
def writeOutput (j : Job) (fr : List (Nat × Nat)) (out : Bytes) (s : State) : State := writeFrom j.sent j fr out s

/-- Streamed output goes out as far as its fragments reach, the job having consumed `taken` bytes of its input (R193, R194). -/
def streamOut (j : Job) (fr : Frags) (out : Bytes) (taken : Nat) (s : State) : State :=
  let n := min out.length fr.sum
  (writeOutput j fr.frags (out.take n) s).onJob j.id (fun j => { j with streamed := max j.streamed n, sent := max j.sent n, taken := max j.taken taken })

/-- Bytes that a job has streamed after `p` bytes of its reading: GCM_SIV_ENCRYPT reads its input twice and streams in the second pass (R360). -/
def streamedAt (j : Job) (p : Nat) : Nat := if dOp j.desc == 0x300A then p - dInLen j.desc else p

/-- The pair of clusters of a first run whose result differed from the re-execution's (R344). -/
def fencePair (j : Job) (first : Nat) (s : State) : State :=
  if j.restarted && j.excluded.length == 4 && gangOf s j.desc == 4 then
    ((j.excluded.drop (2 * (first % 2))).take 2).foldl (fun s u => fenceUnit u 3 s) s
  else s

/-- What keeps the output of a finished job from being written: a denied write or a breach of its output list. Where all output is staged, the
list is read after the job has finished and before the first write (R188); else the writes have been under way. -/
def outputStop (x : JobRun) (fr : Frags) (r : Result) : Option Status :=
  let denied := if x.denied && !(r.streamed.isEmpty && r.staged.isEmpty) then some Status.translationFault else none
  if r.streamed.isEmpty then fr.bad <|> denied else denied <|> fr.bad

/-- An ERASE of the slot that was fetched before job `j` and is not applied yet (R219). -/
def eraseBehind (s : State) (j : Job) (slot : Nat) : Bool :=
  s.jobs.any (fun x => x.id < j.id && x.phase == .running && dOp x.desc == 0x4005 && x.newSlot.isNone && hSlot (dKey x.desc) == slot)

/-- A finished job with status OK: output list, key, writes, completion; a REWRITE comes after an ERASE of its slot that was fetched before it
(R188, R192, R218, R219, R284). -/
def finishOk (j : Job) (x : JobRun) (r : Result) (s : State) : State :=
  let fr := outputOf j.desc x.outList
  let s := if dOutList j.desc then listReads j.fn (dOutRef j.desc) (entriesRead fr) s else s
  if replaces j.desc && eraseBehind s j (hSlot (gTarget j.block)) then s
  else match outputStop x fr r with
  | some st => endJob st wholeInline j.id (streamOut j fr (r.streamed.take (streamedAt j x.progress)) x.progress s)
  | none =>
    let out := r.streamed ++ r.staged
    let write := fun (inl : Bytes) (s : State) =>
      okJob j { tag := j.tag, restarted := j.restarted, bytes := out.length, inline := inl, implicit := r.implicit } (writeOutput j fr.frags out s)
    match r.key with
    | none => write r.inline s
    | some k =>
      match placeKey j k s with
      | some (h, s) => write (leBytes 8 h) s
      | none => failJob j (failEntry j .keyRetired []) s

/-- A job whose covered rounds are used up yields and waits for a further token; off the clusters its state is wrapped into the context-overflow
region (R276, R336, R366). -/
def yieldOverrun (j : Job) (input rnd : Bytes) (round : Nat) (s : State) : State :=
  let s := freeUnits j.id s
  let keep := fun (c : Cluster) => if c.resid.any (fun (r : Resid) => r.job == j.id) then saveCluster j.id c else c
  let s := { s with vcc := s.vcc.map keep }
  let s := s.onJob j.id (fun j => { j with phase := .overrun, units := if (jobPools j).contains .vcc then j.units else [], rnd := rnd, round := round, input := input })
  if enginesOf j == 0 then s else saveCtxs j (j.units.take 1) true s

/-! ### Faults while a job runs (R17, R33, R277, R344, R363, R379, R380, R414, R495) -/

/-- The unit that meets a fault of a job: a Bouquet's by its stage, a gang's by its member. -/
def faultUnit (j : Job) (i : Nat) : Nat := if dOp j.desc == 0x3801 then (stageUnit j i).getD (j.units.headD 0) else j.units.getD i (j.units.headD 0)

/-- A fault of a unit: result check or duplicate compare, with the fence that re-executes its jobs. -/
def unitFault (u cause kind : Nat) (payload : Bytes) (s : State) : State :=
  fenceUnit u cause (noteMismatch (faultEvent cause kind u payload s))

/-- A gang whose pairs disagree is not fenced: its job is re-executed on clusters that it shares none with (R344). -/
def gangMismatch (j : Job) (s : State) : State :=
  let s := noteMismatch (faultEvent 3 0x0604 (j.units.headD 0) (leBytes 2 (dOp j.desc) ++ leBytes 3 (dParam j.desc)) s)
  retryJob j.units j.id s

/-- A fault met by a running job on its unit `u`. An impossible verdict pair ends the job and then counts as a fault of its engine, which is
fenced (R379, R380; log 28). -/
def jobFault (j : Job) (f : JobFault) (u : Nat) (s : State) : State :=
  let ends := endJob .abortedFault (fun _ => unitInline j u) j.id
  match f with
  | .resultCheck =>
    if gangOf s j.desc == 4 && (jobPools j).contains .vcc then gangMismatch j s
    else unitFault u 3 0x0604 (leBytes 2 (dOp j.desc) ++ leBytes 3 (dParam j.desc)) s
  | .dupCompare at_ => unitFault u 2 0x0603 (leBytes 2 (dOp j.desc) ++ leBytes 8 at_) s
  | .tileCheck t => ends (operandTileError u t (algOf s j) ((s.vcc[u]?).map (fun (c : Cluster) => c.pc) |>.getD 0) s)
  | .verdictPair p =>
    let t := ends (faultEvent 12 0x060D u (leBytes 8 p) s)
    if poolOfUnit u == some .bce || poolOfUnit u == some .dge then fenceUnit u 12 t else t
  | .dram ch line mac => endJob .abortedFault wholeInline j.id (dramError ch line mac s)
  | .sram a w => endJob .abortedFault wholeInline j.id (faultEvent 7 0x0608 (0x700 + a) (byteOf a :: leBytes 4 w) s)

/-- A job whose result is checked before its release: MAE private-key results, signatures, key pairs, the results of gangs of four; an owner
operation's kernel may check itself (R33, R277, R279, R289, R303, R340, R344, R350, R414). -/
def hasCheck (s : State) (d : Bytes) : Bool :=
  [0x1101, 0x1103, 0x1201, 0x1203, 0x1301, 0x2001, 0x2003, 0x2101, 0x2103].contains (dOp d) || (dOp d == 0x4001 && dAlgFam d != 0) ||
    (poolOfOp d == some .vcc && (gangOf s d == 4 || (ownerOp s d).isSome))

/-- The faults that a job of these pools can meet. -/
def faultFits (s : State) (j : Job) : JobFault → Bool
  | .resultCheck => hasCheck s j.desc
  | .dupCompare _ => (jobPools j).contains .bce || (jobPools j).contains .dge
  | .tileCheck _ => (jobPools j).contains .vcc
  | _ => true

/-- The fault that a run meets, where its job can meet it. -/
def metFault (s : State) (j : Job) (x : JobRun) : Option JobFault := x.fault.bind (fun f => if faultFits s j f then some f else none)

/-- How far output may have left: before a duplicate mismatch, the whole beats of 64 bytes that matched (R363). -/
def beatLimit (f : Option JobFault) (n : Nat) : Nat := match f with | some (.dupCompare at_) => min n (at_ / 64 * 64) | _ => n

/-- The end of a run by its result, the pair of an earlier run that disagrees with it fenced first (R190 to R198, R276, R344). -/
def finishJob (j : Job) (x : JobRun) (input : Bytes) (r : Result) (s : State) : State :=
  match r.overrun with
  | some (rnd, n) => yieldOverrun j input rnd n s
  | none =>
    if r.faulty then jobFault j .resultCheck (faultUnit j x.deniedStage) s
    else if r.status == .ok then finishOk j x r (fencePair j x.progress s)
    else failJob j (failEntry j r.status (if r.status == .verifyFailed then r.inline else [])) (fencePair j x.progress s)

/-! ### The run -/

/-- The random bytes of a job: those it holds across R276, else fresh ones. -/
def jobRandom (j : Job) (n : Nat) (s : State) : Bytes × State := if j.rnd.isEmpty then drawBytes n s else (j.rnd, s)

/-- A job that a run command may run: dispatched, of its opcode, and not halted (R54, R462). -/
def runnable (s : State) (op : Nat) (x : JobRun) : Option Job :=
  match s.job? x.job with
  | some j => if dOp j.desc == op && j.phase == .running && s.dbg.halted != some j.id then some j else none
  | none => none

/-- The run of a runnable job (steps 7 to 9 of R21's journey): a failed read of strings; a part of its stream; a fault, then a failed read or a
list breach (R202), then the service's result. `want` is how many bytes of strings or AAD it reads, `grain` the unit of its streamed output. -/
def runOn (want grain : State → Job → Nat) (svc : Svc) (x : JobRun) (j : Job) (s : State) : State :=
  let (inp, bad) := if j.round > 0 then (j.input, none) else inputOf j.desc x.input x.inList
  let strs := x.strings.getD []
  let n := want s j
  if n > 0 && (x.strings.isNone || strs.length < n) then failJob j (failEntry j .translationFault []) s
  else
    let g := max 1 (grain s j)
    let twice := dOp j.desc == 0x300A
    let upto := min x.progress (if dOp j.desc == 0x4101 then dSpecLE j.desc 52 4 else if twice && inp.length ≥ dInLen j.desc then 2 * inp.length else inp.length)
    let met := metFault s j x
    let at_ := beatLimit met (streamedAt j upto) / g * g
    let text := (svc j (if twice then inp else inp.take at_) (strs.take n) s).1.streamed.take at_
    let part := streamOut j (outputOf j.desc x.outList) text upto s
    if x.more then part
    else match met with
    | some f => jobFault j f (faultUnit j x.deniedStage) part
    | none =>
      match bad with
      | some st => endJob (if x.denied && !text.isEmpty then .translationFault else st) wholeInline j.id part
      | none => let r := svc j inp (strs.take n) s; finishJob j x inp r.1 r.2

/-- The run of a job that a run command names, its stalls on the link noted (R118). -/
def runJob (op : Nat) (want grain : State → Job → Nat) (svc : Svc) (x : JobRun) (s : State) : State :=
  match runnable (noteStall x.job x.stalled s) op x with
  | none => s
  | some j => runOn want grain svc x j (noteStall x.job x.stalled s)

/-- A run of a job that streams nothing and reads no strings. -/
def runPlain (op : Nat) (svc : Job → Bytes → State → Result × State) (x : JobRun) (s : State) : State :=
  runJob op (fun _ _ => 0) (fun _ _ => 1) (fun j i _ s => svc j i s) x s

end Sys2Proof.Machine
end

