-- ==== Sys2Proof/Machine/LatticeJobs.lean ====
section
/-!
DEFINITION. The jobs of ML-KEM, ML-DSA and SLH-DSA (R263 to R277, R286 to R289), and their key generation with its pairwise test (R279,
R289).
-/
namespace Sys2Proof.Machine

/-! ### ML-KEM (R265 to R268) -/

/-- ENCAPS to the ek of the input, or to the one embedded in the slot's dk (R265, R267). -/
def svcMlKemEncaps (j : Job) (inp : Bytes) (s : State) : Result × State :=
  let set := dParam j.desc
  let ek := if hType (dKey j.desc) == 0 then inp else mlKemEkOf set (keyBytes s j (dKey j.desc))
  let m := drawBytes 32 s
  if mlKemEkOk set ek then
    let r := mlKemEncaps set ek m.1
    ({ staged := r.2 ++ r.1 }, m.2)
  else (rejected, m.2)

/-- DECAPS: the shared secret, or the implicit-rejection key (R266, R267). -/
def svcMlKemDecaps (j : Job) (inp : Bytes) (s : State) : Result × State :=
  let set := dParam j.desc
  let dk := keyBytes s j (dKey j.desc)
  if mlKemDkOk set dk then
    let r := mlKemDecaps set dk inp
    ({ staged := r.1, implicit := r.2 }, s)
  else (rejected, s)

/-- 0x1001 ENCAPS. -/
def execMlKemEncaps (x : JobRun) (s : State) : Host.Outcome State Fault Refusal := .next (runPlain 0x1001 svcMlKemEncaps x s)

/-- 0x1002 DECAPS. -/
def execMlKemDecaps (x : JobRun) (s : State) : Host.Outcome State Fault Refusal := .next (runPlain 0x1002 svcMlKemDecaps x s)

/-! ### ML-DSA (R270 to R277) -/

/-- M' of the pure and the pre-hash forms (R272, R287). -/
def dsaMsg (j : Job) (hashed : Bool) (m : Bytes) : Bytes :=
  let b := j.block
  if hashed then hashMsg (mCtx b) (mPh b) (if flag9 j.desc then m else preHashOf (mPh b) m) else pureMsg (mCtx b) m

/-- The candidates that one token's rounds cover (R275, R276). -/
def signCandidates : Nat := 48

/-- The signature of a representative: 12 rounds, the check before release, or a further token (R275 to R277). -/
def signMu (set : Nat) (sk mu rnd keep : Bytes) (done : Nat) : Result :=
  match mlDsaSignMu set sk mu rnd signCandidates done with
  | some (_, sig) => { staged := sig, faulty := !(mlDsaVerifyMu set (mlDsaPkOf set sk) sig mu) }
  | none => { overrun := some (keep, done + signCandidates) }

/-- SIGN and HASH_SIGN (R272): rnd is drawn once and held across R276. -/
def svcMlDsaSign (hashed : Bool) (j : Job) (inp : Bytes) (s : State) : Result × State :=
  let set := dParam j.desc
  let sk := keyBytes s j (dKey j.desc)
  let r := if mDet j.block then (zeros 32, s) else jobRandom j 32 s
  let mu := if !hashed && flag8 j.desc then inp else mlDsaMu (sliceOf sk 64 64) (dsaMsg j hashed inp)
  (signMu set sk mu r.1 r.1 j.round, r.2)

/-- VERIFY and HASH_VERIFY (R272, R273). -/
def svcMlDsaVerify (hashed : Bool) (j : Job) (inp : Bytes) (s : State) : Result × State :=
  let set := dParam j.desc
  match mlDsaSizes set with
  | none => (verdict false, s)
  | some (pk, _, sg) =>
    let p := inp.take pk
    let sig := sliceOf inp pk sg
    let m := inp.drop (pk + sg)
    (verdict (if !hashed && flag8 j.desc then mlDsaVerifyMu set p sig m else mlDsaVerify set p sig (dsaMsg j hashed m)), s)

/-- 0x1101 SIGN. -/
def execMlDsaSign (x : JobRun) (s : State) : Host.Outcome State Fault Refusal := .next (runPlain 0x1101 (svcMlDsaSign false) x s)

/-- 0x1102 VERIFY. -/
def execMlDsaVerify (x : JobRun) (s : State) : Host.Outcome State Fault Refusal := .next (runPlain 0x1102 (svcMlDsaVerify false) x s)

/-- 0x1103 HASH_SIGN. -/
def execMlDsaHashSign (x : JobRun) (s : State) : Host.Outcome State Fault Refusal := .next (runPlain 0x1103 (svcMlDsaSign true) x s)

/-- 0x1104 HASH_VERIFY. -/
def execMlDsaHashVerify (x : JobRun) (s : State) : Host.Outcome State Fault Refusal := .next (runPlain 0x1104 (svcMlDsaVerify true) x s)

/-! ### SLH-DSA (R286 to R289) -/

/-- n of a set: PK.seed is the third part of sk. -/
def slhN (ps : Nat) : Nat := match slhSizes ps with | some (pk, _, _) => pk / 2 | none => 0

/-- SIGN and HASH_SIGN (R287, R289). -/
def svcSlhDsaSign (hashed : Bool) (j : Job) (inp : Bytes) (s : State) : Result × State :=
  let ps := dParam j.desc
  let n := slhN ps
  let sk := keyBytes s j (dKey j.desc)
  let o := if mDet j.block then (sliceOf sk (2 * n) n, s) else drawBytes n s
  let m := dsaMsg j hashed inp
  let sig := slhSign ps sk m o.1
  ({ staged := sig, faulty := !(slhVerify ps (sk.drop (2 * n)) sig m) }, o.2)

/-- VERIFY and HASH_VERIFY (R287, R288). -/
def svcSlhDsaVerify (hashed : Bool) (j : Job) (inp : Bytes) (s : State) : Result × State :=
  match slhSizes (dParam j.desc) with
  | none => (verdict false, s)
  | some (pk, _, sg) => (verdict (slhVerify (dParam j.desc) (inp.take pk) (sliceOf inp pk sg) (dsaMsg j hashed (inp.drop (pk + sg)))), s)

/-- 0x1201 SIGN. -/
def execSlhDsaSign (x : JobRun) (s : State) : Host.Outcome State Fault Refusal := .next (runPlain 0x1201 (svcSlhDsaSign false) x s)

/-- 0x1202 VERIFY. -/
def execSlhDsaVerify (x : JobRun) (s : State) : Host.Outcome State Fault Refusal := .next (runPlain 0x1202 (svcSlhDsaVerify false) x s)

/-- 0x1203 HASH_SIGN. -/
def execSlhDsaHashSign (x : JobRun) (s : State) : Host.Outcome State Fault Refusal := .next (runPlain 0x1203 (svcSlhDsaSign true) x s)

/-- 0x1204 HASH_VERIFY. -/
def execSlhDsaHashVerify (x : JobRun) (s : State) : Host.Outcome State Fault Refusal := .next (runPlain 0x1204 (svcSlhDsaVerify true) x s)

/-! ### Key pairs (R279, R289) -/

/-- A key pair as a KEYGEN goes on with it, or what ends its run. -/
structure NewPair where
  pk : Bytes := []
  sk : Bytes := []
  stop : Option Result := none

/-- ML-KEM: d and z, and the encapsulation to the new key (R279). -/
def pairMlKem (set : Nat) (s : State) : NewPair × State :=
  let r := drawBytes 96 s
  let k := mlKemKeyGen set (r.1.take 32) (sliceOf r.1 32 32)
  let e := mlKemEncaps set k.1 (r.1.drop 64)
  let d := mlKemDecaps set k.2 e.2
  ({ pk := k.1, sk := k.2, stop := if d.1 == e.1 then none else some { faulty := true } }, r.2)

/-- ML-DSA: the seed, and a deterministic signature of the fixed message under R276 (R279). -/
def pairMlDsa (j : Job) (set : Nat) (s : State) : NewPair × State :=
  let r := jobRandom j 32 s
  let k := mlDsaKeyGen set r.1
  let mu := mlDsaMu (sliceOf k.2 64 64) (pureMsg [] Config.pairwiseMessage)
  let t := signMu set k.2 mu (zeros 32) r.1 j.round
  ({ pk := k.1, sk := k.2, stop := if t.overrun.isSome || t.faulty then some { t with staged := [] } else none }, r.2)

/-- SLH-DSA: three seeds, and a deterministic signature of the fixed message (R289). -/
def pairSlhDsa (ps : Nat) (s : State) : NewPair × State :=
  let n := slhN ps
  let r := drawBytes (3 * n) s
  let k := slhKeyGen ps (r.1.take n) (sliceOf r.1 n n) (r.1.drop (2 * n))
  let m := pureMsg [] Config.pairwiseMessage
  let sig := slhSign ps k.2 m (r.1.drop (2 * n))
  ({ pk := k.1, sk := k.2, stop := if slhVerify ps k.1 sig m then none else some { faulty := true } }, r.2)

end Sys2Proof.Machine
end

