-- ==== Sys2Proof/Machine/AttestJobs.lean ====
section
/-!
DEFINITION. The attestation forms as jobs (R238 to R240).
-/
namespace Sys2Proof.Machine

/-- CHALLENGE: the statement and its tag (R240). -/
def svcChallenge (j : Job) (inp : Bytes) (s : State) : Result × State :=
  match attestSecret s with
  | some k => ({ staged := challengeOut s j.fn (dSpec j.desc 52) inp k }, s)
  | none => ({ status := .keyNotFound }, s)

/-- M' of a quote: the statement under its context string (R240). -/
def quoteMu (s : State) (m : Bytes) : Bytes := mlDsaMu (sliceOf (idMlDsa s).2 64 64) (pureMsg (ascii "YQ9-QUOTE") m)

/-- QUOTE: the statement and its hedged ML-DSA-87 signature; the statement stays as it was formed across further rounds (R240, R276). -/
def svcQuote (j : Job) (inp : Bytes) (s : State) : Result × State :=
  let r := if j.rnd.isEmpty then drawBytes 32 s else (j.rnd.take 32, s)
  let m := if j.rnd.isEmpty then statement s j.fn 2 (dSpec j.desc 52) inp else j.rnd.drop 32
  let t := signMu 3 (idMlDsa s).2 (quoteMu s m) r.1 (r.1 ++ m) j.round
  (if t.overrun.isSome then t else { t with staged := m ++ t.staged }, r.2)

/-- IDENTITY: the three identity public keys (R238). -/
def svcIdentity (_ : Job) (_ : Bytes) (s : State) : Result × State := ({ staged := identityKeys s }, s)

end Sys2Proof.Machine
end

