-- ==== Sys2Proof/Machine/ClassicalJobs.lean ====
section
/-!
DEFINITION. The jobs of RSA, the P-curves, X25519, X448, Ed25519 and Ed448, the raw modular commands and owner MAE programs (R329 to R350).
-/
namespace Sys2Proof.Machine

/-! ### RSA (R330 to R336) -/

/-- The encoded message of a signature (R333); `bits` is the bit length of n. -/
def rsaEncode (b digest salt : Bytes) (w bits : Nat) : Nat :=
  if rPad b == 1 then beNat (emsaPkcs1 (rHash b) digest (8 * w)) else beNat (emsaPss (rHash b) digest salt bits)

/-- SIGN, checked with e before release (R332, R333, R335). -/
def svcRsaSign (j : Job) (inp : Bytes) (s : State) : Result × State :=
  let w := dParam j.desc
  let k := rsaSkOf w (keyBytes s j (dKey j.desc))
  let salt := drawBytes (rSalt j.block) s
  let m := rsaEncode j.block inp salt.1 w (bitLen k.n)
  let sig := rsaCrt k m
  ({ staged := beBytes (8 * w) sig, faulty := modPow sig k.e k.n != m }, salt.2)

/-- VERIFY (R332 to R334). -/
def svcRsaVerify (j : Job) (inp : Bytes) (s : State) : Result × State :=
  let w := dParam j.desc
  let b := j.block
  let n := beNat (inp.take (8 * w))
  let e := beNat (sliceOf inp (8 * w) 4)
  let sig := beNat (sliceOf inp (8 * w + 4) (8 * w))
  let digest := inp.drop (16 * w + 4)
  if !(rsaPubOk w n e) || sig ≥ n then (rejected, s)
  else
    let m := modPow sig e n
    let emLen := ceilDiv (bitLen n - 1) 8
    (verdict (if rPad b == 1 then m == beNat (emsaPkcs1 (rHash b) digest (8 * w))
      else decide (m < 256 ^ emLen) && pssVerify (rHash b) digest (beBytes emLen m) (rSalt b) (bitLen n)), s)

/-- DECRYPT, re-encrypted before release (R332, R334, R335). -/
def svcRsaDecrypt (j : Job) (inp : Bytes) (s : State) : Result × State :=
  let w := dParam j.desc
  let k := rsaSkOf w (keyBytes s j (dKey j.desc))
  let c := beNat inp
  if c ≥ k.n then (rejected, s)
  else
    let m := rsaCrt k c
    if modPow m k.e k.n != c then ({ faulty := true }, s)
    else match oaepDecode (rHash j.block) (rLabel j.block) (beBytes (8 * w) m) with
    | some t => ({ staged := t }, s)
    | none => (rejected, s)

/-- ENCRYPT (R332 to R334). -/
def svcRsaEncrypt (j : Job) (inp : Bytes) (s : State) : Result × State :=
  let w := dParam j.desc
  let n := beNat (inp.take (8 * w))
  let e := beNat (sliceOf inp (8 * w) 4)
  let seed := drawBytes (phLen (rHash j.block)) s
  if !(rsaPubOk w n e) then (rejected, seed.2)
  else
    let em := oaepEncode (rHash j.block) (rLabel j.block) (inp.drop (8 * w + 4)) seed.1 (8 * w)
    ({ staged := beBytes (8 * w) (modPow (beNat em) e n) }, seed.2)

/-- 0x2001 SIGN. -/
def execRsaSign (x : JobRun) (s : State) : Host.Outcome State Fault Refusal := .next (runPlain 0x2001 svcRsaSign x s)

/-- 0x2002 VERIFY. -/
def execRsaVerify (x : JobRun) (s : State) : Host.Outcome State Fault Refusal := .next (runPlain 0x2002 svcRsaVerify x s)

/-- 0x2003 DECRYPT. -/
def execRsaDecrypt (x : JobRun) (s : State) : Host.Outcome State Fault Refusal := .next (runPlain 0x2003 svcRsaDecrypt x s)

/-- 0x2004 ENCRYPT. -/
def execRsaEncrypt (x : JobRun) (s : State) : Host.Outcome State Fault Refusal := .next (runPlain 0x2004 svcRsaEncrypt x s)

/-- One Miller-Rabin round of `n` to the base `a`. -/
def millerRabin (n a : Nat) : Bool :=
  let tz := trailingZeros (bitLen n) (n - 1)
  let y := modPow a ((n - 1) / 2 ^ tz) n
  y == 1 || ((List.range tz).foldl (fun (acc : Bool × Nat) _ => (acc.1 || acc.2 == n - 1, acc.2 * acc.2 % n)) (false, y)).1

/-- `r` Miller-Rabin rounds with drawn bases. -/
def probablyPrime (n : Nat) : Nat → State → Bool × State
  | 0, s => (true, s)
  | r + 1, s =>
    let a := drawNat (n - 3) s
    if millerRabin n (a.1 + 2) then probablyPrime n r a.2 else (false, a.2)

/-- The Miller-Rabin rounds for primes of an RSA key of `w` words (FIPS 186-5, Table B.1). -/
def mrRounds (w : Nat) : Nat := if w == 32 then 5 else 4

/-- The least candidate of `b` bits: the square root of 2 times 2^(b-1), rounded up (FIPS 186-5, A.1.3). -/
def primeFloor (b : Nat) : Nat := Nat.sqrt (2 ^ (2 * b - 1)) + 1

/-- The first prime among `n` candidates of `b` bits (R336): odd, in range, far from `p`, with p - 1 prime to e. -/
def primeSearch (w b p : Nat) : Nat → State → Option Nat × State
  | 0, s => (none, s)
  | n + 1, s =>
    let lo := primeFloor b
    let c := drawNat (2 ^ b - lo) s
    let x := (lo + c.1) / 2 * 2 + 1
    if x < lo || (x - 1) % 65537 == 0 || (p != 0 && (if x < p then p - x else x - p) ≤ 2 ^ (b - 100)) then primeSearch w b p n c.2
    else
      let t := probablyPrime x (mrRounds w) c.2
      if t.1 then (some x, t.2) else primeSearch w b p n t.2

/-- An RSA key pair: 1,024 candidates a prime for a token, the primes found kept across R276, then a signature that verifies (R336). -/
def pairRsa (j : Job) (w : Nat) (s : State) : NewPair × State :=
  let b := 32 * w
  let p := if j.rnd.isEmpty then primeSearch w b 0 1024 s else (some (beNat j.rnd), s)
  match p.1 with
  | none => ({ stop := some { overrun := some ([], j.round + 1024) } }, p.2)
  | some p1 =>
    let q := primeSearch w b p1 1024 p.2
    match q.1 with
    | none => ({ stop := some { overrun := some (beBytes (b / 8) p1, j.round + 1024) } }, q.2)
    | some q1 =>
      let m := rsaMaterial w (max p1 q1) (min p1 q1)
      let k := rsaSkOf w m
      let em := beNat (emsaPkcs1 1 (sliceZ Config.pairwiseMessage 0 32) (8 * w))
      ({ pk := m.take (8 * w + 4), sk := m, stop := if modPow (rsaCrt k em) k.e k.n == em then none else some { faulty := true } }, q.2)

/-! ### P-curves (R337 to R340) -/

/-- A signature with a fresh nonce, drawn again while r or s is 0 (FIPS 186-5, 6.4.1). -/
def ecdsaDraw (c : PCurve) (d : Nat) (digest : Bytes) : Nat → State → Bytes × State
  | 0, s => (zeros (2 * c.f), s)
  | n + 1, s =>
    let r := drawBytes (ecScalarLen c) s
    let sig := ecdsaSign c d (ecScalar c (ecScalarBits c r.1)) digest
    if beNat (sig.take c.f) == 0 || beNat (sig.drop c.f) == 0 then ecdsaDraw c d digest n r.2 else (sig, r.2)

/-- A signature that its public point verifies (R340). -/
def ecdsaGood (c : PCurve) (q sig digest : Bytes) : Bool :=
  match pDecode c q with
  | some q => ecdsaVerify c q (beNat (sig.take c.f)) (beNat (sig.drop c.f)) digest
  | none => false

/-- SIGN (R338, R340). -/
def svcEcdsaSign (j : Job) (inp : Bytes) (s : State) : Result × State :=
  match pCurve (dParam j.desc) with
  | none => (rejected, s)
  | some c =>
    let k := keyBytes s j (dKey j.desc)
    let r := ecdsaDraw c (beNat (k.take c.f)) inp 8 s
    ({ staged := r.1, faulty := !(ecdsaGood c (k.drop c.f) r.1 inp) }, r.2)

/-- VERIFY (R338, R339). -/
def svcEcdsaVerify (j : Job) (inp : Bytes) (s : State) : Result × State :=
  match pCurve (dParam j.desc) with
  | none => (rejected, s)
  | some c =>
    let ql := 2 * c.f + 1
    let r := beNat (sliceOf inp ql c.f)
    let t := beNat (sliceOf inp (ql + c.f) c.f)
    match pDecode c (inp.take ql) with
    | none => (rejected, s)
    | some q =>
      if r == 0 || t == 0 || r ≥ c.n || t ≥ c.n then (rejected, s)
      else (verdict (ecdsaVerify c q r t (inp.drop (ql + 2 * c.f))), s)

/-- A shared secret goes to the host, or with TO_SLOT into a new SECRET slot (R338, R342). -/
def agreed (j : Job) (z : Bytes) (s : State) : Result × State :=
  if flag8 j.desc then
    let i := drawKeyId s
    ({ key := some { ktype := 0x03, policy := BitVec.ofNat 32 (dNewPolicy j.desc), keyId := i.1, material := z } }, i.2)
  else ({ staged := z }, s)

/-- ECDH (R338 to R340). -/
def svcEcdh (j : Job) (inp : Bytes) (s : State) : Result × State :=
  match pCurve (dParam j.desc) with
  | none => (rejected, s)
  | some c =>
    match pDecode c inp with
    | none => (rejected, s)
    | some q =>
      match pMul c (beNat ((keyBytes s j (dKey j.desc)).take c.f)) (some q) with
      | none => ({ faulty := true }, s)
      | some z => if pOnCurve c z.1 z.2 then agreed j (beBytes c.f z.1) s else ({ faulty := true }, s)

/-- 0x2101 SIGN. -/
def execEcdsaSign (x : JobRun) (s : State) : Host.Outcome State Fault Refusal := .next (runPlain 0x2101 svcEcdsaSign x s)

/-- 0x2102 VERIFY. -/
def execEcdsaVerify (x : JobRun) (s : State) : Host.Outcome State Fault Refusal := .next (runPlain 0x2102 svcEcdsaVerify x s)

/-- 0x2103 ECDH. -/
def execEcdh (x : JobRun) (s : State) : Host.Outcome State Fault Refusal := .next (runPlain 0x2103 svcEcdh x s)

/-- An ECC key pair with its sign-and-verify test (R340). -/
def pairEc (ps : Nat) (s : State) : NewPair × State :=
  match pCurve ps with
  | none => ({ stop := some rejected }, s)
  | some c =>
    let r := drawBytes (ecScalarLen c) s
    let d := ecScalar c (ecScalarBits c r.1)
    let q := pEncode c (pMul c d (pBase c))
    let m := sliceZ Config.pairwiseMessage 0 32
    let t := ecdsaDraw c d m 8 r.2
    ({ pk := q, sk := beBytes c.f d ++ q, stop := if ecdsaGood c q t.1 m then none else some { faulty := true } }, t.2)

/-! ### X25519, X448, Ed25519 and Ed448 (R341 to R344) -/

/-- AGREE (R342, R343). -/
def svcAgree (j : Job) (inp : Bytes) (s : State) : Result × State :=
  let k := keyBytes s j (dKey j.desc)
  let z := if dParam j.desc == 1 then x25519 (k.take 32) inp else x448 (k.take 56) inp
  if allZero z then (rejected, s) else agreed j z s

/-- SIGN (R342). -/
def svcEdSign (j : Job) (inp : Bytes) (s : State) : Result × State :=
  let big := dParam j.desc == 4
  let n := if big then 57 else 32
  let k := keyBytes s j (dKey j.desc)
  ({ staged := edSign big (k.take n) (k.drop n) (mCtx j.block) inp }, s)

/-- VERIFY by the cofactored equation (R342, R343). -/
def svcEdVerify (j : Job) (inp : Bytes) (s : State) : Result × State :=
  let big := dParam j.desc == 4
  let n := if big then 57 else 32
  match edVerify big (inp.take n) (sliceOf inp n (2 * n)) (mCtx j.block) (inp.drop (3 * n)) with
  | some ok => (verdict ok, s)
  | none => (rejected, s)

/-- 0x2201 AGREE. -/
def execAgree (x : JobRun) (s : State) : Host.Outcome State Fault Refusal := .next (runPlain 0x2201 svcAgree x s)

/-- 0x2202 SIGN. -/
def execEdSign (x : JobRun) (s : State) : Host.Outcome State Fault Refusal := .next (runPlain 0x2202 svcEdSign x s)

/-- 0x2203 VERIFY. -/
def execEdVerify (x : JobRun) (s : State) : Host.Outcome State Fault Refusal := .next (runPlain 0x2203 svcEdVerify x s)

/-- A key pair of family 0x22 (R341, R342): scalar and u, or seed and A. -/
def pairEd (ps : Nat) (s : State) : NewPair × State :=
  let n := match ps with | 1 => 32 | 2 => 56 | 3 => 32 | _ => 57
  let r := drawBytes n s
  let pk := match ps with
    | 1 => x25519 r.1 (9 :: zeros 31)
    | 2 => x448 r.1 (5 :: zeros 55)
    | 3 => edPublic false r.1
    | _ => edPublic true r.1
  ({ pk := pk, sk := r.1 ++ pk }, r.2)

/-! ### Raw modular commands (R346 to R350) -/

/-- A command on operands below the modulus: its result, or none where it fails validation (R346, R347). -/
def maeResult (op w a b m : Nat) : Option Nat :=
  let odd := m % 2 == 1
  if m ≤ 1 || a ≥ m || ((op == 1 || op == 2 || op == 3) && b ≥ m) || (op ≥ 3 && !odd) then none
  else match op with
    | 1 => some ((a + b) % m)
    | 2 => some (modSub a b m)
    | 3 => some (a * b % m)
    | 4 => some (a * a % m)
    | 5 => modInv? a m
    | _ => some (modPow a (b % 2 ^ (64 * w)) m)

/-- A single-command job: M, A and B, big-endian (R348). -/
def svcRaw (op : Nat) (j : Job) (inp : Bytes) (s : State) : Result × State :=
  let w := dParam j.desc
  let f := fun (i : Nat) => beNat (sliceOf inp (8 * w * i) (8 * w))
  match maeResult op w (f 1) (f 2) (f 0) with
  | some r => ({ staged := beBytes (8 * w) r }, s)
  | none => (rejected, s)

/-- 0x2301 ADD. -/
def execRawAdd (x : JobRun) (s : State) : Host.Outcome State Fault Refusal := .next (runPlain 0x2301 (svcRaw 1) x s)

/-- 0x2302 SUB. -/
def execRawSub (x : JobRun) (s : State) : Host.Outcome State Fault Refusal := .next (runPlain 0x2302 (svcRaw 2) x s)

/-- 0x2303 MUL. -/
def execRawMul (x : JobRun) (s : State) : Host.Outcome State Fault Refusal := .next (runPlain 0x2303 (svcRaw 3) x s)

/-- 0x2304 SQR. -/
def execRawSqr (x : JobRun) (s : State) : Host.Outcome State Fault Refusal := .next (runPlain 0x2304 (svcRaw 4) x s)

/-- 0x2305 INV. -/
def execRawInv (x : JobRun) (s : State) : Host.Outcome State Fault Refusal := .next (runPlain 0x2305 (svcRaw 5) x s)

/-- 0x2306 EXP. -/
def execRawExp (x : JobRun) (s : State) : Host.Outcome State Fault Refusal := .next (runPlain 0x2306 (svcRaw 6) x s)

/-- One command word of a program; after END nothing runs; a failing command leaves no result (R346, R347). -/
def maeCommand (m : MaeMem) (word : Nat) : MaeMem :=
  let op := bitsOf word 56 8
  let w := bitsOf word 48 8 + 1
  let reg := fun (lo : Nat) => maeReg m (bitsOf word lo 7) % 2 ^ (64 * w)
  if m.ended then m
  else if op == 0 then { m with ended := true }
  else match maeResult op w (reg 32) (reg 24) (reg 16) with
    | some r => maeSet m (bitsOf word 40 7) w r
    | none => { m with rejected := true }

/-- A program on a private memory with its operands loaded by the operand map; one that ran to END word by word has run (R349, R427). -/
def maeRun (k : KernelPkg) (key inp : Bytes) (m : MaeMem) : MaeMem := if m.ended then m else k.code.foldl maeCommand (maeLoad k key inp m)

/-- RUN: the registers that the operand map returns, in map order (R348, R349). -/
def svcRun (j : Job) (inp : Bytes) (s : State) : Result × State :=
  match runProgram s j.desc with
  | none => (rejected, s)
  | some k =>
    let e := j.units.headD 0x300 - 0x300
    let m := maeRun k (keyBytes s j (dKey j.desc)) inp (s.mae.getD e {})
    let s := { s with mae := modAt s.mae e (fun _ => m) }
    if m.rejected then (rejected, s)
    else ({ staged := (k.map.filter (fun x => x.1 == 3)).flatMap (fun x => beBytes (8 * x.2.2.1) (maeReg m x.2.1)) }, s)

/-- 0x2310 RUN. -/
def execRun (x : JobRun) (s : State) : Host.Outcome State Fault Refusal := .next (runPlain 0x2310 svcRun x s)

end Sys2Proof.Machine
end

