-- ==== Sys2Proof/Machine/AdminKeys.lean ====
section
/-!
DEFINITION. KEY_ADMIN and the admin form of ATTEST (R230, R231, R238 to R240).
-/
namespace Sys2Proof.Machine

/-! ### KEY_ADMIN (R230, R231) -/

def aHandle (e : Bytes) : Nat := fieldLE e 32 8
def aForce (e : Bytes) : Bool := byteAt e 25 % 2 == 1

/-- The sub-operation's own reserved bytes: FORCE only for the erasures, a domain in two bytes, no operand for ANCHOR_INFO. -/
def keySubReserved (e : Bytes) : Bool :=
  let sub := byteAt e 24
  (if sub == 3 || sub == 4 then byteAt e 25 > 1 else byteAt e 25 != 0) || ((sub == 2 || sub == 4) && !(allZero (sliceOf e 34 6))) ||
    (sub == 5 && !(allZero (sliceOf e 32 8)))

/-- What every sub-operation checks first: PF0 only, reserved bytes, the instance's own domain. -/
def keyGate (s : State) (a : AdminIn) (e : Bytes) (pf0Only : Bool) (dom : Nat) (k : Unit → AdminRes) : AdminRes :=
  aChecks
    [(pf0Only && a.fn != .pf0, aBad 0x59), (keySubReserved e, aBad 0x02),
     (match domainOf s a.fn with | some d => d != dom | none => false, aFail .keyDomain 0x5A)] k

/-- The slot that a handle points at, where it holds a key of the handle's domain. -/
def infoSlot (s : State) (h : Nat) : Option Slot :=
  if hType h == 1 || hType h == 0x23 then none
  else (s.slot? (hSlot h)).bind (fun x => if x.st == .free || x.ktype == 0 || x.domain != hDomain h then none else some x)

/-- STATE of a SLOT_INFO record. -/
def slotCode : SlotSt → Nat
  | .free => 0
  | .occupied => 1
  | .retiring => 2

/-- The SLOT_INFO record (R230). -/
def slotRecord (s : State) (x : Slot) : Bytes :=
  leBytes 8 (mkHandle x.domain x.ktype x.gen x.idx) ++ [byteOf (slotCode x.st), 0, 0] ++ leBytes 3 x.param ++ leBytes 4 x.policy.toNat ++
    leBytes 8 x.keyId ++ leBytes 4 (slotRefs s x) ++ leBytes 2 x.copies.length

/-- SLOT_INFO. -/
def adminSlotInfo (e : Bytes) (a : AdminIn) (s : State) : AdminRes :=
  keyGate s a e false (hDomain (aHandle e)) (fun _ =>
    match infoSlot s (aHandle e) with
    | none => aFail .keyNotFound 0x58
    | some x => toBuf a e (slotRecord s x) (fun s => .ok 32 [] s) s)

/-- The DOMAIN_INFO record (R230). -/
def domainRecord (s : State) (d : Nat) : Bytes :=
  let masters := ((anchored s).map (fun t => ((t.masters.filter (fun m => m.domain == d)).map (fun m => 2 ^ m.index)).foldl Nat.lor 0)).getD 0
  leBytes 4 (slotsUsed s d) ++ leBytes 4 (slotQuota s d) ++ leBytes 4 (domainSqs s d) ++ leBytes 4 (queueQuota s d) ++
    leBytes 4 (s.jobs.filter (fun (j : Job) => j.domain == d && j.inPlace)).length ++ leBytes 4 (inflightQuota s d) ++
    leBytes 4 (domainPolicy s d).toNat ++ leBytes 4 masters

/-- DOMAIN_INFO. -/
def adminDomainInfo (e : Bytes) (a : AdminIn) (s : State) : AdminRes :=
  let d := fieldLE e 32 2
  keyGate s a e false d (fun _ => toBuf a e (domainRecord s d) (fun s => .ok 32 [] s) s)

/-- The detail of an erasure that fails (R231). -/
def eraseDetail : Status → Nat
  | .keyDomain => 0x5A
  | _ => 0x58

/-- KEY_ADMIN ERASE: as the ERASE job, completing after zeroization (R218, R231). -/
def adminErase (e : Bytes) (a : AdminIn) (s : State) : AdminRes :=
  let h := aHandle e
  keyGate s a e false (hDomain h) (fun _ =>
    match eraseStatus s (hDomain h) h with
    | some st => aFail st (eraseDetail st)
    | none =>
      let r := eraseSlot (aForce e) (hSlot h) s
      if r.2.1 then .ok 0 (leBytes 4 r.1) r.2.2 else .wait { kind := .eraseSlot, arg := hSlot h, count := r.1 } r.2.2)

/-- ERASE_DOMAIN: every slot of the domain that holds a key (R230, R231). -/
def adminEraseDomain (e : Bytes) (a : AdminIn) (s : State) : AdminRes :=
  let d := fieldLE e 32 2
  keyGate s a e true d (fun _ =>
    let ids := (s.slots.filter (fun x => x.st != .free && x.ktype != 0 && x.domain == d)).map (fun x => x.idx)
    let r := ids.foldl (fun (p : Nat × State) i => let q := eraseSlot (aForce e) i p.2; (p.1 + q.1, q.2.2)) (0, s)
    if r.2.slots.any (fun x => x.domain == d && x.st == .retiring) then .wait { kind := .eraseDomain, arg := d, count := r.1 } r.2
    else .ok 0 (leBytes 4 r.1) r.2)

/-- The ANCHOR_INFO record (R230). -/
def anchorRecord (s : State) : Bytes :=
  let t := (anchored s).getD {}
  leBytes 8 (counterNow s) ++ leBytes 4 s.sc.floor ++ [byteOf s.sc.custodyBank.length, byteOf (bitAt (s.sc.rootDigest.isSome && !s.sc.rootBlown) 0),
    byteOf ((t.authorities.map (fun k => 2 ^ k.index)).foldl Nat.lor 0), 0] ++
    leBytes 2 ((t.kernelKeys.map (fun k => 2 ^ k.1)).foldl Nat.lor 0) ++ [byteOf (bitAt t.attest.isSome 0)] ++ zeros 13

/-- ANCHOR_INFO. -/
def adminAnchorInfo (e : Bytes) (a : AdminIn) (s : State) : AdminRes :=
  keyGate s a e true 0 (fun _ => toBuf a e (anchorRecord s) (fun s => .ok 32 [] s) s)

/-- SLOT_INFO (R230). -/
def execSlotInfo (a : AdminIn) (s : State) : Host.Outcome State Fault Refusal := .next (adminRun 0x0A01 adminSlotInfo a s)
/-- DOMAIN_INFO (R230). -/
def execDomainInfo (a : AdminIn) (s : State) : Host.Outcome State Fault Refusal := .next (adminRun 0x0A02 adminDomainInfo a s)
/-- KEY_ADMIN ERASE (R231). -/
def execKeyAdminErase (a : AdminIn) (s : State) : Host.Outcome State Fault Refusal := .next (adminRun 0x0A03 adminErase a s)
/-- ERASE_DOMAIN (R230). -/
def execEraseDomain (a : AdminIn) (s : State) : Host.Outcome State Fault Refusal := .next (adminRun 0x0A04 adminEraseDomain a s)
/-- ANCHOR_INFO (R230). -/
def execAnchorInfo (a : AdminIn) (s : State) : Host.Outcome State Fault Refusal := .next (adminRun 0x0A05 adminAnchorInfo a s)

/-! ### ATTEST (R238 to R240) -/

def aScope (e : Bytes) : Nat := byteAt e 25
def aHybrid (e : Bytes) : Bool := byteAt e 26 % 2 == 1

/-- The fields of ATTEST: SCOPE 0 or 1 and the device's only from PF0 (0x5B); HYBRID only for a quote; the nonce in BUF. -/
def attestGate (e : Bytes) (a : AdminIn) (k : Bytes → AdminRes) : AdminRes :=
  let form := byteAt e 24
  aChecks
    [(aScope e > 1 || byteAt e 26 > 1 || (aHybrid e && form != 2), aBad 0x02), (aScope e == 1 && a.fn != .pf0, aBad 0x5B),
     (form != 3 && (aBufLen e < 32 || (fromBuf a 32).isNone), if aBufLen e < 32 then .fail .outputTooSmall 0x30 32 else aFail .translationFault 0x31)]
    (fun _ => k ((fromBuf a 32).getD []))

/-- CHALLENGE by admin command. -/
def adminChallenge (e : Bytes) (a : AdminIn) (s : State) : AdminRes :=
  attestGate e a (fun nonce =>
    match attestSecret s with
    | none => aFail .keyNotFound 0x5C
    | some k => let m := challengeOut s a.fn (aScope e) nonce k; toBuf a e m (fun s => .ok m.length (leBytes 4 m.length) s) s)

/-- The first hedged ML-DSA-87 signature that a run of candidates gives, over further tokens (R240, R275). -/
def quoteSig (s : State) (mu rnd : Bytes) : Nat → Nat → Bytes
  | 0, _ => []
  | n + 1, done =>
    match mlDsaSignMu 3 (idMlDsa s).2 mu rnd signCandidates done with
    | some (_, g) => g
    | none => quoteSig s mu rnd n (done + signCandidates)

/-- The quote's signatures over a statement: ML-DSA-87, and ECDSA P-384 when hybrid (R240). -/
def quoteSigs (hybrid : Bool) (m : Bytes) (s : State) : Bytes × State :=
  let r := drawBytes 32 s
  let g := quoteSig s (quoteMu s m) r.1 64 0
  match hybrid, pCurve 2 with
  | true, some c => let t := ecdsaDraw c (idP384 s).1 (sha384 m) 8 r.2; (g ++ t.1, t.2)
  | _, _ => (g, r.2)

/-- QUOTE by admin command, made by the SC. -/
def adminQuote (e : Bytes) (a : AdminIn) (s : State) : AdminRes :=
  attestGate e a (fun nonce =>
    let m := statement s a.fn 2 (aScope e) nonce
    let need := m.length + 4627 + (if aHybrid e then 96 else 0)
    if aBufLen e < need then .fail .outputTooSmall 0x30 need
    else let g := quoteSigs (aHybrid e) m s; toBuf a e (m ++ g.1) (fun s => .ok (m.length + g.1.length) (leBytes 4 (m.length + g.1.length)) s) g.2)

/-- IDENTITY by admin command. -/
def adminIdentity (e : Bytes) (a : AdminIn) (s : State) : AdminRes :=
  attestGate e a (fun _ => let m := identityKeys s; toBuf a e m (fun s => .ok m.length (leBytes 4 m.length) s) s)

/-- ATTEST CHALLENGE, as a job or an admin command (R240). -/
def execAttestChallenge (x : AttestIn) (s : State) : Host.Outcome State Fault Refusal :=
  .next (match x with | .job r => runPlain 0x4201 svcChallenge r s | .admin a => adminRun 0x0B01 adminChallenge a s)
/-- ATTEST QUOTE (R240). -/
def execAttestQuote (x : AttestIn) (s : State) : Host.Outcome State Fault Refusal :=
  .next (match x with | .job r => runPlain 0x4202 svcQuote r s | .admin a => adminRun 0x0B02 adminQuote a s)
/-- ATTEST IDENTITY (R238). -/
def execAttestIdentity (x : AttestIn) (s : State) : Host.Outcome State Fault Refusal :=
  .next (match x with | .job r => runPlain 0x4203 svcIdentity r s | .admin a => adminRun 0x0B03 adminIdentity a s)

end Sys2Proof.Machine
end

