-- ==== Sys2Proof/Machine/Aum.lean ====
section
/-!
DEFINITION. Authenticated update messages and debug certificates: their checks, and what applying one does (R232 to R237, R296, R459 to R461).
-/
namespace Sys2Proof.Machine

/-! ### Signed messages (R232, R459) -/

/-- Lengths of an ML-DSA-87 public key, of the pair with an ECDSA P-384 key, and of the signatures. -/
def signerLen (hybrid : Bool) : Nat := if hybrid then 2689 else 2592
def sigsLen (hybrid : Bool) : Nat := 4627 + (if hybrid then 96 else 0)

/-- Who signs: the fused root, an anchored authority, or for INSTALL_ROOT the key carried; with the keys' encoding and whether they are
hybrid. -/
structure Signer where
  root : Bool
  keys : Bytes
  hybrid : Bool

/-- The encoding of an anchored authority's key or keys. -/
def authBytes (k : AuthKey) : Bytes := k.ml ++ (if k.hybrid then k.ec else [])

/-- The authorities in SC memory (R212). -/
def authorities (s : State) : List AuthKey := if s.tok.keysLoaded then s.sc.heldAuth else []

/-- The owner root is fused and not blown. -/
def rootFused (s : State) : Bool := s.sc.rootDigest.isSome && !s.sc.rootBlown

/-- The signer that a message's block, or its AUTHORITY field, names (R235 check 5): its digest's first bytes are AUTHORITY. -/
def signerOf (s : State) (hybrid : Bool) (block : Option Bytes) (auth : Bytes) : Option Signer :=
  match block with
  | some b =>
    let d := sha3_256 b
    if d.take 8 != auth then none
    else if rootFused s && s.sc.rootDigest == some d then some ⟨true, b, hybrid⟩
    else ((authorities s).find? (fun k => authBytes k == b)).map (fun k => ⟨false, b, k.hybrid⟩)
  | none => ((authorities s).find? (fun k => (sha3_256 (authBytes k)).take 8 == auth)).map (fun k => ⟨false, authBytes k, k.hybrid⟩)

/-- The signatures over `body` verify; a hybrid signer needs both, and a second signature needs a second key (R233, R235 check 6). -/
def signaturesOk (k : Signer) (hybrid : Bool) (ctx : String) (body sigs : Bytes) : Bool :=
  k.hybrid == hybrid && mlDsaVerify 3 (k.keys.take 2592) (sigs.take 4627) (pureMsg (ascii ctx) body) &&
    (!hybrid || (match pCurve 2 with | some c => ecdsaGood c (k.keys.drop 2592) (sigs.drop 4627) (sha384 body) | none => false))

/-! ### The layout of an AUM (R232) -/

def uFlags (m : Bytes) : Nat := fieldLE m 6 2
def uHybrid (m : Bytes) : Bool := uFlags m % 2 == 1
def uSigned (m : Bytes) : Bool := uFlags m / 2 % 2 == 1
def uTotal (m : Bytes) : Nat := fieldLE m 8 4
def uPay (m : Bytes) : Nat := fieldLE m 12 4
def uTarget (m : Bytes) : Bytes := sliceOf m 16 32
def uCounter (m : Bytes) : Nat := fieldLE m 48 8
def uOp (m : Bytes) : Nat := fieldLE m 56 2
def uAuthority (m : Bytes) : Bytes := sliceOf m 64 8
def uArgs (m : Bytes) : Bytes := sliceOf m 80 48
/-- Bytes before the signer block. -/
def uHead (m : Bytes) : Nat := 128 + (if uPay m > 0 then 1568 + uPay m + 16 else 0)
/-- Bytes before the signatures. -/
def uBody (m : Bytes) : Nat := uHead m + (if uSigned m then signerLen (uHybrid m) else 0)
def uBlock (m : Bytes) : Option Bytes := if uSigned m then some (sliceOf m (uHead m) (signerLen (uHybrid m))) else none

/-- The fields of ARGS, which start at message byte 80. -/
def gClass (a : Bytes) : Nat := byteAt a 0
def gHybrid (a : Bytes) : Bool := byteAt a 1 % 2 == 1
def gDomain (a : Bytes) : Nat := fieldLE a 2 2
def gIndex (a : Bytes) : Nat := byteAt a 4
def gType (a : Bytes) : Nat := byteAt a 5
def gParam (a : Bytes) : Nat := fieldLE a 8 3
def gPolicy (a : Bytes) : Nat := fieldLE a 12 4

/-- The operations (R233). -/
def aumOps : List Nat := [0x0001, 0x0002, 0x0003, 0x0010, 0x0011, 0x0020, 0x0030]
/-- INSTALL, REPLACE and ERASE_ANCHORED. -/
def onAnchored (op : Nat) : Bool := 1 ≤ op && op ≤ 3
/-- Operations that need the token (R235 check 8). -/
def needsToken (op : Nat) : Bool := op != 0x0010 && op != 0x0030

/-- A class and an index of it (R211, R296). -/
def classOk (a : Bytes) : Bool :=
  match gClass a with
  | 1 => gIndex a < 8
  | 2 => gIndex a < 4
  | 3 => gIndex a < 16
  | 4 => true
  | _ => false

/-- Check 2: magic, format, flags, lengths, reserved bytes, a known operation. -/
def aumFormatOk (m : Bytes) : Bool :=
  128 ≤ m.length && m.take 4 == ascii "YQUM" && fieldLE m 4 2 == 1 && uFlags m < 4 && uPay m ≤ 16384 && aumOps.contains (uOp m) &&
    allZero (sliceOf m 58 6) && allZero (sliceOf m 72 8) && byteAt (uArgs m) 1 < 2 && allZero (sliceOf m 86 2) && byteAt m 91 == 0 &&
    allZero (sliceOf m 96 32) && uTotal m == m.length && uTotal m == uBody m + sigsLen (uHybrid m) &&
    (!(onAnchored (uOp m)) || classOk (uArgs m))

/-- Check 5: the signer, allowed for the operation (R233). -/
def aumSigner (s : State) (m : Bytes) : Option Signer :=
  if uOp m == 0x0030 then
    match uBlock m with
    | some b => if (sha3_256 b).take 8 == uAuthority m then some ⟨true, b, uHybrid m⟩ else none
    | none => none
  else
    match signerOf s (uHybrid m) (uBlock m) (uAuthority m) with
    | some k => if uOp m == 0x0010 && !k.root then none else some k
    | none => none

/-- The payload in the clear (R232); none where the tag fails. -/
def aumPayload (s : State) (m : Bytes) : Option Bytes :=
  if uPay m == 0 then some []
  else
    let ss := (mlKemDecaps 3 (idMlKem s).2 (sliceOf m 128 1568)).1
    let key := kmac256 ss (m.take 128) 32 (ascii "YQ9 AUM")
    let r := gcmDec key (zeros 12) (m.take 128) (sliceOf m 1696 (uPay m + 16)) 16
    if r.2 then some r.1 else none

/-- A stateful key's payload: GENERATE of 24 bytes or IMPORT of 80 (R296). -/
def statefulPayOk (p : Bytes) : Bool :=
  ((byteAt p 0 == 0 && p.length == 24) || (byteAt p 0 == 1 && p.length == 80)) && allZero (sliceOf p 1 7) && allZero (sliceOf p 16 8)

/-- The payload's length fits the operation (R233, R296, R425). DESIGN CHOICE: an INSTALL_ROOT whose payload differs from SIGNER fails here, at
check 7; R233 and R235 name no check for it (log 19). -/
def payloadFits (m p : Bytes) : Bool :=
  let a := uArgs m
  match uOp m with
  | 0x0001 | 0x0002 =>
    (match gClass a with
     | 1 => p.length == signerLen (gHybrid a)
     | 2 => p.length == 32
     | 3 => p.length == 2592
     | _ => statefulPayOk p)
  | 0x0010 | 0x0011 => p.length == 32
  | 0x0030 => uBlock m == some p
  | _ => p.isEmpty

/-- The index that ARGS name is occupied. -/
def indexOccupied (t : Token) (a : Bytes) : Bool :=
  match gClass a with
  | 1 => t.authorities.any (fun k => k.index == gIndex a)
  | 2 => t.masters.any (fun k => k.domain == gDomain a && k.index == gIndex a)
  | 3 => t.kernelKeys.any (fun k => k.1 == gIndex a)
  | _ => t.stateful.any (fun k => k.domain == gDomain a && k.index == gIndex a)

/-- A record of the anchored area: the key's length rounded up to 64 bytes, and a 64-byte header (R211). -/
def recordBytes (n : Nat) : Nat := roundUp n 64 + 64
/-- The length of a payload's key as its record counts it: a stateful key's 80 bytes, generated or imported (log 19). -/
def keyLenOf (a p : Bytes) : Nat := if gClass a == 4 then 80 else p.length
/-- Bytes of the anchored area in use; room for the attestation secret is always kept (log 19). -/
def anchoredUsed (t : Token) : Nat :=
  (t.authorities.map (fun k => recordBytes (signerLen k.hybrid))).sum + t.masters.length * recordBytes 32 + t.kernelKeys.length * recordBytes 2592 +
    t.stateful.length * recordBytes 80 + recordBytes 32

/-- The anchored area without a key. -/
def dropAnchored (a : Bytes) (t : Token) : Token :=
  match gClass a with
  | 1 => { t with authorities := t.authorities.filter (fun k => k.index != gIndex a) }
  | 2 => { t with masters := t.masters.filter (fun k => !(k.domain == gDomain a && k.index == gIndex a)) }
  | 3 => { t with kernelKeys := t.kernelKeys.filter (fun k => k.1 != gIndex a) }
  | _ => { t with stateful := t.stateful.filter (fun k => !(k.domain == gDomain a && k.index == gIndex a)) }

/-- The level codes that a stateful payload names. -/
def payHeights (a p : Bytes) : List Nat := (List.range (gParam a / 65536)).map (fun i => byteAt p (8 + i))

/-- The ARGS and HEIGHTS of a stateful key: the signing ranges, one hash and m throughout, h_max the largest height, H at most 60
(R295, R296). -/
def statefulArgsOk (a p : Bytes) : Bool :=
  let hs := payHeights a p
  let ls := hs.filterMap lmsType
  gType a == 0x23 && gPolicy a == 4 && hbsParamOk true (gParam a) && ls.length == hs.length && allZero (sliceOf p (8 + hs.length) (8 - hs.length)) &&
    (match otsType (gParam a % 256) with | some o => ls.all (fun l => l.shake == o.shake && l.m == o.n) | none => false) &&
    (ls.map (fun l => l.h)).foldl max 0 == gParam a / 256 % 256 && decide ((ls.map (fun l => l.h)).sum ≤ 60)

/-- What ARGS must say of a new key of their class (R296, R425). -/
def newArgsOk (t : Token) (fresh : Bool) (a p : Bytes) : Bool :=
  match gClass a with
  | 3 => gType a == 0x28 && gParam a == 3
  | 4 => statefulArgsOk a p && (!fresh || t.stateful.length < 1024)
  | _ => true

/-- Check 9; a REPLACE_ANCHORED that makes the record larger needs room too (DESIGN CHOICE: R233 lists no room for it, R211 holds the area to 2 MiB,
log 19): the lifecycle state, the read-only token, and the operation's precondition (R233, R256, R296). -/
def aumStateOk (s : State) (m p : Bytes) : Bool :=
  let a := uArgs m
  let t := s.tok.socket.getD {}
  lcCode s != 0x0F && lcCode s != 0x1F && !(needsToken (uOp m) && t.readOnly) &&
    (match uOp m with
     | 0x0001 => !(indexOccupied t a) && anchoredUsed t + recordBytes (keyLenOf a p) ≤ 2097152 && newArgsOk t true a p
     | 0x0002 => indexOccupied t a && anchoredUsed (dropAnchored a t) + recordBytes (keyLenOf a p) ≤ 2097152 && newArgsOk t false a p
     | 0x0003 => indexOccupied t a && (gClass a != 1 || rootFused s || decide (t.authorities.length > 1))
     | 0x0010 => decide (s.sc.custodyBank.length < 8)
     | 0x0020 => decide (gPolicy a < 8)
     | 0x0030 => (lcCode s == 0x01 || lcCode s == 0x03) && !(rootFused s)
     | _ => true)

/-- Checks 2 to 9 in order: the number of the first that fails, or the record to apply (R235). -/
def aumChecks (s : State) (m : Bytes) : Nat ⊕ AumRec :=
  if !(aumFormatOk m) then .inl 2
  else if uTarget m != deviceId s then .inl 3
  else if uCounter m != counterNow s + 1 then .inl 4
  else match aumSigner s m with
  | none => .inl 5
  | some k =>
    if !(signaturesOk k (uHybrid m) "YQ9-AUM" (m.take (uBody m)) (m.drop (uBody m))) then .inl 6
    else match aumPayload s m with
    | none => .inl 7
    | some p =>
      if !(payloadFits m p) then .inl 7
      else if needsToken (uOp m) && !(fullSession s) then .inl 8
      else if !(aumStateOk s m p) then .inl 9
      else .inr { counter := uCounter m, operation := uOp m, args := uArgs m, payload := p }

/-! ### Applying (R234, R236, R237) -/

/-- T[1] of the top-level tree (R296, RFC 8554). -/
def topRoot (a p seed ident : Bytes) : Bytes :=
  match lmsType ((payHeights a p).headD 0), otsType (gParam a % 256) with
  | some l, some o => lmsNode l o ident seed l.h 1
  | _, _ => []

/-- A stateful key as installed, whose first reservation is then written (R253): version, key id, seed and I from the payload or drawn (R296, R297). -/
def newStateful (a p : Bytes) (version : Nat) (s : State) : StatefulKey × State :=
  let m := ((otsType (gParam a % 256)).map (fun o => o.n)).getD 32
  let seed := drawBytes m s
  let ident := drawBytes 16 seed.2
  let kid := drawKeyId ident.2
  let imp := byteAt p 0 == 1
  let first := if imp then fieldLE p 72 8 else 0
  let sd := if imp then sliceOf p 24 m else seed.1
  let id := if imp then sliceOf p 56 16 else ident.1
  ({ domain := gDomain a, index := gIndex a, version := version, keyId := kid.1, param := gParam a, heights := payHeights a p,
     seed := sd, ident := id, root := topRoot a p sd id, next := first, endLeaf := first, writing := true }, kid.2)

/-- The anchored area with a key installed or replaced (R233). -/
def putAnchored (a p : Bytes) (t : Token) (s : State) : Token × State :=
  match gClass a with
  | 1 =>
    let k : AuthKey := { index := gIndex a, hybrid := gHybrid a, ml := p.take 2592, ec := p.drop 2592 }
    ({ t with authorities := putWhere (fun x => x.index == gIndex a) k t.authorities }, s)
  | 2 =>
    let same : MasterKey → Bool := fun k => k.domain == gDomain a && k.index == gIndex a
    let v := ((t.masters.find? same).map (fun k => k.version + 1)).getD 1
    let kid := drawKeyId s
    let k : MasterKey := { domain := gDomain a, index := gIndex a, version := v, keyId := kid.1, key := p }
    ({ t with masters := putWhere same k t.masters }, kid.2)
  | 3 => ({ t with kernelKeys := putWhere (fun k => k.1 == gIndex a) (gIndex a, p) t.kernelKeys }, s)
  | _ =>
    let same : StatefulKey → Bool := fun k => k.domain == gDomain a && k.index == gIndex a
    let v := ((t.stateful.find? same).map (fun k => k.version + 1)).getD 1
    let r := newStateful a p v s
    ({ t with stateful := putWhere same r.1 t.stateful }, r.2)

/-- The domain policies with one set; the default is not listed (R222). -/
def setPolicy (d v : Nat) (ps : List (Nat × BitVec 32)) : List (Nat × BitVec 32) :=
  (ps.filter (fun p => p.1 != d)) ++ (if v == 7 then [] else [(d, BitVec.ofNat 32 v)])

/-- The first CHECKPOINT of a stateful key, which names it with the leaf that its END_LEAF is (R296). -/
def firstCheckpoint (r : AumRec) (t : Token) : Option LeafRec :=
  if gClass r.args == 4 && (r.operation == 0x0001 || r.operation == 0x0002) then
    (t.stateful.find? (fun k => k.domain == gDomain r.args && k.index == gIndex r.args)).map (fun k => { checkpoint := true, entries := [(k.keyId, k.endLeaf)] })
  else none

/-- A token operation: BEGIN in the journal, the anchored area written, whose old record's block is erased, the counter and END (R236, R243). -/
def applyToken (r : AumRec) (s : State) : State :=
  match s.tok.socket with
  | none => s
  | some t =>
    let t := journalPage { t with aumBegin := some r }
    let t := if r.operation == 0x0002 || r.operation == 0x0003 then eraseBlock (regionBlocks .anchored).1 t else t
    let q : Token × State := match r.operation with
      | 0x0001 | 0x0002 => putAnchored r.args r.payload t s
      | 0x0003 => (dropAnchored r.args t, s)
      | 0x0011 => ({ t with attest := some r.payload }, s)
      | 0x0020 => ({ t with policies := setPolicy (gDomain r.args) (gPolicy r.args) t.policies }, s)
      | _ => (t, s)
    let s := { q.2 with tok := { q.2.framed.tok with socket := some (journalPage { q.1 with aumBegin := none, journalJ := r.counter }) } }
    match firstCheckpoint r q.1 with
    | some c => writeLeafRec c s
    | none => noteToken s

/-- A fuse operation: a custody-bank entry under its bank key, or the owner root, each with its counter (R209, R236). -/
def applyFuses (r : AumRec) (s : State) : State :=
  if r.operation == 0x0010 then
    { s with sc := { s.sc with custodyBank := s.sc.custodyBank ++ [{ key := bankSeal s s.sc.custodyBank.length r.payload, counter := r.counter, live := true }] } }
  else { s with sc := { s.sc with rootDigest := some (sha3_256 r.payload), rootCounter := r.counter } }

/-- The floor rises at each multiple of 256, up to 4,096 fuses (R234). -/
def raiseFloor (counter : Nat) (s : State) : State :=
  if counter % 256 == 0 then { s with sc := { s.sc with floor := max s.sc.floor (min 4096 (counter / 256)) } } else s

/-- The token's anchored keys come into SC memory (R212). -/
def loadAnchored (s : State) : State :=
  match s.tok.socket with
  | none => s
  | some t =>
    { s with tok := { s.tok with keysLoaded := true },
             sc := { s.sc with heldAuth := t.authorities, heldAttest := t.attest, policies := t.policies } }

/-- An accepted AUM is applied: persistent store, floor, and, `serve`, the keys in service; debug rights lapse (R108, R236, R461). -/
def applyAum (serve : Bool) (r : AumRec) (s : State) : State :=
  let s := if needsToken r.operation then applyToken r s else applyFuses r s
  let s := raiseFloor r.counter s
  let s := if serve && s.tok.keysLoaded then loadAnchored s else s
  clampRights (raiseEvent 0x0302 0x0500 (leBytes 8 r.counter ++ leBytes 2 r.operation) s)

/-- The status and detail of a failed check of R235. -/
def aumFailure (n : Nat) : AdminRes :=
  match n with
  | 2 => aBad 0x50
  | 3 => aBad 0x51
  | 4 => aBad 0x52
  | 5 => aFail .keyNotFound 0x53
  | 6 => aFail .inputRejected 0x54
  | 7 => aFail .inputRejected 0x55
  | 8 => aFail .ledgerUnavailable 0x57
  | _ => aFail .keyPolicy 0x56

/-- AUM_SUBMIT's work (R235). -/
def adminAum (e : Bytes) (a : AdminIn) (s : State) : AdminRes :=
  match fromBuf a (aBufLen e) with
  | none => aFail .translationFault 0x31
  | some m =>
    if m.length < 12 || uTotal m != m.length then aBad 0x50
    else match aumChecks s m with
    | .inl n => aumFailure n
    | .inr r => let s := applyAum s.eph.configured r s; .ok 0 (leBytes 8 (counterNow s)) s

/-- AUM_SUBMIT (R235, R236). -/
def execAumSubmit (a : AdminIn) (s : State) : Host.Outcome State Fault Refusal := .next (adminRun 0x0C00 adminAum a s)

/-! ### Debug certificates (R459 to R461) -/

def cRights (m : Bytes) : Nat := fieldLE m 12 2
def cCycles (m : Bytes) : Nat := fieldLE m 14 2
def cTests (m : Bytes) : Nat := fieldLE m 64 4
def cBody (m : Bytes) : Nat := 96 + (if uSigned m then signerLen (uHybrid m) else 0)
def cBlock (m : Bytes) : Option Bytes := if uSigned m then some (sliceOf m 96 (signerLen (uHybrid m))) else none

/-- Check 2 (R459, R460). -/
def certFormatOk (m : Bytes) : Bool :=
  96 ≤ m.length && m.take 4 == ascii "YQDC" && fieldLE m 4 2 == 1 && uFlags m < 4 && uTotal m == m.length &&
    uTotal m == cBody m + sigsLen (uHybrid m) && cRights m < 32 && 1 ≤ cCycles m && cCycles m ≤ 255 && allZero (sliceOf m 68 28) &&
    ((cRights m / 16 % 2 == 1) == (cTests m != 0))

/-- DBG_CERT_SUBMIT's work: the checks in order, then the store (R460, R461). -/
def adminCert (e : Bytes) (a : AdminIn) (s : State) : AdminRes :=
  match fromBuf a (aBufLen e) with
  | none => aFail .translationFault 0x31
  | some m =>
    if m.length < 12 || uTotal m != m.length || !(certFormatOk m) then aBad 0x70
    else if uTarget m != deviceId s then aBad 0x71
    else if uCounter m != counterNow s then aBad 0x72
    else match signerOf s (uHybrid m) (cBlock m) (sliceOf m 56 8) with
    | none => aFail .keyNotFound 0x73
    | some k =>
      if !(signaturesOk k (uHybrid m) "YQ9-DEBUG" (m.take (cBody m)) (m.drop (cBody m))) then aFail .inputRejected 0x74
      else if lcCode s != 0x07 || s.tam.quarantine then aFail .keyPolicy 0x75
      else
        let c : DbgCert := { rights := cRights m, cyclesLeft := cCycles m, target := uTarget m, counter := uCounter m, testClusters := cTests m }
        let s := { s with dbg := { s.dbg with cert := if c.rights == 0 then none else some c, certLive := c.rights != 0 } }
        let left := if c.rights == 0 then 0 else c.cyclesLeft
        let s := clampRights (raiseEvent 0x0305 0x0500 [byteOf c.rights, byteOf left] s)
        .ok 0 (leBytes 2 c.rights ++ [byteOf left]) s

/-- DBG_CERT_SUBMIT (R460, R461). -/
def execDbgCertSubmit (a : AdminIn) (s : State) : Host.Outcome State Fault Refusal := .next (adminRun 0x0D00 adminCert a s)

end Sys2Proof.Machine
end

