-- ==== Sys2Proof/Machine/SymJobs.lean ====
section
/-!
DEFINITION. The jobs of the symmetric engines in WHOLE, segment and STREAM form, and their contexts (R354 to R373).
-/
namespace Sys2Proof.Machine

/-! ### WHOLE jobs (R358, R360, R361) -/

/-- A decrypted text that stays back until its check has passed (R361). -/
def released (r : Bytes × Bool) : Result := if r.2 then { verdict true with staged := r.1 } else verdict false

/-- One AEAD message under a nonce (R358, R360): ciphertext streamed and tag staged, or plaintext staged. -/
def aeadResult (op ps : Nat) (key nonce aad inp : Bytes) : Result :=
  let t := psTag ps
  let enc := fun (c : Bytes) => ({ streamed := c.take inp.length, staged := c.drop inp.length } : Result)
  match op with
  | 0x3006 => enc (gcmEnc key nonce aad inp t)
  | 0x3007 => released (gcmDec key nonce aad inp t)
  | 0x300A => enc (sivEnc key nonce aad inp)
  | 0x300B => released (sivDec key nonce aad inp)
  | 0x300C => enc (ccmEnc key nonce aad inp t)
  | 0x300D => released (ccmDec key nonce aad inp t)
  | 0x3012 => enc (cpEnc key nonce aad inp)
  | _ => released (cpDec key nonce aad inp)

/-- The nonce of a WHOLE job's block. -/
def symNonce (op ps : Nat) (b : Bytes) : Bytes := b.take (if isCcm op then psAux ps else 12)

/-- A WHOLE symmetric job on its block (R357, R358). -/
def symResult (op ps : Nat) (key b aad inp : Bytes) : Result :=
  match op with
  | 0x3001 => { streamed := cbcEnc key (b.take 16) inp }
  | 0x3002 => { streamed := cbcDec key (b.take 16) inp }
  | 0x3003 => { streamed := ctrFrom key (psAux ps) (b.take 16) 0 inp }
  | 0x3004 => { streamed := xts true key (sTweak b) (sDuLen b) inp }
  | 0x3005 => { streamed := xts false key (sTweak b) (sDuLen b) inp }
  | 0x3008 => { staged := (gcmTag key (b.take 12) inp []).take (psTag ps) }
  | 0x3009 =>
    let d := inp.take (inp.length - psTag ps)
    verdict ((gcmTag key (b.take 12) d []).take (psTag ps) == inp.drop (inp.length - psTag ps))
  | 0x300E => { staged := kwWrap key inp }
  | 0x300F => released (kwUnwrap key inp)
  | 0x3010 => { staged := kwpWrap key inp }
  | 0x3011 => released (kwpUnwrap key inp)
  | _ => aeadResult op ps key (symNonce op ps b) aad inp

/-! ### Segments (R369, R371 to R373) -/

/-- GHASH of whole blocks from an accumulator. -/
def ghashFrom (h acc d : Bytes) : Bytes :=
  let hv := beNat h
  beBytes 16 ((chunks 16 d).foldl (fun y b => ghashMulN 128 (y.xor (beNat b)) hv) (beNat acc))

/-- The Poly1305 accumulator over whole 16-byte blocks, from an accumulator of 17 bytes. -/
def polyFrom (r acc d : Bytes) : Bytes :=
  let rv := leNat (r.take 16) &&& 0x0ffffffc0ffffffc0ffffffc0fffffff
  leBytes 17 ((chunks 16 d).foldl (fun a b => (a + leNat (b ++ [1])) * rv % (2 ^ 130 - 5)) (leNat acc))

/-- Text with zeros up to a whole block. -/
def padded (d : Bytes) : Bytes := d ++ pad16 d.length

/-- The chaining state of a context right after CTX_OPEN (R367). -/
def symOpenChain (f : Nat) (key b aad : Bytes) : Bytes :=
  if isCbc f then b.take 16
  else if isGcm f || isGmac f then ghashFrom (aesEnc key (zeros 16)) (zeros 16) (padded aad)
  else if isChaPoly f then polyFrom ((chachaBlock key (b.take 12) 0).take 32) (zeros 17) (padded aad)
  else []

/-- A context after a segment of `n` bytes with chaining state `ch`; a FINAL one closes it (R371, R372). -/
def stepCtx (i n : Nat) (ch : Bytes) (fin : Bool) (s : State) : State :=
  s.onCtx i (fun c => if fin then killCtx c else { c with chain := ch, total := c.total + n, segment := c.segment + 1 })

/-- A segment that is not in STREAM form: its result and the new chaining state (R369). -/
def symSegment (c : Ctx) (key inp : Bytes) (fin : Bool) : Result × Bytes :=
  let f := c.func
  let b := c.block
  let t := psTag c.param
  let iv := b.take 12
  if f == 0x3001 then
    let o := cbcEnc key c.chain inp
    ({ streamed := o }, if inp.isEmpty then c.chain else o.drop (o.length - 16))
  else if f == 0x3002 then ({ streamed := cbcDec key c.chain inp }, if inp.isEmpty then c.chain else inp.drop (inp.length - 16))
  else if f == 0x3003 then ({ streamed := ctrFrom key (psAux c.param) (b.take 16) (c.total / 16) inp }, [])
  else if isXts f then ({ streamed := xts (f == 0x3004) key (sTweak b + c.total / max 1 (sDuLen b)) (sDuLen b) inp }, [])
  else if isGmac f then
    let d := if fin && f == 0x3009 then inp.take (inp.length - t) else inp
    let h := aesEnc key (zeros 16)
    let acc := ghashFrom h c.chain (padded d)
    let tag := (xorBytes (ghashFrom h acc (beBytes 8 (8 * (c.total + d.length)) ++ zeros 8)) (aesEnc key (iv ++ [0, 0, 0, 1]))).take t
    (if !fin then {} else if f == 0x3008 then { staged := tag } else verdict (tag == inp.drop (inp.length - t)), acc)
  else if f == 0x3006 then
    let o := gcmCtr key iv (c.total / 16) inp
    let h := aesEnc key (zeros 16)
    let acc := ghashFrom h c.chain (padded o)
    let tag := xorBytes (ghashFrom h acc (beBytes 8 (8 * c.aad.length) ++ beBytes 8 (8 * (c.total + inp.length)))) (aesEnc key (iv ++ [0, 0, 0, 1]))
    ({ streamed := o, staged := if fin then tag.take t else [] }, acc)
  else
    let o := chacha20 key iv (1 + c.total / 64) inp
    let k := (chachaBlock key iv 0).take 32
    let acc := polyFrom k c.chain (padded o)
    let last := polyFrom k acc (leBytes 8 c.aad.length ++ leBytes 8 (c.total + inp.length))
    ({ streamed := o, staged := if fin then leBytes 16 (leNat last + leNat (k.drop 16)) else [] }, acc)

/-- The nonce of STREAM segment `i` (R371). -/
def streamNonce (b : Bytes) (i : Nat) (fin : Bool) : Bytes := b.take 7 ++ beBytes 4 i ++ [if fin then 1 else 0]

/-- A segment of the job's context (R369, R371). -/
def svcSegment (j : Job) (inp strs : Bytes) (s : State) : Result × State :=
  match (j.ctx.bind s.ctx?) with
  | none => ({ status := .keyRetired }, s)
  | some c =>
    let fin := dSeg j.desc == 2
    let key := keyBytes s j (dKey j.desc)
    let r := if psStream c.param then (aeadResult c.func c.param key (streamNonce c.block c.segment fin) strs inp, []) else symSegment c key inp fin
    (r.1, if r.1.status == .ok then stepCtx c.idx inp.length r.2 fin s else s)

/-- A symmetric job (R358, R369). -/
def svcSym (j : Job) (inp strs : Bytes) (s : State) : Result × State :=
  let d := j.desc
  if dSeg d != 0 then svcSegment j inp strs s
  else (symResult (dOp d) (dParam d) (keyBytes s j (dKey d)) j.block strs inp, s)

/-- The AAD that a job reads at dispatch (R357, R369). -/
def symWant (_ : State) (j : Job) : Nat :=
  let d := j.desc
  if isAead (dOp d) && (dSeg d == 0 || psStream (dParam d)) then sAadLen j.block else 0

/-- The unit in which a symmetric job streams its output: a block, or a data unit of XTS. -/
def symGrain (s : State) (j : Job) : Nat :=
  if isXts (dOp j.desc) then sDuLen (((j.ctx.bind s.ctx?).map (fun c => c.block)).getD j.block)
  else if isChaPoly (dOp j.desc) then 64 else 16

/-- A symmetric job runs. -/
def runSym (op : Nat) (x : JobRun) (s : State) : State := runJob op symWant symGrain svcSym x s

/-! ### CTX_OPEN and CTX_CLOSE (R367, R372) -/

/-- The key id of a slot's key. -/
def keyIdOf (s : State) (h : Nat) : Nat := if hType h == 0 then 0 else ((s.slot? (hSlot h)).map (fun x => x.keyId)).getD 0

/-- The reserved context becomes live; INLINE holds its handle (R367, R368). -/
def openCtx (j : Job) (engine func : Nat) (aad chain : Bytes) (s : State) : Result × State :=
  match (j.ctx.bind s.ctx?) with
  | none => ({ status := .keyPolicy }, s)
  | some c =>
    let d := j.desc
    let c' : Ctx := { c with live := true, domain := j.domain, engine := engine, func := func, key := dKey d, keyId := keyIdOf s (dKey d), param := dParam d, block := j.block, order := orderOf s.eph.cfg j.cls, total := 0, segment := 0, chain := chain, aad := aad }
    ({ inline := leBytes 8 (mkCtxHandle j.domain c.gen c.idx) }, s.onCtx c.idx (fun _ => c'))

/-- CTX_OPEN absorbs the AAD of GCM, GMAC and ChaCha20-Poly1305 outside STREAM (R367). -/
def absorbsAad (j : Job) : Bool := !(psStream (dParam j.desc)) && (isGcm (dFunc j.desc) || isGmac (dFunc j.desc) || isChaPoly (dFunc j.desc))

/-- CTX_OPEN of the BCE (R367). -/
def svcCtxOpen (j : Job) (_ strs : Bytes) (s : State) : Result × State :=
  let f := dFunc j.desc
  let aad := if absorbsAad j then strs else []
  openCtx j 1 f aad (if psStream (dParam j.desc) then [] else symOpenChain f (keyBytes s j (dKey j.desc)) j.block aad) s

/-- CTX_CLOSE (R372, R382). -/
def svcCtxClose (j : Job) (_ : Bytes) (s : State) : Result × State := ({}, match j.ctx with | some i => s.onCtx i killCtx | none => s)

/-- 0x3001 CBC_ENCRYPT. -/
def execCbcEncrypt (x : JobRun) (s : State) : Host.Outcome State Fault Refusal := .next (runSym 0x3001 x s)

/-- 0x3002 CBC_DECRYPT. -/
def execCbcDecrypt (x : JobRun) (s : State) : Host.Outcome State Fault Refusal := .next (runSym 0x3002 x s)

/-- 0x3003 CTR. -/
def execCtr (x : JobRun) (s : State) : Host.Outcome State Fault Refusal := .next (runSym 0x3003 x s)

/-- 0x3004 XTS_ENCRYPT. -/
def execXtsEncrypt (x : JobRun) (s : State) : Host.Outcome State Fault Refusal := .next (runSym 0x3004 x s)

/-- 0x3005 XTS_DECRYPT. -/
def execXtsDecrypt (x : JobRun) (s : State) : Host.Outcome State Fault Refusal := .next (runSym 0x3005 x s)

/-- 0x3006 GCM_ENCRYPT. -/
def execGcmEncrypt (x : JobRun) (s : State) : Host.Outcome State Fault Refusal := .next (runSym 0x3006 x s)

/-- 0x3007 GCM_DECRYPT. -/
def execGcmDecrypt (x : JobRun) (s : State) : Host.Outcome State Fault Refusal := .next (runSym 0x3007 x s)

/-- 0x3008 GMAC_GENERATE. -/
def execGmacGenerate (x : JobRun) (s : State) : Host.Outcome State Fault Refusal := .next (runSym 0x3008 x s)

/-- 0x3009 GMAC_VERIFY. -/
def execGmacVerify (x : JobRun) (s : State) : Host.Outcome State Fault Refusal := .next (runSym 0x3009 x s)

/-- 0x300A GCM_SIV_ENCRYPT. -/
def execGcmSivEncrypt (x : JobRun) (s : State) : Host.Outcome State Fault Refusal := .next (runSym 0x300A x s)

/-- 0x300B GCM_SIV_DECRYPT. -/
def execGcmSivDecrypt (x : JobRun) (s : State) : Host.Outcome State Fault Refusal := .next (runSym 0x300B x s)

/-- 0x300C CCM_ENCRYPT. -/
def execCcmEncrypt (x : JobRun) (s : State) : Host.Outcome State Fault Refusal := .next (runSym 0x300C x s)

/-- 0x300D CCM_DECRYPT. -/
def execCcmDecrypt (x : JobRun) (s : State) : Host.Outcome State Fault Refusal := .next (runSym 0x300D x s)

/-- 0x300E KW_WRAP. -/
def execKwWrap (x : JobRun) (s : State) : Host.Outcome State Fault Refusal := .next (runSym 0x300E x s)

/-- 0x300F KW_UNWRAP. -/
def execKwUnwrap (x : JobRun) (s : State) : Host.Outcome State Fault Refusal := .next (runSym 0x300F x s)

/-- 0x3010 KWP_WRAP. -/
def execKwpWrap (x : JobRun) (s : State) : Host.Outcome State Fault Refusal := .next (runSym 0x3010 x s)

/-- 0x3011 KWP_UNWRAP. -/
def execKwpUnwrap (x : JobRun) (s : State) : Host.Outcome State Fault Refusal := .next (runSym 0x3011 x s)

/-- 0x3012 CHACHA_POLY_ENCRYPT. -/
def execChachaPolyEncrypt (x : JobRun) (s : State) : Host.Outcome State Fault Refusal := .next (runSym 0x3012 x s)

/-- 0x3013 CHACHA_POLY_DECRYPT. -/
def execChachaPolyDecrypt (x : JobRun) (s : State) : Host.Outcome State Fault Refusal := .next (runSym 0x3013 x s)

/-- 0x3020 CTX_OPEN. -/
def execCtxOpen (x : JobRun) (s : State) : Host.Outcome State Fault Refusal :=
  .next (runJob 0x3020 (fun _ j => if absorbsAad j then sAadLen j.block else 0) (fun _ _ => 1) svcCtxOpen x s)

/-- 0x3021 CTX_CLOSE. -/
def execCtxClose (x : JobRun) (s : State) : Host.Outcome State Fault Refusal := .next (runPlain 0x3021 svcCtxClose x s)

end Sys2Proof.Machine
end

