-- ==== Sys2Proof/Machine/DigestJobs.lean ====
section
/-!
DEFINITION. The jobs of the digest engines: digests, MACs, contexts with their chaining state, state frames, Merkle jobs (R374 to R388).
-/
namespace Sys2Proof.Machine

/-! ### WHOLE jobs (R375 to R377) -/

/-- The tag or digest of a message, `T` bytes (R375, R377). -/
def digestOf (op id : Nat) (b key n sv m : Bytes) : Bytes :=
  let t := digestT id b
  if op == 0x3102 || op == 0x3103 then (hmac id key m).take t
  else if op == 0x3104 || op == 0x3105 then kmacBytes id key t sv m
  else hashBytes id t n sv m

/-- A verify function: it compares where the others write (R375). -/
def digestVerifies (op : Nat) : Bool := op == 0x3103 || op == 0x3105 || op == 0x3106

/-- A WHOLE digest job (R375). -/
def digestResult (op id : Nat) (b key n sv inp : Bytes) : Result :=
  if digestVerifies op then
    let m := inp.take (inp.length - digestT id b)
    verdict (digestOf op id b key n sv m == inp.drop m.length)
  else { staged := digestOf op id b key n sv inp }

/-! ### Chaining states (R382, R383) -/

/-- A SHA-2 function id. -/
def isSha2 (id : Nat) : Bool := id ≤ 5

/-- The block of a function id. -/
def hashBlock (id : Nat) : Nat := match hashFn id with | some f => f.block | none => 1

/-- The initial chaining state of the hash: H0 to H7 in FIPS 180-4 order, or the Keccak array (R383). -/
def chainIv (id : Nat) : Bytes :=
  match id with
  | 1 => wordsBe sha224Iv
  | 2 => wordsBe sha256Iv
  | 3 => wordsBe sha384Iv
  | 4 => wordsBe sha512Iv
  | 5 => wordsBe sha512t256Iv
  | _ => zeros 200

/-- Whole blocks absorbed. -/
def chainAbsorb (id : Nat) (st blocks : Bytes) : Bytes :=
  if id ≤ 2 then wordsBe ((chunks 64 blocks).foldl sha256Block (beWords 32 st))
  else if isSha2 id then wordsBe ((chunks 128 blocks).foldl sha512Block (beWords 64 st))
  else lanesBytes ((chunks (hashBlock id) blocks).foldl keccakAbsorb (bytesLanes st))

/-- The end of a hash: the last `tail` of a message of `len` bytes, padded, and `out` bytes of the result. -/
def chainEnd (id suffix : Nat) (st tail : Bytes) (len out : Nat) : Bytes :=
  if isSha2 id then (chainAbsorb id st (tail ++ sha2Pad (hashBlock id) len)).take out
  else
    let r := hashBlock id
    let a := bytesLanes (chainAbsorb id st (tail ++ keccakPad r suffix tail.length))
    (keccakSqueeze r (ceilDiv out r) a).take out

/-- The domain suffix of a Keccak function: SHA-3, SHAKE, or cSHAKE with a string. -/
def chainSuffix (id : Nat) (b : Bytes) : Nat :=
  if id ≤ 9 then 0x06 else if id ≤ 0x0B then 0x1F else if id ≤ 0x0D && bNLen b + bSLen b == 0 then 0x1F else 0x04

/-- The length of one chaining value. -/
def chainLen (id : Nat) : Nat := if id ≤ 2 then 32 else if isSha2 id then 64 else 200

/-- The state that CTX_OPEN leaves (R382): HMAC holds the inner and the outer one. -/
def digestOpenChain (f id : Nat) (b key n sv : Bytes) : Bytes :=
  let r := hashBlock id
  if f == 0x3102 || f == 0x3103 then
    let k := hmacKeyBlock id key
    chainAbsorb id (chainIv id) (k.map (· ^^^ 0x36)) ++ chainAbsorb id (chainIv id) (k.map (· ^^^ 0x5C))
  else if f == 0x3104 || f == 0x3105 then
    chainAbsorb id (chainIv id) (bytepad r (encodeString (ascii "KMAC") ++ encodeString sv) ++ bytepad r (encodeString key))
  else if (id == 0x0C || id == 0x0D) && bNLen b + bSLen b > 0 then chainAbsorb id (chainIv id) (bytepad r (encodeString n ++ encodeString sv))
  else chainIv id

/-- Whole blocks of message absorbed into a context's state. -/
def digestAbsorb (f id : Nat) (ch m : Bytes) : Bytes :=
  if f == 0x3102 || f == 0x3103 then chainAbsorb id (ch.take (chainLen id)) m ++ ch.drop (chainLen id) else chainAbsorb id ch m

/-- The result of a context after its last bytes; `total` message bytes came before them. -/
def digestFinal (f id : Nat) (b ch tail : Bytes) (total : Nat) : Bytes :=
  let t := digestT id b
  let sfx := chainSuffix id b
  if f == 0x3102 || f == 0x3103 then
    let out := match hashFn id with | some h => h.out | none => 0
    let inner := chainEnd id sfx (ch.take (chainLen id)) tail (hashBlock id + total + tail.length) out
    (chainEnd id sfx (ch.drop (chainLen id)) inner (hashBlock id + out) out).take t
  else if f == 0x3104 || f == 0x3105 then
    let xof := match hashFn id with | some h => h.xof | none => false
    chainEnd id sfx ch (tail ++ rightEncode (if xof then 0 else 8 * t)) 0 t
  else
    let out := match hashFn id with | some h => if h.xof then t else h.out | none => 0
    chainEnd id sfx ch tail (total + tail.length) out

/-- A digest segment (R382). -/
def digestSegment (c : Ctx) (inp : Bytes) (fin : Bool) : Result × Bytes :=
  let id := c.param
  if !fin then ({}, digestAbsorb c.func id c.chain inp)
  else if digestVerifies c.func then
    let m := inp.take (inp.length - digestT id c.block)
    (verdict (digestFinal c.func id c.block c.chain m c.total == inp.drop m.length), [])
  else ({ staged := digestFinal c.func id c.block c.chain inp c.total }, [])

/-- A digest job (R375, R382). -/
def svcDigest (j : Job) (inp strs : Bytes) (s : State) : Result × State :=
  let d := j.desc
  if dSeg d == 0 then
    let n := bNLen j.block
    (digestResult (dOp d) (dParam d) j.block (keyBytes s j (dKey d)) (strs.take n) (strs.drop n) inp, s)
  else match (j.ctx.bind s.ctx?) with
  | none => ({ status := .keyRetired }, s)
  | some c =>
    let r := digestSegment c inp (dSeg d == 2)
    (r.1, if r.1.status == .ok then stepCtx c.idx inp.length r.2 (dSeg d == 2) s else s)

/-- The strings that a WHOLE job or CTX_OPEN reads at dispatch (R376, R382). -/
def digestWant (_ : State) (j : Job) : Nat :=
  if dOp j.desc == 0x3120 || dSeg j.desc == 0 then bNLen j.block + bSLen j.block else 0

/-- A digest job runs: all its output is staged. -/
def runDigest (op : Nat) (x : JobRun) (s : State) : State := runJob op digestWant (fun _ _ => 1) svcDigest x s

/-- CTX_OPEN of the DGE (R382). -/
def svcDgeOpen (j : Job) (_ strs : Bytes) (s : State) : Result × State :=
  let f := dFunc j.desc
  let n := bNLen j.block
  openCtx j 2 f [] (digestOpenChain f (dParam j.desc) j.block (keyBytes s j (dKey j.desc)) (strs.take n) (strs.drop n)) s

/-! ### State frames (R383 to R385) -/

/-- The key that encrypts keyed frames (R384). -/
def frameKey (s : State) : Bytes := kmac256 (s.sc.wrapKey.getD []) [] 32 (ascii "YQ9 DGE EXPORT")

/-- The 200-byte STATE of a context (R383); HMAC over a Keccak function keeps its inner state, the outer one follows from the key (log 17). -/
def frameState (c : Ctx) : Bytes := sliceZ c.chain 0 200

/-- STATE_EXPORT: the 280-byte frame; a keyed one is a wrap (R383, R384). -/
def svcStateExport (j : Job) (_ : Bytes) (s : State) : Result × State :=
  match (j.ctx.bind s.ctx?) with
  | none => ({ status := .keyRetired }, s)
  | some c =>
    let keyed := hType c.key != 0
    let s : State := if keyed then { s with sc := { s.sc with wrapNonce := s.sc.wrapNonce + 1 } } else s
    let nonce := if keyed then leBytes 12 s.sc.wrapNonce else zeros 12
    let head := ascii "YQDS" ++ [1, if keyed then 1 else 0] ++ leBytes 2 c.func ++ leBytes 3 c.param ++ [0] ++ leBytes 4 (bOutLen c.block) ++
      leBytes 8 c.total ++ leBytes 8 (if keyed then c.key else 0) ++ leBytes 8 (if keyed then c.keyId else 0) ++ leBytes 2 c.domain ++ zeros 6 ++ nonce ++ zeros 4
    let body := if keyed then gcmEnc (frameKey s) nonce head (frameState c) 16 else frameState c ++ zeros 16
    ({ staged := head ++ body }, s)

/-- The parts of a frame that STATE_IMPORT accepts (R385). -/
def frameOk (s : State) (j : Job) (f : Bytes) : Bool :=
  let op := fieldLE f 6 2
  let id := fieldLE f 8 3
  let keyed := byteAt f 5 == 1
  let b := leBytes 4 (fieldLE f 12 4) ++ zeros 20
  startsWith f (ascii "YQDS") && byteAt f 4 == 1 && byteAt f 5 ≤ 1 && 0x3101 ≤ op && op ≤ 0x3106 && digestFnOk op id && digestBlockOk op id b &&
    byteAt f 11 == 0 && allZero (sliceOf f 42 6) && allZero (sliceOf f 60 4) && keyed == (0x3102 ≤ op && op ≤ 0x3105) &&
    fieldLE f 40 2 == j.domain && fieldLE f 16 8 ≤ digestLimit id && fieldLE f 16 8 % hashBlock id == 0 && fieldLE f 24 8 == dKey j.desc * (if keyed then 1 else 0) &&
    (if keyed then hType (dKey j.desc) == (if op ≤ 0x3103 then 0x18 else 0x19) && fieldLE f 32 8 == keyIdOf s (dKey j.desc)
     else hType (dKey j.desc) == 0 && fieldLE f 32 8 == 0 && allZero (sliceOf f 48 12) && allZero (sliceOf f 264 16) &&
       (!(isSha2 id) || allZero (sliceOf f (64 + chainLen id) (200 - chainLen id))))

/-- STATE_IMPORT: a context from a frame, or the mismatch verdict (R383, R385). Whether a cSHAKE frame had strings is a free value. -/
def svcStateImport (j : Job) (f : Bytes) (s : State) : Result × State :=
  let keyed := byteAt f 5 == 1
  let st := if keyed then gcmDec (frameKey s) (sliceOf f 48 12) (f.take 64) (f.drop 64) 16 else (sliceOf f 64 200, true)
  if !(frameOk s j f && st.2) then (verdict false, s)
  else match (j.ctx.bind s.ctx?) with
  | none => ({ status := .keyPolicy }, s)
  | some c =>
    let op := fieldLE f 6 2
    let id := fieldLE f 8 3
    let key := keyBytes s j (dKey j.desc)
    let mac := op == 0x3102 || op == 0x3103
    let outer := chainAbsorb id (chainIv id) ((hmacKeyBlock id key).map (· ^^^ 0x5C))
    let chain := if mac then st.1.take (chainLen id) ++ outer else st.1.take (chainLen id)
    let u := if id == 0x0C || id == 0x0D then drawNat 2 s else (0, s)
    let b := leBytes 4 (fieldLE f 12 4) ++ [byteOf u.1] ++ zeros 19
    let c' : Ctx := { c with live := true, domain := j.domain, engine := 2, func := op, key := dKey j.desc, keyId := keyIdOf s (dKey j.desc), param := id, block := b, order := orderOf s.eph.cfg j.cls, total := fieldLE f 16 8, segment := 0, chain := chain, aad := [] }
    ({ inline := leBytes 8 (mkCtxHandle j.domain c.gen c.idx) }, u.2.onCtx c.idx (fun _ => c'))

/-! ### Merkle jobs (R386, R387) -/

/-- LEAF. -/
def svcLeaf (j : Job) (inp : Bytes) (s : State) : Result × State := ({ staged := merkleLeaf (dParam j.desc) inp }, s)

/-- The output length of a function id. -/
def hashOut (id : Nat) : Nat := match hashFn id with | some f => f.out | none => 1

/-- ROOT over leaf hashes. -/
def svcRoot (j : Job) (inp : Bytes) (s : State) : Result × State :=
  let id := dParam j.desc
  ({ staged := (merkleRoot id (chunks (hashOut id) inp)).getD (hashFixed id []) }, s)

/-- CHUNK_ROOT. -/
def svcChunkRoot (j : Job) (inp : Bytes) (s : State) : Result × State := ({ staged := chunkRoot (dParam j.desc) (kChunk j.block) inp }, s)

/-- VERIFY_PATH: leaf, path and expected root. -/
def svcVerifyPath (j : Job) (inp : Bytes) (s : State) : Result × State :=
  let id := dParam j.desc
  let ps := chunks (hashOut id) inp
  (verdict (pathRoot id (kIndex j.block) (kSize j.block) (ps.headD []) ((ps.drop 1).dropLast) == some (ps.getLastD [])), s)

/-- 0x3101 HASH. -/
def execHash (x : JobRun) (s : State) : Host.Outcome State Fault Refusal := .next (runDigest 0x3101 x s)

/-- 0x3102 HMAC_GENERATE. -/
def execHmacGenerate (x : JobRun) (s : State) : Host.Outcome State Fault Refusal := .next (runDigest 0x3102 x s)

/-- 0x3103 HMAC_VERIFY. -/
def execHmacVerify (x : JobRun) (s : State) : Host.Outcome State Fault Refusal := .next (runDigest 0x3103 x s)

/-- 0x3104 KMAC_GENERATE. -/
def execKmacGenerate (x : JobRun) (s : State) : Host.Outcome State Fault Refusal := .next (runDigest 0x3104 x s)

/-- 0x3105 KMAC_VERIFY. -/
def execKmacVerify (x : JobRun) (s : State) : Host.Outcome State Fault Refusal := .next (runDigest 0x3105 x s)

/-- 0x3106 VERIFY_DIGEST. -/
def execVerifyDigest (x : JobRun) (s : State) : Host.Outcome State Fault Refusal := .next (runDigest 0x3106 x s)

/-- 0x3120 CTX_OPEN. -/
def execDgeCtxOpen (x : JobRun) (s : State) : Host.Outcome State Fault Refusal := .next (runJob 0x3120 digestWant (fun _ _ => 1) svcDgeOpen x s)

/-- 0x3121 CTX_CLOSE. -/
def execDgeCtxClose (x : JobRun) (s : State) : Host.Outcome State Fault Refusal := .next (runPlain 0x3121 svcCtxClose x s)

/-- 0x3122 STATE_EXPORT. -/
def execStateExport (x : JobRun) (s : State) : Host.Outcome State Fault Refusal := .next (runPlain 0x3122 svcStateExport x s)

/-- 0x3123 STATE_IMPORT. -/
def execStateImport (x : JobRun) (s : State) : Host.Outcome State Fault Refusal := .next (runPlain 0x3123 svcStateImport x s)

/-- 0x3201 LEAF. -/
def execLeaf (x : JobRun) (s : State) : Host.Outcome State Fault Refusal := .next (runPlain 0x3201 svcLeaf x s)

/-- 0x3202 ROOT. -/
def execRoot (x : JobRun) (s : State) : Host.Outcome State Fault Refusal := .next (runPlain 0x3202 svcRoot x s)

/-- 0x3203 CHUNK_ROOT. -/
def execChunkRoot (x : JobRun) (s : State) : Host.Outcome State Fault Refusal := .next (runPlain 0x3203 svcChunkRoot x s)

/-- 0x3204 VERIFY_PATH. -/
def execVerifyPath (x : JobRun) (s : State) : Host.Outcome State Fault Refusal := .next (runPlain 0x3204 svcVerifyPath x s)

end Sys2Proof.Machine
end

