-- ==== Sys2Proof/Machine/BouquetJobs.lean ====
section
/-!
DEFINITION. Bouquets: up to four stages over one input stream (R203 to R208).
-/
namespace Sys2Proof.Machine

/-- What a stage worked out, and its stream output for the next one (R205). -/
structure StageOut where
  res : Result := {}
  text : Bytes := []

/-- How many bytes of AAD or strings a stage reads. -/
def stageWant (r : Bytes) : Nat :=
  if stKind r == 1 then (if isAead (stFunc r) then sAadLen (stBlock r) else 0)
  else if stKind r == 3 && stFunc r == 0x3104 then bNLen (stBlock r) + bSLen (stBlock r) else 0

/-- A stage on its whole input (R205). -/
def stageRun (s : State) (j : Job) (r strs inp : Bytes) : StageOut :=
  let b := stBlock r
  let f := stFunc r
  let key := keyBytes s j (stKey r)
  match stKind r with
  | 1 =>
    let o := symResult f (stParam r) key b strs inp
    { res := o, text := if isTagDec f then o.staged else o.streamed }
  | 2 => { res := digestResult f (stParam r) b [] [] [] inp, text := inp }
  | 3 => { res := digestResult f (stParam r) b key (strs.take (bNLen b)) (strs.drop (bNLen b)) inp, text := inp }
  | 4 => { res := { staged := merkleLeaf (stParam r) inp }, text := inp }
  | _ => { res := { streamed := inp }, text := inp }

/-- Every stage in order: stage 0 reads the original input, a later one that or the text before it (R204). -/
def stagesRun (s : State) (j : Job) (inp : Bytes) : List Bytes → List Bytes → Bytes → Bool → List StageOut
  | [], _, _, _ => []
  | r :: rs, strs, prev, first =>
    let o := stageRun s j r (strs.headD []) (if first || stSource r == 1 then inp else prev)
    o :: stagesRun s j inp rs strs.tail o.text false

/-- The unit in which a stage's text streams. -/
def stageGrain (r : Bytes) : Nat :=
  if stKind r != 1 then 1 else if isXts (stFunc r) then max 1 (sDuLen (stBlock r)) else if isChaPoly (stFunc r) then 64 else 16

/-- Where the output of each stage goes. -/
def stageFrags (rs : List Bytes) (lists : List (List Bytes)) : List Frags :=
  rs.mapIdx (fun i r => if stFlags r % 2 == 1 then readList (stOutCap r) (lists.getD i []) else { frags := [(stOutRef r, stOutCap r)], sum := stOutCap r })

/-- The highest offset that any stage's streamed text reaches, `n` bytes of it at most. -/
def stagesSent (n : Nat) (outs : List StageOut) (frs : List Frags) : Nat :=
  ((outs.zip frs).map (fun x => min x.1.res.streamed.length (min n x.2.sum))).foldl max 0

/-- A stage's output goes out behind what this execution has streamed of it (R192, R193, R205). -/
def writeStage (j : Job) (fr : List (Nat × Nat)) (streamed staged : Bytes) (s : State) : State :=
  writeFrom (min j.sent streamed.length) j fr (streamed ++ staged) s

/-- Streamed text of every stage goes out, `n` bytes of it at most, the Bouquet having consumed `taken` bytes of its input (R193, R208). -/
def streamStages (j : Job) (n taken : Nat) (outs : List StageOut) (frs : List Frags) (s : State) : State :=
  let s := (outs.zip frs).foldl (fun s x => writeStage j x.2.frags (x.1.res.streamed.take (min n x.2.sum)) [] s) s
  let k := stagesSent n outs frs
  s.onJob j.id (fun j => { j with streamed := max j.streamed k, sent := max j.sent k, taken := max j.taken taken })

/-- A stage has streamed; it has output. -/
def hasStream (o : StageOut) : Bool := !(o.res.streamed.isEmpty)
def hasOutput (o : StageOut) : Bool := !(o.res.streamed.isEmpty && o.res.staged.isEmpty)

/-- A stage whose output write is denied: the one named, or the first that has output (R208). -/
def deniedAt (x : JobRun) (has : StageOut → Bool) (outs : List StageOut) : Option Nat :=
  if !x.denied then none
  else if has (outs.getD x.deniedStage {}) then some x.deniedStage else outs.findIdx? has

/-- What ends a Bouquet that has read its whole input: stage, status, and how much input it had consumed. A stage's own check comes after a
denied write and a breach of an output list, which streams meet on the way (R202); where every output is staged it comes first, since the lists
are read after the job has finished (R188, R208). -/
def bouquetStop (x : JobRun) (n : Nat) (outs : List StageOut) (frs : List Frags) : Option (Nat × Status × Nat) :=
  let staged := outs.all (fun o => o.res.streamed.isEmpty)
  let at_ := if staged then n else min x.progress n
  let list := (frs.findIdx? (fun f => f.bad.isSome)).map (fun i => (i, ((frs.getD i {}).bad).getD .lengthMismatch, at_))
  let denied := (deniedAt x hasOutput outs).map (fun i => (i, Status.translationFault, at_))
  let check := (outs.findIdx? (fun o => o.res.status != .ok)).map (fun i => (i, (outs.getD i {}).res.status, n))
  if staged then check <|> list <|> denied else denied <|> list <|> check

/-- The end of a Bouquet that has read its whole input. -/
def bouquetEnd (j : Job) (x : JobRun) (inp : Bytes) (outs : List StageOut) (frs : List Frags) (s : State) : State :=
  match bouquetStop x inp.length outs frs with
  | some (i, st, n) => endJob st (fun j => stageInline j i) j.id (streamStages j (min x.progress inp.length) n outs frs s)
  | none =>
    let s := (outs.zip frs).foldl (fun s o => writeStage j o.2.frags o.1.res.streamed o.1.res.staged s) s
    okJob j { tag := j.tag, restarted := j.restarted, bytes := inp.length, inline := stageInline j 0xFF } s

/-- The run of a runnable Bouquet (R207, R208): a stage's strings, a part of its stream, a fault, the input, then its end. -/
def bouquetOn (x : JobRun) (j : Job) (s : State) : State :=
  let rs := stages j.block
  let frs := stageFrags rs x.stageLists
  let short := fun (i : Nat) => match x.stageStrings.getD i (some []) with | some b => b.length < stageWant (rs.getD i []) | none => stageWant (rs.getD i []) > 0
  let strs := rs.mapIdx (fun i r => ((x.stageStrings.getD i (some [])).getD []).take (stageWant r))
  match (List.range rs.length).find? short with
  | some i => failJob j (failEntry j .translationFault (stageInline j i)) s
  | none =>
    let (inp, bad) := inputOf j.desc x.input x.inList
    let n := min x.progress inp.length
    let g := (rs.map stageGrain).foldl Nat.lcm 1
    let met := metFault s j x
    let k := beatLimit met n / g * g
    let outs := stagesRun s j (inp.take k) rs strs [] true
    let part := streamStages j k n outs frs s
    if x.more then part
    else match met with
    | some f => jobFault j f (faultUnit j x.deniedStage) part
    | none =>
      match bad with
      | some st =>
        match deniedAt x hasStream outs with
        | some i => endJob .translationFault (fun j => stageInline j i) j.id part
        | none => endJob st wholeInline j.id part
      | none => bouquetEnd j x inp (stagesRun s j inp rs strs [] true) frs s

/-- The run of a Bouquet that a run command names, its stalls on the link noted (R118). -/
def bouquetRun (x : JobRun) (s : State) : State :=
  match runnable (noteStall x.job x.stalled s) 0x3801 x with
  | none => s
  | some j => bouquetOn x j (noteStall x.job x.stalled s)

/-- 0x3801 BOUQUET (R207). -/
def execBouquet (x : JobRun) (s : State) : Host.Outcome State Fault Refusal := .next (bouquetRun x s)

end Sys2Proof.Machine
end

