-- ==== Sys2Proof/Machine/CodeField.lean ====
section
/-!
DEFINITION. Arithmetic that the code-based KEMs share (R311, log 6): binary fields in polynomial basis, polynomials over them, the shortest
linear recurrence of a sequence.
-/
namespace Sys2Proof.Machine

/-- A binary field of 2^m elements, numbers below 2^m, by its modulus with bit m set. -/
structure BinField where
  m : Nat
  modulus : Nat

/-- A product: the bits of `b` from the highest, the accumulator doubled and reduced before each. -/
def BinField.mul (k : BinField) (a b : Nat) : Nat :=
  (List.range k.m).foldr (fun i acc =>
    let d := 2 * acc
    (if d.testBit k.m then d ^^^ k.modulus else d) ^^^ (if b.testBit i then a else 0)) 0

/-- A power of exponent below 2^n. -/
def BinField.powBits (k : BinField) (a e : Nat) : Nat → Nat
  | 0 => 1
  | n + 1 => let h := k.powBits a (e / 2) n; let q := k.mul h h; if e % 2 == 1 then k.mul q a else q

/-- The inverse, 0 for 0. -/
def BinField.inv (k : BinField) (a : Nat) : Nat := k.powBits a (2 ^ k.m - 2) k.m

/-- A polynomial, lowest coefficient first, at a point. -/
def BinField.eval (k : BinField) (p : List Nat) (x : Nat) : Nat := p.foldr (fun c acc => k.mul acc x ^^^ c) 0

/-- Sum, multiple, and the sum with a multiple shifted up by `n`. -/
def coeffAdd : List Nat → List Nat → List Nat
  | [], q => q
  | p, [] => p
  | a :: p, b :: q => (a ^^^ b) :: coeffAdd p q
def BinField.polyScale (k : BinField) (c : Nat) (p : List Nat) : List Nat := p.map (k.mul c)
def coeffShift (n : Nat) (p : List Nat) : List Nat := List.replicate n 0 ++ p

/-- The product of two polynomials. -/
def BinField.polyMul (k : BinField) : List Nat → List Nat → List Nat
  | [], _ => []
  | a :: p, q => coeffAdd (k.polyScale a q) (0 :: k.polyMul p q)

/-- Where the search for the shortest recurrence stands: connection polynomial, the one before its last change with its discrepancy, length,
steps since. -/
structure Recurrence where
  conn : List Nat := [1]
  prev : List Nat := [1]
  disc : Nat := 1
  len : Nat := 0
  gap : Nat := 1

/-- One term of the sequence, after the terms `past`, the latest first (Berlekamp and Massey). -/
def BinField.recur (k : BinField) (n s : Nat) (past : List Nat) (r : Recurrence) : Recurrence :=
  let d := (List.zipWith k.mul ((r.conn.drop 1).take r.len) past).foldl (· ^^^ ·) s
  if d == 0 then { r with gap := r.gap + 1 }
  else
    let c := coeffAdd r.conn (k.polyScale (k.mul d (k.inv r.disc)) (coeffShift r.gap r.prev))
    if 2 * r.len ≤ n then { conn := c, prev := r.conn, disc := d, len := n + 1 - r.len, gap := 1 } else { r with conn := c, gap := r.gap + 1 }

/-- The shortest recurrence of a sequence. -/
def BinField.recurrence (k : BinField) (seq : List Nat) : Recurrence :=
  (seq.foldl (fun (st : Nat × List Nat × Recurrence) s => (st.1 + 1, s :: st.2.1, k.recur st.1 s st.2.1 st.2.2)) (0, [], {})).2.2

/-- The first element that `p` accepts, and the others in order. -/
def takeFirst {α : Type} (p : α → Bool) : List α → Option (α × List α)
  | [] => none
  | a :: r => if p a then some (a, r) else (takeFirst p r).map (fun x => (x.1, a :: x.2))

/-- A number as the bits of a byte string, bit 0 first in the lowest byte. -/
def bitsBytes (n v : Nat) : Bytes := leBytes (ceilDiv n 8) v

end Sys2Proof.Machine
end

