-- ==== Sys2Proof/Machine/Hqc.lean ====
section
/-!
DEFINITION. HQC, round 4 (R310, R311, R314): key generation, encapsulation, decapsulation over the concatenated Reed-Solomon and duplicated
Reed-Muller code. The manual names the specification and does not print it: this is that specification as known outside the manual (PRESUMED,
log 6). A vector is a number, coefficient i in bit i.
-/
namespace Sys2Proof.Machine

/-- A parameter set: length n, Reed-Solomon length, symbols of the message, copies of a Reed-Muller word, and the weights of the secrets and of
the encryption's vectors. -/
structure HqcSet where
  n : Nat
  n1 : Nat
  k : Nat
  copies : Nat
  w : Nat
  wr : Nat

/-- The sets by PARAM_SET (R310). -/
def hqcSet : Nat → Option HqcSet
  | 0x11 => some ⟨17669, 46, 16, 3, 66, 75⟩
  | 0x12 => some ⟨35851, 56, 24, 5, 100, 114⟩
  | 0x13 => some ⟨57637, 90, 32, 5, 131, 149⟩
  | _ => none

/-- Bytes of a vector; bits of a Reed-Muller block and of the whole code word; parity symbols. -/
def HqcSet.bytes (x : HqcSet) : Nat := ceilDiv x.n 8
def HqcSet.block (x : HqcSet) : Nat := 128 * x.copies
def HqcSet.code (x : HqcSet) : Nat := x.n1 * x.block
def HqcSet.checks (x : HqcSet) : Nat := x.n1 - x.k

/-! ### Vectors from a seed -/

/-- Bytes `off` to `off + n` that a seed expands to. -/
def hqcExpand (seed : Bytes) (off n : Nat) : Bytes := (shake256 (seed ++ [2]) (off + n)).drop off

/-- What one draw of `n` bytes takes from the expander: whole words of 8 bytes. -/
def hqcTaken (n : Nat) : Nat := roundUp n 8

/-- The support of a vector of a given weight from 4 bytes for each position: position i is i plus a remainder of n - i, or i itself where a later
position has taken that one. -/
def hqcSupport (n w : Nat) (rnd : Bytes) : List Nat :=
  let raw := (((chunks 4 (rnd.take (4 * w))).map leNat).zipIdx).map (fun r => (r.2, r.2 + r.1 % (n - r.2)))
  raw.foldr (fun r later => (if later.contains r.2 then r.1 else r.2) :: later) []

/-- A vector by its support. -/
def hqcVector (s : List Nat) : Nat := s.foldl (fun v i => v ^^^ 2 ^ i) 0

/-- A product of a vector by one of a given support, modulo x^n - 1. -/
def HqcSet.mul (x : HqcSet) (s : List Nat) (v : Nat) : Nat :=
  let p := s.foldl (fun a i => a ^^^ v * 2 ^ i) 0
  p % 2 ^ x.n ^^^ p / 2 ^ x.n

/-! ### The code -/

/-- The field of the Reed-Solomon code, and powers of its generator. -/
def hqcField : BinField := ⟨8, 0x11D⟩
def hqcPow (e : Nat) : Nat := hqcField.powBits 2 (e % 255) 8

/-- The Reed-Solomon generator: roots α to α^(n1 - k). -/
def HqcSet.generator (x : HqcSet) : List Nat := (List.range x.checks).foldl (fun g i => hqcField.polyMul [hqcPow (i + 1), 1] g) [1]

/-- One symbol, the highest first, shifted into the remainder. -/
def hqcDivide (g : List Nat) (rem : List Nat) (c : Nat) : List Nat :=
  let top := c ^^^ rem.getLastD 0
  List.zipWith (· ^^^ ·) (0 :: rem.dropLast) (hqcField.polyScale top g)

/-- The systematic code word: parity symbols, then the message. -/
def HqcSet.rsEncode (x : HqcSet) (m : List Nat) : List Nat :=
  m.reverse.foldl (hqcDivide x.generator) (List.replicate x.checks 0) ++ m

/-- A symbol as a first-order Reed-Muller word of 128 bits: bit i is the symbol's bit 7 with the bits that i selects. -/
def hqcRmWord (c : Nat) : Nat :=
  ((List.range 128).map (fun i => bitAt (((List.range 7).foldl (fun b j => b != (c.testBit j && i.testBit j)) (c.testBit 7))) i)).sum

/-- The whole word: each symbol's Reed-Muller word, copied. -/
def HqcSet.encode (x : HqcSet) (m : Bytes) : Nat :=
  let word := fun (c : Nat) => let r := hqcRmWord c; (List.range x.copies).foldl (fun a _ => a * 2 ^ 128 + r) 0
  ((x.rsEncode (m.map (fun b => b.toNat))).map word).foldr (fun w a => a * 2 ^ x.block + w) 0

/-- One layer of the Hadamard transform: sums, then differences, of neighbours. -/
def hadamardStep (l : List Int) : List Int :=
  let ev := (l.zipIdx.filter (fun a => a.2 % 2 == 0)).map (fun a => a.1)
  let od := (l.zipIdx.filter (fun a => a.2 % 2 == 1)).map (fun a => a.1)
  List.zipWith (· + ·) ev od ++ List.zipWith (· - ·) ev od

/-- The symbol nearest to a received block: the place of the largest coefficient, with bit 7 set where it is positive. -/
def HqcSet.rmDecode (x : HqcSet) (w : Nat) : Nat :=
  let count := fun (i : Nat) => ((List.range x.copies).map (fun (c : Nat) => (if w.testBit (128 * c + i) then (1 : Int) else 0))).sum
  let h := (List.range 7).foldl (fun l _ => hadamardStep l) ((List.range 128).map count)
  let h := modAt h 0 (fun a => a - 64 * x.copies)
  let best := h.zipIdx.foldl (fun (b : Int × Nat) a => if a.1.natAbs > b.1.natAbs then a else b) (0, 0)
  best.2 + bitAt (0 < best.1) 7

/-- The Reed-Solomon word corrected: locator, then each error's value (Forney); the message symbols. -/
def HqcSet.rsDecode (x : HqcSet) (c : List Nat) : List Nat :=
  let f := hqcField
  let syn := (List.range x.checks).map (fun i => f.eval c (hqcPow (i + 1)))
  let loc := (f.recurrence syn).conn
  let value := (f.polyMul syn loc).take x.checks
  let slope := (loc.zipIdx.drop 1).map (fun a => if a.2 % 2 == 1 then a.1 else 0)
  let fix := fun (a : Nat × Nat) =>
    let inv := hqcPow (255 - a.2 % 255)
    if f.eval loc inv == 0 then a.1 ^^^ f.mul (f.eval value inv) (f.inv (f.eval slope inv)) else a.1
  (c.zipIdx.map fix).drop x.checks

/-- The message of a received word. -/
def HqcSet.decode (x : HqcSet) (v : Nat) : Bytes :=
  (x.rsDecode ((List.range x.n1).map (fun i => x.rmDecode (v / 2 ^ (x.block * i) % 2 ^ x.block)))).map byteOf

/-! ### The scheme -/

/-- The supports of two secret vectors from a secret seed. -/
def HqcSet.secrets (x : HqcSet) (seed : Bytes) : List Nat × List Nat :=
  let e := hqcExpand seed 0 (2 * hqcTaken (4 * x.w))
  (hqcSupport x.n x.w e, hqcSupport x.n x.w (e.drop (hqcTaken (4 * x.w))))

/-- The public vector h of a public seed. -/
def HqcSet.publicH (x : HqcSet) (seed : Bytes) : Nat := leNat (hqcExpand seed 0 x.bytes) % 2 ^ x.n

/-- A key pair from a secret seed, the rejection secret and a public seed. -/
def hqcKeyGen (ps : Nat) (rnd : Bytes) : Bytes × Bytes :=
  match hqcSet ps with
  | none => ([], [])
  | some x =>
    let sks := rnd.take 40
    let sigma := sliceOf rnd 40 x.k
    let pks := sliceOf rnd (40 + x.k) 40
    let xy := x.secrets sks
    let s := hqcVector xy.1 ^^^ x.mul xy.2 (x.publicH pks)
    let pk := pks ++ leBytes x.bytes s
    (pk, sks ++ sigma ++ pk)

/-- Bytes of randomness that a key pair and an encapsulation take. -/
def hqcKeyRandom (ps : Nat) : Nat := ((hqcSet ps).map (fun x => 80 + x.k)).getD 0
def hqcRandom (ps : Nat) : Nat := ((hqcSet ps).map (fun x => x.k + 16)).getD 0

/-- The seed of an encryption, from message, key and salt. -/
def hqcTheta (m pk salt : Bytes) : Bytes := shake256 (m ++ pk.take 32 ++ salt ++ [3]) 64

/-- An encryption of a message: u and v, as bytes. -/
def HqcSet.encrypt (x : HqcSet) (pk m theta : Bytes) : Bytes × Bytes :=
  let one := hqcTaken (4 * x.wr)
  let e := hqcExpand (theta.take 40) 0 (3 * one)
  let r1 := hqcSupport x.n x.wr e
  let r2 := hqcSupport x.n x.wr (e.drop one)
  let er := hqcSupport x.n x.wr (e.drop (2 * one))
  let s := leNat (sliceOf pk 40 x.bytes) % 2 ^ x.n
  let u := hqcVector r1 ^^^ x.mul r2 (x.publicH (pk.take 40))
  let v := x.encode m ^^^ (x.mul r2 s ^^^ hqcVector er) % 2 ^ x.code
  (leBytes x.bytes u, leBytes (x.code / 8) v)

/-- The session key of a message, or of the rejection secret, with u and v. -/
def hqcSession (m uv : Bytes) : Bytes := shake256 (m ++ uv ++ [5]) 64

/-- Encapsulation with a message and a salt: ciphertext and session key. -/
def hqcEncaps (ps : Nat) (pk rnd : Bytes) : Bytes × Bytes :=
  match hqcSet ps with
  | none => ([], [])
  | some x =>
    let m := rnd.take x.k
    let salt := sliceOf rnd x.k 16
    let c := x.encrypt pk m (hqcTheta m pk salt)
    (c.1 ++ c.2 ++ salt, hqcSession m (c.1 ++ c.2))

/-- Decapsulation: the session key, and whether it is that of the rejection secret (R314). -/
def hqcDecaps (ps : Nat) (sk ct : Bytes) : Bytes × Bool :=
  match hqcSet ps with
  | none => ([], true)
  | some x =>
    let pk := sk.drop (40 + x.k)
    let u := ct.take x.bytes
    let v := sliceOf ct x.bytes (x.code / 8)
    let salt := ct.drop (x.bytes + x.code / 8)
    let y := (x.secrets (sk.take 40)).2
    let m := x.decode (leNat v ^^^ x.mul y (leNat u % 2 ^ x.n) % 2 ^ x.code)
    let c := x.encrypt pk m (hqcTheta m pk salt)
    if c.1 == u && c.2 == v then (hqcSession m (u ++ v), false) else (hqcSession (sliceOf sk 40 x.k) (u ++ v), true)

end Sys2Proof.Machine
end

