-- ==== Sys2Proof/Machine/McEliece.lean ====
section
/-!
DEFINITION. Classic McEliece, round 4 (R310, R311, R314, R320): key generation from a seed, encapsulation of an error vector, decapsulation. The
manual names the specification and does not print it: this is that specification as known outside the manual (PRESUMED, log 6).
-/
namespace Sys2Proof.Machine

/-! ### Parameters (R310) -/

/-- A parameter set: field, length, errors, the reduction of y^t (exponents with a coefficient below each), and whether it is an f set. -/
structure McSet where
  k : BinField
  n : Nat
  t : Nat
  red : List (Nat × Nat)
  f : Bool

/-- The sets by PARAM_SET; an f set shares the rest with its base set. -/
def mcSet (ps : Nat) : Option McSet :=
  let f12 : BinField := ⟨12, 0x1009⟩
  let f13 : BinField := ⟨13, 0x201B⟩
  let f := ps % 2 == 0
  match (ps + 1) / 2 with
  | 1 => some ⟨f12, 3488, 64, [(3, 1), (1, 1), (0, 2)], f⟩
  | 2 => some ⟨f13, 4608, 96, [(10, 1), (9, 1), (6, 1), (0, 1)], f⟩
  | 3 => some ⟨f13, 6688, 128, [(7, 1), (2, 1), (1, 1), (0, 1)], f⟩
  | 4 => some ⟨f13, 6960, 119, [(8, 1), (0, 1)], f⟩
  | 5 => some ⟨f13, 8192, 128, [(7, 1), (2, 1), (1, 1), (0, 1)], f⟩
  | _ => none

/-- Elements of the field, and parity bits m t. -/
def McSet.q (x : McSet) : Nat := 2 ^ x.k.m
def McSet.parity (x : McSet) : Nat := x.k.m * x.t

/-! ### The Goppa polynomial -/

/-- An element of the extension, `t` coefficients, times y. -/
def McSet.timesY (x : McSet) (a : List Nat) : List Nat :=
  let top := a.getLastD 0
  x.red.foldl (fun p r => modAt p r.1 (fun c => c ^^^ x.k.mul r.2 top)) ((0 :: a).take x.t)

/-- A product in the extension. -/
def McSet.extMul (x : McSet) (a : List Nat) : List Nat → List Nat
  | [] => List.replicate x.t 0
  | b :: r => coeffAdd (x.k.polyScale b a) (x.extMul (x.timesY a) r)

/-- The powers of an element from `a` on, `n` of them. -/
def McSet.powers (x : McSet) (b : List Nat) : Nat → List Nat → List (List Nat)
  | 0, _ => []
  | n + 1, a => a :: x.powers b n (x.extMul b a)

/-- A square system with its right-hand side solved by elimination of the leading column; nothing where it is singular. -/
def BinField.solve (k : BinField) : Nat → List (List Nat) → List (List Nat) → Option (List Nat)
  | 0, ready, _ => some (ready.map (fun r => r.headD 0))
  | n + 1, ready, rest =>
    (takeFirst (fun r => r.headD 0 != 0) rest).bind (fun (p, others) =>
      let pivot := k.polyScale (k.inv (p.headD 0)) (p.drop 1)
      let clear := fun (r : List Nat) => coeffAdd (r.drop 1) (k.polyScale (r.headD 0) pivot)
      k.solve n (ready.map clear ++ [pivot]) (others.map clear))

/-- The minimal polynomial of a random element, where it has degree t: its t lower coefficients. -/
def McSet.goppa (x : McSet) (b : List Nat) : Option (List Nat) :=
  let ps := x.powers b (x.t + 1) (1 :: List.replicate (x.t - 1) 0)
  x.k.solve x.t [] ((List.range x.t).map (fun i => ps.map (fun p => p.getD i 0)))

/-! ### The support -/

/-- Bits 0 to m - 1 in reverse order. -/
def McSet.mirror (x : McSet) (v : Nat) : Nat := ((List.range x.k.m).map (fun i => bitAt (v.testBit i) (x.k.m - 1 - i))).sum

/-- The order of random 32-bit numbers, as the permutation it makes; nothing where two agree. -/
def McSet.order (x : McSet) (e : Bytes) : Option (List Nat) :=
  let a := ((chunks 4 (e.take (4 * x.q))).map leNat).zipIdx.mergeSort (fun u v => u.1 < v.1 || (u.1 == v.1 && u.2 ≤ v.2))
  if (List.zipWith (fun u v => u.1 == v.1) a (a.drop 1)).any id then none else some (a.map (fun u => u.2))

/-- Values put in the order of their keys: the values after the inverse of the keys. -/
def byKey (vals keys : List Nat) : List Nat := ((keys.zip vals).mergeSort (fun u v => u.1 ≤ v.1)).map (fun u => u.2)

/-- Two lists of equal length, element by element in turn. -/
def interleave : List Nat → List Nat → List Nat
  | a :: r, b :: s => a :: b :: interleave r s
  | _, _ => []

/-- The even, or the odd, places of a list. -/
def everySecond (odd : Bool) (l : List Nat) : List Nat := (l.zipIdx.filter (fun x => x.2 % 2 == bitAt odd 0)).map (fun x => x.1)

/-- The control bits of a Beneš network for a permutation of 2^m places. -/
def controlBits : Nat → List Nat → List Nat
  | 0, _ => []
  | 1, pi => [pi.headD 0]
  | m + 2, pi =>
    let n := pi.length
    let idx := List.range n
    let at_ := fun (l : List Nat) => let a := l.toArray; fun i => a.getD i 0
    let p0 := (idx.map (fun i => at_ pi (i ^^^ 1)))
    let q0 := pi.map (· ^^^ 1)
    let inv := byKey idx pi
    let p1 := byKey p0 q0
    let q1 := byKey q0 p0
    let c0 := List.zipWith min idx p1
    let step := fun (st : List Nat × List Nat × List Nat) (_ : Nat) =>
      let cp := byKey st.1 st.2.2
      (List.zipWith min st.1 cp, byKey st.2.1 st.2.2, byKey st.2.2 st.2.1)
    let c := ((List.range m).foldl step (c0, byKey p1 q1, byKey q1 p1)).1
    let f := (everySecond false c).map (· % 2)
    let fs := List.zipWith (· ^^^ ·) idx (interleave f f)
    let fpi := byKey fs inv
    let l := (everySecond false fpi).map (· % 2)
    let ls := List.zipWith (· ^^^ ·) idx (interleave l l)
    let mm := ls.map (at_ fpi)
    let z := interleave (controlBits (m + 1) ((everySecond false mm).map (· / 2))) (controlBits (m + 1) ((everySecond true mm).map (· / 2)))
    f ++ z ++ l

/-- Pairs of two halves exchanged where their bit is set. -/
def exchange : List Nat → List Nat → List Nat → List Nat × List Nat
  | a :: x, b :: y, c :: r => let t := exchange x y r; if c == 1 then (b :: t.1, a :: t.2) else (a :: t.1, b :: t.2)
  | _, _, _ => ([], [])

/-- One layer of the network, of distance `gap`. -/
def benesLayer (gap : Nat) : Nat → List Nat → List Nat → List Nat
  | 0, l, _ => l
  | n + 1, l, bits =>
    if l.isEmpty then []
    else
      let e := exchange (l.take gap) ((l.drop gap).take gap) (bits.take gap)
      e.1 ++ e.2 ++ benesLayer gap n (l.drop (2 * gap)) (bits.drop gap)

/-- The whole network of 2 m - 1 layers over a list of 2^m elements. -/
def benes (m : Nat) (bits l : List Nat) : List Nat :=
  (List.range (2 * m - 1)).foldl (fun l i =>
    let half := 2 ^ (m - 1)
    benesLayer (2 ^ min i (2 * m - 2 - i)) half l ((bits.drop (i * half)).take half)) l

/-! ### The public matrix -/

/-- The parity-check matrix as rows of bits, column j in bit j: row m i + b holds bit b of α_j^i / g(α_j). -/
def McSet.rows (x : McSet) (g alpha : List Nat) : List Nat :=
  let cols := (alpha.take x.n).map (fun a => (a, x.k.inv (x.k.eval (g ++ [1]) a)))
  let go := fun (cs : List (Nat × Nat)) =>
    (List.range x.k.m).map (fun b => (cs.map (fun c => c.2.testBit b)).foldr (fun t acc => 2 * acc + bitAt t 0) 0)
  ((List.range x.t).foldl (fun (st : List Nat × List (Nat × Nat)) _ => (st.1 ++ go st.2, st.2.map (fun c => (c.1, x.k.mul c.1 c.2)))) ([], cols)).1

/-- Row reduction: step i takes the first of its candidate columns in which a remaining row has a 1. The reduced rows and the columns taken;
nothing where a step finds none. -/
def McSet.reduce (x : McSet) : Nat → List Nat → List Nat → List Nat → Option (List Nat × List Nat)
  | 0, ready, _, taken => some (ready, taken)
  | n + 1, ready, rest, taken =>
    let i := taken.length
    let wide := x.f && i + 32 ≥ x.parity
    let from_ := if wide then max (x.parity - 32) ((taken.getLastD 0) + 1) else i
    let cand := if wide then (List.range (x.parity + 32 - from_)).map (· + from_) else [i]
    (cand.findSome? (fun c => (takeFirst (fun (r : Nat) => r.testBit c) rest).map (fun t => (c, t)))).bind (fun (c, p, others) =>
      let clear := fun (r : Nat) => if r.testBit c then r ^^^ p else r
      x.reduce n (ready.map clear ++ [p]) (others.map clear) (taken ++ [c]))

/-- Bits `a` and `b` of a number exchanged. -/
def swapBits (a b v : Nat) : Nat := if v.testBit a == v.testBit b then v else v ^^^ 2 ^ a ^^^ 2 ^ b
/-- Places `a` and `b` of a list exchanged. -/
def swapAt (a b : Nat) (l : List Nat) : List Nat := modAt (modAt l a (fun _ => l.getD b 0)) b (fun _ => l.getD a 0)

/-! ### Keys -/

/-- One attempt of key generation from a seed of 32 bytes (R320): public key and private key. -/
def mcelieceKeyGen (ps : Nat) (seed : Bytes) : Option (Bytes × Bytes) :=
  (mcSet ps).bind (fun x =>
    let e := shake256 (64 :: seed) (x.n / 8 + 4 * x.q + 2 * x.t + 32)
    let beta := (chunks 2 (sliceOf e (x.n / 8 + 4 * x.q) (2 * x.t))).map (fun b => leNat b % x.q)
    (x.order (e.drop (x.n / 8))).bind (fun pi =>
      (x.goppa beta).bind (fun g =>
        (x.reduce x.parity [] (x.rows g (pi.map x.mirror)) []).map (fun (rows, taken) =>
          let moves := (taken.zipIdx.filter (fun c => c.1 != c.2)).map (fun c => (c.2, c.1))
          let rows := rows.map (fun r => moves.foldl (fun r w => swapBits w.1 w.2 r) r)
          let pi := moves.foldl (fun l w => swapAt w.1 w.2 l) pi
          let pivots := if x.f then ((taken.drop (x.parity - 32)).map (fun c => 2 ^ (c - (x.parity - 32)))).sum else 2 ^ 32 - 1
          let pk := rows.flatMap (fun r => bitsBytes (x.n - x.parity) (r / 2 ^ x.parity))
          let ctl := controlBits x.k.m pi
          (pk, seed ++ leBytes 8 pivots ++ g.flatMap (leBytes 2) ++ (chunks 8 (ctl.map byteOf)).map (fun o => byteOf ((o.zipIdx.map (fun b => b.1.toNat * 2 ^ b.2)).sum)) ++
            e.take (x.n / 8))))))

/-! ### Encapsulation and decapsulation -/

/-- The hash of a session key: 1, or 0 for the implicit rejection, with the vector and the ciphertext. -/
def mcHash (b : Byte) (v c : Bytes) : Bytes := shake256 (b :: (v ++ c)) 32

/-- How many candidate positions an attempt at a random error vector draws, 2 bytes each. -/
def McSet.draws (x : McSet) : Nat := if x.n == x.q then x.t else 2 * x.t

/-- An error vector of weight t from random bytes; nothing where too few candidates lie below n or two agree. -/
def McSet.errors (x : McSet) (rnd : Bytes) : Option Nat :=
  let a := (((chunks 2 rnd).map (fun b => leNat b % x.q)).filter (· < x.n)).take x.t
  if a.length < x.t || a.eraseDups.length < x.t then none else some ((a.map (fun i => 2 ^ i)).sum)

/-- The parity of a number's bits below `n`. -/
def parityOf (n v : Nat) : Nat := ((List.range n).foldl (fun a i => a + bitAt (v.testBit i) 0) 0) % 2

/-- The syndrome of an error vector under a public key, m t bits. -/
def McSet.encode (x : McSet) (pk : Bytes) (e : Nat) : Bytes :=
  let w := x.n - x.parity
  let rows := (chunks (ceilDiv w 8) pk).map leNat
  bitsBytes x.parity ((rows.zipIdx.map (fun r => bitAt (parityOf w (r.1 &&& (e / 2 ^ x.parity)) == 1) r.2)).sum ^^^ e % 2 ^ x.parity)

/-- The encapsulation of an error vector: ciphertext and session key. -/
def McSet.encapsOf (x : McSet) (pk : Bytes) (e : Nat) : Bytes × Bytes :=
  let c := x.encode pk e
  (c, mcHash 1 (bitsBytes x.n e) c)

/-- The 2 t power sums of a received vector over the squared Goppa polynomial, from a vector's points with their weights. -/
def McSet.sums (x : McSet) (pts : List (Nat × Nat)) : List Nat :=
  ((List.range (2 * x.t)).foldl (fun (st : List Nat × List (Nat × Nat)) _ =>
    (st.1 ++ [(st.2.map (fun p => p.2)).foldl (· ^^^ ·) 0], st.2.map (fun p => (p.1, x.k.mul p.1 p.2)))) ([], pts)).1

/-- The points of a support with the weight 1 / g(α)², those where a vector has a 1. -/
def McSet.points (x : McSet) (g alpha : List Nat) (v : Nat) : List (Nat × Nat) :=
  (alpha.zipIdx.filter (fun a => v.testBit a.2)).map (fun a => let w := x.k.inv (x.k.eval (g ++ [1]) a.1); (a.1, x.k.mul w w))

/-- The error vector of weight t with a given syndrome, if there is one. -/
def McSet.decode (x : McSet) (g alpha : List Nat) (c : Bytes) : Option Nat :=
  let s := x.sums (x.points g alpha (leNat c))
  let conn := (x.k.recurrence s).conn
  let loc := ((conn ++ List.replicate (x.t + 1) 0).take (x.t + 1)).reverse
  let e := ((alpha.zipIdx.filter (fun a => x.k.eval loc a.1 == 0)).map (fun a => 2 ^ a.2))
  if e.length == x.t && x.sums (x.points g alpha e.sum) == s then some e.sum else none

/-- Decapsulation: the session key, and whether it is the implicit-rejection key H(0, s, C) (R314). -/
def mcelieceDecaps (ps : Nat) (sk ct : Bytes) : Bytes × Bool :=
  match mcSet ps with
  | none => ([], true)
  | some x =>
    let g := (chunks 2 (sliceOf sk 40 (2 * x.t))).map leNat
    let ctl := sliceOf sk (40 + 2 * x.t) ((2 * x.k.m - 1) * 2 ^ (x.k.m - 4))
    let bits := ctl.flatMap (fun b => (List.range 8).map (fun i => bitAt (b.toNat.testBit i) 0))
    let alpha := (benes x.k.m bits ((List.range x.q).map x.mirror)).take x.n
    let pad := leNat ct / 2 ^ x.parity != 0
    match (if pad then none else x.decode g alpha ct) with
    | some e => (mcHash 1 (bitsBytes x.n e) ct, false)
    | none => (mcHash 0 (sk.drop (sk.length - x.n / 8)) ct, true)

end Sys2Proof.Machine
end

