-- ==== Sys2Proof/Machine/CodeJobs.lean ====
section
/-!
DEFINITION. The jobs of Classic McEliece and HQC (R310 to R316, R320, R321) and the capsule jobs (R322 to R327). The codes
themselves are McEliece.lean and Hqc.lean (log 6).
-/
namespace Sys2Proof.Machine

/-! ### Code-based KEMs -/

/-- A padding bit of pk is 1 (R314): the 3 high bits closing each 677-byte row of the 6960119 sets; the 3 high bits of HQC's last byte. -/
def codePkPadded (ps : Nat) (pk : Bytes) : Bool :=
  let high := fun (b : Byte) => b.toNat ≥ 32
  if ps == 7 || ps == 8 then (chunks 677 pk).any (fun r => high (r.getD 676 0))
  else if ps ≥ 0x11 then high (pk.getLastD 0) else false

/-- A random error vector, drawn again while an attempt fails: an attempt succeeds more often than not, and 1,024 of them are tried. -/
def mcErrors (x : McSet) : Nat → State → Nat × State
  | 0, s => (0, s)
  | n + 1, s =>
    let r := drawBytes (2 * x.draws) s
    match x.errors r.1 with
    | some e => (e, r.2)
    | none => mcErrors x n r.2

/-- Ciphertext and shared secret of one encapsulation with fresh randomness (R311, R312). -/
def codeEncaps (ps : Nat) (pk : Bytes) (s : State) : (Bytes × Bytes) × State :=
  match mcSet ps with
  | some x => let e := mcErrors x 1024 s; (x.encapsOf pk e.1, e.2)
  | none => let r := drawBytes (hqcRandom ps) s; (hqcEncaps ps pk r.1, r.2)

/-- The shared secret of one decapsulation, and whether it is the implicit-rejection key, as it is for a ciphertext with a padding bit set
(R314). -/
def codeDecaps (ps : Nat) (sk ct : Bytes) : Bytes × Bool := if (mcSet ps).isSome then mcelieceDecaps ps sk ct else hqcDecaps ps sk ct

/-- ENCAPS (R312, R314). -/
def svcCodeEncaps (j : Job) (inp : Bytes) (s : State) : Result × State :=
  let ps := dParam j.desc
  let own := hType (dKey j.desc) == 0
  let pk := if own then inp else keyBytes s j (dKey j.desc)
  let e := codeEncaps ps pk s
  if own && codePkPadded ps pk then (rejected, e.2) else ({ staged := e.1.1 ++ e.1.2 }, e.2)

/-- DECAPS (R312, R314, R315). -/
def svcCodeDecaps (j : Job) (inp : Bytes) (s : State) : Result × State :=
  let r := codeDecaps (dParam j.desc) (keyBytes s j (dKey j.desc)) inp
  ({ staged := r.1, implicit := r.2 }, s)

/-- LOAD_PUBLIC (R313, R314): a PUBLIC slot with policy ENCAPS. -/
def svcLoadPublic (j : Job) (inp : Bytes) (s : State) : Result × State :=
  let ps := dParam j.desc
  if codePkPadded ps inp then (rejected, s)
  else
    let i := drawKeyId s
    ({ key := some { ktype := 0x28, param := ps, policy := 0x10, keyId := i.1, material := inp } }, i.2)

/-- 0x1401 ENCAPS. -/
def execCodeEncaps (x : JobRun) (s : State) : Host.Outcome State Fault Refusal := .next (runPlain 0x1401 svcCodeEncaps x s)

/-- 0x1402 DECAPS. -/
def execCodeDecaps (x : JobRun) (s : State) : Host.Outcome State Fault Refusal := .next (runPlain 0x1402 svcCodeDecaps x s)

/-- 0x1403 LOAD_PUBLIC. -/
def execLoadPublic (x : JobRun) (s : State) : Host.Outcome State Fault Refusal := .next (runPlain 0x1403 svcLoadPublic x s)

/-! ### Key pairs (R320, R321) -/

/-- The first of `n` attempts that succeeds, each with a fresh seed (R320). -/
def mcelieceAttempts (ps : Nat) : Nat → State → Option (Bytes × Bytes) × State
  | 0, s => (none, s)
  | n + 1, s =>
    let r := drawBytes 32 s
    match mcelieceKeyGen ps r.1 with
    | some k => (some k, r.2)
    | none => mcelieceAttempts ps n r.2

/-- A code-based key pair: 8 attempts of Classic McEliece for a token, then the pairwise test (R279, R320, R321). -/
def pairCode (j : Job) (ps : Nat) (s : State) : NewPair × State :=
  match codeSizes ps with
  | none => ({ stop := some rejected }, s)
  | some _ =>
    let r := if (mcSet ps).isSome then mcelieceAttempts ps 8 s else (let d := drawBytes (hqcKeyRandom ps) s; (some (hqcKeyGen ps d.1), d.2))
    match r.1 with
    | none => ({ stop := some { overrun := some ([], j.round + 8) } }, r.2)
    | some k =>
      let e := codeEncaps ps k.1 r.2
      ({ pk := k.1, sk := k.2, stop := if (codeDecaps ps k.2 e.1.1).1 == e.1.2 then none else some { faulty := true } }, e.2)

/-! ### Capsules (R322 to R327) -/

/-- The key-encryption key (R325). -/
def capKek (ps : Nat) (blk kCm kMl ctCm ctMl : Bytes) : Bytes :=
  kmac256 (kCm ++ kMl) (byteOf (capMode ps) :: (leBytes 3 ps ++ [byteOf (cObjType blk), byteOf (cLabelLen blk)] ++ cLabel blk ++ ctCm ++ ctMl)) 32
    (ascii "YQ9 CAPSULE")

/-- The capsule of an object key: the encapsulations of its mode and the wrapped key, or none for a rejected ek (R325, R326). -/
def capWrap (j : Job) (inp obj : Bytes) (s : State) : Option Bytes × State :=
  let ps := dParam j.desc
  let c := if capMode ps == 2 then (([], []), s) else codeEncaps (capCm ps) (keyBytes s j (dKey j.desc)) s
  let cm := c.1
  let r := drawBytes 32 c.2
  if capMode ps != 1 && !(mlKemEkOk (capMl ps) inp) then (none, r.2)
  else
    let ml := if capMode ps == 1 then ([], []) else mlKemEncaps (capMl ps) inp r.1
    (some (cm.1 ++ ml.2 ++ kwWrap (capKek ps j.block cm.2 ml.1 cm.1 ml.2) obj), r.2)

/-- SEAL: a fresh object key in a new slot (R326, R355). -/
def svcSeal (j : Job) (inp : Bytes) (s : State) : Result × State :=
  let b := j.block
  let o := drawBytes (objKeyLen (cObjType b)) s
  let m := unequal (cObjType b) o.1
  let i := drawKeyId o.2
  match capWrap j inp m i.2 with
  | (some c, s) => ({ staged := c, key := some { ktype := cObjType b, policy := BitVec.ofNat 32 (cPolicy b), keyId := i.1, material := m } }, s)
  | (none, s) => (rejected, s)

/-- RESEAL: the object key of OBJ_KEY (R326). -/
def svcReseal (j : Job) (inp : Bytes) (s : State) : Result × State :=
  match capWrap j inp (keyBytes s j (cObjKey j.block)) s with
  | (some c, s) => ({ staged := c }, s)
  | (none, s) => (rejected, s)

/-- OPEN: every decapsulation, the KDF and the unwrap, then the ICV; an XTS key with equal halves fits no slot, so it counts as a mismatch
(R327, R355; DESIGN CHOICE, log 39). -/
def svcOpen (j : Job) (inp : Bytes) (s : State) : Result × State :=
  let ps := dParam j.desc
  let b := j.block
  let (lc, lm) := capCtLens ps
  let ctCm := inp.take lc
  let ctMl := sliceOf inp lc lm
  let kCm := if capMode ps == 2 then [] else (codeDecaps (capCm ps) (keyBytes s j (dKey j.desc)) ctCm).1
  let dk := keyBytes s j (if capMode ps == 3 then cSecond b else dKey j.desc)
  if capMode ps != 1 && !(mlKemDkOk (capMl ps) dk) then (rejected, s)
  else
    let kMl := if capMode ps == 1 then [] else (mlKemDecaps (capMl ps) dk ctMl).1
    let u := kwUnwrap (capKek ps b kCm kMl ctCm ctMl) (inp.drop (lc + lm))
    if u.2 && !(xtsEqual (cObjType b) u.1) then
      let i := drawKeyId s
      ({ key := some { ktype := cObjType b, policy := BitVec.ofNat 32 (cPolicy b), keyId := i.1, material := u.1 } }, i.2)
    else (verdict false, s)

/-- 0x1501 SEAL. -/
def execSeal (x : JobRun) (s : State) : Host.Outcome State Fault Refusal := .next (runPlain 0x1501 svcSeal x s)

/-- 0x1502 RESEAL. -/
def execReseal (x : JobRun) (s : State) : Host.Outcome State Fault Refusal := .next (runPlain 0x1502 svcReseal x s)

/-- 0x1503 OPEN. -/
def execOpen (x : JobRun) (s : State) : Host.Outcome State Fault Refusal := .next (runPlain 0x1503 svcOpen x s)

end Sys2Proof.Machine
end

