-- ==== Sys2Proof/Machine/Resets.lean ====
section
/-!
DEFINITION. Resets of functions and slices: FLR, in-band resets, power states, VF Enable, and their completion (R114, R121, R128, R141 to R144,
R428, R431, R435).
-/
namespace Sys2Proof.Machine

/-! ### What a reset destroys (R143, R372) -/

/-- Every working key of some domains is erased with the effect of FORCE, and every context of them destroyed (R143, R372). A slot
reserved for a job that still makes its key holds none. -/
def wipeDomains (p : Nat → Bool) (s : State) : State :=
  let ids := (s.slots.filter (fun x => x.st != .free && x.ktype != 0 && p x.domain)).map (fun x => x.idx)
  let s := ids.foldl (fun s i => (eraseSlot true i s).2.2) s
  { s with ctxs := s.ctxs.map (fun (c : Ctx) => if (c.live || c.busy) && p c.domain then killCtx c else c) }

/-- The jobs of a function end with no completion (R143). -/
def dropJobs (f : Fn) (s : State) : State := ((s.jobs.filter (fun (j : Job) => j.fn == f)).map (fun j => j.id)).foldl (fun s i => dropJob i s) s

/-- A function at reset values, its configuration space kept (R143). -/
def resetPage (x : FnState) : FnState :=
  { fn := x.fn, resetting := true, d3 := x.d3, busMaster := x.busMaster, memSpace := x.memSpace, atsEnable := x.atsEnable,
    msixEnable := x.msixEnable, fnMask := x.fnMask, unmasked := x.unmasked, pba := x.pba, msixTable := x.msixTable, cfg := x.cfg }

/-- Waiting commands of a function that resets are gone, but a SLICE_DESTROY under way goes on; QUIESCE of it completes with
ABORTED_HOST (R144). -/
def resetWaits (f : Fn) (s : State) : State :=
  let aborted := s.waits.filter (fun (w : AdminWait) => w.kind == .quiesce && w.target == f && w.fn != f)
  let keep := fun (w : AdminWait) => !(w.kind == .quiesce && w.target == f) && (w.fn != f || w.kind == .sliceDestroy)
  let own := fun (w : AdminWait) => if w.fn == f then { w with fn := w.target } else w
  aborted.foldl (fun s w => adminDone w.fn w.tag .abortedHost [] s) { s with waits := (s.waits.filter keep).map own }

/-- One function or slice resets (R143, R435); its keys are erased by its domain apart. -/
def resetOne (f : Fn) (s : State) : State :=
  match s.fn? f with
  | none => s
  | some x =>
    let s := dropJobs f s
    let s := { s with sqs := s.sqs.filter (fun q => q.fn != f), cqs := s.cqs.filter (fun q => q.fn != f),
                      jobs := s.jobs.filter (fun (j : Job) => j.fn != f) }
    let s := resetWaits f s
    let s := if x.mbx.inPend && s.mgr.enable then signal .pf0 s.mgr.vector s else s
    let s := if f == .pf0 then { s with mgr := {} } else s
    s.onFn f resetPage

/-- A VF or slice resets with its domain (R143); a VF that merely enumerates holds none (R121, R428). -/
def resetInstance (f : Fn) (s : State) : State :=
  match s.fn? f with
  | some x => if x.resetting then s else wipeDomains (fun y => domainOf s f == some y) (resetOne f s)
  | none => s

/-- The VFs of PF0, by number. -/
def vfsOf (s : State) : List Nat := s.fns.filterMap (fun x => match x.fn with | .vf n => some n | _ => none)

/-- VF Enable clears: every VF resets and stops responding (R428). -/
def vfsGone (s : State) : State :=
  let s := (vfsOf s).foldl (fun s n => resetInstance (.vf n) s) s
  { s with fns := s.fns.filter (fun x => match x.fn with | .vf _ => false | _ => true), link := { s.link with vfEnable := false } }

/-- FLR of PF0 (R142, R143): it and its VFs; the domains of slices are kept. -/
def resetPf0 (s : State) : State :=
  if (s.fnOf .pf0).resetting then s
  else
    let s := resetOne .pf0 (vfsGone s)
    wipeDomains (fun d => !(s.slices.any (fun x => x.domain == d))) s

/-- FLR of PF1: every slice, which stays defined (R142); a second one is absorbed into the first (R144). -/
def resetPf1 (s : State) : State :=
  if (s.fnOf .pf1).resetting then s
  else
  let s := s.slices.foldl (fun s x => resetInstance (.slice x.num) s) s
  s.onFn .pf1 (fun x => { x with resetting := true, ready := false })

/-- Slices released: number, pages, PASID and domain (R431). -/
def releaseSlices (p : Nat → Bool) (s : State) : State :=
  { s with slices := s.slices.filter (fun x => !(p x.num)), fns := s.fns.filter (fun x => match x.fn with | .slice n => !(p n) | _ => true) }

/-- A reset of every function: VF Enable cleared, every slice destroyed (R142). -/
def resetAll (s : State) : State :=
  let s := resetPf1 (vfsGone s)
  let s := { s with waits := s.waits.filter (fun (w : AdminWait) => w.fn == .pf0 && w.kind != .sliceReset && w.kind != .sliceDestroy) }
  let s := releaseSlices (fun _ => true) s
  wipeDomains (fun _ => true) (resetOne .pf0 s)

/-! ### Completion (R114, R121, R143) -/

/-- SLICE_RESET and SLICE_DESTROY complete with the slice's reset (R431). -/
def endSliceWaits (f : Fn) (s : State) : State :=
  let mine := fun (w : AdminWait) => w.target == f && (w.kind == .sliceReset || w.kind == .sliceDestroy)
  let ended := s.waits.filter mine
  let s := { s with waits := s.waits.filter (fun w => !(mine w)) }
  let s := if ended.any (fun w => w.kind == .sliceDestroy) then releaseSlices (fun n => f == .slice n) s else s
  ended.foldl (fun s w => adminDone w.fn w.tag .ok [] s) s

/-- One function or slice leaves its reset (R143). -/
def resetEnd (f : Fn) (s : State) : State :=
  match s.fn? f with
  | none => s
  | some x =>
    if !x.resetting then s
    else endSliceWaits f (s.onFn f (fun y => { y with resetting := false, ready := mayServe s f && !y.d3 }))

/-- The reset of a function or slice is complete (R143). A slice's reset within a reset of PF1 is complete when that of PF1 is (R144). -/
def resetComplete (f : Fn) (s : State) : State :=
  match f with
  | .slice _ => if (s.fnOf .pf1).resetting then s else resetEnd f s
  | .pf1 => if (s.fnOf .pf1).resetting then s.slices.foldl (fun s x => resetEnd (.slice x.num) s) (resetEnd .pf1 s) else s
  | f => resetEnd f s

/-- FUNCTION_RESET_COMPLETE (R143). -/
def execFunctionResetComplete (fn : Fn) (s : State) : Host.Outcome State Fault Refusal := .next (resetComplete fn s)

/-! ### Resets from the link (R142, R143) -/

/-- FLR_VF (R142). -/
def execFlrVf (n : Nat) (s : State) : Host.Outcome State Fault Refusal := .next (if routed s (.vf n) then resetInstance (.vf n) s else s)
/-- FLR_PF0 (R142). -/
def execFlrPf0 (s : State) : Host.Outcome State Fault Refusal := .next (if s.link.up then resetPf0 s else s)
/-- FLR_PF1 (R142). -/
def execFlrPf1 (s : State) : Host.Outcome State Fault Refusal := .next (if s.link.up then resetPf1 s else s)

/-! ### D3hot and D0 (R141) -/

/-- A function goes to D3hot: as its FLR. -/
def enterD3 (f : Fn) (s : State) : State :=
  match f with
  | .slice _ => s
  | _ =>
    if (s.fn? f).isNone || (s.fnOf f).d3 || !(routed s f) then s
    else
      let s := match f with
        | .pf0 => resetPf0 s
        | .pf1 => resetPf1 s
        | f => resetInstance f s
      s.onFn f (fun x => { x with d3 := true, ready := false })

/-- The configuration space of a function at reset values: with No_Soft_Reset 0 the way from D3hot to D0 resets it (R141, log 37). -/
def resetSpace (x : FnState) : FnState :=
  { x with busMaster := false, memSpace := false, atsEnable := false, msixEnable := false, fnMask := false, unmasked := [], pba := [],
           msixTable := [], cfg := {}, atc := [] }

/-- The configuration bits that one physical function alone has. -/
def resetPfSpace (f : Fn) (s : State) : State :=
  match f with
  | .pf0 => { s with link := { s.link with atomicOp := false, numVfs := 0 } }
  | .pf1 => { s with link := { s.link with pasidEnable := false } }
  | _ => s

/-- A function returns to D0, reset and READY (R141); one still in reset is READY at its completion. -/
def enterD0 (f : Fn) (s : State) : State :=
  if !(s.fnOf f).d3 || !(routed s f) then s
  else resetPfSpace f (s.onFn f (fun x => { resetSpace x with d3 := false, ready := mayServe s f && !x.resetting }))

/-- D3HOT_ENTRY (R141). -/
def execD3hotEntry (fn : Fn) (s : State) : Host.Outcome State Fault Refusal := .next (enterD3 fn s)
/-- D0_ENTRY (R141). -/
def execD0Entry (fn : Fn) (s : State) : Host.Outcome State Fault Refusal := .next (enterD0 fn s)

/-! ### Bus Master Enable and Memory Space Enable (R128) -/

/-- The instances whose DMA a function carries. -/
def carried (s : State) (f : Fn) : List Fn := (s.fns.map (fun x => x.fn)).filter (fun g => carrier g == f)

/-- The jobs of an instance end with no completion, and the SQs that had one stop in error (R128, R161).
DESIGN CHOICE (log 39): the SQ_ERROR event of BUS_MASTER_OFF goes to the event ring and is signalled, though Bus Master Enable is already 0. -/
def busMasterStop (f : Fn) (s : State) : State :=
  let js := s.jobs.filter (fun (j : Job) => j.fn == f)
  let s := (js.map (fun j => j.id)).foldl (fun s i => dropJob i s) s
  ((js.map (fun j => j.sq)).eraseDups).foldl (fun s q => stopSq f q 0x09 (((s.sq? f q).map (fun x => x.head)).getD 0) s) s

/-- Bus Master Enable clears (R128). -/
def busMasterOff (f : Fn) (s : State) : State :=
  if !(s.fnOf f).busMaster then s
  else (carried s f).foldl (fun s g => busMasterStop g s) (s.onFn f (fun x => { x with busMaster := false }))

/-- BUS_MASTER_ENABLE_CLEAR (R128). -/
def execBusMasterEnableClear (fn : Fn) (s : State) : Host.Outcome State Fault Refusal := .next (busMasterOff fn s)
/-- MEMORY_SPACE_ENABLE_CLEAR (R128). -/
def execMemorySpaceEnableClear (fn : Fn) (s : State) : Host.Outcome State Fault Refusal := .next (s.onFn fn (fun x => { x with memSpace := false }))

/-! ### VF Enable (R114, R120, R121, R428) -/

/-- VF Enable sets with NumVFs: VFs 1 to NumVFs respond, READY later (R114, R120). -/
def vfsOn (numVfs : Nat) (s : State) : State :=
  if s.link.vfEnable || !s.link.up then s
  else
    let n := min numVfs 255
    { s with link := { s.link with vfEnable := true, numVfs := n, vfEnableAt := s.clk },
             fns := s.fns ++ (List.range n).map (fun i => { fn := .vf (i + 1) }) }

/-- A VF becomes READY once PF0 is and the VF serves (R114, R121). -/
def vfUp (n : Nat) (s : State) : State :=
  if mayServe s (.vf n) && (s.fnOf .pf0).ready then s.onFn (.vf n) (fun x => if x.resetting || x.d3 then x else { x with ready := true }) else s

/-- VF_ENABLE (R428). -/
def execVfEnable (numVfs : Nat) (s : State) : Host.Outcome State Fault Refusal := .next (vfsOn numVfs s)
/-- VF_READY (R114). -/
def execVfReady (n : Nat) (s : State) : Host.Outcome State Fault Refusal := .next (vfUp n s)
/-- VF_ENABLE_CLEAR (R428). -/
def execVfEnableClear (s : State) : Host.Outcome State Fault Refusal := .next (vfsGone s)

end Sys2Proof.Machine
end

