-- ==== Sys2Proof/Machine/Slices.lean ====
section
/-!
DEFINITION. Slices, quiesce, dirty logging and the mailboxes (R430 to R439).
-/
namespace Sys2Proof.Machine

/-! ### Slices (R430, R431) -/

/-- A slice command's TYPE and mode (R432). -/
def sliceModeBad (s : State) (e : Bytes) : Bool := !(sliceMode s) || byteAt e 26 != 1

/-- A slice as SLICE_CREATE names it. -/
def sliceOfEntry (e : Bytes) : Slice :=
  { num := fieldLE e 24 2, firstPage := fieldLE e 28 2, pageCount := fieldLE e 30 2, domain := fieldLE e 32 2, vecBase := fieldLE e 34 2,
    vecCount := fieldLE e 36 2, pasid := fieldLE e 40 3 }

/-- The page range lies outside the 4,096 pages, or a page is owned. -/
def pagesBad (s : State) (x : Slice) : Bool :=
  x.pageCount == 0 || x.pageCount > 256 || x.firstPage + x.pageCount > 4096 ||
    s.slices.any (fun y => x.firstPage < y.firstPage + y.pageCount && y.firstPage < x.firstPage + x.pageCount)

/-- SLICE_CREATE. A vector range out of bounds counts as a field out of its layout (log 20). -/
def adminSliceCreate (e : Bytes) (_ : AdminIn) (s : State) : AdminRes :=
  let x := sliceOfEntry e
  aChecks
    [(x.pasid ≥ 2 ^ 20 || x.vecCount == 0 || x.vecBase + x.vecCount > 2048, aBad 0x02), (sliceModeBad s e, aBad 0x60),
     (x.num ≥ s.eph.cfg.sliceLimit, aBad 0x61), ((s.slice? x.num).isSome, aBad 0x62), (pagesBad s x, aBad 0x63),
     (!s.link.pasidEnable || s.slices.any (fun y => y.pasid == x.pasid), aBad 0x64), (s.slices.any (fun y => y.domain == x.domain), aBad 0x65),
     (queueQuota s x.domain == 0, aFail .budgetExceeded 0x21)]
    (fun _ => .ok 0 [] { s with slices := s.slices ++ [x], fns := s.fns ++ [{ fn := .slice x.num, ready := true }] })

/-- SLICE_RESET or SLICE_DESTROY: the reset starts, and its end completes the command. -/
def adminSliceReset (kind : AdminKind) (e : Bytes) (_ : AdminIn) (s : State) : AdminRes :=
  let n := fieldLE e 24 2
  aChecks [(sliceModeBad s e, aBad 0x60), (n ≥ s.eph.cfg.sliceLimit || (s.slice? n).isNone, aBad 0x61)]
    (fun _ => .wait { kind := kind, target := .slice n } (resetInstance (.slice n) s))

/-- SLICE_CREATE (R430). -/
def execSliceCreate (a : AdminIn) (s : State) : Host.Outcome State Fault Refusal := .next (adminRun 0x1400 adminSliceCreate a s)
/-- SLICE_RESET (R431). -/
def execSliceReset (a : AdminIn) (s : State) : Host.Outcome State Fault Refusal := .next (adminRun 0x1500 (adminSliceReset .sliceReset) a s)
/-- SLICE_DESTROY (R431). -/
def execSliceDestroy (a : AdminIn) (s : State) : Host.Outcome State Fault Refusal := .next (adminRun 0x1600 (adminSliceReset .sliceDestroy) a s)

/-! ### Quiesce (R439) -/

/-- What QUIESCE waits for: no job of the instance that is dispatched or waits to be, and no admin command of it in progress. A job that a check failed
and that waits for a credit alone is neither (R439, R511). -/
def drained (s : State) (f : Fn) : Bool :=
  !(s.jobs.any (fun (j : Job) => j.fn == f && j.phase != .done && j.failed.isNone)) && !(s.waits.any (fun w => w.fn == f))

/-- A job that has not been dispatched. -/
def undispatched (j : Job) : Bool :=
  j.phase == .waitTokens || j.phase == .waitPlace || j.phase == .waitCredit || j.phase == .waitStaging || j.phase == .ready

/-- The instance's SQs stop fetching. -/
def beginQuiesce (f : Fn) (s : State) : State :=
  { s.onFn f (fun x => { x with quiescing := true }) with
    sqs := s.sqs.map (fun q => if q.fn == f && q.st == .enabled then { q with st := .quiesced } else q) }

/-- The instance is quiesced, and the command that waits for it completes. -/
def endQuiesce (f : Fn) (s : State) : State :=
  let mine := fun (w : AdminWait) => w.kind == .quiesce && w.target == f
  let ended := s.waits.filter mine
  let s := { s.onFn f (fun x => { x with quiescing := false, quiesced := true }) with waits := s.waits.filter (fun w => !(mine w)) }
  ended.foldl (fun s w => adminDone w.fn w.tag .ok [] s) s

/-- QUIESCE_DRAINED: nothing of a quiescing instance is left to wait for. -/
def quiesceDone (f : Fn) (s : State) : State := if (s.fnOf f).quiescing && drained s f then endQuiesce f s else s

/-- The SQs fetch again, and held completions are written (R157). -/
def endQuiescence (f : Fn) (s : State) : State :=
  let s : State := { s.onFn f (fun x => { x with quiescing := false, quiesced := false }) with
             sqs := s.sqs.map (fun (q : Sq) => if q.fn == f && q.st == .quiesced then { q with st := .enabled } else q) }
  (s.cqs.filter (fun q => q.fn == f)).foldl (fun s q => drainCq f q.id s) s

/-- The instance that a command names, once 0x60 and 0x61 pass. -/
def onInstance (s : State) (e : Bytes) (extra : List (Bool × AdminRes)) (k : Fn → AdminRes) : AdminRes :=
  aChecks ([(modeBad s e, aBad 0x60), (instanceBad s e, aBad 0x61)] ++ extra) (fun _ => k ((aTarget e).getD .pf0))

/-- QUIESCE without RESUME. -/
def adminQuiesce (e : Bytes) (_ : AdminIn) (s : State) : AdminRes :=
  aChecks [(byteAt e 27 > 3, aBad 0x02)] (fun _ =>
    onInstance s e [] (fun f =>
      if (s.fnOf f).quiesced then .ok 0 [] s
      else
        let s := beginQuiesce f s
        let s := if byteAt e 27 / 2 == 1 then abortJobs .abortedHost (fun j => j.fn == f && undispatched j) s else s
        if drained s f then .ok 0 [] (endQuiesce f s) else .wait { kind := .quiesce, target := f } s))

/-- QUIESCE with RESUME. -/
def adminResume (e : Bytes) (_ : AdminIn) (s : State) : AdminRes :=
  aChecks [(byteAt e 27 > 3, aBad 0x02)] (fun _ =>
    onInstance s e [] (fun f => if (s.fnOf f).quiesced then .ok 0 [] (endQuiescence f s) else .ok 0 [] s))

/-- QUIESCE (R439). -/
def execQuiesce (a : AdminIn) (s : State) : Host.Outcome State Fault Refusal := .next (adminRun 0x1000 adminQuiesce a s)
/-- QUIESCE_DRAINED (R439). -/
def execQuiesceDrained (fn : Fn) (s : State) : Host.Outcome State Fault Refusal := .next (quiesceDone fn s)
/-- QUIESCE with RESUME (R439). -/
def execQuiesceResume (a : AdminIn) (s : State) : Host.Outcome State Fault Refusal := .next (adminRun 0x1001 adminResume a s)

/-! ### Dirty logging (R436 to R438) -/

/-- The jobs of an instance that have bits due. -/
def dirtyJobs (s : State) (f : Fn) : List Nat := (s.jobs.filter (fun j => j.fn == f && !j.dirty.isEmpty)).map (fun j => j.id)

/-- A DIRTY_LOG whose checks have passed (`s` is the state with its effect): it completes once every bit due for the writes before it has been set, which
each job does as it ends (R436, R437; log 39). -/
def dirtyWait (op : Nat) (f : Fn) (d : FnDirty) (s : State) : AdminRes :=
  let w : AdminWait := { kind := .dirtyLog, target := f, arg := op, count := d.outside, failed := d.failed, due := dirtyJobs s f }
  if w.due.isEmpty then
    .ok 0 (dirtyInline d.outside d.failed)
      (if op == 1 then s
       else if op == 0 then s.onFn f (fun x => { x with dirty := {} })
       else s.onFn f (fun x => { x with dirty := { x.dirty with outside := 0 } }))
  else .wait w s

/-- ENABLE: writes from now on go to the new bitmap; a failed log starts again, and what it had not marked stays unmarked (R438). -/
def adminDirtyEnable (e : Bytes) (_ : AdminIn) (s : State) : AdminRes :=
  let cover := fieldLE e 52 8
  let len := aBufLen e
  onInstance s e
    [(aBuf e % 8 != 0 || len % 8 != 0 || len == 0 || len > 268435456 || cover % 4096 != 0, aBad 0x04), (!s.link.atomicOp, aBad 0x67)]
    (fun f =>
      let d := (s.fnOf f).dirty
      let s := s.onFn f (fun x => { x with dirty := { enabled := true, map := { bitmap := aBuf e, len := len, cover := cover } } })
      let unmarked : Job → Job := fun j => if d.failed && j.fn == f then { j with dirty := [] } else j
      dirtyWait 1 f d { s with jobs := s.jobs.map unmarked })

/-- DISABLE and SYNC take no bitmap and no range. -/
def noRange (e : Bytes) : Bool := aBuf e == 0 && aBufLen e == 0 && allZero (sliceOf e 52 8)

/-- DISABLE or SYNC; both report a failed log. -/
def adminDirtyEnd (off : Bool) (e : Bytes) (_ : AdminIn) (s : State) : AdminRes :=
  aChecks [(!(noRange e), aBad 0x02)] (fun _ =>
    onInstance s e [] (fun f =>
      let d := (s.fnOf f).dirty
      if d.failed then .fail .translationFault 0x31 1 else dirtyWait (if off then 0 else 2) f d s))

/-- DIRTY_LOG ENABLE (R436). -/
def execDirtyLogEnable (a : AdminIn) (s : State) : Host.Outcome State Fault Refusal := .next (adminRun 0x1301 adminDirtyEnable a s)
/-- DIRTY_LOG DISABLE (R436). -/
def execDirtyLogDisable (a : AdminIn) (s : State) : Host.Outcome State Fault Refusal := .next (adminRun 0x1300 (adminDirtyEnd true) a s)
/-- DIRTY_LOG SYNC (R436). -/
def execDirtyLogSync (a : AdminIn) (s : State) : Host.Outcome State Fault Refusal := .next (adminRun 0x1302 (adminDirtyEnd false) a s)

/-! ### Mailboxes (R433 to R435) -/

/-- The instance that MGR_MBX_SEL selects, if it is live (R434). -/
def selected (s : State) : Option Fn :=
  let f := if s.mgr.selType == 1 then some (Fn.slice s.mgr.selInst) else if s.mgr.selType == 2 then some (Fn.vf s.mgr.selInst) else none
  f.bind (fun f => if isInstance s f then some f else none)

/-- The manager's vector is signalled where it is enabled. -/
def signalManager (s : State) : State := if s.mgr.enable then signal .pf0 s.mgr.vector s else s
/-- The instance's vector is signalled where it is enabled. -/
def signalInstance (f : Fn) (s : State) : State := if (s.fnOf f).mbx.enable then signal f (s.fnOf f).mbx.vector s else s

/-- An instance has a mailbox; PF0 and PF1 have none (R433). -/
def hasMailbox : Fn → Bool
  | .vf _ => true
  | .slice _ => true
  | _ => false

/-- The mailbox of an instance changed. -/
def onMbx (f : Fn) (g : FnMbx → FnMbx) (s : State) : State := s.onFn f (fun x => { x with mbx := g x.mbx })

/-- OUT_SEND: the message waits for the manager, or OVERRUN (R435). -/
def mbxOutSend (f : Fn) (s : State) : State :=
  if !(hasMailbox f && pageOpen s f) then s
  else if (s.fnOf f).mbx.outPend then onMbx f (fun m => { m with overrun := true }) s
  else signalManager (onMbx f (fun m => { m with outPend := true, outSent := m.outLen }) s)

/-- IN_ACK: MBX_IN is released (R435). -/
def mbxInAck (f : Fn) (s : State) : State :=
  if !(hasMailbox f && pageOpen s f && (s.fnOf f).mbx.inPend) then s else signalManager (onMbx f (fun m => { m with inPend := false }) s)

/-- IN_SEND: the message waits for the selected instance, or OVERRUN (R435). -/
def mbxInSend (s : State) : State :=
  match selected s with
  | none => s
  | some f =>
    if !(pageOpen s .pf0) then s
    else if (s.fnOf f).mbx.inPend then { s with mgr := { s.mgr with overrun := true } }
    else signalInstance f (onMbx f (fun m => { m with inPend := true, inLen := s.mgr.inLen }) s)

/-- OUT_ACK: MBX_OUT of the selected instance is released (R435). -/
def mbxOutAck (s : State) : State :=
  match selected s with
  | none => s
  | some f =>
    if !(pageOpen s .pf0) || !(s.fnOf f).mbx.outPend then s else signalInstance f (onMbx f (fun m => { m with outPend := false }) s)

/-- A word written into MBX_OUT, or into the selected instance's MBX_IN (R434, R435, R501). -/
def mailboxWrite (w : RegAccess) (s : State) : State :=
  let word := leBytes 4 w.value
  if w.width != 32 || w.off % 4 != 0 || ideDiscards s w then s
  else match pageAt s w.target w.off with
  | some (f, o) =>
    if !(hasMailbox f && pageOpen s f && 0x500 ≤ o && o < 0x600) then s
    else if (s.fnOf f).mbx.outPend then onMbx f (fun m => { m with overrun := true }) s
    else onMbx f (fun m => { m with outWin := overwrite m.outWin (o - 0x500) word }) s
  | none =>
    match w.target, selected s with
    | .bar0 .pf0, some f =>
      if !(pageOpen s .pf0 && 0x80200 ≤ w.off && w.off < 0x80300) then s
      else if (s.fnOf f).mbx.inPend then { s with mgr := { s.mgr with overrun := true } }
      else onMbx f (fun m => { m with inWin := overwrite m.inWin (w.off - 0x80200) word }) s
    | _, _ => s

/-- OUT_SEND (R435). -/
def execOutSend (fn : Fn) (s : State) : Host.Outcome State Fault Refusal := .next (mbxOutSend fn s)
/-- IN_ACK (R435). -/
def execInAck (fn : Fn) (s : State) : Host.Outcome State Fault Refusal := .next (mbxInAck fn s)
/-- IN_SEND (R435). -/
def execInSend (s : State) : Host.Outcome State Fault Refusal := .next (mbxInSend s)
/-- OUT_ACK (R435). -/
def execOutAck (s : State) : Host.Outcome State Fault Refusal := .next (mbxOutAck s)
/-- A mailbox data write (R433, R434). -/
def execMailboxDataWrite (w : RegAccess) (s : State) : Host.Outcome State Fault Refusal := .next (mailboxWrite w s)

end Sys2Proof.Machine
end

