-- ==== Sys2Proof/Machine/Ddp.lean ====
section
/-!
DEFINITION. The direct digest port of a function page (R389 to R392).
-/
namespace Sys2Proof.Machine

/-- The port of a function changed. -/
def onDdp (f : Fn) (g : FnDdp → FnDdp) (s : State) : State := s.onFn f (fun x => { x with ddp := g x.ddp })

/-- The functions that the DDP offers (R374). -/
def ddpAlgs : List Nat := [0x02, 0x03, 0x04, 0x07, 0x09, 0x0F]

/-- What a START takes: unkeyed, a key reference, or an ERROR code (R390). -/
inductive DdpKey where
  | unkeyed
  | keyed (slot gen : Nat) (material : Bytes) (kmac : Bool)
  | error (code : Nat)

/-- The key fits the function, its algorithm and its policy: HMAC with SHA-2, KMAC with KMAC256, and both MAC and DDP allowed. -/
def ddpKeyOk (f : Fn) (alg h : Nat) (x : Slot) (s : State) : Bool :=
  x.st == .occupied && x.gen == hGen h && x.domain == hDomain h && x.ktype == hType h && x.policy.getLsbD 6 && x.policy.getLsbD 12 &&
    (f == .pf0 || domainOf s f == some x.domain) && ((hType h == 0x18 && [0x02, 0x03, 0x04].contains alg) || (hType h == 0x19 && alg == 0x0F))

/-- The key of a START (R390). -/
def ddpResolve (f : Fn) (alg h : Nat) (s : State) : DdpKey :=
  if !(ddpAlgs.contains alg) then .error 3
  else if hType h == 0 then (if alg == 0x0F then .error 2 else .unkeyed)
  else if s.tam.quarantine then .error 2
  else match s.slot? (hSlot h) with
    | some x => if ddpKeyOk f alg h x s then .keyed x.idx x.gen x.material (hType h == 0x19) else .error 2
    | none => .error 2

/-- The port with any computation abandoned: no message, no digest, DONE and BUSY clear. -/
def ddpIdle (d : FnDdp) : FnDdp := { d with busy := false, ending := false, done := false, digest := [], msg := [], buffered := 0 }

/-- START with an algorithm and the key of DDP_KEY (R389, R390). -/
def ddpStart (f : Fn) (alg : Nat) (s : State) : State :=
  if !(pageOpen s f) then s
  else
    let base := fun (d : FnDdp) => { ddpIdle d with alg := alg, runAlg := alg, error := 0, restarted := false, keyed := none, kmac := false, keyLost := false, drainAt := s.clk }
    match ddpResolve f alg (s.fnOf f).ddp.key s with
    | .error c => onDdp f (fun d => { base d with error := c }) s
    | .unkeyed => onDdp f (fun d => { base d with busy := true }) s
    | .keyed i g m k => onDdp f (fun d => { base d with busy := true, keyed := some (i, g, m), kmac := k }) s

/-- RELEASE: the computation is abandoned and the key reference dropped (R389). -/
def ddpRelease (f : Fn) (s : State) : State := if pageOpen s f then onDdp f (fun d => { ddpIdle d with keyed := none }) s else s

/-- The 512-word buffer after the words absorbed meanwhile, at 5 ns a word (R391). -/
def ddpDrain (now : Nat) (d : FnDdp) : FnDdp :=
  let n := (now - d.drainAt) / 5
  { d with buffered := d.buffered - n, drainAt := if d.buffered ≤ n then now else d.drainAt + 5 * n }

/-- The port takes no word: it is idle, or an error stands (R391). -/
def ddpShut (d : FnDdp) : Bool := d.error != 0 || (!d.busy && !d.done)

/-- A silent restart: the same algorithm and key; a lost key reference is an ERROR (R391, R392). -/
def ddpRestart (now : Nat) (word : Bytes) (d : FnDdp) : FnDdp :=
  if d.keyLost then { ddpIdle d with error := 2 }
  else { ddpIdle d with busy := true, restarted := true, msg := word, buffered := if word.isEmpty then 0 else 1, drainAt := now }

/-- A DATA word (R391, R392). A word that comes while a digest is due is discarded (log 24). -/
def ddpWord (now : Nat) (word : Bytes) (d : FnDdp) : FnDdp :=
  if ddpShut d then { d with error := 5 }
  else if d.done then ddpRestart now word d
  else if d.ending then d
  else
    let d := ddpDrain now d
    if d.buffered ≥ 512 then { ddpIdle d with error := 1 } else { d with msg := d.msg ++ word, buffered := d.buffered + 1 }

/-- The DDP_LAST word (R391). -/
def ddpLastWord (now : Nat) (word : Bytes) (d : FnDdp) : FnDdp :=
  if ddpShut d then { d with error := 5 }
  else if d.done || d.ending then { d with lastWord := word }
  else
    let d := ddpDrain now d
    if d.buffered ≥ 512 then { ddpIdle d with error := 1 } else { d with lastWord := word }

/-- The message bytes of the DDP_LAST word (R389). -/
def lastBytes (v : Nat) (word : Bytes) : Bytes := if bitOf v 3 then [] else word.take (if v % 8 == 0 then 8 else v % 8)

/-- The length write ends the message (R389, R391, R392). -/
def ddpLength (now v : Nat) (d : FnDdp) : FnDdp :=
  if ddpShut d then { d with error := 5 }
  else if d.done then
    let d := ddpRestart now (lastBytes v d.lastWord) d
    if d.busy then { d with ending := true } else d
  else if d.ending then d
  else { ddpDrain now d with msg := d.msg ++ lastBytes v d.lastWord, ending := true }

/-- The digest of a computation (R390). -/
def ddpDigest (d : FnDdp) : Bytes :=
  match d.keyed with
  | some (_, _, m) => if d.kmac then kmac256 m d.msg 32 [] else hmac d.runAlg m d.msg
  | none => hashFixed d.runAlg d.msg

/-- The computation finishes, or its two copies differ (R379, R391). -/
def ddpFinish (f : Fn) (mismatch : Bool) (s : State) : State :=
  let d := (s.fnOf f).ddp
  if !(d.busy && d.ending) then s
  else if mismatch then
    noteMismatch (faultEvent 15 0x0603 0x0800 (leBytes 2 0 ++ leBytes 8 0) (onDdp f (fun d => { ddpIdle d with error := 4 }) s))
  else onDdp f (fun d => { ddpIdle d with done := true, seq := (d.seq + 1) % 65536, digest := ddpDigest d }) s

/-- A 64-bit write lands on a register of the port. -/
def ddpLands (f : Fn) (off : Nat) (w : RegAccess) (s : State) : Bool := pageOpen s f && !(ideDiscards s w) && w.width == 64 && pageAt s w.target w.off == some (f, off)

/-- A write of DDP_DATA. -/
def ddpDataWrite (f : Fn) (w : RegAccess) (s : State) : State :=
  if ddpLands f 0x810 w s then onDdp f (ddpWord s.clk (leBytes 8 w.value)) s else s

/-- A write of the DDP_LAST word. -/
def ddpLastWordWrite (f : Fn) (w : RegAccess) (s : State) : State :=
  if ddpLands f 0x818 w s then onDdp f (ddpLastWord s.clk (leBytes 8 w.value)) s else s

/-- A write of the DDP_LAST length. -/
def ddpLengthWrite (f : Fn) (v : Nat) (s : State) : State := if pageOpen s f then onDdp f (ddpLength s.clk v) s else s

/-! ### Commands -/

/-- DDP_START (R390). -/
def execDdpStart (fn : Fn) (alg : Nat) (s : State) : Host.Outcome State Fault Refusal := .next (ddpStart fn alg s)
/-- DDP_RELEASE (R389). -/
def execDdpRelease (fn : Fn) (s : State) : Host.Outcome State Fault Refusal := .next (ddpRelease fn s)
/-- DDP_DATA (R391). -/
def execDdpData (fn : Fn) (w : RegAccess) (s : State) : Host.Outcome State Fault Refusal := .next (ddpDataWrite fn w s)
/-- DDP_LAST_WORD (R389). -/
def execDdpLastWord (fn : Fn) (w : RegAccess) (s : State) : Host.Outcome State Fault Refusal := .next (ddpLastWordWrite fn w s)
/-- DDP_LAST_LENGTH (R389). -/
def execDdpLastLength (fn : Fn) (value : Word) (s : State) : Host.Outcome State Fault Refusal := .next (ddpLengthWrite fn value.toNat s)
/-- DDP_DONE (R391). -/
def execDdpDone (fn : Fn) (mismatch : Bool) (s : State) : Host.Outcome State Fault Refusal := .next (ddpFinish fn mismatch s)

end Sys2Proof.Machine
end

