-- ==== Sys2Proof/Machine/MeridianUnit.lean ====
section
/-!
DEFINITION. The Meridian unit: lock, loss, holdover, catch-up and its sources (R39 to R45, R133, R510).
-/
namespace Sys2Proof.Machine

/-- Residual at the moment of loss, in ns (R43). -/
def residOf (source : Nat) : Nat := if source == 0 then 200 else 50

/-- A new state, with its record: old and new state, source, offset applied (R40, R480). -/
def merMove (st : MerSt) (off : Int) (s : State) : State :=
  raiseEvent 0x0201 0x0B00 ([byteOf (merCode s.mer.st), byteOf (merCode st), byteOf s.mer.source] ++ leBytes 8 (off % 2 ^ 64).toNat)
    { s with mer := { s.mer with st := st } }

/-- Counters of the lock and loss rules start again. -/
def merClear (m : Meridian) : Meridian := { m with good := 0, bad := 0, beyond := 0, markerMiss := 0, markerEdges := 0 }

/-- A measured offset is applied: a step forward, or a catch-up at half rate that replaces any other (R44). -/
def merOffset (off : Int) (m : Meridian) : Meridian :=
  let n := if off == 0 then m.stepCount else satAt 0xFF (m.stepCount + 1)
  if off ≥ 0 then { m with ns := (m.ns + off.toNat) % 2 ^ 64, slewing := false, slewLeft := 0, slewHalf := false, stepCount := n }
  else { m with slewing := true, slewLeft := (-off).toNat, slewHalf := false, stepCount := n }

/-- LOCKED is entered by the rule of R40, and the offset applied. -/
def merLock (off : Int) (s : State) : State :=
  let s := merMove .locked off s
  { s with mer := merOffset off { merClear s.mer with drift := 0 } }

/-- Loss of reference: HOLDOVER from LOCKED, nothing from another state (R40, R41, R43). -/
def merLoss (s : State) : State :=
  if s.mer.st != .locked || s.mer.source == 2 then s
  else
    let s := merMove .holdover 0 s
    let m := merClear s.mer
    { s with mer := { m with lossCount := satAt 0xFF (m.lossCount + 1), lossAt := s.clk, lossResid := residOf m.source, drift := satAt 0xFFFFFFFF (residOf m.source + m.slewLeft) } }

/-! ### PTM (R40, R41, R133) -/

/-- One dialog failed or went unanswered. -/
def ptmFail (s : State) : State :=
  let m := s.mer
  let s := { s with mer := { m with good := 0, beyond := 0, bad := m.bad + 1, dialogOpen := false } }
  if s.mer.bad ≥ 3 then merLoss s else s

/-- A PTM Request goes out at the dialog interval, while PTM is enabled and the source; an unanswered one before it has failed. -/
def ptmDialog (s : State) : State :=
  let m := s.mer
  if !(m.running && m.source == 0 && m.ptmEnable && s.link.up && s.clk ≥ m.dialogAt + m.dialogMs * 1000000) then s
  else
    let s := if m.dialogOpen then ptmFail s else s
    emit .ptmRequest { s with mer := { s.mer with dialogOpen := true, dialogAt := s.clk } }

/-- An answered dialog: its residual counts for lock and loss (R40, R41). -/
def ptmAnswer (residual offset : Int) (s : State) : State :=
  let m := s.mer
  let near := decide (residual.natAbs ≤ 200)
  let far := decide (residual.natAbs > 1000)
  let s := { s with mer := { m with dialogOpen := false, bad := 0, good := if near then m.good + 1 else 0, beyond := if far then m.beyond + 1 else 0 } }
  if s.mer.st == .locked then (if s.mer.beyond ≥ 3 then merLoss s else s)
  else if s.mer.good ≥ 4 then merLock offset s else s

/-- The outcome of the outstanding dialog. -/
def ptmResponse (r : PtmResult) (s : State) : State :=
  if !(s.mer.dialogOpen && s.mer.source == 0) then s
  else match r with
  | .failed => ptmFail s
  | .answered residual offset => ptmAnswer residual offset s

/-- PTM Enable clears, by the host or with the link: a loss of the PTM reference (R41, R142). -/
def ptmOff (s : State) : State :=
  let on := s.mer.ptmEnable
  let s := { s with mer := { s.mer with ptmEnable := false, dialogOpen := false } }
  if on && s.mer.source == 0 then merLoss s else s

/-! ### Coax (R39 to R41) -/

/-- The coax is the reference. -/
def onCoax (s : State) : Bool := s.mer.running && s.mer.source == 1 && !s.mer.coaxTrace

/-- The step to the next whole second, at a first lock (R39). -/
def nextSecond (ns : Nat) : Nat := (1000000000 - ns % 1000000000) % 1000000000

/-- A marker out of place, or missing, in a second: two in a row lose the reference (R41). -/
def markerBad (s : State) : State :=
  let s := { s with mer := { s.mer with markerMiss := s.mer.markerMiss + 1, good := 0 } }
  if s.mer.markerMiss ≥ 2 then merLoss s else s

/-- A marker lies in its place, `n` seconds after the last one that did (R40, R41; log 39). -/
def inPlace (n edges : Nat) : Bool := decide (n * 9999950 ≤ edges ∧ edges ≤ n * 10000050)

/-- A marker: three in a row at the right spacing lock; one out of place counts against a lock, and the place of the next one is reckoned from the last
that was in place (R40, R41). -/
def coaxMark (m : CoaxMarker) (s : State) : State :=
  let fits := inPlace 1 m.edges
  let since := s.mer.markerEdges + m.edges
  if !(onCoax s) then s
  else if s.mer.st == .locked then
    (if inPlace (s.mer.markerMiss + 1) since then { s with mer := { s.mer with markerMiss := 0, markerEdges := 0 } }
     else markerBad { s with mer := { s.mer with markerEdges := since } })
  else
    let s := { s with mer := { s.mer with good := if fits && s.mer.good > 0 then s.mer.good + 1 else 1 } }
    if s.mer.good ≥ 3 then merLock (if s.mer.st == .acquiring then (nextSecond s.mer.ns : Int) else m.offset) s else s

/-- No edge for 400 ns outside the gap (R41). -/
def coaxEdges (s : State) : State := if onCoax s then merLoss { s with mer := { s.mer with good := 0 } } else s

/-! ### Holdover and catch-up (R43, R44) -/

/-- The holdover limit expires (R44). -/
def holdoverEnd (s : State) : State :=
  let m := s.mer
  if m.st == .holdover && m.holdoverS > 0 && s.clk ≥ m.lossAt + m.holdoverS * 1000000000 then
    raiseEvent 0x0202 0x0B00 (leBytes 4 m.drift) (merMove .freeRun 0 s)
  else s

/-- HOLDOVER_DRIFT is recomputed (R43). -/
def driftUpdate (s : State) : State :=
  let m := s.mer
  if m.st == .holdover || m.st == .freeRun then
    { s with mer := { m with drift := satAt 0xFFFFFFFF (m.lossResid + (s.clk - m.lossAt) * 2000 / 1000000000 + (if m.slewing then m.slewLeft else 0)) } }
  else s

/-- The catch-up has absorbed its offset (R44). -/
def catchUpDone (s : State) : State := if s.mer.slewing && s.mer.slewLeft == 0 then { s with mer := { s.mer with slewing := false, slewHalf := false } } else s

/-! ### Sources (R39, R510) -/

/-- The source of STRAPS[1:0]. -/
def strapSource (straps : BitVec 8) : Nat := min 2 (straps.toNat % 4)

/-- The unit starts at step 2 with the strap's source; free-run is LOCKED at once (R39, R40, R510). -/
def merStart (s : State) : State :=
  let src := strapSource s.pwr.straps
  let s := { s with mer := { s.mer with running := true, source := src, fromStrap := true } }
  if src == 2 then merMove .locked 0 s else s

/-- The Ephemeris names a source at step 14 (R510). HOLDOVER_DRIFT reads 0 in ACQUIRING then (DESIGN CHOICE, log 36: R43 gives no bound there). -/
def merSource (want : Option Nat) (s : State) : State :=
  match want with
  | none => s
  | some src =>
    if src == s.mer.source then { s with mer := { s.mer with fromStrap := false } }
    else
      let m := merClear s.mer
      merMove (if src == 2 then .locked else .acquiring) 0 { s with mer := { m with source := src, fromStrap := false, dialogOpen := false, drift := 0 } }

/-! ### Register (R45, R501) -/

/-- A read of TRANSIT_NOW_LO latches the high word. -/
def transitRead (wide : Bool) (s : State) : State :=
  let t := transitNow s
  let s' := answerRead .pf0 (if wide then t % 2 ^ 64 else t % 2 ^ 32) s
  if barOpen s .pf0 && !(s.fnOf .pf0).resetting then { s' with mer := { s'.mer with hiLatch := t / 2 ^ 32 % 2 ^ 32 } } else s'

/-- TRANSIT_NOW_LO_READ (R45). -/
def execTransitNowLoRead (wide : Bool) (s : State) : Host.Outcome State Fault Refusal := .next (transitRead wide s)
/-- PTM_DIALOG (R133). -/
def execPtmDialog (s : State) : Host.Outcome State Fault Refusal := .next (ptmDialog s)
/-- PTM_RESPONSE (R40, R41). -/
def execPtmResponse (r : PtmResult) (s : State) : Host.Outcome State Fault Refusal := .next (ptmResponse r s)
/-- COAX_MARKER (R40, R41). -/
def execCoaxMarker (m : CoaxMarker) (s : State) : Host.Outcome State Fault Refusal := .next (coaxMark m s)
/-- COAX_MARKER_MISSING (R41). -/
def execCoaxMarkerMissing (s : State) : Host.Outcome State Fault Refusal := .next (if onCoax s then markerBad s else s)
/-- COAX_EDGE_LOSS (R41). -/
def execCoaxEdgeLoss (s : State) : Host.Outcome State Fault Refusal := .next (coaxEdges s)
/-- PTM_ENABLE_CLEAR (R41). -/
def execPtmEnableClear (s : State) : Host.Outcome State Fault Refusal := .next (ptmOff s)
/-- HOLDOVER_EXPIRED (R44). -/
def execHoldoverExpired (s : State) : Host.Outcome State Fault Refusal := .next (holdoverEnd s)
/-- HOLDOVER_DRIFT_UPDATE (R43). -/
def execHoldoverDriftUpdate (s : State) : Host.Outcome State Fault Refusal := .next (driftUpdate s)
/-- CATCH_UP_END (R44). -/
def execCatchUpEnd (s : State) : Host.Outcome State Fault Refusal := .next (catchUpDone s)

end Sys2Proof.Machine
end

