-- ==== Sys2Proof/Machine/Link.lean ====
section
/-!
DEFINITION. The PCIe link: training, resets from it, failed DMA, ATS invalidation, pending interrupts (R94, R116, R117, R127, R131, R132, R142).
-/
namespace Sys2Proof.Machine

/-- The width that STRAPS.LINK_CAP allows; the reserved value caps at x4 (R85). -/
def strapLanes (straps : BitVec 8) : Nat :=
  match straps.toNat / 16 % 4 with
  | 0 => 16
  | 1 => 8
  | _ => 4

/-- The link is up: at the width trained, no wider than the part and the strap allow (R94, R116). -/
def linkUpAt (w speed : Nat) (s : State) : State :=
  if !s.pwr.pg || s.pwr.perst || s.link.up then s
  else
    let w := min w (min (Config.lanes s.part) (strapLanes s.pwr.straps))
    { s with link := { s.link with up := true, width := w, speed := speed, full := w } }

/-- A retrain while the link stays up: a record of a lower width or speed, and one of the return to the full width (R117). -/
def linkRetrained (w speed : Nat) (s : State) : State :=
  if !s.link.up then s
  else
    let old := s.link
    let w := min w old.full
    let s := { s with link := { s.link with width := w, speed := speed } }
    let body := [byteOf w, byteOf speed]
    let s := if w < old.width || speed < old.speed then raiseEvent 0x0108 0x0A00 body s else s
    if w == old.full && old.width < old.full then raiseEvent 0x0109 0x0A00 body s else s

/-- A Hot Reset or Secondary Bus Reset (R142). -/
def inBandReset (s : State) : State := if s.link.up then ptmOff (resetAll s) else s

/-- The link goes down (R41, R142). -/
def linkDown (s : State) : State :=
  if !s.link.up then s
  else
    let s := inBandReset s
    { s with link := { s.link with up := false, width := 0, speed := 0, full := 0 } }

/-! ### Failed accesses (R127, R161, R180, R438) -/

/-- A job's DMA failed: it ends with TRANSLATION_FAULT. -/
def jobDmaFault (id : Nat) (s : State) : State :=
  match s.job? id with
  | none => s
  | some j =>
    if j.pastEnd || j.failed.isSome || !(j.phase == .running || j.phase == .preempted || j.phase == .overrun) then s
    else failJob j (failEntry j .translationFault (wholeInline j)) s

/-- A failed read of an SQ entry (0x04); only an SQ that could fetch reads one. -/
def fetchFault (f : Fn) (q : Nat) (s : State) : State :=
  match s.sq? f q with
  | none => s
  | some x => if x.st == .enabled && !x.arrivals.isEmpty && mayDma s f then stopSq f q 0x04 x.head s else s

/-- A failed bitmap write: the log fails (R438). -/
def dirtyFault (f : Fn) (s : State) : State := if (s.fnOf f).dirty.enabled then failLog f s else s

/-- The instance whose access it was. -/
def accessOwner (s : State) (t : DmaTarget) : Fn :=
  match t with
  | .job id => ((s.job? id).map (fun (j : Job) => j.fn)).getD .pf0
  | .sqEntry f _ => f
  | .eventRing f => f
  | .cqWrite f _ => f
  | .dirtyLog f => f

/-- What a failed access ends, by what it was for. A posted write carries no error back: only a denied translation stops a CQ (R127).
DESIGN CHOICE (log 39): a failed entry write latches the tail as it stands, which the entry has advanced already. -/
def dmaStop (t : DmaTarget) (denied : Bool) (s : State) : State :=
  match t with
  | .job id => jobDmaFault id s
  | .sqEntry f q => fetchFault f q s
  | .eventRing f => s.onFn f (fun x => if x.evr.present then { x with evr := { x.evr with stopped := true } } else x)
  | .cqWrite f q => if denied then stopCq f q 0x13 (((s.cq? f q).map (fun c => c.tail)).getD 0) s else s
  | .dirtyLog f => dirtyFault f s

/-- UR, CA, poison or a denied translation (R127); a poisoned completion is an error that AER logs (R134). -/
def dmaFault (t : DmaTarget) (why : DmaFail) (s : State) : State :=
  let u := dmaStop t (why == .denied) s
  if why == .poisoned then aerFatal (accessOwner s t) 12 u else u

/-- A completion timeout, which AER logs, unless it is disabled (R127, R134); posted writes to rings expect no completion. -/
def dmaTimeout (t : DmaTarget) (s : State) : State :=
  let f := accessOwner s t
  if (s.fnOf (governor f)).cfg.noTimeout then s
  else match t with
  | .eventRing _ => s
  | .cqWrite _ _ => s
  | t => aerFatal f 14 (dmaStop t false s)

/-! ### ATS and MSI-X (R131, R132) -/

/-- A cached translation that an invalidation covers; one without a range covers all of the function's. -/
def invalidated (r : Option AtsRange) (e : Option Nat × Nat) : Bool :=
  match r with
  | none => true
  | some r => e.1 == r.pasid && r.first ≤ e.2 && e.2 < r.first + r.count

/-- An invalidation completes once nothing is outstanding under the old translations; later accesses are translated again. -/
def atsDone (f : Fn) (itag : Nat) (r : Option AtsRange) (s : State) : State :=
  if s.link.up && (s.fn? f).isSome && routed s f then
    emit (.atsComplete f itag) (s.onFn f (fun x => { x with atc := x.atc.filter (fun e => !(invalidated r e)) }))
  else s

/-- Pending messages of vectors that are no longer masked are sent. -/
def sendPending (f : Fn) (s : State) : State :=
  let x := s.fnOf f
  if !x.msixEnable || x.fnMask then s
  else
    let go := x.pba.filter (fun v => x.unmasked.contains v)
    go.foldl (fun s v => sendMsix f v s) (s.onFn f (fun y => { y with pba := y.pba.filter (fun v => !(x.unmasked.contains v)) }))

/-- A vector, by a BAR4 write that lands (R128, R143), or Function Mask is unmasked. -/
def unmask (f : Fn) (vec : Option Nat) (s : State) : State :=
  match vec with
  | none => sendPending f (s.onFn f (fun x => { x with fnMask := false }))
  | some v =>
    if pageOpen s f then sendPending f (s.onFn f (fun x => { x with unmasked := if x.unmasked.contains v then x.unmasked else x.unmasked ++ [v] })) else s

/-- LINK_UP (R94). -/
def execLinkUp (w speed : Nat) (s : State) : Host.Outcome State Fault Refusal := .next (linkUpAt w speed s)
/-- LINK_RETRAIN (R117). -/
def execLinkRetrain (w speed : Nat) (s : State) : Host.Outcome State Fault Refusal := .next (linkRetrained w speed s)
/-- HOT_RESET (R142). -/
def execHotReset (s : State) : Host.Outcome State Fault Refusal := .next (inBandReset s)
/-- SECONDARY_BUS_RESET (R142). -/
def execSecondaryBusReset (s : State) : Host.Outcome State Fault Refusal := .next (inBandReset s)
/-- DL_DOWN (R142). -/
def execDlDown (s : State) : Host.Outcome State Fault Refusal := .next (linkDown s)
/-- DMA_READ_FAILURE (R127). -/
def execDmaReadFailure (fail : DmaFailure) (s : State) : Host.Outcome State Fault Refusal := .next (dmaFault fail.target fail.why s)
/-- COMPLETION_TIMEOUT (R127). -/
def execCompletionTimeout (t : DmaTarget) (s : State) : Host.Outcome State Fault Refusal := .next (dmaTimeout t s)
/-- ATS_INVALIDATE (R131). -/
def execAtsInvalidate (fn : Fn) (req : AtsInval) (s : State) : Host.Outcome State Fault Refusal := .next (atsDone fn req.itag req.range s)
/-- MSIX_UNMASK (R132). -/
def execMsixUnmask (fn : Fn) (vec : Option Nat) (s : State) : Host.Outcome State Fault Refusal := .next (unmask fn vec s)

end Sys2Proof.Machine
end

