-- ==== Sys2Proof/Machine/SpdmSession.lean ====
section
/-!
DEFINITION. SPDM session cryptography (R137): the SPDM 1.2 key schedule over SHA-384, secp384r1 key agreement, the identity key's signature and
AES-256-GCM over session messages. R137 names these by their standard; how the bytes are joined is DMTF's (PRESUMED, log 21).
-/
namespace Sys2Proof.Machine

/-! ### The key schedule -/

/-- HMAC with SHA-384, the negotiated hash. -/
def spdmMac (key m : Bytes) : Bytes := hmac 3 key m
/-- HKDF-Expand of at most 48 bytes under a label and context. -/
def spdmExpand (secret : Bytes) (n : Nat) (label : String) (ctx : Bytes) : Bytes :=
  (spdmMac secret (leBytes 2 n ++ ascii "spdm1.2 " ++ ascii label ++ ctx ++ [1])).take n
/-- The key that authenticates FINISH, or the answer to KEY_EXCHANGE, under a direction's handshake secret. -/
def finishedKey (secret : Bytes) : Bytes := spdmExpand secret 48 "finished" []

/-- The handshake secrets over the agreed point and the transcript so far. -/
def handshakeKeys (n id : Nat) (z transcript : Bytes) : SpdmKeys :=
  let h := spdmMac (zeros 48) z
  let t := sha384 transcript
  { session := n, id := id, secret := h, request := spdmExpand h 48 "req hs data" t, response := spdmExpand h 48 "rsp hs data" t, transcript := transcript }

/-- The secrets of the established session, over the whole handshake. -/
def sessionKeys (k : SpdmKeys) (transcript : Bytes) : SpdmKeys :=
  let m := spdmMac (spdmExpand k.secret 48 "derived" []) (zeros 48)
  let t := sha384 transcript
  { k with request := spdmExpand m 48 "req app data" t, response := spdmExpand m 48 "rsp app data" t, sent := 0, received := 0, transcript := transcript }

/-! ### AES-256-GCM over messages -/

/-- An answer as the session carries it: session id and length in the clear, the message and its tag under the direction's key, the IV counted
on with every answer. -/
def sealAnswer (k : SpdmKeys) (body : Bytes) : Bytes :=
  let plain := leBytes 2 body.length ++ body
  let clear := leBytes 4 k.id ++ leBytes 2 (plain.length + 16)
  let iv := xorBytes (spdmExpand k.response 12 "iv" []) (leBytes 8 k.sent ++ zeros 4)
  clear ++ gcmEnc (spdmExpand k.response 32 "key" []) iv clear plain 16

/-- A request as the session carries it, opened: the record names the session and its length, and its tag is that of the direction's key and the
next IV. -/
def openRequest (k : SpdmKeys) (m : Bytes) : Option Bytes :=
  let clear := m.take 6
  let iv := xorBytes (spdmExpand k.request 12 "iv" []) (leBytes 8 k.received ++ zeros 4)
  let p := gcmDec (spdmExpand k.request 32 "key" []) iv clear (m.drop 6) 16
  if m.length < 24 || fieldLE m 0 4 != k.id || fieldLE m 4 2 + 6 != m.length || !p.2 then none else some (sliceOf p.1 2 (fieldLE p.1 0 2))

/-- The secrets of a session. -/
def secretsOf (s : State) (n : Nat) : SpdmKeys := (s.doe.secrets.find? (fun k => k.session == n)).getD { session := n }

/-- An answer within a session leaves the mailbox. -/
def answerIn (n : Nat) (body : Bytes) (s : State) : State :=
  let k := secretsOf s n
  emit (.doe (sealAnswer k body)) { s with doe := { s.doe with secrets := modFirst (fun x => x.session == n) (fun x => { x with sent := x.sent + 1 }) s.doe.secrets } }

/-! ### Signatures and key agreement -/

/-- The bytes that the identity key signs for a transcript and a purpose. -/
def spdmToSign (purpose : String) (transcript : Bytes) : Bytes :=
  let p := ascii purpose
  (List.replicate 4 (ascii "dmtf-spdm-v1.2.*")).flatten ++ zeros (36 - p.length) ++ p ++ sha384 transcript

/-- An ECDSA P-384 signature by the identity key. -/
def spdmSign (purpose : String) (transcript : Bytes) (s : State) : Bytes × State :=
  match pCurve 2 with
  | some c => ecdsaDraw c (idP384 s).1 (sha384 (spdmToSign purpose transcript)) 8 s
  | none => ([], s)

/-- The requester's exchange data in a KEY_EXCHANGE. -/
def exchangeData (req : Bytes) : Bytes := sliceZ req 40 96

/-- A secp384r1 agreement with a peer's exchange data: the agreed x-coordinate, the module's own exchange data, and the state with the draw
taken; nothing where the peer's is no point of the curve. -/
def spdmAgree (peer : Bytes) (s : State) : Option (Bytes × Bytes × State) :=
  match pCurve 2 with
  | none => none
  | some c =>
    match pDecode c (4 :: peer) with
    | none => none
    | some q =>
      let r := drawBytes (ecScalarLen c) s
      let d := ecScalar c (ecScalarBits c r.1)
      some (((pEncode c (pMul c d (some q))).drop 1).take 48, (pEncode c (pMul c d (pBase c))).drop 1, r.2)

end Sys2Proof.Machine
end

