-- ==== Sys2Proof/Machine/DoeMailbox.lean ====
section
/-!
DEFINITION. The DOE mailbox, the SPDM responder and IDE key management (R136 to R140). What R136 to R140 say of an answer is modelled; the
layout of the messages is DMTF's and PCIe's, which the manual only names (PRESUMED, log 21).
-/
namespace Sys2Proof.Machine

/-- The mailbox answers once PF0 is READY, in every state (R136). -/
def doeOpen (s : State) : Bool := s.link.up && (s.fnOf .pf0).ready

/-- An answer leaves the mailbox. -/
def answer (b : Bytes) (s : State) : State := emit (.doe b) s
/-- A message under an open mailbox; nothing while DOE Busy, or in DOE Error until an Abort (DESIGN CHOICE, log 37). -/
def whileOpen (k : State → State) (s : State) : State := if doeOpen s && !s.doe.error then k s else s
/-- A message of so many bytes: with its 8-byte header it is a data object of at most 16 KiB, or else DOE Error (R136). -/
def object (n : Nat) (k : State → State) (s : State) : State :=
  whileOpen (fun s => if n + 8 > 16384 then { s with doe := { s.doe with error := true } } else k s) s
/-- A request whose bytes are those in the DOE write mailbox, which it empties (R136, log 21). -/
def mailed (k : Bytes → State → State) (s : State) : State :=
  object s.doe.mailbox.length (fun s => k s.doe.mailbox { s with doe := { s.doe with mailbox := [] } }) s
/-- An SPDM ERROR. -/
def refuse (code : Nat) (s : State) : State := emit (.spdmError code) s
/-- The ERROR codes used. -/
def spdmInvalid : Nat := 0x01
def spdmSession : Nat := 0x02
def spdmUnexpected : Nat := 0x04
def spdmDecrypt : Nat := 0x06
def spdmUnsupported : Nat := 0x07
def spdmLimit : Nat := 0x0A

/-! ### DOE Discovery (R136) -/

/-- The discovery response: the data object type and the next index; types 0, 1 and 2 of the PCI-SIG vendor. -/
def discovery (i : Nat) : Bytes :=
  leBytes 2 1 ++ [0, 0] ++ leBytes 4 3 ++ (if i < 3 then leBytes 2 1 ++ [byteOf i, byteOf ((i + 1) % 3)] else leBytes 2 0xFFFF ++ [0, 0])

/-- DOE_DISCOVERY (R136). -/
def execDoeDiscovery (index : Nat) (s : State) : Host.Outcome State Fault Refusal := .next (whileOpen (answer (discovery index)) s)
/-- DOE_ABORT (R136): the object in the mailbox and the error go. -/
def execDoeAbort (s : State) : Host.Outcome State Fault Refusal :=
  .next (if doeOpen s then { s with doe := { s.doe with error := false, mailbox := [] } } else s)

/-! ### Connection (R137) -/

/-- An answer, joined with its request to the transcript of the connection. -/
def recorded (req ans : Bytes) (s : State) : State := answer ans { s with doe := { s.doe with vca := s.doe.vca ++ req ++ ans } }

/-- GET_VERSION starts a connection; 1.2 only. -/
def spdmVersion (s : State) : State :=
  recorded [0x10, 0x84, 0, 0] [0x10, 0x04, 0, 0, 0, 1, 0x00, 0x12] { s with doe := { s.doe with version := true, caps := false, algs := false, vca := [] } }

/-- CERT, CHAL, MEAS with signature, MEAS_FRESH, KEY_EX, ENCRYPT and MAC. -/
def spdmCapFlags : Nat := 2 + 4 + 2 * 8 + 32 + 64 + 128 + 512

/-- The largest message that the mailbox takes or gives (R136). -/
def spdmTransfer : Nat := 16384 - 8

/-- GET_CAPABILITIES, with the sizes of SPDM 1.2. -/
def spdmCaps (req : Bytes) (s : State) : State :=
  if !s.doe.version then refuse spdmUnexpected s
  else recorded req ([0x12, 0x61, 0, 0] ++ zeros 4 ++ leBytes 4 spdmCapFlags ++ leBytes 4 spdmTransfer ++ leBytes 4 spdmTransfer) { s with doe := { s.doe with caps := true } }

/-- One selected algorithm structure: its type, two bytes of fixed algorithms, the choice. -/
def algChoice (typ v : Nat) : Bytes := [byteOf typ, 0x20] ++ leBytes 2 v

/-- NEGOTIATE_ALGORITHMS: its length, DMTF measurements, SHA-384 for them, ECDSA P-384, SHA-384; secp384r1, AES-256-GCM, the SPDM key schedule. -/
def spdmAlgs (req : Bytes) (s : State) : State :=
  let fixed := [1, 0] ++ leBytes 4 4 ++ leBytes 4 0x80 ++ leBytes 4 2 ++ zeros 12 ++ zeros 4
  let choices := algChoice 2 0x10 ++ algChoice 3 2 ++ algChoice 5 1
  if !s.doe.caps then refuse spdmUnexpected s
  else recorded req ([0x12, 0x63, 3, 0] ++ leBytes 2 (6 + fixed.length + choices.length) ++ fixed ++ choices)
    { s with doe := { s.doe with algs := true } }

/-- A request that needs a negotiated connection. -/
def negotiated (k : State → State) (s : State) : State := if s.doe.algs then k s else refuse spdmUnexpected s

/-- GET_VERSION (R137). -/
def execGetVersion (s : State) : Host.Outcome State Fault Refusal := .next (whileOpen spdmVersion s)
/-- GET_CAPABILITIES (R137). -/
def execGetCapabilities (s : State) : Host.Outcome State Fault Refusal := .next (mailed spdmCaps s)
/-- NEGOTIATE_ALGORITHMS (R137). -/
def execNegotiateAlgorithms (s : State) : Host.Outcome State Fault Refusal := .next (mailed spdmAlgs s)

/-! ### Certificates and the identity-key signature (R137) -/

/-- GET_DIGESTS: slot 0's chain, or no slot before the bank is written. -/
def spdmDigests (s : State) : State :=
  if s.sc.certBank then answer ([0x12, 0x01, 0, 1] ++ sha384 Config.spdmChain) s else answer [0x12, 0x01, 0, 0] s

/-- GET_CERTIFICATE: a portion of slot 0's chain, and how much remains. -/
def spdmCertificate (off len : Nat) (s : State) : State :=
  let b := sliceOf Config.spdmChain off len
  if !s.sc.certBank then refuse spdmInvalid s
  else answer ([0x12, 0x02, 0, 0] ++ leBytes 2 b.length ++ leBytes 2 (Config.spdmChain.length - off - b.length) ++ b) s

/-- CHALLENGE: the chain's digest, a nonce and the signature. -/
def spdmChallenge (nonce : Bytes) (s : State) : State :=
  if !s.sc.certBank then refuse spdmInvalid s
  else
    let n := drawBytes 32 s
    let body := [0x12, 0x03, 0, 1] ++ sha384 Config.spdmChain ++ n.1 ++ zeros 2
    let g := spdmSign "responder-challenge_auth signing" (s.doe.vca ++ [0x12, 0x83, 0, 0] ++ nonce ++ body) n.2
    answer (body ++ g.1) g.2

/-- GET_DIGESTS (R137). -/
def execGetDigests (s : State) : Host.Outcome State Fault Refusal := .next (whileOpen (negotiated spdmDigests) s)
/-- GET_CERTIFICATE (R137). -/
def execGetCertificate (off len : Nat) (s : State) : Host.Outcome State Fault Refusal := .next (whileOpen (negotiated (spdmCertificate off len)) s)
/-- SPDM_CHALLENGE (R137). -/
def execSpdmChallenge (nonce : Bytes) (s : State) : Host.Outcome State Fault Refusal := .next (object (4 + nonce.length) (negotiated (spdmChallenge nonce)) s)

/-! ### Measurements (R138) -/

/-- One DMTF block: index, specification 1, the DMTF measurement of a type, raw or hashed. -/
def measBlock (i typ : Nat) (raw : Bool) (v : Bytes) : Bytes :=
  [byteOf i, 1] ++ leBytes 2 (v.length + 3) ++ [byteOf (typ + bitAt raw 7)] ++ leBytes 2 v.length ++ v

/-- The six blocks of R138. -/
def measurements (s : State) : List Bytes :=
  [measBlock 1 0 false (sliceZ Config.romHash 0 48), measBlock 2 2 true [byteOf (lcCode s)], measBlock 3 3 true (sliceZ s.eph.digest 0 32),
   measBlock 4 1 false (sha384 (kernelDigests s).flatten), measBlock 5 3 true (leBytes 8 (counterNow s)),
   measBlock 6 2 true (if anySession s then sliceZ ((s.tok.socket.map (fun t => t.serial)).getD []) 0 16 else zeros 16)]

/-- GET_MEASUREMENTS: the count, one block, or all; fresh, and signed on request. -/
def spdmMeasure (index : Nat) (signed : Bool) (nonce : Bytes) (s : State) : State :=
  let ms := measurements s
  let bs := if index == 0xFF then ms else if index == 0 then [] else (ms.drop (index - 1)).take 1
  if index != 0xFF && index > 6 then refuse spdmInvalid s
  else
    let n := drawBytes 32 s
    let body := [0x12, 0x60, byteOf (if index == 0 then 6 else 0), 0, byteOf bs.length] ++ leBytes 3 bs.flatten.length ++ bs.flatten ++ n.1 ++ zeros 2
    if signed then
      let g := spdmSign "responder-measurements signing" (s.doe.vca ++ [0x12, 0xE0, 1, byteOf index] ++ nonce ++ [0] ++ body) n.2
      answer (body ++ g.1) g.2
    else answer body n.2

/-- GET_MEASUREMENTS (R138). -/
def execGetMeasurements (index : Nat) (signed : Bool) (nonce : Bytes) (s : State) : Host.Outcome State Fault Refusal :=
  .next (object (5 + nonce.length) (negotiated (spdmMeasure index signed nonce)) s)

/-! ### Sessions (R137, R140) -/

/-- KEY_EXCHANGE: at most two sessions, on slot 0. The answer holds random data, the module's exchange data, a summary of the measurements
where one is asked for, the signature over the transcript and the verify data under the handshake secret. -/
def spdmExchange (req : Bytes) (s : State) : State :=
  if !s.sc.certBank || byteAt req 3 != 0 then refuse spdmInvalid s
  else match [0, 1].find? (fun n => !(s.doe.sessions.any (fun x => x.1 == n))) with
  | none => refuse spdmLimit s
  | some n =>
    match spdmAgree (exchangeData req) s with
    | none => refuse spdmInvalid s
    | some (z, own, u) =>
      let r := drawBytes 32 u
      let summary := if byteAt req 2 == 0 then [] else sha384 (measurements s).flatten
      let body := [0x12, 0x64, 0, 0] ++ leBytes 2 n ++ [0, 0] ++ r.1 ++ own ++ summary ++ zeros 2
      let t := s.doe.vca ++ sha384 Config.spdmChain ++ req ++ body
      let g := spdmSign "responder-key_exchange_rsp signing" t r.2
      let k := handshakeKeys n (fieldLE req 4 2 + 65536 * n) z (t ++ g.1)
      let v := spdmMac (finishedKey k.response) (sha384 k.transcript)
      let k := { k with transcript := k.transcript ++ v }
      answer (body ++ g.1 ++ v) { g.2 with doe := { g.2.doe with sessions := g.2.doe.sessions ++ [(n, false)], secrets := g.2.doe.secrets ++ [k] } }

/-- A session ends: it is gone with its secrets, and the streams it programmed are Insecure (R140). -/
def dropSession (n : Nat) (s : State) : State :=
  { s with doe := { s.doe with sessions := s.doe.sessions.filter (fun x => x.1 != n), secrets := s.doe.secrets.filter (fun k => k.session != n),
                               streams := s.doe.streams.map (fun x => if x.session == n then { x with secure := false } else x) } }

/-- The MAC that a session's FINISH must carry. -/
def finishMac (s : State) (n : Nat) : Bytes :=
  let k := secretsOf s n
  spdmMac (finishedKey k.request) (sha384 (k.transcript ++ [0x12, 0xE5, 0, 0]))

/-- The session is established: its secrets go on to those of the whole handshake. -/
def establish (n : Nat) (mac : Bytes) (s : State) : State :=
  { s with doe := { s.doe with sessions := s.doe.sessions.map (fun x => if x.1 == n then (n, true) else x),
                               secrets := modFirst (fun k => k.session == n)
                                 (fun k => sessionKeys k (k.transcript ++ [0x12, 0xE5, 0, 0] ++ mac ++ [0x12, 0x65, 0, 0])) s.doe.secrets } }

/-- A request taken in a session. -/
def counted (n : Nat) (s : State) : State :=
  { s with doe := { s.doe with mailbox := [], secrets := modFirst (fun k => k.session == n) (fun k => { k with received := k.received + 1 }) s.doe.secrets } }

/-- A request that a session protects. The mailbox holds its record: one that does not open ends the session, one of another message is
refused. With nothing in the mailbox the request stands for a record that opens to it (log 39). -/
def opened (n : Nat) (body : Bytes) (k : State → State) (s : State) : State :=
  if s.doe.mailbox.isEmpty then k (counted n s)
  else match openRequest (secretsOf s n) s.doe.mailbox with
    | none => refuse spdmDecrypt (dropSession n { s with doe := { s.doe with mailbox := [] } })
    | some b => if b == body then k (counted n s) else refuse spdmInvalid (counted n s)

/-- FINISH: the handshake of a session ends, or a bad MAC ends the session. -/
def spdmFinish (n : Nat) (mac : Bytes) (s : State) : State :=
  if !(s.doe.sessions.contains (n, false)) then refuse spdmSession s
  else opened n ([0x12, 0xE5, 0, 0] ++ mac) (fun s =>
    if mac != finishMac s n then refuse spdmDecrypt (dropSession n s)
    else establish n mac (answerIn n [0x12, 0x65, 0, 0] s)) s

/-- A request inside an established session. -/
def inSession (n : Nat) (body : Bytes) (k : State → State) (s : State) : State :=
  if s.doe.sessions.contains (n, true) then opened n body k s else refuse spdmSession s

/-- END_SESSION. -/
def spdmEnd (n : Nat) (s : State) : State := inSession n [0x12, 0xEC, 0, 0] (fun s => dropSession n (answerIn n [0x12, 0x6C, 0, 0] s)) s

/-- KEY_EXCHANGE (R137). -/
def execKeyExchange (req : Bytes) (s : State) : Host.Outcome State Fault Refusal := .next (object req.length (negotiated (spdmExchange req)) s)
/-- FINISH (R137). -/
def execFinish (session : Nat) (mac : Bytes) (s : State) : Host.Outcome State Fault Refusal := .next (object (4 + mac.length) (spdmFinish session mac) s)
/-- END_SESSION (R137, R140). -/
def execEndSession (session : Nat) (s : State) : Host.Outcome State Fault Refusal := .next (whileOpen (spdmEnd session) s)
/-- SPDM_UNSUPPORTED_REQUEST (R137). -/
def execSpdmUnsupportedRequest (code : Nat) (s : State) : Host.Outcome State Fault Refusal :=
  .next (whileOpen (fun s => emit (.doe [0x12, 0x7F, byteOf spdmUnsupported, byteOf code]) s) s)

/-! ### IDE_KM (R139, R140) -/

/-- The entry of a key set, sub-stream and direction. -/
def ideKey (p : IdeSlot) : Nat × Nat × Bool := (p.keySet, p.sub, p.rx)
/-- Another key set of the same sub-stream and direction. -/
def sameLane (p : IdeSlot) (k : Nat × Nat × Bool) : Bool := k.2.1 == p.sub && k.2.2 == p.rx
/-- Every sub-stream has a key set in use in both directions. -/
def allActive (x : IdeStream) : Bool :=
  [0, 1, 2].all (fun i => x.active.any (fun k => k.2 == (i, true)) && x.active.any (fun k => k.2 == (i, false)))

/-- A vendor-defined message of the PCI-SIG: its header, then the protocol of IDE_KM and its object (PRESUMED, log 21). -/
def vendorMsg (code : Nat) (obj : Bytes) : Bytes :=
  [0x12, byteOf code, 0, 0] ++ leBytes 2 3 ++ [2] ++ leBytes 2 1 ++ leBytes 2 (obj.length + 1) ++ [0] ++ obj

/-- The key set, direction and sub-stream of a slot as one byte. -/
def laneByte (p : IdeSlot) : Byte := byteOf (p.keySet + bitAt p.rx 1 + p.sub * 16)

/-- An IDE_KM request about a slot. -/
def ideRequest (obj : Nat) (p : IdeSlot) : Bytes := vendorMsg 0xFE ([byteOf obj, 0, 0, byteOf p.stream, 0, laneByte p, 0] ++ (if obj == 2 then p.key ++ p.iv else []))

/-- An IDE_KM answer: its object, and the slot it is about. -/
def ideAnswer (n obj status : Nat) (p : IdeSlot) (s : State) : State :=
  answerIn n (vendorMsg 0x7E [byteOf obj, 0, 0, byteOf p.stream, byteOf status, laneByte p, 0]) s

/-- QUERY: the streams and whether they are Secure. -/
def ideQuery (n : Nat) (s : State) : State :=
  inSession n (vendorMsg 0xFE [0, 0, 0])
    (fun s => answerIn n (vendorMsg 0x7E ([1, 0, 8] ++ s.doe.streams.flatMap (fun x => [byteOf x.id, byteOf (bitAt x.secure 0)]))) s) s

/-- The key and IV of a key set, in place of an older one. -/
def ideMats (p : IdeSlot) (x : IdeStream) : List ((Nat × Nat × Bool) × Bytes × Bytes) :=
  x.mats.filter (fun m => m.1 != ideKey p) ++ [(ideKey p, p.key, p.iv)]

/-- A stream is in use: its session lives, and it has keys (R139, R140; log 39). -/
def streamUsed (s : State) (x : IdeStream) : Bool := s.doe.sessions.contains (x.session, true) && !x.keys.isEmpty

/-- KEY_PROG: a key set is programmed with a 256-bit key and an IV of 8 bytes; at most 8 streams are in use at once, and a key set in use takes no
new key. -/
def ideProg (n : Nat) (p : IdeSlot) (s : State) : State :=
  inSession n (ideRequest 2 p) (fun s =>
    let known := s.doe.streams.any (fun x => x.id == p.stream)
    let busy := s.doe.streams.any (fun x => x.id == p.stream && x.active.contains (ideKey p))
    let used := s.doe.streams.filter (streamUsed s)
    if p.keySet > 1 || p.sub > 2 || p.stream > 255 || busy || (!known && used.length ≥ 8) then ideAnswer n 3 3 p s
    else if p.key.length != 32 || p.iv.length != 8 then ideAnswer n 3 1 p s
    else
      let base := if known then s.doe.streams else used ++ [{ id := p.stream, session := n }]
      let upd : IdeStream → IdeStream := fun x => { x with session := n, keys := if x.keys.contains (ideKey p) then x.keys else x.keys ++ [ideKey p], mats := ideMats p x }
      ideAnswer n 3 0 p { s with doe := { s.doe with streams := modFirst (fun x => x.id == p.stream) upd base } }) s

/-- K_SET_GO: the stream switches to a programmed key set.
DESIGN CHOICE (log 39): keys programmed before a stream became Insecure serve again, since R140 does not say that it forgets them. -/
def ideGo (n : Nat) (p : IdeSlot) (s : State) : State :=
  inSession n (ideRequest 4 p) (fun s =>
    let upd : IdeStream → IdeStream := fun x =>
      if x.keys.contains (ideKey p) then
        let y := { x with active := x.active.filter (fun k => !(sameLane p k)) ++ [ideKey p],
                          since := x.since.filter (fun (e : (Nat × Nat × Bool) × Nat) => e.1 != ideKey p) ++ [(ideKey p, s.out.length)] }
        { y with secure := allActive y }
      else x
    ideAnswer n 6 0 p { s with doe := { s.doe with streams := modFirst (fun x => x.id == p.stream) upd s.doe.streams } }) s

/-- K_SET_STOP: the key set is no longer in use and its key is gone, and the stream is Insecure. -/
def ideStop (n : Nat) (p : IdeSlot) (s : State) : State :=
  inSession n (ideRequest 5 p) (fun s =>
    let upd : IdeStream → IdeStream := fun x =>
      if x.active.contains (ideKey p) then
        { x with active := x.active.filter (fun k => k != ideKey p), keys := x.keys.filter (fun k => k != ideKey p),
                 mats := x.mats.filter (fun m => m.1 != ideKey p), secure := false }
      else x
    ideAnswer n 6 0 p { s with doe := { s.doe with streams := modFirst (fun x => x.id == p.stream) upd s.doe.streams } }) s

/-- A stream is Insecure. -/
def ideInsecure (stream : Nat) (s : State) : State :=
  { s with doe := { s.doe with streams := modFirst (fun (x : IdeStream) => x.id == stream) (fun x => { x with secure := false }) s.doe.streams } }

/-- A Secure stream that detects an integrity failure is Insecure; its failing TLP is discarded, and a job whose DMA read is lost with it ends
with TRANSLATION_FAULT. Later TLPs of the stream are discarded where they arrive (`ideDiscards`; R140). -/
def ideFail (stream : Nat) (lost : Option Nat) (s : State) : State :=
  if !(s.doe.streams.any (fun x => x.id == stream && x.secure)) then s
  else match lost with
  | some id => jobDmaFault id (ideInsecure stream s)
  | none => ideInsecure stream s

/-- IDE_KM_QUERY (R139). -/
def execIdeKmQuery (session : Nat) (s : State) : Host.Outcome State Fault Refusal := .next (whileOpen (ideQuery session) s)
/-- IDE_KM_KEY_PROG (R139). -/
def execIdeKmKeyProg (session : Nat) (p : IdeSlot) (s : State) : Host.Outcome State Fault Refusal := .next (whileOpen (ideProg session p) s)
/-- IDE_KM_K_SET_GO (R139). -/
def execIdeKmKSetGo (session : Nat) (p : IdeSlot) (s : State) : Host.Outcome State Fault Refusal := .next (whileOpen (ideGo session p) s)
/-- IDE_KM_K_SET_STOP (R139). -/
def execIdeKmKSetStop (session : Nat) (p : IdeSlot) (s : State) : Host.Outcome State Fault Refusal := .next (whileOpen (ideStop session p) s)
/-- IDE_INTEGRITY_FAILURE (R140). -/
def execIdeIntegrityFailure (fail : IdeLoss) (s : State) : Host.Outcome State Fault Refusal := .next (ideFail fail.stream fail.lost s)

end Sys2Proof.Machine
end

