-- ==== Sys2Proof/Machine/FaultRows.lean ====
section
/-!
DEFINITION. Faults of units and of the SC: hangs, noise sources, lockstep, mask reseeds, channel link failures, FAULT_ACK (R18 to R20, R494 to
R498).
-/
namespace Sys2Proof.Machine

/-! ### FAULT_ACK (R476, R494) -/

/-- A record belongs to a FAULT_STATUS bit. -/
def faultOf (bit : Nat) (r : AlmRec) : Bool :=
  match bit with
  | 0 => r.kind == 0x0602 && byteAt r.payload 2 == 0
  | 1 => r.kind == 0x0602 && byteAt r.payload 2 == 1
  | 2 => r.kind == 0x0603 && r.source / 256 != 8
  | 3 => r.kind == 0x0604
  | 5 => r.kind == 0x0606
  | 7 => r.kind == 0x0608
  | 8 => r.kind == 0x0609
  | 9 => r.kind == 0x060A
  | 10 => r.kind == 0x060B
  | 11 => r.kind == 0x060C
  | 12 => r.kind == 0x060D
  | 13 => r.kind == 0x0601
  | 14 => r.kind == 0x060E
  | 15 => r.kind == 0x0603 && r.source / 256 == 8
  | _ => false

/-- A FAULT record of a bit is not yet committed. -/
def faultPending (s : State) (bit : Nat) : Bool :=
  s.alm.staging.any (faultOf bit) || s.alm.windows.any (fun (w : CoalWin) => match w.first with | some r => faultOf bit r | none => false)

/-- A write of FAULT_ACK: bits whose FAULT records are committed clear, with their counts. -/
def faultAck (v : Nat) (s : State) : State :=
  if !(barOpen s .pf0 && !(s.fnOf .pf0).resetting) then s
  else
    let go := fun (n : Nat) => bitOf v n && !(faultPending s n)
    let mask := ((List.range 16).map (fun n => bitAt (go n) n)).sum
    { s with flt := { s.flt with status := s.flt.status &&& ~~~(BitVec.ofNat 16 mask), counts := s.flt.counts.mapIdx (fun n c => if go n then 0 else c) } }

/-! ### Units (R495, R496) -/

/-- A unit that holds a job has made no progress for 20 µs: the record and the fence. A job that KERNEL_STEP halts is no hang (R462). -/
def unitHang (u : Nat) (s : State) : State :=
  match (s.unit? u).bind (fun (x : UnitSt) => x.job) with
  | none => s
  | some i =>
    if s.dbg.halted == some i || s.clk < ((s.unit? u).map (fun (x : UnitSt) => x.busySince)).getD 0 + 20000 then s
    else
      let op := ((s.job? i).map (fun (j : Job) => dOp j.desc)).getD 0
      fenceUnit u 13 (raiseEvent 0x060F u (leBytes 2 op) s)

/-! ### Noise sources and the DRBGs (R19, R20) -/

/-- Noise sources that pass. -/
def sourcesOk (s : State) : Nat := (s.sc.sources.filter id).length

/-- Fewer than two sources pass: the DRBGs stop, and jobs in flight that need randomness end with ABORTED_FAULT (R20). -/
def stopDrbgs (s : State) : State :=
  let s := { s with sc := { s.sc with drbgOn := false }, flt := { s.flt with degraded := true } }
  abortJobs .abortedFault (fun (j : Job) => needsRandomB s j.desc j.block) s

/-- A source fails a health test: it is excluded, with a FAULT record, whether or not the DRBGs still run (R19). -/
def sourceFails (source test : Nat) (s : State) : State :=
  if !(s.pwr.pg && s.sc.sources.getD source false) then s
  else
    let s := faultEvent 10 0x060B (0x600 + source) [byteOf source, byteOf test] { s with sc := { s.sc with sources := modAt s.sc.sources source (fun _ => false) } }
    if sourcesOk s < 2 && s.sc.drbgOn then stopDrbgs s else s

/-! ### Lockstep, masks and channels (R18, R473, R495) -/

/-- A lockstep mismatch: the SC's is QUARANTINE, the Orrery's only pauses dispatch. -/
def lockstepFault (orrery : Bool) (s : State) : State :=
  if !s.pwr.pg then s
  else
    let s := noteMismatch (faultEvent 11 0x060C (if orrery then 0x0900 else 0x0500) [byteOf (bitAt orrery 0)] s)
    if orrery then s else quarantine 4 s

/-- A channel's link fails (R495, R498). -/
def channelFails (ch : Nat) (s : State) : State := if s.pwr.pg then fenceChannel ch s else s

/-! ### Commands -/

/-- FAULT_ACK (R494). -/
def execFaultAck (value : Word) (s : State) : Host.Outcome State Fault Refusal := .next (faultAck value.toNat s)
/-- HANG (R495). -/
def execHang (unit : Nat) (s : State) : Host.Outcome State Fault Refusal := .next (unitHang unit s)
/-- ENTROPY (R19). -/
def execEntropy (source test : Nat) (s : State) : Host.Outcome State Fault Refusal := .next (sourceFails source test s)
/-- LOCKSTEP (R495). -/
def execLockstep (orrery : Bool) (s : State) : Host.Outcome State Fault Refusal := .next (lockstepFault orrery s)
/-- MASK_RESEED (R18). -/
def execMaskReseed (unit : Nat) (s : State) : Host.Outcome State Fault Refusal := .next (reseedMask unit s)
/-- DRAM_CHANNEL_LINK_FAILURE (R495). -/
def execDramChannelLinkFailure (chan : Nat) (s : State) : Host.Outcome State Fault Refusal := .next (channelFails chan s)

end Sys2Proof.Machine
end

