-- ==== Sys2Proof/Machine/HashSigJobs.lean ====
section
/-!
DEFINITION. The jobs of the stateful signature schemes (R296 to R305): SIGN with its build step, VERIFY, PREPARE, PUBLIC_KEY.
-/
namespace Sys2Proof.Machine

/-- One missing leaf of a next tree is built, on the lowest level that has one (R303). -/
def buildLeaf (k : StatefulKey) : StatefulKey :=
  let missing := fun (i : Nat) => decide (k.nextBuilt.getD i 0 < 2 ^ (levelHeights k).getD i 0)
  match ((List.range k.heights.length).reverse).find? missing with
  | some i => { k with nextBuilt := modAt k.nextBuilt i (· + 1) }
  | none => k

/-- The build step of a SIGN: up to two leaves, on the key's cache as it stands (R303). -/
def buildStep (h : Nat) (k : StatefulKey) : StatefulKey := if k.version == hGen h && k.prepared then buildLeaf (buildLeaf k) else k

/-- A SIGN that has its input builds first, whatever its later steps come to (R303). -/
def buildFirst (x : JobRun) (s : State) : State :=
  match runnable s 0x1301 x with
  | none => s
  | some j =>
    if x.more || (inputOf j.desc x.input x.inList).2.isSome then s
    else match j.skey with
    | some k => onStateful k.domain k.index (buildStep (dKey j.desc)) s
    | none => s

/-- SIGN (R298, R299, R303): the signature of the job's leaf, which INLINE names; a bottom signature that does not verify is a fault. -/
def svcHssSign (j : Job) (inp : Bytes) (s : State) : Result × State :=
  match j.skey, j.leaf with
  | some k, some g =>
    let sig := hssSign (k.param % 256) k.heights k.seed k.ident g inp
    ({ staged := sig, inline := leBytes 8 g, faulty := !(hssBottomOk (k.param % 256) k.heights k.seed k.ident g sig inp) }, s)
  | _, _ => ({ status := .ledgerUnavailable }, s)

/-- VERIFY of LMS, HSS, XMSS and XMSS^MT (R300). -/
def svcHssVerify (j : Job) (inp : Bytes) (s : State) : Result × State :=
  let d := j.desc
  let ps := dParam d
  let pk := dSpecLE d 52 4
  let sg := dSpecLE d 56 4
  let pub := inp.take pk
  let sig := sliceOf inp pk sg
  let m := inp.drop (pk + sg)
  let ok :=
    if ps / 65536 == 0x80 then (match xmssSet (ps % 256) with | some x => xmssVerify x false (ps % 256) pub sig m | none => false)
    else if ps / 65536 == 0x81 then (match xmssMtSet (ps % 256) with | some x => xmssVerify x true (ps % 256) pub sig m | none => false)
    else hssVerify (ps / 65536) (ps % 256) (ps / 256 % 256) pub sig m
  (verdict ok, s)

/-- A key whose cache holds every current and next tree (R302). -/
def prepareKey (h : Nat) (k : StatefulKey) : StatefulKey :=
  if k.version != hGen h || k.prepared then k
  else { k with prepared := true, nextBuilt := (levelHeights k).map (2 ^ ·), cacheTree := k.next / 2 ^ bottomHeight k }

/-- PREPARE (R302). -/
def svcPrepare (j : Job) (_ : Bytes) (s : State) : Result × State :=
  ({}, onStateful (hDomain (dKey j.desc)) (hSlot (dKey j.desc)) (prepareKey (dKey j.desc)) s)

/-- PUBLIC_KEY: the key, and the leaves that remain in INLINE (R299). -/
def svcPublicKey (j : Job) (_ : Bytes) (s : State) : Result × State :=
  match j.skey with
  | some k => ({ staged := hssPublic (k.param % 256) k.heights k.seed k.ident, inline := leBytes 8 (leafCount k - k.next) }, s)
  | none => ({ status := .ledgerUnavailable }, s)

/-- 0x1301 SIGN. -/
def execHssSign (x : JobRun) (s : State) : Host.Outcome State Fault Refusal := .next (runPlain 0x1301 svcHssSign x (buildFirst x s))

/-- 0x1302 VERIFY. -/
def execHssVerify (x : JobRun) (s : State) : Host.Outcome State Fault Refusal := .next (runPlain 0x1302 svcHssVerify x s)

/-- 0x1303 PREPARE. -/
def execPrepare (x : JobRun) (s : State) : Host.Outcome State Fault Refusal := .next (runPlain 0x1303 svcPrepare x s)

/-- 0x1304 PUBLIC_KEY. -/
def execPublicKey (x : JobRun) (s : State) : Host.Outcome State Fault Refusal := .next (runPlain 0x1304 svcPublicKey x s)

end Sys2Proof.Machine
end

