-- ==== Sys2Proof/Machine/KeyJobs.lean ====
section
/-!
DEFINITION. The key-management jobs: KEYGEN, DERIVE, UNWRAP, WRAP, ERASE and RANDOM (R223 to R229, R279, R289, R320, R355), and the wrapped
blob (R226, R227).
-/
namespace Sys2Proof.Machine

/-! ### Keys as a job pinned them (R24, R218) -/

/-- A key's parameter set, policy, key id and material as a job pinned it. -/
def pinnedKey (s : State) (j : Job) (h : Nat) : KeyCopy :=
  if hType h == 1 then { keyId := (j.mkey.map (fun k => k.keyId)).getD 0, material := keyBytes s j h }
  else match s.slot? (hSlot h), j.pins.find? (fun p => p.1 == hSlot h) with
  | some x, some p =>
    if x.matGen == p.2 then { gen := x.matGen, param := x.param, policy := x.policy, keyId := x.keyId, material := x.material }
    else (x.copies.find? (fun c => c.gen == p.2)).getD {}
  | _, _ => {}

/-! ### The wrapped blob (R226, R227) -/

/-- The AES-256-GCM key of blobs under a wrapping key (R227). -/
def blobKey (wrap : Bytes) : Bytes := kmac256 wrap [] 32 (ascii "YQ9 KEY BLOB")

/-- Bytes [63:0] of a blob (R226). -/
def blobHeader (ktype param : Nat) (policy : BitVec 32) (domain len keyId wrapH wrapId : Nat) (nonce : Bytes) : Bytes :=
  ascii "YQKB" ++ [1, byteOf ktype, byteOf (if hType wrapH == 1 then 1 else 2), byteOf (if hType wrapH == 1 then hSlot wrapH else 0)] ++
    leBytes 3 param ++ [0] ++ leBytes 4 policy.toNat ++ leBytes 2 domain ++ zeros 2 ++ leBytes 4 len ++ leBytes 8 keyId ++ leBytes 8 wrapId ++
    nonce ++ zeros 12

/-- The blob of a key under a wrapping handle, with a drawn nonce (R226, R227). -/
def sealBlob (j : Job) (wrapH : Nat) (k : NewKey) (s : State) : Bytes × State :=
  let w := pinnedKey s j wrapH
  let r := drawBytes 12 s
  let h := blobHeader k.ktype k.param k.policy j.domain k.material.length k.keyId wrapH w.keyId r.1
  (h ++ gcmEnc (blobKey w.material) r.1 h k.material 16, r.2)

/-- The algorithm family that a key type belongs to; 0 for raw keys (R215, R223). -/
def familyOfType : Nat → Nat
  | 0x20 => 0x10
  | 0x21 => 0x11
  | 0x22 => 0x12
  | 0x24 => 0x14
  | 0x25 => 0x14
  | 0x30 => 0x20
  | 0x31 => 0x21
  | 0x32 => 0x22
  | 0x33 => 0x22
  | _ => 0

/-- MATERIAL_LEN fits the key type and its parameter set (R215, R226, R228). -/
def materialFits (typ param len : Nat) : Bool :=
  let fam := familyOfType typ
  if fam == 0 then param == 0 && (rawKeyLen typ 0 == some len || rawKeyLen typ len == some len)
  else keygenPairOk fam param typ && (keygenSizes fam param typ 0).2 == len


/-- The header of a blob passes R228 for a queue's domain, a wrapping handle and its key id. -/
def blobHeaderOk (b : Bytes) (domain wrapH wrapId : Nat) : Bool :=
  let kind := byteAt b 6
  let len := fieldLE b 20 4
  b.take 4 == ascii "YQKB" && byteAt b 4 == 1 && kind == (if hType wrapH == 1 then 1 else 2) &&
    byteAt b 7 == (if kind == 1 then hSlot wrapH else 0) && byteAt b 11 == 0 && fieldLE b 12 4 < 0x2000 && fieldLE b 16 2 == domain &&
    fieldLE b 18 2 == 0 && fieldLE b 32 8 == wrapId && allZero (sliceOf b 52 12) && b.length == 80 + len && materialFits (byteAt b 5) (fieldLE b 8 3) len

/-- The key in a blob, with the id `i`; none where R228 rejects it. -/
def openBlob (j : Job) (b : Bytes) (i : Nat) (s : State) : Option NewKey :=
  let w := pinnedKey s j (dKey j.desc)
  let target := (s.slot? (hSlot (gTarget j.block))).map (fun x => x.ktype)
  let m := gcmDec (blobKey w.material) (sliceOf b 40 12) (b.take 64) (b.drop 64) 16
  if !m.2 || !(blobHeaderOk b j.domain (dKey j.desc) w.keyId) || xtsEqual (byteAt b 5) m.1 || (flag8 j.desc && target != some (byteAt b 5)) then none
  else some { ktype := byteAt b 5, param := fieldLE b 8 3, policy := BitVec.ofNat 32 (fieldLE b 12 4), keyId := i, material := m.1 }

/-! ### KEYGEN (R223 to R225, R279) -/

/-- A raw key of type 0x02 to 0x19 (R224). -/
def pairRaw (typ len : Nat) (s : State) : NewPair × State :=
  let r := drawBytes ((rawKeyLen typ len).getD 0) s
  ({ sk := unequal typ r.1 }, r.2)

/-- The key pair of a KEYGEN by its ALG_FAMILY (R223). -/
def pairOf (j : Job) (s : State) : NewPair × State :=
  let ps := dParam j.desc
  match dAlgFam j.desc with
  | 0x10 => pairMlKem ps s
  | 0x11 => pairMlDsa j ps s
  | 0x12 => pairSlhDsa ps s
  | 0x14 => pairCode j ps s
  | 0x20 => pairRsa j ps s
  | 0x21 => pairEc ps s
  | 0x22 => pairEd ps s
  | _ => pairRaw (dNewType j.desc) (gLength j.block) s

/-- KEYGEN: the pair, its blob where BLOB is set, and the new key. -/
def svcKeygen (j : Job) (_ : Bytes) (s : State) : Result × State :=
  let p := pairOf j s
  match p.1.stop with
  | some r => (r, p.2)
  | none =>
    let i := drawKeyId p.2
    let k : NewKey := { ktype := dNewType j.desc, param := dParam j.desc, policy := BitVec.ofNat 32 (dNewPolicy j.desc), keyId := i.1, material := p.1.sk }
    let b := if flag9 j.desc then sealBlob j (gWrap j.block) k i.2 else ([], i.2)
    ({ staged := p.1.pk ++ b.1, key := some k }, b.2)

/-- 0x4001 KEYGEN (R225). -/
def execKeygen (x : JobRun) (s : State) : Host.Outcome State Fault Refusal := .next (runPlain 0x4001 svcKeygen x s)

/-! ### DERIVE, UNWRAP and WRAP -/

/-- DERIVE: KMAC256 of the source over CONTEXT, with LABEL (R224); no XTS key has equal halves (R355). -/
def svcDerive (j : Job) (_ : Bytes) (s : State) : Result × State :=
  let t := dNewType j.desc
  let m := unequal t (kmac256 (keyBytes s j (dKey j.desc)) (gContext j.block) ((rawKeyLen t (gLength j.block)).getD 0) (gLabel j.block))
  let i := drawKeyId s
  ({ key := some { ktype := t, policy := BitVec.ofNat 32 (dNewPolicy j.desc), keyId := i.1, material := m } }, i.2)

/-- 0x4002 DERIVE (R224). -/
def execDerive (x : JobRun) (s : State) : Host.Outcome State Fault Refusal := .next (runPlain 0x4002 svcDerive x s)

/-- UNWRAP: the key of the blob under a fresh key id, or the mismatch verdict (R225, R228). -/
def svcUnwrap (j : Job) (inp : Bytes) (s : State) : Result × State :=
  let i := drawKeyId s
  match openBlob j inp i.1 s with
  | some k => ({ key := some k }, i.2)
  | none => (verdict false, s)

/-- 0x4003 UNWRAP (R228). -/
def execUnwrap (x : JobRun) (s : State) : Host.Outcome State Fault Refusal := .next (runPlain 0x4003 svcUnwrap x s)

/-- WRAP: the blob of the key to export under the wrapping handle (R226, R227). -/
def svcWrap (j : Job) (_ : Bytes) (s : State) : Result × State :=
  let h := dKey j.desc
  let k := pinnedKey s j h
  let b := sealBlob j (dAux j.desc) { ktype := hType h, param := k.param, policy := k.policy, keyId := k.keyId, material := k.material } s
  ({ staged := b.1, inline := zeros 8 }, b.2)

/-- 0x4004 WRAP (R227). -/
def execWrap (x : JobRun) (s : State) : Host.Outcome State Fault Refusal := .next (runPlain 0x4004 svcWrap x s)

/-! ### ERASE and RANDOM -/

/-- ERASE: complete at once, or waiting for the slot's last reference (R218); a slot that has changed since dispatch fails it, and the
ERASE fetched first is applied first (R219). -/
def eraseRun (x : JobRun) (s : State) : State :=
  match runnable s 0x4005 x with
  | none => s
  | some j =>
    if j.newSlot.isSome || eraseBehind s j (hSlot (dKey j.desc)) then s
    else match eraseStatus s j.domain (dKey j.desc) with
    | some st => failJob j (failEntry j st []) s
    | none =>
      let i := hSlot (dKey j.desc)
      let r := eraseSlot (flag10 j.desc) i s
      if r.2.1 then okJob j { tag := j.tag, restarted := j.restarted, inline := leBytes 4 r.1 } r.2.2
      else r.2.2.onJob j.id (fun j => { j with newSlot := some i, round := r.1 })

/-- 0x4005 ERASE (R218). -/
def execErase (x : JobRun) (s : State) : Host.Outcome State Fault Refusal := .next (eraseRun x s)

/-- RANDOM: LENGTH bytes of the bit generator, streamed (R229). -/
def svcRandom (j : Job) (_ : Bytes) (s : State) : Result × State :=
  let r := jobRandom j (dSpecLE j.desc 52 4) s
  ({ streamed := r.1 }, r.2)

/-- A RANDOM job draws its bytes once an execution, so that a re-execution draws others (R193, R229). -/
def holdRandom (x : JobRun) (s : State) : State :=
  match runnable s 0x4101 x with
  | some j =>
    let r := jobRandom j (dSpecLE j.desc 52 4) s
    r.2.onJob j.id (fun j => { j with rnd := r.1 })
  | none => s

/-- 0x4101 RANDOM (R229). -/
def execRandom (x : JobRun) (s : State) : Host.Outcome State Fault Refusal := .next (runPlain 0x4101 svcRandom x (holdRandom x s))

end Sys2Proof.Machine
end

