-- ==== Sys2Proof/Machine/Lifecycle.lean ====
section
/-!
DEFINITION. Lifecycle transitions, debug rights and stepping (R445 to R464).
-/
namespace Sys2Proof.Machine

/-! ### The fuses (R446) -/

/-- The state codes, in order. -/
def stateCodes : List Nat := [0x01, 0x03, 0x07, 0x0F, 0x1F]

/-- The index of a code's begin and end fuses: the place of its highest 1. -/
def fuseOf (code : Nat) : Nat := Nat.log2 code

/-- A begin fuse burned without its end fuse (R453). -/
def openTransition (s : State) : Option Nat := [4, 3, 2, 1].find? (fun k => s.sc.lcFuses.contains k && !(s.sc.endFuses.contains k))

def burnBegin (k : Nat) (s : State) : State := { s with sc := { s.sc with lcFuses := if s.sc.lcFuses.contains k then s.sc.lcFuses else s.sc.lcFuses ++ [k] } }
def burnEnd (k : Nat) (s : State) : State := { s with sc := { s.sc with endFuses := if s.sc.endFuses.contains k then s.sc.endFuses else s.sc.endFuses ++ [k] } }

/-! ### Acceptance (R447, R448) -/

/-- The present state allows a target. -/
def targetAllowed (code target : Nat) : Bool :=
  (target == 0x03 && code == 0x01) || (target == 0x07 && code == 0x03) || (target == 0x0F && code == 0x07) || target == 0x1F

/-- The precondition of a target (R448). -/
def targetReady (s : State) (target : Nat) : Bool :=
  if target == 0x03 then s.sc.drs.isSome && !s.sc.drsBlown && s.sc.certBank
  else if target == 0x07 then rootFused s else true

/-- LAST_REFUSE for a write of LCS_ADVANCE; 0: accepted (R447, R455). -/
def lcsRefusal (s : State) (v : Nat) : Nat :=
  let target := v % 256
  if v ≥ 65536 || bitsOf v 8 8 != 255 - target || !(stateCodes.contains target) then 1
  else if !(targetAllowed (lcCode s) target) then 2
  else if !(targetReady s target) then 3
  else if s.lcs.busy then 4 else 0

/-- A refused write burns nothing (R447). -/
def lcsRefused (v why : Nat) (s : State) : State :=
  raiseEvent 0x0304 0x0500 (leBytes 4 v ++ [byteOf why]) { s with lcs := { s.lcs with refused := sat8 s.lcs.refused, lastRefuse := why } }

/-! ### Side effects (R450, R451) -/

/-- Jobs end with ABORTED_HOST, every volatile key is destroyed, and QUARANTINE stands with the cause LIFECYCLE, whatever cause it had: row 1 of
RETURNED and SCRAPPED. -/
def endService (s : State) : State :=
  let s := abortJobs .abortedHost (fun _ => true) s
  eraseKeys { s with tam := { s.tam with quarantine := true, qCause := 5 } }

/-- Every entry of the custody bank, used or not, blown to all ones (R450). -/
def blowCustody (s : State) : State :=
  let blow : CustodyEntry → CustodyEntry := fun e => { e with key := List.replicate 40 0xFF, live := false, blown := true }
  { s with sc := { s.sc with custodyBank := s.sc.custodyBank.map blow ++ List.replicate (8 - s.sc.custodyBank.length) (blow {}) } }

/-- The die-side rows of a target that a start repeats (R450, R453). -/
def dieEffects (target : Nat) (s : State) : State :=
  if target == 0x07 then eraseCert (setActive 0 { s with sc := { s.sc with debugLock := true } })
  else if target == 0x0F || target == 0x1F then
    let s := blowCustody s
    let s := { s with sc := { s.sc with rootBlown := true, drsBlown := s.sc.drsBlown || target == 0x1F } }
    eraseCert s
  else s

/-- The token-side rows, with a FULL session open: SCRAPPED's zeroization, the END record, the claim and the session (R450, R452). The
counter table is written before the end fuse (R488). -/
def tokenEffects (target : Nat) (s : State) : State :=
  if !(fullSession s) then s
  else
    let s := saveOverflow s
    let s := if target == 0x1F then zeroArea s else s
    let s := s.onJournal (fun (t : Token) => { t with lcsBegin := none })
    if target == 0x0F || target == 0x1F then endSession (s.onToken (fun (t : Token) => { t with claim := none })) else s

/-- An accepted write: BUSY, the BEGIN record, the begin fuse, and the side effects in table order (R449, R450, R452). -/
def lcsBegin (target : Nat) (s : State) : State :=
  let s := { s with lcs := { s.lcs with busy := true, target := target } }
  let s := if fullSession s then s.onJournal (fun (t : Token) => { t with lcsBegin := some target }) else s
  let s := clampRights (burnBegin (fuseOf target) s)
  let s := if target == 0x0F || target == 0x1F then endService s else s
  if target == 0x07 then tokenEffects target (dieEffects target s) else dieEffects target (tokenEffects target s)

/-- A write of LCS_ADVANCE (R447). -/
def lcsWrite (v : Nat) (s : State) : State :=
  if !(pageOpen s .pf0) then s
  else
    let why := lcsRefusal s v
    if why == 0 then lcsBegin (v % 256) s else lcsRefused v why s

/-- The code before a target's begin fuse was burned. -/
def codeBefore (s : State) (k : Nat) : Nat := 2 ^ ((s.sc.lcFuses.filter (fun n => n != k)).foldl max 0 + 1) - 1

/-- The end fuse and the record (R449, R480). -/
def closeTransition (k : Nat) (s : State) : State :=
  raiseEvent 0x0303 0x0500 [byteOf (codeBefore s k), byteOf (2 ^ (k + 1) - 1)] (burnEnd k s)

/-- The side effects of a transition have finished (R450). A session that an ERASE left to it ends (R472). -/
def lcsFinish (s : State) : State :=
  if !s.lcs.busy then s
  else
    let s := closeTransition (fuseOf s.lcs.target) { s with lcs := { s.lcs with busy := false, target := 0 } }
    if s.sc.sealDead && !s.tam.destroyPending then endSession s else s

/-! ### Debug rights and stepping (R456 to R458, R462) -/

/-- A write of DBG_RIGHTS. -/
def rightsWrite (v : Nat) (s : State) : State := if barOpen s .pf0 && !(s.fnOf .pf0).resetting then setActive (v % 64) s else s

/-- The step registers work: KERNEL_STEP is active and no secret-bearing job is in flight. -/
def maystep (s : State) : Bool := barOpen s .pf0 && !(s.fnOf .pf0).resetting && s.dbg.active.getLsbD 3 && settled s

/-- ARM and CLUSTER as written. -/
def armWrite (v : Nat) (s : State) : State := if maystep s then { s with dbg := { s.dbg with arm := bitOf v 31, cluster := v % 32 } } else s

/-- STEP: the halted job may execute one instruction. -/
def stepWrite (s : State) : State := if maystep s && s.dbg.halted.isSome then { s with dbg := { s.dbg with stepOne := true } } else s

/-- RUN: the halted job runs to its end. -/
def runWrite (s : State) : State := if maystep s && s.dbg.halted.isSome then stepRun s else s

/-- The trace output has sent its frame; the one that a DROPPED frame went before follows it (R464). -/
def frameSent (s : State) : State :=
  let t : State := { s with dbg := { s.dbg with traceBusy := false, traceNext := none } }
  match s.dbg.traceNext with
  | some b => if traceOn s then emit (.trace b) { t with dbg := { t.dbg with traceBusy := true } } else t
  | none => t

/-! ### Commands -/

/-- LCS_ADVANCE_INTEGRATOR (R447, R450). -/
def execLcsAdvanceIntegrator (value : Word) (s : State) : Host.Outcome State Fault Refusal := .next (lcsWrite value.toNat s)
/-- LCS_ADVANCE_FIELDED (R447, R450). -/
def execLcsAdvanceFielded (value : Word) (s : State) : Host.Outcome State Fault Refusal := .next (lcsWrite value.toNat s)
/-- LCS_ADVANCE_RETURNED (R447, R450). -/
def execLcsAdvanceReturned (value : Word) (s : State) : Host.Outcome State Fault Refusal := .next (lcsWrite value.toNat s)
/-- LCS_ADVANCE_SCRAPPED (R447, R450). -/
def execLcsAdvanceScrapped (value : Word) (s : State) : Host.Outcome State Fault Refusal := .next (lcsWrite value.toNat s)
/-- LCS_TRANSITION (R450). -/
def execLcsTransition (s : State) : Host.Outcome State Fault Refusal := .next (lcsFinish s)
/-- DBG_RIGHTS_WRITE (R458). -/
def execDbgRightsWrite (value : Word) (s : State) : Host.Outcome State Fault Refusal := .next (rightsWrite value.toNat s)
/-- DBG_STEP_ARM (R462). -/
def execDbgStepArm (value : Word) (s : State) : Host.Outcome State Fault Refusal := .next (armWrite value.toNat s)
/-- DBG_STEP (R462). -/
def execDbgStep (s : State) : Host.Outcome State Fault Refusal := .next (stepWrite s)
/-- DBG_STEP_RUN (R462). -/
def execDbgStepRun (s : State) : Host.Outcome State Fault Refusal := .next (runWrite s)
/-- TRACE_FRAME_SENT (R464). -/
def execTraceFrameSent (s : State) : Host.Outcome State Fault Refusal := .next (frameSent s)

end Sys2Proof.Machine
end

