-- ==== Sys2Proof/Machine/MaeWords.lean ====
section
/-!
DEFINITION. The command words of a modular arithmetic engine, one at a time (R346, R347, R349): each acts on the private memory of the
program that runs on the engine, and does nothing where none runs (log 22).
-/
namespace Sys2Proof.Machine

/-- The command word with an operation code and operands (R346). -/
def maeWord (op : Nat) (k : MaeCmd) : Nat :=
  op % 256 * 2 ^ 56 + k.len % 256 * 2 ^ 48 + k.dst % 128 * 2 ^ 40 + k.a % 128 * 2 ^ 32 + k.b % 128 * 2 ^ 24 + k.m % 128 * 2 ^ 16

/-- An engine executes a command word of the program that runs on it. -/
def maeExec (op m : Nat) (k : MaeCmd) (s : State) : State :=
  match (s.mae[m]?).bind (fun (e : MaeMem) => e.job) with
  | none => s
  | some id =>
    match s.job? id with
    | some j => if j.phase == .running && dOp j.desc == 0x2310 then { s with mae := modAt s.mae m (fun e => maeCommand e (maeWord op k)) } else s
    | none => s

/-- MAE END (R346). -/
def execMaeEnd (m : Nat) (k : MaeCmd) (s : State) : Host.Outcome State Fault Refusal := .next (maeExec 0 m k s)

/-- MAE ADD (R346). -/
def execMaeAdd (m : Nat) (k : MaeCmd) (s : State) : Host.Outcome State Fault Refusal := .next (maeExec 1 m k s)

/-- MAE SUB (R346). -/
def execMaeSub (m : Nat) (k : MaeCmd) (s : State) : Host.Outcome State Fault Refusal := .next (maeExec 2 m k s)

/-- MAE MUL (R346). -/
def execMaeMul (m : Nat) (k : MaeCmd) (s : State) : Host.Outcome State Fault Refusal := .next (maeExec 3 m k s)

/-- MAE SQR (R346). -/
def execMaeSqr (m : Nat) (k : MaeCmd) (s : State) : Host.Outcome State Fault Refusal := .next (maeExec 4 m k s)

/-- MAE INV (R346). -/
def execMaeInv (m : Nat) (k : MaeCmd) (s : State) : Host.Outcome State Fault Refusal := .next (maeExec 5 m k s)

/-- MAE EXP (R346). -/
def execMaeExp (m : Nat) (k : MaeCmd) (s : State) : Host.Outcome State Fault Refusal := .next (maeExec 6 m k s)

end Sys2Proof.Machine
end

