-- ==== Sys2Proof/Machine/Migrate.lean ====
section
/-!
DEFINITION. SAVE_STATE and RESTORE_STATE: the instance blob (R440 to R444).
-/
namespace Sys2Proof.Machine

/-! ### Keys of a blob (R441) -/

/-- The key that seals a blob. -/
def custodyBlobKey (custody : Bytes) : Bytes := kmac256 custody [] 32 (ascii "YQ9 INSTANCE")
/-- CUSTODY_FP. -/
def custodyFp (custody : Bytes) : Bytes := (kmac256 custody [] 32 (ascii "YQ9 CUSTODY FP")).take 8
/-- The newest live custody key that the SC holds (R441, R469). -/
def custodyKey (s : State) : Option Bytes := if s.sc.custodyCopy then (liveCustody s).head?.map (fun x => x.2.1) else none

/-! ### Records (R442) -/

/-- AQ_SIZE (R167). -/
def aqSizeValue (x : FnState) : Nat := bitAt x.aqEnable 31 + x.aqCqLog2 * 256 + x.aqSqLog2

/-- The instance record, 64 bytes. -/
def instRecord (s : State) (f : Fn) : Bytes :=
  let x := s.fnOf f
  let q := s.sq? f 0xFFFF
  let c := s.cq? f 0xFFFF
  leBytes 8 x.aqSqBase.toNat ++ leBytes 8 x.aqCqBase.toNat ++ leBytes 4 (aqSizeValue x) ++ leBytes 4 ((q.map (fun q => q.head)).getD 0) ++
    leBytes 4 ((q.map (fun q => q.tail)).getD 0) ++ leBytes 4 ((c.map (fun c => c.head)).getD 0) ++ leBytes 4 ((c.map (fun c => c.tail)).getD 0) ++
    leBytes 8 x.evr.base ++ [byteOf x.evr.log2, 0] ++ leBytes 2 x.evr.vector ++ leBytes 4 x.evr.head ++ leBytes 4 x.evr.tail ++
    leBytes 4 x.evr.droppedReg ++ zeros 4

/-- A queue-pair record, 80 bytes. -/
def pairRecord (s : State) (f : Fn) (id : Nat) : Bytes :=
  let q := (s.sq? f id).getD { log2 := 0, latMin := 0 }
  let c := (s.cq? f id).getD { log2 := 0, vector := 0 }
  leBytes 2 id ++ [byteOf (bitAt (s.sq? f id).isSome 0 + bitAt (s.cq? f id).isSome 1), byteOf (qstCode q.st), byteOf q.reason, byteOf (qstCode c.st),
    byteOf c.reason, byteOf q.cls] ++ leBytes 8 q.base ++ leBytes 8 c.base ++ [byteOf q.log2, byteOf c.log2] ++ leBytes 2 q.cq ++ leBytes 2 q.share ++
    leBytes 2 c.vector ++ leBytes 2 c.k ++ leBytes 2 c.t ++ leBytes 4 q.head ++ leBytes 4 q.tail ++ leBytes 4 c.head ++ leBytes 4 c.tail ++
    leBytes 4 q.latched ++ leBytes 4 c.latched ++ leBytes 4 q.latMin ++ leBytes 4 q.latMax ++ leBytes 8 q.count ++ zeros 4

/-- The entry of a held completion as it stands at the save, phase bit 0. -/
def heldRecord (s : State) (h : Held) : Bytes :=
  let j := (s.job? h.job).getD {}
  let head := ((s.sq? j.fn j.sq).map (fun x => x.head)).getD 0
  overwrite (entryBytes s h.entry (clkTr s > j.deadline) j.sq head 0) 31 [0]

/-- A slot record: 32 bytes, then the material rounded up to 8. -/
def slotSave (x : Slot) : Bytes :=
  leBytes 4 x.idx ++ leBytes 2 x.gen ++ [byteOf x.ktype, 0] ++ leBytes 4 x.policy.toNat ++ leBytes 3 x.param ++ [0] ++ leBytes 4 x.material.length ++
    leBytes 8 x.keyId ++ zeros 4 ++ sliceZ x.material 0 (roundUp x.material.length 8)

/-- HMAC over a Keccak function keeps only its inner state: the outer one follows from the key (log 17). -/
def outerApart (c : Ctx) : Bool := c.engine == 2 && (c.func == 0x3102 || c.func == 0x3103) && !(isSha2 c.param)

/-- The plain STATE of a context, 384 bytes: the opening block, the length of the absorbed additional data, the chaining state (log 20). -/
def ctxPlain (c : Ctx) : Bytes :=
  let ch := if outerApart c then c.chain.take (chainLen c.param) else c.chain
  sliceZ (sliceZ c.block 0 32 ++ leBytes 4 c.aad.length ++ leBytes 2 ch.length ++ ch) 0 384

/-- The 64 bytes before STATE of a context's record (R366). -/
def ctxHead (c : Ctx) (nonce : Nat) : Bytes :=
  ctxRecord c.engine c.func (mkCtxHandle c.domain c.gen c.idx) c.key c.keyId c.param c.order c.total c.segment nonce

/-- A context record of 512 bytes with WRAP_NONCE and TAG 0 (R442). -/
def ctxSave (c : Ctx) : Bytes := ctxHead c 0 ++ ctxPlain c ++ zeros 64

/-- The record of a context in the context store, STATE and TAG under the context-wrapping key (R366). No command shows one: the dispatch that
restores it carries what its tag said. -/
def ctxWrapped (key : Bytes) (nonce : Nat) (c : Ctx) : Bytes :=
  let head := ctxHead c nonce
  head ++ gcmEnc key (leBytes 12 nonce) head (ctxPlain c) 16 ++ zeros 48

/-- A stored record read back: STATE, and whether its tag holds (R366). -/
def ctxUnwrapped (key r : Bytes) : Bytes × Bool := gcmDec key (sliceOf r 52 12) (r.take 64) (sliceOf r 64 400) 16

/-! ### SAVE_STATE (R440, R441) -/

/-- The slots and contexts of a domain that a blob carries. -/
def savedSlots (s : State) (d : Nat) : List Slot := s.slots.filter (fun x => x.st == .occupied && x.ktype != 0 && x.domain == d)
def savedCtxs (s : State) (d : Nat) : List Ctx := s.ctxs.filter (fun c => c.live && c.domain == d)

/-- The completions that a blob carries: the held ones and, DESIGN CHOICE (log 39), those of jobs that a check failed and that still wait for a credit. -/
def heldSaved (s : State) (f : Fn) : List Held :=
  (s.cqs.filter (fun q => q.fn == f)).flatMap (fun q => q.held) ++
    (s.jobs.filter (fun j => j.fn == f && j.phase != .done)).filterMap (fun j => j.failed.map (fun c => { job := j.id, credited := false, entry := c }))

/-- The blob of an instance of type `typ` and number `num` under a nonce. -/
def instanceBlob (s : State) (f : Fn) (typ num d : Nat) (custody nonce : Bytes) : Bytes :=
  let ids := qpUsed s f
  let held := heldSaved s f
  let slots := savedSlots s d
  let ctxs := savedCtxs s d
  let body := instRecord s f ++ (ids.map (pairRecord s f)).flatten ++ (held.map (heldRecord s)).flatten ++ (slots.map slotSave).flatten ++
    (ctxs.map ctxSave).flatten
  let head := ascii "YQIB" ++ [1, byteOf typ] ++ leBytes 2 num ++ leBytes 2 d ++ zeros 2 ++ leBytes 4 (128 + body.length + 16) ++ custodyFp custody ++
    nonce ++ leBytes 4 ids.length ++ leBytes 4 held.length ++ leBytes 4 slots.length ++ leBytes 4 ctxs.length ++ zeros 4 ++ leBytes 8 (transitNow s) ++
    deviceId s ++ sliceZ s.eph.digest 0 32
  head ++ gcmEnc (custodyBlobKey custody) nonce head body 16

/-- SAVE_STATE. -/
def adminSave (e : Bytes) (a : AdminIn) (s : State) : AdminRes :=
  let f := (aTarget e).getD .pf0
  let d := (domainOf s f).getD 0
  onInstance s e
    [(!(s.fnOf f).quiesced, aBad 0x66), (!(domainPolicy s d).getLsbD 1, aFail .keyPolicy 0x6F), ((custodyKey s).isNone, aFail .keyNotFound 0x69)]
    (fun f =>
      let n := drawBytes 12 s
      let b := instanceBlob s f (byteAt e 26) (fieldLE e 24 2) d ((custodyKey s).getD []) n.1
      toBuf a e b (fun s => .ok b.length (leBytes 4 b.length) s) n.2)

/-- SAVE_STATE (R440). -/
def execSaveState (a : AdminIn) (s : State) : Host.Outcome State Fault Refusal := .next (adminRun 0x1100 adminSave a s)

/-! ### RESTORE_STATE (R443, R444) -/

/-- The parts of a blob's body. -/
structure BlobParts where
  inst : Bytes
  pairs : List Bytes
  held : List Bytes
  slots : List Slot
  ctxs : List Bytes

/-- The slot of a record. -/
def slotRead (d : Nat) (r m : Bytes) : Slot :=
  { idx := fieldLE r 0 4, st := .occupied, gen := fieldLE r 4 2, matGen := fieldLE r 4 2, domain := d, ktype := byteAt r 6,
    policy := BitVec.ofNat 32 (fieldLE r 8 4), param := fieldLE r 12 3, keyId := fieldLE r 20 8, material := m, channel := fieldLE r 0 4 / 64 % 8 }

/-- `n` slot records from the front, and the rest; none where the bytes end early. -/
def slotsRead (d : Nat) : Nat → Bytes → Option (List Slot × Bytes)
  | 0, b => some ([], b)
  | n + 1, b =>
    let m := fieldLE b 16 4
    if b.length < 32 + roundUp m 8 then none
    else (slotsRead d n (b.drop (32 + roundUp m 8))).map (fun r => (slotRead d b (sliceOf b 32 m) :: r.1, r.2))

/-- The body's records by the header's counts; none where they do not fill it (R442). -/
def blobParts (h body : Bytes) : Option BlobParts :=
  let qp := fieldLE h 36 4
  let hl := fieldLE h 40 4
  let front := 64 + 80 * qp + 32 * hl
  if body.length < front then none
  else match slotsRead (fieldLE h 8 2) (fieldLE h 44 4) (body.drop front) with
  | none => none
  | some r =>
    if r.2.length != 512 * fieldLE h 48 4 then none
    else some { inst := body.take 64, pairs := chunks 80 (sliceOf body 64 (80 * qp)), held := chunks 32 (sliceOf body (64 + 80 * qp) (32 * hl)),
                slots := r.1, ctxs := chunks 512 r.2 }

/-- The blob opened under a custody key: framing and tag (0x68). -/
def openInstance (custody b : Bytes) : Option BlobParts :=
  let h := b.take 128
  if b.length < 144 || h.take 4 != ascii "YQIB" || byteAt h 4 != 1 || (byteAt h 5 != 1 && byteAt h 5 != 2) || fieldLE h 10 2 != 0 ||
      fieldLE h 12 4 != b.length || fieldLE h 52 4 != 0 then none
  else
    let r := gcmDec (custodyBlobKey custody) (sliceOf h 24 12) h (b.drop 128) 16
    if r.2 then blobParts h r.1 else none

/-- Fields of a queue-pair record. -/
def prId (r : Bytes) : Nat := fieldLE r 0 2
def prHasSq (r : Bytes) : Bool := byteAt r 2 % 2 == 1
def prHasCq (r : Bytes) : Bool := byteAt r 2 / 2 % 2 == 1
def prCls (r : Bytes) : Nat := byteAt r 7
def prShare (r : Bytes) : Nat := fieldLE r 28 2

/-- The SQ of a record: QUIESCED unless it was in ERROR (R444); its unfetched entries count as seen now, its buckets are full. -/
def sqRead (s : State) (f : Fn) (d : Nat) (r : Bytes) : Sq :=
  let n := 2 ^ byteAt r 24
  newSq s { fn := f, id := prId r, st := if byteAt r 3 == 1 then .error else .quiesced, reason := byteAt r 4, latched := fieldLE r 52 4,
            base := fieldLE r 8 8, log2 := byteAt r 24, head := fieldLE r 36 4, tail := fieldLE r 40 4, cls := prCls r, cq := fieldLE r 26 2,
            share := prShare r, domain := d, arrivals := List.replicate (idxDist n (fieldLE r 36 4) (fieldLE r 40 4)) s.clk,
            latMin := fieldLE r 60 4, latMax := fieldLE r 64 4, count := fieldLE r 68 8 }

/-- The CQ of a record with its held completions. -/
def cqRead (f : Fn) (held : List Held) (r : Bytes) : Cq :=
  let n := 2 ^ byteAt r 25
  let c : Cq := { fn := f, id := prId r, st := if byteAt r 5 == 1 then .error else .enabled, reason := byteAt r 6, latched := fieldLE r 56 4,
                  base := fieldLE r 16 8, log2 := byteAt r 25, head := fieldLE r 44 4, tail := fieldLE r 48 4, vector := fieldLE r 30 2,
                  k := fieldLE r 32 2, t := fieldLE r 34 2, held := held.mapIdx (fun i h => { h with credited := decide (i < n) }),
                  credits := n - held.length }
  { c with episode := !held.isEmpty || !c.room }

/-- Held completions of a blob, with internal ids that no job has. -/
def heldRead (s : State) (hs : List Bytes) : List (Nat × Held) :=
  hs.mapIdx (fun i b => (fieldLE b 24 2, { job := s.nextJob + i, entry := { tag := fieldLE b 0 4, bytes := fieldLE b 8 4, fixed := some b } }))

/-- The context of a record under the key material now in its slot. -/
def ctxRead (s : State) (d : Nat) (r : Bytes) : Ctx :=
  let h := fieldLE r 8 8
  let st := sliceOf r 64 384
  let f := fieldLE r 6 2
  let id := fieldLE r 32 3
  let c : Ctx := { idx := cIndex h, gen := cGen h, live := true, domain := d, engine := byteAt r 5, func := f, key := fieldLE r 16 8, keyId := fieldLE r 24 8,
                   param := id, order := byteAt r 35, block := st.take 32, total := fieldLE r 36 8, segment := fieldLE r 44 4,
                   chain := sliceOf st 38 (fieldLE st 36 2), aad := zeros (fieldLE st 32 4) }
  if outerApart c then
    let k := hmacKeyBlock id (((s.slot? (hSlot c.key)).map (fun x => x.material)).getD [])
    { c with chain := c.chain ++ chainAbsorb id (chainIv id) (k.map (· ^^^ 0x5C)) }
  else c

/-- DEST_NOT_EMPTY (R432). -/
def destBusy (s : State) (f : Fn) (d : Nat) : Bool :=
  (s.fnOf f).aqEnable || s.sqs.any (fun q => q.fn == f) || s.cqs.any (fun q => q.fn == f) || slotsUsed s d > 0 || openCtxs s d > 0

/-- INDEX_CONFLICT: an index of the blob is in use. -/
def indexBusy (s : State) (p : BlobParts) : Bool :=
  p.slots.any (fun x => x.idx ≥ 16777216 || (match s.slot? x.idx with | some y => y.st != .free | none => false)) ||
    p.ctxs.any (fun r => match s.ctx? (cIndex (fieldLE r 8 8)) with | some c => c.live || c.busy | none => false)

/-- RESOURCES: slot quota, resident public-key region, context capacity (R432); and, DESIGN CHOICE for want of another detail code, the key-material
arena and the 65,536 queue pairs of the device (R16, R124; log 10). -/
def roomShort (s : State) (d : Nat) (p : BlobParts) : Bool :=
  let bytes := fun (f : Slot → Nat) => (p.slots.map f).sum
  decide (slotsUsed s d + p.slots.length > slotQuota s d) ||
    decide (residentUsed s + bytes (fun x => if x.ktype == 0x28 then x.material.length else 0) > regionCap s .residentKeys) ||
    decide (arenaUsed s + bytes (fun x => if x.ktype == 0x28 then 0 else arenaPart x.material.length) > regionCap s .arena) ||
    decide (ctxKept s + p.ctxs.length > ctxLimit s) || decide (qpTotal s + p.pairs.length > 65536)

/-- SHARE for every SQ in turn (R51): the state with the SQs placed, or none. -/
def placeSqs (f : Fn) (d : Nat) : List Bytes → State → Option State
  | [], s => some s
  | r :: rs, s => if shareBad s (prCls r) (prShare r) then none else placeSqs f d rs { s with sqs := s.sqs ++ [sqRead s f d r] }

/-- The slot or context of a blob at its saved index (R444). -/
def putSlot (x : Slot) (s : State) : State := { s with slots := putWhere (fun (y : Slot) => y.idx == x.idx) { x with st := .occupied } s.slots }
def putCtx (c : Ctx) (s : State) : State :=
  let full := decide (storeUsed s ≥ 8192)
  { s with ctxs := putWhere (fun (y : Ctx) => y.idx == c.idx) { c with spilled := full, nonce := s.sc.wrapNonce + 1 } s.ctxs, sc := { s.sc with wrapNonce := s.sc.wrapNonce + 1 } }

/-- The admin queue and the event ring of a blob (R444). -/
def restoreFn (f : Fn) (b : Bytes) (s : State) : State :=
  let size := fieldLE b 16 4
  let upd : FnState → FnState := fun x =>
    { x with aqSqBase := BitVec.ofNat 64 (fieldLE b 0 8), aqCqBase := BitVec.ofNat 64 (fieldLE b 8 8), aqEnable := bitOf size 31, aqSqLog2 := bitsOf size 0 5,
             aqCqLog2 := bitsOf size 8 5, quiesced := true,
             evr := { present := fieldLE b 36 8 != 0, base := fieldLE b 36 8, log2 := byteAt b 44, vector := fieldLE b 46 2, head := fieldLE b 48 4,
                      tail := fieldLE b 52 4, droppedReg := fieldLE b 56 4 } }
  let s := s.onFn f upd
  let x := s.fnOf f
  if !x.aqEnable then s
  else
    let q := adminSq x
    let q : Sq := { q with st := .quiesced, head := fieldLE b 20 4, tail := fieldLE b 24 4,
                           arrivals := List.replicate (idxDist q.depth (fieldLE b 20 4) (fieldLE b 24 4)) s.clk }
    let c : Cq := { adminCq x with head := fieldLE b 28 4, tail := fieldLE b 32 4 }
    { s with sqs := s.sqs ++ [q], cqs := s.cqs ++ [{ c with episode := !c.room }] }

/-- Everything of a blob at the destination but its SQs, which are placed (R444). -/
def placeRest (f : Fn) (d : Nat) (p : BlobParts) (s : State) : State :=
  let held := heldRead s p.held
  let sqCq := fun (q : Nat) => ((s.sq? f q).map (fun x => x.cq)).getD 0xFFFF
  let cqs := (p.pairs.filter prHasCq).map (fun r => cqRead f ((held.filter (fun h => sqCq h.1 == prId r)).map (fun h => h.2)) r)
  let s : State := { s with cqs := s.cqs ++ cqs, nextJob := s.nextJob + p.held.length }
  let s := p.slots.foldl (fun s x => putSlot x s) s
  let s := p.ctxs.foldl (fun s r => putCtx (ctxRead s d r) s) s
  restoreFn f p.inst s

/-- The checks of R443 from 0x6B on, then the restore. -/
def restoreParts (s : State) (f : Fn) (d : Nat) (h : Bytes) (p : BlobParts) : AdminRes :=
  let sqs := p.pairs.filter prHasSq
  aChecks
    [(fieldLE h 8 2 != d, aBad 0x6B), (destBusy s f d, aBad 0x6A), (p.pairs.any (fun r => prId r ≥ qpIds s f), aBad 0x6D),
     (sqs.any (fun r => prCls r > 15 || (classOf s.eph.cfg (prCls r)).isNone), aBad 0x09), (indexBusy s p, aBad 0x6C),
     (roomShort s d p, aFail .budgetExceeded 0x6E)]
    (fun _ =>
      match placeSqs f d sqs s with
      | none => aFail .budgetExceeded 0x20
      | some s' => .ok 0 [] (placeRest f d p s'))

/-- The custody key that a blob's CUSTODY_FP names, among every live bank entry. -/
def custodyFor (s : State) (fp : Bytes) : Option Bytes :=
  if s.sc.custodyCopy then ((liveCustody s).map (fun x => x.2.1)).find? (fun k => custodyFp k == fp) else none

/-- RESTORE_STATE. -/
def adminRestore (e : Bytes) (a : AdminIn) (s : State) : AdminRes :=
  onInstance s e [((fromBuf a (aBufLen e)).isNone, aFail .translationFault 0x31)] (fun f =>
    let b := (fromBuf a (aBufLen e)).getD []
    match custodyFor s (sliceZ b 16 8) with
    | none => aFail .keyNotFound 0x69
    | some k =>
      match openInstance k b with
      | none => aFail .verifyFailed 0x68
      | some p => restoreParts s f ((domainOf s f).getD 0) (b.take 128) p)

/-- RESTORE_STATE (R443, R444). -/
def execRestoreState (a : AdminIn) (s : State) : Host.Outcome State Fault Refusal := .next (adminRun 0x1200 adminRestore a s)

end Sys2Proof.Machine
end

