-- ==== Sys2Proof/Machine/Kernels.lean ====
section
/-!
DEFINITION. Kernel packages: their layout, the word check at load, and loading a KERNEL item (R107, R421 to R427, R399 to R401).
-/
namespace Sys2Proof.Machine

/-! ### The header and the sections (R421) -/

def pkMae (b : Bytes) : Bool := byteAt b 6 == 2
def pkSigner (b : Bytes) : Nat := byteAt b 7
def pkOwner (b : Bytes) : Bool := pkSigner b == 2
def pkAlg (b : Bytes) : Nat := fieldLE b 8 2
def pkFlags (b : Bytes) : Nat := fieldLE b 10 2
def pkFamily (b : Bytes) : Nat := byteAt b 16
def pkKey (b : Bytes) : Nat := byteAt b 17
def pkOps (b : Bytes) : Nat := fieldLE b 18 2
def pkWcets (b : Bytes) : Nat := fieldLE b 24 2
def pkUntags (b : Bytes) : Nat := fieldLE b 26 2
def pkWords (b : Bytes) : Nat := fieldLE b 28 4
def pkTiles (b : Bytes) : Nat := fieldLE b 32 2
def pkWindow (b : Bytes) : Nat := byteAt b 34
def pkResident (b : Bytes) : Nat := fieldLE b 36 2
def pkWindowed (b : Bytes) : Nat := fieldLE b 38 4
def pkGang (b : Bytes) : Nat := bitsOf (pkFlags b) 4 2
def pkGf2 (b : Bytes) : Bool := bitOf (pkFlags b) 3

/-- Bytes of one word of the code section (R421), and of one entry of the section before it (R427). -/
def pkWordLen (b : Bytes) : Nat := if pkMae b then 8 else 4
def pkListLen (b : Bytes) : Nat := if pkMae b then 8 else 4

/-- Where each section starts. An MAE package carries no modulus table and no constant tiles (R427). -/
def pkWcetAt (b : Bytes) : Nat := 64 + 32 * pkOps b
def pkModAt (b : Bytes) : Nat := pkWcetAt b + 16 * pkWcets b
def pkListAt (b : Bytes) : Nat := pkModAt b + (if pkMae b then 0 else 128)
def pkCodeAt (b : Bytes) : Nat := pkListAt b + pkListLen b * pkUntags b
def pkTileAt (b : Bytes) : Nat := pkCodeAt b + pkWordLen b * pkWords b
def pkSigAt (b : Bytes) : Nat := pkTileAt b + 512 * (pkResident b + pkWindowed b)

/-- `n` records of `w` bytes from `off`. -/
def records (b : Bytes) (off n w : Nat) : List Bytes := (chunks w (sliceOf b off (n * w))).map (fun (x : Bytes) => sliceZ x 0 w)

def kopOf (x : Bytes) : KOp :=
  { opbyte := byteAt x 0, keyType := byteAt x 1, key2Type := byteAt x 2, policyBit := byteAt x 3, ps := fieldLE x 4 3, auxLen := byteAt x 7,
    inMin := fieldLE x 8 4, inMax := fieldLE x 12 4, outBase := fieldLE x 16 4, outPerIn := byteAt x 20, entry := fieldLE x 24 4 }

def kwcetOf (x : Bytes) : KWcet :=
  { ps := fieldLE x 0 3, opbyte := byteAt x 3, vlen := byteAt x 4, order := byteAt x 5, maskBpc := fieldLE x 6 2, wcet := fieldLE x 8 4,
    nps := fieldLE x 12 2, perKib := fieldLE x 14 2 }

def modOf (x : Bytes) : ModEntry := { value := fieldLE x 0 4, method := byteAt x 4, const := fieldLE x 8 4, r2 := fieldLE x 12 4 }

def mapOf (x : Bytes) : Nat × Nat × Nat × Nat := (byteAt x 0, byteAt x 1, fieldLE x 2 2, fieldLE x 4 4)

/-- The declassification list (R421), and the code words. -/
def pkUntagList (b : Bytes) : List Nat := (records b (pkListAt b) (pkUntags b) 4).map leNat
def pkCode (b : Bytes) : List Nat := (records b (pkCodeAt b) (pkWords b) (pkWordLen b)).map leNat
def pkOpEntries (b : Bytes) : List KOp := (records b 64 (pkOps b) 32).map kopOf
def pkWcetEntries (b : Bytes) : List KWcet := (records b (pkWcetAt b) (pkWcets b) 16).map kwcetOf
def pkModEntries (b : Bytes) : List ModEntry := if pkMae b then [] else (records b (pkModAt b) 8 16).map modOf

/-- The package as it is kept once loaded. -/
def pkgOfBytes (b : Bytes) : KernelPkg :=
  { digest := sha3_256 b, orders := bitsOf (pkFlags b) 1 2, mae := pkMae b, owner := pkOwner b, algId := pkAlg b, compatQ4 := bitOf (pkFlags b) 0,
    gf2 := pkGf2 b, gang := pkGang b, version := fieldLE b 12 4, family := pkFamily b, ops := pkOpEntries b, wcets := pkWcetEntries b,
    mods := pkModEntries b, map := if pkMae b then (records b (pkListAt b) (pkUntags b) 8).map mapOf else [], code := pkCode b,
    operandTiles := pkTiles b, windowTiles := pkWindow b, constTiles := records b (pkTileAt b) (pkResident b + pkWindowed b) 512,
    windowed := pkWindowed b }

/-! ### Check 1: format (R426) -/

def inRange (lo hi n : Nat) : Bool := lo ≤ n && n ≤ hi

/-- Reserved bytes of the header, of operation entries and of modulus entries. -/
def pkReservedOk (b : Bytes) : Bool :=
  pkFlags b < 64 && byteAt b 35 == 0 && allZero (sliceOf b 42 22) &&
    (records b 64 (pkOps b) 32).all (fun (x : Bytes) => allZero (sliceOf x 21 3) && allZero (sliceOf x 28 4)) &&
    (pkMae b || (records b (pkModAt b) 8 16).all (fun (x : Bytes) => allZero (sliceOf x 5 3)))

/-- Magic, format, TARGET, TOTAL_LENGTH equal to the item length, counts and reserved fields (R421, R426 check 1). -/
def pkFormatOk (b : Bytes) : Bool :=
  64 ≤ b.length && b.take 4 == ascii "YQKP" && fieldLE b 4 2 == 1 && inRange 1 2 (byteAt b 6) && fieldLE b 20 4 == b.length &&
    inRange 1 64 (pkOps b) &&
    (if pkMae b then pkWcets b == 0 && inRange 1 256 (pkUntags b) && inRange 1 2048 (pkWords b) && pkResident b == 0 && pkWindowed b == 0
     else inRange 1 1024 (pkWcets b) && pkUntags b ≤ 256 && inRange 1 65536 (pkWords b)) &&
    pkSigAt b + 4627 == b.length && pkReservedOk b

/-! ### Checks 2 and 3: signer and signature (R425) -/

/-- The key that signs: Llynyan's, whose digest the SC ROM holds, or the owner kernel key at KEY_INDEX (R425); `none`: no such key. -/
def pkKeyBytes (s : State) (b : Bytes) : Option Bytes :=
  if pkSigner b == 1 then (if pkKey b == 0 then some Config.kernelKey else none)
  else if pkSigner b == 2 && s.tok.keysLoaded then ((s.tok.socket.map (fun (t : Token) => t.kernelKeys)).getD []).findSome? (fun k => if k.1 == pkKey b then some k.2 else none)
  else none

def pkSignatureOk (key b : Bytes) : Bool :=
  mlDsaVerify 3 key (b.drop (pkSigAt b)) (pureMsg (ascii "YQ9-KERNEL") (b.take (pkSigAt b)))

/-! ### Check 6: code words (R399 to R401, R424) -/

/-- What a word's check needs to know of its package. -/
structure WordCtx where
  words : Nat
  owner : Bool
  gf2 : Bool
  untags : List Nat
  mods : List ModEntry

def fmtA (w : Nat) : Nat := bitsOf w 21 5
def fmtB (w : Nat) : Nat := bitsOf w 16 5
def fmtC (w : Nat) : Nat := bitsOf w 11 5

/-- A 16-bit signed immediate. -/
def imm16Of (w : Nat) : Int := if w % 65536 ≥ 32768 then (w % 65536 : Int) - 65536 else (w % 65536 : Int)

/-- A modulus-table entry that is used, with one of the methods (R424). -/
def modIs (c : WordCtx) (w : Nat) (methods : List Nat) : Bool := methods.contains ((c.mods.getD (bitsOf w 8 3) {}).method)

/-- Scalar words: ADD to SLTU; LUI with IMM15 only; SETVL with the EW code in FN; CSRR with no source; VMVX with no RS2 (R399, R400). -/
def scalarWordOk (op w : Nat) : Bool :=
  let i := bitOf w 15
  let rs2 := bitsOf w 10 5
  let fn := bitsOf w 0 10
  if op ≤ 0x0B then i || fn == 0
  else if op == 0x0C then i && fmtB w == 0
  else if op == 0x0D then !i && rs2 == 0 && fn < 4
  else if op == 0x0E then !i && rs2 == 0 && fmtB w == 0 && fn < 4
  else !i && rs2 == 0

/-- Vector words of formats VV and VS (R399 to R401, R404). -/
def vectorWordOk (op w : Nat) : Bool :=
  let fn := bitsOf w 0 5
  let me := bitOf w 10
  if op == 0x19 then fn < 3
  else if op == 0x1A then fn < 6 && fmtA w != fmtB w && fmtA w != fmtC w
  else if op == 0x1B then
    fn < 10 && !me && fmtA w % 4 == 0 && fmtB w % 4 == 0 && (!([0, 1, 4, 8].contains fn) || fmtC w % 4 == 0)
  else if 0x1C ≤ op && op ≤ 0x1F then fn == 0 && fmtA w < 16 && fmtB w < 16 && fmtC w < 16
  else fn == 0

/-- Memory words (R399, R403, R404). -/
def memoryWordOk (op w : Nat) : Bool :=
  let fn := bitsOf w 0 5
  let mode := bitsOf w 5 2
  let me := bitOf w 12
  if op ≤ 0x29 then fn == 0 && mode < 3
  else if op == 0x2A then !me && fmtA w % 4 == 0 && ((fn == 0 && mode < 3) || (fn == 1 && mode == 0))
  else if op == 0x2B then !me && fmtA w % 4 == 0 && fn == 1 && mode == 0
  else fn < 2 && mode == 0 && fmtA w < 16

def hAll (w : Nat) : Bool := 24 ≤ fmtA w && 24 ≤ fmtB w && 24 ≤ fmtC w

/-- H-class words: FN, the address operands, groups, and the method of the Q entry (R399, R401, R405, R424). -/
def hWordOk (c : WordCtx) (op w : Nat) : Bool :=
  let fn := bitsOf w 0 8
  if op == 0x2D then fn == 3 || (fn < 3 && hAll w)
  else if op == 0x2E then fn < 4 && hAll w
  else if op == 0x2F then fn == 0 && 24 ≤ fmtA w && 24 ≤ fmtB w
  else if op == 0x30 then fn < 64 && inRange 3 10 (fn % 16) && hAll w && modIs c w [1, 2]
  else if op == 0x31 then
    ((fn < 6) || (inRange 32 34 fn && fmtA w % 4 == 0 && fmtB w % 4 == 0)) && modIs c w (if fn == 4 || fn == 5 then [1] else [1, 2])
  else if op == 0x32 then
    fn == 0 || fn == 1 || fn == 4 || (fn == 6 && 24 ≤ fmtA w) || ((fn == 2 || fn == 3 || fn == 5) && hAll w)
  else if op == 0x33 then (fn == 0 || fn == 1 || fn == 16 || fn == 17) && 24 ≤ fmtA w && 24 ≤ fmtB w
  else if op == 0x34 then c.gf2 && ((fn == 0 && modIs c w [3]) || fn == 1)
  else fn < 2 && hAll w

/-- Control words at code-word index `i`: branch targets inside the code, every UNTAG listed, no KEYOUT in an owner package (R400, R401). -/
def controlWordOk (c : WordCtx) (i op w : Nat) : Bool :=
  let t : Int := i + imm16Of w
  let inCode : Bool := 0 ≤ t && t < c.words
  let imm := w % 65536
  if op ≤ 0x3A then inCode
  else if op == 0x3B then inCode && 24 ≤ fmtA w
  else if op == 0x3C then true
  else if op == 0x3D then imm < 3 || (imm % 16 == 3 && imm < 64 && c.untags.contains i)
  else imm < 4 && !(c.owner && bitOf imm 1)

/-- A code word of a VCC package (R400, R401). -/
def vccWordOk (c : WordCtx) (i w : Nat) : Bool :=
  let op := bitsOf w 26 6
  if op == 0 || op == 0x36 || op == 0x37 || op == 0x3E then false
  else if op ≤ 0x0F then scalarWordOk op w
  else if op ≤ 0x27 then vectorWordOk op w
  else if op ≤ 0x2C then memoryWordOk op w
  else if op ≤ 0x35 then hWordOk c op w
  else controlWordOk c i op w

/-- A modulus-table entry (R424): an odd modulus with the constants of its method, or a field of degree at most 13. -/
def modEntryOk (m : ModEntry) : Bool :=
  if m.method == 0 then true
  else if m.method == 1 then m.value % 2 == 1 && (m.value * m.const + 1) % 2 ^ 32 == 0 && m.r2 == 2 ^ 64 % m.value
  else if m.method == 2 then m.value % 2 == 1 && m.const == 2 ^ 64 / m.value % 2 ^ 32 && m.r2 == 0
  else m.method == 3 && inRange 1 13 m.const && m.r2 == 0

/-- A command word of an MAE program (R346, R347). -/
def maeCodeWordOk (w : Nat) : Bool :=
  bitsOf w 56 8 ≤ 6 && !bitOf w 47 && !bitOf w 39 && !bitOf w 31 && !bitOf w 23 && bitsOf w 0 16 == 0

/-- Every command word is valid, and the program ends in END (R347, R349). -/
def maeCodeOk (ws : List Nat) : Bool :=
  ws.all maeCodeWordOk && (ws.getLast?.map (fun w => bitsOf w 56 8 == 0)).getD false

/-- An operand-map entry (R427). -/
def mapEntryOk (m : Nat × Nat × Nat × Nat) : Bool := inRange 1 3 m.1 && m.2.1 < 128 && inRange 1 256 m.2.2.1 && (m.1 == 1 || m.2.2.2 == 0)

/-- Check 6 (R426): every code word and table entry. -/
def pkCodeOk (b : Bytes) : Bool :=
  if pkMae b then maeCodeOk (pkCode b) && ((records b (pkListAt b) (pkUntags b) 8).map mapOf).all mapEntryOk
  else
    let c : WordCtx := { words := pkWords b, owner := pkOwner b, gf2 := pkGf2 b, untags := pkUntagList b, mods := pkModEntries b }
    ((pkCode b).mapIdx (fun i w => vccWordOk c i w)).all id && c.mods.all modEntryOk

/-! ### Checks 4, 5 and 7 (R426, R427) -/

/-- Check 4: ALG_ID in the signer's range, and for an owner package not loaded yet. -/
def pkAlgOk (ks : List KernelPkg) (b : Bytes) : Bool :=
  if pkOwner b then 0x8000 ≤ pkAlg b && !(ks.any (fun (k : KernelPkg) => k.algId == pkAlg b)) else pkAlg b < 0x8000

/-- Check 5: the tile counts and sections, and a gang only for family 0x22. -/
def pkSizesOk (b : Bytes) : Bool :=
  inRange 1 448 (pkTiles b) && pkWindow b ≤ 32 && pkWindow b ≤ pkTiles b && pkResident b ≤ 256 && (pkWcetEntries b).all (fun (w : KWcet) => w.nps ≤ 20000) &&
    pkGang b < 3 && (pkGang b == 0 || pkFamily b == 0x22)

/-- Key types of R215 that an owner operation may name: none, or any but DOMAIN_MASTER, KEK and LMS_HSS_SK (R427). -/
def ownerKeyTypes : List Nat :=
  [0x00, 0x03, 0x10, 0x11, 0x12, 0x13, 0x14, 0x18, 0x19, 0x20, 0x21, 0x22, 0x24, 0x25, 0x28, 0x30, 0x31, 0x32, 0x33]

/-- An operation entry of an owner VCC package (R422, R427). -/
def ownerEntryOk (b : Bytes) (o : KOp) : Bool :=
  0x80 ≤ o.opbyte && ((0x10 ≤ pkFamily b && pkFamily b ≤ 0x15) || pkFamily b == 0x22) && ownerKeyTypes.contains o.keyType && ownerKeyTypes.contains o.key2Type

/-- Check 7: operation entries, unique over the loaded packages (R427). -/
def pkOpsOk (ks : List KernelPkg) (b : Bytes) : Bool :=
  let es := pkOpEntries b
  es.all (fun (o : KOp) => (o.policyBit < 32 || o.policyBit == 0xFF) && o.auxLen ≤ 56 && o.outPerIn ≤ 1 && (pkMae b || o.entry < pkWords b) &&
    (if pkMae b then true else if pkOwner b then ownerEntryOk b o else inRange 1 0x7F o.opbyte) &&
    !(ks.any (fun (k : KernelPkg) => (pkOwner b || k.algId != pkAlg b) && k.family == pkFamily b && k.ops.any (fun (x : KOp) => x.opbyte == o.opbyte && x.ps == o.ps))))

/-! ### Loading (R107, R426) -/

/-- The version of the kernel that a vendor package would replace: a loaded one's, or the ROM's; none for an id that neither bears.
DESIGN CHOICE (log 39): a second package of one ALG_ID replaces an earlier one only where it is newer, as it would the ROM kernel. -/
def vendorVersion (s : State) (ks : List KernelPkg) (alg : Nat) : Option Nat :=
  match ks.find? (fun (k : KernelPkg) => k.algId == alg) with
  | some k => some k.version
  | none => if Config.romKernels.contains alg then some (Config.romVersion s.part alg) else none

/-- One KERNEL item: the reason of R107, or the loaded packages with it. A vendor package that is not newer replaces nothing. -/
def loadKernel (s : State) (ks : List KernelPkg) (b : Bytes) : Nat ⊕ List KernelPkg :=
  if !pkFormatOk b then .inl 0x18
  else match pkKeyBytes s b with
    | none => .inl 0x17
    | some key =>
      if !pkSignatureOk key b then .inl 0x17
      else if !(pkAlgOk ks b && pkSizesOk b && pkCodeOk b && pkOpsOk ks b) then .inl 0x18
      else if pkOwner b then .inr (ks ++ [pkgOfBytes b])
      else if ((vendorVersion s ks (pkAlg b)).map (fun v => decide (fieldLE b 12 4 > v))).getD true then .inr (ks.filter (fun (k : KernelPkg) => k.algId != pkAlg b) ++ [pkgOfBytes b])
      else .inr ks

/-- The KERNEL items in item order (R104): the first failure with its item, or all of them loaded. -/
def loadKernels (s : State) : List (Nat × EphBody) → List KernelPkg → (Nat × Nat) ⊕ List KernelPkg
  | [], ks => .inr ks
  | (i, .kernel b) :: r, ks =>
    match loadKernel s ks b with
    | .inl n => .inl (n, i)
    | .inr ks' => loadKernels s r ks'
  | _ :: r, ks => loadKernels s r ks

end Sys2Proof.Machine
end

