-- ==== Sys2Proof/Machine/Ephemeris.lean ====
section
/-!
DEFINITION. The Ephemeris: which image a start tries, its checks in order, its items, embedded AUMs and kernels, and admission (R101 to R110).
-/
namespace Sys2Proof.Machine

/-! ### The layout (R103) -/

def iFlags (b : Bytes) : Nat := fieldLE b 6 2
def iHybrid (b : Bytes) : Bool := iFlags b % 2 == 1
def iSequence (b : Bytes) : Nat := fieldLE b 8 4
def iTotal (b : Bytes) : Nat := fieldLE b 12 4
def iCount (b : Bytes) : Nat := fieldLE b 16 4
def iTarget (b : Bytes) : Bytes := sliceOf b 24 32
def iAuthority (b : Bytes) : Bytes := sliceOf b 56 8
/-- Where the signature block starts. -/
def iSigAt (b : Bytes) : Nat := iTotal b - sigsLen (iHybrid b)

/-- A kind and how often it may appear. -/
def itemKind : EphBody → Nat × Nat
  | .functionMode .. => (0x0001, 1)
  | .meridian .. => (0x0002, 1)
  | .coaxUse .. => (0x0003, 1)
  | .bezel .. => (0x0004, 1)
  | .cls .. => (0x0010, 16)
  | .classPool .. => (0x0011, 64)
  | .domainQuota .. => (0x0020, 65536)
  | .algorithmEnable .. => (0x0030, 1)
  | .reservation .. => (0x0031, 65536)
  | .stagingSplit .. => (0x0040, 1)
  | .tamperFloor .. => (0x0050, 64)
  | .almanacPolicy .. => (0x0060, 1)
  | .aum .. => (0x0070, 16)
  | .kernel .. => (0x0080, 256)
  | .unknown => (0, 0)

/-- The known kinds (R105). -/
def knownKinds : List Nat := [0x01, 0x02, 0x03, 0x04, 0x10, 0x11, 0x20, 0x30, 0x31, 0x40, 0x50, 0x60, 0x70, 0x80]

/-- An item's body: TAMPER_FLOOR, ALMANAC_POLICY, AUM and KERNEL are bytes; a body of another kind is laid out as the manual does not print
(log 38). -/
def bodyOf (kind : Nat) (b : Bytes) : EphBody :=
  match kind with
  | 0x50 => .tamperFloor b
  | 0x60 => .almanacPolicy b
  | 0x70 => .aum b
  | 0x80 => .kernel b
  | _ =>
    match Config.itemBody kind b with
    | some x => if (itemKind x).1 == kind then x else .unknown
    | none => .unknown

/-- The items from byte `off` up to the signature block, `n` of them: where they end, or the number of the first that the framing check refuses: its
kind, its reserved bytes, its length and its padding (R103, R104). -/
def frameItems (b : Bytes) (stop : Nat) : Nat → Nat → Nat → List EphBody → Nat ⊕ (Nat × List EphBody)
  | 0, _, off, acc => .inr (off, acc)
  | n + 1, i, off, acc =>
    let len := fieldLE b (off + 4) 4
    let pad := roundUp len 8 - len
    if off + 8 ≤ stop && knownKinds.contains (fieldLE b off 2) && allZero (sliceOf b (off + 2) 2) && off + 8 + len + pad ≤ stop &&
        allZero (sliceOf b (off + 8 + len) pad) then
      frameItems b stop n (i + 1) (off + 8 + len + pad) (acc ++ [bodyOf (fieldLE b off 2) (sliceOf b (off + 8) len)])
    else .inl i

/-- The framing of every item: the first bad one (0xFFFF where the items do not end at the signature block), or the items. -/
def framing (b : Bytes) : Nat ⊕ List EphBody :=
  match frameItems b (iSigAt b) (iCount b) 0 64 [] with
  | .inl i => .inl i
  | .inr (off, xs) => if off == iSigAt b then .inr xs else .inl 0xFFFF

/-- The items of an image that passed the framing check. -/
def imageItems (b : Bytes) : List EphBody :=
  match framing b with
  | .inr xs => xs
  | .inl _ => []

/-! ### The checks up to the sequence (R104, R107) -/

/-- Magic, format, flags, reserved bytes and lengths. -/
def headerOk (b : Bytes) : Bool :=
  64 ≤ b.length && b.take 4 == ascii "YQEP" && fieldLE b 4 2 == 1 && iFlags b < 2 && allZero (sliceOf b 20 4) && 64 + sigsLen (iHybrid b) ≤ iTotal b

/-- The authority that an image names, among the anchored ones. -/
def imageAuthority (s : State) (b : Bytes) : Option AuthKey :=
  (authorities s).find? (fun (k : AuthKey) => (sha3_256 (authBytes k)).take 8 == iAuthority b)

/-- The signatures over header and items verify under the authority: both for a hybrid one (R103). The context string is empty, ECDSA signs
SHA-384, and a second signature needs a second key (DEDUCED from R232, log 38). -/
def imageSigned (k : AuthKey) (b : Bytes) : Bool :=
  signaturesOk ⟨false, authBytes k, k.hybrid⟩ (iHybrid b) "" (b.take (iSigAt b)) (sliceOf b (iSigAt b) (sigsLen (iHybrid b)))

/-- The reason and item of the first check up to the sequence that fails (R104). -/
def headerFault (s : State) (b : Bytes) : Option (Nat × Nat) :=
  if b.isEmpty then some (0x10, 0xFFFF)
  else if !(headerOk b) then some (0x11, 0xFFFF)
  else if iTotal b > 4194304 then some (0x12, 0xFFFF)
  else if b.length < iTotal b then some (0x11, 0xFFFF)
  else match framing b with
  | .inl i => some (0x11, i)
  | .inr _ =>
    if !(allZero (iTarget b)) && iTarget b != deviceId s then some (0x13, 0xFFFF)
    else match imageAuthority s b with
    | none => some (0x14, 0xFFFF)
    | some k =>
      if !(imageSigned k b) then some (0x15, 0xFFFF)
      else if iSequence b < ((s.tok.socket.map (fun (t : Token) => t.journalSeq)).getD 0) then some (0x16, 0xFFFF)
      else none

/-! ### Items (R105, R467, R490) -/

/-- The TAMPER_FLOOR body (R467). -/
def floorOk (b : Bytes) : Bool :=
  b.length == 8 && byteAt b 0 < 16 && byteAt b 1 < 4 && minClass (byteAt b 0) ≤ byteAt b 1 && byteAt b 2 < 2 &&
    (byteAt b 1 != 3 || byteAt b 2 == 1) && allZero (b.drop 3)

/-- The ALMANAC_POLICY body (R490). -/
def policyOk (b : Bytes) : Bool :=
  b.length == 16 && inRange 1 2 (byteAt b 0) && inRange 50 100 (byteAt b 1) && allZero (sliceOf b 2 2) && inRange 1 3600000 (fieldLE b 4 4) && allZero (b.drop 8)

/-- The values of an item lie in their ranges (R47, R105). -/
def itemInRange : EphBody → Bool
  | .functionMode _ v l => v ≤ 255 && l ≤ 4096
  | .meridian src d h => src ≤ 2 && inRange 1 100 d && h ≤ 65535
  | .cls n d r o => n ≤ 15 && inRange 1 1048576 d && r ≤ 15 && inRange 1 2 o
  | .classPool c p _ sg l ops =>
    c ≤ 15 && inRange 1 65535 sg && ((p != .bce && p != .dge) || inRange 4096 268435456 l) && ops.all (fun (e : OpEntry) => (entryPools e).contains p)
  | .domainQuota d a q f => d ≤ 65535 && a ≤ 16777216 && q ≤ 65536 && f ≤ 8192
  | .reservation _ e => inRange 10 20 e
  | .tamperFloor b => floorOk b
  | .almanacPolicy b => policyOk b
  | _ => true

/-- An earlier item holds what this one may not repeat (R105, R467). -/
def itemRepeats (prev : List EphBody) : EphBody → Bool
  | .cls n _ r _ => prev.any (fun (x : EphBody) => match x with | .cls m _ q _ => n == m || r == q | _ => false)
  | .classPool c p _ _ _ _ => prev.any (fun (x : EphBody) => match x with | .classPool d q _ _ _ _ => c == d && p == q | _ => false)
  | .domainQuota d _ _ _ => prev.any (fun (x : EphBody) => match x with | .domainQuota e _ _ _ => d == e | _ => false)
  | .tamperFloor b => prev.any (fun (x : EphBody) => match x with | .tamperFloor c => byteAt b 0 == byteAt c 0 | _ => false)
  | _ => false

/-- A CLASS_POOL item's class is declared by some CLASS item. -/
def classDeclared (all : List EphBody) : EphBody → Bool
  | .classPool c _ _ _ _ _ => all.any (fun (x : EphBody) => match x with | .cls n _ _ _ => n == c | _ => false)
  | _ => true

/-- An item passes, after the items before it. -/
def itemOk (all prev : List EphBody) (b : EphBody) : Bool :=
  decide ((prev.filter (fun (x : EphBody) => (itemKind x).1 == (itemKind b).1)).length < (itemKind b).2) && itemInRange b && !(itemRepeats prev b) && classDeclared all b

/-- The first item that fails its count or its ranges, in item order (R104, R105). -/
def itemFault (items : List EphBody) : Option Nat := (List.range items.length).find? (fun i => match items[i]? with | some b => !(itemOk items (items.take i) b) | none => false)

/-- An item taken into the configuration. -/
def applyItem (c : EphCfg) (x : Nat × EphBody) : EphCfg :=
  match x.2 with
  | .functionMode sl v l => { c with slice := some sl, vfLimit := v, sliceLimit := l }
  | .meridian src d h => { c with merSource := some src, dialogMs := d, holdoverS := h }
  | .coaxUse t => { c with coaxTrace := t }
  | .bezel d => { c with dark := some d }
  | .cls n d r o => { c with classes := c.classes ++ [{ num := n, d := d, rank := r, order := o, item := x.1 }] }
  | .classPool k p rho sg l ops => { c with pools := c.pools ++ [{ cls := k, pool := p, rho := rho, sigma := sg, lmax := l, ops := ops, item := x.1 }] }
  | .domainQuota d a q f => { c with quotas := c.quotas ++ [(d, a, q, f)] }
  | .algorithmEnable bits => { c with algs := bits }
  | .reservation h e => { c with reservations := c.reservations ++ [(h, e)] }
  | .stagingSplit a b d => { c with split := (a, b, d) }
  | .tamperFloor b => { c with floors := c.floors ++ [(byteAt b 0, byteAt b 1)] }
  | .almanacPolicy b => { c with minSeverity := byteAt b 0, traceSuppress := byteAt b 1, coalesceMs := fieldLE b 4 4 }
  | _ => c

/-- Items with their indices. -/
def numbered (items : List EphBody) : List (Nat × EphBody) := items.mapIdx (fun i b => (i, b))

/-- The configuration that an image's items give. -/
def cfgOf (items : List EphBody) : EphCfg := (numbered items).foldl applyItem {}

/-- The factory configuration (R110). -/
def factoryCfg (p : Part) : EphCfg :=
  let pool := fun (q : Pool) (rho l : Nat) => ({ cls := 0, pool := q, rho := rho, sigma := 4, lmax := l, all := true, cap := 50000000 } : PoolCfg)
  { vfLimit := 4, sliceLimit := 16, classes := [{ num := 0, d := 1048576, rank := 0, order := 1 }],
    pools := [pool .vcc 20 4096, pool .bce 1000 1048576, pool .dge 1000 1048576] ++ (if Config.nMae p == 0 then [] else [pool .mae 20 4096]),
    quotas := (List.range 17).map (fun d => (d, 4096, 64, 256)), allAlgs := true, factory := true }

/-! ### Embedded AUMs (R106) -/

/-- One item: an AUM of the next counter value is checked and applied, an older one skipped, any other item left alone; the state, how
many this start has applied, and the failure.
DESIGN CHOICE (log 39): bytes that an item is too short to hold read as 0, so an AUM without its update counter is an old one. -/
def runAum (i : Nat) (b : EphBody) (n : Nat) (s : State) : State × Nat × Option (Nat × Nat) :=
  match b with
  | .aum m =>
    if uCounter m ≤ counterNow s then (s, n, none)
    else if uCounter m > counterNow s + 1 then (s, n, some (0x1A, i))
    else match aumChecks s m with
    | .inl k => (s, n, some (if k ≤ 7 then 0x19 else 0x1A, i))
    | .inr rec => if n ≥ 16 then (s, n, some (0x1A, i)) else (applyAum true rec s, n + 1, none)
  | _ => (s, n, none)

/-- The AUM items in item order, up to the first failure. -/
def runAums : List (Nat × EphBody) → Nat → State → State × Nat × Option (Nat × Nat)
  | [], n, s => (s, n, none)
  | x :: r, n, s =>
    let a := runAum x.1 x.2 n s
    if a.2.2.isSome then a else runAums r a.2.1 a.1

/-! ### A copy (R101, R104) -/

/-- The image of a copy: 1 is A, 2 is B. -/
def copyImage (s : State) (n : Nat) : Bytes :=
  match s.tok.socket with
  | some t => if n == 1 then t.copyA else t.copyB
  | none => []

/-- What this start has found of the copy it tries. -/
def setTried (copy reason item : Nat) (s : State) : State := { s with boot := { s.boot with copy := copy, reason := reason, item := item } }

/-- Steps 8 to 10 on one copy. -/
def tryCopy (n : Nat) (s : State) : State :=
  let img := copyImage s n
  match headerFault s img with
  | some (r, i) => setTried n r i s
  | none =>
    match itemFault (imageItems img) with
    | some i => setTried n 0x1B i s
    | none =>
      let (s, k, bad) := runAums (numbered (imageItems img)) s.boot.aums s
      let s := { s with boot := { s.boot with aums := k } }
      match bad with
      | some (r, i) => setTried n r i s
      | none => setTried n 0 0xFFFF s

/-- Step 11 on the copy that has passed so far. -/
def tryKernels (s : State) : State :=
  if s.boot.reason != 0 || !([1, 2].contains s.boot.copy) then s
  else match loadKernels s (numbered (imageItems (copyImage s s.boot.copy))) [] with
    | .inl (r, i) => setTried s.boot.copy r i s
    | .inr ks => { s with eph := { s.eph with kernels := ks } }

/-- A verification reason on copy A sends the start to copy B, unless RECOVERY already reads B alone (R101). -/
def fallsBack (s : State) : Bool := s.boot.copy == 1 && 0x10 ≤ s.boot.reason && s.boot.reason ≤ 0x18

/-- Copy B after copy A. -/
def fallback (s : State) : State :=
  if fallsBack s then tryCopy 2 { s with boot := { s.boot with aReason := s.boot.reason } } else s

/-- The factory Ephemeris, where the lifecycle state allows it (R109). -/
def factoryAllowed (s : State) : Bool := lcCode s == 0x01 || lcCode s == 0x03

/-- Every copy read is EMPTY. -/
def allEmpty (s : State) : Bool := s.boot.copy == 2 && s.boot.reason == 0x10 && (s.pwr.straps.getLsbD 6 || s.boot.aReason == 0x10)

/-- Steps 8 to 10: the source of R109, and the copies (R101). A reason that an earlier step set stands,
ENTROPY_FAILED in SCRAPPED too (DESIGN CHOICE: R98 and R109 name one reason each, log 38). -/
def chooseImage (s : State) : State :=
  if s.boot.reason != 0 then s
  else if lcCode s == 0x1F then setTried 0 0x05 0xFFFF s
  else if !(anySession s) then
    if s.tok.present && s.tok.failReason != 0 then setTried 0 s.tok.failReason 0xFFFF s
    else if s.pwr.straps.getLsbD 2 || !(factoryAllowed s) then setTried 0 0x01 0xFFFF s
    else setTried 3 0 0xFFFF s
  else
    let s := if s.pwr.straps.getLsbD 6 then tryCopy 2 s else fallback (tryCopy 1 s)
    if allEmpty s && factoryAllowed s then setTried 3 0 0xFFFF s else s

/-- Step 11: kernels, with the fallback that a KERNEL failure of copy A causes (R101). -/
def chooseKernels (s : State) : State :=
  let s := tryKernels s
  if fallsBack s then tryKernels (fallback s) else s

/-! ### Admission (R56 to R58) -/

/-- The configuration and the item numbers that the start has chosen. -/
def chosenCfg (s : State) : EphCfg := if s.boot.copy == 3 then factoryCfg s.part else cfgOf (imageItems (copyImage s s.boot.copy))
def chosenItems (s : State) : List (Nat × EphBody) := if s.boot.copy == 3 then [] else numbered (imageItems (copyImage s s.boot.copy))

/-- The COAX_USE item, where trace mode meets a coax source (R58). -/
def coaxConflict (s : State) (c : EphCfg) : Option Nat :=
  if c.coaxTrace && (c.merSource.getD (strapSource s.pwr.straps)) == 1 then
    (chosenItems s).findSome? (fun x => match x.2 with | .coaxUse _ => some x.1 | _ => none)
  else none

/-- The STAGING_SPLIT item, where the shares exceed 32 MiB (R14, R58). -/
def splitConflict (s : State) (c : EphCfg) : Option Nat :=
  if c.split.1 + c.split.2.1 + c.split.2.2 > 32 then
    (chosenItems s).findSome? (fun x => match x.2 with | .stagingSplit _ _ _ => some x.1 | _ => none)
  else none

/-- The quotas with their items. -/
def quotaItems (s : State) (f : Nat × Nat × Nat → Nat) : List (Nat × Nat) :=
  (chosenItems s).filterMap (fun x => match x.2 with | .domainQuota _ a q i => some (x.1, f (a, q, i)) | _ => none)

/-- The first failure of the admission check, in the order of R57. -/
def admissionFault (s : State) : Option (Nat × Nat) :=
  let c := chosenCfg s
  let ks := s.eph.kernels
  match resourceConflict s.part ks c (coaxConflict s c) (splitConflict s c) (quotaItems s (fun q => q.1)) (quotaItems s (fun q => q.2.1)) with
  | some f => some f
  | none => poolOrder.findSome? (fun p => poolFailure s.part ks c (inService s p) p)

/-! ### In effect (R102, R111, R112) -/

/-- EPH_STATUS. -/
def ephStatus (s : State) : Nat := s.eph.item * 65536 + s.eph.reason * 256 + s.eph.aReason

/-- SEQUENCE and digest of the image chosen. -/
def chosenSequence (s : State) : Nat := if s.boot.copy == 3 then Config.factorySequence s.part % 2 ^ 32 else iSequence (copyImage s s.boot.copy)
def chosenDigest (s : State) : Bytes := if s.boot.copy == 3 then sliceZ (Config.factoryDigest s.part) 0 32 else sha3_256 ((copyImage s s.boot.copy).take (iTotal (copyImage s s.boot.copy)))

/-- Step 13: admission; the registers; a higher sequence goes into the journal (R102). -/
def admitImage (s : State) : State :=
  let s := if s.boot.reason == 0 then (match admissionFault s with | some (r, i) => setTried s.boot.copy r i s | none => s) else s
  let b := s.boot
  if b.reason != 0 then
    { s with eph := { s.eph with configured := false, factory := false, reason := b.reason, aReason := b.aReason, item := b.item, source := 0, kernels := [] } }
  else
    let seq := chosenSequence s
    let s' : State := if b.copy != 3 && fullSession s && decide (seq > (s.tok.socket.map (fun (t : Token) => t.journalSeq)).getD 0) then s.onJournal (fun (t : Token) => { t with journalSeq := max t.journalSeq seq }) else s
    let e : Eph := { s.eph with configured := true, factory := b.copy == 3, reason := 0, aReason := b.aReason, item := 0xFFFF, sequence := seq, source := b.copy, digest := chosenDigest s }
    { s' with eph := e }

end Sys2Proof.Machine
end

