-- ==== Sys2Proof/Machine/LedgerLink.lean ====
section
/-!
DEFINITION. The ledger link's handshake: transcript, session keys, custody proof and claim, enrolment, and the rewrap of the token content key
(R245, R247, R249 to R251).
-/
namespace Sys2Proof.Machine

/-! ### Keys bound to a token (R247, R249) -/

/-- The custody-auth and custody-seal keys of a custody key and a serial. -/
def custodyAuthKey (custody serial : Bytes) : Bytes := kmac256 custody serial 32 (ascii "YQ9 CUSTODY AUTH")
def custodySealKey (custody serial : Bytes) : Bytes := kmac256 custody serial 32 (ascii "YQ9 CUSTODY SEAL")

/-- The holder tag of this module (R247). -/
def holderTag (s : State) (serial : Bytes) : Bytes := kmac256 (drsKey s [] 32 "YQ9 TOKEN BIND") serial 32 (ascii "YQ9 HOLDER")

/-- The custody proof over a transcript (R247); its length and customization are PRESUMED 256 bits and empty (log 38). -/
def custodyProof (auth transcript : Bytes) : Bytes := kmac256 auth transcript 32 []

/-- The token content key under a custody-seal key; the wrapping is PRESUMED AES Key Wrap (log 38). -/
def wrapTck (custody serial tck : Bytes) : Bytes := kwWrap (custodySealKey custody serial) tck

/-- The wrap of the highest sequence (R251). -/
def newestWrap (t : Token) : Option (Nat × Bytes) :=
  t.wraps.foldl (fun b w => match b with | some x => if x.1 < w.1 then some w else b | none => some w) none

/-- A wrap record that a custody key opens; one that fails its check is treated as never written (R243). -/
def wrapGood (custody serial : Bytes) (w : Nat × Bytes) : Bool := (kwUnwrap (custodySealKey custody serial) w.2).2

/-- The token content key as a custody key opens it, from the wrap that counts (R249, R251). -/
def openTck (custody : Bytes) (t : Token) : Option Bytes :=
  (newestWrap { t with wraps := t.wraps.filter (wrapGood custody t.serial) }).map (fun w => (kwUnwrap (custodySealKey custody t.serial) w.2).1)

/-! ### The messages of step 5 (R245) -/

/-- The SC's first message: nonce Nm, ephemeral ML-KEM-768 encapsulation key, SHA3-256 of the token-authority key. -/
def helloBytes (nm ek : Bytes) : Bytes := nm ++ ek ++ sliceZ Config.tokenAuthority 0 32

/-- The part of the token's answer that it signs, and the whole transcript. -/
def replyBytes (r : TokenReply) : Bytes := r.serial ++ r.pk ++ r.cert ++ r.nonce ++ r.ct
def transcriptOf (hello : Bytes) (r : TokenReply) : Bytes := hello ++ replyBytes r

/-- The token's answer to a hello; it draws Nt, the encapsulation's message and the signature's randomness. The signature's context string is
PRESUMED empty (log 38). -/
def tokenReply (t : Token) (hello ek : Bytes) (s : State) : TokenReply × State :=
  let r := drawBytes 96 s
  let e := mlKemEncaps 2 ek (sliceOf r.1 32 32)
  let a : TokenReply := { serial := t.serial, pk := t.idPk, cert := t.cert, nonce := r.1.take 32, ct := e.2 }
  let mu := mlDsaMu (shake256 t.idPk 64) (pureMsg [] (transcriptOf hello a))
  ({ a with sig := ((mlDsaSignMu 1 t.idSk mu (r.1.drop 64) 1000 0).map (fun x => x.2)).getD [] }, r.2)

/-- The SC accepts an answer: certificate and signature (R245 step 3). -/
def replyGood (hello : Bytes) (r : TokenReply) : Bool :=
  Config.tokenCertGood (sliceZ Config.tokenAuthority 0 32) r.serial r.pk r.cert && mlDsaVerify 1 r.pk r.sig (pureMsg [] (transcriptOf hello r))

/-- The session keys: for frames to the token, then from it. -/
def ledgerKeys (secret transcript : Bytes) : Bytes := kmac256 secret (sha3_256 transcript) 64 (ascii "YQ9 LEDGER")

/-- The IV of a frame: a direction byte, then the 88-bit counter (R245); the direction bytes are PRESUMED 0 to the token and 1 from it (log 38). -/
def frameIv (fromToken : Bool) (count : Nat) : Bytes := [if fromToken then 1 else 0] ++ leBytes 11 count

/-- A frame sealed for one direction (R245); that its counter goes before it is PRESUMED (log 38). -/
def sealFrame (key : Bytes) (fromToken : Bool) (count : Nat) (m : Bytes) : Bytes := leBytes 11 count ++ gcmEnc key (frameIv fromToken count) [] m 16

/-- A frame as its receiver, who has seen frames up to `last`, opens it: its counter and message; none where its counter does not advance or its tag
fails, which breaks the session (R245). -/
def openFrame (key : Bytes) (fromToken : Bool) (last : Nat) (f : Bytes) : Option (Nat × Bytes) :=
  let c := fieldLE f 0 11
  let r := gcmDec key (frameIv fromToken c) [] (f.drop 11) 16
  if c > last && r.2 then some (c, r.1) else none

/-- What both sides hold after step 3: the transcript, the session keys, and the module's generators advanced; none where the SC rejects the
answer. -/
def linkHandshake (hs : Handshake) (t : Token) (s : State) : Option (Bytes × Bytes) × State :=
  let d := drawBytes 96 s
  let kp := mlKemKeyGen 2 (sliceOf d.1 32 32) (d.1.drop 64)
  let hello := helloBytes (d.1.take 32) kp.1
  let a := tokenReply t hello kp.1 d.2
  let r := hs.forged.getD a.1
  if replyGood hello r then (some (transcriptOf hello r, ledgerKeys (mlKemDecaps 2 kp.2 r.ct).1 (transcriptOf hello r)), a.2) else (none, a.2)

/-! ### Custody, claim, enrolment (R247, R249 to R251) -/

/-- The token accepts a custody proof: it computes the same from the custody-auth key beside its wrapped key. -/
def proofGood (t : Token) (transcript proof : Bytes) : Bool :=
  match t.custodyAuth with
  | some a => custodyProof a transcript == proof
  | none => false

/-- The claim latch holds another module's tag. -/
def claimHeld (t : Token) (tag : Bytes) : Bool := match t.claim with | some g => g != tag | none => false

/-- A claim granted: the latch, and a claim record in the journal; a module that holds it already is granted it again. -/
def takeClaim (tag : Bytes) (t : Token) : Token := if t.claim == some tag then t else journalPage { t with claim := some tag }

/-- Enrolment: the custody-auth record and the wrapped key, then the journal with J, and the ENROLLED mark last (R250). -/
def enrol (custody tck : Bytes) (j : Nat) (t : Token) : Token :=
  let t := { t with custodyAuth := some (custodyAuthKey custody t.serial), wraps := [(1, wrapTck custody t.serial tck)], sealedBy := some tck }
  { journalPage { t with journalJ := j } with enrolled := true }

/-- The content key rewrapped under the live entry, with a higher sequence, into the alternate slot (R251). -/
def rewrap (custody tck : Bytes) (t : Token) : Token :=
  let n := ((newestWrap t).map (fun w => w.1)).getD 0
  { t with custodyAuth := some (custodyAuthKey custody t.serial), wraps := t.wraps.filter (fun w => w.1 == n) ++ [(n + 1, wrapTck custody t.serial tck)] }

/-- A session is open: its keys, its kind, status, life and events (R245, R256, R257). The proof, the claim and their answers were its first frames. -/
def sessionOpen (k : SessKind) (entry : Nat) (tck : Option Bytes) (keys : Bytes) (t : Token) (s : State) : State :=
  let s := { s with tok := { s.tok with session := k, custodyEntry := entry, enrolled := t.enrolled, socket := some t, tck := tck,
                                        txKey := keys.take 32, rxKey := keys.drop 32, txCount := 1, rxCount := 1 } }
  sessionEvent (refreshLife s)

/-- Step 4 on a token that answered: custody and claim; the reason of a failure, or the session (R247, R249 to R251). -/
def openCustody (transcript keys : Bytes) (t : Token) (s : State) : Nat ⊕ State :=
  let live := liveCustody s
  let tag := holderTag s t.serial
  if t.enrolled then
    match live.find? (fun x => proofGood t transcript (custodyProof (custodyAuthKey x.2.1 t.serial) transcript)) with
    | none => .inl 0x04
    | some x =>
      if claimHeld t tag then .inl 0x03
      else
        match openTck x.2.1 t, live.head? with
        | some k, some y =>
          let t := takeClaim tag (readSealed k t)
          .inr (sessionOpen .full x.1 (some k) keys (if y.1 == x.1 then t else rewrap y.2.1 k t) s)
        | _, _ => .inl 0x04
  else
    match live.head? with
    | none => .inr (sessionOpen .limited 0xF none keys t s)
    | some x =>
      if claimHeld t tag then .inl 0x03
      else
        let k := drawBytes 32 s
        .inr (sessionOpen .full x.1 (some k.1) keys (takeClaim tag (enrol x.2.1 k.1 (max x.2.2 (256 * s.sc.floor)) t)) k.2)

/-- The module's first frame: the custody proof of its newest live entry and its claim (R245, R247). -/
def claimFrame (transcript keys : Bytes) (t : Token) (s : State) : Bytes :=
  let proof := ((liveCustody s).head?.map (fun x => custodyProof (custodyAuthKey x.2.1 t.serial) transcript)).getD []
  sealFrame (keys.take 32) false 1 (proof ++ holderTag s t.serial)

/-- The first frame reaches the token as it was sent, or as the link delivers it; one that does not open breaks the session (R245). -/
def linkIntact (hs : Handshake) (transcript keys : Bytes) (t : Token) (s : State) : Bool :=
  (openFrame (keys.take 32) false 0 (hs.frame.getD (claimFrame transcript keys t s))).isSome

/-- An attempt at step 5: a session, or the reason it failed, with the state it leaves. -/
def openToken (hs : Handshake) (t : Token) (s : State) : Nat × State :=
  if !hs.answers then (0x02, s)
  else
    let h := linkHandshake hs t s
    match h.1 with
    | none => (0x02, h.2)
    | some (tr, keys) =>
      if !hs.authentic || !(linkIntact hs tr keys t h.2) then (0x02, h.2)
      else match openCustody tr keys t h.2 with
      | .inl r => (r, h.2)
      | .inr s' => (0, s')

end Sys2Proof.Machine
end

