-- ==== Sys2Proof/Machine/Startup.lean ====
section
/-!
DEFINITION. Start-up: the fourteen steps, the token session, reconciliation, and what holds or repeats a step (R92 to R100, R245 to R253, R453,
R510).
-/
namespace Sys2Proof.Machine

/-! ### Step 2: fuses, straps, latches (R84, R85, R92, R453, R461, R463, R479, R510) -/

/-- STRAPS is latched at a start from power-good; a reserved value is recorded (R39, R84, R85), both in one event where LINK_CAP and MERIDIAN
are reserved together (DESIGN CHOICE, log 36). -/
def latchStraps (s : State) : State :=
  let s := if s.boot.fromPg then { s with pwr := { s.pwr with straps := s.boot.env.straps, live := s.boot.env.straps } } else s
  let v := s.pwr.straps.toNat
  if v % 4 == 3 || bitsOf v 4 2 == 3 then raiseEvent 0x0105 0xFF00 [byteOf v] s else s

/-- The certificate store counts one power cycle down, and is erased at 0 (R461). -/
def countCycle (s : State) : State :=
  if !s.boot.fromPg then s
  else match s.dbg.cert with
  | none => s
  | some c => { s with dbg := { s.dbg with cert := if c.cyclesLeft ≤ 1 then none else some { c with cyclesLeft := c.cyclesLeft - 1 } } }

/-- The die-side side effects of a transition whose end fuse is not burned (R453). -/
def repeatDie (s : State) : State :=
  match openTransition s with
  | some k => dieEffects (2 ^ (k + 1) - 1) s
  | none => s

/-- AUX_LOST, recorded once (R75, R480). -/
def noteAuxLost (s : State) : State :=
  if s.pwr.auxLost then raiseEvent 0x0103 0xFF00 (leBytes 3 s.alm.copyHours) { s with pwr := { s.pwr with auxLost := false } } else s

/-- The non-volatile tamper latch sends the start into QUARANTINE, and PF0's first event ring gets a TAMPER event (R75, R471). -/
def readLatch (s : State) : State :=
  if s.tam.sleepLatch then (let s := quarantine 2 s; { s with tam := { s.tam with latchEvent := true } }) else s

/-- Step 2. -/
def stepFuses (s : State) : State :=
  let s := latchStraps s
  let s := if s.boot.env.certBank && lcCode s == 0x01 then { s with sc := { s.sc with certBank := true } } else s
  let s := readLatch (repeatDie (countCycle s))
  let s := noteAuxLost s
  merStart { s with alm := { s.alm with copyCycle := s.alm.powerCycle, copyHours := s.alm.hours } }

/-! ### Step 3: noise sources and keys (R96, R98, R209) -/

/-- The Device Root Secret: drawn at the first start in MAKER, XOR-split with the die's fingerprint and burned into OTP; all ones once SCRAPPED has
blown it (R96, R450). What was burned is read back and checked: a burn that reads back otherwise leaves no secret, and the next start generates a fresh
one (DESIGN CHOICE, log 39). -/
def makeDrs (s : State) : State :=
  if s.sc.drsBlown then { s with sc := { s.sc with drs := some (List.replicate 32 0xFF) } }
  else if s.sc.drs.isNone && lcCode s == 0x01 then
    let d := drawBytes 32 s
    let t : State := { d.2 with sc := { d.2.sc with drs := some (if s.boot.env.badDrs then [] else xorBytes d.1 (sliceZ Config.dieFingerprint 0 32)) } }
    if deviceRoot t == d.1 then t else { t with sc := { t.sc with drs := none } }
  else s

/-- The secret read back from OTP is whole: the SC checks it before it derives any key from it (R96). -/
def drsReads (s : State) : Bool := match s.sc.drs with | some d => d.length == 32 | none => false

/-- The per-boot keys derive from the secret read back from OTP, once it has passed its check; a burn that a power loss cut short leaves none, and the
next start makes one (R96). DESIGN CHOICE (log 39): without a secret that reads back, the start ends as one without noise sources does (R98). -/
def keysFromDrs (s : State) : State :=
  let s := makeDrs s
  if drsReads s then bootKeys s else setTried 0 0x06 0xFFFF (quarantine 3 s)

/-- Step 3. With fewer than two sources the start ends unconfigured, in QUARANTINE (R98). -/
def stepNoise (s : State) : State :=
  let bad := (List.range 4).filter (fun n => !(s.boot.env.sources.getD n true))
  let s := { s with sc := { s.sc with sources := (List.range 4).map (fun n => !(bad.contains n)) } }
  let s := bad.foldl (fun s n => faultEvent 10 0x060B (0x600 + n) [byteOf n, 0] s) s
  if sourcesLeft s < 2 then setTried 0 0x06 0xFFFF (quarantine 3 s)
  else keysFromDrs { s with sc := { s.sc with drbgOn := true } }
where
  sourcesLeft (s : State) : Nat := (s.sc.sources.filter id).length

/-! ### Step 5: the token session (R245 to R251) -/

/-- The delay after the n-th failed attempt, in ns (R97). -/
def retryDelay (n : Nat) : Nat := 100000000 * 2 ^ (n - 1)

/-- Step 5: one attempt; ENROLLED shows what a token that authenticated says of itself (R257). After the fifth failure the start goes on without a session (R97). -/
def stepToken (s : State) : State :=
  if s.boot.reason != 0 || !s.tok.present then s
  else match s.tok.socket with
  | none => s
  | some t =>
    let o := openToken s.boot.env.hs t s
    if o.1 == 0 then o.2
    else
      let s := o.2
      let n := s.boot.attempt + 1
      { s with tok := { s.tok with failReason := o.1, enrolled := t.enrolled && o.1 != 0x02 }, boot := { s.boot with attempt := n, retryAt := s.clk, waiting := decide (n < 5) } }

/-! ### Step 7: reconciliation (R234, R236, R253, R453, R470, R487, R489, R493) -/

/-- A session that may not be used is closed again. -/
def refuseToken (r : Nat) (s : State) : State :=
  sessionEvent (setTried 0 r 0xFFFF { s with tok := { s.tok with session := .noSession, life := none } })

/-- A stateful key at the start: its next leaf is the highest END_LEAF recorded for it, no range, an empty cache; the first reservation is being written
(R253, R302). -/
def startKey (ro : Bool) (recorded : Nat) (k : StatefulKey) : StatefulKey :=
  let e := max (max k.next k.endLeaf) recorded
  { k with next := e, endLeaf := e, ranges := [], prepared := false, nextBuilt := [], lowNoted := false, writing := !ro && decide (e < leafCount k) }

/-- The zeroization that a DESTROY left to do: this start completes into QUARANTINE (R470). -/
def finishDestroy (s : State) : State :=
  if s.tam.destroyPending then
    let s := zeroArea s
    quarantine 1 { s with tam := { s.tam with destroyPending := false } }
  else s

/-- The token-side steps of a transition (R453); a BEGIN whose fuse is not burned is discarded (R452). -/
def finishTransition (s : State) : State :=
  let s := match openTransition s with
    | some k => tokenEffects (2 ^ (k + 1) - 1) s
    | none => s
  s.onToken (fun (t : Token) => { t with lcsBegin := none })

/-- A loss of power in an AUM's apply, as this start finds it: a BEGIN without END of the next counter value (R236). -/
def tornApply (s : State) : State :=
  match s.boot.env.tornAum with
  | some r => if r.counter == counterNow s + 1 && needsToken r.operation then s.onToken (fun (t : Token) => { t with aumBegin := some r }) else s
  | none => s

/-- A custody-bank entry that was burning as power was lost is blown to all ones, skipped and consumed, at step 7 of every start (R236). -/
def tornFuses (s : State) : State :=
  if s.boot.env.tornFuse && s.sc.custodyBank.length < 8 then
    { s with sc := { s.sc with custodyBank := s.sc.custodyBank ++ [{ key := List.replicate 40 0xFF, blown := true }] } }
  else s

/-- A BEGIN without END is completed from its record (R236). -/
def finishAum (s : State) : State :=
  match s.tok.socket.bind (fun (t : Token) => t.aumBegin) with
  | some r => applyAum false r s
  | none => s

/-- The floor that an applied AUM had still to burn (R236). -/
def burnFloor (s : State) : State :=
  let j := (s.tok.socket.map (fun (t : Token) => t.journalJ)).getD 0
  { s with sc := { s.sc with floor := max s.sc.floor (min 4096 (j / 256)) } }

/-- The counters that the journal holds join those of this start (R488). -/
def mergeOverflow (s : State) : State :=
  let kept := (s.tok.socket.map (fun (t : Token) => t.overflow)).getD []
  let add := fun (l : List (Nat × Nat)) (x : Nat × Nat) =>
    let old := ((l.find? (fun y => y.1 == x.1)).map (fun y => y.2)).getD 0
    l.filter (fun y => y.1 != x.1) ++ [(x.1, min 0xFFFFFFFF (old + x.2))]
  { s with alm := { s.alm with overflow := kept.foldl add s.alm.overflow } }

/-- The records that wait are committed, and the loss of an event queue is recorded (R487, R489). -/
def startAlmanac (s : State) : State :=
  let s := mergeOverflow s
  let s := if (s.tok.socket.map (fun (t : Token) => t.almBegin)).getD false then clearAlmanac s else s
  let s := commitAll (s.alm.staging.length + s.alm.queue.length) s
  if s.alm.lostCount > 0 then raiseEvent 0x0308 0xFF00 (leBytes 4 s.alm.lostCount) { s with alm := { s.alm with lostCount := 0 } } else s

/-- The journal of a FULL session. -/
def reconcile (s : State) : State :=
  match s.tok.socket with
  | none => s
  | some t =>
    if t.journalJ < 256 * s.sc.floor then refuseToken 0x16 s
    else
      let s := finishTransition (finishDestroy s)
      if !(fullSession s) then s
      else
        let s := burnFloor (finishAum (tornApply s))
        let s := s.onToken (fun (t : Token) => { t with stateful := t.stateful.map (fun k => startKey t.readOnly (loggedEnd (s.tok.tck.getD []) t k.keyId) k) })
        let s := if s.boot.env.tornErase then noteToken (s.onToken (fun (t : Token) => eraseBlock (lastFreed t) t)) else s
        startAlmanac (loadAnchored s)

/-- Step 7: the journal, the end fuse of a repeated transition, and the stored certificate's rights (R453, R461). -/
def stepJournal (s : State) : State :=
  let s := tornFuses s
  let s := if fullSession s then reconcile s else s
  let s := match openTransition s with
    | some k => closeTransition k s
    | none => s
  { s with dbg := { s.dbg with certLive := s.dbg.cert.isSome } }

/-! ### Step 12: known-answer tests and the pools (R95, R463) -/

/-- The clusters that a certificate with FAULT_INJECT withholds. -/
def withheld (s : State) : Nat := if certHolds s && lcCode s == 0x07 then ((s.dbg.cert.map (fun c => if bitOf c.rights 4 then c.testClusters else 0)).getD 0) else 0

/-- Every unit built in, as its test leaves it. -/
def enumerate (s : State) : List UnitSt :=
  let ids := (List.range (Config.nVcc s.part)).map vccId ++ (List.range (Config.nBce s.part)).map bceId ++ (List.range (Config.nDge s.part)).map dgeId ++
    (List.range (Config.nMae s.part)).map maeId
  let mask := withheld s
  ids.map (fun i =>
    if i < 256 && bitOf mask i then { id := i, st := .withheldTest }
    else if s.boot.env.kat.any (fun k => k.1 == i) then { id := i, st := .fencedKat, cause := 9, fenceAt := transitNow s }
    else { id := i })

/-- Each unit's mask generator takes its first seed and the next one from its quadrant's DRBG (R11, R18). -/
def seedUnits (s : State) : State :=
  (s.units.map (fun (u : UnitSt) => u.id)).foldl (fun s i =>
    let a := drawSeed (quadrantOf s.part i) s
    let b := drawSeed (quadrantOf s.part i) a.2
    b.2.onUnit i (fun x => { x with maskSeed := a.1, maskNext := b.1 })) s

/-- Step 12. -/
def stepKat (s : State) : State :=
  let s := { s with units := enumerate s, dbg := { s.dbg with testMask := withheld s } }
  let s := if s.sc.drbgOn then seedUnits s else s
  let bad := s.boot.env.kat.filter (fun k => s.units.any (fun (u : UnitSt) => u.id == k.1 && u.st == .fencedKat))
  bad.foldl (fun s k => faultEvent 9 0x060A k.1 (leBytes 2 k.2) s) s

/-! ### Step 14: functions enabled (R82, R92, R108, R467, R510) -/

/-- The Ephemeris in effect is applied. -/
def applyEphemeris (s : State) : State :=
  let c := chosenCfg s
  let c := { c with slice := some (c.slice.getD (s.pwr.straps.getLsbD 3)) }
  let s := { s with eph := { s.eph with cfg := c }, tam := { s.tam with auxClass := c.floors.filter (fun x => auxSensor x.1) } }
  let s := merSource c.merSource s
  let s := { s with mer := { s.mer with coaxTrace := c.coaxTrace, dialogMs := c.dialogMs, holdoverS := c.holdoverS } }
  let ks := ((anchored s).map (fun (t : Token) => t.stateful)).getD []
  if s.tok.keysLoaded then ks.foldl (fun s k => noteLow k.domain k.index s) s else s

/-- Step 14: READY, and the BOOT record. -/
def stepEnable (s : State) : State :=
  let s := if s.eph.configured then applyEphemeris s else s
  let s := { s with boot := { s.boot with done := true, env := {} } }
  let up := fun (x : FnState) => if x.fn == .pf0 || (x.fn == .pf1 && sliceMode s) then { x with ready := true } else x
  let s := { s with fns := s.fns.map up }
  raiseEvent 0x0301 0x0500 (leBytes 4 (fnStatus s .pf0) ++ leBytes 4 (ephStatus s) ++ leBytes 4 s.eph.source ++ leBytes 4 s.eph.sequence) s

/-! ### The sequence (R92, R97, R99) -/

/-- The work of one step. Steps 1, 4, 6, 8 and 9 leave nothing that the model holds, or are done with step 10. -/
def bootStep (s : State) : State :=
  match s.boot.step with
  | 2 => stepFuses s
  | 3 => stepNoise s
  | 5 => stepToken s
  | 7 => stepJournal s
  | 10 => chooseImage s
  | 11 => chooseKernels s
  | 12 => stepKat s
  | 13 => admitImage s
  | 14 => stepEnable s
  | _ => s

/-- The alarms that the environment gives for the step in progress (R99). -/
def stepAlarms (s : State) : State :=
  let now := s.boot.env.alarms.filter (fun a => a.1 == s.boot.step)
  let s := { s with boot := { s.boot with env := { s.boot.env with alarms := s.boot.env.alarms.filter (fun a => a.1 != s.boot.step) } } }
  now.foldl (fun s a => tamperAlarm a.2.1 a.2.2.1 a.2.2.2 s) s

/-- Start-up goes on until it is done, held by an alarm, or waiting for a retry of step 5; `fuel` bounds the steps. -/
def bootFrom : Nat → State → State
  | 0, s => s
  | n + 1, s =>
    if !s.boot.running || s.boot.done || s.boot.hold || s.boot.waiting then s
    else
      let s := stepAlarms s
      if s.boot.hold then s
      else
        let s := bootStep s
        if s.boot.waiting || s.boot.done then s else bootFrom n { s with boot := { s.boot with step := s.boot.step + 1 } }

/-- A start begins at step 1 (R92). -/
def beginStart (fromPg : Bool) (env : BootEnv) (s : State) : State :=
  bootFrom 15 { s with boot := { running := true, env := env, fromPg := fromPg } }

/-- The retry delay is over and the handshake is repeated (R97). -/
def retryToken (hs : Handshake) (s : State) : State :=
  if s.boot.waiting && !s.boot.hold && s.clk ≥ s.boot.retryAt + retryDelay s.boot.attempt then
    bootFrom 15 { s with boot := { s.boot with waiting := false, env := { s.boot.env with hs := hs } } }
  else s

/-- The held step resumes once every condition that holds it has been clear for 1,000 Tr (R99). -/
def resumeStart (s : State) : State :=
  if s.boot.hold && s.tam.conds.all (fun c => alarmClass s c.1 == 0 || clearLong s c) then
    bootFrom 15 { s with boot := { s.boot with hold := false } }
  else s

/-- TOKEN_SESSION_RETRY (R97). -/
def execTokenSessionRetry (hs : Handshake) (s : State) : Host.Outcome State Fault Refusal := .next (retryToken hs s)
/-- STARTUP_HOLD_RESUME (R99). -/
def execStartupHoldResume (s : State) : Host.Outcome State Fault Refusal := .next (resumeStart s)

end Sys2Proof.Machine
end

