-- ==== Sys2Proof/Machine/Power.lean ====
section
/-!
DEFINITION. Power, module resets, the connector, the straps, SMBus and temperature (R66 to R91, R475, R479).
-/
namespace Sys2Proof.Machine

/-! ### What a module reset leaves (R71, R76, R468, R475, R479, R487, R504) -/

/-- Fuses and antifuse memory. -/
def keepFuses (c : Sc) : Sc :=
  { drs := c.drs, drsBlown := c.drsBlown, certBank := c.certBank, rootDigest := c.rootDigest, rootBlown := c.rootBlown, rootCounter := c.rootCounter,
    custodyBank := c.custodyBank, floor := c.floor, debugLock := c.debugLock, lcFuses := c.lcFuses, endFuses := c.endFuses }

/-- The auxiliary domain's part of the Almanac path; the count of AUDIT records that the event queue held (R482, R487). -/
def keepAlmanac (a : Almanac) : Almanac :=
  { staging := a.staging, eventSeq := a.eventSeq, lostCount := a.lostCount + a.queue.length, powerCycle := a.powerCycle, hours := a.hours,
    hourNs := a.hourNs, offNs := a.offNs, copyCycle := a.copyCycle, copyHours := a.copyHours }

/-- The tamper registers persist; QUARANTINE and the holds do not (R473, R475). -/
def keepTamper (t : Tamper) : Tamper :=
  { t with quarantine := false, qCause := 0, latchEvent := false, holds := [], mismatches := [], now := {}, sessionOver := false }

/-- Everything outside the auxiliary domain, the fuses and the token is at its reset values (R71, R76). THERMAL_WARN and LED/activity
stay (DESIGN CHOICE, log 36). -/
def volatileReset (s : State) : State :=
  let s := closeWindows s
  { part := s.part, clk := s.clk, pwr := s.pwr, sc := keepFuses s.sc, tok := { present := s.tok.present, latchClosed := s.tok.latchClosed, socket := s.tok.socket },
    dbg := { cert := s.dbg.cert }, tam := keepTamper s.tam, flt := { s.flt with degraded := false }, alm := keepAlmanac s.alm,
    out := s.out, free := s.free, pending := s.pending }

/-! ### The auxiliary domain (R73 to R75, R475, R479) -/

/-- The auxiliary domain gains power after having none: its volatile registers reset, and the counters resume from their copies.
DESIGN CHOICE (log 39): the SMBus offsets, of which the spec says nothing here, keep their values. -/
def auxFirst (s : State) : State :=
  if s.pwr.auxPowered then s
  else
    { s with pwr := { s.pwr with auxPowered := true, healthAt := none }, flt := { degraded := s.flt.degraded },
             tam := { quarantine := s.tam.quarantine, qCause := s.tam.qCause, destroyPending := s.tam.destroyPending, sleepLatch := s.tam.sleepLatch },
             alm := { s.alm with staging := [], lostCount := 0, powerCycle := s.alm.copyCycle, hours := s.alm.copyHours, hourNs := 0, offNs := 0 } }

/-- The auxiliary domain is without power once neither rail feeds it; AUX_LOST is due at the next boot, and every coalescing window closes (R73, R75, R486). The 12 V rail feeds it
with PWRDIS asserted too (DESIGN CHOICE, log 36). -/
def auxGone (s : State) : State :=
  if s.pwr.aux || s.pwr.main then s else { s with pwr := { s.pwr with auxPowered := false, auxLost := true }, alm := { s.alm with windows := [] } }

/-- The auxiliary rail is out of range with main power present (R73). -/
def auxMissing (s : State) : State :=
  if !s.pwr.main then s
  else
    let s := { s with pwr := { s.pwr with aux := false } }
    if s.pwr.auxNoted then s else raiseEvent 0x0102 0xFF00 [] { s with pwr := { s.pwr with auxNoted := true } }

/-- The 3.3 V auxiliary rail comes up. -/
def auxOn (s : State) : State := auxFirst { s with pwr := { s.pwr with aux := true } }

/-- The auxiliary rail is lost while main power is off: the module is Off (R74). -/
def auxOff (s : State) : State := if s.pwr.pg then s else auxGone { s with pwr := { s.pwr with aux := false } }

/-! ### Main power (R70, R71, R74, R78) -/

/-- The health block with main power off (R89). -/
def healthOff : Bytes := [0x01, 0x00, 0x00, 0x80, 0x80, 0x00, 0x00, 0xFF, 0x00] ++ zeros 23

/-- Power-good deasserts: the token loses power with its claim latch, and on-die state is lost (R71, R244, R247). -/
def pgOff (s : State) : State :=
  if !s.pwr.pg then s
  else
    let s := volatileReset s
    let s := s.onToken (fun (t : Token) => { t with claim := none })
    { s with pwr := { s.pwr with pg := false, perst := true, perstSeen := false, thermWarn := false, activity := false, health := healthOff },
             alm := { s.alm with offNs := 0 } }

/-- The main rail is lost (R71, R74). -/
def powerLoss (s : State) : State := auxGone { pgOff s with pwr := { (pgOff s).pwr with main := false } }

/-- The token that sits in the socket at a power-up, behind its latch (R80): a token that has had no power has no
claim (R244, R247), and it counts a power cycle (R252). What the desk writer did to it comes first (R258). It is sensed again at POWER_GOOD only (DESIGN CHOICE, log 36). -/
def seatToken (env : BootEnv) (s : State) : State :=
  let sock := (match env.seat with | some t => t | none => s.tok.socket).map (fun (t : Token) =>
    { env.desk.foldl (fun t w => deskWrite w t) t with claim := none, pc := t.pc + 1 })
  { s with tok := { s.tok with socket := sock, present := sock.isSome, latchClosed := true } }

/-- Power-good asserts: a new power cycle, and start-up from ROM (R70, R92, R479). -/
def powerUp (env : BootEnv) (s : State) : State :=
  if s.pwr.pg || s.pwr.pwrdis then s
  else
    let s := auxFirst { s with pwr := { s.pwr with main := true, aux := env.aux } }
    let s := seatToken env s
    let s := { s with pwr := { s.pwr with pg := true, perst := true, perstSeen := false, auxNoted := false, strapNoted := false },
                      alm := { s.alm with powerCycle := (s.alm.powerCycle + 1) % 2 ^ 32 } }
    let s := if env.aux then s else auxMissing s
    beginStart true env s

/-- A dip that does not deassert PG (R70). One below 10.0 V for 50 ns or more is a V12_GLITCH alarm too. -/
def pgDip (mv ns : Nat) (s : State) : State :=
  if !(s.pwr.pg && mv < 11040 && (mv ≥ 10800 || ns ≤ 20000)) then s
  else
    let s := raiseEvent 0x0101 0xFF00 (leBytes 4 mv) s
    if mv < 10000 && ns ≥ 50 then tamperAlarm 1 0 mv s else s

/-- PWRDIS, filtered (R70, R78): it has no effect while the 12 V rail is absent, and bars power-good when the rail comes. -/
def pwrdisOn (s : State) : State := { pgOff s with pwr := { (pgOff s).pwr with pwrdis := true } }
def pwrdisOff (s : State) : State := { s with pwr := { s.pwr with pwrdis := false } }

/-! ### PERST# (R76) -/

/-- PERST# asserts: the PCIe block is in reset, and after the first deassertion the module is. -/
def perstOn (s : State) : State :=
  if !s.pwr.pg || s.pwr.perst then s
  else
    let s := volatileReset s
    { s with pwr := { s.pwr with perst := true } }

/-- PERST# deasserts: the first time after PG it releases the PCIe block, later it starts the SC again. -/
def perstOff (env : BootEnv) (s : State) : State :=
  if !s.pwr.pg || !s.pwr.perst then s
  else if !s.pwr.perstSeen then { s with pwr := { s.pwr with perst := false, perstSeen := true } }
  else beginStart false env { s with pwr := { s.pwr with perst := false } }

/-! ### Temperature and activity (R68, R91) -/

/-- A junction reaches 100 °C. -/
def thermalWarn (c : Int) (s : State) : State :=
  if !s.pwr.pg || c < 100 || s.pwr.thermWarn then s
  else raiseEvent 0x0106 0xFF00 [byteOf (c % 256).toNat] { s with pwr := { s.pwr with thermWarn := true } }

/-- Every junction has fallen below 95 °C. -/
def thermalClear (s : State) : State := { s with pwr := { s.pwr with thermWarn := false } }

/-- A job lies between its dispatch and its completion entry. -/
def jobsActive (s : State) : Bool :=
  s.jobs.any (fun (j : Job) => j.dispatched)

/-- The 20 ms stretch of LED/activity is over and no job is active (R68). -/
def activityOff (s : State) : State :=
  if s.pwr.activity && !(jobsActive s) && s.clk ≥ s.pwr.activityAt + 20000000 then { s with pwr := { s.pwr with activity := false } } else s

/-! ### STRAPS (R84, R86) -/

/-- A read of STRAPS samples the switches, and records a difference once per power cycle. -/
def strapsRead (live : Byte) (s : State) : State :=
  let t := answerRead .pf0 (live.toNat * 256 + s.pwr.straps.toNat) s
  if !(barOpen s .pf0) || (s.fnOf .pf0).resetting then t
  else
    let t := { t with pwr := { t.pwr with live := live } }
    if live != s.pwr.straps && !s.pwr.strapNoted then
      raiseEvent 0x0104 0xFF00 [s.pwr.straps, live] { t with pwr := { t.pwr with strapNoted := true } }
    else t

/-! ### The FRU data (R87) -/

/-- A field of an area: its type and length, 8-bit ASCII, and its bytes. -/
def fruField (b : Bytes) : Bytes := byteOf (0xC0 + b.length) :: b

/-- An area of whole 8-byte units: version, length, English, its body and fields, the end mark, and the checksum as its last byte (log 36). -/
def fruArea (body : Bytes) (fields : List Bytes) : Bytes :=
  let text := 0x00 :: (body ++ fields.flatMap fruField ++ [0xC1])
  let units := ceilDiv (text.length + 3) 8
  let all := 0x01 :: byteOf units :: (text ++ zeros (8 * units - text.length - 3))
  all ++ [byteOf (256 - (all.map (fun b => b.toNat)).sum % 256)]

/-- The part number that the FRU data names (00_scope.md). -/
def partNumber : Part → Bytes
  | .yq9 => ascii "YQ9-E3T16"
  | .yq7 => ascii "YQ7-E3T8"
  | .yq5 => ascii "YQ5-E3T4"

/-- The common header, the board area and the product area. -/
def fruImage (p : Part) : Bytes :=
  let maker := ascii "Llynyan Microsystems"
  let name := ascii "Yarca Q9"
  let serial := Config.fruSerial.take 63
  let board := fruArea (leBytes 3 Config.fruDate.toNat) [maker, name, serial, partNumber p, []]
  let product := fruArea [] [maker, name, partNumber p, [], serial, [], []]
  let head : Bytes := [0x01, 0x00, 0x00, 0x01, byteOf (1 + board.length / 8), 0x00, 0x00]
  head ++ [byteOf (256 - (head.map (fun b => b.toNat)).sum % 256)] ++ board ++ product

/-- The FRU byte at an offset; past the two areas it is open. -/
def fruAt (p : Part) (i : Nat) : Byte := ((fruImage p)[i]?).getD (Config.fruByte i)

/-! ### SMBus (R87 to R89) -/

/-- Signed degrees in one byte; 0x80 when not available. -/
def degrees (c : Int) : Byte := if -127 ≤ c && c ≤ 127 then byteOf (c % 256).toNat else 0x80

/-- The health block, with main power on (R88). -/
def healthBytes (tj tb : Int) (p12 : Nat) (s : State) : Bytes :=
  let flags := bitAt s.pwr.pg 0 + bitAt (s.fnOf .pf0).ready 1 + bitAt s.eph.configured 2 + bitAt s.flt.degraded 3 + bitAt s.tam.quarantine 4 +
    bitAt s.tok.present 5 + bitAt s.tok.wear 6 + bitAt s.tok.readOnly 7
  let life := match s.tok.life with | some u => 100 * u / 10240000 | none => 0xFF
  let alerts := bitAt s.pwr.thermWarn 0 + bitAt (tamperStatus s != 0) 1 + bitAt (!s.pwr.aux) 2
  [0x01, byteOf flags, byteOf (lcCode s), degrees tj, degrees tb] ++ leBytes 2 p12 ++ [byteOf life, byteOf alerts] ++ zeros 23

/-- A snapshot is due: 100 ms after the last (R88). -/
def healthDue (s : State) : Bool := match s.pwr.healthAt with | none => true | some t => decide (s.clk ≥ t + 100000000)

/-- A snapshot (R88). -/
def healthSnap (tj tb : Int) (p12 : Nat) (s : State) : State :=
  if !s.pwr.auxPowered || !(healthDue s) then s
  else { s with pwr := { s.pwr with healthAt := some s.clk, health := if s.pwr.pg then healthBytes tj tb p12 s else healthOff } }

/-- One byte of the SMBus PEC: CRC-8 with polynomial x^8 + x^2 + x + 1 (PRESUMED from the SMBus specification, log 25). -/
def pecByte (c b : Byte) : Byte := (List.range 8).foldl (fun c _ => if c.msb then (c <<< 1) ^^^ 0x07 else c <<< 1) (c ^^^ b)

/-- `n` bytes of a region from an offset, wrapping at its end. -/
def wrapRead (size : Nat) (at_ : Nat → Byte) (off n : Nat) : Bytes := (List.range n).map (fun i => at_ ((off + i) % size))

/-- A read transaction: the address byte, the data, and the PEC where one more byte is clocked (R87). -/
def smbusAnswer (addr : Nat) (data : Bytes) (pec : Bool) (s : State) : State :=
  emit (.smbus (data ++ (if pec then [(byteOf (2 * addr + 1) :: data).foldl pecByte 0] else []))) s

/-- A read of the FRU region. -/
def fruRead (n : Nat) (pec : Bool) (s : State) : State :=
  if !s.pwr.auxPowered then s
  else
    let o := s.pwr.smbOffFru
    smbusAnswer 0x53 (wrapRead 512 (fruAt s.part) o n) pec { s with pwr := { s.pwr with smbOffFru := (o + n) % 512 } }

/-- A read of the health region: the snapshot current at the address phase. -/
def healthRead (n : Nat) (pec : Bool) (s : State) : State :=
  if !s.pwr.auxPowered then s
  else
    let o := s.pwr.smbOffHealth
    smbusAnswer 0x3A (wrapRead 32 (fun i => s.pwr.health.getD i 0) o n) pec { s with pwr := { s.pwr with smbOffHealth := (o + n) % 32 } }

/-- The offset byte; every other write is ignored (R87). -/
def smbusOffset (addr : Nat) (off : Byte) (s : State) : State :=
  if !s.pwr.auxPowered then s
  else if addr == 0x53 then { s with pwr := { s.pwr with smbOffFru := off.toNat } }
  else if addr == 0x3A then { s with pwr := { s.pwr with smbOffHealth := off.toNat % 32 } }
  else s

/-! ### Commands -/

/-- POWER_GOOD (R70). -/
def execPowerGood (env : BootEnv) (s : State) : Host.Outcome State Fault Refusal := .next (powerUp env s)
/-- POWER_LOSS (R71). -/
def execPowerLoss (s : State) : Host.Outcome State Fault Refusal := .next (powerLoss s)
/-- PG_DIP (R70). -/
def execPgDip (mv ns : Nat) (s : State) : Host.Outcome State Fault Refusal := .next (pgDip mv ns s)
/-- PERST_ASSERT (R76). -/
def execPerstAssert (s : State) : Host.Outcome State Fault Refusal := .next (perstOn s)
/-- PERST_DEASSERT (R76). -/
def execPerstDeassert (env : BootEnv) (s : State) : Host.Outcome State Fault Refusal := .next (perstOff env s)
/-- PWRDIS_ASSERT (R78). -/
def execPwrdisAssert (s : State) : Host.Outcome State Fault Refusal := .next (pwrdisOn s)
/-- PWRDIS_DEASSERT (R78). -/
def execPwrdisDeassert (s : State) : Host.Outcome State Fault Refusal := .next (pwrdisOff s)
/-- AUX_ABSENT (R73). -/
def execAuxAbsent (s : State) : Host.Outcome State Fault Refusal := .next (auxMissing s)
/-- THERMAL_WARN (R91). -/
def execThermalWarn (celsius : Int) (s : State) : Host.Outcome State Fault Refusal := .next (thermalWarn celsius s)
/-- THERMAL_WARN_CLEAR (R91). -/
def execThermalWarnClear (s : State) : Host.Outcome State Fault Refusal := .next (thermalClear s)
/-- ACTIVITY_STRETCH_END (R68). -/
def execActivityStretchEnd (s : State) : Host.Outcome State Fault Refusal := .next (activityOff s)
/-- SMBUS_OFFSET_WRITE (R87). -/
def execSmbusOffsetWrite (addr : Nat) (off : Byte) (s : State) : Host.Outcome State Fault Refusal := .next (smbusOffset addr off s)
/-- SMBUS_FRU_READ (R87). -/
def execSmbusFruRead (n : Nat) (pec : Bool) (s : State) : Host.Outcome State Fault Refusal := .next (fruRead n pec s)
/-- SMBUS_HEALTH_READ (R88). -/
def execSmbusHealthRead (n : Nat) (pec : Bool) (s : State) : Host.Outcome State Fault Refusal := .next (healthRead n pec s)
/-- HEALTH_SNAPSHOT (R88). -/
def execHealthSnapshot (tj tb : Int) (p12 : Nat) (s : State) : Host.Outcome State Fault Refusal := .next (healthSnap tj tb p12 s)
/-- STRAPS_READ (R86). -/
def execStrapsRead (live : Byte) (s : State) : Host.Outcome State Fault Refusal := .next (strapsRead live s)
/-- AUXILIARY_POWER_ON (R475). -/
def execAuxiliaryPowerOn (s : State) : Host.Outcome State Fault Refusal := .next (auxOn s)
/-- AUXILIARY_POWER_LOSS (R74). -/
def execAuxiliaryPowerLoss (s : State) : Host.Outcome State Fault Refusal := .next (auxOff s)

end Sys2Proof.Machine
end

