-- ==== Sys2Proof/Machine/ConfigSpace.lean ====
section
/-!
DEFINITION. Configuration space: what R119 to R141 say that a function reports there, the fields that host software writes, and the MSI-X
table and PBA of BAR4. The spec names the fields and not their offsets, so a field is named.
-/
namespace Sys2Proof.Machine

/-- The function is there to take a configuration request: the link is up, its bus is routed to the module and it exists (R94, R120). -/
def cfgOpen (s : State) (f : Fn) : Bool := s.link.up && routed s f && (match f with | .slice _ => false | g => (s.fn? g).isSome)

/-! ### What each function has (R119, R122) -/

/-- The capabilities of R119's table. -/
def capsOf : Fn → List Cap
  | .pf0 => [.pm, .pcie, .msix, .aer, .ari, .sriov, .ats, .ptm, .acs, .doe, .ide]
  | .pf1 => [.pm, .pcie, .msix, .aer, .ari, .ats, .pasid, .acs]
  | .vf _ => [.pm, .pcie, .msix, .ats]
  | .slice _ => []

/-- The device ID (R119). -/
def deviceIdOf (p : Part) (f : Fn) : Nat :=
  (match p with | .yq9 => 0x0C90 | .yq7 => 0x0C70 | .yq5 => 0x0C50) + (match f with | .pf0 => 0 | .vf _ => 2 | _ => 1)

/-- Vectors of a function's MSI-X table (R122). -/
def tableVectors : Fn → Nat
  | .vf _ => 64
  | _ => 2048

/-- The size of BAR0, BAR2 or BAR4 of a function; VF BAR4 fills a page of the size that host software selects (R122). -/
def barSize (s : State) (f : Fn) (n : Nat) : Nat :=
  match f, n with
  | .vf _, 4 => if (s.fnOf .pf0).cfg.page64 then 65536 else 4096
  | .vf _, _ => 65536
  | .pf1, 2 => 16777216
  | _, 0 => 16777216
  | _, _ => 65536

/-- A BAR register: the address in whole sizes, 64-bit and non-prefetchable in its low bits (R122). -/
def barRead (s : State) (f : Fn) (bars : List Nat) (n : Nat) : Nat := bars.getD (n / 2) 0 / barSize s f n * barSize s f n + 4

/-! ### Reads -/

/-- What a read of a field returns; `none` where the function has no such field. -/
def cfgField (s : State) (f : Fn) (fld : CfgField) : Option Nat :=
  let x := s.fnOf f
  let caps := capsOf f
  let has := fun (c : Cap) (v : Nat) => if caps.contains c then some v else none
  match fld with
  | .vendorId => some Config.vendorId.toNat
  | .deviceId => some (deviceIdOf s.part f)
  | .classCode => some 0x108000
  | .capability c => some (bitAt (caps.contains c) 0)
  | .busMaster => some (bitAt x.busMaster 0)
  | .memSpace => some (bitAt x.memSpace 0)
  | .bar n => (match f with | .vf _ => none | _ => if n == 0 || n == 2 || n == 4 then some (barRead s f x.cfg.bars n) else none)
  | .pmeSupport => some 0
  | .noSoftReset => some 0
  | .maxPayload => some x.cfg.mps
  | .maxReadRequest => some x.cfg.mrrs
  | .maxPayloadSupported => some 2
  | .tag10 => some (bitAt x.cfg.tag10 0)
  | .ecrcEnable => has .aer (bitAt x.cfg.ecrc 0)
  | .timeoutValue => some x.cfg.timeout
  | .timeoutDisable => some (bitAt x.cfg.noTimeout 0)
  | .timeoutRanges => some 15
  | .timeoutDisableSupported => some 1
  | .msixEnable => some (bitAt x.msixEnable 0)
  | .functionMask => some (bitAt x.fnMask 0)
  | .vectorMask v => if v < tableVectors f then some (bitAt (!(x.unmasked.contains v)) 0) else none
  | .tableSize => some (tableVectors f - 1)
  | .aerCorrectable => has .aer x.cfg.aer.cor.toNat
  | .aerUncorrectable => has .aer x.cfg.aer.unc.toNat
  | .aerCorrectableMask => has .aer x.cfg.aer.corMask.toNat
  | .aerUncorrectableMask => has .aer x.cfg.aer.uncMask.toNat
  | .aerSeverity => has .aer x.cfg.aer.severity.toNat
  | .aerHeader => has .aer ((x.cfg.aer.header.map (fun h => h.2)).getD 0)
  | .atsEnable => has .ats (bitAt x.atsEnable 0)
  | .atsPageAligned => has .ats 1
  | .atsGlobalInvalidate => has .ats 1
  | .atsQueueDepth => has .ats 32
  | .acsCapability => has .acs 0x5C
  | .acsControl => has .acs x.cfg.acs
  | .pasidEnable => has .pasid (bitAt s.link.pasidEnable 0)
  | .pasidWidth => has .pasid 20
  | .pasidExecute => has .pasid 0
  | .pasidPrivileged => has .pasid 0
  | .ptmEnable => has .ptm (bitAt s.mer.ptmEnable 0)
  | .totalVfs => has .sriov 255
  | .initialVfs => has .sriov 255
  | .firstVfOffset => has .sriov 2
  | .vfStride => has .sriov 1
  | .vfEnable => has .sriov (bitAt s.link.vfEnable 0)
  | .numVfs => has .sriov s.link.numVfs
  | .supportedPageSizes => has .sriov 0x11
  | .pageSize => has .sriov (if x.cfg.page64 then 0x10 else 1)
  | .vfBar n => if n == 0 || n == 2 || n == 4 then has .sriov (barRead s (.vf 1) x.cfg.vfBars n) else none
  | .atomicOp => has .sriov (bitAt s.link.atomicOp 0)
  | .doeStatus => has .doe (bitAt (!x.ready) 0 + bitAt s.doe.error 2)
  | .doeWrite => has .doe 0
  | .ideStream b => (s.doe.blocks[b]?).bind (fun (k : IdeBlock) => has .ide (k.id * 256 + bitAt k.pcrc 1 + bitAt k.on 0))
  | .ideRid b lo hi => (s.doe.blocks[b]?).bind (fun (k : IdeBlock) => has .ide (bitAt (k.rid == some (lo, hi)) 0))
  | .ideAddr b i lo hi => (s.doe.blocks[b]?).bind (fun (k : IdeBlock) => has .ide (bitAt (k.addrs.getD i none == some (lo, hi)) 0))
  | .busNumber => some (s.link.bus + 256 * s.link.lastBus)

/-- A configuration read: `none` where the function does not respond or has no such field. Resets do not change the answer (R94, R121,
R143). -/
def cfgRead (s : State) (f : Fn) (fld : CfgField) : Option Nat := if cfgOpen s f then cfgField s f fld else none

/-! ### Writes -/

/-- Writing a function's own enable bits (R128, R130, R132); clearing ATS Enable drops the translations. -/
def fnCfgWrite (f : Fn) (fld : CfgField) (v : Nat) (s : State) : State :=
  let on := v % 2 == 1
  match fld with
  | .busMaster => if on then s.onFn f (fun x => { x with busMaster := true }) else busMasterOff f s
  | .memSpace => s.onFn f (fun x => { x with memSpace := on })
  | .atsEnable => s.onFn f (fun x => { x with atsEnable := on, atc := if on then x.atc else [] })
  | .msixEnable => sendPending f (s.onFn f (fun x => { x with msixEnable := on }))
  | .functionMask => if on then s.onFn f (fun x => { x with fnMask := true }) else unmask f none s
  | .vectorMask n => if !(pageOpen s f) then s else if on then s.onFn f (fun x => { x with unmasked := x.unmasked.filter (fun m => m != n) }) else unmask f (some n) s
  | _ => s

/-- Writing a field that one physical function alone has: PTM, SR-IOV and AtomicOps on PF0, PASID on PF1 (R114, R120, R126, R129, R133). -/
def pfCfgWrite (f : Fn) (fld : CfgField) (v : Nat) (s : State) : State :=
  let on := v % 2 == 1
  match f, fld with
  | .pf0, .ptmEnable => if on then { s with mer := { s.mer with ptmEnable := true } } else ptmOff s
  | .pf0, .vfEnable => if on then vfsOn s.link.numVfs s else vfsGone s
  | .pf0, .numVfs => if s.link.vfEnable then s else { s with link := { s.link with numVfs := min v 255 } }
  | .pf0, .atomicOp => { s with link := { s.link with atomicOp := on } }
  | .pf0, .busNumber => { s with link := { s.link with bus := v % 256, lastBus := v / 256 % 256 } }
  | .pf1, .pasidEnable => { s with link := { s.link with pasidEnable := on } }
  | _, _ => s

/-- AER registers: status bits are cleared by writing 1, and the header log is free once its error's bit is (R134). -/
def aerWrite (fld : CfgField) (v : Nat) (a : Aer) : Aer :=
  let w := BitVec.ofNat 32 v
  match fld with
  | .aerCorrectable => { a with cor := a.cor &&& ~~~w }
  | .aerUncorrectable => { a with unc := a.unc &&& ~~~w, header := a.header.filter (fun h => !(w.getLsbD h.1)) }
  | .aerCorrectableMask => { a with corMask := w }
  | .aerUncorrectableMask => { a with uncMask := w }
  | .aerSeverity => { a with severity := w }
  | _ => a

/-- Registers that every function, or each physical function, holds for itself (R122, R125, R134, R135). -/
def ctlCfgWrite (f : Fn) (fld : CfgField) (v : Nat) (x : FnCfg) : FnCfg :=
  let on := v % 2 == 1
  let pf := f == .pf0 || f == .pf1
  match fld with
  | .maxPayload => { x with mps := v % 8 }
  | .maxReadRequest => { x with mrrs := v % 8 }
  | .tag10 => { x with tag10 := on }
  | .timeoutValue => { x with timeout := v % 16 }
  | .timeoutDisable => { x with noTimeout := on }
  | .ecrcEnable => if pf then { x with ecrc := on } else x
  | .acsControl => if pf then { x with acs := v % 65536 } else x
  | .bar n => if pf && (n == 0 || n == 2 || n == 4) then { x with bars := modAt x.bars (n / 2) (fun _ => v % 2 ^ 64) } else x
  | .vfBar n => if f == .pf0 && (n == 0 || n == 2 || n == 4) then { x with vfBars := modAt x.vfBars (n / 2) (fun _ => v % 2 ^ 64) } else x
  | .pageSize => if f == .pf0 then (if v == 0x10 then { x with page64 := true } else if v == 1 then { x with page64 := false } else x) else x
  | fld => if pf then { x with aer := aerWrite fld v x.aer } else x

/-- A word into the DOE write mailbox; a data object above 16 KiB is DOE Error (R136). -/
def doeWord (v : Nat) (s : State) : State :=
  if !((s.fnOf .pf0).ready && !s.doe.error) then s
  else if s.doe.mailbox.length + 12 > 16384 then { s with doe := { s.doe with mailbox := [], error := true } }
  else { s with doe := { s.doe with mailbox := s.doe.mailbox ++ leBytes 4 v } }

/-- The register block of an IDE stream: Stream ID, PCRC and enable; the association blocks, valid with bit 0 (R139). -/
def ideCfgWrite (fld : CfgField) (v : Nat) (s : State) : State :=
  let on := v % 2 == 1
  let at_ := fun (b : Nat) (g : IdeBlock → IdeBlock) => { s with doe := { s.doe with blocks := modAt s.doe.blocks b g } }
  match fld with
  | .ideStream b => at_ b (fun k => { k with id := v / 256 % 256, pcrc := bitOf v 1, on := on })
  | .ideRid b lo hi => at_ b (fun k => { k with rid := if on then some (lo, hi) else none })
  | .ideAddr b i lo hi => at_ b (fun k => { k with addrs := modAt k.addrs i (fun _ => if on then some (lo, hi) else none) })
  | _ => s

/-- A write of a configuration-space field (R120 to R139). -/
def cfgWrite (f : Fn) (fld : CfgField) (v : Nat) (s : State) : State :=
  if !(cfgOpen s f) then s
  else match fld with
  | .busMaster | .memSpace | .atsEnable | .msixEnable | .functionMask | .vectorMask _ => fnCfgWrite f fld v s
  | .ptmEnable | .vfEnable | .numVfs | .atomicOp | .busNumber | .pasidEnable => pfCfgWrite f fld v s
  | .doeWrite => if f == .pf0 then doeWord v s else s
  | .ideStream _ | .ideRid _ _ _ | .ideAddr _ _ _ _ => if f == .pf0 then ideCfgWrite fld v s else s
  | fld => s.onFn f (fun x => { x with cfg := ctlCfgWrite f fld v x.cfg })

/-! ### BAR4: the MSI-X table and PBA (R122, R132) -/

/-- A function has BARs of its own; a slice's pages lie in those of PF1. -/
def fnBars : Fn → Bool
  | .slice _ => false
  | _ => true

/-- Where the PBA of a function begins. -/
def pbaStart : Fn → Nat
  | .vf _ => 0x800
  | _ => 0x8000

/-- The word of a list of pending vectors that holds vectors 32 i to 32 i + 31. -/
def pbaWord (pba : List Nat) (i : Nat) : Nat := ((List.range 32).map (fun b => bitAt (pba.contains (32 * i + b)) b)).sum

/-- A 32-bit word of BAR4: a table entry's address, data or mask, or pending bits; 0 elsewhere. -/
def tableValue (s : State) (f : Fn) (off : Nat) : Nat :=
  let x := s.fnOf f
  let e := msixEntry x (off / 16)
  if !(fnBars f) then 0
  else if off < 16 * tableVectors f then
    match off % 16 with
    | 0 => e.1 % 2 ^ 32
    | 4 => e.1 / 2 ^ 32 % 2 ^ 32
    | 8 => e.2
    | _ => bitAt (!(x.unmasked.contains (off / 16))) 0
  else if pbaStart f ≤ off && off < pbaStart f + tableVectors f / 8 then pbaWord x.pba ((off - pbaStart f) / 4)
  else 0

/-- A vector's table entry replaced. -/
def putEntryOf (v : Nat) (e : Nat × Nat) (x : FnState) : FnState := { x with msixTable := x.msixTable.filter (fun y => y.1 != v) ++ [(v, e)] }

/-- A 32-bit write into the MSI-X table; the PBA and the rest ignore writes. -/
def tableWrite (f : Fn) (off v : Nat) (s : State) : State :=
  let e := msixEntry (s.fnOf f) (off / 16)
  if !(fnBars f) || !(pageOpen s f) || off ≥ 16 * tableVectors f then s
  else match off % 16 with
  | 0 => s.onFn f (putEntryOf (off / 16) (e.1 / 2 ^ 32 * 2 ^ 32 + v % 2 ^ 32 / 4 * 4, e.2))
  | 4 => s.onFn f (putEntryOf (off / 16) (v % 2 ^ 32 * 2 ^ 32 + e.1 % 2 ^ 32, e.2))
  | 8 => s.onFn f (putEntryOf (off / 16) (e.1, v % 2 ^ 32))
  | _ => fnCfgWrite f (.vectorMask (off / 16)) v s

/-- A write to a BAR4: an aligned word, or an aligned pair of words, lower first. -/
def bar4Write (f : Fn) (w : RegAccess) (s : State) : State :=
  if w.width == 32 && w.off % 4 == 0 then tableWrite f w.off w.value s
  else if w.width == 64 && w.off % 8 == 0 then tableWrite f (w.off + 4) (w.value / 2 ^ 32) (tableWrite f w.off w.value s)
  else s

end Sys2Proof.Machine
end

