-- ==== Sys2Proof/Machine/Registers.lean ====
section
/-!
DEFINITION. Register writes: where each address of the memory BARs leads (R501 to R509).
-/
namespace Sys2Proof.Machine

/-! ### The function page (R508) -/

/-- Bits 31 to 0, and 63 to 32, of a 64-bit register pair replaced. -/
def putLow (x : BitVec 64) (v : Nat) : BitVec 64 := BitVec.ofNat 64 (x.toNat / 2 ^ 32 * 2 ^ 32 + v % 2 ^ 32)
def putHigh (x : BitVec 64) (v : Nat) : BitVec 64 := BitVec.ofNat 64 (v % 2 ^ 32 * 2 ^ 32 + x.toNat % 2 ^ 32)

/-- The admin queue's bases, locked while ENABLE is 1; a low word keeps bits 31 to 12 (R113, R121, R167). -/
def aqBaseWrite (f : Fn) (off v : Nat) (s : State) : State :=
  let page := v / 4096 * 4096
  if !(aqOpen s f) then s
  else s.onFn f (fun x =>
    if x.aqEnable then x
    else if off == 0x100 then { x with aqSqBase := putLow x.aqSqBase page }
    else if off == 0x104 then { x with aqSqBase := putHigh x.aqSqBase v }
    else if off == 0x108 then { x with aqCqBase := putLow x.aqCqBase page }
    else { x with aqCqBase := putHigh x.aqCqBase v })

/-- MBX_CTRL (R433, R435): the fields first, then what the write-1 bits do. -/
def mbxCtrlWrite (f : Fn) (v : Nat) (s : State) : State :=
  if !(hasMailbox f) then s
  else
    let s := onMbx f (fun m => { m with enable := bitOf v 31, vector := bitsOf v 16 11, outLen := bitsOf v 0 9, overrun := m.overrun && !(bitOf v 11) }) s
    let s := if bitOf v 15 then mbxOutSend f s else s
    if bitOf v 14 then mbxInAck f s else s

/-- DDP_CTRL (R389): ALG, then START, or else RELEASE. -/
def ddpCtrlWrite (f : Fn) (v : Nat) (s : State) : State :=
  let s := onDdp f (fun d => { d with alg := v % 256 }) s
  if bitOf v 31 then ddpStart f (v % 256) s else if bitOf v 30 then ddpRelease f s else s

/-- A 32-bit write to a function page (R113, R167, R180, R389, R433, R508). Every other offset ignores it (R501, R503). -/
def pageWrite (f : Fn) (off : Nat) (w : RegAccess) (s : State) : State :=
  let v := w.value
  if !(pageOpen s f) then s
  else if off == 0x100 || off == 0x104 || off == 0x108 || off == 0x10C then aqBaseWrite f off v s
  else if off == 0x110 then aqSizeWrite f v s
  else if off == 0x114 then doorbellWrite false w s
  else if off == 0x118 then doorbellWrite true w s
  else if off == 0x200 then evrHeadWrite f v s
  else if 0x500 ≤ off && off < 0x600 then mailboxWrite w s
  else if off == 0x600 then mbxCtrlWrite f v s
  else if off == 0x800 then ddpCtrlWrite f v s
  else if off == 0x804 then onDdp f (fun d => { d with restarted := d.restarted && !(bitOf v 2) }) s
  else if off == 0x808 then onDdp f (fun d => { d with key := d.key / 2 ^ 32 * 2 ^ 32 + v % 2 ^ 32 }) s
  else if off == 0x80C then onDdp f (fun d => { d with key := v % 2 ^ 32 * 2 ^ 32 + d.key % 2 ^ 32 }) s
  else if off == 0x820 then ddpLengthWrite f v s
  else s

/-! ### The PF0 blocks (R507) -/

/-- DBG_STEP_CTRL (R462): ARM and CLUSTER, then STEP or RUN. -/
def stepCtrlWrite (v : Nat) (s : State) : State :=
  let s := armWrite v s
  let s := if bitOf v 30 then stepWrite s else s
  if bitOf v 29 then runWrite s else s

/-- MGR_MBX_CTRL (R434, R435); discarded while no live instance is selected. -/
def mgrCtrlWrite (v : Nat) (s : State) : State :=
  match selected s with
  | none => s
  | some _ =>
    let s := { s with mgr := { s.mgr with inLen := bitsOf v 0 9, overrun := s.mgr.overrun && !(bitOf v 11) } }
    let s := if bitOf v 15 then mbxInSend s else s
    if bitOf v 14 then mbxOutAck s else s

/-- A 32-bit write to a PF0 register block (R434, R455, R458, R462, R475, R491, R494, R507). -/
def blockWrite (off : Nat) (w : RegAccess) (s : State) : State :=
  let v := w.value
  if !(pageOpen s .pf0) then s
  else if off == 0x20004 then lcsWrite v s
  else if off == 0x20008 then rightsWrite v s
  else if off == 0x20010 then stepCtrlWrite v s
  else if off == 0x30004 then ackLatch v (ackSensors v s)
  else if off == 0x3000C then faultAck v s
  else if off == 0x60000 then cursorWrite v s
  else if off == 0x60010 then { s with alm := { s.alm with ovfSel := v % 65536 } }
  else if off == 0x60018 then almClearWrite v s
  else if off == 0x80000 then { s with mgr := { s.mgr with selType := bitsOf v 16 2, selInst := bitsOf v 0 12 } }
  else if off == 0x80004 then mgrCtrlWrite v s
  else if off == 0x80008 then { s with mgr := { s.mgr with enable := bitOf v 31, vector := bitsOf v 0 11 } }
  else if 0x80200 ≤ off && off < 0x80300 then mailboxWrite w s
  else s

/-! ### A write (R501) -/

/-- A write to a BAR0. -/
def bar0Write (w : RegAccess) (s : State) : State :=
  if w.width == 64 then
    if w.off % 8 != 0 then s
    else match pageAt s w.target w.off with
    | some (f, 0x810) => ddpDataWrite f w s
    | some (f, 0x818) => ddpLastWordWrite f w s
    | _ => s
  else if w.width != 32 || w.off % 4 != 0 then s
  else match pageAt s w.target w.off with
  | some (f, off) => pageWrite f off w s
  | none => match w.target with
    | .bar0 .pf0 => blockWrite w.off w s
    | _ => s

/-- The function that a register write is sent to. -/
def targetFn : RegTarget → Fn
  | .bar0 f => f
  | .bar2 f => f
  | .bar4 f => f
  | .config f _ => f

/-- A register write where it lands; a packet that meets an error does not (R134). A corrected one does. -/
def regWrite (w : RegAccess) (s : State) : State :=
  let s := match w.error with | some e => if s.link.up then tlpError (targetFn w.target) e s else s | none => s
  if ideDiscards s w || (w.error.isSome && w.error != some .bufferCorrected) then s
  else match w.target with
  | .config f fld => cfgWrite f fld w.value s
  | .bar2 _ => doorbellWrite true w (doorbellWrite false w s)
  | .bar4 f => bar4Write f w s
  | .bar0 _ => bar0Write w s

/-- REGISTER_WRITE (R10, R501). -/
def execRegisterWrite (w : RegAccess) (s : State) : Host.Outcome State Fault Refusal := .next (regWrite w s)

end Sys2Proof.Machine
end

