-- ==== Sys2Proof/Machine/Vector.lean ====
section
/-!
DEFINITION. The common part of every instruction of a vector cluster: its registers and tags, the view of a job, the traps and what
the supervisor does (R393 to R415). An instruction is a command to a cluster; it acts on the job that runs there (log 22).
-/
namespace Sys2Proof.Machine

/-! ### Registers and secrecy tags (R393, R408 to R411) -/

/-- A register is tagged. -/
def tagged (l : List Nat) (i : Nat) : Bool := l.contains i

/-- A tag set where `t`; no write clears one (R411). -/
def tagIf (t : Bool) (i : Nat) (l : List Nat) : List Nat := if t && !(l.contains i) then l ++ [i] else l

/-- g0 reads 0 (R393). -/
def gRead (r : RegSave) (i : Nat) : BitVec 64 := if i == 0 then 0 else r.g.getD i 0

/-- A write to g0 is ignored (R393). -/
def gWrite (i : Nat) (v : BitVec 64) (t : Bool) (r : RegSave) : RegSave :=
  if i == 0 then r else { r with g := modAt r.g i (fun _ => v), gTag := tagIf t i r.gTag }

def vRead (r : RegSave) (i : Nat) : Nat := (r.v.getD i 0).toNat
def vWrite (i : Nat) (v : Nat) (t : Bool) (r : RegSave) : RegSave :=
  { r with v := modAt r.v i (fun _ => BitVec.ofNat 2048 v), vTag := tagIf t i r.vTag }
def mRead (r : RegSave) (i : Nat) : BitVec 256 := r.m.getD i 0
def mWrite (i : Nat) (v : Nat) (t : Bool) (r : RegSave) : RegSave :=
  { r with m := modAt r.m i (fun _ => BitVec.ofNat 256 v), mTag := tagIf t i r.mTag }
def sRead (r : RegSave) (i : Nat) : Nat := (r.s.getD i 0).toNat
def sWrite (i : Nat) (v : Nat) (t : Bool) (r : RegSave) : RegSave :=
  { r with s := modAt r.s i (fun _ => BitVec.ofNat 256 v), sTag := tagIf t i r.sTag }

/-- g24 to g31 hold addresses and never a tagged value (R393, R410). -/
def isAddrReg (i : Nat) : Bool := 24 ≤ i

/-- The width in bits that an EW code means (R399). -/
def ewBits (ew : Nat) : Nat := 8 * 2 ^ (ew % 4)

/-- The `n` low elements of width `w` of a register value (R395). -/
def elems (w n x : Nat) : List Nat := (List.range n).map (fun j => x / 2 ^ (w * j) % 2 ^ w)

/-- A register value from its elements. -/
def packElems (w : Nat) : List Nat → Nat
  | [] => 0
  | e :: r => e % 2 ^ w + 2 ^ w * packElems w r

/-! ### An instruction's input and outcome -/

/-- What an instruction sees: the cluster, the resident job that runs on it, and the next free value. -/
structure VccIn where
  part : Part
  cl : Cluster
  r : Resid
  free : Nat

/-- How an instruction ends: the next word, another word, a stall, a trap at an element with the tile, or a word that no loaded
package holds (R401, R424). -/
inductive VEnd where
  | next
  | goto (pc : Nat)
  | wait
  | trap (k : TrapKind) (elem tile : Nat)
  | notLoaded

/-- What an instruction leaves: the cluster, the free values it used, the fresh mask bits it drew, its end, and a copy into a peer's slot (XMOV). -/
structure VOut where
  cl : Cluster
  free : Nat
  mask : Nat := 0
  fin : VEnd := .next
  peer : Option (Nat × Nat × Bytes × List Nat) := none

/-- Shares of the job's masking order (R404). -/
def VccIn.n (x : VccIn) : Nat := x.r.view.order + 1

/-- Pairs of shares: r = n(n - 1) / 2 (R404). -/
def VccIn.pairs (x : VccIn) : Nat := x.n * (x.n - 1) / 2

/-- Elements of width `w` that an instruction takes: VL, at most a whole register (R395). -/
def VccIn.count (x : VccIn) (w : Nat) : Nat := min x.cl.regs.vl (Config.vlen x.part / w)

/-- Element `j` is active (R399). -/
def VccIn.active (x : VccIn) (me : Bool) (vm j : Nat) : Bool := !me || (mRead x.cl.regs vm).getLsbD j

/-- The registers changed, and the next word. -/
def VccIn.regs (x : VccIn) (r : RegSave) (used : Nat := 0) (mask : Nat := 0) : VOut := { cl := { x.cl with regs := r }, free := x.free + used, mask := mask }

/-- A trap that left nothing changed. -/
def VccIn.stop (x : VccIn) (k : TrapKind) : VOut := { cl := x.cl, free := x.free, fin := .trap k 0 0 }

/-- A free value of `w` bits; `i` counts from the instruction's first. -/
def VccIn.fresh (x : VccIn) (w i : Nat) : Nat := Config.freeNat (x.free + i) % 2 ^ w

/-- The check word of a tile's bytes: CRC-32C over its physical number, 2 bytes little-endian, then its 512 bytes (R397). -/
def checkWord (m : List Host.Cell) (t : Nat) : BitVec 32 := crc32c 0xFFFFFFFF (leBytes 2 t ++ cellsRead m (512 * t) 512)

/-- How far the check word that a tile carries is from that of its bytes. A partial write updates the word by the difference of the bytes it
replaces, so this stays as it is (R397). -/
def syndrome (cl : Cluster) (t : Nat) : BitVec 32 := ((cl.badChecks.find? (fun x => x.1 == t)).map (fun x => x.2)).getD 0

/-- The check word that a tile carries (R397). -/
def tileCheck (cl : Cluster) (t : Nat) : BitVec 32 := checkWord cl.tiles t ^^^ syndrome cl t

/-- A tile's check word fails: it is not that of its bytes (R397; Laws/Tiles.lean). -/
def tileFails (cl : Cluster) (t : Nat) : Bool := syndrome cl t != 0

/-! ### The view (R396) -/

/-- The first byte of a job's slot. -/
def slotBase (r : Resid) : Nat := (256 + 448 * r.slot) * 512

/-- The physical address of `len` bytes at a view address; `none` outside the view, or for a store into constants (R396). -/
def viewPhys (r : Resid) (store : Bool) (a len : Nat) : Option Nat :=
  if a + len ≤ r.view.opTiles * 512 then some (slotBase r + a)
  else if !store && 0x40000 ≤ a && a + len ≤ 0x40000 + r.view.constTiles * 512 then some (r.view.constBase * 512 + (a - 0x40000))
  else none

/-- A physical tile holds constants or is a window tile of the job (R414). -/
def isConstTile (r : Resid) (t : Nat) : Bool :=
  t < 256 || (256 + 448 * r.slot + (r.view.opTiles - r.view.windowTiles) ≤ t && t < 256 + 448 * r.slot + r.view.opTiles)

/-- The trap of a failed check word. -/
def tileTrap (r : Resid) (elem t : Nat) : VEnd := .trap (if isConstTile r t then .constTile else .operandTile) elem t

/-- The first tile of a physical range whose check word fails (R397). -/
def badTile (cl : Cluster) (p len : Nat) : Option Nat := (tilesOf p len).find? (tileFails cl)

/-- The check of a whole range: GRANT, then the check words of what is read. -/
def rangeStop (x : VccIn) (store : Bool) (a len : Nat) : Option VEnd :=
  match viewPhys x.r store a len with
  | none => some (.trap .grant 0 0)
  | some p => if store then none else (badTile x.cl p len).map (tileTrap x.r 0)

/-- The bytes of a range of the view. -/
def readView (x : VccIn) (a len : Nat) : Bytes := ((viewPhys x.r false a len).map (fun p => cellsRead x.cl.tiles p len)).getD []

/-- A range of the view touches a secret tile. -/
def secretView (x : VccIn) (a len : Nat) : Bool :=
  ((viewPhys x.r false a len).map (fun p => (tilesOf p len).any (fun t => x.cl.tileTags.contains t))).getD false

/-- Bytes stored at a physical address: tiles become secret where `t`; a tile written whole has a new check word (R397, R408). -/
def storeAt (p : Nat) (data : Bytes) (t : Bool) (cl : Cluster) : Cluster :=
  let ts := tilesOf p data.length
  let whole := fun (k : Nat) => p ≤ 512 * k && 512 * k + 512 ≤ p + data.length
  { cl with tiles := cellsWrite cl.tiles p data,
            tileTags := if t then cl.tileTags ++ ts.filter (fun k => !(cl.tileTags.contains k)) else cl.tileTags,
            badChecks := keptChecks (fun k => ts.contains k && whole k) cl }

/-- Bytes stored at a view address. -/
def storeView (r : Resid) (a : Nat) (data : Bytes) (t : Bool) (cl : Cluster) : Cluster :=
  match viewPhys r true a data.length with
  | some p => storeAt p data t cl
  | none => cl

/-- An H-class instruction: the first range that stops it, else its effect (R405, R412). -/
def hClass (x : VccIn) (reads writes : List (Nat × Nat)) (k : Unit → VOut) : VOut :=
  match (reads.filterMap (fun p => rangeStop x false p.1 p.2) ++ writes.filterMap (fun p => rangeStop x true p.1 p.2)).head? with
  | some e => { cl := x.cl, free := x.free, fin := e }
  | none => k ()

/-- A 64-bit address with an offset. -/
def wrap64 (a : Nat) : Nat := a % 2 ^ 64

/-! ### Traps (R412 to R415) -/

/-- A job that a fault of its kernel or tiles ends (R414). -/
def endFaulted (id : Nat) (s : State) : State := endJob .abortedFault wholeInline id s

/-- The code of a trap in a KERNEL_DEFECT record, in the order in which R480 names them (log 22). -/
def defectCode : TrapKind → Nat
  | .grant => 0
  | .secretFlow => 1
  | .watchdog => 2
  | _ => 3

/-- A kernel defect: the record and the abort (R414, R418, R480). -/
def kernelDefect (c : Nat) (j : Job) (code pc : Nat) (s : State) : State :=
  endFaulted j.id (faultEvent 8 0x0609 c (byteOf code :: (leBytes 2 (algOf s j) ++ leBytes 2 pc)) s)

/-- A self-detected fault: the cluster is fenced and the job re-executed (R277, R414). -/
def selfFault (c : Nat) (j : Job) (s : State) : State :=
  fenceUnit c 3 (noteMismatch (faultEvent 3 0x0604 c (leBytes 2 (dOp j.desc) ++ leBytes 3 (dParam j.desc)) s))

/-- A cluster replaced. -/
def putCluster (c : Nat) (cl : Cluster) (s : State) : State := { s with vcc := modAt s.vcc c (fun _ => cl) }

/-- A trap, at the element and tile where it was met (R412 to R414). -/
def takeTrap (c : Nat) (j : Job) (x : VccIn) (o : VOut) (k : TrapKind) (elem tile : Nat) (s : State) : State :=
  match k with
  | .constTile =>
    let s := faultEvent 1 0x0602 c (leBytes 2 tile ++ [1] ++ leBytes 2 (algOf s j) ++ leBytes 2 x.cl.pc) s
    if x.cl.reloaded.contains tile then fenceUnit c 1 s
    else
      let t : Trap := { kind := .constTile, element := elem, tile := tile }
      putCluster c { o.cl with regs := if x.r.view.compat then x.cl.regs else o.cl.regs, vresume := if x.r.view.compat then 0 else elem, trap := some t } s
  | .operandTile => endFaulted j.id (operandTileError c tile (algOf s j) x.cl.pc s)
  | .selfFault => selfFault c j s
  | k => kernelDefect c j (defectCode k) x.cl.pc s

/-! ### Running one instruction -/

/-- The running job of a cluster, where the cluster takes an instruction: no trap pending, not waiting at a YIELD or END, not halted
(R412, R420, R462). -/
def vccReady (c : Nat) (s : State) : Option (Cluster × Resid × Job) :=
  match s.vcc[c]? with
  | none => none
  | some cl =>
    match runningResid cl with
    | none => none
    | some r =>
      match s.job? r.job with
      | none => none
      | some j =>
        if j.phase != .running || cl.trap.isSome || r.atYield || r.ended || (s.dbg.halted == some j.id && !(s.dbg.stepOne && s.dbg.haltedOn == c)) then none
        else some (cl, r, j)

/-- A stepped job halts again before its next word (R462). -/
def haltAgain (c : Nat) (j : Job) (s : State) : State :=
  if s.dbg.halted == some j.id then
    { s with dbg := { s.dbg with stepOne := false, stepPc := ((s.vcc[c]?).map (fun (k : Cluster) => k.pc)).getD 0 } }
  else s

/-- A copy into the slot that a job holds on a peer cluster (R405). -/
def peerCopy (job : Nat) (p : Nat × Nat × Bytes × List Nat) (s : State) : State :=
  { s with vcc := modAt s.vcc p.1 (fun (k : Cluster) => match k.resid.find? (fun (r : Resid) => r.job == job) with
      | none => k
      | some r =>
        let k := storeView r p.2.1 p.2.2.1 false k
        let ts := p.2.2.2.map (fun t => 256 + 448 * r.slot + t)
        { k with tileTags := k.tileTags ++ ts.filter (fun t => !(k.tileTags.contains t)) }) }

/-- A cluster after an instruction: before the word `pc`, in the midst of its section (R400, R420). -/
def Cluster.stepTo (k : Cluster) (pc : Nat) : Cluster :=
  { k with pc := pc, vresume := 0, reloaded := [], resid := modFirst (fun (r : Resid) => r.saved.isNone) (fun r => { r with point := false }) k.resid }

/-- Fresh mask bits drawn on the mask port of a cluster, in blocks of 256 bits (R18, R394, R404, R407). -/
def drawMask (c bits : Nat) (s : State) : State :=
  if bits == 0 then s
  else
    let s := s.onUnit (vccId c) (fun (x : UnitSt) => { x with maskBlocks := x.maskBlocks + ceilDiv bits 256 })
    if (s.unit? (vccId c)).any (fun x => 2 ^ 20 ≤ x.maskBlocks) then reseedMask (vccId c) s else s

/-- The end of an instruction. -/
def endInstr (c : Nat) (j : Job) (x : VccIn) (o : VOut) (s : State) : State :=
  let s := drawMask c o.mask s
  let moveTo := fun (pc : Nat) =>
    let k := o.cl.stepTo pc
    let s := putCluster c k { s with free := o.free }
    haltAgain c j (match o.peer with | some p => peerCopy j.id p s | none => s)
  match o.fin with
  | .next => moveTo (x.cl.pc + 1)
  | .goto pc => moveTo pc
  | .trap k e t => takeTrap c j x o k e t { s with free := o.free }
  | .wait => s
  | .notLoaded => s

/-- The code word before which a job stands, where the kernel's code is known: a loaded package's (R400, R421). -/
def codeWord (s : State) (j : Job) (pc : Nat) : Option Nat := (pkgOf s j).bind (fun k => k.1.code[pc]?)

/-- The word before which a cluster's job stands spells an instruction (R399, R400). DESIGN CHOICE (log 39): where the model holds no word there, as
the manual does not print the ROM's code, it may be any. -/
def spells (c : Nat) (i : CodeWord) (s : State) : Bool :=
  match vccReady c s with
  | none => true
  | some (cl, _, j) => ((codeWord s j cl.pc).map (fun w => vccDecode w == some i)).getD true

/-- The effect of an instruction, where the word before which the cluster stands spells it; else the cluster does not execute it (R400). -/
def onWord (c : Nat) (i : CodeWord) (f : State → State) (s : State) : State := if spells c i s then f s else s

/-- An instruction of the job that runs on a cluster; one that needs fresh randomness ends the job where there is none (R20). -/
def vccRun (c : Nat) (random : VccIn → Bool) (f : VccIn → VOut) (s : State) : State :=
  match vccReady c s with
  | none => s
  | some (cl, r, j) =>
    let x : VccIn := { part := s.part, cl := cl, r := r, free := s.free }
    if random x && !s.sc.drbgOn then failJob j (failEntry j .abortedFault (wholeInline j)) s else endInstr c j x (f x) s

/-- An instruction without fresh randomness. -/
def vccPlain (c : Nat) (f : VccIn → VOut) (s : State) : State := vccRun c (fun _ => false) f s

/-- An instruction with fresh randomness. -/
def vccRandom (c : Nat) (f : VccIn → VOut) (s : State) : State := vccRun c (fun _ => true) f s

end Sys2Proof.Machine
end

