-- ==== Sys2Proof/Machine/VccVector.lean ====
section
/-!
DEFINITION. The element-wise vector instructions, VPERM and the short-vector instructions (R395, R400, R402).
-/
namespace Sys2Proof.Machine

/-- The elements of a v register that lie in it. -/
def vElems (x : VccIn) (w i : Nat) : List Nat := elems w (Config.vlen x.part / w) (vRead x.cl.regs i)

/-- Old elements with those that `on` names replaced (R395, R402). -/
def mergeElems (on : Nat → Bool) (f : Nat → Nat) (old : List Nat) : List Nat := old.mapIdx (fun j e => if on j then f j else e)

/-- A vector instruction: element `j` of VD takes `f j` where it is active and below VL; a VL of 0 makes it a no-op (R395, R402). -/
def vectorOp (o : VecOps) (srcTag : Bool) (used : Nat) (f : Nat → Nat) (x : VccIn) : VOut :=
  let w := ewBits o.ew
  let n := x.count w
  if n == 0 then x.regs x.cl.regs
  else
    let r := x.cl.regs
    let new := mergeElems (fun j => decide (j < n) && x.active o.me o.vm j) f (vElems x w o.vd)
    x.regs (vWrite o.vd (packElems w new) (srcTag || (o.me && tagged r.mTag o.vm)) r) used

/-- Tags of the two vector sources. -/
def vvTag (x : VccIn) (o : VecOps) : Bool := tagged x.cl.regs.vTag o.vs1 || tagged x.cl.regs.vTag o.vs2

/-- A VV instruction: element `j` reads element `j` of its sources (R402). -/
def vvOp (f : Nat → Nat → Nat → Nat) (o : VecOps) (x : VccIn) : VOut :=
  let w := ewBits o.ew
  let a := vElems x w o.vs1
  let b := vElems x w o.vs2
  vectorOp o (vvTag x o) 0 (fun j => f w (a.getD j 0) (b.getD j 0)) x

/-- An operation that may leave the result open: `none` becomes a free value (log 22). -/
def orFresh (x : VccIn) (w j : Nat) : Option Nat → Nat
  | some v => v
  | none => x.fresh w j

/-- A VV instruction with unstated results. -/
def vvOpen (f : Nat → Nat → Nat → Option Nat) (o : VecOps) (x : VccIn) : VOut :=
  let w := ewBits o.ew
  let a := vElems x w o.vs1
  let b := vElems x w o.vs2
  vectorOp o (vvTag x o) (x.count w) (fun j => orFresh x w j (f w (a.getD j 0) (b.getD j 0))) x

/-- The scalar operand of a VS instruction: the low EW bits of GS (R402). -/
def vsScalar (x : VccIn) (o : VecOps) : Nat := (gRead x.cl.regs o.vs2).toNat % 2 ^ ewBits o.ew

/-- A VS instruction (R402). -/
def vsOp (f : Nat → Nat → Nat → Nat) (o : VecOps) (x : VccIn) : VOut :=
  let w := ewBits o.ew
  let a := vElems x w o.vs1
  vectorOp o (tagged x.cl.regs.vTag o.vs1 || tagged x.cl.regs.gTag o.vs2) 0 (fun j => f w (a.getD j 0) (vsScalar x o)) x

/-- A VS instruction with unstated results. -/
def vsOpen (f : Nat → Nat → Nat → Option Nat) (o : VecOps) (x : VccIn) : VOut :=
  let w := ewBits o.ew
  let a := vElems x w o.vs1
  vectorOp o (tagged x.cl.regs.vTag o.vs1 || tagged x.cl.regs.gTag o.vs2) (x.count w) (fun j => orFresh x w j (f w (a.getD j 0) (vsScalar x o))) x

/-! Element operations: operands are below 2^w, results are taken mod 2^w. -/

def elAdd (_ a b : Nat) : Nat := a + b
def elSub (w a b : Nat) : Nat := a + 2 ^ w - b
def elAnd (_ a b : Nat) : Nat := a &&& b
def elOr (_ a b : Nat) : Nat := a ||| b
def elXor (_ a b : Nat) : Nat := a ^^^ b
def elMul (_ a b : Nat) : Nat := a * b
/-- Shifts; the spec states no result for an amount of the width or more (log 22). -/
def elSll (w a b : Nat) : Option Nat := if b < w then some (a * 2 ^ b) else none
def elSrl (w a b : Nat) : Option Nat := if b < w then some (a / 2 ^ b) else none

/-- The value of an element as a signed number. -/
def elSigned (w a : Nat) : Int := if a < 2 ^ (w - 1) then (a : Int) else (a : Int) - (2 ^ w : Nat)

/-- VMULH: the high half; where the signed and the unsigned product differ in it, the spec does not say which (log 22). -/
def elMulh (w a b : Nat) : Option Nat :=
  let u := a * b / 2 ^ w
  let t := (Int.emod (elSigned w a * elSigned w b / ((2 ^ w : Nat) : Int)) ((2 ^ w : Nat) : Int)).toNat
  if u == t then some u else none

/-- VCMP: relation 0 EQ, 1 LTU, 2 LT (R400). -/
def elCmp (rel w a b : Nat) : Bool :=
  match rel with
  | 0 => a == b
  | 1 => decide (a < b)
  | _ => decide (elSigned w a < elSigned w b)

/-- VCMP writes bits of mask VD[2:0] (R400, R402). -/
def vcmpOp (rel : Nat) (o : VecOps) (x : VccIn) : VOut :=
  let w := ewBits o.ew
  let n := x.count w
  if n == 0 then x.regs x.cl.regs
  else
    let r := x.cl.regs
    let a := vElems x w o.vs1
    let b := vElems x w o.vs2
    let m := o.vd % 8
    let old := elems 1 256 (mRead r m).toNat
    let new := mergeElems (fun j => decide (j < n) && x.active o.me o.vm j) (fun j => (elCmp rel w (a.getD j 0) (b.getD j 0)).toNat) old
    x.regs (mWrite m (packElems 1 new) (vvTag x o || (o.me && tagged r.mTag o.vm)) r)

/-- VPERM: element `j` takes the element of the sources that `pick` names; `none` has no source (R402; log 22). -/
def permOp (two : Bool) (pick : Nat → Nat → Nat → Option (Bool × Nat)) (o : VecOps) (x : VccIn) : VOut :=
  let w := ewBits o.ew
  let n := x.count w
  let a := vElems x w o.vs1
  let b := vElems x w o.vs2
  let get := fun (p : Bool × Nat) => if p.1 then b[p.2]? else a[p.2]?
  vectorOp o (if two then vvTag x o else tagged x.cl.regs.vTag o.vs1) n (fun j => orFresh x w j ((pick n (b.headD 0) j).bind get)) x

/-- SLIDEUP and SLIDEDOWN by VS2 element 0; REVERSE; ZIP of the low halves; UNZIP into even and odd; BROADCAST (R400). -/
def slideUp (_ k j : Nat) : Option (Bool × Nat) := if k ≤ j then some (false, j - k) else none
def slideDown (_ k j : Nat) : Option (Bool × Nat) := some (false, j + k)
def reversed (n _ j : Nat) : Option (Bool × Nat) := some (false, n - 1 - j)
def zipped (_ _ j : Nat) : Option (Bool × Nat) := some (j % 2 == 1, j / 2)
def unzipped (n _ j : Nat) : Option (Bool × Nat) := let h := (n + 1) / 2; some (false, if j < h then 2 * j else 2 * (j - h) + 1)
def broadcasted (_ _ _ : Nat) : Option (Bool × Nat) := some (false, 0)

/-! ### Short vectors: s0 to s15 of 256 bits (R393, R400) -/

/-- A short-vector instruction on the elements of 256 bits below VL (R402). -/
def shortOp (f : Nat → Nat → Nat → Option Nat) (o : VecOps) (x : VccIn) : VOut :=
  let w := ewBits o.ew
  let n := min x.cl.regs.vl (256 / w)
  if n == 0 then x.regs x.cl.regs
  else
    let r := x.cl.regs
    let a := elems w (256 / w) (sRead r o.vs1)
    let b := elems w (256 / w) (sRead r o.vs2)
    let new := mergeElems (fun j => decide (j < n) && x.active o.me o.vm j) (fun j => orFresh x w j (f w (a.getD j 0) (b.getD j 0))) (elems w (256 / w) (sRead r o.vd))
    x.regs (sWrite o.vd (packElems w new) (tagged r.sTag o.vs1 || tagged r.sTag o.vs2 || (o.me && tagged r.mTag o.vm)) r) n

/-- SVROT: the spec does not say the direction; where the two rotations differ the result is free (log 22). -/
def elRot (w a b : Nat) : Option Nat :=
  let k := b % w
  let l := a * 2 ^ k % 2 ^ w + a / 2 ^ (w - k)
  let r := a / 2 ^ k + a * 2 ^ (w - k) % 2 ^ w
  if k == 0 then some a else if l == r then some l else none

/-- An operation that is stated everywhere. -/
def stated (f : Nat → Nat → Nat → Nat) (w a b : Nat) : Option Nat := some (f w a b)

/-- VADD (R400, R402). -/
def execVadd (c : Nat) (o : VecOps) (s : State) : Host.Outcome State Fault Refusal :=
  .next (onWord c (.vadd o) (vccPlain c (vvOp elAdd o)) s)

/-- VSUB (R400, R402). -/
def execVsub (c : Nat) (o : VecOps) (s : State) : Host.Outcome State Fault Refusal :=
  .next (onWord c (.vsub o) (vccPlain c (vvOp elSub o)) s)

/-- VAND (R400, R402). -/
def execVand (c : Nat) (o : VecOps) (s : State) : Host.Outcome State Fault Refusal :=
  .next (onWord c (.vand o) (vccPlain c (vvOp elAnd o)) s)

/-- VOR (R400, R402). -/
def execVor (c : Nat) (o : VecOps) (s : State) : Host.Outcome State Fault Refusal :=
  .next (onWord c (.vor o) (vccPlain c (vvOp elOr o)) s)

/-- VXOR (R400, R402). -/
def execVxor (c : Nat) (o : VecOps) (s : State) : Host.Outcome State Fault Refusal :=
  .next (onWord c (.vxor o) (vccPlain c (vvOp elXor o)) s)

/-- VSLL (R400, R402). -/
def execVsll (c : Nat) (o : VecOps) (s : State) : Host.Outcome State Fault Refusal :=
  .next (onWord c (.vsll o) (vccPlain c (vvOpen elSll o)) s)

/-- VSRL (R400, R402). -/
def execVsrl (c : Nat) (o : VecOps) (s : State) : Host.Outcome State Fault Refusal :=
  .next (onWord c (.vsrl o) (vccPlain c (vvOpen elSrl o)) s)

/-- VMUL (R400, R402). -/
def execVmul (c : Nat) (o : VecOps) (s : State) : Host.Outcome State Fault Refusal :=
  .next (onWord c (.vmul o) (vccPlain c (vvOp elMul o)) s)

/-- VMULH (R400, R402). -/
def execVmulh (c : Nat) (o : VecOps) (s : State) : Host.Outcome State Fault Refusal :=
  .next (onWord c (.vmulh o) (vccPlain c (vvOpen elMulh o)) s)

/-- VCMP (R400). -/
def execVcmp (c rel : Nat) (o : VecOps) (s : State) : Host.Outcome State Fault Refusal :=
  .next (onWord c (.vcmp rel o) (vccPlain c (vcmpOp rel o)) s)

/-- VPERM SLIDEUP (R400). -/
def execSlideup (c : Nat) (o : VecOps) (s : State) : Host.Outcome State Fault Refusal :=
  .next (onWord c (.slideup o) (vccPlain c (permOp true slideUp o)) s)

/-- VPERM SLIDEDOWN (R400). -/
def execSlidedown (c : Nat) (o : VecOps) (s : State) : Host.Outcome State Fault Refusal :=
  .next (onWord c (.slidedown o) (vccPlain c (permOp true slideDown o)) s)

/-- VPERM REVERSE (R400). -/
def execReverse (c : Nat) (o : VecOps) (s : State) : Host.Outcome State Fault Refusal :=
  .next (onWord c (.reverse o) (vccPlain c (permOp false reversed o)) s)

/-- VPERM ZIP (R400). -/
def execZip (c : Nat) (o : VecOps) (s : State) : Host.Outcome State Fault Refusal :=
  .next (onWord c (.zip o) (vccPlain c (permOp true zipped o)) s)

/-- VPERM UNZIP (R400). -/
def execUnzip (c : Nat) (o : VecOps) (s : State) : Host.Outcome State Fault Refusal :=
  .next (onWord c (.unzip o) (vccPlain c (permOp false unzipped o)) s)

/-- VPERM BROADCAST (R400). -/
def execBroadcast (c : Nat) (o : VecOps) (s : State) : Host.Outcome State Fault Refusal :=
  .next (onWord c (.broadcast o) (vccPlain c (permOp false broadcasted o)) s)

/-- SVADD (R400). -/
def execSvadd (c : Nat) (o : VecOps) (s : State) : Host.Outcome State Fault Refusal :=
  .next (onWord c (.svadd o) (vccPlain c (shortOp (stated elAdd) o)) s)

/-- SVXOR (R400). -/
def execSvxor (c : Nat) (o : VecOps) (s : State) : Host.Outcome State Fault Refusal :=
  .next (onWord c (.svxor o) (vccPlain c (shortOp (stated elXor) o)) s)

/-- SVROT (R400). -/
def execSvrot (c : Nat) (o : VecOps) (s : State) : Host.Outcome State Fault Refusal :=
  .next (onWord c (.svrot o) (vccPlain c (shortOp (elRot) o)) s)

/-- SVMUL (R400). -/
def execSvmul (c : Nat) (o : VecOps) (s : State) : Host.Outcome State Fault Refusal :=
  .next (onWord c (.svmul o) (vccPlain c (shortOp (stated elMul) o)) s)

/-- VADD.X (R400, R402). -/
def execVaddX (c : Nat) (o : VecOps) (s : State) : Host.Outcome State Fault Refusal :=
  .next (onWord c (.vaddX o) (vccPlain c (vsOp elAdd o)) s)

/-- VSUB.X (R400, R402). -/
def execVsubX (c : Nat) (o : VecOps) (s : State) : Host.Outcome State Fault Refusal :=
  .next (onWord c (.vsubX o) (vccPlain c (vsOp elSub o)) s)

/-- VAND.X (R400, R402). -/
def execVandX (c : Nat) (o : VecOps) (s : State) : Host.Outcome State Fault Refusal :=
  .next (onWord c (.vandX o) (vccPlain c (vsOp elAnd o)) s)

/-- VOR.X (R400, R402). -/
def execVorX (c : Nat) (o : VecOps) (s : State) : Host.Outcome State Fault Refusal :=
  .next (onWord c (.vorX o) (vccPlain c (vsOp elOr o)) s)

/-- VXOR.X (R400, R402). -/
def execVxorX (c : Nat) (o : VecOps) (s : State) : Host.Outcome State Fault Refusal :=
  .next (onWord c (.vxorX o) (vccPlain c (vsOp elXor o)) s)

/-- VSLL.X (R400, R402). -/
def execVsllX (c : Nat) (o : VecOps) (s : State) : Host.Outcome State Fault Refusal :=
  .next (onWord c (.vsllX o) (vccPlain c (vsOpen elSll o)) s)

/-- VSRL.X (R400, R402). -/
def execVsrlX (c : Nat) (o : VecOps) (s : State) : Host.Outcome State Fault Refusal :=
  .next (onWord c (.vsrlX o) (vccPlain c (vsOpen elSrl o)) s)

/-- VMUL.X (R400, R402). -/
def execVmulX (c : Nat) (o : VecOps) (s : State) : Host.Outcome State Fault Refusal :=
  .next (onWord c (.vmulX o) (vccPlain c (vsOp elMul o)) s)

end Sys2Proof.Machine
end

