-- ==== Sys2Proof/Machine/VccShare.lean ====
section
/-!
DEFINITION. The share-aware instructions (R404): a group holds the shares of each element; a result's shares are fresh.
-/
namespace Sys2Proof.Machine

/-- A sharing as an exclusive or: all shares but the last are free values, from the `i`-th on. -/
def shareXor (x : VccIn) (w i v : Nat) : List Nat :=
  let ms := (List.range (x.n - 1)).map (fun k => x.fresh w (i + k))
  ms ++ [ms.foldl (· ^^^ ·) v]

/-- A sharing as a sum mod 2^w. -/
def shareSum (x : VccIn) (w i v : Nat) : List Nat :=
  let ms := (List.range (x.n - 1)).map (fun k => x.fresh w (i + k))
  ms ++ [(v + x.n * 2 ^ w - ms.sum) % 2 ^ w]

/-- The shares of element `j` of the group at `b`. -/
def groupAt (x : VccIn) (w b j : Nat) : List Nat := (List.range x.n).map (fun k => vRead x.cl.regs (b + k) / 2 ^ (w * j) % 2 ^ w)

/-- The value of a Boolean and of an arithmetic sharing. -/
def xorValue (l : List Nat) : Nat := l.foldl (· ^^^ ·) 0
def sumValue (w : Nat) (l : List Nat) : Nat := l.sum % 2 ^ w

/-- A group takes the shares that `f` gives for its elements below `n`; its registers are tagged (R404). -/
def writeGroup (x : VccIn) (w d n : Nat) (f : Nat → List Nat) : RegSave :=
  let rows := (List.range n).map f
  (List.range x.n).foldl (fun r k =>
    vWrite (d + k) (packElems w (mergeElems (fun j => decide (j < n)) (fun j => (rows.getD j []).getD k 0) (vElems x w (d + k)))) true r) x.cl.regs

/-- A logarithm to base 2, rounded up: the steps that reduce `n` elements pairwise (R404; log 22). -/
def log2Up (n : Nat) : Nat := if n ≤ 1 then 0 else Nat.log2 (n - 1) + 1

/-- Fresh mask bits per element of width `w` (R404): none; those of SHAND and SHSEL; of SHREF; of SHBA and SHAB. -/
def noMask (_ : VccIn) (_ : Nat) : Nat := 0
def andMask (x : VccIn) (w : Nat) : Nat := w * x.pairs
def refMask (x : VccIn) (w : Nat) : Nat := w * (x.n - 1)
def convMask (x : VccIn) (w : Nat) : Nat := w * x.pairs * (log2Up w + 2)

/-- A share-aware instruction over the elements below VL (R395, R404), with its fresh mask bits per element. -/
def groupOp (o : VecOps) (mask : VccIn → Nat → Nat) (f : Nat → Nat → List Nat) (x : VccIn) : VOut :=
  let w := ewBits o.ew
  let n := x.count w
  if n == 0 then x.regs x.cl.regs
  else x.regs (writeGroup x w o.vd n (f w)) (if mask x w == 0 then 0 else n * (x.n - 1)) (n * mask x w)

/-- SHXOR. -/
def shxorOp (o : VecOps) (x : VccIn) : VOut := groupOp o noMask (fun w j => List.zipWith (· ^^^ ·) (groupAt x w o.vs1 j) (groupAt x w o.vs2 j)) x

/-- SHAND. -/
def shandOp (o : VecOps) (x : VccIn) : VOut :=
  groupOp o andMask (fun w j => shareXor x w (j * (x.n - 1)) (xorValue (groupAt x w o.vs1 j) &&& xorValue (groupAt x w o.vs2 j))) x

/-- SHXORP: the public vector goes into share 0. -/
def shxorpOp (o : VecOps) (x : VccIn) : VOut :=
  groupOp o noMask (fun w j => modAt (groupAt x w o.vs1 j) 0 (· ^^^ (vElems x w o.vs2).getD j 0)) x

/-- SHANDP: each share with the public vector. -/
def shandpOp (o : VecOps) (x : VccIn) : VOut :=
  groupOp o noMask (fun w j => (groupAt x w o.vs1 j).map (· &&& (vElems x w o.vs2).getD j 0)) x

/-- SHADD: share by share, mod 2^EW. -/
def shaddOp (o : VecOps) (x : VccIn) : VOut := groupOp o noMask (fun w j => List.zipWith (· + ·) (groupAt x w o.vs1 j) (groupAt x w o.vs2 j)) x

/-- SHREF. -/
def shrefOp (o : VecOps) (x : VccIn) : VOut := groupOp o refMask (fun w j => shareXor x w (j * (x.n - 1)) (xorValue (groupAt x w o.vs1 j))) x

/-- SHBA and SHAB. -/
def shbaOp (o : VecOps) (x : VccIn) : VOut := groupOp o convMask (fun w j => shareSum x w (j * (x.n - 1)) (xorValue (groupAt x w o.vs1 j))) x
def shabOp (o : VecOps) (x : VccIn) : VOut := groupOp o convMask (fun w j => shareXor x w (j * (x.n - 1)) (sumValue w (groupAt x w o.vs1 j))) x

/-- SHSEL: bit by bit, VS1 where the selector held in VD is 1, else VS2. -/
def shselOp (o : VecOps) (x : VccIn) : VOut :=
  groupOp o andMask (fun w j =>
    let c := xorValue (groupAt x w o.vd j)
    shareXor x w (j * (x.n - 1)) ((c &&& xorValue (groupAt x w o.vs1 j)) ||| ((2 ^ w - 1 - c) &&& xorValue (groupAt x w o.vs2 j)))) x

/-- SHCMPZ: element 0 alone. -/
def shcmpzOp (o : VecOps) (x : VccIn) : VOut :=
  let w := ewBits o.ew
  let n := x.count w
  if n == 0 then x.regs x.cl.regs
  else
    let z := (List.range n).all (fun j => xorValue (groupAt x w o.vs1 j) == 0)
    x.regs (writeGroup x w o.vd 1 (fun _ => shareXor x w 0 (if z then 2 ^ w - 1 else 0))) (x.n - 1) (n * (w * x.pairs * (log2Up n + log2Up w)))

/-- SHXOR (R404). -/
def execShxor (c : Nat) (o : VecOps) (s : State) : Host.Outcome State Fault Refusal :=
  .next (onWord c (.shxor o) (vccPlain c (shxorOp o)) s)

/-- SHAND (R404). -/
def execShand (c : Nat) (o : VecOps) (s : State) : Host.Outcome State Fault Refusal :=
  .next (onWord c (.shand o) (vccRandom c (shandOp o)) s)

/-- SHXORP (R404). -/
def execShxorp (c : Nat) (o : VecOps) (s : State) : Host.Outcome State Fault Refusal :=
  .next (onWord c (.shxorp o) (vccPlain c (shxorpOp o)) s)

/-- SHANDP (R404). -/
def execShandp (c : Nat) (o : VecOps) (s : State) : Host.Outcome State Fault Refusal :=
  .next (onWord c (.shandp o) (vccPlain c (shandpOp o)) s)

/-- SHADD (R404). -/
def execShadd (c : Nat) (o : VecOps) (s : State) : Host.Outcome State Fault Refusal :=
  .next (onWord c (.shadd o) (vccPlain c (shaddOp o)) s)

/-- SHREF (R404). -/
def execShref (c : Nat) (o : VecOps) (s : State) : Host.Outcome State Fault Refusal :=
  .next (onWord c (.shref o) (vccRandom c (shrefOp o)) s)

/-- SHBA (R404). -/
def execShba (c : Nat) (o : VecOps) (s : State) : Host.Outcome State Fault Refusal :=
  .next (onWord c (.shba o) (vccRandom c (shbaOp o)) s)

/-- SHAB (R404). -/
def execShab (c : Nat) (o : VecOps) (s : State) : Host.Outcome State Fault Refusal :=
  .next (onWord c (.shab o) (vccRandom c (shabOp o)) s)

/-- SHSEL (R404). -/
def execShsel (c : Nat) (o : VecOps) (s : State) : Host.Outcome State Fault Refusal :=
  .next (onWord c (.shsel o) (vccRandom c (shselOp o)) s)

/-- SHCMPZ (R404). -/
def execShcmpz (c : Nat) (o : VecOps) (s : State) : Host.Outcome State Fault Refusal :=
  .next (onWord c (.shcmpz o) (vccRandom c (shcmpzOp o)) s)

end Sys2Proof.Machine
end

