-- ==== Sys2Proof/Machine/VccHash.lean ====
section
/-!
DEFINITION. The H-class instructions of a vector cluster (R405): window copies, operand network, random fill, NTT, modular and field
arithmetic, Keccak, SHA-2 and the comparator.
-/
namespace Sys2Proof.Machine

/-- An operand register's value. -/
def hReg (x : VccIn) (i : Nat) : Nat := (gRead x.cl.regs i).toNat

/-- A tagged address, stride, count or length traps (R410). -/
def hGuard (x : VccIn) (rs : List Nat) (k : Unit → VOut) : VOut := if rs.any (fun i => tagged x.cl.regs.gTag i) then x.stop .secretFlow else k ()

/-- WIN FETCH: the copy is issued; its destination lies in the window tiles (R405). -/
def winFetchOp (src : Nat) (h : HOps) (x : VccIn) : VOut :=
  hGuard x [h.a, h.b, h.c] (fun _ =>
    let a := hReg x h.a
    let n := hReg x h.c
    let v := x.r.view
    if (v.opTiles - v.windowTiles) * 512 ≤ a && a + n ≤ v.opTiles * 512 then
      let cl := x.cl
      { cl := { cl with resid := modFirst (fun q => q.job == x.r.job) (fun q => { q with window := q.window ++ [(a, src, hReg x h.b, n)] }) cl.resid }, free := x.free }
    else x.stop .grant)

/-- WIN WAIT. -/
def winWaitOp (x : VccIn) : VOut := { cl := x.cl, free := x.free, fin := if x.r.window.isEmpty then .next else .wait }

/-- A window copy of a job completes (R405). -/
def winLand (c job : Nat) (s : State) : State :=
  match s.vcc[c]? with
  | none => s
  | some cl =>
    match cl.resid.find? (fun r => r.job == job) with
    | none => s
    | some r =>
      match r.window with
      | [] => s
      | w :: rest =>
        let k := landFetch r w cl
        putCluster c { k with resid := modFirst (fun q => q.job == job) (fun q => { q with window := rest }) k.resid } s

/-- XMOV: tiles go to the slot of the same job on a gang peer, and tags travel with them (R405, R408). -/
def xmovOp (peer : Nat) (h : HOps) (x : VccIn) : VOut :=
  hGuard x [h.a, h.b, h.c] (fun _ =>
    let a := hReg x h.a
    let b := hReg x h.b
    let n := hReg x h.c
    match x.r.view.gang[peer]? with
    | none => x.stop .grant
    | some u =>
      hClass x [(a, n)] [(b, n)] (fun _ =>
        let p := (viewPhys x.r false a n).getD 0
        let secret := (tilesOf p n).filter (fun t => x.cl.tileTags.contains t)
        let onto := secret.flatMap (fun t =>
          let lo := max p (512 * t)
          tilesOf (b + (lo - p)) (min (p + n) (512 * t + 512) - lo))
        { cl := x.cl, free := x.free, peer := some (u, b, readView x a n, onto) }))

/-- RAND: tiles from the quadrant DRBG, secret from then on (R405, R408). -/
def randOp (h : HOps) (x : VccIn) : VOut :=
  hGuard x [h.a, h.b] (fun _ =>
    let n := hReg x h.b
    hClass x [] [(hReg x h.a, n)] (fun _ =>
      { cl := storeView x.r (hReg x h.a) ((List.range n).map (fun i => Config.freeByte (x.free + i))) true x.cl, free := x.free + n }))

/-- An odd number from 3 to 2^32 - 1 as a modulus, with the constants of its method; for METHOD 3 a field of degree 1 to 13 (R424). -/
def entryOf (method v : Nat) : ModEntry :=
  if method == 3 then { value := v % 2 ^ 32, method := 3, const := v % 13 + 1 }
  else
    let q := 2 * (v % (2 ^ 31 - 1)) + 3
    if method == 1 then { value := q, method := 1, const := (2 ^ 32 - modInv q (2 ^ 32)) % 2 ^ 32, r2 := 2 ^ 64 % q }
    else { value := q, method := 2, const := 2 ^ 64 / q % 2 ^ 32 }

/-- An entry of a ROM kernel's table: its value is open, and of a method that the instruction takes, as at every load (R401, R424; log 39). -/
def romEntry (alg q : Nat) (methods : List Nat) : ModEntry :=
  let m := Config.romMethod alg q
  entryOf (if methods.contains m then m else methods.headD 0) (Config.romModulus alg q)

/-- The modulus entry that an instruction names, of a method that it takes (R424). -/
def modEntry (x : VccIn) (q : Nat) (methods : List Nat) : Option ModEntry :=
  match x.r.view.rom with
  | some a => some (romEntry a q methods)
  | none =>
    match x.cl.modulus[q]? with
    | some e => if methods.contains e.method then some e else none
    | none => none

/-- An instruction that names a modulus entry; no loaded package holds one that names a wrong entry (R424). -/
def withMod (x : VccIn) (q : Nat) (methods : List Nat) (k : ModEntry → VOut) : VOut :=
  match modEntry x q methods with
  | some e => k e
  | none => { cl := x.cl, free := x.free, fin := .notLoaded }

/-- Little-endian words of 32 bits. -/
def words32 (b : Bytes) : List Nat := (chunks 4 b).map leNat
def bytes32 (l : List Nat) : Bytes := l.flatMap (leBytes 4)

/-- The transform of one image: each output coefficient is a sum of the input ones with open factors, mod q; the inverse is scaled by N^-1
(R405; log 22). -/
def nttImage (inverse : Bool) (logN : Nat) (e : ModEntry) (table : Bytes) (v : List Nat) : List Nat :=
  let n := 2 ^ logN
  let scale := if inverse then modInv n e.value else 1
  (List.range n).map (fun i => (List.range n).foldl (fun a j => a + Config.nttFactor inverse logN e table i j * v.getD j 0) 0 % e.value * scale % e.value)

/-- NTT (R405): one image, or one per share. -/
def nttOp (h : HOps) (x : VccIn) : VOut :=
  hGuard x [h.a, h.b, h.c] (fun _ => withMod x h.q [1, 2] (fun e =>
    let logN := h.fn % 16
    let len := 4 * 2 ^ logN
    let shared := bitOf h.fn 5
    let images := if shared then x.n else 1
    let a := hReg x h.a
    let b := hReg x h.b
    let t := hReg x h.c
    hClass x [(b, images * len), (t, len)] [(a, images * len)] (fun _ =>
      let table := readView x t len
      let out := (List.range images).flatMap (fun k => bytes32 (nttImage (bitOf h.fn 4) logN e table (words32 (readView x (b + k * len) len))))
      { cl := storeView x.r a out (shared || secretView x b (images * len) || secretView x t len) x.cl, free := x.free })))

/-- A MOD instruction on VL elements of 32 bits; SHARED takes the group at B and the public vector C into the group at A (R405). -/
def modOp (h : HOps) (methods : List Nat) (f : ModEntry → Nat → Nat → Nat) (rest : ModEntry → Nat → Nat → Nat) (x : VccIn) : VOut :=
  withMod x h.q methods (fun e =>
    let n := x.count 32
    let c := vElems x 32 h.c
    let r := x.cl.regs
    if n == 0 then x.regs r
    else if bitOf h.fn 5 then
      x.regs (writeGroup x 32 h.a n (fun j => (groupAt x 32 h.b j).mapIdx (fun k v => if k == 0 then f e v (c.getD j 0) else rest e v (c.getD j 0))))
    else
      let b := vElems x 32 h.b
      let new := mergeElems (fun j => decide (j < n)) (fun j => f e (b.getD j 0) (c.getD j 0)) (vElems x 32 h.a)
      x.regs (vWrite h.a (packElems 32 new) (tagged r.vTag h.b || tagged r.vTag h.c) r))

/-- The exact residues (R405, R424): with METHOD 1 the product is the Montgomery product (log 22). -/
def modAdd (e : ModEntry) (a b : Nat) : Nat := (a + b) % e.value
def modSubE (e : ModEntry) (a b : Nat) : Nat := modSub a b e.value
def modMulE (e : ModEntry) (a b : Nat) : Nat := if e.method == 1 then a * b * modInv (2 ^ 32) e.value % e.value else a * b % e.value
def modRed (e : ModEntry) (a _ : Nat) : Nat := a % e.value
def toMont (e : ModEntry) (a _ : Nat) : Nat := a * 2 ^ 32 % e.value
def fromMont (e : ModEntry) (a _ : Nat) : Nat := a * modInv (2 ^ 32) e.value % e.value

/-! ### Keccak (R405) -/

/-- The shares of the Keccak state after a permutation; a shared state's new shares are fresh. -/
def kecPermute (free : Nat) (k : List Lanes) : List Lanes × Nat :=
  if k.length ≤ 1 then (k.map keccakF, free)
  else
    let v := keccakF (k.foldl (fun a b => List.zipWith (· ^^^ ·) a b) keccakZero)
    let ms := (List.range (k.length - 1)).map (fun i => (List.range 25).map (fun l => BitVec.ofNat 64 (Config.freeNat (free + 25 * i + l))))
    (ms ++ [ms.foldl (fun a b => List.zipWith (· ^^^ ·) a b) v], free + 25 * (k.length - 1))

/-- The state held in shares. -/
def kecShared (x : VccIn) : Bool := x.cl.regs.kec.length > 1

/-- The state replaced, after `perms` permutations, which draw mask bits where the state is shared. -/
def withKec (x : VccIn) (k : List Lanes) (free : Nat) (perms : Nat := 0) : VOut :=
  let cl := x.cl
  { cl := { cl with regs := { cl.regs with kec := k } }, free := free, mask := if kecShared x then perms * Config.sharedMaskBits 0 k.length else 0 }

/-- KEC INIT and INITS. -/
def kecInitOp (shares : Nat) (x : VccIn) : VOut := withKec x (List.replicate shares keccakZero) x.free

/-- Blocks into share 0, with a permutation after each. -/
def kecAbsorb : List Bytes → List Lanes → Nat → List Lanes × Nat
  | [], k, free => (k, free)
  | b :: r, k, free =>
    let p := kecPermute free (modAt k 0 (fun l => keccakXorIn l b))
    kecAbsorb r p.1 p.2

/-- KEC XB. -/
def kecXbOp (h : HOps) (x : VccIn) : VOut :=
  hGuard x [h.a, h.b, h.c] (fun _ =>
    let a := hReg x h.a
    let rate := hReg x h.c
    hClass x [(a, hReg x h.b * rate)] [] (fun _ =>
      let p := kecAbsorb ((List.range (hReg x h.b)).map (fun i => (readView x (a + i * rate) rate).take 200)) x.cl.regs.kec x.free
      withKec x p.1 p.2 (hReg x h.b)))

/-- The view addresses of the shares of one block or output. -/
def shareStarts (a stride n : Nat) : List Nat := (List.range n).map (fun k => wrap64 (a + k * stride))

/-- KEC XBS. -/
def kecXbsOp (h : HOps) (x : VccIn) : VOut :=
  hGuard x [h.a, h.b, h.c] (fun _ =>
    let rate := hReg x h.c
    let as := shareStarts (hReg x h.a) (hReg x h.b) x.cl.regs.kec.length
    hClass x (as.map (fun a => (a, rate))) [] (fun _ =>
      let k := x.cl.regs.kec.mapIdx (fun i l => keccakXorIn l ((readView x (as.getD i 0) rate).take 200))
      let p := kecPermute x.free k
      withKec x p.1 p.2 1))

/-- KEC PERM. -/
def kecPermOp (x : VccIn) : VOut := let p := kecPermute x.free x.cl.regs.kec; withKec x p.1 p.2 1

/-- KEC OUT; bytes past the state of 200 have no stated value (log 22). -/
def kecOutOp (h : HOps) (x : VccIn) : VOut :=
  hGuard x [h.a, h.b, h.c] (fun _ =>
    let rate := hReg x h.c
    let k := x.cl.regs.kec
    let as := shareStarts (hReg x h.a) (hReg x h.b) k.length
    hClass x [] (as.map (fun a => (a, rate))) (fun _ =>
      let past := rate - 200
      let out := fun (i : Nat) => (sliceZ ((k.map lanesBytes).getD i []) 0 200 ++ (List.range past).map (fun j => Config.freeByte (x.free + i * past + j))).take rate
      { cl := (as.mapIdx (fun i a => (i, a))).foldl (fun cl p => storeView x.r p.2 (out p.1) (kecShared x) cl) x.cl, free := x.free + k.length * past }))

/-- KEC X4: four states of 200 bytes in place. -/
def kecX4Op (h : HOps) (x : VccIn) : VOut :=
  hGuard x [h.a] (fun _ =>
    let a := hReg x h.a
    hClass x [(a, 800)] [(a, 800)] (fun _ =>
      let out := (chunks 200 (readView x a 800)).flatMap (fun b => lanesBytes (keccakF (bytesLanes b)))
      { cl := storeView x.r a out (secretView x a 800) x.cl, free := x.free }))

/-! ### SHA-2 (R405) -/

/-- One compression on each selected lane: eight states at A, eight blocks at B, one after another; SHARED takes and leaves shares,
one image of all lanes after another (log 22). -/
def sha2Op (sLen bLen : Nat) (f : Bytes → Bytes → Bytes) (h : HOps) (x : VccIn) : VOut :=
  hGuard x [h.a, h.b] (fun _ =>
    let shared := bitOf h.fn 4
    let im := if shared then x.n else 1
    let a := hReg x h.a
    let b := hReg x h.b
    let mask := hReg x h.c
    hClass x [(a, im * 8 * sLen), (b, im * 8 * bLen)] [(a, im * 8 * sLen)] (fun _ =>
      let all := fun (at_ len i : Nat) => (List.range im).map (fun k => readView x (at_ + k * 8 * len + i * len) len)
      let val := fun (l : List Bytes) => (l.drop 1).foldl xorBytes (l.headD [])
      let lanes := (List.range 8).map (fun i =>
        let st := all a sLen i
        if bitOf mask i then
          let v := f (val st) (val (all b bLen i))
          let ms := (List.range (im - 1)).map (fun k => (List.range sLen).map (fun j => Config.freeByte (x.free + (i * (im - 1) + k) * sLen + j)))
          ms ++ [ms.foldl xorBytes v]
        else st)
      let out := (List.range im).flatMap (fun k => lanes.flatMap (fun l => l.getD k []))
      let t := shared || secretView x a (im * 8 * sLen) || secretView x b (im * 8 * bLen) || tagged x.cl.regs.gTag h.c
      let lanesOn := ((List.range 8).filter (bitOf mask)).length
      { cl := storeView x.r a out t x.cl, free := x.free + 8 * (im - 1) * sLen, mask := if shared then lanesOn * Config.sharedMaskBits (sLen / 32) im else 0 }))

def compress256 (st blk : Bytes) : Bytes := wordsBe (sha256Block (beWords 32 st) blk)
def compress512 (st blk : Bytes) : Bytes := wordsBe (sha512Block (beWords 64 st) blk)

/-! ### GF(2^m), carry-less products, comparator (R405) -/

/-- The carry-less product. -/
def carryless (w a b : Nat) : Nat := (List.range w).foldl (fun acc i => if bitOf b i then acc ^^^ (a * 2 ^ i) else acc) 0

/-- The remainder of a polynomial of degree below 32 modulo one of degree `m`. -/
def gfReduce (m poly v : Nat) : Nat :=
  ((List.range 32).reverse).foldl (fun v i => if m ≤ i && bitOf v i then v ^^^ ((poly % 2 ^ m + 2 ^ m) * 2 ^ (i - m)) else v) v

/-- GFMUL. -/
def gfmulOp (h : HOps) (x : VccIn) : VOut :=
  withMod x h.q [3] (fun e =>
    let n := x.count 16
    let r := x.cl.regs
    let b := vElems x 16 h.b
    let c := vElems x 16 h.c
    if n == 0 then x.regs r
    else
      let new := mergeElems (fun j => decide (j < n)) (fun j => gfReduce e.const e.value (carryless 16 (b.getD j 0) (c.getD j 0))) (vElems x 16 h.a)
      x.regs (vWrite h.a (packElems 16 new) (tagged r.vTag h.b || tagged r.vTag h.c) r))

/-- CLMUL: low halves to vd, high halves to vd + 1. -/
def clmulOp (h : HOps) (x : VccIn) : VOut :=
  let n := x.count 64
  let r := x.cl.regs
  if n == 0 then x.regs r
  else
    let b := vElems x 64 h.b
    let c := vElems x 64 h.c
    let t := tagged r.vTag h.b || tagged r.vTag h.c
    let half := fun (d k : Nat) => packElems 64 (mergeElems (fun j => decide (j < n)) (fun j => carryless 64 (b.getD j 0) (c.getD j 0) / 2 ^ (64 * k)) (vElems x 64 d))
    x.regs (vWrite (h.a + 1) (half (h.a + 1) 1) t (vWrite h.a (half h.a 0) t r))

/-- VERDICT: JOB sets the job's verdict, a failed CHECK is a self-detected fault at END; a length outside 1 to 64 has no stated
result (R405; log 22). -/
def verdictOp (check : Bool) (h : HOps) (x : VccIn) : VOut :=
  hGuard x [h.a, h.b, h.c] (fun _ =>
    let a := hReg x h.a
    let b := hReg x h.b
    let n := hReg x h.c
    hClass x [(a, n), (b, n)] [] (fun _ =>
      let stated := 1 ≤ n && n ≤ 64
      let same := if stated then readView x a n == readView x b n else x.fresh 1 0 == 1
      let cl := x.cl
      let upd := fun (q : Resid) => if check then { q with faulted := q.faulted || !same } else { q with verdict := some same }
      { cl := { cl with resid := modFirst (fun q => q.job == x.r.job) upd cl.resid }, free := x.free + (if stated then 0 else 1) }))

/-- WIN FETCH (R405). -/
def execWinFetch (c src : Nat) (h : HOps) (s : State) : Host.Outcome State Fault Refusal :=
  .next (onWord c (.winFetch src h) (vccPlain c (winFetchOp src h)) s)

/-- A window copy completes (R405). -/
def execWinFetchComplete (c job : Nat) (s : State) : Host.Outcome State Fault Refusal :=
  .next (winLand c job s)

/-- WIN WAIT (R405). -/
def execWinWait (c : Nat) (s : State) : Host.Outcome State Fault Refusal :=
  .next (onWord c .winWait (vccPlain c winWaitOp) s)

/-- XMOV (R405). -/
def execXmov (c peer : Nat) (h : HOps) (s : State) : Host.Outcome State Fault Refusal :=
  .next (onWord c (.xmov peer h) (vccPlain c (xmovOp peer h)) s)

/-- RAND (R405). -/
def execRand (c : Nat) (h : HOps) (s : State) : Host.Outcome State Fault Refusal :=
  .next (onWord c (.rand h) (vccRandom c (randOp h)) s)

/-- NTT (R405). -/
def execNtt (c : Nat) (h : HOps) (s : State) : Host.Outcome State Fault Refusal :=
  .next (onWord c (.ntt h) (vccPlain c (nttOp h)) s)

/-- MOD MADD (R405). -/
def execMadd (c : Nat) (h : HOps) (s : State) : Host.Outcome State Fault Refusal :=
  .next (onWord c (.madd h) (vccPlain c (modOp h [1, 2] modAdd modRed)) s)

/-- MOD MSUB (R405). -/
def execMsub (c : Nat) (h : HOps) (s : State) : Host.Outcome State Fault Refusal :=
  .next (onWord c (.msub h) (vccPlain c (modOp h [1, 2] modSubE modRed)) s)

/-- MOD MMUL (R405). -/
def execMmul (c : Nat) (h : HOps) (s : State) : Host.Outcome State Fault Refusal :=
  .next (onWord c (.mmul h) (vccPlain c (modOp h [1, 2] modMulE modMulE)) s)

/-- MOD MRED (R405). -/
def execMred (c : Nat) (h : HOps) (s : State) : Host.Outcome State Fault Refusal :=
  .next (onWord c (.mred h) (vccPlain c (modOp h [1, 2] modRed modRed)) s)

/-- MOD TOMONT (R405). -/
def execTomont (c : Nat) (h : HOps) (s : State) : Host.Outcome State Fault Refusal :=
  .next (onWord c (.tomont h) (vccPlain c (modOp h [1] toMont toMont)) s)

/-- MOD FROMMONT (R405). -/
def execFrommont (c : Nat) (h : HOps) (s : State) : Host.Outcome State Fault Refusal :=
  .next (onWord c (.frommont h) (vccPlain c (modOp h [1] fromMont fromMont)) s)

/-- KEC INIT (R405). -/
def execKecInit (c : Nat) (s : State) : Host.Outcome State Fault Refusal :=
  .next (onWord c .kecInit (vccPlain c (kecInitOp 1)) s)

/-- KEC INITS (R405). -/
def execKecInits (c : Nat) (s : State) : Host.Outcome State Fault Refusal :=
  .next (onWord c .kecInits (vccPlain c (fun x => kecInitOp x.n x)) s)

/-- KecXb (R405). -/
def execKecXb (c : Nat) (h : HOps) (s : State) : Host.Outcome State Fault Refusal :=
  .next (onWord c (.kecXb h) (vccRun c kecShared (kecXbOp h)) s)

/-- KecXbs (R405). -/
def execKecXbs (c : Nat) (h : HOps) (s : State) : Host.Outcome State Fault Refusal :=
  .next (onWord c (.kecXbs h) (vccRun c kecShared (kecXbsOp h)) s)

/-- KEC PERM (R405). -/
def execKecPerm (c : Nat) (s : State) : Host.Outcome State Fault Refusal :=
  .next (onWord c .kecPerm (vccRun c kecShared kecPermOp) s)

/-- KEC OUT (R405). -/
def execKecOut (c : Nat) (h : HOps) (s : State) : Host.Outcome State Fault Refusal :=
  .next (onWord c (.kecOut h) (vccPlain c (kecOutOp h)) s)

/-- KEC X4 (R405). -/
def execKecX4 (c : Nat) (h : HOps) (s : State) : Host.Outcome State Fault Refusal :=
  .next (onWord c (.kecX4 h) (vccPlain c (kecX4Op h)) s)

/-- SHA2 C256 (R405). -/
def execSha2C256 (c : Nat) (h : HOps) (s : State) : Host.Outcome State Fault Refusal :=
  .next (onWord c (.sha2C256 h) (vccRun c (fun _ => bitOf h.fn 4) (sha2Op 32 64 compress256 h)) s)

/-- SHA2 C512 (R405). -/
def execSha2C512 (c : Nat) (h : HOps) (s : State) : Host.Outcome State Fault Refusal :=
  .next (onWord c (.sha2C512 h) (vccRun c (fun _ => bitOf h.fn 4) (sha2Op 64 128 compress512 h)) s)

/-- GF GFMUL (R405). -/
def execGfmul (c : Nat) (h : HOps) (s : State) : Host.Outcome State Fault Refusal :=
  .next (onWord c (.gfmul h) (vccPlain c (gfmulOp h)) s)

/-- GF CLMUL (R405). -/
def execClmul (c : Nat) (h : HOps) (s : State) : Host.Outcome State Fault Refusal :=
  .next (onWord c (.clmul h) (vccPlain c (clmulOp h)) s)

/-- VERDICT JOB (R405). -/
def execVerdictJob (c : Nat) (h : HOps) (s : State) : Host.Outcome State Fault Refusal :=
  .next (onWord c (.verdictJob h) (vccPlain c (verdictOp false h)) s)

/-- VERDICT CHECK (R405). -/
def execVerdictCheck (c : Nat) (h : HOps) (s : State) : Host.Outcome State Fault Refusal :=
  .next (onWord c (.verdictCheck h) (vccPlain c (verdictOp true h)) s)

end Sys2Proof.Machine
end

