-- ==== Sys2Proof/Machine/VccMemory.lean ====
section
/-!
DEFINITION. The memory instructions of a vector cluster (R403), element by element, with the traps of R410 and R412.
-/
namespace Sys2Proof.Machine

/-- The address register of an M-format instruction (R399). -/
def baseReg (o : MemOps) : Nat := 24 + o.ab % 8

/-- The address of element `j` (R403). -/
def elemAddr (x : VccIn) (o : MemOps) (j : Nat) : Nat :=
  let r := x.cl.regs
  let base := (gRead r (baseReg o)).toNat
  match o.mode with
  | 1 => wrap64 (base + j * (gRead r (24 + o.ix % 8)).toNat)
  | 2 => wrap64 (base + ((vElems x (ewBits o.ew) o.ix).getD j 0) * 2 ^ (o.ew % 4))
  | _ => wrap64 (base + j * 2 ^ (o.ew % 4))

/-- A tagged index vector, base or stride (R410). -/
def addrTagged (x : VccIn) (o : MemOps) (stride : Bool) : Bool :=
  tagged x.cl.regs.gTag (baseReg o) || ((stride || o.mode == 1) && tagged x.cl.regs.gTag (24 + o.ix % 8)) || (o.mode == 2 && tagged x.cl.regs.vTag o.ix)

/-- The addresses of the shares of element `j` (R403). -/
def shareAddrs (x : VccIn) (o : MemOps) (j : Nat) : List Nat :=
  (List.range x.n).map (fun k => wrap64 ((gRead x.cl.regs (baseReg o)).toNat + k * (gRead x.cl.regs (24 + o.ix % 8)).toNat + j * 2 ^ (o.ew % 4)))

/-- An element's physical addresses, or its trap: outside the view or not aligned, then check words of what is read (R397, R403). -/
def elemStop (x : VccIn) (store : Bool) (bytes j : Nat) (as : List Nat) : VEnd ⊕ List Nat :=
  let ps := as.map (fun a => if a % bytes == 0 then viewPhys x.r store a bytes else none)
  if ps.any (fun p => p.isNone) then .inl (.trap .grant j 0)
  else
    let qs := ps.filterMap id
    match (if store then none else (qs.filterMap (fun p => badTile x.cl p bytes)).head?) with
    | some t => .inl (tileTrap x.r j t)
    | none => .inr qs

/-- The elements from VRESUME up, one after another; the first trap ends it (R412). -/
def memLoop (x : VccIn) (store : Bool) (bytes : Nat) (addrs : Nat → List Nat) (act : Nat → Bool) (move : Nat → List Nat → Cluster → Cluster) :
    List Nat → Cluster → VEnd × Cluster
  | [], cl => (.next, cl)
  | j :: r, cl =>
    match elemStop x store bytes j (addrs j) with
    | .inl e => (e, cl)
    | .inr ps => memLoop x store bytes addrs act move r (if act j then move j ps cl else cl)

/-- A memory instruction (R395, R403, R410, R412). -/
def memOp (o : MemOps) (stride store : Bool) (used : Nat) (addrs : Nat → List Nat) (move : Nat → List Nat → Cluster → Cluster) (x : VccIn) : VOut :=
  if addrTagged x o stride then x.stop .secretFlow
  else
    let n := x.count (ewBits o.ew)
    let todo := (List.range n).filter (fun j => x.cl.vresume ≤ j)
    let e := memLoop x store (2 ^ (o.ew % 4)) addrs (x.active o.me o.vm) move todo x.cl
    { cl := e.2, free := x.free + used, fin := e.1 }

/-- One element of a v register replaced; the tag is set where `t`. -/
def setElem (w i j v : Nat) (t : Bool) (cl : Cluster) : Cluster :=
  let old := vRead cl.regs i
  let e := old / 2 ^ (w * j) % 2 ^ w
  { cl with regs := vWrite i (old - e * 2 ^ (w * j) + v % 2 ^ w * 2 ^ (w * j)) t cl.regs }

/-- The mask is a tagged source. -/
def maskTag (x : VccIn) (o : MemOps) : Bool := o.me && tagged x.cl.regs.mTag o.vm

/-- An element in memory, and whether its tile is secret. -/
def elemAt (cl : Cluster) (bytes p : Nat) : Nat × Bool := (leNat (cellsRead cl.tiles p bytes), cl.tileTags.contains (p / 512))

/-- A load that completes under a tagged mask leaves its destination tagged, whichever elements it wrote (R408). -/
def maskTagged (x : VccIn) (o : MemOps) (r : VOut) : VOut :=
  match r.fin with
  | .next =>
    if maskTag x o && x.count (ewBits o.ew) > 0 then
      let cl := r.cl
      { r with cl := { cl with regs := vWrite o.vr (vRead cl.regs o.vr) true cl.regs } }
    else r
  | _ => r

/-- VLD (R403, R408). -/
def vldOp (o : MemOps) (x : VccIn) : VOut :=
  maskTagged x o <| memOp o false false 0 (fun j => [elemAddr x o j]) (fun j ps cl =>
    let e := elemAt cl (2 ^ (o.ew % 4)) (ps.headD 0)
    setElem (ewBits o.ew) o.vr j e.1 (e.2 || maskTag x o) cl) x

/-- VST (R403, R408). -/
def vstOp (o : MemOps) (x : VccIn) : VOut :=
  let w := ewBits o.ew
  memOp o false true 0 (fun j => [elemAddr x o j]) (fun j ps cl =>
    storeAt (ps.headD 0) (leBytes (2 ^ (o.ew % 4)) ((vElems x w o.vr).getD j 0)) (tagged x.cl.regs.vTag o.vr || maskTag x o) cl) x

/-- The elements that a memory instruction has handled: those from VRESUME up, to its trap (R412). -/
def handled (x : VccIn) (w : Nat) : VEnd → Nat
  | .trap _ e _ => e - x.cl.vresume
  | _ => x.count w - x.cl.vresume

/-- The fresh mask words of SHLD SPLIT: n - 1 for each element handled (R403). -/
def splitMask (x : VccIn) (w : Nat) (r : VOut) : VOut := { r with mask := handled x w r.fin * (w * (x.n - 1)) }

/-- SHLD SPLIT: a plain element becomes a sharing with fresh masks (R403). -/
def shldSplitOp (o : MemOps) (x : VccIn) : VOut :=
  let w := ewBits o.ew
  splitMask x w <| memOp o false false (x.count w * (x.n - 1)) (fun j => [elemAddr x o j]) (fun j ps cl =>
    let v := (elemAt cl (2 ^ (o.ew % 4)) (ps.headD 0)).1
    ((shareXor x w (j * (x.n - 1)) v).mapIdx (fun k e => (k, e))).foldl (fun cl p => setElem w (o.vr + p.1) j p.2 true cl) cl) x

/-- SHLD SHARES (R403). -/
def shldSharesOp (o : MemOps) (x : VccIn) : VOut :=
  let w := ewBits o.ew
  memOp o true false 0 (shareAddrs x o) (fun j ps cl =>
    (ps.mapIdx (fun k p => (k, p))).foldl (fun cl p => setElem w (o.vr + p.1) j (elemAt cl (2 ^ (o.ew % 4)) p.2).1 true cl) cl) x

/-- SHST SHARES (R403, R408). -/
def shstOp (o : MemOps) (x : VccIn) : VOut :=
  let w := ewBits o.ew
  memOp o true true 0 (shareAddrs x o) (fun j ps cl =>
    (ps.mapIdx (fun k p => (k, p))).foldl (fun cl p =>
      storeAt p.2 (leBytes (2 ^ (o.ew % 4)) ((vElems x w (o.vr + p.1)).getD j 0)) (tagged x.cl.regs.vTag (o.vr + p.1) || maskTag x o) cl) cl) x

/-- SVLD and SVST: 32 bytes at the address register; a VL of 0 makes them no-ops (R395, R403). -/
def shortMem (o : MemOps) (store : Bool) (x : VccIn) : VOut :=
  if tagged x.cl.regs.gTag (baseReg o) then x.stop .secretFlow
  else if x.cl.regs.vl == 0 then x.regs x.cl.regs
  else
    let a := (gRead x.cl.regs (baseReg o)).toNat
    if a % 2 ^ (o.ew % 4) != 0 then x.stop .grant
    else match rangeStop x store a 32 with
    | some e => { cl := x.cl, free := x.free, fin := e }
    | none =>
      if store then { cl := storeView x.r a (leBytes 32 (sRead x.cl.regs o.vr)) (tagged x.cl.regs.sTag o.vr) x.cl, free := x.free }
      else x.regs (sWrite o.vr (leNat (readView x a 32)) (secretView x a 32) x.cl.regs)

/-- Vld (R403). -/
def execVld (c : Nat) (o : MemOps) (s : State) : Host.Outcome State Fault Refusal :=
  .next (onWord c (.vld o) (vccPlain c (vldOp o)) s)

/-- Vst (R403). -/
def execVst (c : Nat) (o : MemOps) (s : State) : Host.Outcome State Fault Refusal :=
  .next (onWord c (.vst o) (vccPlain c (vstOp o)) s)

/-- ShldSplit (R403). -/
def execShldSplit (c : Nat) (o : MemOps) (s : State) : Host.Outcome State Fault Refusal :=
  .next (onWord c (.shldSplit o) (vccRandom c (shldSplitOp o)) s)

/-- ShldShares (R403). -/
def execShldShares (c : Nat) (o : MemOps) (s : State) : Host.Outcome State Fault Refusal :=
  .next (onWord c (.shldShares o) (vccPlain c (shldSharesOp o)) s)

/-- Shst (R403). -/
def execShst (c : Nat) (o : MemOps) (s : State) : Host.Outcome State Fault Refusal :=
  .next (onWord c (.shst o) (vccPlain c (shstOp o)) s)

/-- Svld (R403). -/
def execSvld (c : Nat) (o : MemOps) (s : State) : Host.Outcome State Fault Refusal :=
  .next (onWord c (.svld o) (vccPlain c (shortMem o false)) s)

/-- Svst (R403). -/
def execSvst (c : Nat) (o : MemOps) (s : State) : Host.Outcome State Fault Refusal :=
  .next (onWord c (.svst o) (vccPlain c (shortMem o true)) s)

end Sys2Proof.Machine
end

