-- ==== Sys2Proof/Machine/VccControl.lean ====
section
/-!
DEFINITION. The control instructions of a vector cluster: branches, YIELD, END, UNTAG, the watchdog and the supervisor's reload
(R400, R406, R411, R414, R418, R420).
-/
namespace Sys2Proof.Machine

/-- The word at an offset from this one. -/
def branchTo (x : VccIn) (imm : Int) : Nat := ((x.cl.pc : Int) + imm).toNat

/-- A branch on two untagged registers (R400, R410). -/
def branchOp (cond : BitVec 64 → BitVec 64 → Bool) (ra rb : Nat) (imm : Int) (x : VccIn) : VOut :=
  if tagged x.cl.regs.gTag ra || tagged x.cl.regs.gTag rb then x.stop .secretFlow
  else { cl := x.cl, free := x.free, fin := if cond (gRead x.cl.regs ra) (gRead x.cl.regs rb) then .goto (branchTo x imm) else .next }

/-- JAL: the return address is untagged (R400). -/
def jalOp (ra : Nat) (imm : Int) (x : VccIn) : VOut :=
  { x.regs (gWrite ra (BitVec.ofNat 64 (x.cl.pc + 1)) false x.cl.regs) with fin := .goto (branchTo x imm) }

/-- JR (R400, R410). -/
def jrOp (ra : Nat) (x : VccIn) : VOut :=
  if tagged x.cl.regs.gTag ra then x.stop .secretFlow else { cl := x.cl, free := x.free, fin := .goto (gRead x.cl.regs ra).toNat }

/-- SYS FAULT: END will find it (R406, R418). -/
def sysFaultOp (x : VccIn) : VOut :=
  let cl := x.cl
  { cl := { cl with resid := modFirst (fun q => q.job == x.r.job) (fun q => { q with faulted := true }) cl.resid }, free := x.free }

/-- UNTAG: file 0 g, 1 v, 2 s, 3 m (R400, R411). -/
def untagOp (ra file : Nat) (x : VccIn) : VOut :=
  let r := x.cl.regs
  let cut := fun (l : List Nat) => l.filter (fun i => i != ra)
  x.regs (match file with
    | 0 => { r with gTag := cut r.gTag }
    | 1 => { r with vTag := cut r.vTag }
    | 2 => { r with sTag := cut r.sTag }
    | _ => { r with mTag := cut r.mTag })

/-! ### YIELD (R344, R406, R420) -/

/-- The clusters that must meet at a barrier: the gang, or the one cluster. -/
def gangClusters (c : Nat) (r : Resid) : List Nat := if r.view.gang.isEmpty then [c] else r.view.gang

/-- A job's resident record on a cluster. -/
def residOn (s : State) (job c : Nat) : Option Resid := (s.vcc[c]?).bind (fun (k : Cluster) => k.resid.find? (fun (r : Resid) => r.job == job))

/-- A job's resident record changed on some clusters. -/
def onResid (job : Nat) (us : List Nat) (f : Resid → Resid) (s : State) : State :=
  us.foldl (fun s u => { s with vcc := modAt s.vcc u (fun (k : Cluster) => { k with resid := modFirst (fun (r : Resid) => r.job == job) f k.resid }) }) s

/-- A preemption of the job is requested: it is among the jobs that a ready one would preempt (R54). -/
def preemptAsked (j : Job) (s : State) : Bool := s.jobs.any (fun b => mayPreempt s b && (roomFor s b).any (fun r => r.1.contains j.id))

/-- YIELD and YIELD.EXTEND: a gang waits for its last member; then the section ends, and the job is saved where a preemption is
requested or a further token is asked (R276, R406, R420). -/
def yieldAt (extend : Bool) (c : Nat) (s : State) : State :=
  match vccReady c s with
  | none => s
  | some (_, r, j) =>
    let us := gangClusters c r
    if us.any (fun u => u != c && !(((residOn s j.id u).map (fun (q : Resid) => q.atYield)).getD true)) then
      onResid j.id [c] (fun q => { q with atYield := true }) s
    else
      let s := onResid j.id us (fun q => { q with atYield := false, yielded := s.clk, point := true }) s
      let s := us.foldl (fun s u => { s with vcc := modAt s.vcc u (fun (k : Cluster) => { k with pc := k.pc + 1, vresume := 0, reloaded := [] }) }) s
      let s := haltAgain c j s
      if extend then yieldOverrun j j.input j.rnd j.round s else if preemptAsked j s then saveJob j s else s

/-! ### END (R418) -/

/-- The bytes of `n` share images recombined: their exclusive or (R280, R418). -/
def recombine (imgs : List Bytes) : Bytes := (imgs.drop 1).foldl xorBytes (imgs.headD [])

/-- The images of an output region. -/
def imagesOf (x : VccIn) (base stride len n : Nat) : List Bytes := (List.range n).map (fun k => readView x (base + k * stride) len)

/-- The key that END with KEYOUT makes of the key-output shares (R225, R418). -/
def endKey (x : VccIn) (j : Job) (s : State) : NewKey × State :=
  let n := newKeyLen j
  let m := recombine (imagesOf x x.r.view.keyOutBase (tileBytes n) n x.n)
  let i := drawKeyId s
  if dFamily j.desc == 0x15 then
    ({ ktype := cObjType j.block, policy := BitVec.ofNat 32 (cPolicy j.block), keyId := i.1, material := m }, i.2)
  else if dOp j.desc == 0x2201 then ({ ktype := 0x03, policy := BitVec.ofNat 32 (dNewPolicy j.desc), keyId := i.1, material := m }, i.2)
  else ({ ktype := dNewType j.desc, param := dParam j.desc, policy := BitVec.ofNat 32 (dNewPolicy j.desc), keyId := i.1, material := m }, i.2)

/-- The operand tile of the output region that fails its check word (R397, R415). -/
def outputBad (x : VccIn) (len n : Nat) : Option Nat :=
  ((List.range n).filterMap (fun k => (viewPhys x.r false (x.r.view.outBase + k * tileBytes x.r.view.outCap) len).bind (fun p => badTile x.cl p len))).head?

/-- An END defect (R418): g1 above OUT_CAP, a tagged g1 or g3, or a secret tile in the output region without SHARED. -/
def endDefect (x : VccIn) (shared : Bool) : Bool :=
  let v := x.r.view
  decide ((gRead x.cl.regs 1).toNat > v.outCap) || tagged x.cl.regs.gTag 1 || tagged x.cl.regs.gTag 3 ||
    (!shared && secretView x v.outBase (v.keyOutBase - v.outBase))

/-- What a cluster holds as the job's result, for the comparison of a gang's pairs (R344). -/
def pairResult (x : VccIn) (j : Job) (shared keyout : Bool) : Nat × Bytes × Bytes :=
  let n := (gRead x.cl.regs 1).toNat
  let out := imagesOf x x.r.view.outBase (tileBytes x.r.view.outCap) (min n x.r.view.outCap) (if shared then x.n else 1)
  (n, recombine out, if keyout then recombine (imagesOf x x.r.view.keyOutBase (tileBytes (newKeyLen j)) (newKeyLen j) x.n) else [])

/-- A job's instruction context on a cluster. -/
def vccInOf (s : State) (job c : Nat) : Option VccIn :=
  match s.vcc[c]? with
  | none => none
  | some cl => (residOn s job c).map (fun r => { part := s.part, cl := cl, r := r, free := s.free })

/-- The rules of R418, in their order. -/
def finishEnd (c : Nat) (j : Job) (x : VccIn) (shared keyout : Bool) (run : JobRun) (s : State) : State :=
  let r := x.cl.regs
  let v := x.r.view
  let g2 := gRead r 2
  let defect := kernelDefect c j 3 x.cl.pc
  let n := (gRead r 1).toNat
  if x.r.faulted then selfFault c j s
  else if g2 != 0 && g2 != 1 then defect s
  else if g2 == 1 then finishJob j run [] rejected s
  else if x.r.verdict == some false then finishJob j run [] (verdict false) s
  else if endDefect x shared then defect s
  else
    let imgs := if shared then x.n else 1
    match outputBad x n imgs with
    | some t => endFaulted j.id (operandTileError c t (algOf s j) x.cl.pc s)
    | none =>
      let out := recombine (imagesOf x v.outBase (tileBytes v.outCap) n imgs)
      let inl := match x.r.verdict with
        | some ok => verdictWords ok
        | none => if v.owner && !keyout then leBytes 8 (gRead r 3).toNat else []
      if keyout then
        let k := endKey x j s
        finishJob j run [] { staged := out, key := some k.1 } k.2
      else finishJob j run [] { staged := out, inline := inl } s

/-- END: a gang's members meet, a failed read or breach of the input list ends the job, the two pairs of a gang of four are compared, and the
first member's result counts (R187, R188, R344, R418). -/
def endAt (shared keyout : Bool) (run : JobRun) (c : Nat) (s : State) : State :=
  match vccReady c s with
  | none => s
  | some (_, r, j) =>
    let us := gangClusters c r
    if us.any (fun u => u != c && !(((residOn s j.id u).map (fun (q : Resid) => q.ended)).getD true)) then
      onResid j.id [c] (fun q => { q with ended := true }) s
    else
      match j.inBad with
      | some st => endJob st wholeInline j.id s
      | none =>
      let faulted := us.find? (fun u => ((residOn s j.id u).map (fun (q : Resid) => q.faulted)).getD false)
      match faulted, vccInOf s j.id (us.headD c) with
      | some u, _ => selfFault u j s
      | none, some x =>
        let other := (us[2]?).bind (vccInOf s j.id)
        match other with
        | some y =>
          if pairResult x j shared keyout == pairResult y j shared keyout then finishEnd (us.headD c) j x shared keyout { run with job := j.id } s
          else gangMismatch j s
        | none => finishEnd (us.headD c) j x shared keyout { run with job := j.id } s
      | none, none => s

/-! ### The supervisor (R414, R420) -/

/-- A section that runs longer than NPS_NS (R420). -/
def watchdogAt (c : Nat) (s : State) : State :=
  match vccReady c s with
  | none => s
  | some (cl, r, j) => if s.clk > r.yielded + r.view.nps then kernelDefect c j 2 cl.pc s else s

/-- A cluster that was withheld for tests, while FAULT_INJECT is active (R456, R463). -/
def testCluster (s : State) (c : Nat) : Bool :=
  s.dbg.active.getLsbD 4 && s.dbg.testMask.testBit c && (match s.unit? (vccId c) with | some u => u.st == .withheldTest | none => false)

/-- The vendor test procedure on a test cluster: a check word of its constants is corrupted, or a known-answer test runs, whose findings the Almanac
holds as FAULT records flagged TEST (R463). The algorithm that the test names is open.
DESIGN CHOICE (log 39): the procedure has no command of its own; TILE_RELOAD of a test cluster, which runs no job, stands for it. -/
def testRun (corrupt : Bool) (c : Nat) (s : State) : State :=
  match s.vcc[c]? with
  | none => s
  | some k =>
    if corrupt then putCluster c { k with badChecks := keptChecks (fun t => t == 0) k ++ corrupted s [0] } { s with free := s.free + 1 }
    else match k.badChecks.head? with
    | none => s
    | some b =>
      let alg := leBytes 2 (Config.freeNat s.free % 65536)
      let s := raiseEvent 0x0602 c (leBytes 2 b.1 ++ [1] ++ alg ++ zeros 2) { s with free := s.free + 1 } true
      putCluster c { k with badChecks := [] } (raiseEvent 0x060A c alg s true)

/-- The supervisor has reloaded a constant or window tile; `again` where its check word fails once more (R414). On a test cluster it is the vendor's
test (R463). -/
def reloadTile (again : Bool) (c : Nat) (s : State) : State :=
  if testCluster s c then testRun again c s
  else match s.vcc[c]? with
  | none => s
  | some k =>
    match k.trap with
    | none => s
    | some t =>
      putCluster c { k with trap := none, reloaded := k.reloaded ++ [t.tile], badChecks := if again then k.badChecks else keptChecks (fun b => b == t.tile) k } s

/-- BEQ (R400). -/
def execBeq (c ra rb : Nat) (imm : Int) (s : State) : Host.Outcome State Fault Refusal := .next (onWord c (.beq ra rb imm) (vccPlain c (branchOp (fun a b => a == b) ra rb imm)) s)

/-- BNE (R400). -/
def execBne (c ra rb : Nat) (imm : Int) (s : State) : Host.Outcome State Fault Refusal := .next (onWord c (.bne ra rb imm) (vccPlain c (branchOp (fun a b => a != b) ra rb imm)) s)

/-- BLTU (R400). -/
def execBltu (c ra rb : Nat) (imm : Int) (s : State) : Host.Outcome State Fault Refusal := .next (onWord c (.bltu ra rb imm) (vccPlain c (branchOp (fun a b => decide (a < b)) ra rb imm)) s)

/-- JAL (R400). -/
def execJal (c ra : Nat) (imm : Int) (s : State) : Host.Outcome State Fault Refusal := .next (onWord c (.jal ra imm) (vccPlain c (jalOp ra imm)) s)

/-- JR (R400). -/
def execJr (c ra : Nat) (s : State) : Host.Outcome State Fault Refusal := .next (onWord c (.jr ra) (vccPlain c (jrOp ra)) s)

/-- YIELD (R420). -/
def execYield (c : Nat) (s : State) : Host.Outcome State Fault Refusal := .next (onWord c .yield_ (yieldAt false c) s)

/-- YIELD.EXTEND (R406). -/
def execYieldExtend (c : Nat) (s : State) : Host.Outcome State Fault Refusal := .next (onWord c .yieldExtend (yieldAt true c) s)

/-- SYS FAULT (R406). -/
def execSysFault (c : Nat) (s : State) : Host.Outcome State Fault Refusal := .next (onWord c .sysFault (vccPlain c sysFaultOp) s)

/-- UNTAG (R411). -/
def execUntag (c ra file : Nat) (s : State) : Host.Outcome State Fault Refusal := .next (onWord c (.untag ra file) (vccPlain c (untagOp ra file)) s)

/-- END (R418). -/
def execEnd (c : Nat) (shared keyout : Bool) (x : JobRun) (s : State) : Host.Outcome State Fault Refusal := .next (onWord c (.end_ shared keyout) (endAt shared keyout x c) s)

/-- WATCHDOG (R420). -/
def execWatchdog (c : Nat) (s : State) : Host.Outcome State Fault Refusal := .next (watchdogAt c s)

/-- TILE_RELOAD (R414). -/
def execTileReload (c : Nat) (again : Bool) (s : State) : Host.Outcome State Fault Refusal := .next (reloadTile again c s)

end Sys2Proof.Machine
end

