-- ==== Sys2Proof/Machine/VccScalar.lean ====
section
/-!
DEFINITION. The scalar instructions of a vector cluster (R395, R400, R402): registers of 64 bits that wrap.
-/
namespace Sys2Proof.Machine

/-- The second operand of an S-format instruction: a register, or IMM15 with its sign (R399). -/
def scalarB (r : RegSave) (o : ScalarOps) : BitVec 64 :=
  match o.imm with
  | some i => BitVec.ofInt 64 i
  | none => gRead r o.rs2

/-- A tagged source makes the result tagged (R408). -/
def scalarTag (r : RegSave) (o : ScalarOps) : Bool := tagged r.gTag o.rs1 || (o.imm.isNone && tagged r.gTag o.rs2)

/-- A value written to a g register; a tagged one into an address register traps (R410). -/
def writeG (x : VccIn) (rd : Nat) (v : BitVec 64) (t : Bool) (used : Nat) : VOut :=
  if t && isAddrReg rd then x.stop .secretFlow else x.regs (gWrite rd v t x.cl.regs) used

/-- A scalar operation (R402). -/
def scalarOp (f : BitVec 64 → BitVec 64 → BitVec 64) (o : ScalarOps) (x : VccIn) : VOut :=
  writeG x o.rd (f (gRead x.cl.regs o.rs1) (scalarB x.cl.regs o)) (scalarTag x.cl.regs o) 0

/-- A scalar shift; the spec states no result for an amount of 64 or more, which is a free value (log 22). -/
def scalarShift (f : BitVec 64 → Nat → BitVec 64) (o : ScalarOps) (x : VccIn) : VOut :=
  let k := (scalarB x.cl.regs o).toNat
  writeG x o.rd (if k < 64 then f (gRead x.cl.regs o.rs1) k else BitVec.ofNat 64 (x.fresh 64 0)) (scalarTag x.cl.regs o) (if k < 64 then 0 else 1)

/-- MULHU: the high half of the unsigned product. -/
def mulhu (a b : BitVec 64) : BitVec 64 := BitVec.ofNat 64 (a.toNat * b.toNat / 2 ^ 64)

/-- SLTU: 1 where `a` is below `b`, unsigned. -/
def sltu (a b : BitVec 64) : BitVec 64 := if a < b then 1 else 0

/-- LUI: IMM15, with its sign, shifted left by 17 (R400). -/
def luiOp (rd : Nat) (imm : Int) (x : VccIn) : VOut := writeG x rd (BitVec.ofInt 64 (imm * 131072)) false 0

/-- SETVL (R395, R410). -/
def setvlOp (rd rs1 ew : Nat) (x : VccIn) : VOut :=
  if tagged x.cl.regs.gTag rs1 then x.stop .secretFlow
  else
    let vl := min (gRead x.cl.regs rs1).toNat (Config.vlen x.part / ewBits ew)
    x.regs (gWrite rd (BitVec.ofNat 64 vl) false { x.cl.regs with vl := vl, ew := ew })

/-- CSRR (R400): VL, the element width in bits, VLEN, the masking order. -/
def csrrOp (rd fn : Nat) (x : VccIn) : VOut :=
  let v := match fn with
    | 0 => x.cl.regs.vl
    | 1 => ewBits x.cl.regs.ew
    | 2 => Config.vlen x.part
    | _ => x.r.view.order
  writeG x rd (BitVec.ofNat 64 v) false 0

/-- VMVX (R400): element `j` at the width that SETVL set; past the register the spec states no value (log 22). -/
def vmvxOp (rd vs j : Nat) (x : VccIn) : VOut :=
  let w := ewBits x.cl.regs.ew
  let inside := j < Config.vlen x.part / w
  let v := if inside then vRead x.cl.regs vs / 2 ^ (w * j) % 2 ^ w else x.fresh w 0
  writeG x rd (BitVec.ofNat 64 v) (tagged x.cl.regs.vTag vs) (if inside then 0 else 1)

/-- ADD (R400, R402). -/
def execAdd (c : Nat) (o : ScalarOps) (s : State) : Host.Outcome State Fault Refusal :=
  .next (onWord c (.add o) (vccPlain c (scalarOp (· + ·) o)) s)

/-- SUB (R400, R402). -/
def execSub (c : Nat) (o : ScalarOps) (s : State) : Host.Outcome State Fault Refusal :=
  .next (onWord c (.sub o) (vccPlain c (scalarOp (· - ·) o)) s)

/-- AND (R400, R402). -/
def execAnd (c : Nat) (o : ScalarOps) (s : State) : Host.Outcome State Fault Refusal :=
  .next (onWord c (.and_ o) (vccPlain c (scalarOp (· &&& ·) o)) s)

/-- OR (R400, R402). -/
def execOr (c : Nat) (o : ScalarOps) (s : State) : Host.Outcome State Fault Refusal :=
  .next (onWord c (.or_ o) (vccPlain c (scalarOp (· ||| ·) o)) s)

/-- XOR (R400, R402). -/
def execXor (c : Nat) (o : ScalarOps) (s : State) : Host.Outcome State Fault Refusal :=
  .next (onWord c (.xor_ o) (vccPlain c (scalarOp (· ^^^ ·) o)) s)

/-- SLL (R400, R402). -/
def execSll (c : Nat) (o : ScalarOps) (s : State) : Host.Outcome State Fault Refusal :=
  .next (onWord c (.sll o) (vccPlain c (scalarShift (· <<< ·) o)) s)

/-- SRL (R400, R402). -/
def execSrl (c : Nat) (o : ScalarOps) (s : State) : Host.Outcome State Fault Refusal :=
  .next (onWord c (.srl o) (vccPlain c (scalarShift (· >>> ·) o)) s)

/-- SRA (R400, R402). -/
def execSra (c : Nat) (o : ScalarOps) (s : State) : Host.Outcome State Fault Refusal :=
  .next (onWord c (.sra o) (vccPlain c (scalarShift BitVec.sshiftRight o)) s)

/-- MUL (R400, R402). -/
def execMul (c : Nat) (o : ScalarOps) (s : State) : Host.Outcome State Fault Refusal :=
  .next (onWord c (.mul o) (vccPlain c (scalarOp (· * ·) o)) s)

/-- MULHU (R400, R402). -/
def execMulhu (c : Nat) (o : ScalarOps) (s : State) : Host.Outcome State Fault Refusal :=
  .next (onWord c (.mulhu o) (vccPlain c (scalarOp mulhu o)) s)

/-- SLTU (R400, R402). -/
def execSltu (c : Nat) (o : ScalarOps) (s : State) : Host.Outcome State Fault Refusal :=
  .next (onWord c (.sltu o) (vccPlain c (scalarOp sltu o)) s)

/-- LUI (R400). -/
def execLui (c rd : Nat) (imm : Int) (s : State) : Host.Outcome State Fault Refusal :=
  .next (onWord c (.lui rd imm) (vccPlain c (luiOp rd imm)) s)

/-- SETVL (R395). -/
def execSetvl (c rd rs1 ew : Nat) (s : State) : Host.Outcome State Fault Refusal :=
  .next (onWord c (.setvl rd rs1 ew) (vccPlain c (setvlOp rd rs1 ew)) s)

/-- CSRR (R400). -/
def execCsrr (c rd fn : Nat) (s : State) : Host.Outcome State Fault Refusal :=
  .next (onWord c (.csrr rd fn) (vccPlain c (csrrOp rd fn)) s)

/-- VMVX (R400). -/
def execVmvx (c rd vs j : Nat) (s : State) : Host.Outcome State Fault Refusal :=
  .next (onWord c (.vmvx rd vs j) (vccPlain c (vmvxOp rd vs j)) s)

end Sys2Proof.Machine
end

