-- ==== Sys2Proof/Machine/Dispatch.lean ====
section
/-!
DEFINITION. exec: one arm per command, each one direct call of its meaning.
-/
namespace Sys2Proof.Machine

/-- The effect of a command on everything but the queue. -/
def exec (i : Instr) (s : State) : Host.Outcome State Fault Refusal :=
  match i with
  | .powerGood env => Sys2Proof.Machine.execPowerGood env s
  | .tokenSessionRetry hs => Sys2Proof.Machine.execTokenSessionRetry hs s
  | .startupHoldResume => Sys2Proof.Machine.execStartupHoldResume s
  | .powerLoss => Sys2Proof.Machine.execPowerLoss s
  | .pgDip mv ns => Sys2Proof.Machine.execPgDip mv ns s
  | .perstAssert => Sys2Proof.Machine.execPerstAssert s
  | .perstDeassert env => Sys2Proof.Machine.execPerstDeassert env s
  | .pwrdisAssert => Sys2Proof.Machine.execPwrdisAssert s
  | .pwrdisDeassert => Sys2Proof.Machine.execPwrdisDeassert s
  | .auxAbsent => Sys2Proof.Machine.execAuxAbsent s
  | .latchOpen => Sys2Proof.Machine.execLatchOpen s
  | .thermalWarn celsius => Sys2Proof.Machine.execThermalWarn celsius s
  | .thermalWarnClear => Sys2Proof.Machine.execThermalWarnClear s
  | .activityStretchEnd => Sys2Proof.Machine.execActivityStretchEnd s
  | .smbusOffsetWrite addr off => Sys2Proof.Machine.execSmbusOffsetWrite addr off s
  | .smbusFruRead n pec => Sys2Proof.Machine.execSmbusFruRead n pec s
  | .smbusHealthRead n pec => Sys2Proof.Machine.execSmbusHealthRead n pec s
  | .healthSnapshot tj tb p12 => Sys2Proof.Machine.execHealthSnapshot tj tb p12 s
  | .strapsRead live => Sys2Proof.Machine.execStrapsRead live s
  | .transitNowLoRead wide => Sys2Proof.Machine.execTransitNowLoRead wide s
  | .ptmDialog => Sys2Proof.Machine.execPtmDialog s
  | .ptmResponse r => Sys2Proof.Machine.execPtmResponse r s
  | .coaxMarker m => Sys2Proof.Machine.execCoaxMarker m s
  | .coaxEdgeLoss => Sys2Proof.Machine.execCoaxEdgeLoss s
  | .ptmEnableClear => Sys2Proof.Machine.execPtmEnableClear s
  | .holdoverExpired => Sys2Proof.Machine.execHoldoverExpired s
  | .holdoverDriftUpdate => Sys2Proof.Machine.execHoldoverDriftUpdate s
  | .catchUpEnd => Sys2Proof.Machine.execCatchUpEnd s
  | .linkUp w speed => Sys2Proof.Machine.execLinkUp w speed s
  | .linkRetrain w speed => Sys2Proof.Machine.execLinkRetrain w speed s
  | .flrVf n => Sys2Proof.Machine.execFlrVf n s
  | .flrPf0 => Sys2Proof.Machine.execFlrPf0 s
  | .flrPf1 => Sys2Proof.Machine.execFlrPf1 s
  | .hotReset => Sys2Proof.Machine.execHotReset s
  | .secondaryBusReset => Sys2Proof.Machine.execSecondaryBusReset s
  | .dlDown => Sys2Proof.Machine.execDlDown s
  | .functionResetComplete fn => Sys2Proof.Machine.execFunctionResetComplete fn s
  | .d3hotEntry fn => Sys2Proof.Machine.execD3hotEntry fn s
  | .d0Entry fn => Sys2Proof.Machine.execD0Entry fn s
  | .busMasterEnableClear fn => Sys2Proof.Machine.execBusMasterEnableClear fn s
  | .memorySpaceEnableClear fn => Sys2Proof.Machine.execMemorySpaceEnableClear fn s
  | .vfEnable numVfs => Sys2Proof.Machine.execVfEnable numVfs s
  | .vfReady n => Sys2Proof.Machine.execVfReady n s
  | .vfEnableClear => Sys2Proof.Machine.execVfEnableClear s
  | .atsInvalidate fn req => Sys2Proof.Machine.execAtsInvalidate fn req s
  | .dmaReadFailure fail => Sys2Proof.Machine.execDmaReadFailure fail s
  | .completionTimeout t => Sys2Proof.Machine.execCompletionTimeout t s
  | .msixUnmask fn vec => Sys2Proof.Machine.execMsixUnmask fn vec s
  | .doeDiscovery index => Sys2Proof.Machine.execDoeDiscovery index s
  | .doeAbort => Sys2Proof.Machine.execDoeAbort s
  | .getVersion => Sys2Proof.Machine.execGetVersion s
  | .getCapabilities => Sys2Proof.Machine.execGetCapabilities s
  | .negotiateAlgorithms => Sys2Proof.Machine.execNegotiateAlgorithms s
  | .getDigests => Sys2Proof.Machine.execGetDigests s
  | .getCertificate off len => Sys2Proof.Machine.execGetCertificate off len s
  | .spdmChallenge nonce => Sys2Proof.Machine.execSpdmChallenge nonce s
  | .getMeasurements index signed nonce => Sys2Proof.Machine.execGetMeasurements index signed nonce s
  | .keyExchange req => Sys2Proof.Machine.execKeyExchange req s
  | .finish session mac => Sys2Proof.Machine.execFinish session mac s
  | .endSession session => Sys2Proof.Machine.execEndSession session s
  | .spdmUnsupportedRequest code => Sys2Proof.Machine.execSpdmUnsupportedRequest code s
  | .ideKmQuery session => Sys2Proof.Machine.execIdeKmQuery session s
  | .ideKmKeyProg session p => Sys2Proof.Machine.execIdeKmKeyProg session p s
  | .ideKmKSetGo session p => Sys2Proof.Machine.execIdeKmKSetGo session p s
  | .ideKmKSetStop session p => Sys2Proof.Machine.execIdeKmKSetStop session p s
  | .ideIntegrityFailure fail => Sys2Proof.Machine.execIdeIntegrityFailure fail s
  | .sqTailDoorbell w => Sys2Proof.Machine.execSqTailDoorbell w s
  | .cqHeadDoorbell w => Sys2Proof.Machine.execCqHeadDoorbell w s
  | .aqEnable fn value => Sys2Proof.Machine.execAqEnable fn value s
  | .evrHead fn value => Sys2Proof.Machine.execEvrHead fn value s
  | .evrDroppedRead fn => Sys2Proof.Machine.execEvrDroppedRead fn s
  | .cqInterruptTimer fn q => Sys2Proof.Machine.execCqInterruptTimer fn q s
  | .sqFetch fn q f => Sys2Proof.Machine.execSqFetch fn q f s
  | .jobReserve job => Sys2Proof.Machine.execJobReserve job s
  | .jobDispatch job d => Sys2Proof.Machine.execJobDispatch job d s
  | .jobPreempt victim by_ d => Sys2Proof.Machine.execJobPreempt victim by_ d s
  | .overrunToken job => Sys2Proof.Machine.execOverrunToken job s
  | .slotRetired slot => Sys2Proof.Machine.execSlotRetired slot s
  | .identify a => Sys2Proof.Machine.execIdentify a s
  | .createCq a => Sys2Proof.Machine.execCreateCq a s
  | .createSq a => Sys2Proof.Machine.execCreateSq a s
  | .destroySq a => Sys2Proof.Machine.execDestroySq a s
  | .destroyCq a => Sys2Proof.Machine.execDestroyCq a s
  | .abortJob a => Sys2Proof.Machine.execAbortJob a s
  | .getLogQueueStatus a => Sys2Proof.Machine.execGetLogQueueStatus a s
  | .getLogPoolStatus a => Sys2Proof.Machine.execGetLogPoolStatus a s
  | .setEventRing a => Sys2Proof.Machine.execSetEventRing a s
  | .monitorSnapshot a => Sys2Proof.Machine.execMonitorSnapshot a s
  | .slotInfo a => Sys2Proof.Machine.execSlotInfo a s
  | .domainInfo a => Sys2Proof.Machine.execDomainInfo a s
  | .keyAdminErase a => Sys2Proof.Machine.execKeyAdminErase a s
  | .eraseDomain a => Sys2Proof.Machine.execEraseDomain a s
  | .anchorInfo a => Sys2Proof.Machine.execAnchorInfo a s
  | .aumSubmit a => Sys2Proof.Machine.execAumSubmit a s
  | .dbgCertSubmit a => Sys2Proof.Machine.execDbgCertSubmit a s
  | .quiesce a => Sys2Proof.Machine.execQuiesce a s
  | .quiesceDrained fn => Sys2Proof.Machine.execQuiesceDrained fn s
  | .quiesceResume a => Sys2Proof.Machine.execQuiesceResume a s
  | .saveState a => Sys2Proof.Machine.execSaveState a s
  | .restoreState a => Sys2Proof.Machine.execRestoreState a s
  | .dirtyLogEnable a => Sys2Proof.Machine.execDirtyLogEnable a s
  | .dirtyLogDisable a => Sys2Proof.Machine.execDirtyLogDisable a s
  | .dirtyLogSync a => Sys2Proof.Machine.execDirtyLogSync a s
  | .sliceCreate a => Sys2Proof.Machine.execSliceCreate a s
  | .sliceReset a => Sys2Proof.Machine.execSliceReset a s
  | .sliceDestroy a => Sys2Proof.Machine.execSliceDestroy a s
  | .mlKemEncaps x => Sys2Proof.Machine.execMlKemEncaps x s
  | .mlKemDecaps x => Sys2Proof.Machine.execMlKemDecaps x s
  | .mlDsaSign x => Sys2Proof.Machine.execMlDsaSign x s
  | .mlDsaVerify x => Sys2Proof.Machine.execMlDsaVerify x s
  | .mlDsaHashSign x => Sys2Proof.Machine.execMlDsaHashSign x s
  | .mlDsaHashVerify x => Sys2Proof.Machine.execMlDsaHashVerify x s
  | .slhDsaSign x => Sys2Proof.Machine.execSlhDsaSign x s
  | .slhDsaVerify x => Sys2Proof.Machine.execSlhDsaVerify x s
  | .slhDsaHashSign x => Sys2Proof.Machine.execSlhDsaHashSign x s
  | .slhDsaHashVerify x => Sys2Proof.Machine.execSlhDsaHashVerify x s
  | .hssSign x => Sys2Proof.Machine.execHssSign x s
  | .hssVerify x => Sys2Proof.Machine.execHssVerify x s
  | .prepare x => Sys2Proof.Machine.execPrepare x s
  | .publicKey x => Sys2Proof.Machine.execPublicKey x s
  | .codeEncaps x => Sys2Proof.Machine.execCodeEncaps x s
  | .codeDecaps x => Sys2Proof.Machine.execCodeDecaps x s
  | .loadPublic x => Sys2Proof.Machine.execLoadPublic x s
  | .seal x => Sys2Proof.Machine.execSeal x s
  | .reseal x => Sys2Proof.Machine.execReseal x s
  | .open_ x => Sys2Proof.Machine.execOpen x s
  | .rsaSign x => Sys2Proof.Machine.execRsaSign x s
  | .rsaVerify x => Sys2Proof.Machine.execRsaVerify x s
  | .rsaDecrypt x => Sys2Proof.Machine.execRsaDecrypt x s
  | .rsaEncrypt x => Sys2Proof.Machine.execRsaEncrypt x s
  | .ecdsaSign x => Sys2Proof.Machine.execEcdsaSign x s
  | .ecdsaVerify x => Sys2Proof.Machine.execEcdsaVerify x s
  | .ecdh x => Sys2Proof.Machine.execEcdh x s
  | .agree x => Sys2Proof.Machine.execAgree x s
  | .edSign x => Sys2Proof.Machine.execEdSign x s
  | .edVerify x => Sys2Proof.Machine.execEdVerify x s
  | .rawAdd x => Sys2Proof.Machine.execRawAdd x s
  | .rawSub x => Sys2Proof.Machine.execRawSub x s
  | .rawMul x => Sys2Proof.Machine.execRawMul x s
  | .rawSqr x => Sys2Proof.Machine.execRawSqr x s
  | .rawInv x => Sys2Proof.Machine.execRawInv x s
  | .rawExp x => Sys2Proof.Machine.execRawExp x s
  | .run x => Sys2Proof.Machine.execRun x s
  | .maeAdd m k => Sys2Proof.Machine.execMaeAdd m k s
  | .maeSub m k => Sys2Proof.Machine.execMaeSub m k s
  | .maeMul m k => Sys2Proof.Machine.execMaeMul m k s
  | .maeSqr m k => Sys2Proof.Machine.execMaeSqr m k s
  | .maeInv m k => Sys2Proof.Machine.execMaeInv m k s
  | .maeExp m k => Sys2Proof.Machine.execMaeExp m k s
  | .maeEnd m k => Sys2Proof.Machine.execMaeEnd m k s
  | .cbcEncrypt x => Sys2Proof.Machine.execCbcEncrypt x s
  | .cbcDecrypt x => Sys2Proof.Machine.execCbcDecrypt x s
  | .ctr x => Sys2Proof.Machine.execCtr x s
  | .xtsEncrypt x => Sys2Proof.Machine.execXtsEncrypt x s
  | .xtsDecrypt x => Sys2Proof.Machine.execXtsDecrypt x s
  | .gcmEncrypt x => Sys2Proof.Machine.execGcmEncrypt x s
  | .gcmDecrypt x => Sys2Proof.Machine.execGcmDecrypt x s
  | .gmacGenerate x => Sys2Proof.Machine.execGmacGenerate x s
  | .gmacVerify x => Sys2Proof.Machine.execGmacVerify x s
  | .gcmSivEncrypt x => Sys2Proof.Machine.execGcmSivEncrypt x s
  | .gcmSivDecrypt x => Sys2Proof.Machine.execGcmSivDecrypt x s
  | .ccmEncrypt x => Sys2Proof.Machine.execCcmEncrypt x s
  | .ccmDecrypt x => Sys2Proof.Machine.execCcmDecrypt x s
  | .kwWrap x => Sys2Proof.Machine.execKwWrap x s
  | .kwUnwrap x => Sys2Proof.Machine.execKwUnwrap x s
  | .kwpWrap x => Sys2Proof.Machine.execKwpWrap x s
  | .kwpUnwrap x => Sys2Proof.Machine.execKwpUnwrap x s
  | .chachaPolyEncrypt x => Sys2Proof.Machine.execChachaPolyEncrypt x s
  | .chachaPolyDecrypt x => Sys2Proof.Machine.execChachaPolyDecrypt x s
  | .ctxOpen x => Sys2Proof.Machine.execCtxOpen x s
  | .ctxClose x => Sys2Proof.Machine.execCtxClose x s
  | .hash x => Sys2Proof.Machine.execHash x s
  | .hmacGenerate x => Sys2Proof.Machine.execHmacGenerate x s
  | .hmacVerify x => Sys2Proof.Machine.execHmacVerify x s
  | .kmacGenerate x => Sys2Proof.Machine.execKmacGenerate x s
  | .kmacVerify x => Sys2Proof.Machine.execKmacVerify x s
  | .verifyDigest x => Sys2Proof.Machine.execVerifyDigest x s
  | .dgeCtxOpen x => Sys2Proof.Machine.execDgeCtxOpen x s
  | .dgeCtxClose x => Sys2Proof.Machine.execDgeCtxClose x s
  | .stateExport x => Sys2Proof.Machine.execStateExport x s
  | .stateImport x => Sys2Proof.Machine.execStateImport x s
  | .leaf x => Sys2Proof.Machine.execLeaf x s
  | .root x => Sys2Proof.Machine.execRoot x s
  | .chunkRoot x => Sys2Proof.Machine.execChunkRoot x s
  | .verifyPath x => Sys2Proof.Machine.execVerifyPath x s
  | .bouquet x => Sys2Proof.Machine.execBouquet x s
  | .keygen x => Sys2Proof.Machine.execKeygen x s
  | .derive x => Sys2Proof.Machine.execDerive x s
  | .unwrap x => Sys2Proof.Machine.execUnwrap x s
  | .wrap x => Sys2Proof.Machine.execWrap x s
  | .erase x => Sys2Proof.Machine.execErase x s
  | .random x => Sys2Proof.Machine.execRandom x s
  | .attestChallenge x => Sys2Proof.Machine.execAttestChallenge x s
  | .attestQuote x => Sys2Proof.Machine.execAttestQuote x s
  | .attestIdentity x => Sys2Proof.Machine.execAttestIdentity x s
  | .add c o => Sys2Proof.Machine.execAdd c o s
  | .sub c o => Sys2Proof.Machine.execSub c o s
  | .and_ c o => Sys2Proof.Machine.execAnd c o s
  | .or_ c o => Sys2Proof.Machine.execOr c o s
  | .xor_ c o => Sys2Proof.Machine.execXor c o s
  | .sll c o => Sys2Proof.Machine.execSll c o s
  | .srl c o => Sys2Proof.Machine.execSrl c o s
  | .sra c o => Sys2Proof.Machine.execSra c o s
  | .mul c o => Sys2Proof.Machine.execMul c o s
  | .mulhu c o => Sys2Proof.Machine.execMulhu c o s
  | .sltu c o => Sys2Proof.Machine.execSltu c o s
  | .lui c rd imm => Sys2Proof.Machine.execLui c rd imm s
  | .setvl c rd rs1 ew => Sys2Proof.Machine.execSetvl c rd rs1 ew s
  | .csrr c rd fn => Sys2Proof.Machine.execCsrr c rd fn s
  | .vmvx c rd vs j => Sys2Proof.Machine.execVmvx c rd vs j s
  | .vadd c o => Sys2Proof.Machine.execVadd c o s
  | .vsub c o => Sys2Proof.Machine.execVsub c o s
  | .vand c o => Sys2Proof.Machine.execVand c o s
  | .vor c o => Sys2Proof.Machine.execVor c o s
  | .vxor c o => Sys2Proof.Machine.execVxor c o s
  | .vsll c o => Sys2Proof.Machine.execVsll c o s
  | .vsrl c o => Sys2Proof.Machine.execVsrl c o s
  | .vmul c o => Sys2Proof.Machine.execVmul c o s
  | .vmulh c o => Sys2Proof.Machine.execVmulh c o s
  | .vcmp c rel o => Sys2Proof.Machine.execVcmp c rel o s
  | .slideup c o => Sys2Proof.Machine.execSlideup c o s
  | .slidedown c o => Sys2Proof.Machine.execSlidedown c o s
  | .reverse c o => Sys2Proof.Machine.execReverse c o s
  | .zip c o => Sys2Proof.Machine.execZip c o s
  | .unzip c o => Sys2Proof.Machine.execUnzip c o s
  | .broadcast c o => Sys2Proof.Machine.execBroadcast c o s
  | .shxor c o => Sys2Proof.Machine.execShxor c o s
  | .shand c o => Sys2Proof.Machine.execShand c o s
  | .shxorp c o => Sys2Proof.Machine.execShxorp c o s
  | .shandp c o => Sys2Proof.Machine.execShandp c o s
  | .shadd c o => Sys2Proof.Machine.execShadd c o s
  | .shref c o => Sys2Proof.Machine.execShref c o s
  | .shba c o => Sys2Proof.Machine.execShba c o s
  | .shab c o => Sys2Proof.Machine.execShab c o s
  | .shsel c o => Sys2Proof.Machine.execShsel c o s
  | .shcmpz c o => Sys2Proof.Machine.execShcmpz c o s
  | .svadd c o => Sys2Proof.Machine.execSvadd c o s
  | .svxor c o => Sys2Proof.Machine.execSvxor c o s
  | .svrot c o => Sys2Proof.Machine.execSvrot c o s
  | .svmul c o => Sys2Proof.Machine.execSvmul c o s
  | .vaddX c o => Sys2Proof.Machine.execVaddX c o s
  | .vsubX c o => Sys2Proof.Machine.execVsubX c o s
  | .vandX c o => Sys2Proof.Machine.execVandX c o s
  | .vorX c o => Sys2Proof.Machine.execVorX c o s
  | .vxorX c o => Sys2Proof.Machine.execVxorX c o s
  | .vsllX c o => Sys2Proof.Machine.execVsllX c o s
  | .vsrlX c o => Sys2Proof.Machine.execVsrlX c o s
  | .vmulX c o => Sys2Proof.Machine.execVmulX c o s
  | .vld c o => Sys2Proof.Machine.execVld c o s
  | .vst c o => Sys2Proof.Machine.execVst c o s
  | .shldSplit c o => Sys2Proof.Machine.execShldSplit c o s
  | .shldShares c o => Sys2Proof.Machine.execShldShares c o s
  | .shst c o => Sys2Proof.Machine.execShst c o s
  | .svld c o => Sys2Proof.Machine.execSvld c o s
  | .svst c o => Sys2Proof.Machine.execSvst c o s
  | .winFetch c src h => Sys2Proof.Machine.execWinFetch c src h s
  | .winFetchComplete c job => Sys2Proof.Machine.execWinFetchComplete c job s
  | .winWait c => Sys2Proof.Machine.execWinWait c s
  | .xmov c peer h => Sys2Proof.Machine.execXmov c peer h s
  | .rand c h => Sys2Proof.Machine.execRand c h s
  | .ntt c h => Sys2Proof.Machine.execNtt c h s
  | .madd c h => Sys2Proof.Machine.execMadd c h s
  | .msub c h => Sys2Proof.Machine.execMsub c h s
  | .mmul c h => Sys2Proof.Machine.execMmul c h s
  | .mred c h => Sys2Proof.Machine.execMred c h s
  | .tomont c h => Sys2Proof.Machine.execTomont c h s
  | .frommont c h => Sys2Proof.Machine.execFrommont c h s
  | .kecInit c => Sys2Proof.Machine.execKecInit c s
  | .kecInits c => Sys2Proof.Machine.execKecInits c s
  | .kecXb c h => Sys2Proof.Machine.execKecXb c h s
  | .kecXbs c h => Sys2Proof.Machine.execKecXbs c h s
  | .kecPerm c => Sys2Proof.Machine.execKecPerm c s
  | .kecOut c h => Sys2Proof.Machine.execKecOut c h s
  | .kecX4 c h => Sys2Proof.Machine.execKecX4 c h s
  | .sha2C256 c h => Sys2Proof.Machine.execSha2C256 c h s
  | .sha2C512 c h => Sys2Proof.Machine.execSha2C512 c h s
  | .gfmul c h => Sys2Proof.Machine.execGfmul c h s
  | .clmul c h => Sys2Proof.Machine.execClmul c h s
  | .verdictJob c h => Sys2Proof.Machine.execVerdictJob c h s
  | .verdictCheck c h => Sys2Proof.Machine.execVerdictCheck c h s
  | .beq c ra rb imm => Sys2Proof.Machine.execBeq c ra rb imm s
  | .bne c ra rb imm => Sys2Proof.Machine.execBne c ra rb imm s
  | .bltu c ra rb imm => Sys2Proof.Machine.execBltu c ra rb imm s
  | .jal c ra imm => Sys2Proof.Machine.execJal c ra imm s
  | .jr c ra => Sys2Proof.Machine.execJr c ra s
  | .yield_ c => Sys2Proof.Machine.execYield c s
  | .yieldExtend c => Sys2Proof.Machine.execYieldExtend c s
  | .sysFault c => Sys2Proof.Machine.execSysFault c s
  | .untag c ra file => Sys2Proof.Machine.execUntag c ra file s
  | .end_ c shared keyout x => Sys2Proof.Machine.execEnd c shared keyout x s
  | .watchdog c => Sys2Proof.Machine.execWatchdog c s
  | .tileReload c again => Sys2Proof.Machine.execTileReload c again s
  | .reservationCommit domain index => Sys2Proof.Machine.execReservationCommit domain index s
  | .tokenSessionEnd => Sys2Proof.Machine.execTokenSessionEnd s
  | .tokenLifeRefresh => Sys2Proof.Machine.execTokenLifeRefresh s
  | .almanacCommit => Sys2Proof.Machine.execAlmanacCommit s
  | .coalesceWindowClose kind source => Sys2Proof.Machine.execCoalesceWindowClose kind source s
  | .hourTick => Sys2Proof.Machine.execHourTick s
  | .almCursorWrite value => Sys2Proof.Machine.execAlmCursorWrite value s
  | .almWindow15Read => Sys2Proof.Machine.execAlmWindow15Read s
  | .almWindowLoad => Sys2Proof.Machine.execAlmWindowLoad s
  | .almStatusRead => Sys2Proof.Machine.execAlmStatusRead s
  | .almClear value => Sys2Proof.Machine.execAlmClear value s
  | .almanacCleared => Sys2Proof.Machine.execAlmanacCleared s
  | .lcsAdvanceIntegrator value => Sys2Proof.Machine.execLcsAdvanceIntegrator value s
  | .lcsAdvanceFielded value => Sys2Proof.Machine.execLcsAdvanceFielded value s
  | .lcsAdvanceReturned value => Sys2Proof.Machine.execLcsAdvanceReturned value s
  | .lcsAdvanceScrapped value => Sys2Proof.Machine.execLcsAdvanceScrapped value s
  | .lcsTransition => Sys2Proof.Machine.execLcsTransition s
  | .dbgRightsWrite value => Sys2Proof.Machine.execDbgRightsWrite value s
  | .dbgStepArm value => Sys2Proof.Machine.execDbgStepArm value s
  | .dbgStep => Sys2Proof.Machine.execDbgStep s
  | .dbgStepRun => Sys2Proof.Machine.execDbgStepRun s
  | .tamperAlarm sensor quadrant reading => Sys2Proof.Machine.execTamperAlarm sensor quadrant reading s
  | .sealingKeyDestroy => Sys2Proof.Machine.execSealingKeyDestroy s
  | .destroyZeroizeEnd => Sys2Proof.Machine.execDestroyZeroizeEnd s
  | .tamperHoldEnd sensor quadrant => Sys2Proof.Machine.execTamperHoldEnd sensor quadrant s
  | .tamperAckSensor value => Sys2Proof.Machine.execTamperAckSensor value s
  | .tamperAckSleepLatch value => Sys2Proof.Machine.execTamperAckSleepLatch value s
  | .faultAck value => Sys2Proof.Machine.execFaultAck value s
  | .hang unit => Sys2Proof.Machine.execHang unit s
  | .entropy source test => Sys2Proof.Machine.execEntropy source test s
  | .lockstep orrery => Sys2Proof.Machine.execLockstep orrery s
  | .maskReseed unit => Sys2Proof.Machine.execMaskReseed unit s
  | .ddpStart fn alg => Sys2Proof.Machine.execDdpStart fn alg s
  | .ddpRelease fn => Sys2Proof.Machine.execDdpRelease fn s
  | .ddpData fn w => Sys2Proof.Machine.execDdpData fn w s
  | .ddpLastWord fn w => Sys2Proof.Machine.execDdpLastWord fn w s
  | .ddpLastLength fn value => Sys2Proof.Machine.execDdpLastLength fn value s
  | .ddpDone fn mismatch => Sys2Proof.Machine.execDdpDone fn mismatch s
  | .outSend fn => Sys2Proof.Machine.execOutSend fn s
  | .inAck fn => Sys2Proof.Machine.execInAck fn s
  | .inSend => Sys2Proof.Machine.execInSend s
  | .outAck => Sys2Proof.Machine.execOutAck s
  | .registerWrite w => Sys2Proof.Machine.execRegisterWrite w s
  | .dramChannelLinkFailure chan => Sys2Proof.Machine.execDramChannelLinkFailure chan s
  | .coaxMarkerMissing => Sys2Proof.Machine.execCoaxMarkerMissing s
  | .tamperConditionClear sensor quadrant => Sys2Proof.Machine.execTamperConditionClear sensor quadrant s
  | .auxiliaryPowerOn => Sys2Proof.Machine.execAuxiliaryPowerOn s
  | .auxiliaryPowerLoss => Sys2Proof.Machine.execAuxiliaryPowerLoss s
  | .traceFrameSent => Sys2Proof.Machine.execTraceFrameSent s
  | .mailboxDataWrite w => Sys2Proof.Machine.execMailboxDataWrite w s

end Sys2Proof.Machine
end

