-- ==== Sys2Proof/Safety.lean ====
section
/-!
DEFINITION. What a safe run is, in the words of the statements: a step that answers, clusters whose memory is canonical, fuses that stay
burned.
-/
namespace Sys2Proof.Machine

/-- A step answers a next state: neither a fault nor a refusal. -/
def Steps (s : State) : Prop := ∃ t, step s = .next t

/-- The command answers a next state of which `post` holds. -/
def Does (c : Instr) (s : State) (post : State → Prop) : Prop := ∃ t, exec c s = .next t ∧ post t

/-- The 32 clusters, each with its tiles in canonical form (R396; the form of log 22). -/
def VccOk (l : List Cluster) : Prop := l.length = 32 ∧ ∀ c ∈ l, Memory.wf c.tiles = true

/-- The module's clusters are in order. -/
def TilesOk (s : State) : Prop := VccOk s.vcc

/-- Fuses of `a` that are still burned in `b`: the lifecycle fuses with their end fuses (R446), the debug lock, the blown device root
secret and owner root (R450), and the thermometer of the floor F (R234). -/
structure FusesHold (a b : Sc) : Prop where
  lc : ∀ n ∈ a.lcFuses, n ∈ b.lcFuses
  ends : ∀ n ∈ a.endFuses, n ∈ b.endFuses
  lock : a.debugLock = true → b.debugLock = true
  drs : a.drsBlown = true → b.drsBlown = true
  root : a.rootBlown = true → b.rootBlown = true
  floor : a.floor ≤ b.floor

/-- An index pair of a ring of depth 2^`log2`: both slots lie in it, and the entries between them are at most its depth (R148, R149). -/
abbrev RingOk (log2 head tail : Nat) : Prop :=
  log2 ≤ 16 ∧ idxSlot head < 2 ^ log2 ∧ idxSlot tail < 2 ^ log2 ∧ idxDist (2 ^ log2) head tail ≤ 2 ^ log2

/-- An SQ whose entries from head to tail are those seen to arrive and not yet fetched (R149, R150). -/
abbrev SqOk (q : Sq) : Prop := RingOk q.log2 q.head q.tail ∧ q.arrivals.length = idxDist (2 ^ q.log2) q.head q.tail
/-- A CQ that holds no more entries than its depth (R151, R157). -/
abbrev CqOk (c : Cq) : Prop := RingOk c.log2 c.head c.tail

/-- Every queue's ring is in order. -/
def RingsOk (s : State) : Prop := (∀ q ∈ s.sqs, SqOk q) ∧ ∀ c ∈ s.cqs, CqOk c

/-- The completion credits that CQ `q` of `f` accounts for: those it has free, those of its held completions, those of the jobs that have not ended
(R156, R511). -/
def creditSum (s : State) (f : Fn) (q : Nat) : Nat :=
  ((s.cq? f q).map (fun c => c.credits + (c.held.filter (fun h => h.credited)).length)).getD 0 +
    (s.jobs.filter (fun j => j.fn == f && j.cq == q && j.credit && j.phase != .done)).length

/-- Job numbers differ, and a held completion is that of a job that has ended (R157, R511). -/
structure HeldOk (s : State) : Prop where
  ids : (s.jobs.map (fun j => j.id)).Nodup
  ended : ∀ c ∈ s.cqs, ∀ h ∈ c.held, ∀ j ∈ s.jobs, j.id = h.job → j.phase = .done

/-- A FREE slot holds no material (R217, R218). -/
abbrev SlotOk (x : Slot) : Prop := x.st = .free → x.material = []
/-- Every FREE slot is without material. -/
def SlotsOk (s : State) : Prop := ∀ x ∈ s.slots, SlotOk x

/-- No slot of `a` has a lower generation in `b`, and none is missing there (R217). -/
def GenHold (a b : List Slot) : Prop :=
  ∀ i x, a.find? (fun x => x.idx == i) = some x → ∃ y, b.find? (fun x => x.idx == i) = some y ∧ x.gen ≤ y.gen

/-- A stateful key whose reserved leaves lie below the end it has recorded, in ranges that do not overlap and rise (R253, R304). -/
abbrev LeafOk (k : StatefulKey) : Prop :=
  k.next ≤ k.endLeaf ∧ (∀ r ∈ k.ranges, r.2 ≤ k.endLeaf) ∧ k.ranges.Pairwise (fun r q => r.2 ≤ q.1)
/-- Every stateful key of the token in the socket is in order. -/
def LeavesOk (s : State) : Prop := ∀ t, s.tok.socket = some t → ∀ k ∈ t.stateful, LeafOk k

/-- The same key, whose next leaf and recorded end are no lower (R253, R304). -/
abbrev LaterKey (k l : StatefulKey) : Prop :=
  k.domain = l.domain ∧ k.index = l.index ∧ k.version = l.version ∧ k.keyId = l.keyId ∧ k.next ≤ l.next ∧ k.endLeaf ≤ l.endLeaf
/-- Every stateful key of the token in `b` was in the token in `a`, with a next leaf and a recorded end no higher. -/
def NextsHold (a b : Option Token) : Prop := ∀ u, b = some u → ∃ t, a = some t ∧ ∀ l ∈ u.stateful, ∃ k ∈ t.stateful, LaterKey k l

/-- The commands that reset the module (R71, R76, R78). -/
def resetsModule : Instr → Bool
  | .perstAssert | .powerLoss | .pwrdisAssert => true
  | _ => false

/-- The commands that can apply an AUM: a start, or what lets one go on, and AUM_SUBMIT (R97, R99, R106). -/
def appliesAums : Instr → Bool
  | .powerGood _ | .perstDeassert _ | .tokenSessionRetry _ | .startupHoldResume | .aumSubmit _ => true
  | _ => false

/-! ### Commands that the statements name together -/

/-- An admin command of row `row` that its function can start and that passes the checks every command shares (R108, R169 to R171). -/
def AdminReady (row : Nat) (a : AdminIn) (e : Bytes) (s : State) : Prop :=
  (∃ q, s.sq? a.fn 0xFFFF = some q ∧ adminCanStart s a.fn q = true) ∧ a.entry = some e ∧ e.length = 64 ∧ rowCode e = some row ∧
    (16 ≤ aOp e → a.fn = .pf0) ∧ (s.eph.configured = true ∨ unconfOk e = true) ∧ reservedOk e = true

/-- The admin SQ's entry is read (R146), and the SQ moves past it: a command starts. -/
def entryTaken (f : Fn) (s : State) : State := (fetchRead f 0xFFFF s).onSq f 0xFFFF Sq.pass

/-- The admin command that `e` spells starts: its entry is taken and the buffer that it reads is asked for (R146, R170; log 39). -/
def commandTaken (a : AdminIn) (e : Bytes) (s : State) : State := bufRead a.fn e (entryTaken a.fn s)

/-- `c` runs `body` as the admin command of row `row`: its answer becomes the completion on the function's admin CQ, or a wait. A failure of
the body leaves the state as it was but for the entry and the completion. -/
def AdminRow (c : AdminIn → Instr) (row : Nat) (body : Bytes → AdminIn → State → AdminRes) : Prop :=
  ∀ (a : AdminIn) (e : Bytes) (s : State), AdminReady row a e s →
    (∀ n inl t, body e a (commandTaken a e s) = .ok n inl t →
      exec (c a) s = .next (writeCompletion a.fn 0xFFFF none false { tag := aTag e, bytes := n, inline := inl } t)) ∧
    (∀ st detail need, body e a (commandTaken a e s) = .fail st detail need → ∃ n inl, (need = 0 → inl = [byteOf detail]) ∧
      exec (c a) s = .next (writeCompletion a.fn 0xFFFF none false { tag := aTag e, status := st, bytes := n, inline := inl } (commandTaken a e s))) ∧
    (∀ w t, body e a (commandTaken a e s) = .wait w t → exec (c a) s = .next { t with waits := t.waits ++ [{ w with fn := a.fn, tag := aTag e }] })

/-- A dispatched job of opcode `op` that no debugger holds, whose run reads all of its input, meets no fault, is no re-execution, and whose
output list fits the declared capacity (R185 to R190). -/
structure JobReady (op want : Nat) (x : JobRun) (j : Job) (inp : Bytes) (s : State) : Prop where
  run : runnable s op x = some j
  input : (j.round = 0 ∧ inputOf j.desc x.input x.inList = (inp, none)) ∨ (0 < j.round ∧ inp = j.input)
  strings : want = 0 ∨ ∃ b, x.strings = some b ∧ want ≤ b.length
  fault : x.fault = none
  stalled : x.stalled = false
  more : x.more = false
  denied : x.denied = false
  list : (outputOf j.desc x.outList).bad = none
  first : j.restarted = false

/-- The state once the list that a job's output goes out by has been read (R188). -/
def listTaken (x : JobRun) (j : Job) (s : State) : State :=
  if dOutList j.desc then listReads j.fn (dOutRef j.desc) (entriesRead (outputOf j.desc x.outList)) s else s

/-- `c` runs the service `svc` for a job of opcode `op` on the state that `pre` leaves: output to the buffer or list in order, then the
completion; the new key where the service makes one; a failure writes nothing (R188, R190, R192, R225). Stated where no ERASE of the slot that the job
rewrites is still to be applied (R219). -/
def JobRowAfter (pre : JobRun → State → State) (c : JobRun → Instr) (op : Nat) (want : State → Job → Nat) (svc : Svc) : Prop :=
  ∀ (x : JobRun) (s₀ s t u : State) (j : Job) (inp : Bytes) (r : Result), pre x s₀ = s → JobReady op (want s j) x j inp s →
    svc j inp ((x.strings.getD []).take (want s j)) s = (r, t) → r.overrun = none → r.faulty = false → u = listTaken x j t →
    (replaces j.desc && eraseBehind u j (hSlot (gTarget j.block))) = false →
    (r.status = .ok → r.key = none → exec (c x) s₀ = .next (okJob j { tag := j.tag, bytes := (r.streamed ++ r.staged).length, inline := r.inline, implicit := r.implicit }
      (writeOutput j (outputOf j.desc x.outList).frags (r.streamed ++ r.staged) u))) ∧
    (∀ k h v, r.status = .ok → r.key = some k → placeKey j k u = some (h, v) →
      exec (c x) s₀ = .next (okJob j { tag := j.tag, bytes := (r.streamed ++ r.staged).length, inline := leBytes 8 h, implicit := r.implicit }
        (writeOutput j (outputOf j.desc x.outList).frags (r.streamed ++ r.staged) v))) ∧
    (∀ k, r.status = .ok → r.key = some k → placeKey j k u = none → exec (c x) s₀ = .next (failJob j (failEntry j .keyRetired []) u)) ∧
    (r.status ≠ .ok → exec (c x) s₀ = .next (failJob j (failEntry j r.status (if r.status = .verifyFailed then r.inline else [])) t))

/-- `c` runs the service `svc` for a job of opcode `op`. -/
def JobRow (c : JobRun → Instr) (op : Nat) (want : State → Job → Nat) (svc : Svc) : Prop := JobRowAfter (fun _ s => s) c op want svc

/-- A service that reads no strings. -/
def plainSvc (f : Job → Bytes → State → Result × State) : Svc := fun j i _ s => f j i s
/-- A service that reads no strings or additional data. -/
def noStrings (_ : State) (_ : Job) : Nat := 0

/-- What an instruction on a cluster sees. -/
def seenBy (s : State) (cl : Cluster) (r : Resid) : VccIn := { part := s.part, cl := cl, r := r, free := s.free }

/-- A cluster that has executed an instruction and stands before the word `pc`. -/
def retired (n : Nat) (k : Cluster) (pc : Nat) (s : State) : State :=
  { s with vcc := modAt s.vcc n (fun _ => k.stepTo pc) }

/-- `c n` is the instruction of effect `f` on cluster `n`, where a job that no debugger holds runs there; one that needs fresh randomness has
it. The word before which the cluster stands spells `w`. It goes on at the next word, or at another one; a trap is taken; its copy to a gang peer
lands (R400, R412). What its fresh mask bits count on the mask port is `drawMask` (R18). -/
def VccRow (c : Nat → Instr) (w : CodeWord) (random : VccIn → Bool) (f : VccIn → VOut) : Prop :=
  ∀ (n : Nat) (s₀ s : State) (cl : Cluster) (r : Resid) (j : Job), vccReady n s₀ = some (cl, r, j) → s₀.dbg.halted ≠ some j.id → spells n w s₀ = true →
    (random (seenBy s₀ cl r) = true → s₀.sc.drbgOn = true) → s = drawMask n (f (seenBy s₀ cl r)).mask s₀ →
    ((f (seenBy s₀ cl r)).peer = none → (f (seenBy s₀ cl r)).fin = .next →
      exec (c n) s₀ = .next (retired n (f (seenBy s₀ cl r)).cl (cl.pc + 1) { s with free := (f (seenBy s₀ cl r)).free })) ∧
    (∀ p, (f (seenBy s₀ cl r)).peer = some p → (f (seenBy s₀ cl r)).fin = .next →
      exec (c n) s₀ = .next (peerCopy j.id p (retired n (f (seenBy s₀ cl r)).cl (cl.pc + 1) { s with free := (f (seenBy s₀ cl r)).free }))) ∧
    (∀ pc, (f (seenBy s₀ cl r)).peer = none → (f (seenBy s₀ cl r)).fin = .goto pc →
      exec (c n) s₀ = .next (retired n (f (seenBy s₀ cl r)).cl pc { s with free := (f (seenBy s₀ cl r)).free })) ∧
    (∀ k e t, (f (seenBy s₀ cl r)).fin = .trap k e t →
      exec (c n) s₀ = .next (takeTrap n j (seenBy s₀ cl r) (f (seenBy s₀ cl r)) k e t { s with free := (f (seenBy s₀ cl r)).free }))

end Sys2Proof.Machine
end

