-- ==== Sys2Proof/Certificates/Slice0/Obligations.lean ====
section
/-!
DEFINITION. The statements about the module. Each docstring names the rules of spec/ it rests on, and the log entries where a clause is the
model's choice.
-/
open Sys2Proof Sys2Proof.Machine

/-! ### Power, the connector, SMBus -/

/-- With power-good and PWRDIS deasserted, POWER_GOOD counts a power cycle, senses the token in the socket behind its closed latch, and starts the
module; with power-good asserted already, or PWRDIS, it changes nothing. POWER_LOSS and PWRDIS_ASSERT with power-good asserted leave no queue, job,
slot, context, unit record, sealing key, wrapping key or held authority; the device root secret, the owner root digest and the lifecycle fuses stay,
and nothing leaves the module. With power-good deasserted PWRDIS_ASSERT only holds its level; PWRDIS_DEASSERT only releases it. The model's choices,
and no rule of the spec: what PWRDIS_ASSERT does with power-good deasserted and that latch and token are sensed at POWER_GOOD (log 36), and that the
start runs within its command (log 7). Rests on parts of R70, R71, R74, R78, R80, R92, R479. -/
def Obligations.MainPowerComesAndGoes : Prop :=
  ((∀ (env : BootEnv) (s : State), s.pwr.pg = false → s.pwr.pwrdis = false → s.pwr.auxPowered = true →
    ∃ u, exec (.powerGood env) s = .next (beginStart true env u) ∧ u.pwr.pg = true ∧ u.pwr.main = true ∧ u.pwr.perst = true ∧
      u.alm.powerCycle = (s.alm.powerCycle + 1) % 2 ^ 32 ∧ u.tok.latchClosed = true ∧ u.tok.present = u.tok.socket.isSome ∧ u.sc = s.sc ∧ u.clk = s.clk) ∧
  (∀ (env : BootEnv) (s : State), s.pwr.pg = true ∨ s.pwr.pwrdis = true → exec (.powerGood env) s = .next s)) ∧
  (∀ (c : Instr) (s : State), (c = .powerLoss ∨ c = .pwrdisAssert) → s.pwr.pg = true →
    Does c s (fun t => t.pwr.pg = false ∧ t.pwr.perst = true ∧ t.jobs = [] ∧ t.sqs = [] ∧ t.cqs = [] ∧ t.slots = [] ∧ t.ctxs = [] ∧
      t.units = [] ∧ t.sc.sealKey = none ∧ t.sc.wrapKey = none ∧ t.sc.heldAuth = [] ∧ t.sc.drs = s.sc.drs ∧ t.sc.rootDigest = s.sc.rootDigest ∧
      t.sc.lcFuses = s.sc.lcFuses ∧ t.out = s.out ∧ (c = .powerLoss → t.pwr.main = false) ∧
      (c = .pwrdisAssert → t.pwr.pwrdis = true ∧ t.pwr.main = s.pwr.main))) ∧
  ((∀ s : State, s.pwr.pg = false → exec .pwrdisAssert s = .next { s with pwr := { s.pwr with pwrdis := true } }) ∧
  (∀ s : State, exec .pwrdisDeassert s = .next { s with pwr := { s.pwr with pwrdis := false } }))

/-- The first deassertion of PERST# after power-good only releases the PCIe block. A later assertion leaves no job, queue, slot, context or sealing key,
keeps the STRAPS latch and the fuses, and writes nothing; while PERST# is asserted another assertion does nothing; the deassertion after it starts the
module again. A start that waits for the token repeats the handshake once its delay is over, and not before; a held start goes on when no alarm
condition stands. Rests on parts of R76, R97, R99. -/
def Obligations.PerstAndStartUp : Prop :=
  ((∀ (env : BootEnv) (s : State), s.pwr.pg = true → s.pwr.perst = true → s.pwr.perstSeen = false →
    exec (.perstDeassert env) s = .next { s with pwr := { s.pwr with perst := false, perstSeen := true } }) ∧
  (∀ s : State, s.pwr.pg = true → s.pwr.perst = false →
    Does .perstAssert s (fun t => t.pwr.perst = true ∧ t.pwr.straps = s.pwr.straps ∧ t.jobs = [] ∧ t.sqs = [] ∧ t.cqs = [] ∧ t.slots = [] ∧
      t.ctxs = [] ∧ t.sc.sealKey = none ∧ t.sc.lcFuses = s.sc.lcFuses ∧ t.sc.endFuses = s.sc.endFuses ∧ t.sc.drs = s.sc.drs ∧ t.out = s.out)) ∧
  (∀ (env : BootEnv) (s : State), s.pwr.pg = true → s.pwr.perst = true → s.pwr.perstSeen = true →
    exec (.perstDeassert env) s = .next (beginStart false env { s with pwr := { s.pwr with perst := false } })) ∧
  (∀ s : State, s.pwr.perst = true → exec .perstAssert s = .next s)) ∧
  ((∀ (hs : Handshake) (s : State), s.boot.waiting = true → s.boot.hold = false → s.boot.retryAt + retryDelay s.boot.attempt ≤ s.clk →
    exec (.tokenSessionRetry hs) s = .next (bootFrom 15 { s with boot := { s.boot with waiting := false, env := { s.boot.env with hs := hs } } })) ∧
  (∀ (hs : Handshake) (s : State), s.clk < s.boot.retryAt + retryDelay s.boot.attempt → exec (.tokenSessionRetry hs) s = .next s) ∧
  (∀ s : State, s.boot.hold = true → s.tam.conds = [] →
    exec .startupHoldResume s = .next (bootFrom 15 { s with boot := { s.boot with hold := false } })))

/-- A dip of the 12 V rail that keeps the module running leaves a PG_DIP record with its reading and nothing else; one below 10.0 V for 50 ns or
longer raises the V12_GLITCH alarm after it. With main power on, AUX_ABSENT is recorded once per power cycle; with main power off, the loss of the
auxiliary rail leaves the auxiliary domain without power, AUX_LOST due, and no coalescing window open. When the domain gains power again its tamper
and fault registers are at their reset values, but for DESTROY_PENDING, SLEEP_LATCH, QUARANTINE with its cause and DEGRADED, and the counters stand
at their copies; while it has power the rail's return only shows it. The model's choices: that DESTROY_PENDING and QUARANTINE with its cause outlast
the loss (log 26), and the records' sources and payloads (log 30). Rests on parts of R70, R73, R74, R475, R479. -/
def Obligations.DipsAndAuxiliaryRail : Prop :=
  ((∀ (mv ns : Nat) (s : State), s.pwr.pg = true → mv < 11040 → 10800 ≤ mv ∨ ns ≤ 20000 → 10000 ≤ mv ∨ ns < 50 →
    exec (.pgDip mv ns) s = .next (raiseEvent 0x0101 0xFF00 (leBytes 4 mv) s)) ∧
  (∀ (mv ns : Nat) (s : State), s.pwr.pg = true → mv < 10000 → 50 ≤ ns → ns ≤ 20000 →
    exec (.pgDip mv ns) s = .next (tamperAlarm 1 0 mv (raiseEvent 0x0101 0xFF00 (leBytes 4 mv) s)))) ∧
  ((∀ s : State, s.pwr.main = true → s.pwr.auxNoted = false →
    exec .auxAbsent s = .next (raiseEvent 0x0102 0xFF00 [] { s with pwr := { s.pwr with aux := false, auxNoted := true } })) ∧
  (∀ s : State, s.pwr.main = true → s.pwr.auxNoted = true → exec .auxAbsent s = .next { s with pwr := { s.pwr with aux := false } }) ∧
  (∀ s : State, s.pwr.pg = false → s.pwr.main = false →
    exec .auxiliaryPowerLoss s = .next { s with pwr := { s.pwr with aux := false, auxPowered := false, auxLost := true }, alm := { s.alm with windows := [] } }) ∧
  (∀ s : State, s.pwr.auxPowered = false →
    Does .auxiliaryPowerOn s (fun t => t.pwr.aux = true ∧ t.pwr.auxPowered = true ∧ t.flt = { degraded := s.flt.degraded } ∧
      t.tam = { quarantine := s.tam.quarantine, qCause := s.tam.qCause, destroyPending := s.tam.destroyPending, sleepLatch := s.tam.sleepLatch } ∧
      t.alm.powerCycle = s.alm.copyCycle ∧ t.alm.hours = s.alm.copyHours ∧ t.sc = s.sc ∧ t.tok = s.tok ∧ t.out = s.out)) ∧
  (∀ s : State, s.pwr.auxPowered = true → exec .auxiliaryPowerOn s = .next { s with pwr := { s.pwr with aux := true } }))

/-- While power-good is asserted, THERMAL_WARN at 100 °C or more sets the warning and records the temperature, once until the warning is cleared;
THERMAL_WARN_CLEAR clears it. ACTIVITY_STRETCH_END puts the activity signal out when 20 ms have passed and no job is dispatched, and leaves it else.
A read of STRAPS that reaches PF0 samples the switches and answers them beside the latched value, and records a difference from the latch at most
once per power cycle. LATCH_OPEN, while power-good is asserted and the latch is closed, ends an open session, drops the keys held from the token,
leaves the token in its socket but not present, and records LATCH_OPEN. The model's choices: THERMAL_WARN's payload and the sources of the records
of the module (log 30), and LATCH_OPEN's source (log 23). Rests on parts of R68, R80, R86, R91, R248. -/
def Obligations.SupervisionRows : Prop :=
  ((∀ (c : Int) (s : State), s.pwr.pg = true → 100 ≤ c → s.pwr.thermWarn = false →
    exec (.thermalWarn c) s = .next (raiseEvent 0x0106 0xFF00 [byteOf (c % 256).toNat] { s with pwr := { s.pwr with thermWarn := true } })) ∧
  (∀ (c : Int) (s : State), s.pwr.thermWarn = true → exec (.thermalWarn c) s = .next s) ∧
  (∀ s : State, exec .thermalWarnClear s = .next { s with pwr := { s.pwr with thermWarn := false } }) ∧
  (∀ s : State, s.pwr.activity = true → (∀ j ∈ s.jobs, j.dispatched = false) → s.pwr.activityAt + 20000000 ≤ s.clk →
    exec .activityStretchEnd s = .next { s with pwr := { s.pwr with activity := false } }) ∧
  (∀ s : State, (∃ j ∈ s.jobs, j.dispatched = true) ∨ s.clk < s.pwr.activityAt + 20000000 → exec .activityStretchEnd s = .next s)) ∧
  (∀ (live : Byte) (s : State), barOpen s .pf0 = true → (s.fnOf .pf0).resetting = false →
    (live = s.pwr.straps ∨ s.pwr.strapNoted = true → exec (.strapsRead live) s = .next { s with
      pwr := { s.pwr with live := live }, out := s.out ++ [.readValue (live.toNat * 256 + s.pwr.straps.toNat)] }) ∧
    (live ≠ s.pwr.straps → s.pwr.strapNoted = false → exec (.strapsRead live) s = .next (raiseEvent 0x0104 0xFF00 [s.pwr.straps, live] { s with
      pwr := { s.pwr with live := live, strapNoted := true }, out := s.out ++ [.readValue (live.toNat * 256 + s.pwr.straps.toNat)] }))) ∧
  (∀ s : State, s.pwr.pg = true → s.tok.latchClosed = true → ∃ u, exec .latchOpen s = .next (raiseEvent 0x0107 0x0C00 [] u) ∧
    u.tok.present = false ∧ u.tok.latchClosed = false ∧ u.tok.socket.isSome = s.tok.socket.isSome ∧ u.pwr = s.pwr ∧ u.slots = s.slots ∧ u.jobs = s.jobs ∧
    (anySession s = true → u.tok.session = .ended ∧ u.tok.keysLoaded = false ∧ u.sc.heldAuth = []))

/-- SMBus, while the auxiliary domain has power: the offset byte of an address, and no other address, sets where its next read begins; a read
advances the offset by the bytes clocked and wraps at the region's end; a snapshot that is due takes the health block of that instant, and one that is
not due changes nothing. Stated of reads without the PEC byte, whose layout is the model's (log 25). Rests on parts of R87, R88. -/
def Obligations.SmbusRows : Prop :=
  (∀ (addr : Nat) (off : Byte) (s : State), s.pwr.auxPowered = true →
    exec (.smbusOffsetWrite 0x53 off) s = .next { s with pwr := { s.pwr with smbOffFru := off.toNat } } ∧
    exec (.smbusOffsetWrite 0x3A off) s = .next { s with pwr := { s.pwr with smbOffHealth := off.toNat % 32 } } ∧
    (addr ≠ 0x53 → addr ≠ 0x3A → exec (.smbusOffsetWrite addr off) s = .next s)) ∧
  (∀ (n : Nat) (s : State), s.pwr.auxPowered = true →
    exec (.smbusFruRead n false) s = .next { s with pwr := { s.pwr with smbOffFru := (s.pwr.smbOffFru + n) % 512 }, out := s.out ++
      [.smbus ((List.range n).map (fun i => fruAt s.part ((s.pwr.smbOffFru + i) % 512)))] }) ∧
  (∀ (n : Nat) (s : State), s.pwr.auxPowered = true →
    exec (.smbusHealthRead n false) s = .next { s with pwr := { s.pwr with smbOffHealth := (s.pwr.smbOffHealth + n) % 32 }, out := s.out ++
      [.smbus ((List.range n).map (fun i => s.pwr.health.getD ((s.pwr.smbOffHealth + i) % 32) 0))] }) ∧
  (∀ (tj tb : Int) (p12 : Nat) (s : State), s.pwr.auxPowered = true → s.pwr.pg = true →
    (healthDue s = true → exec (.healthSnapshot tj tb p12) s = .next { s with pwr := { s.pwr with healthAt := some s.clk, health := healthBytes tj tb p12 s } }) ∧
    (healthDue s = false → exec (.healthSnapshot tj tb p12) s = .next s))

/-- R89: with main power off the health block reads FLAGS, LCS and ALERTS 0, the temperatures 0x80, P12V 0 and TOKEN_LIFE 0xFF: the loss of main power
leaves it so and every snapshot after keeps it so. The FRU data stays readable. -/
def Obligations.HealthBlockWithMainPowerOff : Prop :=
  (∀ (c : Instr) (s : State), (c = .powerLoss ∨ c = .pwrdisAssert) → s.pwr.pg = true →
    Does c s (fun t => t.pwr.pg = false ∧ t.pwr.health.take 9 = [0x01, 0x00, 0x00, 0x80, 0x80, 0x00, 0x00, 0xFF, 0x00])) ∧
  ∀ (tj tb : Int) (p12 : Nat) (s : State), s.pwr.auxPowered = true → s.pwr.pg = false →
    (healthDue s = true ∨ s.pwr.health.take 9 = [0x01, 0x00, 0x00, 0x80, 0x80, 0x00, 0x00, 0xFF, 0x00]) →
    Does (.healthSnapshot tj tb p12) s (fun t => t.pwr.health.take 9 = [0x01, 0x00, 0x00, 0x80, 0x80, 0x00, 0x00, 0xFF, 0x00] ∧
      t.pwr.smbOffFru = s.pwr.smbOffFru ∧ t.pwr.smbOffHealth = s.pwr.smbOffHealth ∧
      (s.pwr.smbOffHealth = 0 → Does (.smbusHealthRead 9 false) t (fun u =>
        u.out = s.out ++ [.smbus [0x01, 0x00, 0x00, 0x80, 0x80, 0x00, 0x00, 0xFF, 0x00]])) ∧
      Does (.smbusFruRead 1 false) t (fun u => u.out = s.out ++ [.smbus [fruAt s.part (s.pwr.smbOffFru % 512)]]))

/-! ### The Meridian -/

/-- A read of TRANSIT_NOW_LO that reaches PF0 answers Meridian time shifted right by 10 bits and latches the high word. HOLDOVER_DRIFT_UPDATE, in
HOLDOVER and FREE_RUN, makes HOLDOVER_DRIFT the residual at the loss plus 2 ns for each ms since, plus what a catch-up has left. When the holdover
limit has passed, HOLDOVER_EXPIRED leads to FREE_RUN with the records of the change and of the limit; without a limit it does nothing. CATCH_UP_END
ends a catch-up that has absorbed its offset. On an idle nanosecond the deadline clock rises by 1 whatever the Meridian does; Meridian time rises by
1 too, or, in a catch-up, at half rate; no job, queue or slot changes, but that the instant's changes of slots are over. The model's choices: that
time passes where no command waits (log 1), and that the token levels its wear then (log 39), and the source and payload of HOLDOVER_EXPIRED's
record (log 30). Rests on parts of R36, R37, R43, R44, R45. -/
def Obligations.MeridianTime : Prop :=
  (∀ (wide : Bool) (s : State), barOpen s .pf0 = true → (s.fnOf .pf0).resetting = false →
    exec (.transitNowLoRead wide) s = .next { s with
      mer := { s.mer with hiLatch := s.mer.ns / 2 ^ 10 / 2 ^ 32 % 2 ^ 32 },
      out := s.out ++ [.readValue (if wide then s.mer.ns / 2 ^ 10 % 2 ^ 64 else s.mer.ns / 2 ^ 10 % 2 ^ 32)] }) ∧
  ((∀ s : State, s.mer.st = .holdover ∨ s.mer.st = .freeRun →
    ∀ bound : Nat, bound = s.mer.lossResid + (s.clk - s.mer.lossAt) * 2000 / 1000000000 + (if s.mer.slewing = true then s.mer.slewLeft else 0) →
      exec .holdoverDriftUpdate s = .next { s with mer := { s.mer with drift := satAt 0xFFFFFFFF bound } }) ∧
  (∀ s : State, s.mer.st = .holdover → 0 < s.mer.holdoverS → s.mer.lossAt + s.mer.holdoverS * 1000000000 ≤ s.clk →
    exec .holdoverExpired s = .next (raiseEvent 0x0202 0x0B00 (leBytes 4 s.mer.drift) (merMove .freeRun 0 s)) ∧
      (merMove .freeRun 0 s).mer = { s.mer with st := .freeRun }) ∧
  (∀ s : State, s.mer.holdoverS = 0 → exec .holdoverExpired s = .next s) ∧
  (∀ s : State, s.mer.slewing = true → s.mer.slewLeft = 0 →
    exec .catchUpEnd s = .next { s with mer := { s.mer with slewing := false, slewHalf := false } })) ∧
  (∀ s : State, s.pending = [] → ∃ t, step s = .next t ∧ t.clk = s.clk + 1 ∧
    (s.mer.running = true → (s.mer.slewing = false ∨ s.mer.slewLeft = 0) → t.mer.ns = (s.mer.ns + 1) % 2 ^ 64) ∧
    (s.mer.running = true → s.mer.slewing = true → 0 < s.mer.slewLeft → s.mer.slewHalf = false → ∃ u, step t = .next u ∧
      u.mer.ns = (s.mer.ns + 1) % 2 ^ 64 ∧ u.clk = s.clk + 2 ∧ u.mer.slewLeft + 1 = s.mer.slewLeft) ∧
    t.jobs = s.jobs ∧ t.sqs = s.sqs ∧ t.cqs = s.cqs ∧ t.slots = s.slots.map (fun x => { x with changed := none }) ∧
    (s.tam.sessionOver = false → t.out = s.out ∧ t.sc = s.sc ∧ ∃ k, t.tok = { s.tok with socket := k }))

/-- PTM: while PTM is enabled and is the source, a request goes out at the dialog interval, and none otherwise; the fourth answer in a row within
200 ns locks and applies the measured offset (a step forward, or a catch-up of a reference that is behind); the third failure in a row while locked,
and the clearing of PTM Enable, lose the reference and enter HOLDOVER. The coax: the third marker in a row at the right spacing locks, a first lock
at the next whole second; one missing marker is counted, and forgiven when the next lies in its place; a second in a row, or no edges, lose the
reference; on another source nothing happens. That the spacing is counted over a run of markers (log 32), and that the place after a missing marker
is reckoned from the last one in place (log 39), is the model's reading. Rests on parts of R39, R40, R41, R44, R133. -/
def Obligations.ReferencesLockAndAreLost : Prop :=
  ((∀ s : State, s.mer.running = true → s.mer.source = 0 → s.mer.ptmEnable = true → s.link.up = true → s.mer.dialogOpen = false →
    s.mer.dialogAt + s.mer.dialogMs * 1000000 ≤ s.clk →
    exec .ptmDialog s = .next { s with mer := { s.mer with dialogOpen := true, dialogAt := s.clk }, out := s.out ++ [.ptmRequest] }) ∧
  (∀ s : State, (s.mer.source ≠ 0 ∨ s.mer.ptmEnable = false) → exec .ptmDialog s = .next s) ∧
  (∀ (residual offset : Int) (s : State), s.mer.dialogOpen = true → s.mer.source = 0 → s.mer.st ≠ .locked → s.mer.good = 3 → residual.natAbs ≤ 200 →
    Does (.ptmResponse (.answered residual offset)) s (fun t => t.mer.st = .locked ∧ t.mer.good = 0 ∧ t.clk = s.clk ∧
      (0 ≤ offset → t.mer.ns = (s.mer.ns + offset.toNat) % 2 ^ 64 ∧ t.mer.slewing = false) ∧
      (offset < 0 → t.mer.ns = s.mer.ns ∧ t.mer.slewing = true ∧ t.mer.slewLeft = (-offset).toNat))) ∧
  (∀ s : State, s.mer.dialogOpen = true → s.mer.source = 0 → s.mer.st = .locked → s.mer.bad = 2 →
    Does (.ptmResponse .failed) s (fun t => t.mer.st = .holdover ∧ t.mer.lossCount = satAt 0xFF (s.mer.lossCount + 1) ∧ t.mer.lossAt = s.clk ∧ t.mer.ns = s.mer.ns)) ∧
  (∀ s : State, s.mer.ptmEnable = true → s.mer.source = 0 → s.mer.st = .locked →
    Does .ptmEnableClear s (fun t => t.mer.st = .holdover ∧ t.mer.ptmEnable = false ∧ t.mer.lossCount = satAt 0xFF (s.mer.lossCount + 1)))) ∧
  ((∀ (m : CoaxMarker) (s : State), onCoax s = true → s.mer.st = .acquiring → s.mer.good = 2 → 9999950 ≤ m.edges → m.edges ≤ 10000050 →
    Does (.coaxMarker m) s (fun t => t.mer.st = .locked ∧ t.mer.ns = (s.mer.ns + (1000000000 - s.mer.ns % 1000000000) % 1000000000) % 2 ^ 64)) ∧
  (∀ s : State, onCoax s = true → s.mer.st = .locked → s.mer.markerMiss = 0 →
    exec .coaxMarkerMissing s = .next { s with mer := { s.mer with markerMiss := 1, good := 0 } }) ∧
  (∀ (m : CoaxMarker) (s : State), onCoax s = true → s.mer.st = .locked → s.mer.markerMiss = 1 → s.mer.markerEdges = 0 → 19999900 ≤ m.edges → m.edges ≤ 20000100 →
    exec (.coaxMarker m) s = .next { s with mer := { s.mer with markerMiss := 0 } }) ∧
  (∀ s : State, onCoax s = true → s.mer.st = .locked → s.mer.markerMiss = 1 → Does .coaxMarkerMissing s (fun t => t.mer.st = .holdover)) ∧
  (∀ s : State, onCoax s = true → s.mer.st = .locked →
    Does .coaxEdgeLoss s (fun t => t.mer.st = .holdover ∧ t.mer.lossCount = satAt 0xFF (s.mer.lossCount + 1) ∧ t.mer.lossAt = s.clk)) ∧
  (∀ (m : CoaxMarker) (s : State), onCoax s = false → exec (.coaxMarker m) s = .next s ∧ exec .coaxMarkerMissing s = .next s ∧ exec .coaxEdgeLoss s = .next s))


/-! ### The link, functions, resets -/

/-- LINK_UP, with power-good asserted, PERST# deasserted and the link down, brings the link up at the width trained, within the part's lanes and the
width of STRAPS.LINK_CAP: x16, x8, and x4 for its two other values; with PERST# asserted, or the link up, it does nothing. A retrain changes no
queue, job or function state: to a lower width or speed it records LINK_DEGRADED, a WARN event, with the new width and speed; back to the full width
it records LINK_RESTORED. The model's choices: the records' source and payload (log 30), and that LINK_RESTORED goes by the width of the first
training (log 31). Rests on parts of R85, R94, R116, R117. -/
def Obligations.LinkComesUpAndRetrains : Prop :=
  (∀ (w speed : Nat) (s : State),
    (∀ cap width : Nat, cap = (if bitsOf s.pwr.straps.toNat 4 2 = 0 then 16 else if bitsOf s.pwr.straps.toNat 4 2 = 1 then 8 else 4) →
      width = min w (min (Config.lanes s.part) cap) → s.pwr.pg = true → s.pwr.perst = false → s.link.up = false →
      exec (.linkUp w speed) s = .next { s with link := { s.link with up := true, width := width, speed := speed, full := width } }) ∧
    (s.pwr.perst = true ∨ s.link.up = true → exec (.linkUp w speed) s = .next s)) ∧
  (∀ (w speed v : Nat) (s u : State) (lower restored : Prop), s.link.up = true → v = min w s.link.full → u = { s with link := { s.link with width := v, speed := speed } } →
    (lower ↔ v < s.link.width ∨ speed < s.link.speed) → (restored ↔ v = s.link.full ∧ s.link.width < s.link.full) →
    (lower → ¬restored → exec (.linkRetrain w speed) s = .next (raiseEvent 0x0108 0x0A00 [byteOf v, byteOf speed] u)) ∧
    (¬lower → restored → exec (.linkRetrain w speed) s = .next (raiseEvent 0x0109 0x0A00 [byteOf v, byteOf speed] u)) ∧
    (lower → restored → exec (.linkRetrain w speed) s =
      .next (raiseEvent 0x0109 0x0A00 [byteOf v, byteOf speed] (raiseEvent 0x0108 0x0A00 [byteOf v, byteOf speed] u))) ∧
    (¬lower → ¬restored → exec (.linkRetrain w speed) s = .next u) ∧
    Does (.linkRetrain w speed) s (fun t => t = { u with alm := t.alm })) ∧
  kindSeverity 0x0108 = some 2

/-- A reset of a function leaves none of its queues and jobs, and its page at reset values with its configuration space kept, which is the model's
choice (log 4). The in-band resets by scope: FLR of a VF resets it with its domain; FLR of PF0 resets PF0 and every VF with the domains that no
slice holds; FLR of PF1 resets every slice; a Hot Reset and a Secondary Bus Reset reset all of them and clear PTM Enable; DL_Down also takes the
link down, with no VF and no slice left. A reset of a function that is still in reset, and all of them while the link is down, do nothing. D3hot
acts as the function's FLR; D0 ends it with configuration space at reset values, which is the model's reading (log 37), READY where the function may
serve and no reset is in progress. The end of a reset lets the function be READY where it may serve; a slice's reset within one of PF1 ends with
that one. Rests on parts of R141, R142, R143, R144. -/
def Obligations.ResetsAndPowerStates : Prop :=
  (∀ (f : Fn) (s : State) (x y : FnState), s.fn? f = some x → y = (resetOne f s).fnOf f →
    (∀ q ∈ (resetOne f s).sqs, q.fn ≠ f) ∧ (∀ q ∈ (resetOne f s).cqs, q.fn ≠ f) ∧ (∀ j ∈ (resetOne f s).jobs, j.fn ≠ f) ∧
    y.cfg = x.cfg ∧ y.busMaster = x.busMaster ∧ y.memSpace = x.memSpace ∧ y.atsEnable = x.atsEnable ∧ y.msixEnable = x.msixEnable ∧ y.fnMask = x.fnMask ∧
    y.unmasked = x.unmasked ∧ y.msixTable = x.msixTable ∧ y.resetting = true ∧ y.ready = false ∧ y.aqEnable = false ∧ y.evr = {} ∧ y.mbx = {} ∧ y.dirty = {} ∧
    (s.waits = [] → x.mbx.inPend = false → y = { resetPage x with fn := f })) ∧
  ((∀ (n : Nat) (x : FnState) (s : State), s.fn? (.vf n) = some x → routed s (.vf n) = true →
    (x.resetting = false → vfLives s n = true → Does (.flrVf n) s (fun t => t = wipeDomains (fun d => domainOf s (.vf n) == some d) (resetOne (.vf n) s) ∧ domainOf s (.vf n) = some n)) ∧
    (x.resetting = true → exec (.flrVf n) s = .next s)) ∧
  (∀ s : State, s.link.up = true → (s.fnOf .pf0).resetting = false →
    exec .flrPf0 s = .next (wipeDomains (fun d => !((resetOne .pf0 (vfsGone s)).slices.any (fun x => x.domain == d))) (resetOne .pf0 (vfsGone s)))) ∧
  (∀ s : State, s.link.up = true → (s.fnOf .pf1).resetting = false →
    exec .flrPf1 s = .next ((s.slices.foldl (fun u x => resetInstance (.slice x.num) u) s).onFn .pf1 (fun x => { x with resetting := true, ready := false }))) ∧
  (∀ s : State, s.link.up = true → ((s.fnOf .pf0).resetting = true → exec .flrPf0 s = .next s) ∧ ((s.fnOf .pf1).resetting = true → exec .flrPf1 s = .next s)) ∧
  (∀ s : State, s.link.up = true → exec .hotReset s = .next (ptmOff (resetAll s)) ∧ exec .secondaryBusReset s = .next (ptmOff (resetAll s)) ∧
    (ptmOff (resetAll s)).mer.ptmEnable = false ∧
    Does .dlDown s (fun t => t.link.up = false ∧ t.link.width = 0 ∧ t.link.vfEnable = false ∧ t.mer.ptmEnable = false ∧ t.slices = [] ∧
      (∀ x ∈ t.fns, x.fn = .pf0 ∨ x.fn = .pf1))) ∧
  (∀ s : State, s.link.up = false → exec .flrPf0 s = .next s ∧ exec .flrPf1 s = .next s ∧ exec .hotReset s = .next s ∧
    exec .secondaryBusReset s = .next s ∧ exec .dlDown s = .next s)) ∧
  ((∀ (n : Nat) (x : FnState) (s : State), s.fn? (.vf n) = some x → x.d3 = false → routed s (.vf n) = true →
    exec (.d3hotEntry (.vf n)) s = .next ((resetInstance (.vf n) s).onFn (.vf n) (fun y => { y with d3 := true, ready := false }))) ∧
  (∀ (x : FnState) (s : State), s.fn? .pf0 = some x → x.d3 = false →
    exec (.d3hotEntry .pf0) s = .next ((resetPf0 s).onFn .pf0 (fun y => { y with d3 := true, ready := false }))) ∧
  (∀ (x : FnState) (s : State), s.fn? .pf1 = some x → x.d3 = false →
    exec (.d3hotEntry .pf1) s = .next ((resetPf1 s).onFn .pf1 (fun y => { y with d3 := true, ready := false }))) ∧
  (∀ (f : Fn) (x : FnState) (s : State), s.fn? f = some x → x.d3 = true → routed s f = true →
    Does (.d0Entry f) s (fun t => t.fn? f = some { resetSpace x with d3 := false, ready := mayServe s f && !x.resetting } ∧ t.sqs = s.sqs ∧
      t.jobs = s.jobs ∧ t.out = s.out)) ∧
  (∀ (f : Fn) (x : FnState) (s : State), s.fn? f = some x → x.resetting = true → s.waits = [] → (∀ n, f = .slice n → (s.fnOf .pf1).resetting = false) →
    Does (.functionResetComplete f) s (fun t => t.fn? f = some { x with resetting := false, ready := mayServe s f && !x.d3 } ∧ t.sqs = s.sqs ∧ t.out = s.out)) ∧
  (∀ (n : Nat) (s : State), (s.fnOf .pf1).resetting = true → exec (.functionResetComplete (.slice n)) s = .next s))

/-- BUS_MASTER_ENABLE_CLEAR ends the jobs of every instance that the function carries and writes no completion: no completion queue of theirs moves
its tail. Each SQ of theirs that had a job stops with reason 0x09 and its head index; every other job stays; none of the instances may issue DMA.
Which of their jobs end, and that only SQs stop, is the model's reading (log 31). MEMORY_SPACE_ENABLE_CLEAR closes the function's BARs and leaves
jobs and everything else alone. VF_ENABLE makes VFs 1 to NumVFs respond; VF_READY makes one READY where it may serve and PF0 is READY;
VF_ENABLE_CLEAR leaves no VF. Rests on parts of R114, R120, R121, R128, R161, R428. -/
def Obligations.EnableBitsOfFunctions : Prop :=
  ((∀ (f : Fn) (s : State), (s.fnOf f).busMaster = true → s.waits = [] → (∀ j ∈ s.jobs, (s.fn? j.fn).isSome = true) →
    Does (.busMasterEnableClear f) s (fun t => (∀ j ∈ t.jobs, carrier j.fn ≠ f) ∧ (∀ g, carrier g = f → mayDma t g = false) ∧
      (∀ g q c, carrier g = f → s.cq? g q = some c → ∃ d, t.cq? g q = some d ∧ d.tail = c.tail ∧ d.st = c.st) ∧
      (∀ j ∈ s.jobs, carrier j.fn = f → ∀ x, s.sq? j.fn j.sq = some x → x.st ≠ .error →
        ∃ y, t.sq? j.fn j.sq = some y ∧ y.st = .error ∧ y.reason = 0x09 ∧ y.latched = x.head ∧ y.head = x.head) ∧
      (∀ j ∈ s.jobs, carrier j.fn ≠ f → (∀ k ∈ s.jobs, k.id = j.id → k = j) → j ∈ t.jobs))) ∧
  (∀ (f : Fn) (s : State), (∀ j ∈ s.jobs, carrier j.fn ≠ f) → (s.fnOf f).busMaster = true →
    Does (.busMasterEnableClear f) s (fun t => t = s.onFn f (fun x => { x with busMaster := false }) ∧ (∀ g, carrier g = f → mayDma t g = false))) ∧
  (∀ (f : Fn) (s : State), (s.fnOf f).busMaster = false → exec (.busMasterEnableClear f) s = .next s) ∧
  (∀ (f : Fn) (s : State), Does (.memorySpaceEnableClear f) s (fun t => t = s.onFn f (fun x => { x with memSpace := false }) ∧
    (∀ g, carrier g = f → barOpen t g = false) ∧ t.jobs = s.jobs ∧ t.out = s.out))) ∧
  ((∀ (n : Nat) (s : State), s.link.up = true → s.link.vfEnable = false → n ≤ 255 →
    exec (.vfEnable n) s = .next { s with link := { s.link with vfEnable := true, numVfs := n, vfEnableAt := s.clk }, fns := s.fns ++ (List.range n).map (fun i => { fn := .vf (i + 1) }) }) ∧
  (∀ (n : Nat) (x : FnState) (s : State), s.fn? (.vf n) = some x → x.resetting = false → x.d3 = false → mayServe s (.vf n) = true → (s.fnOf .pf0).ready = true →
    Does (.vfReady n) s (fun t => t.fn? (.vf n) = some { x with ready := true } ∧ t = s.onFn (.vf n) (fun y => if (y.resetting || y.d3) = true then y else { y with ready := true }))) ∧
  (∀ s : State, Does .vfEnableClear s (fun t => t.link.vfEnable = false ∧ (∀ x ∈ t.fns, ∀ n, x.fn ≠ .vf n))))

/-- A failed read ends what it was for: a job with TRANSLATION_FAULT, an SQ that fetches with reason 0x04; an event ring stops and a dirty log
fails; only a denied translation stops a CQ, with reason 0x13, and its SQs. A poisoned completion and a completion timeout are logged by AER as
well; a timeout does nothing to posted ring writes, and nothing while Completion Timeout Disable is 1. An invalidation drops the translations it
covers and is completed. A pending message of a vector leaves, with its entry's address and data, when the vector is unmasked, and none leaves while
MSI-X Enable is 0; a vector of a page that does not answer is not unmasked. The model's choices: that the other failures log nothing in AER and that
a timeout leaves ring writes alone (log 31), AER's bit numbers 12 and 14 (log 37), and which tail 0x13 latches (log 39). Rests on parts of R122,
R127, R128, R130, R131, R132, R134, R143, R161, R180, R438. -/
def Obligations.DmaFailuresAndMessages : Prop :=
  ((∀ (id : Nat) (why : DmaFail) (j : Job) (s : State), s.job? id = some j → j.phase = .running → j.pastEnd = false → j.failed = none →
    (why ≠ .poisoned → exec (.dmaReadFailure { target := .job id, why := why }) s = .next (failJob j (failEntry j .translationFault (wholeInline j)) s)) ∧
    (why = .poisoned → exec (.dmaReadFailure { target := .job id, why := why }) s = .next (aerFatal j.fn 12 (failJob j (failEntry j .translationFault (wholeInline j)) s))) ∧
    ((s.fnOf (governor j.fn)).cfg.noTimeout = false →
      exec (.completionTimeout (.job id)) s = .next (aerFatal j.fn 14 (failJob j (failEntry j .translationFault (wholeInline j)) s))) ∧
    ((s.fnOf (governor j.fn)).cfg.noTimeout = true → exec (.completionTimeout (.job id)) s = .next s)) ∧
  (∀ (f : Fn) (q : Nat) (why : DmaFail) (x : Sq) (s : State), s.sq? f q = some x → x.st = .enabled → x.arrivals ≠ [] → mayDma s f = true →
    Does (.dmaReadFailure { target := .sqEntry f q, why := why }) s (fun t => t.sq? f q = some { x with st := .error, reason := 0x04, latched := x.head } ∧ t.jobs = s.jobs)) ∧
  (∀ (f : Fn) (q : Nat) (c : Cq) (s : State), s.cq? f q = some c → c.st = .enabled →
    Does (.dmaReadFailure { target := .cqWrite f q, why := .denied }) s (fun t => t.cq? f q = some { c with st := .error, reason := 0x13, latched := c.tail } ∧
      (∀ i x, s.sq? f i = some x → x.cq = q → i ≠ 0xFFFF → ∃ y, t.sq? f i = some y ∧ y.st = .error)) ∧
    exec (.dmaReadFailure { target := .cqWrite f q, why := .unsupportedRequest }) s = .next s) ∧
  (∀ (f : Fn) (why : DmaFail) (x : FnState) (s : State), s.fn? f = some x → why ≠ .poisoned → x.evr.present = true →
    Does (.dmaReadFailure { target := .eventRing f, why := why }) s (fun t => t.fn? f = some { x with evr := { x.evr with stopped := true } } ∧ t.out = s.out)) ∧
  (∀ (f : Fn) (why : DmaFail) (x : FnState) (s : State), s.fn? f = some x → why ≠ .poisoned → x.dirty.enabled = true →
    Does (.dmaReadFailure { target := .dirtyLog f, why := why }) s (fun t => t.fn? f = some { x with dirty := { x.dirty with failed := true } })) ∧
  (∀ (f : Fn) (q : Nat) (s : State), exec (.completionTimeout (.eventRing f)) s = .next s ∧ exec (.completionTimeout (.cqWrite f q)) s = .next s)) ∧
  ((∀ (f : Fn) (itag : Nat) (range : Option AtsRange) (x : FnState) (s : State), s.link.up = true → s.fn? f = some x → routed s f = true →
    Does (.atsInvalidate f { itag := itag, range := range }) s (fun t => t.out = s.out ++ [.atsComplete f itag] ∧
      t.fn? f = some { x with atc := x.atc.filter (fun e => !(invalidated range e)) } ∧ t.jobs = s.jobs ∧ t.sqs = s.sqs)) ∧
  (∀ (f : Fn) (v : Nat) (x : FnState) (s : State), s.fn? f = some x → pageOpen s f = true → x.msixEnable = true → x.fnMask = false → x.unmasked.contains v = false → x.pba = [v] →
    Does (.msixUnmask f (some v)) s (fun t => (∃ h, h.rid = ridOf s f ∧ t.out = s.out ++ [.msix h v (msixEntry x v).1 (msixEntry x v).2]) ∧
      t.fn? f = some { x with unmasked := x.unmasked ++ [v], pba := [] })) ∧
  (∀ (f : Fn) (v : Nat) (x : FnState) (s : State), s.fn? f = some x → pageOpen s f = true → x.msixEnable = false → x.unmasked.contains v = false →
    Does (.msixUnmask f (some v)) s (fun t => t.out = s.out ∧ t.fn? f = some { x with unmasked := x.unmasked ++ [v] })) ∧
  (∀ (f : Fn) (v : Nat) (s : State), pageOpen s f = false → exec (.msixUnmask f (some v)) s = .next s) ∧
  (∀ (f : Fn) (x : FnState) (s : State), s.fn? f = some x → x.msixEnable = false →
    Does (.msixUnmask f none) s (fun t => t.out = s.out ∧ t.fn? f = some { x with fnMask := false })))

/-! ### DOE, SPDM, IDE. The byte layout of the messages is DMTF's and PCIe's, taken as log 21 says -/

/-- The DOE mailbox, once PF0 is READY and while it is not in DOE Error: discovery is answered; GET_VERSION, GET_CAPABILITIES and
NEGOTIATE_ALGORITHMS negotiate a connection in that order, each answer joined with its request to the transcript, and one out of order is refused; a
code without a service is refused; a data object above 16 KiB sets DOE Error. In DOE Error, and before PF0 is READY, nothing is answered; DOE_ABORT
clears the error and the mailbox. On a negotiated connection the digest and any portion of the chain are answered once the certificate bank is
written, CHALLENGE answers the chain's digest with further bytes, and GET_MEASUREMENTS the blocks asked for; before the bank is written CHALLENGE
and GET_CERTIFICATE are refused; none of them changes the connection. The byte layouts are DMTF's and PCIe's (log 21). Rests on parts of R136, R137,
R138. -/
def Obligations.MailboxAndCertificates : Prop :=
  ((∀ (req : Bytes) (s : State), doeOpen s = true → s.doe.error = false → s.doe.mailbox = req → req.length ≤ 16376 →
    Does .getVersion s (fun t => ∃ a, t = { s with doe := { s.doe with version := true, caps := false, algs := false, vca := [0x10, 0x84, 0, 0] ++ a }, out := s.out ++ [.doe a] }) ∧
    (s.doe.version = true → Does .getCapabilities s (fun t => ∃ a,
      t = { s with doe := { s.doe with caps := true, mailbox := [], vca := s.doe.vca ++ req ++ a }, out := s.out ++ [.doe a] })) ∧
    (s.doe.version = false → exec .getCapabilities s = .next { s with doe := { s.doe with mailbox := [] }, out := s.out ++ [.spdmError 0x04] }) ∧
    (s.doe.caps = true → Does .negotiateAlgorithms s (fun t => ∃ a,
      t = { s with doe := { s.doe with algs := true, mailbox := [], vca := s.doe.vca ++ req ++ a }, out := s.out ++ [.doe a] })) ∧
    (s.doe.caps = false → exec .negotiateAlgorithms s = .next { s with doe := { s.doe with mailbox := [] }, out := s.out ++ [.spdmError 0x04] }) ∧
    (∀ i : Nat, exec (.doeDiscovery i) s = .next { s with out := s.out ++ [.doe (discovery i)] }) ∧
    (∀ code : Nat, exec (.spdmUnsupportedRequest code) s = .next { s with out := s.out ++ [.doe [0x12, 0x7F, 0x07, byteOf code]] })) ∧
  (∀ (req : Bytes) (s : State), doeOpen s = true → s.doe.error = false → 16376 < req.length →
    (s.doe.mailbox = req → exec .getCapabilities s = .next { s with doe := { s.doe with error := true } }) ∧
    exec (.keyExchange req) s = .next { s with doe := { s.doe with error := true } }) ∧
  (∀ s : State, doeOpen s = true → exec .doeAbort s = .next { s with doe := { s.doe with error := false, mailbox := [] } }) ∧
  (∀ s : State, doeOpen s = false ∨ s.doe.error = true → exec .getVersion s = .next s ∧ exec .getCapabilities s = .next s ∧
    exec .negotiateAlgorithms s = .next s ∧ exec .getDigests s = .next s ∧ exec (.doeDiscovery 0) s = .next s)) ∧
  (∀ (nonce : Bytes) (s : State), doeOpen s = true → s.doe.error = false → s.doe.algs = true → nonce.length ≤ 16371 →
    (s.sc.certBank = true → exec .getDigests s = .next { s with out := s.out ++ [.doe ([0x12, 0x01, 0, 1] ++ sha384 Config.spdmChain)] } ∧
      (∀ off len : Nat, Does (.getCertificate off len) s (fun t => ∃ hd, hd.length = 8 ∧ t = { s with out := s.out ++ [.doe (hd ++ sliceOf Config.spdmChain off len)] })) ∧
      Does (.spdmChallenge nonce) s (fun t => t.doe = s.doe ∧ t.sc = s.sc ∧
        ∃ r, t.out = s.out ++ [.doe ([0x12, 0x03, 0, 1] ++ (sha384 Config.spdmChain ++ r))])) ∧
    (s.sc.certBank = false → exec .getDigests s = .next { s with out := s.out ++ [.doe [0x12, 0x01, 0, 0]] } ∧
      (∀ off len : Nat, exec (.getCertificate off len) s = .next { s with out := s.out ++ [.spdmError 0x01] }) ∧
      exec (.spdmChallenge nonce) s = .next { s with out := s.out ++ [.spdmError 0x01] }) ∧
    Does (.getMeasurements 0xFF false nonce) s (fun t => t.doe = s.doe ∧ ∃ hd r, hd.length = 8 ∧
      t.out = s.out ++ [.doe (hd ++ ((measurements s).flatten ++ r))]) ∧
    (∀ i : Nat, i < 6 → Does (.getMeasurements (i + 1) false nonce) s (fun t => t.doe = s.doe ∧ ∃ b hd r, (measurements s)[i]? = some b ∧
      hd.length = 8 ∧ t.out = s.out ++ [.doe (hd ++ (b ++ r))])) ∧
    exec (.getMeasurements 7 false nonce) s = .next { s with out := s.out ++ [.spdmError 0x01] })

/-- While the mailbox answers: a KEY_EXCHANGE on slot 0 with a point of the curve starts session 0 where none stands, and a third session is
refused; a FINISH with the right MAC establishes its session, one with another MAC ends it; END_SESSION ends an established one, and so does a
record in the mailbox that does not open under the session's keys; where a session ends, the streams it programmed are Insecure. IDE key management
acts only inside an established session: KEY_PROG holds a key set's key and IV, of 32 and 8 bytes, and no others; K_SET_GO puts a programmed key set
in use, and the stream is Secure when every sub-stream has one in both directions; K_SET_STOP, and an integrity failure, make it Insecure, and a job
that loses its read with the failing TLP meets a failed read; QUERY only answers. The model's choices: the byte layouts, which are DMTF's and PCIe's
(log 21), and that with an empty mailbox a request stands for a record that opens to it (log 39). Rests on parts of R137, R139, R140. -/
def Obligations.SessionsAndIdeStreams : Prop :=
  ((∀ (req : Bytes) (s : State), doeOpen s = true → s.doe.error = false → req.length ≤ 16376 → s.doe.algs = true → s.sc.certBank = true →
    (byteAt req 3 = 0 → s.doe.sessions = [] → (spdmAgree (exchangeData req) s).isSome = true →
      Does (.keyExchange req) s (fun t => t.doe.sessions = [(0, false)] ∧ t.doe.streams = s.doe.streams ∧ t.sc = s.sc ∧ ∃ a, t.out = s.out ++ [.doe a])) ∧
    (byteAt req 3 = 0 → s.doe.sessions = [] → spdmAgree (exchangeData req) s = none → exec (.keyExchange req) s = .next { s with out := s.out ++ [.spdmError 0x01] }) ∧
    (∀ a b : Bool, byteAt req 3 = 0 → s.doe.sessions = [(0, a), (1, b)] → exec (.keyExchange req) s = .next { s with out := s.out ++ [.spdmError 0x0A] })) ∧
  (∀ (n : Nat) (mac : Bytes) (s : State), doeOpen s = true → s.doe.error = false → mac.length ≤ 16372 → s.doe.mailbox = [] → s.doe.sessions.contains (n, false) = true →
    (mac = finishMac s n →
      Does (.finish n mac) s (fun t => t.doe.sessions = s.doe.sessions.map (fun x => if x.1 = n then (n, true) else x) ∧ t.doe.streams = s.doe.streams)) ∧
    (mac ≠ finishMac s n → Does (.finish n mac) s (fun t => (∀ x ∈ t.doe.sessions, x.1 ≠ n) ∧ (∀ x ∈ t.doe.streams, x.session = n → x.secure = false)))) ∧
  (∀ (n : Nat) (s : State), doeOpen s = true → s.doe.error = false → s.doe.sessions.contains (n, true) = true →
    s.doe.mailbox = [] ∨ openRequest (secretsOf s n) s.doe.mailbox = none ∨ openRequest (secretsOf s n) s.doe.mailbox = some [0x12, 0xEC, 0, 0] →
    Does (.endSession n) s (fun t => (∀ x ∈ t.doe.sessions, x.1 ≠ n) ∧ (∀ x ∈ t.doe.streams, x.session = n → x.secure = false) ∧ t.doe.mailbox = [] ∧
      (s.doe.mailbox ≠ [] → openRequest (secretsOf s n) s.doe.mailbox = none → t.out = s.out ++ [.spdmError 0x06]))) ∧
  (∀ (n : Nat) (s : State), doeOpen s = true → s.doe.error = false → s.doe.sessions.contains (n, true) = false →
    exec (.endSession n) s = .next { s with out := s.out ++ [.spdmError 0x02] })) ∧
  ((∀ (n : Nat) (p : IdeSlot) (s : State), doeOpen s = true → s.doe.error = false → s.doe.mailbox = [] → s.doe.sessions.contains (n, true) = true → p.keySet ≤ 1 → p.sub ≤ 2 → p.stream ≤ 255 →
    s.doe.streams = [] →
    (p.key.length = 32 → p.iv.length = 8 → Does (.ideKmKeyProg n p) s (fun t => t.doe.streams =
      [{ id := p.stream, session := n, keys := [(p.keySet, p.sub, p.rx)], mats := [((p.keySet, p.sub, p.rx), p.key, p.iv)] }] ∧ t.out.length = s.out.length + 1)) ∧
    (p.key.length ≠ 32 ∨ p.iv.length ≠ 8 → Does (.ideKmKeyProg n p) s (fun t => t.doe.streams = [] ∧ t.out.length = s.out.length + 1)) ∧
    Does (.ideKmQuery n) s (fun t => t.doe.streams = s.doe.streams ∧ t.doe.sessions = s.doe.sessions ∧ t.out = s.out ++ [.doe (sealAnswer (secretsOf s n) (vendorMsg 0x7E [1, 0, 8]))])) ∧
  (∀ (n : Nat) (p : IdeSlot) (x : IdeStream) (s : State), doeOpen s = true → s.doe.error = false → s.doe.mailbox = [] → s.doe.sessions.contains (n, true) = true → s.doe.streams = [x] →
    x.id = p.stream → x.keys.contains (p.keySet, p.sub, p.rx) = true →
    Does (.ideKmKSetGo n p) s (fun t => ∃ y, t.doe.streams = [y] ∧ y.active.contains (p.keySet, p.sub, p.rx) = true ∧ y.secure = allActive y ∧ y.keys = x.keys) ∧
    (x.active.contains (p.keySet, p.sub, p.rx) = true →
      Does (.ideKmKSetStop n p) s (fun t => ∃ y, t.doe.streams = [y] ∧ y.active.contains (p.keySet, p.sub, p.rx) = false ∧ y.secure = false))) ∧
  (∀ (n : Nat) (p : IdeSlot) (s : State), doeOpen s = true → s.doe.error = false → s.doe.sessions.contains (n, true) = false →
    exec (.ideKmKeyProg n p) s = .next { s with out := s.out ++ [.spdmError 0x02] } ∧ exec (.ideKmQuery n) s = .next { s with out := s.out ++ [.spdmError 0x02] } ∧
    exec (.ideKmKSetGo n p) s = .next { s with out := s.out ++ [.spdmError 0x02] } ∧ exec (.ideKmKSetStop n p) s = .next { s with out := s.out ++ [.spdmError 0x02] }) ∧
  (∀ (x : IdeStream) (u s : State), s.doe.streams = [x] → x.secure = true → u = { s with doe := { s.doe with streams := [{ x with secure := false }] } } →
    exec (.ideIntegrityFailure { stream := x.id }) s = .next u ∧
    (∀ id, exec (.ideIntegrityFailure { stream := x.id, lost := some id }) s = .next (jobDmaFault id u))))

/-! ### Rings, queues, the Orrery -/

/-- R149: for head h and tail t of a ring of depth N, both in range, the number of entries E is (t − h) mod 2N on their positions; E = 0 exactly
when all 17 bits are equal, and E = N exactly when the slots are equal and the wrap bits differ. -/
def Obligations.RingOccupancyIsModular : Prop :=
  ∀ n h t : Nat, 0 < n → n ≤ 65536 → h < 131072 → t < 131072 → h % 65536 < n → t % 65536 < n →
    ((idxDist n h t : Int) = ((idxPos n t : Int) - (idxPos n h : Int)) % (2 * (n : Int))) ∧
    idxPos n t = t / 65536 * n + t % 65536 ∧
    (idxDist n h t = 0 ↔ h = t) ∧ (idxDist n h t = n ↔ h % 65536 = t % 65536 ∧ h / 65536 ≠ t / 65536)

/-- R150: an SQ-tail doorbell that reaches its queue, not in ERROR, takes the first outcome that applies, on the low 17 bits of what was written:
out of range, overfill, regress, no effect where it is the tail already, or the new tail with the entries up to it visible. The head never moves. -/
def Obligations.TailDoorbellTakesTheFirstOutcome : Prop :=
  ∀ (w : RegAccess) (f : Fn) (q n v : Nat) (x : Sq) (s : State), doorbellAt s w = some (f, q, false) → serves s f = true → barOpen s f = true → s.sq? f q = some x →
    x.st ≠ .error → n = 2 ^ x.log2 → v = w.value % 131072 →
    Does (.sqTailDoorbell w) s (fun t =>
      (n ≤ v % 65536 → t.sq? f q = some { x with st := .error, reason := 0x01, latched := v }) ∧
      (v % 65536 < n → n < idxDist n x.head v → t.sq? f q = some { x with st := .error, reason := 0x02, latched := v }) ∧
      (v % 65536 < n → idxDist n x.head v ≤ n → idxDist n x.head v < idxDist n x.head x.tail →
        t.sq? f q = some { x with st := .error, reason := 0x03, latched := v }) ∧
      (v % 65536 < n → idxDist n x.head v ≤ n → idxDist n x.head x.tail ≤ idxDist n x.head v →
        t = s.onSq f q (fun y => { y with tail := v, arrivals := y.arrivals ++ List.replicate (idxDist n x.tail v) s.clk }) ∧ (v = x.tail → t = s)))

/-- A CQ-head doorbell that reaches its queue, not in ERROR, takes the first outcome that applies, on the low 17 bits of what was written: out of
range, beyond the entries written and not released, or the new head, after which held completions go into the free slots. A doorbell write to a
queue in ERROR, to a pair with no such queue, or of another width than 32 bits changes nothing. Rests on parts of R123, R148, R151, R152, R157,
R161. -/
def Obligations.HeadDoorbellsAndIgnoredOnes : Prop :=
  (∀ (w : RegAccess) (f : Fn) (q n v : Nat) (c : Cq) (s : State), doorbellAt s w = some (f, q, true) → serves s f = true → barOpen s f = true → s.cq? f q = some c →
    c.st ≠ .error → n = 2 ^ c.log2 → v = w.value % 131072 →
    Does (.cqHeadDoorbell w) s (fun t =>
      (n ≤ v % 65536 → t.cq? f q = some { c with st := .error, reason := 0x11, latched := v }) ∧
      (v % 65536 < n → idxDist n c.head c.tail < idxDist n c.head v → t.cq? f q = some { c with st := .error, reason := 0x12, latched := v }) ∧
      (v % 65536 < n → idxDist n c.head v ≤ idxDist n c.head c.tail → t = drainCq f q (s.onCq f q (fun y => { y with head := v })) ∧
        (c.held = [] → c.episode = false → t = s.onCq f q (fun y => { y with head := v }))))) ∧
  ((∀ (w : RegAccess) (f : Fn) (q : Nat) (x : Sq) (s : State), doorbellAt s w = some (f, q, false) → s.sq? f q = some x → x.st = .error →
    exec (.sqTailDoorbell w) s = .next s) ∧
  (∀ (w : RegAccess) (f : Fn) (q : Nat) (c : Cq) (s : State), doorbellAt s w = some (f, q, true) → s.cq? f q = some c → c.st = .error →
    exec (.cqHeadDoorbell w) s = .next s) ∧
  (∀ (w : RegAccess) (f : Fn) (q : Nat) (s : State), doorbellAt s w = some (f, q, false) → s.sq? f q = none → exec (.sqTailDoorbell w) s = .next s) ∧
  (∀ (w : RegAccess) (f : Fn) (q : Nat) (s : State), doorbellAt s w = some (f, q, true) → s.cq? f q = none → exec (.cqHeadDoorbell w) s = .next s) ∧
  (∀ (w : RegAccess) (s : State), w.width ≠ 32 → exec (.sqTailDoorbell w) s = .next s ∧ exec (.cqHeadDoorbell w) s = .next s))

/-- R168: a write of AQ_SIZE with ENABLE = 1 is refused when a depth field lies outside 1 to 12 or a base is 0: ENABLE stays 0 and CONFIG_ERR reads
1. It is discarded while READY is 0. An accepted one clears CONFIG_ERR and starts both rings empty, the admin CQ signalled on vector 0 with K = 1
and T = 0. -/
def Obligations.AdminQueueEnable : Prop :=
  ∀ (f : Fn) (v : Word) (x : FnState) (s : State) (sl cl : Nat), s.fn? f = some x → x.aqEnable = false → bitOf v.toNat 31 = true →
    sl = bitsOf v.toNat 0 5 → cl = bitsOf v.toNat 8 5 →
    (serves s f = false → exec (.aqEnable f v) s = .next s) ∧
    (serves s f = true → aqOpen s f = true → (sl < 1 ∨ 12 < sl ∨ cl < 1 ∨ 12 < cl ∨ x.aqSqBase = 0 ∨ x.aqCqBase = 0) →
      Does (.aqEnable f v) s (fun t => (t.fnOf f).aqEnable = false ∧ (t.fnOf f).aqConfigErr = true ∧ t.sqs = s.sqs ∧ t.cqs = s.cqs)) ∧
    (serves s f = true → aqOpen s f = true → 1 ≤ sl → sl ≤ 12 → 1 ≤ cl → cl ≤ 12 → x.aqSqBase ≠ 0 → x.aqCqBase ≠ 0 →
      Does (.aqEnable f v) s (fun t => (t.fnOf f).aqEnable = true ∧ (t.fnOf f).aqConfigErr = false ∧
        t.sqs = s.sqs ++ [{ fn := f, id := 0xFFFF, base := x.aqSqBase.toNat, log2 := sl, cq := 0xFFFF, head := 0, tail := 0 }] ∧
        t.cqs = s.cqs ++ [{ fn := f, id := 0xFFFF, base := x.aqCqBase.toNat, log2 := cl, credits := 2 ^ cl, vector := 0, k := 1, t := 0, head := 0, tail := 0 }]))

/-- A completion entry, but one of a job's own fixed bytes, is 32 bytes with the tag first and, last, the inverse of the tail's wrap bit. It is
written into the ring slot at the tail where the ring has a free slot, under the instance's routing ID and PASID; the tail then advances, the head
and the credits stay. Where a job ends, with its completion written, held or none at all, its CQ accounts for as many credits as before: each is
free, a held completion's, or that of a job that has not ended. The event ring's head releases records, or stops the ring where it is out of range
or overruns; a read of EVR_DROPPED that reaches the function returns the count and clears it; the interrupt timer signals once T Transits have
passed since the first entry not yet signalled, and does nothing without a T or such an entry. Rests on parts of R125, R151, R153, R156, R157, R166,
R180, R195. -/
def Obligations.CompletionEntriesAndInterrupts : Prop :=
  ((∀ (s : State) (c : Completion) (late : Bool) (sq head tail : Nat), c.fixed = none →
    (entryBytes s c late sq head tail).length = 32 ∧ (entryBytes s c late sq head tail).getLast? = some (byteOf (1 - tail / 65536 % 2)) ∧
    (entryBytes s c late sq head tail).take 4 = leBytes 4 c.tag) ∧
  (∀ (f : Fn) (q : Nat) (b : Bytes) (sig : Bool) (c : Cq) (s : State), s.cq? f q = some c → idxDist (2 ^ c.log2) c.head c.tail < 2 ^ c.log2 →
    (∃ h : Tlp, h.rid = ridOf s f ∧ h.pasid = pasidOf s f ∧ LinkMsg.memWrite h (c.base + c.tail % 65536 * 32) b ∈ (putEntry f q b sig s).out) ∧
    ∃ d, (putEntry f q b sig s).cq? f q = some d ∧ d.tail = idxNext (2 ^ c.log2) c.tail ∧ d.head = c.head ∧ d.credits = c.credits) ∧
  (∀ (j x : Job) (c : Completion) (q : Cq) (s : State), HeldOk s → s.job? j.id = some x → x.phase ≠ .done → x.fn = j.fn → x.cq = j.cq → x.credit = j.credit →
    s.cq? j.fn j.cq = some q → creditSum (deliver j c s) j.fn j.cq = creditSum s j.fn j.cq) ∧
  (∀ (id : Nat) (j : Job) (q : Cq) (s : State), HeldOk s → s.job? id = some j → j.phase ≠ .done → s.cq? j.fn j.cq = some q →
    creditSum (dropJob id s) j.fn j.cq = creditSum s j.fn j.cq)) ∧
  ((∀ (f : Fn) (v : Word) (x : FnState) (s : State) (n i : Nat), s.fn? f = some x → x.evr.present = true → x.evr.stopped = false → pageOpen s f = true →
    n = 2 ^ x.evr.log2 → i = v.toNat % 131072 → Does (.evrHead f v) s (fun t =>
      (i % 65536 < n → idxDist n x.evr.head i ≤ idxDist n x.evr.head x.evr.tail → t.fn? f = some { x with evr := { x.evr with head := i } }) ∧
      ((n ≤ i % 65536 ∨ idxDist n x.evr.head x.evr.tail < idxDist n x.evr.head i) → t.fn? f = some { x with evr := { x.evr with stopped := true } }))) ∧
  (∀ (f : Fn) (x : FnState) (s : State), s.fn? f = some x → barOpen s f = true → x.resetting = false →
    Does (.evrDroppedRead f) s (fun t => t.out = s.out ++ [.readValue x.evr.droppedReg] ∧ t.fn? f = some { x with evr := { x.evr with droppedReg := 0 } })) ∧
  (∀ (f : Fn) (q t0 : Nat) (c : Cq) (s : State), s.cq? f q = some c → c.firstUnsig = some t0 → 0 < c.t → t0 + 1024 * c.t ≤ s.clk →
    exec (.cqInterruptTimer f q) s = .next (signal f c.vector (s.onCq f q (fun y => { y with sinceSig := 0, firstUnsig := none })))) ∧
  (∀ (f : Fn) (q : Nat) (c : Cq) (s : State), s.cq? f q = some c → (c.t = 0 ∨ c.firstUnsig = none) → exec (.cqInterruptTimer f q) s = .next s))

/-- A fetch from an SQ that may fetch reads the entry at its head: a failed read, or an entry that breaks an entry reason, stops the queue with the
head on that entry and runs nothing; any other entry is accepted, the head moves past it and a job starts. Rests on parts of R146, R161, R162, R189. -/
def Obligations.FetchAcceptsOrStops : Prop :=
  ∀ (f : Fn) (q : Nat) (b : BlockIn) (x : Sq) (s v : State), s.sq? f q = some x → canFetch s f x = true → v = postRead f (x.base + x.head % 65536 * 64) 64 s →
    (v.sqs = s.sqs ∧ v.jobs = s.jobs) ∧
    (Does (.sqFetch f q { entry := none, block := b }) s (fun t => t.sq? f q = some { x with st := .error, reason := 0x04, latched := x.head } ∧ t.jobs = s.jobs)) ∧
    (∀ (e : Bytes) (r : Nat), entryReason v f q (sliceZ e 0 64) = r → r ≠ 0 →
      Does (.sqFetch f q { entry := some e, block := b }) s (fun t => t.sq? f q = some { x with st := .error, reason := r, latched := x.head } ∧ t.jobs = s.jobs)) ∧
    (∀ e : Bytes, entryReason v f q (sliceZ e 0 64) = 0 →
      Does (.sqFetch f q { entry := some e, block := b }) s (fun t => t = acceptEntry f x (sliceZ e 0 64) b v ∧ t.nextJob = s.nextJob + 1 ∧
        ∃ y, t.sq? f q = some y ∧ y.head = idxNext (2 ^ x.log2) x.head ∧ y.arrivals = x.arrivals.drop 1))

/-- Step 5 takes its items in order, each only after the one before: (a) the job's budget tokens, (b) its place in the domain's quota and under the
device limit, (c) a completion credit, (d) its staging, and then the job is ready. Where an item cannot be taken the job takes nothing further, and
what it waits for is noted; where staging ends it, it completes with that status. A slot in RETIRING that no job references is freed, its material
gone and its generation kept. Rests on parts of R22, R26, R50, R52, R156, R218, R221, R511. -/
def Obligations.ReservationTakesItemsInOrder : Prop :=
  (∀ (id : Nat) (j : Job) (need : List (Pool × Nat)) (s : State), s.job? id = some j → j.failed = none → j.phase = .waitTokens → need = jobTokens s j.cls j.desc j.block →
    (need ≠ [] → tokensFree s j need = false → exec (.jobReserve id) s = .next (s.onJob id (fun y => { y with late0 := { y.late0 with budget := true } }))) ∧
    (need = [] ∨ tokensFree s j need = true → exec (.jobReserve id) s = exec (.jobReserve id) ((spendTokens s j need).onJob id (fun y => { y with phase := .waitPlace })))) ∧
  (∀ (id mine all : Nat) (j : Job) (s : State), s.job? id = some j → j.failed = none → j.phase = .waitPlace →
    mine = (s.jobs.filter (fun x => x.inPlace && x.domain == j.domain)).length → all = (s.jobs.filter (fun x => x.inPlace)).length →
    (inflightQuota s j.domain ≤ mine ∨ 8192 ≤ all → exec (.jobReserve id) s = .next (s.onJob id (fun y => { y with late0 := { y.late0 with resource := true } }))) ∧
    (mine < inflightQuota s j.domain → all < 8192 → exec (.jobReserve id) s = exec (.jobReserve id) (s.onJob id (fun y => { y with inPlace := true, phase := .waitCredit })))) ∧
  (∀ (id : Nat) (j : Job) (c : Cq) (s : State), s.job? id = some j → j.failed = none → j.phase = .waitCredit → s.cq? j.fn j.cq = some c →
    (c.credits = 0 → exec (.jobReserve id) s = .next (s.onJob id (fun y => { y with late0 := { y.late0 with cqFull := true } }))) ∧
    (0 < c.credits → exec (.jobReserve id) s = exec (.jobReserve id) ((s.onCq j.fn j.cq (fun y => { y with credits := y.credits - 1 })).onJob id
      (fun y => { y with credit := true, phase := .waitStaging })))) ∧
  (∀ (id : Nat) (j : Job) (s : State), s.job? id = some j → j.failed = none → j.phase = .waitStaging →
    (stageJob j s = .wait → exec (.jobReserve id) s = .next (s.onJob id (fun y => { y with late0 := { y.late0 with resource := true } }))) ∧
    (∀ st, stageJob j s = .fail st → exec (.jobReserve id) s = .next (failJob j (failEntry j st []) s)) ∧
    (∀ v, stageJob j s = .took v → exec (.jobReserve id) s = .next (v.onJob id (fun y => { y with phase := .ready })))) ∧
  (∀ (i : Nat) (x : Slot) (s : State), s.slot? i = some x → x.st = .retiring → slotRefs s x = 0 → s.waits = [] → s.jobs = [] →
    Does (.slotRetired i) s (fun t => t = zeroSlot i s ∧ t.slot? i = some (freeSlot x) ∧ (freeSlot x).material = [] ∧ (freeSlot x).gen = x.gen))

/-- A ready job that is next in its pools, finds its units and passes the checks at dispatch runs on them; a preempted one resumes; where a job is
not next, or finds no units, nothing changes. A preemption saves the jobs that hold what the ready one lacks, where each stands at a preemption
point, and dispatches it; where none can be saved for it, or one is not at its point, nothing changes. A job out of covered rounds takes a further
token: its deadline grows by D and it waits in the order again; without a token it waits. The model's choices: that JOB_PREEMPT names one of the
jobs that are saved, with the dispatch of the other (log 14); that a job on engines is saved only where the store has room for its contexts (log
37); and that a suspended class's job may take a unit that no unsuspended job can use (log 39). Rests on parts of R23, R24, R54, R60, R207, R276. -/
def Obligations.DispatchPreemptionTokens : Prop :=
  ((∀ (id : Nat) (d : DispatchIn) (j : Job) (us : List Nat) (s : State), s.job? id = some j → j.phase = .ready → isNextUp s j = true → placeUnits s j d.units = some us →
    dispatchStop s j = none → d.memErr = none → d.ctxTagBad = false → (inputOf j.desc d.input d.inList).2 = none →
    Does (.jobDispatch id d) s (fun t => t = startJob j us d s ∧ ∃ k, t.job? id = some k ∧ k.phase = .running ∧ k.units = us ∧ k.desc = j.desc ∧ k.deadline = j.deadline)) ∧
  (∀ (id : Nat) (d : DispatchIn) (j : Job) (us : List Nat) (s : State), s.job? id = some j → j.phase = .preempted → isNextUp s j = true → placeUnits s j d.units = some us →
    d.memErr = none → d.ctxTagBad = false →
    Does (.jobDispatch id d) s (fun t => t = resumeJob j us d s ∧ ∃ k, t.job? id = some k ∧ k.phase = .running ∧ k.units = us ∧ k.rnd = j.rnd)) ∧
  (∀ (id : Nat) (d : DispatchIn) (j : Job) (s : State), s.job? id = some j → (isNextUp s j = false ∨ placeUnits s j d.units = none ∨ isReady j = false) →
    exec (.jobDispatch id d) s = .next s)) ∧
  ((∀ (victim by_ : Nat) (d : DispatchIn) (b : Job) (vs : List Nat) (s t : State), s.job? by_ = some b → mayPreempt s b = true → roomFor s b = some (vs, t) →
    ((∀ i ∈ vs, ∀ v, s.job? i = some v → atPoint s v = true) → victim ∈ vs → exec (.jobPreempt victim by_ d) s = .next (dispatchJob by_ d t)) ∧
    ((victim ∉ vs ∨ ∃ i ∈ vs, ∃ v, s.job? i = some v ∧ atPoint s v = false) → exec (.jobPreempt victim by_ d) s = .next s)) ∧
  (∀ (victim by_ : Nat) (d : DispatchIn) (b : Job) (s : State), s.job? by_ = some b → (mayPreempt s b = false ∨ roomFor s b = none) → exec (.jobPreempt victim by_ d) s = .next s) ∧
  (∀ (v : Job) (s : State), s.job? v.id = some v → ∃ k, (saveJob v s).job? v.id = some k ∧ k.phase = .preempted ∧ k.deadline = v.deadline ∧ k.credit = v.credit) ∧
  (∀ (id : Nat) (j : Job) (s : State), s.job? id = some j → j.phase = .overrun → tokensFree s j ((orderPools j).map (fun p => (p, 1))) = true →
    Does (.overrunToken id) s (fun t => t.job? id = some { j with phase := .preempted, deadline := j.deadline + deadlineOf s j.cls, extra := j.extra + 1 } ∧ t.out = s.out)) ∧
  (∀ (id : Nat) (j : Job) (s : State), s.job? id = some j → j.phase = .overrun → tokensFree s j ((orderPools j).map (fun p => (p, 1))) = false →
    exec (.overrunToken id) s = .next (s.onJob id (fun y => { y with late0 := { y.late0 with budget := true } }))))

/-! ### Admin commands -/

/-- Each admin command that passes the shared checks runs its own list of checks and its work once, and answers on the admin CQ with status, tag,
BYTES and INLINE, or waits; a failure changes nothing but the queue's entry and the completion. The shared checks, in order: an opcode of no table
(0x01); an unconfigured module (0x40); a reserved byte that is not 0 (0x02). The order of 0x40 after 0x01 is the model's reading (log 10). Rests on
parts of R108, R146, R169, R170, R171. -/
def Obligations.AdminCommandsPassTheGateAndAnswer : Prop :=
  (AdminRow .identify 0x0100 adminIdentify ∧ AdminRow .createCq 0x0200 adminCreateCq ∧ AdminRow .createSq 0x0300 adminCreateSq ∧
  AdminRow .destroySq 0x0400 adminDestroySq ∧ AdminRow .destroyCq 0x0500 adminDestroyCq ∧ AdminRow .abortJob 0x0600 adminAbortJob ∧
  AdminRow .getLogQueueStatus 0x0701 (adminLog queueStatusBytes) ∧ AdminRow .getLogPoolStatus 0x0702 (adminLog (fun s _ => poolStatusBytes s)) ∧
  AdminRow .setEventRing 0x0800 adminSetRing ∧ AdminRow .monitorSnapshot 0x0900 adminSnapshot ∧
  AdminRow .slotInfo 0x0A01 adminSlotInfo ∧ AdminRow .domainInfo 0x0A02 adminDomainInfo ∧ AdminRow .keyAdminErase 0x0A03 adminErase ∧
  AdminRow .eraseDomain 0x0A04 adminEraseDomain ∧ AdminRow .anchorInfo 0x0A05 adminAnchorInfo ∧
  AdminRow (fun a => .attestChallenge (.admin a)) 0x0B01 adminChallenge ∧ AdminRow (fun a => .attestQuote (.admin a)) 0x0B02 adminQuote ∧
  AdminRow (fun a => .attestIdentity (.admin a)) 0x0B03 adminIdentity ∧ AdminRow .aumSubmit 0x0C00 adminAum ∧ AdminRow .dbgCertSubmit 0x0D00 adminCert ∧
  AdminRow .quiesce 0x1000 adminQuiesce ∧ AdminRow .quiesceResume 0x1001 adminResume ∧ AdminRow .saveState 0x1100 adminSave ∧
  AdminRow .restoreState 0x1200 adminRestore ∧ AdminRow .dirtyLogDisable 0x1300 (adminDirtyEnd true) ∧ AdminRow .dirtyLogEnable 0x1301 adminDirtyEnable ∧
  AdminRow .dirtyLogSync 0x1302 (adminDirtyEnd false) ∧ AdminRow .sliceCreate 0x1400 adminSliceCreate ∧
  AdminRow .sliceReset 0x1500 (adminSliceReset .sliceReset) ∧ AdminRow .sliceDestroy 0x1600 (adminSliceReset .sliceDestroy)) ∧
  (∀ (a : AdminIn) (e : Bytes) (q : Sq) (s : State), s.sq? a.fn 0xFFFF = some q → adminCanStart s a.fn q = true → a.entry = some e → e.length = 64 → rowCode e = none →
    (adminOp (aOp e) = false → exec (.identify a) s = .next (writeCompletion a.fn 0xFFFF none false
      { tag := aTag e, status := .malformedDescriptor, inline := [0x01] } (entryTaken a.fn s))) ∧
    (adminOp (aOp e) = true → aOp e < 16 → s.eph.configured = false → unconfOk e = false → exec (.identify a) s = .next (writeCompletion a.fn 0xFFFF none false
      { tag := aTag e, status := .algorithmDisabled, inline := [0x40] } (entryTaken a.fn s))) ∧
    (adminOp (aOp e) = true → aOp e < 16 → s.eph.configured = true → reservedOk e = false → exec (.identify a) s = .next (writeCompletion a.fn 0xFFFF none false
      { tag := aTag e, status := .malformedDescriptor, inline := [0x02] } (entryTaken a.fn s))))

/-- What the queue commands do when their checks pass: IDENTIFY writes 64 bytes to its buffer; CREATE_CQ adds the completion queue of the entry;
CREATE_SQ adds an empty submission queue bound to an existing CQ within the domain's quota; DESTROY_SQ of a drained queue without jobs removes it;
DESTROY_CQ removes a CQ that no job SQ is bound to, and fails with 0x0B where one is; ABORT_JOB of a tag that no job has answers 0 and changes
nothing; SET_EVENT_RING with address 0 removes the ring. That last clause, BYTES, and an INLINE of 0 for a tag that no job has are the model's
choices (log 10). Rests on parts of R172, R173, R174, R176, R178. -/
def Obligations.QueueCommandsActOnTheirQueue : Prop :=
  (∀ (e : Bytes) (a : AdminIn) (s : State), 64 ≤ aBufLen e → a.writeOk = true →
    adminIdentify e a s = .ok 64 [] (writeOut a.fn (aBuf e) (identifyBytes s a.fn) s) ∧ (identifyBytes s a.fn).length = 64) ∧
  (∀ (e : Bytes) (a : AdminIn) (s : State) (id n : Nat), id = fieldLE e 24 2 → n = byteAt e 26 → id < qpIds s a.fn → s.cq? a.fn id = none → 1 ≤ n → n ≤ 16 →
    aBuf e % 4096 = 0 → aBufLen e = 32 * 2 ^ n → vectorOk s a.fn (fieldLE e 28 2) = true → qpTotal s < 65536 →
    adminCreateCq e a s = .ok 0 [] { s with cqs := s.cqs ++ [{ fn := a.fn, id := id, base := aBuf e, log2 := n, credits := 2 ^ n, vector := fieldLE e 28 2, k := fieldLE e 30 2, t := fieldLE e 32 2 }] }) ∧
  (∀ (e : Bytes) (a : AdminIn) (s t : State) (n : Nat) (inl : Bytes), adminCreateSq e a s = .ok n inl t → ∃ x, t = { s with sqs := s.sqs ++ [x] } ∧ x.fn = a.fn ∧ x.id = fieldLE e 24 2 ∧
    x.head = 0 ∧ x.tail = 0 ∧ x.st = .enabled ∧ x.cq = fieldLE e 28 2 ∧ s.sq? a.fn x.id = none ∧ (s.cq? a.fn x.cq).isSome = true ∧ domainSqs s x.domain < queueQuota s x.domain) ∧
  (∀ (e : Bytes) (a : AdminIn) (s : State) (x : Sq), s.sq? a.fn (fieldLE e 24 2) = some x → fieldLE e 24 2 < qpIds s a.fn →
    (∀ j ∈ s.jobs, j.fn = a.fn → j.sq ≠ fieldLE e 24 2) → x.head = x.tail →
    ∃ t, adminDestroySq e a s = .ok 0 [] t ∧ t.sq? a.fn (fieldLE e 24 2) = none ∧ t.cqs = s.cqs) ∧
  (∀ (e : Bytes) (a : AdminIn) (s : State) (c : Cq), s.cq? a.fn (fieldLE e 24 2) = some c → fieldLE e 24 2 < qpIds s a.fn →
    ((∀ x ∈ s.sqs, x.fn = a.fn → x.cq = fieldLE e 24 2 → x.id = 0xFFFF) → ∃ t, adminDestroyCq e a s = .ok 0 [] t ∧ t.cq? a.fn (fieldLE e 24 2) = none ∧ t.sqs = s.sqs) ∧
    (∀ x ∈ s.sqs, x.fn = a.fn → x.cq = fieldLE e 24 2 → x.id ≠ 0xFFFF → adminDestroyCq e a s = .fail .malformedDescriptor 0x0B 0)) ∧
  (∀ (e : Bytes) (a : AdminIn) (s : State), qidBad s a.fn (fieldLE e 24 2) true = false →
    (∀ j ∈ s.jobs, j.fn = a.fn → j.sq = fieldLE e 24 2 → j.tag ≠ fieldLE e 28 4) → adminAbortJob e a s = .ok 0 [0] s) ∧
  (∀ (e : Bytes) (a : AdminIn) (s : State), aBuf e = 0 → ∃ t, adminSetRing e a s = .ok 0 [] t ∧ (t.fnOf a.fn).evr.present = false)

/-- An AUM is accepted only with COUNTER = C_now + 1: a submission fails, or it is applied, and then its counter was the next one, INLINE holds the
new counter, and the floor has not fallen; a wrong length or format fails with 0x50, another counter with 0x51 or 0x52. A debug certificate is
accepted only for this device, at the present counter, in FIELDED and outside quarantine, and then it is the certificate held, or none where it
gives no right; a wrong format fails with 0x70, another device with 0x71, another counter with 0x72. SLOT_INFO and DOMAIN_INFO write their 32-byte
records, and only those of the instance's own domain; KEY_ADMIN ERASE zeroizes a slot that no job holds and answers 0, waits for the jobs that hold
it, or fails as an ERASE job would; ERASE_DOMAIN is PF0's alone, and answers once no slot of the domain is retiring. The layouts within the records
and the details not in the tables are the model's choice (log 10). Rests on parts of R218, R230, R231, R234, R235, R460, R461. -/
def Obligations.ContainersAndKeyCommandsAnswer : Prop :=
  ((∀ (e m : Bytes) (a : AdminIn) (s : State), fromBuf a (aBufLen e) = some m →
    ((∃ st d, adminAum e a s = .fail st d 0) ∨
      (∃ t, adminAum e a s = .ok 0 (leBytes 8 (counterNow t)) t ∧ uCounter m = counterNow s + 1 ∧ uTotal m = m.length ∧ s.sc.floor ≤ t.sc.floor)) ∧
    (m.length < 12 ∨ uTotal m ≠ m.length ∨ aumFormatOk m = false → adminAum e a s = .fail .malformedDescriptor 0x50 0) ∧
    (aumFormatOk m = true → uCounter m ≠ counterNow s + 1 →
      adminAum e a s = .fail .malformedDescriptor 0x51 0 ∨ adminAum e a s = .fail .malformedDescriptor 0x52 0)) ∧
  (∀ (e m : Bytes) (a : AdminIn) (s : State), fromBuf a (aBufLen e) = some m →
    ((∃ st d, adminCert e a s = .fail st d 0) ∨
      (∃ t, adminCert e a s = .ok 0 (leBytes 2 (cRights m) ++ [byteOf (if cRights m = 0 then 0 else cCycles m)]) t ∧ uTarget m = deviceId s ∧ uCounter m = counterNow s ∧
        lcCode s = 0x07 ∧ s.tam.quarantine = false ∧ t.jobs = s.jobs ∧ t.slots = s.slots ∧ (cRights m = 0 → t.dbg.cert = none) ∧
        (cRights m ≠ 0 → ∃ c, t.dbg.cert = some c ∧ t.dbg.certLive = true ∧ c.rights = cRights m ∧ c.cyclesLeft = cCycles m ∧ c.counter = counterNow s))) ∧
    (m.length < 12 ∨ uTotal m ≠ m.length ∨ certFormatOk m = false → adminCert e a s = .fail .malformedDescriptor 0x70 0) ∧
    (12 ≤ m.length → uTotal m = m.length → certFormatOk m = true → (uTarget m ≠ deviceId s → adminCert e a s = .fail .malformedDescriptor 0x71 0) ∧
      (uTarget m = deviceId s → uCounter m ≠ counterNow s → adminCert e a s = .fail .malformedDescriptor 0x72 0)))) ∧
  (∀ (e : Bytes) (a : AdminIn) (s : State) (h d : Nat), h = aHandle e → d = fieldLE e 32 2 → keySubReserved e = false →
    ((∀ c, domainOf s a.fn = some c → c = hDomain h) → (infoSlot s h = none → adminSlotInfo e a s = .fail .keyNotFound 0x58 0) ∧
      (∀ x, infoSlot s h = some x → (slotRecord s x).length = 32 ∧ (aBufLen e < 32 → adminSlotInfo e a s = .fail .outputTooSmall 0x30 32) ∧
        (32 ≤ aBufLen e → a.writeOk = true → adminSlotInfo e a s = .ok 32 [] (writeOut a.fn (aBuf e) (slotRecord s x) s)))) ∧
    ((∀ c, domainOf s a.fn = some c → c = d) → (domainRecord s d).length = 32 ∧
      (32 ≤ aBufLen e → a.writeOk = true → adminDomainInfo e a s = .ok 32 [] (writeOut a.fn (aBuf e) (domainRecord s d) s))) ∧
    (∀ c, domainOf s a.fn = some c → (c ≠ hDomain h → adminSlotInfo e a s = .fail .keyDomain 0x5A 0 ∧ adminErase e a s = .fail .keyDomain 0x5A 0) ∧
      (c ≠ d → adminDomainInfo e a s = .fail .keyDomain 0x5A 0)) ∧
    ((∀ c, domainOf s a.fn = some c → c = hDomain h) →
      (∀ st, eraseStatus s (hDomain h) h = some st → ∃ k, adminErase e a s = .fail st k 0) ∧
      (eraseStatus s (hDomain h) h = none → slotHolders s (hSlot h) = [] →
        adminErase e a s = .ok 0 (leBytes 4 0) (finishRetire (hSlot h) (retireSlot (hSlot h) s)) ∧
        (s.jobs = [] → s.waits = [] → ∃ x, (finishRetire (hSlot h) (retireSlot (hSlot h) s)).slot? (hSlot h) = some x ∧ x.st = .free ∧ x.material = [])) ∧
      (eraseStatus s (hDomain h) h = none → slotHolders s (hSlot h) ≠ [] → aForce e = false →
        adminErase e a s = .wait { kind := .eraseSlot, arg := hSlot h, count := (slotHolders s (hSlot h)).length } (retireSlot (hSlot h) s))) ∧
    ((a.fn ≠ .pf0 → adminEraseDomain e a s = .fail .malformedDescriptor 0x59 0) ∧
      (a.fn = .pf0 → (∀ x ∈ s.slots, x.domain = d → x.st = .free ∨ x.ktype = 0) → (∀ x ∈ s.slots, x.domain = d → x.st ≠ .retiring) →
        adminEraseDomain e a s = .ok 0 (leBytes 4 0) s) ∧
      (∀ n inl t, adminEraseDomain e a s = .ok n inl t → ∀ x ∈ t.slots, x.domain = d → x.st ≠ .retiring)))

/-- What the commands for instances do: SLICE_CREATE, where it succeeds, adds the slice of its entry, READY, whose number, domain and PASID none
had; SLICE_RESET and SLICE_DESTROY reset the slice with its domain and wait for the reset's end, which takes a destroyed slice away. QUIESCE of an
instance whose jobs have all ended leaves it quiesced with no SQ enabled; QUIESCE_DRAINED ends a QUIESCE whose instance is drained, and does nothing
before; outside the function mode they and DIRTY_LOG ENABLE fail with 0x60. With no bit due, ENABLE starts a new log, DISABLE ends it and SYNC
counts from 0 again, each answering OUTSIDE; with bits due SYNC and DISABLE wait; a failed log fails both. SAVE_STATE of a quiesced instance writes
its blob; RESTORE_STATE names the key or the tag that fails, and where it succeeds leaves the instance quiesced, starts no queue and touches no slot
in use. The model's choices: the layout of a blob's free parts (log 20) and that a log's bits are due until their jobs end (log 39). Rests on parts
of R430, R431, R432, R436, R437, R439, R440, R441, R443, R444. -/
def Obligations.InstanceCommandsActOnTheirInstance : Prop :=
  ((∀ (e : Bytes) (a : AdminIn) (s t : State) (n : Nat) (inl : Bytes), adminSliceCreate e a s = .ok n inl t →
    t = { s with slices := s.slices ++ [sliceOfEntry e], fns := s.fns ++ [{ fn := .slice (fieldLE e 24 2), ready := true }] } ∧
    s.slice? (fieldLE e 24 2) = none ∧ (∀ y ∈ s.slices, y.domain ≠ fieldLE e 32 2 ∧ y.pasid ≠ fieldLE e 40 3)) ∧
  (∀ (kind : AdminKind) (e : Bytes) (a : AdminIn) (s : State) (n : Nat) (x : Slice) (y : FnState), n = fieldLE e 24 2 → sliceModeBad s e = false → n < s.eph.cfg.sliceLimit →
    s.slice? n = some x → s.fn? (.slice n) = some y → y.resetting = false →
    adminSliceReset kind e a s = .wait { kind := kind, target := .slice n } (wipeDomains (fun d => d == x.domain) (resetOne (.slice n) s))) ∧
  (∀ (e : Bytes) (a : AdminIn) (s : State), (sliceModeBad s e = true → ∀ kind, adminSliceReset kind e a s = .fail .malformedDescriptor 0x60 0) ∧
    (sliceModeBad s e = false → s.slice? (fieldLE e 24 2) = none → ∀ kind, adminSliceReset kind e a s = .fail .malformedDescriptor 0x61 0)) ∧
  (∀ (n tag : Nat) (x : FnState) (s : State), s.fn? (.slice n) = some x → x.resetting = true → (s.fnOf .pf1).resetting = false →
    s.waits = [{ kind := .sliceDestroy, fn := .pf0, target := .slice n, tag := tag }] →
    Does (.functionResetComplete (.slice n)) s (fun t => t.waits = [] ∧ t.slice? n = none ∧ t.fn? (.slice n) = none))) ∧
  ((∀ (e : Bytes) (a : AdminIn) (s : State) (f : Fn), byteAt e 27 = 0 → aTarget e = some f → modeBad s e = false → instanceBad s e = false → (s.fnOf f).quiesced = false → (s.fn? f).isSome = true →
    (∀ j ∈ s.jobs, j.fn = f → j.phase = .done) → s.waits = [] →
    ∃ t, adminQuiesce e a s = .ok 0 [] t ∧ (t.fnOf f).quiesced = true ∧ (∀ q ∈ t.sqs, q.fn = f → q.st ≠ .enabled)) ∧
  (∀ (f : Fn) (s : State), (s.fnOf f).quiescing = true → drained s f = true → exec (.quiesceDrained f) s = .next (endQuiesce f s)) ∧
  (∀ (f : Fn) (s : State), drained s f = false → exec (.quiesceDrained f) s = .next s) ∧
  (∀ (e : Bytes) (a : AdminIn) (s : State), byteAt e 27 ≤ 3 → modeBad s e = true →
    adminQuiesce e a s = .fail .malformedDescriptor 0x60 0 ∧ adminResume e a s = .fail .malformedDescriptor 0x60 0 ∧ adminDirtyEnable e a s = .fail .malformedDescriptor 0x60 0)) ∧
  (∀ (e : Bytes) (a : AdminIn) (s : State) (f : Fn) (x : FnState), aTarget e = some f → modeBad s e = false → instanceBad s e = false → s.fn? f = some x →
    (x.dirty.failed = true ∨ dirtyJobs s f = [] → aBuf e % 8 = 0 → aBufLen e % 8 = 0 → 0 < aBufLen e → aBufLen e ≤ 268435456 → fieldLE e 52 8 % 4096 = 0 → s.link.atomicOp = true →
      ∃ t, adminDirtyEnable e a s = .ok 0 (leBytes 4 x.dirty.outside ++ [byteOf (if x.dirty.failed = true then 1 else 0)]) t ∧ t.sqs = s.sqs ∧ t.slots = s.slots ∧
        t.fn? f = some { x with dirty := { enabled := true, map := { bitmap := aBuf e, len := aBufLen e, cover := fieldLE e 52 8 } } }) ∧
    (noRange e = true → x.dirty.failed = false → dirtyJobs s f = [] →
      adminDirtyEnd true e a s = .ok 0 (leBytes 4 x.dirty.outside ++ [0]) (s.onFn f (fun y => { y with dirty := {} })) ∧
      adminDirtyEnd false e a s = .ok 0 (leBytes 4 x.dirty.outside ++ [0]) (s.onFn f (fun y => { y with dirty := { y.dirty with outside := 0 } }))) ∧
    (noRange e = true → x.dirty.failed = false → dirtyJobs s f ≠ [] → ∀ off, ∃ w, adminDirtyEnd off e a s = .wait w s ∧ w.due = dirtyJobs s f ∧ w.target = f) ∧
    (noRange e = true → x.dirty.failed = true → ∀ off, adminDirtyEnd off e a s = .fail .translationFault 0x31 1)) ∧
  ((∀ (e : Bytes) (a : AdminIn) (s : State) (f : Fn) (d : Nat) (k b : Bytes) (n : Bytes × State), aTarget e = some f → modeBad s e = false → instanceBad s e = false →
    domainOf s f = some d → (s.fnOf f).quiesced = true → (domainPolicy s d).getLsbD 1 = true → custodyKey s = some k → n = drawBytes 12 s →
    b = instanceBlob s f (byteAt e 26) (fieldLE e 24 2) d k n.1 →
    (b.length ≤ aBufLen e → a.writeOk = true → adminSave e a s = .ok b.length (leBytes 4 b.length) (writeOut a.fn (aBuf e) b n.2)) ∧
    (aBufLen e < b.length → adminSave e a s = .fail .outputTooSmall 0x30 b.length) ∧ b.take 4 = ascii "YQIB") ∧
  (∀ (e : Bytes) (a : AdminIn) (s : State) (f : Fn), aTarget e = some f → modeBad s e = false → instanceBad s e = false → (s.fn? f).isSome = true →
    ((s.fnOf f).quiesced = false → adminSave e a s = .fail .malformedDescriptor 0x66 0) ∧
    (∀ b, fromBuf a (aBufLen e) = some b → custodyFor s (sliceZ b 16 8) = none → adminRestore e a s = .fail .keyNotFound 0x69 0) ∧
    (∀ b k, fromBuf a (aBufLen e) = some b → custodyFor s (sliceZ b 16 8) = some k → openInstance k b = none → adminRestore e a s = .fail .verifyFailed 0x68 0) ∧
    (∀ n inl t, adminRestore e a s = .ok n inl t → (t.fnOf f).quiesced = true ∧ (∀ q ∈ s.sqs, q.fn ≠ f) ∧ (∀ q ∈ t.sqs, q ∈ s.sqs ∨ (q.fn = f ∧ q.st ≠ .enabled)) ∧
      t.jobs = s.jobs ∧ (∀ i y, s.slot? i = some y → y.st ≠ .free → t.slot? i = some y))))

/-! ### Jobs -/

/-- The services of families 0x10 to 0x15 and 0x20 to 0x23 run once, write their outputs in order, and complete; a failure writes nothing and makes
no key; a key whose slot has changed fails the job. 0x1301 SIGN builds the parts of its trees that are due first. Stated of a run that reads all its
input, meets no fault and no denied write, and whose lists fit. Rests on parts of R188, R190, R192, R225, R303. -/
def Obligations.AsymmetricJobsRun : Prop :=
  (JobRow .mlKemEncaps 0x1001 noStrings (plainSvc svcMlKemEncaps) ∧ JobRow .mlKemDecaps 0x1002 noStrings (plainSvc svcMlKemDecaps) ∧
  JobRow .mlDsaSign 0x1101 noStrings (plainSvc (svcMlDsaSign false)) ∧ JobRow .mlDsaVerify 0x1102 noStrings (plainSvc (svcMlDsaVerify false)) ∧
  JobRow .mlDsaHashSign 0x1103 noStrings (plainSvc (svcMlDsaSign true)) ∧
  JobRow .mlDsaHashVerify 0x1104 noStrings (plainSvc (svcMlDsaVerify true)) ∧
  JobRow .slhDsaSign 0x1201 noStrings (plainSvc (svcSlhDsaSign false)) ∧ JobRow .slhDsaVerify 0x1202 noStrings (plainSvc (svcSlhDsaVerify false)) ∧
  JobRow .slhDsaHashSign 0x1203 noStrings (plainSvc (svcSlhDsaSign true)) ∧
  JobRow .slhDsaHashVerify 0x1204 noStrings (plainSvc (svcSlhDsaVerify true)) ∧ JobRowAfter buildFirst .hssSign 0x1301 noStrings (plainSvc svcHssSign) ∧
  JobRow .hssVerify 0x1302 noStrings (plainSvc svcHssVerify) ∧ JobRow .prepare 0x1303 noStrings (plainSvc svcPrepare) ∧
  JobRow .publicKey 0x1304 noStrings (plainSvc svcPublicKey) ∧ JobRow .codeEncaps 0x1401 noStrings (plainSvc svcCodeEncaps) ∧
  JobRow .codeDecaps 0x1402 noStrings (plainSvc svcCodeDecaps) ∧ JobRow .loadPublic 0x1403 noStrings (plainSvc svcLoadPublic) ∧
  JobRow .seal 0x1501 noStrings (plainSvc svcSeal) ∧ JobRow .reseal 0x1502 noStrings (plainSvc svcReseal) ∧
  JobRow .open_ 0x1503 noStrings (plainSvc svcOpen)) ∧
  (JobRow .rsaSign 0x2001 noStrings (plainSvc svcRsaSign) ∧ JobRow .rsaVerify 0x2002 noStrings (plainSvc svcRsaVerify) ∧
  JobRow .rsaDecrypt 0x2003 noStrings (plainSvc svcRsaDecrypt) ∧ JobRow .rsaEncrypt 0x2004 noStrings (plainSvc svcRsaEncrypt) ∧
  JobRow .ecdsaSign 0x2101 noStrings (plainSvc svcEcdsaSign) ∧ JobRow .ecdsaVerify 0x2102 noStrings (plainSvc svcEcdsaVerify) ∧
  JobRow .ecdh 0x2103 noStrings (plainSvc svcEcdh) ∧ JobRow .agree 0x2201 noStrings (plainSvc svcAgree) ∧
  JobRow .edSign 0x2202 noStrings (plainSvc svcEdSign) ∧ JobRow .edVerify 0x2203 noStrings (plainSvc svcEdVerify) ∧
  JobRow .rawAdd 0x2301 noStrings (plainSvc (svcRaw 1)) ∧ JobRow .rawSub 0x2302 noStrings (plainSvc (svcRaw 2)) ∧
  JobRow .rawMul 0x2303 noStrings (plainSvc (svcRaw 3)) ∧ JobRow .rawSqr 0x2304 noStrings (plainSvc (svcRaw 4)) ∧
  JobRow .rawInv 0x2305 noStrings (plainSvc (svcRaw 5)) ∧ JobRow .rawExp 0x2306 noStrings (plainSvc (svcRaw 6)) ∧
  JobRow .run 0x2310 noStrings (plainSvc svcRun))

/-- The services of families 0x30 to 0x32 read their additional data, run once, write their output and complete; a failure writes nothing more.
Stated of a run that reads all its input, meets no fault and no denied write, and whose lists fit. Rests on parts of R188, R190, R192, R358, R386.
-/
def Obligations.SymmetricAndDigestJobsRun : Prop :=
  (JobRow .cbcEncrypt 0x3001 symWant svcSym ∧ JobRow .cbcDecrypt 0x3002 symWant svcSym ∧ JobRow .ctr 0x3003 symWant svcSym ∧
  JobRow .xtsEncrypt 0x3004 symWant svcSym ∧ JobRow .xtsDecrypt 0x3005 symWant svcSym ∧ JobRow .gcmEncrypt 0x3006 symWant svcSym ∧
  JobRow .gcmDecrypt 0x3007 symWant svcSym ∧ JobRow .gmacGenerate 0x3008 symWant svcSym ∧ JobRow .gmacVerify 0x3009 symWant svcSym ∧
  JobRow .gcmSivEncrypt 0x300A symWant svcSym ∧ JobRow .gcmSivDecrypt 0x300B symWant svcSym ∧ JobRow .ccmEncrypt 0x300C symWant svcSym ∧
  JobRow .ccmDecrypt 0x300D symWant svcSym ∧ JobRow .kwWrap 0x300E symWant svcSym ∧ JobRow .kwUnwrap 0x300F symWant svcSym ∧
  JobRow .kwpWrap 0x3010 symWant svcSym ∧ JobRow .kwpUnwrap 0x3011 symWant svcSym ∧ JobRow .chachaPolyEncrypt 0x3012 symWant svcSym ∧
  JobRow .chachaPolyDecrypt 0x3013 symWant svcSym ∧ JobRow .ctxOpen 0x3020 (fun _ j => if absorbsAad j then sAadLen j.block else 0) svcCtxOpen ∧
  JobRow .ctxClose 0x3021 noStrings (plainSvc svcCtxClose)) ∧
  (JobRow .hash 0x3101 digestWant svcDigest ∧ JobRow .hmacGenerate 0x3102 digestWant svcDigest ∧ JobRow .hmacVerify 0x3103 digestWant svcDigest ∧
  JobRow .kmacGenerate 0x3104 digestWant svcDigest ∧ JobRow .kmacVerify 0x3105 digestWant svcDigest ∧
  JobRow .verifyDigest 0x3106 digestWant svcDigest ∧ JobRow .dgeCtxOpen 0x3120 digestWant svcDgeOpen ∧
  JobRow .dgeCtxClose 0x3121 noStrings (plainSvc svcCtxClose) ∧ JobRow .stateExport 0x3122 noStrings (plainSvc svcStateExport) ∧
  JobRow .stateImport 0x3123 noStrings (plainSvc svcStateImport) ∧ JobRow .leaf 0x3201 noStrings (plainSvc svcLeaf) ∧
  JobRow .root 0x3202 noStrings (plainSvc svcRoot) ∧ JobRow .chunkRoot 0x3203 noStrings (plainSvc svcChunkRoot) ∧
  JobRow .verifyPath 0x3204 noStrings (plainSvc svcVerifyPath))

/-- The key, random and attestation jobs of families 0x40 to 0x42 run once; a new key takes its slot and its handle is INLINE; RANDOM draws its
bytes once an execution. A Bouquet that reads its strings and input, meets no fault and no denied write, and whose lists fit, ends by its stages:
all pass, and their outputs are written in stage order, each behind what it has streamed, with 0xFF as the failed stage; or the first stage that
fails gives its status and its number. ERASE of an occupied slot that no job references, with none fetched before it still to be applied, zeroizes
it and completes with a count of 0; a slot that has changed since dispatch fails the job. The model's choices: a Bouquet's rows as one command with
its stages' bytes (log 12), and how REWRITEs of one instant are ordered (log 39). Rests on parts of R188, R190, R192, R193, R205, R208, R218, R219,
R225, R229. -/
def Obligations.KeyBouquetAndEraseJobsRun : Prop :=
  (JobRow .keygen 0x4001 noStrings (plainSvc svcKeygen) ∧ JobRow .derive 0x4002 noStrings (plainSvc svcDerive) ∧
  JobRow .unwrap 0x4003 noStrings (plainSvc svcUnwrap) ∧ JobRow .wrap 0x4004 noStrings (plainSvc svcWrap) ∧
  JobRowAfter holdRandom .random 0x4101 noStrings (plainSvc svcRandom) ∧ JobRow (fun x => .attestChallenge (.job x)) 0x4201 noStrings (plainSvc svcChallenge) ∧
  JobRow (fun x => .attestQuote (.job x)) 0x4202 noStrings (plainSvc svcQuote) ∧
  JobRow (fun x => .attestIdentity (.job x)) 0x4203 noStrings (plainSvc svcIdentity)) ∧
  (∀ (x : JobRun) (s : State) (j : Job) (inp : Bytes) (outs : List StageOut) (frs : List Frags), runnable s 0x3801 x = some j → x.stalled = false → x.more = false →
    inputOf j.desc x.input x.inList = (inp, none) → (∀ r ∈ stages j.block, stageWant r = 0) → x.fault = none → x.denied = false →
    frs = stageFrags (stages j.block) x.stageLists → (∀ f ∈ frs, f.bad = none) →
    outs = stagesRun s j inp (stages j.block) ((stages j.block).map (fun _ => [])) [] true →
    ((∀ o ∈ outs, o.res.status = .ok) → exec (.bouquet x) s = .next (okJob j { tag := j.tag, restarted := j.restarted, bytes := inp.length, inline := [0xFF, byteOf (dSpec j.desc 52)] }
      ((outs.zip frs).foldl (fun t o => writeStage j o.2.frags o.1.res.streamed o.1.res.staged t) s))) ∧
    (∀ i o, outs[i]? = some o → o.res.status ≠ .ok → (∀ k p, k < i → outs[k]? = some p → p.res.status = .ok) →
      exec (.bouquet x) s = .next (endJob o.res.status (fun k => stageInline k i) j.id (streamStages j (min x.progress inp.length) inp.length outs frs s)))) ∧
  (∀ (x : JobRun) (s : State) (j : Job), runnable s 0x4005 x = some j → j.newSlot = none → eraseBehind s j (hSlot (dKey j.desc)) = false →
    (eraseStatus s j.domain (dKey j.desc) = none → slotHolders s (hSlot (dKey j.desc)) = [] →
      exec (.erase x) s = .next (okJob j { tag := j.tag, restarted := j.restarted, inline := leBytes 4 0 } (eraseSlot (flag10 j.desc) (hSlot (dKey j.desc)) s).2.2)) ∧
    (∀ st, eraseStatus s j.domain (dKey j.desc) = some st → exec (.erase x) s = .next (failJob j (failEntry j st []) s)))

/-- A command word of a program acts on the private memory of the engine that runs it, and on nothing else; that a word is a row of the running job
is the model's form (logs 15, 22). It changes the low W words of its destination register alone, which then hold the residue of the low W words of
its operands, or leaves every register and rejects; END ends the program, and after it nothing runs. For operands below a modulus above 1, ADD and
SUB answer the residue of the sum and of the difference; with an odd modulus MUL, SQR and EXP (B below 2^(64 W)) answer theirs, and INV the inverse
where it answers, and none only where there is no inverse; an even modulus, a modulus of 0 or 1, and an A not below the modulus answer none. A
single-command job answers the residue as 8 W bytes, big-endian, and is rejected where there is none. Rests on parts of R345, R346, R347, R348. -/
def Obligations.EngineWordsAndModularCommandsCompute : Prop :=
  (∀ (m id : Nat) (k : MaeCmd) (e : MaeMem) (j : Job) (s : State), s.mae[m]? = some e → e.job = some id → s.job? id = some j → j.phase = .running → dOp j.desc = 0x2310 →
    exec (.maeEnd m k) s = .next { s with mae := modAt s.mae m (fun y => maeCommand y (maeWord 0 k)) } ∧
    exec (.maeAdd m k) s = .next { s with mae := modAt s.mae m (fun y => maeCommand y (maeWord 1 k)) } ∧
    exec (.maeSub m k) s = .next { s with mae := modAt s.mae m (fun y => maeCommand y (maeWord 2 k)) } ∧
    exec (.maeMul m k) s = .next { s with mae := modAt s.mae m (fun y => maeCommand y (maeWord 3 k)) } ∧
    exec (.maeSqr m k) s = .next { s with mae := modAt s.mae m (fun y => maeCommand y (maeWord 4 k)) } ∧
    exec (.maeInv m k) s = .next { s with mae := modAt s.mae m (fun y => maeCommand y (maeWord 5 k)) } ∧
    exec (.maeExp m k) s = .next { s with mae := modAt s.mae m (fun y => maeCommand y (maeWord 6 k)) }) ∧
  (∀ (m : MaeMem) (op w a b q : Nat) (k : MaeCmd), m.ended = false → 0 < op → op ≤ 6 → w = k.len % 256 + 1 → a = maeReg m (k.a % 128) % 2 ^ (64 * w) →
    b = maeReg m (k.b % 128) % 2 ^ (64 * w) → q = maeReg m (k.m % 128) % 2 ^ (64 * w) →
    (∀ r, maeResult op w a b q = some r → maeReg (maeCommand m (maeWord op k)) (k.dst % 128) % 2 ^ (64 * w) = r ∧
      maeReg (maeCommand m (maeWord op k)) (k.dst % 128) / 2 ^ (64 * w) = maeReg m (k.dst % 128) / 2 ^ (64 * w) ∧
      (∀ i, i ≠ k.dst % 128 → maeReg (maeCommand m (maeWord op k)) i = maeReg m i) ∧
      maeCommand m (maeWord op k) = { m with regs := (maeCommand m (maeWord op k)).regs }) ∧
    (maeResult op w a b q = none → maeCommand m (maeWord op k) = { m with rejected := true })) ∧
  (∀ (m : MaeMem) (k : MaeCmd) (w : Nat), (m.ended = false → maeCommand m (maeWord 0 k) = { m with ended := true }) ∧ (m.ended = true → maeCommand m w = m)) ∧
  ((∀ w a b m : Nat, 1 < m → a < m →
    (b < m → maeResult 1 w a b m = some ((a + b) % m) ∧ ∃ d, maeResult 2 w a b m = some d ∧ d < m ∧ (d + b) % m = a) ∧
    (m % 2 = 1 → (b < m → maeResult 3 w a b m = some (a * b % m)) ∧ maeResult 4 w a b m = some (a * a % m) ∧
      (b < 2 ^ (64 * w) → maeResult 6 w a b m = some (a ^ b % m)) ∧
      (∀ d, maeResult 5 w a b m = some d → d < m ∧ a * d % m = 1) ∧ (maeResult 5 w a b m = none → Nat.gcd a m ≠ 1)) ∧
    (m % 2 = 0 → maeResult 3 w a b m = none ∧ maeResult 4 w a b m = none ∧ maeResult 5 w a b m = none ∧ maeResult 6 w a b m = none)) ∧
  (∀ op w a b m : Nat, (m ≤ 1 ∨ m ≤ a) → maeResult op w a b m = none) ∧
  (∀ (op : Nat) (j : Job) (inp : Bytes) (s : State) (w : Nat), w = dParam j.desc →
    (∀ r, maeResult op w (beNat (sliceOf inp (8 * w) (8 * w))) (beNat (sliceOf inp (8 * w * 2) (8 * w))) (beNat (sliceOf inp 0 (8 * w))) = some r →
      svcRaw op j inp s = ({ staged := beBytes (8 * w) r }, s)) ∧
    (maeResult op w (beNat (sliceOf inp (8 * w) (8 * w))) (beNat (sliceOf inp (8 * w * 2) (8 * w))) (beNat (sliceOf inp 0 (8 * w))) = none →
      svcRaw op j inp s = ({ status := .inputRejected }, s))))

/-- What the services of keys held elsewhere leave unchanged: everything but the count of free values that their random draws read. A verification
answers one of two complementary words in INLINE, with status OK or VERIFY_FAILED. Rests on parts of R273, R380. -/
def Obligations.ServicesOnlyDrawRandomness : Prop :=
  (∀ f ∈ [svcMlKemEncaps, svcMlKemDecaps, svcMlDsaSign false, svcMlDsaSign true, svcMlDsaVerify false, svcMlDsaVerify true, svcSlhDsaSign false, svcSlhDsaSign true,
      svcSlhDsaVerify false, svcSlhDsaVerify true, svcHssVerify, svcCodeEncaps, svcCodeDecaps, svcRsaSign, svcRsaVerify, svcRsaDecrypt, svcRsaEncrypt, svcEcdsaSign,
      svcEcdsaVerify, svcEdSign, svcEdVerify, svcRaw 1, svcRaw 2, svcRaw 3, svcRaw 4, svcRaw 5, svcRaw 6, svcLeaf, svcRoot, svcChunkRoot, svcVerifyPath],
    ∀ (j : Job) (inp : Bytes) (s : State), (f j inp s).2 = { s with free := (f j inp s).2.free } ∧ s.free ≤ (f j inp s).2.free) ∧
  verdictWords true = [0xF0, 0xA5, 0x96, 0x3C, 0x0F, 0x5A, 0x69, 0xC3] ∧ verdictWords false = [0x0F, 0x5A, 0x69, 0xC3, 0xF0, 0xA5, 0x96, 0x3C] ∧
  (∀ (f : Job → Bytes → State → Result × State) (j : Job) (inp : Bytes) (s : State), f ∈ [svcMlDsaVerify false, svcSlhDsaVerify false, svcHssVerify, svcVerifyPath] →
    ((f j inp s).1.status = .ok ∧ (f j inp s).1.inline = verdictWords true) ∨ ((f j inp s).1.status = .verifyFailed ∧ (f j inp s).1.inline = verdictWords false))


/-! ### Instructions of the vector clusters: rows of the job that runs on the cluster (log 22) -/

/-- The scalar, vector, short-vector and share-aware instructions act on the registers of the job that runs on the cluster and go on at the next
word, or take their trap; those that refresh shares need the random bit generators. Each instruction's effect is the named function; that an
instruction is a row of the running job is the model's form (log 22). Rests on parts of R400, R402, R404. -/
def Obligations.RegisterInstructionsRetire : Prop :=
  ((∀ (o : ScalarOps), VccRow (fun n => .add n o) (.add o) (fun _ => false) (scalarOp (· + ·) o)) ∧
  (∀ (o : ScalarOps), VccRow (fun n => .sub n o) (.sub o) (fun _ => false) (scalarOp (· - ·) o)) ∧
  (∀ (o : ScalarOps), VccRow (fun n => .and_ n o) (.and_ o) (fun _ => false) (scalarOp (· &&& ·) o)) ∧
  (∀ (o : ScalarOps), VccRow (fun n => .or_ n o) (.or_ o) (fun _ => false) (scalarOp (· ||| ·) o)) ∧
  (∀ (o : ScalarOps), VccRow (fun n => .xor_ n o) (.xor_ o) (fun _ => false) (scalarOp (· ^^^ ·) o)) ∧
  (∀ (o : ScalarOps), VccRow (fun n => .sll n o) (.sll o) (fun _ => false) (scalarShift (· <<< ·) o)) ∧
  (∀ (o : ScalarOps), VccRow (fun n => .srl n o) (.srl o) (fun _ => false) (scalarShift (· >>> ·) o)) ∧
  (∀ (o : ScalarOps), VccRow (fun n => .sra n o) (.sra o) (fun _ => false) (scalarShift BitVec.sshiftRight o)) ∧
  (∀ (o : ScalarOps), VccRow (fun n => .mul n o) (.mul o) (fun _ => false) (scalarOp (· * ·) o)) ∧
  (∀ (o : ScalarOps), VccRow (fun n => .mulhu n o) (.mulhu o) (fun _ => false) (scalarOp mulhu o)) ∧
  (∀ (o : ScalarOps), VccRow (fun n => .sltu n o) (.sltu o) (fun _ => false) (scalarOp sltu o)) ∧
  (∀ (rd : Nat) (imm : Int), VccRow (fun n => .lui n rd imm) (.lui rd imm) (fun _ => false) (luiOp rd imm)) ∧
  (∀ (rd : Nat) (rs1 : Nat) (ew : Nat), VccRow (fun n => .setvl n rd rs1 ew) (.setvl rd rs1 ew) (fun _ => false) (setvlOp rd rs1 ew)) ∧
  (∀ (rd : Nat) (fn : Nat), VccRow (fun n => .csrr n rd fn) (.csrr rd fn) (fun _ => false) (csrrOp rd fn)) ∧
  (∀ (rd : Nat) (vs : Nat) (j : Nat), VccRow (fun n => .vmvx n rd vs j) (.vmvx rd vs j) (fun _ => false) (vmvxOp rd vs j))) ∧
  ((∀ (o : VecOps), VccRow (fun n => .vadd n o) (.vadd o) (fun _ => false) (vvOp elAdd o)) ∧
  (∀ (o : VecOps), VccRow (fun n => .vsub n o) (.vsub o) (fun _ => false) (vvOp elSub o)) ∧
  (∀ (o : VecOps), VccRow (fun n => .vand n o) (.vand o) (fun _ => false) (vvOp elAnd o)) ∧
  (∀ (o : VecOps), VccRow (fun n => .vor n o) (.vor o) (fun _ => false) (vvOp elOr o)) ∧
  (∀ (o : VecOps), VccRow (fun n => .vxor n o) (.vxor o) (fun _ => false) (vvOp elXor o)) ∧
  (∀ (o : VecOps), VccRow (fun n => .vsll n o) (.vsll o) (fun _ => false) (vvOpen elSll o)) ∧
  (∀ (o : VecOps), VccRow (fun n => .vsrl n o) (.vsrl o) (fun _ => false) (vvOpen elSrl o)) ∧
  (∀ (o : VecOps), VccRow (fun n => .vmul n o) (.vmul o) (fun _ => false) (vvOp elMul o)) ∧
  (∀ (o : VecOps), VccRow (fun n => .vmulh n o) (.vmulh o) (fun _ => false) (vvOpen elMulh o)) ∧
  (∀ (rel : Nat) (o : VecOps), VccRow (fun n => .vcmp n rel o) (.vcmp rel o) (fun _ => false) (vcmpOp rel o)) ∧
  (∀ (o : VecOps), VccRow (fun n => .slideup n o) (.slideup o) (fun _ => false) (permOp true slideUp o)) ∧
  (∀ (o : VecOps), VccRow (fun n => .slidedown n o) (.slidedown o) (fun _ => false) (permOp true slideDown o)) ∧
  (∀ (o : VecOps), VccRow (fun n => .reverse n o) (.reverse o) (fun _ => false) (permOp false reversed o)) ∧
  (∀ (o : VecOps), VccRow (fun n => .zip n o) (.zip o) (fun _ => false) (permOp true zipped o)) ∧
  (∀ (o : VecOps), VccRow (fun n => .unzip n o) (.unzip o) (fun _ => false) (permOp false unzipped o)) ∧
  (∀ (o : VecOps), VccRow (fun n => .broadcast n o) (.broadcast o) (fun _ => false) (permOp false broadcasted o)) ∧
  (∀ (o : VecOps), VccRow (fun n => .svadd n o) (.svadd o) (fun _ => false) (shortOp (stated elAdd) o)) ∧
  (∀ (o : VecOps), VccRow (fun n => .svxor n o) (.svxor o) (fun _ => false) (shortOp (stated elXor) o)) ∧
  (∀ (o : VecOps), VccRow (fun n => .svrot n o) (.svrot o) (fun _ => false) (shortOp (elRot) o)) ∧
  (∀ (o : VecOps), VccRow (fun n => .svmul n o) (.svmul o) (fun _ => false) (shortOp (stated elMul) o)) ∧
  (∀ (o : VecOps), VccRow (fun n => .vaddX n o) (.vaddX o) (fun _ => false) (vsOp elAdd o)) ∧
  (∀ (o : VecOps), VccRow (fun n => .vsubX n o) (.vsubX o) (fun _ => false) (vsOp elSub o)) ∧
  (∀ (o : VecOps), VccRow (fun n => .vandX n o) (.vandX o) (fun _ => false) (vsOp elAnd o)) ∧
  (∀ (o : VecOps), VccRow (fun n => .vorX n o) (.vorX o) (fun _ => false) (vsOp elOr o)) ∧
  (∀ (o : VecOps), VccRow (fun n => .vxorX n o) (.vxorX o) (fun _ => false) (vsOp elXor o)) ∧
  (∀ (o : VecOps), VccRow (fun n => .vsllX n o) (.vsllX o) (fun _ => false) (vsOpen elSll o)) ∧
  (∀ (o : VecOps), VccRow (fun n => .vsrlX n o) (.vsrlX o) (fun _ => false) (vsOpen elSrl o)) ∧
  (∀ (o : VecOps), VccRow (fun n => .vmulX n o) (.vmulX o) (fun _ => false) (vsOp elMul o))) ∧
  ((∀ (o : VecOps), VccRow (fun n => .shxor n o) (.shxor o) (fun _ => false) (shxorOp o)) ∧
  (∀ (o : VecOps), VccRow (fun n => .shand n o) (.shand o) (fun _ => true) (shandOp o)) ∧
  (∀ (o : VecOps), VccRow (fun n => .shxorp n o) (.shxorp o) (fun _ => false) (shxorpOp o)) ∧
  (∀ (o : VecOps), VccRow (fun n => .shandp n o) (.shandp o) (fun _ => false) (shandpOp o)) ∧
  (∀ (o : VecOps), VccRow (fun n => .shadd n o) (.shadd o) (fun _ => false) (shaddOp o)) ∧
  (∀ (o : VecOps), VccRow (fun n => .shref n o) (.shref o) (fun _ => true) (shrefOp o)) ∧
  (∀ (o : VecOps), VccRow (fun n => .shba n o) (.shba o) (fun _ => true) (shbaOp o)) ∧
  (∀ (o : VecOps), VccRow (fun n => .shab n o) (.shab o) (fun _ => true) (shabOp o)) ∧
  (∀ (o : VecOps), VccRow (fun n => .shsel n o) (.shsel o) (fun _ => true) (shselOp o)) ∧
  (∀ (o : VecOps), VccRow (fun n => .shcmpz n o) (.shcmpz o) (fun _ => true) (shcmpzOp o)))

/-- The memory instructions act, or take the trap of the first element that stops one; so do the windows, copies to a peer, RAND, NTT, modular
arithmetic, Keccak, SHA-2, GF(2) and verdict instructions and the branches, which go on at the next word or at their target. Each instruction's
effect is the named function; that an instruction is a row of the running job is the model's form (log 22). Rests on parts of R400, R403, R405,
R406, R412. -/
def Obligations.OtherInstructionsRetire : Prop :=
  ((∀ (o : MemOps), VccRow (fun n => .vld n o) (.vld o) (fun _ => false) (vldOp o)) ∧
  (∀ (o : MemOps), VccRow (fun n => .vst n o) (.vst o) (fun _ => false) (vstOp o)) ∧
  (∀ (o : MemOps), VccRow (fun n => .shldSplit n o) (.shldSplit o) (fun _ => true) (shldSplitOp o)) ∧
  (∀ (o : MemOps), VccRow (fun n => .shldShares n o) (.shldShares o) (fun _ => false) (shldSharesOp o)) ∧
  (∀ (o : MemOps), VccRow (fun n => .shst n o) (.shst o) (fun _ => false) (shstOp o)) ∧
  (∀ (o : MemOps), VccRow (fun n => .svld n o) (.svld o) (fun _ => false) (shortMem o false)) ∧
  (∀ (o : MemOps), VccRow (fun n => .svst n o) (.svst o) (fun _ => false) (shortMem o true))) ∧
  ((∀ (src : Nat) (h : HOps), VccRow (fun n => .winFetch n src h) (.winFetch src h) (fun _ => false) (winFetchOp src h)) ∧
  VccRow (fun n => .winWait n) .winWait (fun _ => false) winWaitOp ∧
  (∀ (peer : Nat) (h : HOps), VccRow (fun n => .xmov n peer h) (.xmov peer h) (fun _ => false) (xmovOp peer h)) ∧
  (∀ (h : HOps), VccRow (fun n => .rand n h) (.rand h) (fun _ => true) (randOp h)) ∧ (∀ (h : HOps), VccRow (fun n => .ntt n h) (.ntt h) (fun _ => false) (nttOp h)) ∧
  (∀ (h : HOps), VccRow (fun n => .madd n h) (.madd h) (fun _ => false) (modOp h [1, 2] modAdd modRed)) ∧
  (∀ (h : HOps), VccRow (fun n => .msub n h) (.msub h) (fun _ => false) (modOp h [1, 2] modSubE modRed)) ∧
  (∀ (h : HOps), VccRow (fun n => .mmul n h) (.mmul h) (fun _ => false) (modOp h [1, 2] modMulE modMulE)) ∧
  (∀ (h : HOps), VccRow (fun n => .mred n h) (.mred h) (fun _ => false) (modOp h [1, 2] modRed modRed)) ∧
  (∀ (h : HOps), VccRow (fun n => .tomont n h) (.tomont h) (fun _ => false) (modOp h [1] toMont toMont)) ∧
  (∀ (h : HOps), VccRow (fun n => .frommont n h) (.frommont h) (fun _ => false) (modOp h [1] fromMont fromMont)) ∧
  VccRow (fun n => .kecInit n) .kecInit (fun _ => false) (kecInitOp 1) ∧ VccRow (fun n => .kecInits n) .kecInits (fun _ => false) (fun x => kecInitOp x.n x) ∧
  (∀ (h : HOps), VccRow (fun n => .kecXb n h) (.kecXb h) kecShared (kecXbOp h)) ∧ (∀ (h : HOps), VccRow (fun n => .kecXbs n h) (.kecXbs h) kecShared (kecXbsOp h)) ∧
  VccRow (fun n => .kecPerm n) .kecPerm kecShared kecPermOp ∧ (∀ (h : HOps), VccRow (fun n => .kecOut n h) (.kecOut h) (fun _ => false) (kecOutOp h)) ∧
  (∀ (h : HOps), VccRow (fun n => .kecX4 n h) (.kecX4 h) (fun _ => false) (kecX4Op h)) ∧
  (∀ (h : HOps), VccRow (fun n => .sha2C256 n h) (.sha2C256 h) (fun _ => bitOf h.fn 4) (sha2Op 32 64 compress256 h)) ∧
  (∀ (h : HOps), VccRow (fun n => .sha2C512 n h) (.sha2C512 h) (fun _ => bitOf h.fn 4) (sha2Op 64 128 compress512 h)) ∧
  (∀ (h : HOps), VccRow (fun n => .gfmul n h) (.gfmul h) (fun _ => false) (gfmulOp h)) ∧
  (∀ (h : HOps), VccRow (fun n => .clmul n h) (.clmul h) (fun _ => false) (clmulOp h)) ∧
  (∀ (h : HOps), VccRow (fun n => .verdictJob n h) (.verdictJob h) (fun _ => false) (verdictOp false h)) ∧
  (∀ (h : HOps), VccRow (fun n => .verdictCheck n h) (.verdictCheck h) (fun _ => false) (verdictOp true h))) ∧
  ((∀ (ra : Nat) (rb : Nat) (imm : Int), VccRow (fun n => .beq n ra rb imm) (.beq ra rb imm) (fun _ => false) (branchOp (fun a b => a == b) ra rb imm)) ∧
  (∀ (ra : Nat) (rb : Nat) (imm : Int), VccRow (fun n => .bne n ra rb imm) (.bne ra rb imm) (fun _ => false) (branchOp (fun a b => a != b) ra rb imm)) ∧
  (∀ (ra : Nat) (rb : Nat) (imm : Int), VccRow (fun n => .bltu n ra rb imm) (.bltu ra rb imm) (fun _ => false) (branchOp (fun a b => decide (a < b)) ra rb imm)) ∧
  (∀ (ra : Nat) (imm : Int), VccRow (fun n => .jal n ra imm) (.jal ra imm) (fun _ => false) (jalOp ra imm)) ∧
  (∀ (ra : Nat), VccRow (fun n => .jr n ra) (.jr ra) (fun _ => false) (jrOp ra)) ∧ VccRow (fun n => .sysFault n) .sysFault (fun _ => false) sysFaultOp ∧
  (∀ (ra : Nat) (file : Nat), VccRow (fun n => .untag n ra file) (.untag ra file) (fun _ => false) (untagOp ra file)))

/-- g0 reads 0 and ignores writes; another scalar register reads what was written to it. The scalar instructions write their value, with the tag of
their sources, to a register that may hold the tag; a tagged value for one that may not is a kernel defect. SETVL, CSRR, LUI and VMVX write what
they are named for. Each acts where the word before which the cluster stands spells it. That LUI sign-extends and that CSRR answers the width in
bits is the model's reading (log 22), and so is that a word the model does not hold may be any (log 39). Rests on parts of R393, R395, R399, R400,
R402, R410. -/
def Obligations.ScalarAndSystemResults : Prop :=
  ((∀ r : RegSave, gRead r 0 = 0) ∧ (∀ (v : BitVec 64) (t : Bool) (r : RegSave), gWrite 0 v t r = r) ∧
  (∀ (i : Nat) (v : BitVec 64) (t : Bool) (r : RegSave), i ≠ 0 → i < r.g.length → gRead (gWrite i v t r) i = v) ∧
  (∀ (i k : Nat) (v : BitVec 64) (t : Bool) (r : RegSave), k ≠ i → gRead (gWrite i v t r) k = gRead r k)) ∧
  (∀ (n : Nat) (s : State) (cl : Cluster) (r : Resid) (j : Job) (o : ScalarOps) (a b : BitVec 64) (tag : Bool), vccReady n s = some (cl, r, j) → s.dbg.halted ≠ some j.id →
    a = gRead cl.regs o.rs1 → b = (match o.imm with | some i => BitVec.ofInt 64 i | none => gRead cl.regs o.rs2) →
    tag = (cl.regs.gTag.contains o.rs1 || (o.imm.isNone && cl.regs.gTag.contains o.rs2)) →
    ((tag = false ∨ o.rd < 24) →
      (∀ (c : Instr) (w : CodeWord) (v : BitVec 64), ((c = .add n o ∧ w = .add o ∧ v = a + b) ∨ (c = .sub n o ∧ w = .sub o ∧ v = a - b) ∨
          (c = .and_ n o ∧ w = .and_ o ∧ v = a &&& b) ∨ (c = .or_ n o ∧ w = .or_ o ∧ v = a ||| b) ∨ (c = .xor_ n o ∧ w = .xor_ o ∧ v = a ^^^ b) ∨
          (c = .mul n o ∧ w = .mul o ∧ v = a * b) ∨ (c = .mulhu n o ∧ w = .mulhu o ∧ v.toNat = a.toNat * b.toNat / 2 ^ 64) ∨
          (c = .sltu n o ∧ w = .sltu o ∧ v = (if a.toNat < b.toNat then 1 else 0)) ∨ (c = .sll n o ∧ w = .sll o ∧ b.toNat < 64 ∧ v = a <<< b.toNat) ∨
          (c = .srl n o ∧ w = .srl o ∧ b.toNat < 64 ∧ v = a >>> b.toNat) ∨ (c = .sra n o ∧ w = .sra o ∧ b.toNat < 64 ∧ v.toInt = a.toInt / 2 ^ b.toNat)) →
        spells n w s = true → exec c s = .next (retired n { cl with regs := gWrite o.rd v tag cl.regs } (cl.pc + 1) s))) ∧
    (tag = true → 24 ≤ o.rd → spells n (.add o) s = true → exec (.add n o) s = .next (kernelDefect n j 1 cl.pc s))) ∧
  (∀ (n : Nat) (s : State) (cl : Cluster) (r : Resid) (j : Job), vccReady n s = some (cl, r, j) → s.dbg.halted ≠ some j.id →
    (∀ rd rs1 ew vl : Nat, cl.regs.gTag.contains rs1 = false → vl = min (gRead cl.regs rs1).toNat (Config.vlen s.part / (8 * 2 ^ (ew % 4))) →
      spells n (.setvl rd rs1 ew) s = true → exec (.setvl n rd rs1 ew) s = .next (retired n { cl with regs := gWrite rd (BitVec.ofNat 64 vl) false { cl.regs with vl := vl, ew := ew } } (cl.pc + 1) s)) ∧
    (∀ rd : Nat, (spells n (.csrr rd 0) s = true → exec (.csrr n rd 0) s = .next (retired n { cl with regs := gWrite rd (BitVec.ofNat 64 cl.regs.vl) false cl.regs } (cl.pc + 1) s)) ∧
      (spells n (.csrr rd 1) s = true → exec (.csrr n rd 1) s = .next (retired n { cl with regs := gWrite rd (BitVec.ofNat 64 (8 * 2 ^ (cl.regs.ew % 4))) false cl.regs } (cl.pc + 1) s)) ∧
      (spells n (.csrr rd 2) s = true → exec (.csrr n rd 2) s = .next (retired n { cl with regs := gWrite rd (BitVec.ofNat 64 (Config.vlen s.part)) false cl.regs } (cl.pc + 1) s)) ∧
      (spells n (.csrr rd 3) s = true → exec (.csrr n rd 3) s = .next (retired n { cl with regs := gWrite rd (BitVec.ofNat 64 r.view.order) false cl.regs } (cl.pc + 1) s))) ∧
    (∀ (rd : Nat) (imm : Int), spells n (.lui rd imm) s = true → exec (.lui n rd imm) s = .next (retired n { cl with regs := gWrite rd (BitVec.ofInt 64 (imm * 2 ^ 17)) false cl.regs } (cl.pc + 1) s)) ∧
    (∀ rd vs k w : Nat, w = 8 * 2 ^ (cl.regs.ew % 4) → k < Config.vlen s.part / w → cl.regs.vTag.contains vs = false → spells n (.vmvx rd vs k) s = true →
      exec (.vmvx n rd vs k) s = .next (retired n { cl with regs := gWrite rd (BitVec.ofNat 64 (vRead cl.regs vs / 2 ^ (w * k) % 2 ^ w)) false cl.regs } (cl.pc + 1) s)))

/-- Element j of a vector instruction's destination is the operation's value modulo 2^EW where j is below VL and active under the mask, and its old
value elsewhere; a VL of 0 changes no register. Addition, subtraction, multiplication, exclusive or, and, or are those of the element's width. Rests
on parts of R395, R399, R402. -/
def Obligations.VectorResultsAreElementwise : Prop :=
  (∀ (f : Nat → Nat → Nat → Nat) (o : VecOps) (x : VccIn) (w : Nat), w = 8 * 2 ^ (o.ew % 4) → 0 < x.count w →
    ∃ v tag, vvOp f o x = x.regs (vWrite o.vd v tag x.cl.regs) ∧ ∀ j, j < Config.vlen x.part / w → v / 2 ^ (w * j) % 2 ^ w =
      (if j < x.count w ∧ x.active o.me o.vm j = true then f w (vRead x.cl.regs o.vs1 / 2 ^ (w * j) % 2 ^ w) (vRead x.cl.regs o.vs2 / 2 ^ (w * j) % 2 ^ w) % 2 ^ w
       else vRead x.cl.regs o.vd / 2 ^ (w * j) % 2 ^ w)) ∧
  (∀ (f : Nat → Nat → Nat → Nat) (o : VecOps) (x : VccIn) (w : Nat), w = 8 * 2 ^ (o.ew % 4) → 0 < x.count w →
    ∃ v tag, vsOp f o x = x.regs (vWrite o.vd v tag x.cl.regs) ∧ ∀ j, j < Config.vlen x.part / w → v / 2 ^ (w * j) % 2 ^ w =
      (if j < x.count w ∧ x.active o.me o.vm j = true then f w (vRead x.cl.regs o.vs1 / 2 ^ (w * j) % 2 ^ w) ((gRead x.cl.regs o.vs2).toNat % 2 ^ w) % 2 ^ w
       else vRead x.cl.regs o.vd / 2 ^ (w * j) % 2 ^ w)) ∧
  (∀ (f : Nat → Nat → Nat → Nat) (o : VecOps) (x : VccIn), x.count (ewBits o.ew) = 0 → vvOp f o x = x.regs x.cl.regs ∧ vsOp f o x = x.regs x.cl.regs) ∧
  (∀ w a b : Nat, a < 2 ^ w → b < 2 ^ w → elAdd w a b = a + b ∧ (elSub w a b + b) % 2 ^ w = a ∧ elMul w a b = a * b ∧
    elXor w a b = Nat.xor a b ∧ elAnd w a b = Nat.land a b ∧ elOr w a b = Nat.lor a b)

/-- A sharing that the model makes recombines to its value, for every choice of the fresh masks: by exclusive or for a Boolean sharing, by the sum
modulo 2^EW for an arithmetic one; each has order + 1 shares. Rests on parts of R404. -/
def Obligations.FreshSharesRecombine : Prop :=
  ∀ (x : VccIn) (w i v : Nat), v < 2 ^ w → xorValue (shareXor x w i v) = v ∧ sumValue w (shareSum x w i v) = v ∧
    (shareXor x w i v).length = x.r.view.order + 1 ∧ (shareSum x w i v).length = x.r.view.order + 1

/-- Tile memory: a byte string read back where it was written is that string, every byte outside the written range reads as before, and the memory
keeps its canonical form (log 22). Rests on parts of R396, R397, R398. -/
def Obligations.TileMemoryReadsWhatWasWritten : Prop :=
  ∀ (m : List Host.Cell) (a : Nat) (b : Bytes), Memory.wf m = true →
    cellsRead (cellsWrite m a b) a b.length = b ∧ (∀ k, (k < a ∨ a + b.length ≤ k) → cellRead (cellsWrite m a b) k = cellRead m k) ∧
    Memory.wf (cellsWrite m a b) = true

/-- The stores change no register, and no byte of tile memory outside what they store to: VST its active elements below VL from VRESUME on, at their
physical addresses, SHST the shares of those, and a store that traps in the middle only the elements before the one that trapped; SVST its 32 bytes;
KEC OUT the outputs of its states; RAND the bytes of its range. WIN FETCH only notes the copy, XMOV leaves its own cluster as it is, and its copy
changes one cluster, in the bytes it goes to. The scalar, vector, short-vector and share-aware instructions store nothing: the cluster is unchanged
but for its registers, every byte of every tile with it. Rests on parts of R393, R402, R403, R404, R405, R412. -/
def Obligations.StoresTouchOnlyTheirElements : Prop :=
  (∀ (n : Nat) (s : State) (cl : Cluster) (r : Resid) (j : Job) (o : MemOps), vccReady n s = some (cl, r, j) → s.dbg.halted ≠ some j.id → spells n (.vst o) s = true →
    addrTagged (seenBy s cl r) o false = false → Memory.wf cl.tiles = true → ((vstOp o (seenBy s cl r)).fin = .next →
    Does (.vst n o) s (fun t => ∃ k, t.vcc[n]? = some k ∧ k.regs = cl.regs ∧ k.pc = cl.pc + 1 ∧ ∀ a,
      (∀ i p, cl.vresume ≤ i → i < (seenBy s cl r).count (8 * 2 ^ (o.ew % 4)) → (seenBy s cl r).active o.me o.vm i = true →
        viewPhys r true (elemAddr (seenBy s cl r) o i) (2 ^ (o.ew % 4)) = some p → a < p ∨ p + 2 ^ (o.ew % 4) ≤ a) →
      cellRead k.tiles a = cellRead cl.tiles a))) ∧
  (∀ (o : MemOps) (x : VccIn) (y z : VOut) (n a : Nat), Memory.wf x.cl.tiles = true → y = vstOp o x → z = shstOp o x → n = 2 ^ (o.ew % 4) →
    (y.cl = { x.cl with tiles := y.cl.tiles, tileTags := y.cl.tileTags, badChecks := y.cl.badChecks } ∧
      ((∀ i p, x.cl.vresume ≤ i → i < x.count (8 * n) → (∀ k e t, y.fin = .trap k e t → i < e) → x.active o.me o.vm i = true →
        viewPhys x.r true (elemAddr x o i) n = some p → a < p ∨ p + n ≤ a) → cellRead y.cl.tiles a = cellRead x.cl.tiles a)) ∧
    (z.cl = { x.cl with tiles := z.cl.tiles, tileTags := z.cl.tileTags, badChecks := z.cl.badChecks } ∧
      ((∀ i b p, x.cl.vresume ≤ i → i < x.count (8 * n) → (∀ k e t, z.fin = .trap k e t → i < e) → x.active o.me o.vm i = true → b ∈ shareAddrs x o i →
        viewPhys x.r true b n = some p → a < p ∨ p + n ≤ a) → cellRead z.cl.tiles a = cellRead x.cl.tiles a)) ∧
    ((shortMem o true x).cl.regs = x.cl.regs ∧ ((∀ p, viewPhys x.r true (gRead x.cl.regs (baseReg o)).toNat 32 = some p → a < p ∨ p + 32 ≤ a) →
      cellRead (shortMem o true x).cl.tiles a = cellRead x.cl.tiles a))) ∧
  (∀ (h : HOps) (x : VccIn) (a : Nat), Memory.wf x.cl.tiles = true →
    ((kecOutOp h x).cl.regs = x.cl.regs ∧ ((∀ b ∈ shareStarts (hReg x h.a) (hReg x h.b) x.cl.regs.kec.length, ∀ p,
      viewPhys x.r true b (hReg x h.c) = some p → a < p ∨ p + hReg x h.c ≤ a) → cellRead (kecOutOp h x).cl.tiles a = cellRead x.cl.tiles a)) ∧
    ((randOp h x).cl.regs = x.cl.regs ∧ ((∀ p, viewPhys x.r true (hReg x h.a) (hReg x h.b) = some p → a < p ∨ p + hReg x h.b ≤ a) →
      cellRead (randOp h x).cl.tiles a = cellRead x.cl.tiles a)) ∧
    (∀ src, (winFetchOp src h x).cl = { x.cl with resid := (winFetchOp src h x).cl.resid }) ∧ (∀ peer, (xmovOp peer h x).cl = x.cl)) ∧
  (∀ (job c b : Nat) (d : Bytes) (ts : List Nat) (s : State), (∀ u, u ≠ c → (peerCopy job (c, b, d, ts) s).vcc[u]? = s.vcc[u]?) ∧
    ∀ (k : Cluster) (r : Resid), s.vcc[c]? = some k → k.resid.find? (fun q => q.job == job) = some r → Memory.wf k.tiles = true →
      ∃ m, (peerCopy job (c, b, d, ts) s).vcc[c]? = some m ∧ m.regs = k.regs ∧ ∀ a, (∀ p, viewPhys r true b d.length = some p → a < p ∨ p + d.length ≤ a) →
        cellRead m.tiles a = cellRead k.tiles a) ∧
  (∀ x : VccIn, (∀ f o, (scalarOp f o x).cl = { x.cl with regs := (scalarOp f o x).cl.regs }) ∧ (∀ f o, (scalarShift f o x).cl = { x.cl with regs := (scalarShift f o x).cl.regs }) ∧
    (∀ f o, (vvOp f o x).cl = { x.cl with regs := (vvOp f o x).cl.regs }) ∧ (∀ f o, (vvOpen f o x).cl = { x.cl with regs := (vvOpen f o x).cl.regs }) ∧
    (∀ f o, (vsOp f o x).cl = { x.cl with regs := (vsOp f o x).cl.regs }) ∧ (∀ f o, (vsOpen f o x).cl = { x.cl with regs := (vsOpen f o x).cl.regs }) ∧
    (∀ b f o, (permOp b f o x).cl = { x.cl with regs := (permOp b f o x).cl.regs }) ∧ (∀ f o, (shortOp f o x).cl = { x.cl with regs := (shortOp f o x).cl.regs }) ∧
    (∀ o m f, (groupOp o m f x).cl = { x.cl with regs := (groupOp o m f x).cl.regs }) ∧ (∀ k o, (vcmpOp k o x).cl = { x.cl with regs := (vcmpOp k o x).cl.regs }) ∧
    (∀ o, (shcmpzOp o x).cl = { x.cl with regs := (shcmpzOp o x).cl.regs }))

/-- Where the word before which the cluster stands spells them, the branches compare untagged registers and go to the next word or to their target;
JAL keeps the next word's address, JR takes its register; a tagged operand of BEQ or JR is a kernel defect of code 1; UNTAG clears a scalar
register's tag. A row that the word does not spell changes nothing, which is the model's form (logs 22, 39). Rests on parts of R399, R400, R406,
R410, R411. -/
def Obligations.BranchResults : Prop :=
  ∀ (n : Nat) (s : State) (cl : Cluster) (r : Resid) (j : Job), vccReady n s = some (cl, r, j) → s.dbg.halted ≠ some j.id →
    (∀ (ra rb : Nat) (imm : Int) (a b : BitVec 64) (yes no : State), cl.regs.gTag.contains ra = false → cl.regs.gTag.contains rb = false → a = gRead cl.regs ra → b = gRead cl.regs rb →
      yes = retired n cl ((cl.pc : Int) + imm).toNat s → no = retired n cl (cl.pc + 1) s →
      (spells n (.beq ra rb imm) s = true → exec (.beq n ra rb imm) s = .next (if a = b then yes else no)) ∧
      (spells n (.bne ra rb imm) s = true → exec (.bne n ra rb imm) s = .next (if a = b then no else yes)) ∧
      (spells n (.bltu ra rb imm) s = true → exec (.bltu n ra rb imm) s = .next (if a.toNat < b.toNat then yes else no))) ∧
    (∀ (ra : Nat) (imm : Int), spells n (.jal ra imm) s = true →
      exec (.jal n ra imm) s = .next (retired n { cl with regs := gWrite ra (BitVec.ofNat 64 (cl.pc + 1)) false cl.regs } ((cl.pc : Int) + imm).toNat s)) ∧
    (∀ ra : Nat, cl.regs.gTag.contains ra = false → spells n (.jr ra) s = true → exec (.jr n ra) s = .next (retired n cl (gRead cl.regs ra).toNat s)) ∧
    (∀ (ra rb : Nat) (imm : Int), cl.regs.gTag.contains ra = true → (spells n (.beq ra rb imm) s = true → exec (.beq n ra rb imm) s = .next (kernelDefect n j 1 cl.pc s)) ∧
      (spells n (.jr ra) s = true → exec (.jr n ra) s = .next (kernelDefect n j 1 cl.pc s))) ∧
    (∀ ra : Nat, spells n (.untag ra 0) s = true → Does (.untag n ra 0) s (fun t =>
      t = retired n { cl with regs := { cl.regs with gTag := cl.regs.gTag.filter (fun i => i != ra) } } (cl.pc + 1) s ∧
      (cl.regs.gTag.filter (fun i => i != ra)).contains ra = false)) ∧
    (∀ (ra rb : Nat) (imm : Int), spells n (.beq ra rb imm) s = false → exec (.beq n ra rb imm) s = .next s)

/-- What ends a section or a program of a job on one cluster: YIELD goes on at the next word, where no job waits to run; YIELD.EXTEND, a request for
a further token, puts the job in overrun with its random bytes and its rounds; END ends the job, or re-executes it where a check faulted, or gives
the breach that reading its input met; the watchdog is a kernel defect of code 2 once the section has run longer than its bound, and does nothing
before. That a program's words are rows of the job, and that a row acts where its word stands, is the model's form (logs 22, 39). Rests on parts of
R187, R276, R406, R414, R418, R420. -/
def Obligations.SectionsAndProgramsEnd : Prop :=
  ∀ (n : Nat) (s : State) (cl : Cluster) (r : Resid) (j : Job), vccReady n s = some (cl, r, j) → s.dbg.halted ≠ some j.id → r.view.gang = [] →
    ((∀ b ∈ s.jobs, isReady b = false) → spells n .yield_ s = true →
      Does (.yield_ n) s (fun t => t.jobs = s.jobs ∧ t.out = s.out ∧ ∃ k, t.vcc[n]? = some k ∧ k.pc = cl.pc + 1 ∧ k.regs = cl.regs ∧ k.tiles = cl.tiles)) ∧
    (spells n .yieldExtend s = true → Does (.yieldExtend n) s (fun t => ∃ y, t.job? j.id = some y ∧ y.phase = .overrun ∧ y.rnd = j.rnd ∧ y.round = j.round)) ∧
    (∀ (shared keyout : Bool) (x : JobRun), spells n (.end_ shared keyout) s = true → j.inBad = none → r.faulted = true → residOn s j.id n = some r →
      exec (.end_ n shared keyout x) s = .next (selfFault n j s)) ∧
    (∀ (shared keyout : Bool) (x : JobRun), spells n (.end_ shared keyout) s = true → j.inBad = none → r.faulted = false → residOn s j.id n = some r → exec (.end_ n shared keyout x) s =
      .next (finishEnd n j (seenBy s cl r) shared keyout { x with job := j.id } s)) ∧
    (∀ (shared keyout : Bool) (x : JobRun) (st : Status), spells n (.end_ shared keyout) s = true → j.inBad = some st → exec (.end_ n shared keyout x) s = .next (endJob st wholeInline j.id s)) ∧
    (s.clk > r.yielded + r.view.nps → exec (.watchdog n) s = .next (kernelDefect n j 2 cl.pc s)) ∧ (s.clk ≤ r.yielded + r.view.nps → exec (.watchdog n) s = .next s)

/-- The supervisor's side: a reloaded tile ends the trap and leaves the tiles as they are, with a good check word unless it failed again; the end of
a window copy lands the job's oldest one in its tiles. On a test cluster the row is the vendor's test, which sets no bit of FAULT_STATUS. The
model's choices: the rows of the supervisor as commands (log 22), and TILE_RELOAD of a test cluster as the vendor's test (log 39). Rests on parts of
R397, R405, R414, R420, R463. -/
def Obligations.SupervisorReloadsAndCopies : Prop :=
  (∀ (n : Nat) (again : Bool) (cl : Cluster) (tr : Trap) (s : State), s.vcc[n]? = some cl → cl.trap = some tr → testCluster s n = false →
    Does (.tileReload n again) s (fun t => ∃ k, t.vcc[n]? = some k ∧ k.trap = none ∧ k.reloaded = cl.reloaded ++ [tr.tile] ∧ k.tiles = cl.tiles ∧
      (again = false → tileFails k tr.tile = false) ∧ (again = true → k.badChecks = cl.badChecks) ∧ t.jobs = s.jobs)) ∧
  (∀ (n : Nat) (again : Bool) (s : State), testCluster s n = true → Does (.tileReload n again) s (fun t => t.jobs = s.jobs ∧ t.units = s.units ∧ t.flt = s.flt)) ∧
  (∀ (n job : Nat) (cl : Cluster) (r : Resid) (w : Nat × Nat × Nat × Nat) (rest : List (Nat × Nat × Nat × Nat)) (s : State), s.vcc[n]? = some cl →
    cl.resid.find? (fun q => q.job == job) = some r → r.window = w :: rest →
    Does (.winFetchComplete n job) s (fun t => ∃ k q, t.vcc[n]? = some k ∧ k.resid.find? (fun q => q.job == job) = some q ∧ q.window = rest ∧ k.tiles = (landFetch r w cl).tiles))


/-! ### The ledger token and the Almanac -/

/-- The end of the token session drops the anchored keys and burns the leaves that no job has taken. TOKEN_LIFE is refreshed no more than once a
second, by one exchange of frames, and 1,024,000 units or fewer set WEAR with an event. A reservation that commits, the log having room, makes its
leaves usable and moves the end of the key's reserved leaves up by 2^RESERVE_EXP, at most to the last leaf; one that no key writes changes nothing.
That a refresh is one exchange, and which counters it moves, is the model's choice (logs 38, 39). Rests on parts of R243, R245, R248, R253, R256. -/
def Obligations.LedgerTokenRows : Prop :=
  (∀ (tk : Token) (s : State), anySession s = true → s.tok.socket = some tk →
    Does .tokenSessionEnd s (fun t => t.tok.session = .ended ∧ t.tok.life = none ∧ t.tok.keysLoaded = false ∧ t.sc.heldAuth = [] ∧ t.sc.heldAttest = none ∧
      t.jobs = s.jobs ∧ t.slots = s.slots ∧ ∃ u, t.tok.socket = some u ∧ u.stateful.length = tk.stateful.length ∧
        ∀ k ∈ u.stateful, k.ranges = [] ∧ k.endLeaf ≤ k.next)) ∧
  (∀ s : State, anySession s = false → exec .tokenSessionEnd s = .next s) ∧
  (∀ (tk : Token) (s : State), anySession s = true → s.tok.socket = some tk → tk.readOnly = false →
    (s.clk < s.tok.lifeAt + 1000000000 → exec .tokenLifeRefresh s = .next s) ∧
    (s.tok.lifeAt + 1000000000 ≤ s.clk → 1024000 < tk.units →
      exec .tokenLifeRefresh s = .next { s with tok := { s.tok with life := some tk.units, lifeAt := s.clk, txCount := s.tok.txCount + 1, rxCount := s.tok.rxCount + 1 } }) ∧
    (s.tok.lifeAt + 1000000000 ≤ s.clk → tk.units ≤ 1024000 → s.tok.wear = false →
      Does .tokenLifeRefresh s (fun t => t.tok.wear = true ∧ t.tok.life = some tk.units ∧ t.tok.readOnly = s.tok.readOnly ∧ t.alm.eventSeq = sat32 s.alm.eventSeq))) ∧
  (∀ (d i : Nat) (tk : Token) (k : StatefulKey) (s : State), fullSession s = true → s.tok.readOnly = false → s.tok.keysLoaded = true → s.pwr.pg = true →
    s.tok.socket = some tk → tk.readOnly = false → tk.stateful = [k] → k.domain = d → k.index = i → 4 ≤ tk.logFree →
    (k.writing = true → k.endLeaf < leafCount k → Does (.reservationCommit d i) s (fun t => ∃ u m, t.tok.socket = some u ∧ u.stateful = [m] ∧
      m.endLeaf = min (k.endLeaf + 2 ^ reserveExp s k) (leafCount k) ∧ m.ranges = k.ranges ++ [(k.endLeaf, m.endLeaf)] ∧ m.writing = false ∧ m.next = k.next)) ∧
    (k.writing = false → exec (.reservationCommit d i) s = .next s))

/-- While power-good stands, a FULL session is open and no clear runs, the first waiting record is written as 64 bytes at the next index, and leaves
its buffer; else nothing is written. The last 4 bytes of a record are the check of its first 60; of two records in staging the higher severity waits
first. A window closes once COALESCE_MS have passed, with a summary record of the repeats where they came; a whole hour of operation raises HOURS
and saves its copy and POWER_CYCLE's. Rests on parts of R477, R478, R479, R482, R486, R489. -/
def Obligations.AlmanacRecordsAndWindows : Prop :=
  ((∀ (tk : Token) (r : AlmRec) (s : State), s.pwr.pg = true → fullSession s = true → s.alm.clearing = false → s.tok.socket = some tk → tk.almNext < 258048 →
    (waiting s).head? = some r →
    Does .almanacCommit s (fun t => waiting t = (waiting s).drop 1 ∧ ∃ u, t.tok.socket = some u ∧
      u.almRecords = tk.almRecords ++ [(tk.almNext, recordOut s r)] ∧ u.almNext = tk.almNext + 1 ∧ t.alm.eventSeq = s.alm.eventSeq)) ∧
  (∀ s : State, fullSession s = false ∨ s.alm.clearing = true → exec .almanacCommit s = .next s) ∧
  (∀ (s : State) (r : AlmRec), (recordOut s r).length = 64 ∧ (recordOut s r).drop 60 = leBytes 4 (crc32c 0xFFFFFFFF ((recordOut s r).take 60)).toNat) ∧
  (∀ (s : State) (a b : AlmRec), s.alm.staging = [a, b] → a.severity = 3 → b.severity = 4 → waiting s = b :: a :: s.alm.queue)) ∧
  ((∀ (w : CoalWin) (s : State), s.alm.windows = [w] →
    (s.clk < w.openAt + s.eph.cfg.coalesceMs * 1000000 → exec (.coalesceWindowClose w.kind w.source) s = .next s) ∧
    (w.openAt + s.eph.cfg.coalesceMs * 1000000 ≤ s.clk → (w.first = none → exec (.coalesceWindowClose w.kind w.source) s = .next { s with alm := { s.alm with windows := [] } }) ∧
      (∀ r, w.first = some r → r.severity = 1 → s.alm.queue = [] → Does (.coalesceWindowClose w.kind w.source) s (fun t => t.alm.windows = [] ∧
        ∃ m, t.alm.queue = [m] ∧ m.summary = true ∧ m.kind = r.kind ∧ m.source = r.source ∧ m.payload.take 4 = leBytes 4 w.count)))) ∧
  (∀ s : State, s.pwr.pg = true → 3600000000000 ≤ s.alm.hourNs → Does .hourTick s (fun t => t.alm.hours = (s.alm.hours + 1) % 2 ^ 24 ∧ t.alm.copyHours = t.alm.hours ∧
    t.alm.copyCycle = s.alm.powerCycle ∧ t.alm.hourNs + 3600000000000 = s.alm.hourNs ∧ t.jobs = s.jobs)) ∧
  (∀ s : State, s.alm.hourNs < 3600000000000 → exec .hourTick s = .next s))

/-- The Eyepiece, its BAR open and PF0 not in reset: a cursor write starts a load, its end shows the record at the cursor, a read of the last word
answers 0 while it loads and moves on after; a read of ALM_STATUS clears QUEUE_DROPS. A clear takes the code 0xA5, the right or RETURNED, and a FULL
session with a token that takes writes, and is refused with another code or without right; its end, where the token refuses no erase, leaves
ALMANAC_CLEARED as record 0, and spends 256 erases. Rests on parts of R256, R491, R492, R493. -/
def Obligations.EyepieceAndClear : Prop :=
  ∀ s : State, barOpen s .pf0 = true → (s.fnOf .pf0).resetting = false →
    (∀ v : Word, exec (.almCursorWrite v) s = .next { s with alm := { s.alm with cursor := v.toNat % 262144, loading := true } }) ∧
    (s.alm.loading = true → exec .almWindowLoad s = .next { s with alm := { s.alm with loading := false, window := cursorRecord s } } ∧
      exec .almWindow15Read s = .next { s with out := s.out ++ [.readValue 0] }) ∧
    (s.alm.loading = false → exec .almWindowLoad s = .next s ∧ exec .almWindow15Read s = .next { s with
      alm := { s.alm with cursor := (s.alm.cursor + 1) % 262144, loading := true }, out := s.out ++ [.readValue (fieldLE s.alm.window 60 4)] }) ∧
    exec .almStatusRead s = .next { s with alm := { s.alm with drops := 0 }, out := s.out ++ [.readValue (almStatus s)] } ∧
    (∀ (v : Word) (tk : Token), s.tok.socket = some tk → tk.readOnly = false → s.tok.readOnly = false → fullSession s = true → s.alm.clearing = false →
      (bitsOf v.toNat 8 8 = 0xA5 → bitOf v.toNat 0 = true → (s.dbg.active.getLsbD 1 = true ∨ lcCode s = 0x0F) →
        Does (.almClear v) s (fun t => t.alm.clearing = true ∧ t.jobs = s.jobs ∧ t.slots = s.slots ∧ ∃ u, t.tok.socket = some u ∧ u.almBegin = true ∧
          u.almRecords = tk.almRecords)) ∧
      ((bitsOf v.toNat 8 8 ≠ 0xA5 ∨ (s.dbg.active.getLsbD 1 = false ∧ lcCode s ≠ 0x0F)) → exec (.almClear v) s = .next s)) ∧
    (∀ tk : Token, s.tok.socket = some tk → tk.readOnly = false → fullSession s = true → s.alm.clearing = true → (eraseBlocks (blocksOf .almanac) tk).readOnly = false →
      1 < tk.journalFree →
      Does .almanacCleared s (fun t => t.alm.clearing = false ∧ t.alm.eventSeq = 1 ∧ t.alm.overflow = [] ∧ ∃ u b, t.tok.socket = some u ∧
        u.almRecords = [(0, b)] ∧ u.almNext = 1 ∧ u.almReserve = 0 ∧ u.almBegin = false ∧ u.units + 256 = tk.units ∧ b.length = 64)) ∧
    (s.alm.clearing = false → exec .almanacCleared s = .next s)


/-! ### Lifecycle, debug, tamper, faults -/

/-- A write of LCS_ADVANCE that reaches PF0 is refused for the first reason that holds (no complement pair, a target that the present state does not
allow, a precondition, BUSY): the refusal is counted, and no fuse, token, job or slot changes. An accepted one sets BUSY and burns the target's
begin fuse, and its end burns the end fuse. FIELDED leaves no right active and no certificate; RETURNED and SCRAPPED destroy the custody bank, the
root and the wrapping key and quarantine; SCRAPPED blows the device root secret, and clears the anchored keys of the token in a FULL session. That
the side effects happen at the write and the end fuse at LCS_TRANSITION is the model's reading (log 26). Rests on parts of R446, R447, R448, R449,
R450, R452. -/
def Obligations.LifecycleTransitions : Prop :=
  (∀ (v : Word) (s : State), pageOpen s .pf0 = true →
    (∀ why, lcsRefusal s v.toNat = why → why ≠ 0 → Does (.lcsAdvanceFielded v) s (fun t => t.lcs = { s.lcs with refused := sat8 s.lcs.refused, lastRefuse := why } ∧
      t.sc = s.sc ∧ t.tok = s.tok ∧ t.jobs = s.jobs ∧ t.slots = s.slots) ∧ exec (.lcsAdvanceIntegrator v) s = exec (.lcsAdvanceFielded v) s ∧
      exec (.lcsAdvanceReturned v) s = exec (.lcsAdvanceFielded v) s ∧ exec (.lcsAdvanceScrapped v) s = exec (.lcsAdvanceFielded v) s) ∧
    (lcsRefusal s v.toNat = 0 → v.toNat % 256 = 0x03 → Does (.lcsAdvanceIntegrator v) s (fun t => t.lcs.busy = true ∧ t.lcs.target = 0x03 ∧ 1 ∈ t.sc.lcFuses ∧
      t.sc.endFuses = s.sc.endFuses ∧ t.jobs = s.jobs ∧ t.slots = s.slots)) ∧
    (lcsRefusal s v.toNat = 0 → v.toNat % 256 = 0x07 → Does (.lcsAdvanceFielded v) s (fun t => t.lcs.busy = true ∧ 2 ∈ t.sc.lcFuses ∧
      t.sc.debugLock = true ∧ t.dbg.active = 0 ∧ t.dbg.cert = none ∧ t.jobs = s.jobs)) ∧
    (lcsRefusal s v.toNat = 0 → v.toNat % 256 = 0x0F → Does (.lcsAdvanceReturned v) s (fun t => t.lcs.busy = true ∧ 3 ∈ t.sc.lcFuses ∧
      t.sc.rootBlown = true ∧ t.sc.wrapKey = none ∧ t.tam.quarantine = true ∧ t.dbg.cert = none ∧ (∀ e ∈ t.sc.custodyBank, e.live = false))) ∧
    (lcsRefusal s v.toNat = 0 → v.toNat % 256 = 0x1F → Does (.lcsAdvanceScrapped v) s (fun t => t.lcs.busy = true ∧ 4 ∈ t.sc.lcFuses ∧
      t.sc.rootBlown = true ∧ t.sc.drsBlown = true ∧ t.sc.wrapKey = none ∧ t.tam.quarantine = true ∧
      (fullSession s = true → ∀ u, t.tok.socket = some u → u.masters = [] ∧ u.authorities = [] ∧ u.stateful = [] ∧ u.policies = [] ∧ u.claim = none))) ∧
    (s.lcs.busy = true → s.sc.sealDead = false → Does .lcsTransition s (fun t => t.lcs.busy = false ∧ fuseOf s.lcs.target ∈ t.sc.endFuses ∧ t.sc.lcFuses = s.sc.lcFuses ∧
      t.alm.eventSeq = sat32 s.alm.eventSeq)) ∧
    (s.lcs.busy = false → exec .lcsTransition s = .next s)) ∧
  (∀ (v : Nat) (s : State), v < 65536 →
    (v / 256 % 256 + v % 256 ≠ 255 → lcsRefusal s v = 1) ∧
    (v / 256 % 256 + v % 256 = 255 → v % 256 = 0x03 → lcCode s ≠ 0x01 → lcsRefusal s v = 2) ∧
    (v / 256 % 256 + v % 256 = 255 → v % 256 = 0x07 → lcCode s ≠ 0x03 → lcsRefusal s v = 2) ∧
    (v / 256 % 256 + v % 256 = 255 → v % 256 = 0x0F → lcCode s ≠ 0x07 → lcsRefusal s v = 2) ∧
    (v / 256 % 256 + v % 256 = 255 → v % 256 = 0x03 → lcCode s = 0x01 → s.sc.certBank = false → lcsRefusal s v = 3) ∧
    (v / 256 % 256 + v % 256 = 255 → v % 256 = 0x07 → lcCode s = 0x03 → rootFused s = false → lcsRefusal s v = 3) ∧
    (v / 256 % 256 + v % 256 = 255 → v % 256 = 0x07 → lcCode s = 0x03 → rootFused s = true → s.lcs.busy = true → lcsRefusal s v = 4) ∧
    (v / 256 % 256 + v % 256 = 255 → v % 256 = 0x1F → s.lcs.busy = false → lcsRefusal s v = 0))

/-- A write of DBG_RIGHTS that reaches PF0 makes ACTIVE those of its rights that are AVAILABLE, and a change is recorded. While KERNEL_STEP is
active and no secret-bearing job is in flight, DBG_STEP_ARM stores ARM and CLUSTER, STEP lets the halted job go on by one instruction and RUN ends
the halt; STEP and RUN do nothing without a halted job, and none of the three does anything otherwise. A sent trace frame frees the output; the
frame that waited behind a DROPPED one follows it, which is the model's reading of R464 (log 39). Rests on parts of R457, R458, R462, R464. -/
def Obligations.DebugRows : Prop :=
  (∀ (v : Word) (s : State), barOpen s .pf0 = true → (s.fnOf .pf0).resetting = false →
    Does (.dbgRightsWrite v) s (fun t => t.dbg.active = BitVec.ofNat 6 (v.toNat % 64 &&& rightsAvailable s) ∧ t.jobs = s.jobs ∧ t.sc = s.sc ∧
      (t.dbg.active = s.dbg.active → t = s) ∧ (t.dbg.active ≠ s.dbg.active → t.alm.eventSeq = sat32 s.alm.eventSeq))) ∧
  (∀ (v : Word) (i : Nat) (s : State), barOpen s .pf0 = true → (s.fnOf .pf0).resetting = false → s.dbg.active.getLsbD 3 = true → settled s = true →
    exec (.dbgStepArm v) s = .next { s with dbg := { s.dbg with arm := bitOf v.toNat 31, cluster := v.toNat % 32 } } ∧
    (s.dbg.halted = some i → exec .dbgStep s = .next { s with dbg := { s.dbg with stepOne := true } } ∧
      exec .dbgStepRun s = .next { s with dbg := { s.dbg with arm := false, stepOne := false, halted := none, haltEnd := some s.clk } }) ∧
    (s.dbg.halted = none → exec .dbgStep s = .next s ∧ exec .dbgStepRun s = .next s)) ∧
  (∀ (v : Word) (s : State), s.dbg.active.getLsbD 3 = false ∨ settled s = false →
    exec (.dbgStepArm v) s = .next s ∧ exec .dbgStep s = .next s ∧ exec .dbgStepRun s = .next s) ∧
  (∀ s : State, (s.dbg.traceNext = none → exec .traceFrameSent s = .next { s with dbg := { s.dbg with traceBusy := false } }) ∧
    (∀ b : Bytes, s.dbg.traceNext = some b → traceOn s = true →
      exec .traceFrameSent s = .next { s with dbg := { s.dbg with traceBusy := true, traceNext := none }, out := s.out ++ [.trace b] }))

/-- An alarm in operation sets its sensor bit and, by its class, does no more, or takes the units under it out of service, or erases: quarantine, no
wrapping key, no debug right, the sealing key to follow, the token session to end with the instant, and for DESTROY the mark that its writes are
pending. That holds of every sensor: of 12, 13 and 15 while the auxiliary domain has power, of FAULT_RATE with eight mismatches within 100 ms. An
ABORT after an ERASE of the same instant holds no unit, which is the model's reading of R472 (log 39). A sensor that main power feeds does nothing
without it; FAULT_RATE does nothing with fewer than eight mismatches. Sensors 0 to 9 have at least class ABORT, 10 to 14 at least ERASE, and no
alarm is DESTROY outside FIELDED. Rests on parts of R465, R466, R467, R468, R469, R470, R472. -/
def Obligations.TamperAlarmsByClass : Prop :=
  (∀ (n q reading : Nat) (s : State), n < 16 → s.pwr.pg = true → s.boot.done = true → (n = 12 ∨ n = 13 ∨ n = 15 → s.pwr.auxPowered = true) →
    (n = 14 → 8 ≤ (s.tam.mismatches.filter (fun t => s.clk < t + 100000000)).length) → Does (.tamperAlarm n q reading) s (fun t =>
    t.tam.sensor.getLsbD n = true ∧
    (alarmClass s n = 0 → t.tam.quarantine = s.tam.quarantine ∧ t.jobs = s.jobs ∧ t.units = s.units ∧ t.slots = s.slots ∧ t.sc = s.sc) ∧
    (alarmClass s n = 1 → (alarmsNow s).erase = false → t.tam.quarantine = s.tam.quarantine ∧ ∀ u ∈ t.units, underSensor s.part n q u.id = true → u.st ≠ .inService) ∧
    (alarmClass s n = 1 → (alarmsNow s).erase = true → t.units = s.units ∧ t.jobs = s.jobs) ∧
    (2 ≤ alarmClass s n → t.tam.quarantine = true ∧ t.sc.wrapKey = none ∧ t.sc.sealDead = true ∧ t.dbg.active = 0 ∧ t.tam.sessionOver = true ∧ (alarmClass s n = 3 → t.tam.destroyPending = true)))) ∧
  (∀ (n q reading : Nat) (s : State), s.pwr.pg = false → n ≠ 12 → n ≠ 13 → n ≠ 15 → exec (.tamperAlarm n q reading) s = .next s) ∧
  (∀ (q reading : Nat) (s : State), s.pwr.pg = true → s.tam.mismatches.length < 8 → exec (.tamperAlarm 14 q reading) s = .next s) ∧
  (∀ (s : State) (n : Nat), (n < 10 → minClass n = 1) ∧ (10 ≤ n → n < 15 → minClass n = 2) ∧ (lcCode s ≠ 0x07 → alarmClass s n ≠ 3) ∧
    (10 ≤ n → n < 15 → s.dbg.active.getLsbD 5 = false → 2 ≤ alarmClass s n))

/-- The sealing key's destruction frees every slot, its material gone and its generation kept. A DESTROY's writes end with the anchored key area
zeros, its mark cleared and the session over. A condition that clears keeps its first instant. Once it has been clear for 1,000 Transits its holds
go: each unit held for nothing else returns to service, and every other unit is as before; not before. A write of TAMPER_ACK clears each sensor bit
written whose record is committed and whose condition is clear, with its class and count, and nothing else, and SLEEP_LATCH while no DESTROY is
pending. Rests on parts of R222, R468, R469, R470, R476. -/
def Obligations.TamperResponsesEnd : Prop :=
  ((∀ s : State, s.sc.sealDead = true → s.sc.sealKey.isSome = true → Does .sealingKeyDestroy s (fun t => t.sc.sealKey = none ∧ t.slots.length = s.slots.length ∧
    (∀ (i : Nat) (x : Slot), s.slots[i]? = some x → t.slots[i]? = some { freeSlot x with changed := none } ∧ (freeSlot x).st = .free ∧ (freeSlot x).material = [] ∧
      (freeSlot x).gen = x.gen) ∧ t.sc.drs = s.sc.drs ∧ t.jobs = s.jobs)) ∧
  (∀ s : State, s.sc.sealDead = false ∨ s.sc.sealKey = none → exec .sealingKeyDestroy s = .next s) ∧
  (∀ (tk : Token) (s : State), s.pwr.pg = true → s.tam.destroyPending = true → fullSession s = true → s.tok.socket = some tk →
    Does .destroyZeroizeEnd s (fun t => t.tam.destroyPending = false ∧ t.tok.session = .ended ∧ ∃ u, t.tok.socket = some u ∧ u.masters = [] ∧ u.authorities = [] ∧
      u.kernelKeys = [] ∧ u.stateful = [] ∧ u.attest = none ∧ u.policies = [] ∧ u.almRecords = tk.almRecords)) ∧
  (∀ s : State, s.pwr.pg = false ∨ s.tam.destroyPending = false ∨ fullSession s = false → exec .destroyZeroizeEnd s = .next s)) ∧
  ((∀ (n q : Nat) (s : State), (∀ c ∈ s.tam.conds, c.1 = n → c.2.2 = none ∨ ∃ a, c.2.2 = some a ∧ s.clk < a + 1024000) → exec (.tamperHoldEnd n q) s = .next s) ∧
  (∀ (n q p a : Nat) (s : State), p = (if quadrantLocal n = true then q else 0) → (n, p, some a) ∈ s.tam.conds → a + 1024000 ≤ s.clk →
    Does (.tamperHoldEnd n q) s (fun t => t.units.length = s.units.length ∧ t.jobs = s.jobs ∧ t.slots = s.slots ∧
      (∀ h, h ∈ t.tam.holds ↔ h ∈ s.tam.holds ∧ ¬(h.2 = some n ∧ underSensor s.part n q h.1 = true)) ∧
      ∀ (i : Nat) (x : UnitSt), s.units[i]? = some x →
        (x.st = .heldTamper → (∀ h ∈ s.tam.holds, h.1 = x.id → h.2 = some n ∧ underSensor s.part n q x.id = true) → t.units[i]? = some { x with st := .inService }) ∧
        (x.st ≠ .heldTamper ∨ (∃ h ∈ s.tam.holds, h.1 = x.id ∧ ¬(h.2 = some n ∧ underSensor s.part n q x.id = true)) → t.units[i]? = some x))) ∧
  (∀ (n q p : Nat) (s : State), p = (if quadrantLocal n = true then q else 0) →
    Does (.tamperConditionClear n q) s (fun t => t = { s with tam := { s.tam with conds := t.tam.conds } } ∧ t.tam.conds.length = s.tam.conds.length ∧
      ∀ (i : Nat) (c : Nat × Nat × Option Nat), s.tam.conds[i]? = some c →
        (c.1 = n → c.2.1 = p → t.tam.conds[i]? = some (n, p, some (c.2.2.getD s.clk))) ∧ (c.1 ≠ n ∨ c.2.1 ≠ p → t.tam.conds[i]? = some c))) ∧
  (∀ (v : Word) (s : State), barOpen s .pf0 = true → (s.fnOf .pf0).resetting = false →
    Does (.tamperAckSensor v) s (fun t => t = { s with tam := { s.tam with sensor := t.tam.sensor, classOf := t.tam.classOf, counts := t.tam.counts } } ∧
      ∀ n, n < 16 → t.tam.sensor.getLsbD n = (s.tam.sensor.getLsbD n && !(bitOf v.toNat n && sensorAckable s n)) ∧
        (∀ c, s.tam.counts[n]? = some c → t.tam.counts[n]? = some (if bitOf v.toNat n = true ∧ sensorAckable s n = true then 0 else c)) ∧
        (∀ k, (n, k) ∈ t.tam.classOf ↔ (n, k) ∈ s.tam.classOf ∧ ¬(bitOf v.toNat n = true ∧ sensorAckable s n = true)))) ∧
  (∀ (v : Word) (s : State), barOpen s .pf0 = true → (s.fnOf .pf0).resetting = false →
    (bitOf v.toNat 26 = true → s.tam.destroyPending = false → exec (.tamperAckSleepLatch v) s = .next { s with tam := { s.tam with sleepLatch := false } }) ∧
    (bitOf v.toNat 26 = false ∨ s.tam.destroyPending = true → exec (.tamperAckSleepLatch v) s = .next s)) ∧
  (∀ (v : Word) (s : State), barOpen s .pf0 = false ∨ (s.fnOf .pf0).resetting = true → exec (.tamperAckSensor v) s = .next s ∧ exec (.tamperAckSleepLatch v) s = .next s))

/-- FAULT_ACK clears the bits written whose FAULT records are committed, with their counts, and nothing else. A unit with no progress for 20 µs is
fenced, and not before. A noise source that fails a test is excluded and recorded, whether or not the bit generators run, and with fewer than two
left they stop; one excluded already does nothing. A lockstep mismatch of the security controller quarantines, one of the Orrery does not. A mask
generator takes the seed it fetched before, 2^20 blocks of its count gone, and fetches the next where the bit generators run. A failed channel is
fenced, and the slots whose entries lie on it are free. The model's choices: which channel a slot lies on (log 13), the cause of a fence by HANG and
what a fence's records hold (logs 23, 26), and what MASK_RESEED does at another count (log 39). Rests on parts of R11, R18, R19, R20, R476, R494,
R495, R498. -/
def Obligations.FaultUnitRows : Prop :=
  (∀ (v : Word) (s : State), barOpen s .pf0 = true → (s.fnOf .pf0).resetting = false → Does (.faultAck v) s (fun t =>
    (∀ n, n < 16 → t.flt.status.getLsbD n = (s.flt.status.getLsbD n && !(bitOf v.toNat n && !(faultPending s n)))) ∧
    (∀ n c, s.flt.counts[n]? = some c → t.flt.counts[n]? = some (if bitOf v.toNat n = true ∧ faultPending s n = false then 0 else c)) ∧
    t = { s with flt := { s.flt with status := t.flt.status, counts := t.flt.counts } })) ∧
  ((∀ (u i : Nat) (x : UnitSt) (s : State), s.unit? u = some x → x.job = some i → s.dbg.halted ≠ some i → x.st = .inService → (poolOfUnit u).isSome = true → x.busySince + 20000 ≤ s.clk →
    Does (.hang u) s (fun t => t.flt.status.getLsbD 13 = true ∧ ∃ y, t.unit? u = some y ∧ y.st = .fencedFault ∧ y.cause = 13)) ∧
  (∀ (u i : Nat) (x : UnitSt) (s : State), s.unit? u = some x → x.job = some i → s.clk < x.busySince + 20000 → exec (.hang u) s = .next s) ∧
  (∀ (n test : Nat) (s : State), s.pwr.pg = true → s.sc.sources[n]? = some true → Does (.entropy n test) s (fun t => t.flt.status.getLsbD 10 = true ∧
    t.sc.sources = modAt s.sc.sources n (fun _ => false) ∧ (t.sc.drbgOn = true ↔ s.sc.drbgOn = true ∧ 2 ≤ ((modAt s.sc.sources n (fun _ => false)).filter id).length))) ∧
  (∀ (n test : Nat) (s : State), (s.pwr.pg = false ∨ s.sc.sources[n]? ≠ some true) → exec (.entropy n test) s = .next s) ∧
  (∀ s : State, s.pwr.pg = true → Does (.lockstep false) s (fun t => t.flt.status.getLsbD 11 = true ∧ t.tam.quarantine = true ∧ t.slots = s.slots ∧ t.jobs = s.jobs) ∧
    Does (.lockstep true) s (fun t => t.flt.status.getLsbD 11 = true ∧ t.tam.quarantine = s.tam.quarantine ∧ t.jobs = s.jobs)) ∧
  (∀ (u : Nat) (x : UnitSt) (s : State), s.unit? u = some x → Does (.maskReseed u) s (fun t => t.jobs = s.jobs ∧ (s.sc.drbgOn = false → t.sc = s.sc) ∧ ∃ d : Bytes,
    t.unit? u = some { x with maskBlocks := x.maskBlocks - 2 ^ 20, maskSeed := x.maskNext, maskNext := d } ∧ (s.sc.drbgOn = false → d = []))) ∧
  (∀ (ch : Nat) (c : Chan) (s : State), s.pwr.pg = true → s.chans[ch]? = some c → c.inService = true → Does (.dramChannelLinkFailure ch) s (fun t =>
    (∃ d, t.chans[ch]? = some d ∧ d.inService = false) ∧ t.flt.status.getLsbD 13 = true ∧ t.flt.degraded = true ∧
    ∀ x ∈ t.slots, x.channel % 8 = ch → x.st = .free)))


/-! ### The digest port, the mailboxes, register writes -/

/-- The digest port of a function whose page answers: a START with an algorithm it does not offer is ERROR 3; an unkeyed one with a hash it offers
is BUSY and forgets what it had. Words of 8 bytes are absorbed in order, one that finds 512 buffered is ERROR 1, and one to an idle port is ERROR 5;
the last word is kept, and the length ends the message with the last word's bytes. DONE shows the digest of the whole message and raises SEQ by 1; a
mismatch of the two computations is ERROR 4 and no digest, with a fault; RELEASE abandons. Rests on parts of R389, R390, R391. -/
def Obligations.DigestPortHashesItsWords : Prop :=
  ∀ (f : Fn) (x : FnState) (s : State), s.fn? f = some x → pageOpen s f = true →
    (∀ alg : Nat, (ddpAlgs.contains alg = false → Does (.ddpStart f alg) s (fun t => (t.fnOf f).ddp.error = 3 ∧ (t.fnOf f).ddp.busy = false)) ∧
      (ddpAlgs.contains alg = true → alg ≠ 0x0F → hType x.ddp.key = 0 → Does (.ddpStart f alg) s (fun t => (t.fnOf f).ddp.error = 0 ∧ (t.fnOf f).ddp.busy = true ∧
        (t.fnOf f).ddp.done = false ∧ (t.fnOf f).ddp.msg = [] ∧ (t.fnOf f).ddp.runAlg = alg ∧ (t.fnOf f).ddp.keyed = none))) ∧
    (∀ w : RegAccess, ddpLands f 0x810 w s = true →
      (x.ddp.error = 0 → x.ddp.busy = true → x.ddp.done = false → x.ddp.ending = false → x.ddp.buffered < 512 →
        Does (.ddpData f w) s (fun t => (t.fnOf f).ddp.msg = x.ddp.msg ++ leBytes 8 w.value ∧ (t.fnOf f).ddp.busy = true ∧ (t.fnOf f).ddp.error = 0)) ∧
      (x.ddp.error = 0 → x.ddp.busy = true → x.ddp.done = false → x.ddp.ending = false → 512 ≤ x.ddp.buffered → x.ddp.drainAt = s.clk →
        Does (.ddpData f w) s (fun t => (t.fnOf f).ddp.error = 1 ∧ (t.fnOf f).ddp.busy = false)) ∧
      (x.ddp.busy = false → x.ddp.done = false → Does (.ddpData f w) s (fun t => (t.fnOf f).ddp.error = 5))) ∧
    (∀ w : RegAccess, ddpLands f 0x818 w s = true → x.ddp.error = 0 → x.ddp.busy = true → x.ddp.done = false → x.ddp.ending = false → x.ddp.buffered < 512 →
      Does (.ddpLastWord f w) s (fun t => (t.fnOf f).ddp.lastWord = leBytes 8 w.value ∧ (t.fnOf f).ddp.msg = x.ddp.msg)) ∧
    (∀ v : Word, x.ddp.error = 0 → x.ddp.busy = true → x.ddp.done = false → x.ddp.ending = false → Does (.ddpLastLength f v) s (fun t =>
      (t.fnOf f).ddp.ending = true ∧ (t.fnOf f).ddp.busy = true ∧ (t.fnOf f).ddp.msg = x.ddp.msg ++ lastBytes v.toNat x.ddp.lastWord)) ∧
    (x.ddp.busy = true → x.ddp.ending = true →
      Does (.ddpDone f false) s (fun t => (t.fnOf f).ddp.done = true ∧ (t.fnOf f).ddp.busy = false ∧ (t.fnOf f).ddp.seq = (x.ddp.seq + 1) % 65536 ∧
        (x.ddp.keyed = none → (t.fnOf f).ddp.digest = hashFixed x.ddp.runAlg x.ddp.msg) ∧ t.jobs = s.jobs ∧ t.slots = s.slots) ∧
      Does (.ddpDone f true) s (fun t => (t.fnOf f).ddp.error = 4 ∧ (t.fnOf f).ddp.digest = [] ∧ (t.fnOf f).ddp.done = false ∧ t.flt.status.getLsbD 15 = true)) ∧
    Does (.ddpRelease f) s (fun t => (t.fnOf f).ddp.busy = false ∧ (t.fnOf f).ddp.done = false ∧ (t.fnOf f).ddp.digest = [] ∧ (t.fnOf f).ddp.keyed = none)

/-- The mailboxes: a send makes the message pending, and signals PF0 where the manager's vector is enabled; a second send before the acknowledgement
only sets OVERRUN; an acknowledgement releases the buffer, and does nothing without a message. A word written into the window changes it, or only
sets OVERRUN while the message is pending. Without a mailbox, or with none selected, nothing happens. Rests on parts of R433, R434, R435. -/
def Obligations.MailboxMessagesWaitForTheirReader : Prop :=
  (∀ (f : Fn) (x : FnState) (s : State), s.fn? f = some x → hasMailbox f = true → pageOpen s f = true → s.mgr.enable = false →
    (x.mbx.outPend = false → exec (.outSend f) s = .next (onMbx f (fun m => { m with outPend := true, outSent := m.outLen }) s)) ∧
    (x.mbx.outPend = true → exec (.outSend f) s = .next (onMbx f (fun m => { m with overrun := true }) s)) ∧
    (x.mbx.inPend = true → exec (.inAck f) s = .next (onMbx f (fun m => { m with inPend := false }) s)) ∧
    (x.mbx.inPend = false → exec (.inAck f) s = .next s)) ∧
  (∀ (f : Fn) (x : FnState) (s : State), s.fn? f = some x → selected s = some f → pageOpen s .pf0 = true → x.mbx.enable = false →
    (x.mbx.inPend = false → exec .inSend s = .next (onMbx f (fun m => { m with inPend := true, inLen := s.mgr.inLen }) s)) ∧
    (x.mbx.inPend = true → exec .inSend s = .next { s with mgr := { s.mgr with overrun := true } }) ∧
    (x.mbx.outPend = true → exec .outAck s = .next (onMbx f (fun m => { m with outPend := false }) s)) ∧
    (x.mbx.outPend = false → exec .outAck s = .next s)) ∧
  (∀ (f : Fn) (x : FnState) (s : State), s.fn? f = some x → hasMailbox f = true → pageOpen s f = true → s.mgr.enable = true → x.mbx.outPend = false →
    exec (.outSend f) s = .next (signal .pf0 s.mgr.vector (onMbx f (fun m => { m with outPend := true, outSent := m.outLen }) s))) ∧
  (∀ (w : RegAccess) (f : Fn) (x : FnState) (o : Nat) (s : State), w.width = 32 → w.off % 4 = 0 → ideDiscards s w = false → pageAt s w.target w.off = some (f, o) → 0x500 ≤ o → o < 0x600 →
    s.fn? f = some x → hasMailbox f = true → pageOpen s f = true →
    (x.mbx.outPend = false → exec (.mailboxDataWrite w) s = .next (onMbx f (fun m => { m with outWin := overwrite m.outWin (o - 0x500) (leBytes 4 w.value) }) s)) ∧
    (x.mbx.outPend = true → exec (.mailboxDataWrite w) s = .next (onMbx f (fun m => { m with overrun := true }) s))) ∧
  (∀ s : State, selected s = none → exec .inSend s = .next s ∧ exec .outAck s = .next s) ∧
  (∀ (f : Fn) (s : State), hasMailbox f = false → exec (.outSend f) s = .next s ∧ exec (.inAck f) s = .next s)

/-- A register write of another width than 32 or 64 bits, at an offset that is not aligned to it, while PF0's BARs are closed, or to a configuration
field while the link is down, changes nothing; the registers of PF0's page reach their own fields, and a locked admin-queue base keeps its value. In
configuration space a BAR takes its address, AER status bits clear where 1 is written, MSI-X Enable takes its bit, and NumVFs changes while VF
Enable is 0 alone; a word of the MSI-X table changes its own entry, and a mask bit of 1 masks its vector. That a field is named and not addressed is
the model's form (log 29). Rests on parts of R122, R128, R132, R134, R167, R180, R491, R501, R503. -/
def Obligations.RegisterWritesReachTheirRegister : Prop :=
  (∀ (f : Fn) (off v width : Nat) (s : State), width ≠ 32 → width ≠ 64 → exec (.registerWrite { target := .bar0 f, off := off, width := width, value := v }) s = .next s) ∧
  (∀ (f : Fn) (off v : Nat) (s : State), off % 4 ≠ 0 → exec (.registerWrite { target := .bar0 f, off := off, width := 32, value := v }) s = .next s) ∧
  (∀ (off v : Nat) (s : State), barOpen s .pf0 = false → exec (.registerWrite { target := .bar0 .pf0, off := off, width := 32, value := v }) s = .next s) ∧
  (∀ (f : Fn) (fld : CfgField) (v : Nat) (s : State), s.link.up = false → exec (.registerWrite { target := .config f fld, off := 0, width := 32, value := v }) s = .next s) ∧
  (∀ (v : Nat) (s : State), pageOpen s .pf0 = true →
    exec (.registerWrite { target := .bar0 .pf0, off := 0x60000, width := 32, value := v }) s = .next { s with alm := { s.alm with cursor := v % 262144, loading := true } } ∧
    exec (.registerWrite { target := .bar0 .pf0, off := 0x60010, width := 32, value := v }) s = .next { s with alm := { s.alm with ovfSel := v % 65536 } } ∧
    exec (.registerWrite { target := .bar0 .pf0, off := 0x80008, width := 32, value := v }) s = .next { s with mgr := { s.mgr with enable := bitOf v 31, vector := bitsOf v 0 11 } }) ∧
  (∀ (v : Nat) (x : FnState) (s : State), s.fn? .pf0 = some x → pageOpen s .pf0 = true →
    (x.aqEnable = true → exec (.registerWrite { target := .bar0 .pf0, off := 0x100100, width := 32, value := v }) s = .next s) ∧
    (x.aqEnable = false → Does (.registerWrite { target := .bar0 .pf0, off := 0x100100, width := 32, value := v }) s (fun t =>
      (t.fnOf .pf0).aqSqBase.toNat = x.aqSqBase.toNat / 2 ^ 32 * 2 ^ 32 + v % 2 ^ 32 / 4096 * 4096 ∧ (t.fnOf .pf0).aqCqBase = x.aqCqBase)) ∧
    Does (.registerWrite { target := .bar0 .pf0, off := 0x100200, width := 32, value := v }) s (fun t => exec (.evrHead .pf0 (BitVec.ofNat 32 v)) s = .next t)) ∧
  (∀ (f : Fn) (x : FnState) (v : Nat) (s : State), s.fn? f = some x → cfgOpen s f = true →
    (f = .pf0 ∨ f = .pf1 → (∀ n, n = 0 ∨ n = 2 ∨ n = 4 → exec (.registerWrite { target := .config f (.bar n), value := v }) s =
        .next (s.onFn f (fun y => { y with cfg := { y.cfg with bars := modAt y.cfg.bars (n / 2) (fun _ => v % 2 ^ 64) } }))) ∧
      Does (.registerWrite { target := .config f .aerUncorrectable, value := v }) s (fun t => ∃ a, t = s.onFn f (fun y => { y with cfg := { y.cfg with aer := a } }) ∧
        (∀ i, i < 32 → a.unc.getLsbD i = (x.cfg.aer.unc.getLsbD i && !(v.testBit i))) ∧ a.cor = x.cfg.aer.cor ∧ a.uncMask = x.cfg.aer.uncMask) ∧
      Does (.registerWrite { target := .config f .aerCorrectable, value := v }) s (fun t => ∃ a, t = s.onFn f (fun y => { y with cfg := { y.cfg with aer := a } }) ∧
        (∀ i, i < 32 → a.cor.getLsbD i = (x.cfg.aer.cor.getLsbD i && !(v.testBit i))) ∧ a.unc = x.cfg.aer.unc ∧ a.header = x.cfg.aer.header)) ∧
    (v % 2 = 0 ∨ x.pba = [] → exec (.registerWrite { target := .config f .msixEnable, value := v }) s = .next (s.onFn f (fun y => { y with msixEnable := v % 2 == 1 }))) ∧
    (∀ (n : Nat) (u : RegAccess), pageOpen s f = true → n < tableVectors f → u.target = .bar4 f → u.width = 32 → u.ide = none → u.error = none →
      (u.off = 16 * n → Does (.registerWrite u) s (fun t => msixEntry (t.fnOf f) n = ((msixEntry x n).1 / 2 ^ 32 * 2 ^ 32 + u.value % 2 ^ 32 / 4 * 4, (msixEntry x n).2) ∧
        (∀ k, k ≠ n → msixEntry (t.fnOf f) k = msixEntry x k) ∧ t.out = s.out)) ∧
      (u.off = 16 * n + 8 → Does (.registerWrite u) s (fun t => msixEntry (t.fnOf f) n = ((msixEntry x n).1, u.value % 2 ^ 32) ∧
        (∀ k, k ≠ n → msixEntry (t.fnOf f) k = msixEntry x k) ∧ t.out = s.out)) ∧
      (u.off = 16 * n + 12 → u.value % 2 = 1 → Does (.registerWrite u) s (fun t => (t.fnOf f).unmasked.contains n = false ∧ t.out = s.out))) ∧
    (f = .pf0 → (s.link.vfEnable = false → exec (.registerWrite { target := .config f .numVfs, value := v }) s = .next { s with link := { s.link with numVfs := min v 255 } }) ∧
      (s.link.vfEnable = true → exec (.registerWrite { target := .config f .numVfs, value := v }) s = .next s)))


/-! ### The block -/

/-- A step takes the command at the front of the queue and runs it on the state with the queue's rest. That the module's commands wait in a queue is
the model's form (log 1). Rests on parts of R21. -/
def Obligations.StepRunsTheFrontCommand : Prop :=
  ∀ (c : Instr) (rest : List Instr) (s : State), s.pending = c :: rest → step s = exec c { s with pending := rest }

/-- Every command answers a next state, and leaves the queue and the part as they are; every step answers a next state and removes the front of the
queue and nothing else from it. The queue with its tick, and a part that no command changes, are the model's form (logs 1, 8). Rests on parts of R1.
-/
def Obligations.EveryCommandCompletes : Prop :=
  (∀ (c : Instr) (s : State), Does c s (fun t => t.pending = s.pending ∧ t.part = s.part)) ∧
  (∀ s : State, ∃ t, step s = .next t ∧ t.pending = s.pending.drop 1 ∧ t.part = s.part)

/-- From every state whose 32 clusters hold their tile memory in canonical form, a step leads to one whose clusters do (the form of log 22). Rests
on parts of R396, R398. -/
def Obligations.StepKeepsTilesCanonical : Prop :=
  ∀ s t : State, TilesOk s → step s = .next t → TilesOk t

/-- A fuse that is burned stays burned, and the floor never falls, over every step from every state, power losses and resets among them. Rests on
parts of R234, R446, R450. -/
def Obligations.FusesStayBurned : Prop :=
  ∀ s t : State, step s = .next t → FusesHold s.sc t.sc

/-- Every queue's ring stays in order over every step, from every state in which they are, but where the step restores an instance, whose rings the
blob gives: both indices lie in the ring, no more entries stand between them than its depth, and an SQ's entries are those whose arrival was seen.
Rests on parts of R148, R149, R150, R151, R157. -/
def Obligations.RingsStayInOrder : Prop :=
  ∀ s t : State, RingsOk s → (∀ a, s.pending.head? ≠ some (.restoreState a)) → step s = .next t → RingsOk t

/-- Over every step from every state a FREE slot without material stays so, and a slot that becomes FREE holds none. No slot's generation falls and
no slot goes, but where the step resets the module or restores an instance. Rests on parts of R217, R218. -/
def Obligations.SlotGenerationsNeverFall : Prop :=
  ∀ s t : State, step s = .next t → (SlotsOk s → SlotsOk t) ∧
    ((∀ c, s.pending.head? = some c → resetsModule c = false ∧ ∀ a, c ≠ .restoreState a) → GenHold s.slots t.slots)

/-- The leaf that a SIGN takes at dispatch is at or above its key's next leaf, in a reserved range below the end that its records have, and the key's
next leaf is the one after it. Over every step from every state each key's reserved ranges stay below that end, apart and rising, but where the step
senses another token; and no key's next leaf or recorded end falls, but where the step senses a token or can apply an AUM. So no leaf is taken
twice. Rests on parts of R253, R304. -/
def Obligations.EachLeafIsTakenOnce : Prop :=
  (∀ (j : Job) (g : Nat) (s t : State), dOp j.desc = 0x1301 → nextLeaf (dKey j.desc) s = (some g, t) → bindLeaf j s = ({ j with leaf := some g }, t) ∧
    ∃ k l, stateful? s (dKey j.desc) = some k ∧ stateful? t (dKey j.desc) = some l ∧ k.next ≤ g ∧ l.next = g + 1 ∧
      ∃ r ∈ k.ranges, r.1 ≤ g ∧ g < r.2 ∧ (LeafOk k → g < k.endLeaf)) ∧
  (∀ s t : State, step s = .next t → (∀ env, s.pending.head? ≠ some (.powerGood env)) → LeavesOk s → LeavesOk t) ∧
  (∀ s t : State, step s = .next t → (∀ c, s.pending.head? = some c → appliesAums c = false) → NextsHold s.tok.socket t.tok.socket)

/-- The module before its first power-good: unpowered, no end fuse burned and no debug lock, no queue, job, slot or record, the tamper and fault
registers 0, no command waiting, the link down, and its tile memory canonical. That the state before power-good is the state after reset is the
model's reading (log 7). Rests on parts of R70, R446, R465, R494. -/
def Obligations.ResetState : Prop :=
  TilesOk State.reset ∧ State.reset.pending = [] ∧ State.reset.pwr.pg = false ∧ State.reset.jobs = [] ∧ State.reset.sqs = [] ∧ State.reset.cqs = [] ∧
  State.reset.slots = [] ∧ State.reset.tam.sensor = 0 ∧ State.reset.tam.sleepLatch = false ∧ State.reset.tam.destroyPending = false ∧
  State.reset.tam.quarantine = false ∧ State.reset.flt.status = 0 ∧ State.reset.alm.queue = [] ∧ State.reset.alm.staging = [] ∧
  State.reset.link.up = false ∧ State.reset.boot.done = false ∧ State.reset.sc.endFuses = [] ∧ State.reset.sc.debugLock = false
end

