-- ==== Sys2Proof/Laws/State.lean ====
section
/-!
SUPPORT. One law per field for each update of State: what it leaves, and what it changes.
-/
namespace Sys2Proof.Machine
set_option Elab.async false -- the package as one text has more theorems than threads

/-! ### onFn -/

@[simp] theorem onFn_part (s : State) (f : Fn) (g : FnState → FnState) : (s.onFn f g).part = s.part := rfl
@[simp] theorem onFn_clk (s : State) (f : Fn) (g : FnState → FnState) : (s.onFn f g).clk = s.clk := rfl
@[simp] theorem onFn_pwr (s : State) (f : Fn) (g : FnState → FnState) : (s.onFn f g).pwr = s.pwr := rfl
@[simp] theorem onFn_boot (s : State) (f : Fn) (g : FnState → FnState) : (s.onFn f g).boot = s.boot := rfl
@[simp] theorem onFn_eph (s : State) (f : Fn) (g : FnState → FnState) : (s.onFn f g).eph = s.eph := rfl
@[simp] theorem onFn_mer (s : State) (f : Fn) (g : FnState → FnState) : (s.onFn f g).mer = s.mer := rfl
@[simp] theorem onFn_link (s : State) (f : Fn) (g : FnState → FnState) : (s.onFn f g).link = s.link := rfl
@[simp] theorem onFn_fns (s : State) (f : Fn) (g : FnState → FnState) : (s.onFn f g).fns = modFirst (fun x => x.fn == f) g s.fns := rfl
@[simp] theorem onFn_slices (s : State) (f : Fn) (g : FnState → FnState) : (s.onFn f g).slices = s.slices := rfl
@[simp] theorem onFn_mgr (s : State) (f : Fn) (g : FnState → FnState) : (s.onFn f g).mgr = s.mgr := rfl
@[simp] theorem onFn_sqs (s : State) (f : Fn) (g : FnState → FnState) : (s.onFn f g).sqs = s.sqs := rfl
@[simp] theorem onFn_cqs (s : State) (f : Fn) (g : FnState → FnState) : (s.onFn f g).cqs = s.cqs := rfl
@[simp] theorem onFn_jobs (s : State) (f : Fn) (g : FnState → FnState) : (s.onFn f g).jobs = s.jobs := rfl
@[simp] theorem onFn_nextJob (s : State) (f : Fn) (g : FnState → FnState) : (s.onFn f g).nextJob = s.nextJob := rfl
@[simp] theorem onFn_waits (s : State) (f : Fn) (g : FnState → FnState) : (s.onFn f g).waits = s.waits := rfl
@[simp] theorem onFn_slots (s : State) (f : Fn) (g : FnState → FnState) : (s.onFn f g).slots = s.slots := rfl
@[simp] theorem onFn_ctxs (s : State) (f : Fn) (g : FnState → FnState) : (s.onFn f g).ctxs = s.ctxs := rfl
@[simp] theorem onFn_mem (s : State) (f : Fn) (g : FnState → FnState) : (s.onFn f g).mem = s.mem := rfl
@[simp] theorem onFn_units (s : State) (f : Fn) (g : FnState → FnState) : (s.onFn f g).units = s.units := rfl
@[simp] theorem onFn_chans (s : State) (f : Fn) (g : FnState → FnState) : (s.onFn f g).chans = s.chans := rfl
@[simp] theorem onFn_mon (s : State) (f : Fn) (g : FnState → FnState) : (s.onFn f g).mon = s.mon := rfl
@[simp] theorem onFn_vcc (s : State) (f : Fn) (g : FnState → FnState) : (s.onFn f g).vcc = s.vcc := rfl
@[simp] theorem onFn_mae (s : State) (f : Fn) (g : FnState → FnState) : (s.onFn f g).mae = s.mae := rfl
@[simp] theorem onFn_sc (s : State) (f : Fn) (g : FnState → FnState) : (s.onFn f g).sc = s.sc := rfl
@[simp] theorem onFn_tok (s : State) (f : Fn) (g : FnState → FnState) : (s.onFn f g).tok = s.tok := rfl
@[simp] theorem onFn_lcs (s : State) (f : Fn) (g : FnState → FnState) : (s.onFn f g).lcs = s.lcs := rfl
@[simp] theorem onFn_dbg (s : State) (f : Fn) (g : FnState → FnState) : (s.onFn f g).dbg = s.dbg := rfl
@[simp] theorem onFn_tam (s : State) (f : Fn) (g : FnState → FnState) : (s.onFn f g).tam = s.tam := rfl
@[simp] theorem onFn_flt (s : State) (f : Fn) (g : FnState → FnState) : (s.onFn f g).flt = s.flt := rfl
@[simp] theorem onFn_alm (s : State) (f : Fn) (g : FnState → FnState) : (s.onFn f g).alm = s.alm := rfl
@[simp] theorem onFn_doe (s : State) (f : Fn) (g : FnState → FnState) : (s.onFn f g).doe = s.doe := rfl
@[simp] theorem onFn_out (s : State) (f : Fn) (g : FnState → FnState) : (s.onFn f g).out = s.out := rfl
@[simp] theorem onFn_free (s : State) (f : Fn) (g : FnState → FnState) : (s.onFn f g).free = s.free := rfl
@[simp] theorem onFn_pending (s : State) (f : Fn) (g : FnState → FnState) : (s.onFn f g).pending = s.pending := rfl

/-! ### onSq -/

@[simp] theorem onSq_part (s : State) (f : Fn) (q : Nat) (g : Sq → Sq) : (s.onSq f q g).part = s.part := rfl
@[simp] theorem onSq_clk (s : State) (f : Fn) (q : Nat) (g : Sq → Sq) : (s.onSq f q g).clk = s.clk := rfl
@[simp] theorem onSq_pwr (s : State) (f : Fn) (q : Nat) (g : Sq → Sq) : (s.onSq f q g).pwr = s.pwr := rfl
@[simp] theorem onSq_boot (s : State) (f : Fn) (q : Nat) (g : Sq → Sq) : (s.onSq f q g).boot = s.boot := rfl
@[simp] theorem onSq_eph (s : State) (f : Fn) (q : Nat) (g : Sq → Sq) : (s.onSq f q g).eph = s.eph := rfl
@[simp] theorem onSq_mer (s : State) (f : Fn) (q : Nat) (g : Sq → Sq) : (s.onSq f q g).mer = s.mer := rfl
@[simp] theorem onSq_link (s : State) (f : Fn) (q : Nat) (g : Sq → Sq) : (s.onSq f q g).link = s.link := rfl
@[simp] theorem onSq_fns (s : State) (f : Fn) (q : Nat) (g : Sq → Sq) : (s.onSq f q g).fns = s.fns := rfl
@[simp] theorem onSq_slices (s : State) (f : Fn) (q : Nat) (g : Sq → Sq) : (s.onSq f q g).slices = s.slices := rfl
@[simp] theorem onSq_mgr (s : State) (f : Fn) (q : Nat) (g : Sq → Sq) : (s.onSq f q g).mgr = s.mgr := rfl
@[simp] theorem onSq_sqs (s : State) (f : Fn) (q : Nat) (g : Sq → Sq) : (s.onSq f q g).sqs = modFirst (fun x => x.fn == f && x.id == q) g s.sqs := rfl
@[simp] theorem onSq_cqs (s : State) (f : Fn) (q : Nat) (g : Sq → Sq) : (s.onSq f q g).cqs = s.cqs := rfl
@[simp] theorem onSq_jobs (s : State) (f : Fn) (q : Nat) (g : Sq → Sq) : (s.onSq f q g).jobs = s.jobs := rfl
@[simp] theorem onSq_nextJob (s : State) (f : Fn) (q : Nat) (g : Sq → Sq) : (s.onSq f q g).nextJob = s.nextJob := rfl
@[simp] theorem onSq_waits (s : State) (f : Fn) (q : Nat) (g : Sq → Sq) : (s.onSq f q g).waits = s.waits := rfl
@[simp] theorem onSq_slots (s : State) (f : Fn) (q : Nat) (g : Sq → Sq) : (s.onSq f q g).slots = s.slots := rfl
@[simp] theorem onSq_ctxs (s : State) (f : Fn) (q : Nat) (g : Sq → Sq) : (s.onSq f q g).ctxs = s.ctxs := rfl
@[simp] theorem onSq_mem (s : State) (f : Fn) (q : Nat) (g : Sq → Sq) : (s.onSq f q g).mem = s.mem := rfl
@[simp] theorem onSq_units (s : State) (f : Fn) (q : Nat) (g : Sq → Sq) : (s.onSq f q g).units = s.units := rfl
@[simp] theorem onSq_chans (s : State) (f : Fn) (q : Nat) (g : Sq → Sq) : (s.onSq f q g).chans = s.chans := rfl
@[simp] theorem onSq_mon (s : State) (f : Fn) (q : Nat) (g : Sq → Sq) : (s.onSq f q g).mon = s.mon := rfl
@[simp] theorem onSq_vcc (s : State) (f : Fn) (q : Nat) (g : Sq → Sq) : (s.onSq f q g).vcc = s.vcc := rfl
@[simp] theorem onSq_mae (s : State) (f : Fn) (q : Nat) (g : Sq → Sq) : (s.onSq f q g).mae = s.mae := rfl
@[simp] theorem onSq_sc (s : State) (f : Fn) (q : Nat) (g : Sq → Sq) : (s.onSq f q g).sc = s.sc := rfl
@[simp] theorem onSq_tok (s : State) (f : Fn) (q : Nat) (g : Sq → Sq) : (s.onSq f q g).tok = s.tok := rfl
@[simp] theorem onSq_lcs (s : State) (f : Fn) (q : Nat) (g : Sq → Sq) : (s.onSq f q g).lcs = s.lcs := rfl
@[simp] theorem onSq_dbg (s : State) (f : Fn) (q : Nat) (g : Sq → Sq) : (s.onSq f q g).dbg = s.dbg := rfl
@[simp] theorem onSq_tam (s : State) (f : Fn) (q : Nat) (g : Sq → Sq) : (s.onSq f q g).tam = s.tam := rfl
@[simp] theorem onSq_flt (s : State) (f : Fn) (q : Nat) (g : Sq → Sq) : (s.onSq f q g).flt = s.flt := rfl
@[simp] theorem onSq_alm (s : State) (f : Fn) (q : Nat) (g : Sq → Sq) : (s.onSq f q g).alm = s.alm := rfl
@[simp] theorem onSq_doe (s : State) (f : Fn) (q : Nat) (g : Sq → Sq) : (s.onSq f q g).doe = s.doe := rfl
@[simp] theorem onSq_out (s : State) (f : Fn) (q : Nat) (g : Sq → Sq) : (s.onSq f q g).out = s.out := rfl
@[simp] theorem onSq_free (s : State) (f : Fn) (q : Nat) (g : Sq → Sq) : (s.onSq f q g).free = s.free := rfl
@[simp] theorem onSq_pending (s : State) (f : Fn) (q : Nat) (g : Sq → Sq) : (s.onSq f q g).pending = s.pending := rfl

/-! ### onCq -/

@[simp] theorem onCq_part (s : State) (f : Fn) (q : Nat) (g : Cq → Cq) : (s.onCq f q g).part = s.part := rfl
@[simp] theorem onCq_clk (s : State) (f : Fn) (q : Nat) (g : Cq → Cq) : (s.onCq f q g).clk = s.clk := rfl
@[simp] theorem onCq_pwr (s : State) (f : Fn) (q : Nat) (g : Cq → Cq) : (s.onCq f q g).pwr = s.pwr := rfl
@[simp] theorem onCq_boot (s : State) (f : Fn) (q : Nat) (g : Cq → Cq) : (s.onCq f q g).boot = s.boot := rfl
@[simp] theorem onCq_eph (s : State) (f : Fn) (q : Nat) (g : Cq → Cq) : (s.onCq f q g).eph = s.eph := rfl
@[simp] theorem onCq_mer (s : State) (f : Fn) (q : Nat) (g : Cq → Cq) : (s.onCq f q g).mer = s.mer := rfl
@[simp] theorem onCq_link (s : State) (f : Fn) (q : Nat) (g : Cq → Cq) : (s.onCq f q g).link = s.link := rfl
@[simp] theorem onCq_fns (s : State) (f : Fn) (q : Nat) (g : Cq → Cq) : (s.onCq f q g).fns = s.fns := rfl
@[simp] theorem onCq_slices (s : State) (f : Fn) (q : Nat) (g : Cq → Cq) : (s.onCq f q g).slices = s.slices := rfl
@[simp] theorem onCq_mgr (s : State) (f : Fn) (q : Nat) (g : Cq → Cq) : (s.onCq f q g).mgr = s.mgr := rfl
@[simp] theorem onCq_sqs (s : State) (f : Fn) (q : Nat) (g : Cq → Cq) : (s.onCq f q g).sqs = s.sqs := rfl
@[simp] theorem onCq_cqs (s : State) (f : Fn) (q : Nat) (g : Cq → Cq) : (s.onCq f q g).cqs = modFirst (fun x => x.fn == f && x.id == q) g s.cqs := rfl
@[simp] theorem onCq_jobs (s : State) (f : Fn) (q : Nat) (g : Cq → Cq) : (s.onCq f q g).jobs = s.jobs := rfl
@[simp] theorem onCq_nextJob (s : State) (f : Fn) (q : Nat) (g : Cq → Cq) : (s.onCq f q g).nextJob = s.nextJob := rfl
@[simp] theorem onCq_waits (s : State) (f : Fn) (q : Nat) (g : Cq → Cq) : (s.onCq f q g).waits = s.waits := rfl
@[simp] theorem onCq_slots (s : State) (f : Fn) (q : Nat) (g : Cq → Cq) : (s.onCq f q g).slots = s.slots := rfl
@[simp] theorem onCq_ctxs (s : State) (f : Fn) (q : Nat) (g : Cq → Cq) : (s.onCq f q g).ctxs = s.ctxs := rfl
@[simp] theorem onCq_mem (s : State) (f : Fn) (q : Nat) (g : Cq → Cq) : (s.onCq f q g).mem = s.mem := rfl
@[simp] theorem onCq_units (s : State) (f : Fn) (q : Nat) (g : Cq → Cq) : (s.onCq f q g).units = s.units := rfl
@[simp] theorem onCq_chans (s : State) (f : Fn) (q : Nat) (g : Cq → Cq) : (s.onCq f q g).chans = s.chans := rfl
@[simp] theorem onCq_mon (s : State) (f : Fn) (q : Nat) (g : Cq → Cq) : (s.onCq f q g).mon = s.mon := rfl
@[simp] theorem onCq_vcc (s : State) (f : Fn) (q : Nat) (g : Cq → Cq) : (s.onCq f q g).vcc = s.vcc := rfl
@[simp] theorem onCq_mae (s : State) (f : Fn) (q : Nat) (g : Cq → Cq) : (s.onCq f q g).mae = s.mae := rfl
@[simp] theorem onCq_sc (s : State) (f : Fn) (q : Nat) (g : Cq → Cq) : (s.onCq f q g).sc = s.sc := rfl
@[simp] theorem onCq_tok (s : State) (f : Fn) (q : Nat) (g : Cq → Cq) : (s.onCq f q g).tok = s.tok := rfl
@[simp] theorem onCq_lcs (s : State) (f : Fn) (q : Nat) (g : Cq → Cq) : (s.onCq f q g).lcs = s.lcs := rfl
@[simp] theorem onCq_dbg (s : State) (f : Fn) (q : Nat) (g : Cq → Cq) : (s.onCq f q g).dbg = s.dbg := rfl
@[simp] theorem onCq_tam (s : State) (f : Fn) (q : Nat) (g : Cq → Cq) : (s.onCq f q g).tam = s.tam := rfl
@[simp] theorem onCq_flt (s : State) (f : Fn) (q : Nat) (g : Cq → Cq) : (s.onCq f q g).flt = s.flt := rfl
@[simp] theorem onCq_alm (s : State) (f : Fn) (q : Nat) (g : Cq → Cq) : (s.onCq f q g).alm = s.alm := rfl
@[simp] theorem onCq_doe (s : State) (f : Fn) (q : Nat) (g : Cq → Cq) : (s.onCq f q g).doe = s.doe := rfl
@[simp] theorem onCq_out (s : State) (f : Fn) (q : Nat) (g : Cq → Cq) : (s.onCq f q g).out = s.out := rfl
@[simp] theorem onCq_free (s : State) (f : Fn) (q : Nat) (g : Cq → Cq) : (s.onCq f q g).free = s.free := rfl
@[simp] theorem onCq_pending (s : State) (f : Fn) (q : Nat) (g : Cq → Cq) : (s.onCq f q g).pending = s.pending := rfl

/-! ### onJob -/

@[simp] theorem onJob_part (s : State) (j : Nat) (g : Job → Job) : (s.onJob j g).part = s.part := rfl
@[simp] theorem onJob_clk (s : State) (j : Nat) (g : Job → Job) : (s.onJob j g).clk = s.clk := rfl
@[simp] theorem onJob_pwr (s : State) (j : Nat) (g : Job → Job) : (s.onJob j g).pwr = s.pwr := rfl
@[simp] theorem onJob_boot (s : State) (j : Nat) (g : Job → Job) : (s.onJob j g).boot = s.boot := rfl
@[simp] theorem onJob_eph (s : State) (j : Nat) (g : Job → Job) : (s.onJob j g).eph = s.eph := rfl
@[simp] theorem onJob_mer (s : State) (j : Nat) (g : Job → Job) : (s.onJob j g).mer = s.mer := rfl
@[simp] theorem onJob_link (s : State) (j : Nat) (g : Job → Job) : (s.onJob j g).link = s.link := rfl
@[simp] theorem onJob_fns (s : State) (j : Nat) (g : Job → Job) : (s.onJob j g).fns = s.fns := rfl
@[simp] theorem onJob_slices (s : State) (j : Nat) (g : Job → Job) : (s.onJob j g).slices = s.slices := rfl
@[simp] theorem onJob_mgr (s : State) (j : Nat) (g : Job → Job) : (s.onJob j g).mgr = s.mgr := rfl
@[simp] theorem onJob_sqs (s : State) (j : Nat) (g : Job → Job) : (s.onJob j g).sqs = s.sqs := rfl
@[simp] theorem onJob_cqs (s : State) (j : Nat) (g : Job → Job) : (s.onJob j g).cqs = s.cqs := rfl
@[simp] theorem onJob_jobs (s : State) (j : Nat) (g : Job → Job) : (s.onJob j g).jobs = modFirst (fun x => x.id == j) g s.jobs := rfl
@[simp] theorem onJob_nextJob (s : State) (j : Nat) (g : Job → Job) : (s.onJob j g).nextJob = s.nextJob := rfl
@[simp] theorem onJob_waits (s : State) (j : Nat) (g : Job → Job) : (s.onJob j g).waits = s.waits := rfl
@[simp] theorem onJob_slots (s : State) (j : Nat) (g : Job → Job) : (s.onJob j g).slots = s.slots := rfl
@[simp] theorem onJob_ctxs (s : State) (j : Nat) (g : Job → Job) : (s.onJob j g).ctxs = s.ctxs := rfl
@[simp] theorem onJob_mem (s : State) (j : Nat) (g : Job → Job) : (s.onJob j g).mem = s.mem := rfl
@[simp] theorem onJob_units (s : State) (j : Nat) (g : Job → Job) : (s.onJob j g).units = s.units := rfl
@[simp] theorem onJob_chans (s : State) (j : Nat) (g : Job → Job) : (s.onJob j g).chans = s.chans := rfl
@[simp] theorem onJob_mon (s : State) (j : Nat) (g : Job → Job) : (s.onJob j g).mon = s.mon := rfl
@[simp] theorem onJob_vcc (s : State) (j : Nat) (g : Job → Job) : (s.onJob j g).vcc = s.vcc := rfl
@[simp] theorem onJob_mae (s : State) (j : Nat) (g : Job → Job) : (s.onJob j g).mae = s.mae := rfl
@[simp] theorem onJob_sc (s : State) (j : Nat) (g : Job → Job) : (s.onJob j g).sc = s.sc := rfl
@[simp] theorem onJob_tok (s : State) (j : Nat) (g : Job → Job) : (s.onJob j g).tok = s.tok := rfl
@[simp] theorem onJob_lcs (s : State) (j : Nat) (g : Job → Job) : (s.onJob j g).lcs = s.lcs := rfl
@[simp] theorem onJob_dbg (s : State) (j : Nat) (g : Job → Job) : (s.onJob j g).dbg = s.dbg := rfl
@[simp] theorem onJob_tam (s : State) (j : Nat) (g : Job → Job) : (s.onJob j g).tam = s.tam := rfl
@[simp] theorem onJob_flt (s : State) (j : Nat) (g : Job → Job) : (s.onJob j g).flt = s.flt := rfl
@[simp] theorem onJob_alm (s : State) (j : Nat) (g : Job → Job) : (s.onJob j g).alm = s.alm := rfl
@[simp] theorem onJob_doe (s : State) (j : Nat) (g : Job → Job) : (s.onJob j g).doe = s.doe := rfl
@[simp] theorem onJob_out (s : State) (j : Nat) (g : Job → Job) : (s.onJob j g).out = s.out := rfl
@[simp] theorem onJob_free (s : State) (j : Nat) (g : Job → Job) : (s.onJob j g).free = s.free := rfl
@[simp] theorem onJob_pending (s : State) (j : Nat) (g : Job → Job) : (s.onJob j g).pending = s.pending := rfl

/-! ### onSlot -/

@[simp] theorem onSlot_part (s : State) (i : Nat) (g : Slot → Slot) : (s.onSlot i g).part = s.part := rfl
@[simp] theorem onSlot_clk (s : State) (i : Nat) (g : Slot → Slot) : (s.onSlot i g).clk = s.clk := rfl
@[simp] theorem onSlot_pwr (s : State) (i : Nat) (g : Slot → Slot) : (s.onSlot i g).pwr = s.pwr := rfl
@[simp] theorem onSlot_boot (s : State) (i : Nat) (g : Slot → Slot) : (s.onSlot i g).boot = s.boot := rfl
@[simp] theorem onSlot_eph (s : State) (i : Nat) (g : Slot → Slot) : (s.onSlot i g).eph = s.eph := rfl
@[simp] theorem onSlot_mer (s : State) (i : Nat) (g : Slot → Slot) : (s.onSlot i g).mer = s.mer := rfl
@[simp] theorem onSlot_link (s : State) (i : Nat) (g : Slot → Slot) : (s.onSlot i g).link = s.link := rfl
@[simp] theorem onSlot_fns (s : State) (i : Nat) (g : Slot → Slot) : (s.onSlot i g).fns = s.fns := rfl
@[simp] theorem onSlot_slices (s : State) (i : Nat) (g : Slot → Slot) : (s.onSlot i g).slices = s.slices := rfl
@[simp] theorem onSlot_mgr (s : State) (i : Nat) (g : Slot → Slot) : (s.onSlot i g).mgr = s.mgr := rfl
@[simp] theorem onSlot_sqs (s : State) (i : Nat) (g : Slot → Slot) : (s.onSlot i g).sqs = s.sqs := rfl
@[simp] theorem onSlot_cqs (s : State) (i : Nat) (g : Slot → Slot) : (s.onSlot i g).cqs = s.cqs := rfl
@[simp] theorem onSlot_jobs (s : State) (i : Nat) (g : Slot → Slot) : (s.onSlot i g).jobs = s.jobs := rfl
@[simp] theorem onSlot_nextJob (s : State) (i : Nat) (g : Slot → Slot) : (s.onSlot i g).nextJob = s.nextJob := rfl
@[simp] theorem onSlot_waits (s : State) (i : Nat) (g : Slot → Slot) : (s.onSlot i g).waits = s.waits := rfl
@[simp] theorem onSlot_slots (s : State) (i : Nat) (g : Slot → Slot) : (s.onSlot i g).slots = modFirst (fun x => x.idx == i) g s.slots := rfl
@[simp] theorem onSlot_ctxs (s : State) (i : Nat) (g : Slot → Slot) : (s.onSlot i g).ctxs = s.ctxs := rfl
@[simp] theorem onSlot_mem (s : State) (i : Nat) (g : Slot → Slot) : (s.onSlot i g).mem = s.mem := rfl
@[simp] theorem onSlot_units (s : State) (i : Nat) (g : Slot → Slot) : (s.onSlot i g).units = s.units := rfl
@[simp] theorem onSlot_chans (s : State) (i : Nat) (g : Slot → Slot) : (s.onSlot i g).chans = s.chans := rfl
@[simp] theorem onSlot_mon (s : State) (i : Nat) (g : Slot → Slot) : (s.onSlot i g).mon = s.mon := rfl
@[simp] theorem onSlot_vcc (s : State) (i : Nat) (g : Slot → Slot) : (s.onSlot i g).vcc = s.vcc := rfl
@[simp] theorem onSlot_mae (s : State) (i : Nat) (g : Slot → Slot) : (s.onSlot i g).mae = s.mae := rfl
@[simp] theorem onSlot_sc (s : State) (i : Nat) (g : Slot → Slot) : (s.onSlot i g).sc = s.sc := rfl
@[simp] theorem onSlot_tok (s : State) (i : Nat) (g : Slot → Slot) : (s.onSlot i g).tok = s.tok := rfl
@[simp] theorem onSlot_lcs (s : State) (i : Nat) (g : Slot → Slot) : (s.onSlot i g).lcs = s.lcs := rfl
@[simp] theorem onSlot_dbg (s : State) (i : Nat) (g : Slot → Slot) : (s.onSlot i g).dbg = s.dbg := rfl
@[simp] theorem onSlot_tam (s : State) (i : Nat) (g : Slot → Slot) : (s.onSlot i g).tam = s.tam := rfl
@[simp] theorem onSlot_flt (s : State) (i : Nat) (g : Slot → Slot) : (s.onSlot i g).flt = s.flt := rfl
@[simp] theorem onSlot_alm (s : State) (i : Nat) (g : Slot → Slot) : (s.onSlot i g).alm = s.alm := rfl
@[simp] theorem onSlot_doe (s : State) (i : Nat) (g : Slot → Slot) : (s.onSlot i g).doe = s.doe := rfl
@[simp] theorem onSlot_out (s : State) (i : Nat) (g : Slot → Slot) : (s.onSlot i g).out = s.out := rfl
@[simp] theorem onSlot_free (s : State) (i : Nat) (g : Slot → Slot) : (s.onSlot i g).free = s.free := rfl
@[simp] theorem onSlot_pending (s : State) (i : Nat) (g : Slot → Slot) : (s.onSlot i g).pending = s.pending := rfl

/-! ### onCtx -/

@[simp] theorem onCtx_part (s : State) (i : Nat) (g : Ctx → Ctx) : (s.onCtx i g).part = s.part := rfl
@[simp] theorem onCtx_clk (s : State) (i : Nat) (g : Ctx → Ctx) : (s.onCtx i g).clk = s.clk := rfl
@[simp] theorem onCtx_pwr (s : State) (i : Nat) (g : Ctx → Ctx) : (s.onCtx i g).pwr = s.pwr := rfl
@[simp] theorem onCtx_boot (s : State) (i : Nat) (g : Ctx → Ctx) : (s.onCtx i g).boot = s.boot := rfl
@[simp] theorem onCtx_eph (s : State) (i : Nat) (g : Ctx → Ctx) : (s.onCtx i g).eph = s.eph := rfl
@[simp] theorem onCtx_mer (s : State) (i : Nat) (g : Ctx → Ctx) : (s.onCtx i g).mer = s.mer := rfl
@[simp] theorem onCtx_link (s : State) (i : Nat) (g : Ctx → Ctx) : (s.onCtx i g).link = s.link := rfl
@[simp] theorem onCtx_fns (s : State) (i : Nat) (g : Ctx → Ctx) : (s.onCtx i g).fns = s.fns := rfl
@[simp] theorem onCtx_slices (s : State) (i : Nat) (g : Ctx → Ctx) : (s.onCtx i g).slices = s.slices := rfl
@[simp] theorem onCtx_mgr (s : State) (i : Nat) (g : Ctx → Ctx) : (s.onCtx i g).mgr = s.mgr := rfl
@[simp] theorem onCtx_sqs (s : State) (i : Nat) (g : Ctx → Ctx) : (s.onCtx i g).sqs = s.sqs := rfl
@[simp] theorem onCtx_cqs (s : State) (i : Nat) (g : Ctx → Ctx) : (s.onCtx i g).cqs = s.cqs := rfl
@[simp] theorem onCtx_jobs (s : State) (i : Nat) (g : Ctx → Ctx) : (s.onCtx i g).jobs = s.jobs := rfl
@[simp] theorem onCtx_nextJob (s : State) (i : Nat) (g : Ctx → Ctx) : (s.onCtx i g).nextJob = s.nextJob := rfl
@[simp] theorem onCtx_waits (s : State) (i : Nat) (g : Ctx → Ctx) : (s.onCtx i g).waits = s.waits := rfl
@[simp] theorem onCtx_slots (s : State) (i : Nat) (g : Ctx → Ctx) : (s.onCtx i g).slots = s.slots := rfl
@[simp] theorem onCtx_ctxs (s : State) (i : Nat) (g : Ctx → Ctx) : (s.onCtx i g).ctxs = modFirst (fun x => x.idx == i) g s.ctxs := rfl
@[simp] theorem onCtx_mem (s : State) (i : Nat) (g : Ctx → Ctx) : (s.onCtx i g).mem = s.mem := rfl
@[simp] theorem onCtx_units (s : State) (i : Nat) (g : Ctx → Ctx) : (s.onCtx i g).units = s.units := rfl
@[simp] theorem onCtx_chans (s : State) (i : Nat) (g : Ctx → Ctx) : (s.onCtx i g).chans = s.chans := rfl
@[simp] theorem onCtx_mon (s : State) (i : Nat) (g : Ctx → Ctx) : (s.onCtx i g).mon = s.mon := rfl
@[simp] theorem onCtx_vcc (s : State) (i : Nat) (g : Ctx → Ctx) : (s.onCtx i g).vcc = s.vcc := rfl
@[simp] theorem onCtx_mae (s : State) (i : Nat) (g : Ctx → Ctx) : (s.onCtx i g).mae = s.mae := rfl
@[simp] theorem onCtx_sc (s : State) (i : Nat) (g : Ctx → Ctx) : (s.onCtx i g).sc = s.sc := rfl
@[simp] theorem onCtx_tok (s : State) (i : Nat) (g : Ctx → Ctx) : (s.onCtx i g).tok = s.tok := rfl
@[simp] theorem onCtx_lcs (s : State) (i : Nat) (g : Ctx → Ctx) : (s.onCtx i g).lcs = s.lcs := rfl
@[simp] theorem onCtx_dbg (s : State) (i : Nat) (g : Ctx → Ctx) : (s.onCtx i g).dbg = s.dbg := rfl
@[simp] theorem onCtx_tam (s : State) (i : Nat) (g : Ctx → Ctx) : (s.onCtx i g).tam = s.tam := rfl
@[simp] theorem onCtx_flt (s : State) (i : Nat) (g : Ctx → Ctx) : (s.onCtx i g).flt = s.flt := rfl
@[simp] theorem onCtx_alm (s : State) (i : Nat) (g : Ctx → Ctx) : (s.onCtx i g).alm = s.alm := rfl
@[simp] theorem onCtx_doe (s : State) (i : Nat) (g : Ctx → Ctx) : (s.onCtx i g).doe = s.doe := rfl
@[simp] theorem onCtx_out (s : State) (i : Nat) (g : Ctx → Ctx) : (s.onCtx i g).out = s.out := rfl
@[simp] theorem onCtx_free (s : State) (i : Nat) (g : Ctx → Ctx) : (s.onCtx i g).free = s.free := rfl
@[simp] theorem onCtx_pending (s : State) (i : Nat) (g : Ctx → Ctx) : (s.onCtx i g).pending = s.pending := rfl

/-! ### onUnit -/

@[simp] theorem onUnit_part (s : State) (i : Nat) (g : UnitSt → UnitSt) : (s.onUnit i g).part = s.part := rfl
@[simp] theorem onUnit_clk (s : State) (i : Nat) (g : UnitSt → UnitSt) : (s.onUnit i g).clk = s.clk := rfl
@[simp] theorem onUnit_pwr (s : State) (i : Nat) (g : UnitSt → UnitSt) : (s.onUnit i g).pwr = s.pwr := rfl
@[simp] theorem onUnit_boot (s : State) (i : Nat) (g : UnitSt → UnitSt) : (s.onUnit i g).boot = s.boot := rfl
@[simp] theorem onUnit_eph (s : State) (i : Nat) (g : UnitSt → UnitSt) : (s.onUnit i g).eph = s.eph := rfl
@[simp] theorem onUnit_mer (s : State) (i : Nat) (g : UnitSt → UnitSt) : (s.onUnit i g).mer = s.mer := rfl
@[simp] theorem onUnit_link (s : State) (i : Nat) (g : UnitSt → UnitSt) : (s.onUnit i g).link = s.link := rfl
@[simp] theorem onUnit_fns (s : State) (i : Nat) (g : UnitSt → UnitSt) : (s.onUnit i g).fns = s.fns := rfl
@[simp] theorem onUnit_slices (s : State) (i : Nat) (g : UnitSt → UnitSt) : (s.onUnit i g).slices = s.slices := rfl
@[simp] theorem onUnit_mgr (s : State) (i : Nat) (g : UnitSt → UnitSt) : (s.onUnit i g).mgr = s.mgr := rfl
@[simp] theorem onUnit_sqs (s : State) (i : Nat) (g : UnitSt → UnitSt) : (s.onUnit i g).sqs = s.sqs := rfl
@[simp] theorem onUnit_cqs (s : State) (i : Nat) (g : UnitSt → UnitSt) : (s.onUnit i g).cqs = s.cqs := rfl
@[simp] theorem onUnit_jobs (s : State) (i : Nat) (g : UnitSt → UnitSt) : (s.onUnit i g).jobs = s.jobs := rfl
@[simp] theorem onUnit_nextJob (s : State) (i : Nat) (g : UnitSt → UnitSt) : (s.onUnit i g).nextJob = s.nextJob := rfl
@[simp] theorem onUnit_waits (s : State) (i : Nat) (g : UnitSt → UnitSt) : (s.onUnit i g).waits = s.waits := rfl
@[simp] theorem onUnit_slots (s : State) (i : Nat) (g : UnitSt → UnitSt) : (s.onUnit i g).slots = s.slots := rfl
@[simp] theorem onUnit_ctxs (s : State) (i : Nat) (g : UnitSt → UnitSt) : (s.onUnit i g).ctxs = s.ctxs := rfl
@[simp] theorem onUnit_mem (s : State) (i : Nat) (g : UnitSt → UnitSt) : (s.onUnit i g).mem = s.mem := rfl
@[simp] theorem onUnit_units (s : State) (i : Nat) (g : UnitSt → UnitSt) : (s.onUnit i g).units = modFirst (fun x => x.id == i) g s.units := rfl
@[simp] theorem onUnit_chans (s : State) (i : Nat) (g : UnitSt → UnitSt) : (s.onUnit i g).chans = s.chans := rfl
@[simp] theorem onUnit_mon (s : State) (i : Nat) (g : UnitSt → UnitSt) : (s.onUnit i g).mon = s.mon := rfl
@[simp] theorem onUnit_vcc (s : State) (i : Nat) (g : UnitSt → UnitSt) : (s.onUnit i g).vcc = s.vcc := rfl
@[simp] theorem onUnit_mae (s : State) (i : Nat) (g : UnitSt → UnitSt) : (s.onUnit i g).mae = s.mae := rfl
@[simp] theorem onUnit_sc (s : State) (i : Nat) (g : UnitSt → UnitSt) : (s.onUnit i g).sc = s.sc := rfl
@[simp] theorem onUnit_tok (s : State) (i : Nat) (g : UnitSt → UnitSt) : (s.onUnit i g).tok = s.tok := rfl
@[simp] theorem onUnit_lcs (s : State) (i : Nat) (g : UnitSt → UnitSt) : (s.onUnit i g).lcs = s.lcs := rfl
@[simp] theorem onUnit_dbg (s : State) (i : Nat) (g : UnitSt → UnitSt) : (s.onUnit i g).dbg = s.dbg := rfl
@[simp] theorem onUnit_tam (s : State) (i : Nat) (g : UnitSt → UnitSt) : (s.onUnit i g).tam = s.tam := rfl
@[simp] theorem onUnit_flt (s : State) (i : Nat) (g : UnitSt → UnitSt) : (s.onUnit i g).flt = s.flt := rfl
@[simp] theorem onUnit_alm (s : State) (i : Nat) (g : UnitSt → UnitSt) : (s.onUnit i g).alm = s.alm := rfl
@[simp] theorem onUnit_doe (s : State) (i : Nat) (g : UnitSt → UnitSt) : (s.onUnit i g).doe = s.doe := rfl
@[simp] theorem onUnit_out (s : State) (i : Nat) (g : UnitSt → UnitSt) : (s.onUnit i g).out = s.out := rfl
@[simp] theorem onUnit_free (s : State) (i : Nat) (g : UnitSt → UnitSt) : (s.onUnit i g).free = s.free := rfl
@[simp] theorem onUnit_pending (s : State) (i : Nat) (g : UnitSt → UnitSt) : (s.onUnit i g).pending = s.pending := rfl

/-! ### emit -/

@[simp] theorem emit_part (s : State) (m : LinkMsg) : (emit m s).part = s.part := rfl
@[simp] theorem emit_clk (s : State) (m : LinkMsg) : (emit m s).clk = s.clk := rfl
@[simp] theorem emit_pwr (s : State) (m : LinkMsg) : (emit m s).pwr = s.pwr := rfl
@[simp] theorem emit_boot (s : State) (m : LinkMsg) : (emit m s).boot = s.boot := rfl
@[simp] theorem emit_eph (s : State) (m : LinkMsg) : (emit m s).eph = s.eph := rfl
@[simp] theorem emit_mer (s : State) (m : LinkMsg) : (emit m s).mer = s.mer := rfl
@[simp] theorem emit_link (s : State) (m : LinkMsg) : (emit m s).link = s.link := rfl
@[simp] theorem emit_fns (s : State) (m : LinkMsg) : (emit m s).fns = s.fns := rfl
@[simp] theorem emit_slices (s : State) (m : LinkMsg) : (emit m s).slices = s.slices := rfl
@[simp] theorem emit_mgr (s : State) (m : LinkMsg) : (emit m s).mgr = s.mgr := rfl
@[simp] theorem emit_sqs (s : State) (m : LinkMsg) : (emit m s).sqs = s.sqs := rfl
@[simp] theorem emit_cqs (s : State) (m : LinkMsg) : (emit m s).cqs = s.cqs := rfl
@[simp] theorem emit_jobs (s : State) (m : LinkMsg) : (emit m s).jobs = s.jobs := rfl
@[simp] theorem emit_nextJob (s : State) (m : LinkMsg) : (emit m s).nextJob = s.nextJob := rfl
@[simp] theorem emit_waits (s : State) (m : LinkMsg) : (emit m s).waits = s.waits := rfl
@[simp] theorem emit_slots (s : State) (m : LinkMsg) : (emit m s).slots = s.slots := rfl
@[simp] theorem emit_ctxs (s : State) (m : LinkMsg) : (emit m s).ctxs = s.ctxs := rfl
@[simp] theorem emit_mem (s : State) (m : LinkMsg) : (emit m s).mem = s.mem := rfl
@[simp] theorem emit_units (s : State) (m : LinkMsg) : (emit m s).units = s.units := rfl
@[simp] theorem emit_chans (s : State) (m : LinkMsg) : (emit m s).chans = s.chans := rfl
@[simp] theorem emit_mon (s : State) (m : LinkMsg) : (emit m s).mon = s.mon := rfl
@[simp] theorem emit_vcc (s : State) (m : LinkMsg) : (emit m s).vcc = s.vcc := rfl
@[simp] theorem emit_mae (s : State) (m : LinkMsg) : (emit m s).mae = s.mae := rfl
@[simp] theorem emit_sc (s : State) (m : LinkMsg) : (emit m s).sc = s.sc := rfl
@[simp] theorem emit_tok (s : State) (m : LinkMsg) : (emit m s).tok = s.tok := rfl
@[simp] theorem emit_lcs (s : State) (m : LinkMsg) : (emit m s).lcs = s.lcs := rfl
@[simp] theorem emit_dbg (s : State) (m : LinkMsg) : (emit m s).dbg = s.dbg := rfl
@[simp] theorem emit_tam (s : State) (m : LinkMsg) : (emit m s).tam = s.tam := rfl
@[simp] theorem emit_flt (s : State) (m : LinkMsg) : (emit m s).flt = s.flt := rfl
@[simp] theorem emit_alm (s : State) (m : LinkMsg) : (emit m s).alm = s.alm := rfl
@[simp] theorem emit_doe (s : State) (m : LinkMsg) : (emit m s).doe = s.doe := rfl
@[simp] theorem emit_out (s : State) (m : LinkMsg) : (emit m s).out = s.out ++ [m] := rfl
@[simp] theorem emit_free (s : State) (m : LinkMsg) : (emit m s).free = s.free := rfl
@[simp] theorem emit_pending (s : State) (m : LinkMsg) : (emit m s).pending = s.pending := rfl

/-! ### setFault -/

@[simp] theorem setFault_part (s : State) (n : Nat) : (setFault n s).part = s.part := rfl
@[simp] theorem setFault_clk (s : State) (n : Nat) : (setFault n s).clk = s.clk := rfl
@[simp] theorem setFault_pwr (s : State) (n : Nat) : (setFault n s).pwr = s.pwr := rfl
@[simp] theorem setFault_boot (s : State) (n : Nat) : (setFault n s).boot = s.boot := rfl
@[simp] theorem setFault_eph (s : State) (n : Nat) : (setFault n s).eph = s.eph := rfl
@[simp] theorem setFault_mer (s : State) (n : Nat) : (setFault n s).mer = s.mer := rfl
@[simp] theorem setFault_link (s : State) (n : Nat) : (setFault n s).link = s.link := rfl
@[simp] theorem setFault_fns (s : State) (n : Nat) : (setFault n s).fns = s.fns := rfl
@[simp] theorem setFault_slices (s : State) (n : Nat) : (setFault n s).slices = s.slices := rfl
@[simp] theorem setFault_mgr (s : State) (n : Nat) : (setFault n s).mgr = s.mgr := rfl
@[simp] theorem setFault_sqs (s : State) (n : Nat) : (setFault n s).sqs = s.sqs := rfl
@[simp] theorem setFault_cqs (s : State) (n : Nat) : (setFault n s).cqs = s.cqs := rfl
@[simp] theorem setFault_jobs (s : State) (n : Nat) : (setFault n s).jobs = s.jobs := rfl
@[simp] theorem setFault_nextJob (s : State) (n : Nat) : (setFault n s).nextJob = s.nextJob := rfl
@[simp] theorem setFault_waits (s : State) (n : Nat) : (setFault n s).waits = s.waits := rfl
@[simp] theorem setFault_slots (s : State) (n : Nat) : (setFault n s).slots = s.slots := rfl
@[simp] theorem setFault_ctxs (s : State) (n : Nat) : (setFault n s).ctxs = s.ctxs := rfl
@[simp] theorem setFault_mem (s : State) (n : Nat) : (setFault n s).mem = s.mem := rfl
@[simp] theorem setFault_units (s : State) (n : Nat) : (setFault n s).units = s.units := rfl
@[simp] theorem setFault_chans (s : State) (n : Nat) : (setFault n s).chans = s.chans := rfl
@[simp] theorem setFault_mon (s : State) (n : Nat) : (setFault n s).mon = s.mon := rfl
@[simp] theorem setFault_vcc (s : State) (n : Nat) : (setFault n s).vcc = s.vcc := rfl
@[simp] theorem setFault_mae (s : State) (n : Nat) : (setFault n s).mae = s.mae := rfl
@[simp] theorem setFault_sc (s : State) (n : Nat) : (setFault n s).sc = s.sc := rfl
@[simp] theorem setFault_tok (s : State) (n : Nat) : (setFault n s).tok = s.tok := rfl
@[simp] theorem setFault_lcs (s : State) (n : Nat) : (setFault n s).lcs = s.lcs := rfl
@[simp] theorem setFault_dbg (s : State) (n : Nat) : (setFault n s).dbg = s.dbg := rfl
@[simp] theorem setFault_tam (s : State) (n : Nat) : (setFault n s).tam = s.tam := rfl
@[simp] theorem setFault_flt (s : State) (n : Nat) : (setFault n s).flt = { s.flt with status := s.flt.status ||| BitVec.ofNat 16 (2 ^ n), counts := modAt s.flt.counts n sat8 } := rfl
@[simp] theorem setFault_alm (s : State) (n : Nat) : (setFault n s).alm = s.alm := rfl
@[simp] theorem setFault_doe (s : State) (n : Nat) : (setFault n s).doe = s.doe := rfl
@[simp] theorem setFault_out (s : State) (n : Nat) : (setFault n s).out = s.out := rfl
@[simp] theorem setFault_free (s : State) (n : Nat) : (setFault n s).free = s.free := rfl
@[simp] theorem setFault_pending (s : State) (n : Nat) : (setFault n s).pending = s.pending := rfl

/-! ### overflowUp -/

@[simp] theorem overflowUp_part (s : State) (k : Nat) : (overflowUp k s).part = s.part := rfl
@[simp] theorem overflowUp_clk (s : State) (k : Nat) : (overflowUp k s).clk = s.clk := rfl
@[simp] theorem overflowUp_pwr (s : State) (k : Nat) : (overflowUp k s).pwr = s.pwr := rfl
@[simp] theorem overflowUp_boot (s : State) (k : Nat) : (overflowUp k s).boot = s.boot := rfl
@[simp] theorem overflowUp_eph (s : State) (k : Nat) : (overflowUp k s).eph = s.eph := rfl
@[simp] theorem overflowUp_mer (s : State) (k : Nat) : (overflowUp k s).mer = s.mer := rfl
@[simp] theorem overflowUp_link (s : State) (k : Nat) : (overflowUp k s).link = s.link := rfl
@[simp] theorem overflowUp_fns (s : State) (k : Nat) : (overflowUp k s).fns = s.fns := rfl
@[simp] theorem overflowUp_slices (s : State) (k : Nat) : (overflowUp k s).slices = s.slices := rfl
@[simp] theorem overflowUp_mgr (s : State) (k : Nat) : (overflowUp k s).mgr = s.mgr := rfl
@[simp] theorem overflowUp_sqs (s : State) (k : Nat) : (overflowUp k s).sqs = s.sqs := rfl
@[simp] theorem overflowUp_cqs (s : State) (k : Nat) : (overflowUp k s).cqs = s.cqs := rfl
@[simp] theorem overflowUp_jobs (s : State) (k : Nat) : (overflowUp k s).jobs = s.jobs := rfl
@[simp] theorem overflowUp_nextJob (s : State) (k : Nat) : (overflowUp k s).nextJob = s.nextJob := rfl
@[simp] theorem overflowUp_waits (s : State) (k : Nat) : (overflowUp k s).waits = s.waits := rfl
@[simp] theorem overflowUp_slots (s : State) (k : Nat) : (overflowUp k s).slots = s.slots := rfl
@[simp] theorem overflowUp_ctxs (s : State) (k : Nat) : (overflowUp k s).ctxs = s.ctxs := rfl
@[simp] theorem overflowUp_mem (s : State) (k : Nat) : (overflowUp k s).mem = s.mem := rfl
@[simp] theorem overflowUp_units (s : State) (k : Nat) : (overflowUp k s).units = s.units := rfl
@[simp] theorem overflowUp_chans (s : State) (k : Nat) : (overflowUp k s).chans = s.chans := rfl
@[simp] theorem overflowUp_mon (s : State) (k : Nat) : (overflowUp k s).mon = s.mon := rfl
@[simp] theorem overflowUp_vcc (s : State) (k : Nat) : (overflowUp k s).vcc = s.vcc := rfl
@[simp] theorem overflowUp_mae (s : State) (k : Nat) : (overflowUp k s).mae = s.mae := rfl
@[simp] theorem overflowUp_sc (s : State) (k : Nat) : (overflowUp k s).sc = s.sc := rfl
@[simp] theorem overflowUp_tok (s : State) (k : Nat) : (overflowUp k s).tok = s.tok := rfl
@[simp] theorem overflowUp_lcs (s : State) (k : Nat) : (overflowUp k s).lcs = s.lcs := rfl
@[simp] theorem overflowUp_dbg (s : State) (k : Nat) : (overflowUp k s).dbg = s.dbg := rfl
@[simp] theorem overflowUp_tam (s : State) (k : Nat) : (overflowUp k s).tam = s.tam := rfl
@[simp] theorem overflowUp_flt (s : State) (k : Nat) : (overflowUp k s).flt = s.flt := rfl
@[simp] theorem overflowUp_doe (s : State) (k : Nat) : (overflowUp k s).doe = s.doe := rfl
@[simp] theorem overflowUp_out (s : State) (k : Nat) : (overflowUp k s).out = s.out := rfl
@[simp] theorem overflowUp_free (s : State) (k : Nat) : (overflowUp k s).free = s.free := rfl
@[simp] theorem overflowUp_pending (s : State) (k : Nat) : (overflowUp k s).pending = s.pending := rfl

/-! ### Free values -/

@[simp] theorem drawBytes_part (s : State) (n : Nat) : (drawBytes n s).2.part = s.part := rfl
@[simp] theorem drawBytes_clk (s : State) (n : Nat) : (drawBytes n s).2.clk = s.clk := rfl
@[simp] theorem drawBytes_pwr (s : State) (n : Nat) : (drawBytes n s).2.pwr = s.pwr := rfl
@[simp] theorem drawBytes_boot (s : State) (n : Nat) : (drawBytes n s).2.boot = s.boot := rfl
@[simp] theorem drawBytes_eph (s : State) (n : Nat) : (drawBytes n s).2.eph = s.eph := rfl
@[simp] theorem drawBytes_mer (s : State) (n : Nat) : (drawBytes n s).2.mer = s.mer := rfl
@[simp] theorem drawBytes_link (s : State) (n : Nat) : (drawBytes n s).2.link = s.link := rfl
@[simp] theorem drawBytes_fns (s : State) (n : Nat) : (drawBytes n s).2.fns = s.fns := rfl
@[simp] theorem drawBytes_slices (s : State) (n : Nat) : (drawBytes n s).2.slices = s.slices := rfl
@[simp] theorem drawBytes_mgr (s : State) (n : Nat) : (drawBytes n s).2.mgr = s.mgr := rfl
@[simp] theorem drawBytes_sqs (s : State) (n : Nat) : (drawBytes n s).2.sqs = s.sqs := rfl
@[simp] theorem drawBytes_cqs (s : State) (n : Nat) : (drawBytes n s).2.cqs = s.cqs := rfl
@[simp] theorem drawBytes_jobs (s : State) (n : Nat) : (drawBytes n s).2.jobs = s.jobs := rfl
@[simp] theorem drawBytes_nextJob (s : State) (n : Nat) : (drawBytes n s).2.nextJob = s.nextJob := rfl
@[simp] theorem drawBytes_waits (s : State) (n : Nat) : (drawBytes n s).2.waits = s.waits := rfl
@[simp] theorem drawBytes_slots (s : State) (n : Nat) : (drawBytes n s).2.slots = s.slots := rfl
@[simp] theorem drawBytes_ctxs (s : State) (n : Nat) : (drawBytes n s).2.ctxs = s.ctxs := rfl
@[simp] theorem drawBytes_mem (s : State) (n : Nat) : (drawBytes n s).2.mem = s.mem := rfl
@[simp] theorem drawBytes_units (s : State) (n : Nat) : (drawBytes n s).2.units = s.units := rfl
@[simp] theorem drawBytes_chans (s : State) (n : Nat) : (drawBytes n s).2.chans = s.chans := rfl
@[simp] theorem drawBytes_mon (s : State) (n : Nat) : (drawBytes n s).2.mon = s.mon := rfl
@[simp] theorem drawBytes_vcc (s : State) (n : Nat) : (drawBytes n s).2.vcc = s.vcc := rfl
@[simp] theorem drawBytes_mae (s : State) (n : Nat) : (drawBytes n s).2.mae = s.mae := rfl
@[simp] theorem drawBytes_sc (s : State) (n : Nat) : (drawBytes n s).2.sc = s.sc := rfl
@[simp] theorem drawBytes_tok (s : State) (n : Nat) : (drawBytes n s).2.tok = s.tok := rfl
@[simp] theorem drawBytes_lcs (s : State) (n : Nat) : (drawBytes n s).2.lcs = s.lcs := rfl
@[simp] theorem drawBytes_dbg (s : State) (n : Nat) : (drawBytes n s).2.dbg = s.dbg := rfl
@[simp] theorem drawBytes_tam (s : State) (n : Nat) : (drawBytes n s).2.tam = s.tam := rfl
@[simp] theorem drawBytes_flt (s : State) (n : Nat) : (drawBytes n s).2.flt = s.flt := rfl
@[simp] theorem drawBytes_alm (s : State) (n : Nat) : (drawBytes n s).2.alm = s.alm := rfl
@[simp] theorem drawBytes_doe (s : State) (n : Nat) : (drawBytes n s).2.doe = s.doe := rfl
@[simp] theorem drawBytes_out (s : State) (n : Nat) : (drawBytes n s).2.out = s.out := rfl
@[simp] theorem drawBytes_pending (s : State) (n : Nat) : (drawBytes n s).2.pending = s.pending := rfl

@[simp] theorem drawNat_part (s : State) (m : Nat) : (drawNat m s).2.part = s.part := rfl
@[simp] theorem drawNat_clk (s : State) (m : Nat) : (drawNat m s).2.clk = s.clk := rfl
@[simp] theorem drawNat_pwr (s : State) (m : Nat) : (drawNat m s).2.pwr = s.pwr := rfl
@[simp] theorem drawNat_boot (s : State) (m : Nat) : (drawNat m s).2.boot = s.boot := rfl
@[simp] theorem drawNat_eph (s : State) (m : Nat) : (drawNat m s).2.eph = s.eph := rfl
@[simp] theorem drawNat_mer (s : State) (m : Nat) : (drawNat m s).2.mer = s.mer := rfl
@[simp] theorem drawNat_link (s : State) (m : Nat) : (drawNat m s).2.link = s.link := rfl
@[simp] theorem drawNat_fns (s : State) (m : Nat) : (drawNat m s).2.fns = s.fns := rfl
@[simp] theorem drawNat_slices (s : State) (m : Nat) : (drawNat m s).2.slices = s.slices := rfl
@[simp] theorem drawNat_mgr (s : State) (m : Nat) : (drawNat m s).2.mgr = s.mgr := rfl
@[simp] theorem drawNat_sqs (s : State) (m : Nat) : (drawNat m s).2.sqs = s.sqs := rfl
@[simp] theorem drawNat_cqs (s : State) (m : Nat) : (drawNat m s).2.cqs = s.cqs := rfl
@[simp] theorem drawNat_jobs (s : State) (m : Nat) : (drawNat m s).2.jobs = s.jobs := rfl
@[simp] theorem drawNat_nextJob (s : State) (m : Nat) : (drawNat m s).2.nextJob = s.nextJob := rfl
@[simp] theorem drawNat_waits (s : State) (m : Nat) : (drawNat m s).2.waits = s.waits := rfl
@[simp] theorem drawNat_slots (s : State) (m : Nat) : (drawNat m s).2.slots = s.slots := rfl
@[simp] theorem drawNat_ctxs (s : State) (m : Nat) : (drawNat m s).2.ctxs = s.ctxs := rfl
@[simp] theorem drawNat_mem (s : State) (m : Nat) : (drawNat m s).2.mem = s.mem := rfl
@[simp] theorem drawNat_units (s : State) (m : Nat) : (drawNat m s).2.units = s.units := rfl
@[simp] theorem drawNat_chans (s : State) (m : Nat) : (drawNat m s).2.chans = s.chans := rfl
@[simp] theorem drawNat_mon (s : State) (m : Nat) : (drawNat m s).2.mon = s.mon := rfl
@[simp] theorem drawNat_vcc (s : State) (m : Nat) : (drawNat m s).2.vcc = s.vcc := rfl
@[simp] theorem drawNat_mae (s : State) (m : Nat) : (drawNat m s).2.mae = s.mae := rfl
@[simp] theorem drawNat_sc (s : State) (m : Nat) : (drawNat m s).2.sc = s.sc := rfl
@[simp] theorem drawNat_tok (s : State) (m : Nat) : (drawNat m s).2.tok = s.tok := rfl
@[simp] theorem drawNat_lcs (s : State) (m : Nat) : (drawNat m s).2.lcs = s.lcs := rfl
@[simp] theorem drawNat_dbg (s : State) (m : Nat) : (drawNat m s).2.dbg = s.dbg := rfl
@[simp] theorem drawNat_tam (s : State) (m : Nat) : (drawNat m s).2.tam = s.tam := rfl
@[simp] theorem drawNat_flt (s : State) (m : Nat) : (drawNat m s).2.flt = s.flt := rfl
@[simp] theorem drawNat_alm (s : State) (m : Nat) : (drawNat m s).2.alm = s.alm := rfl
@[simp] theorem drawNat_doe (s : State) (m : Nat) : (drawNat m s).2.doe = s.doe := rfl
@[simp] theorem drawNat_out (s : State) (m : Nat) : (drawNat m s).2.out = s.out := rfl
@[simp] theorem drawNat_pending (s : State) (m : Nat) : (drawNat m s).2.pending = s.pending := rfl

@[simp] theorem drawKeyId_part (s : State) : (drawKeyId s).2.part = s.part := rfl
@[simp] theorem drawKeyId_clk (s : State) : (drawKeyId s).2.clk = s.clk := rfl
@[simp] theorem drawKeyId_pwr (s : State) : (drawKeyId s).2.pwr = s.pwr := rfl
@[simp] theorem drawKeyId_boot (s : State) : (drawKeyId s).2.boot = s.boot := rfl
@[simp] theorem drawKeyId_eph (s : State) : (drawKeyId s).2.eph = s.eph := rfl
@[simp] theorem drawKeyId_mer (s : State) : (drawKeyId s).2.mer = s.mer := rfl
@[simp] theorem drawKeyId_link (s : State) : (drawKeyId s).2.link = s.link := rfl
@[simp] theorem drawKeyId_fns (s : State) : (drawKeyId s).2.fns = s.fns := rfl
@[simp] theorem drawKeyId_slices (s : State) : (drawKeyId s).2.slices = s.slices := rfl
@[simp] theorem drawKeyId_mgr (s : State) : (drawKeyId s).2.mgr = s.mgr := rfl
@[simp] theorem drawKeyId_sqs (s : State) : (drawKeyId s).2.sqs = s.sqs := rfl
@[simp] theorem drawKeyId_cqs (s : State) : (drawKeyId s).2.cqs = s.cqs := rfl
@[simp] theorem drawKeyId_jobs (s : State) : (drawKeyId s).2.jobs = s.jobs := rfl
@[simp] theorem drawKeyId_nextJob (s : State) : (drawKeyId s).2.nextJob = s.nextJob := rfl
@[simp] theorem drawKeyId_waits (s : State) : (drawKeyId s).2.waits = s.waits := rfl
@[simp] theorem drawKeyId_slots (s : State) : (drawKeyId s).2.slots = s.slots := rfl
@[simp] theorem drawKeyId_ctxs (s : State) : (drawKeyId s).2.ctxs = s.ctxs := rfl
@[simp] theorem drawKeyId_mem (s : State) : (drawKeyId s).2.mem = s.mem := rfl
@[simp] theorem drawKeyId_units (s : State) : (drawKeyId s).2.units = s.units := rfl
@[simp] theorem drawKeyId_chans (s : State) : (drawKeyId s).2.chans = s.chans := rfl
@[simp] theorem drawKeyId_mon (s : State) : (drawKeyId s).2.mon = s.mon := rfl
@[simp] theorem drawKeyId_vcc (s : State) : (drawKeyId s).2.vcc = s.vcc := rfl
@[simp] theorem drawKeyId_mae (s : State) : (drawKeyId s).2.mae = s.mae := rfl
@[simp] theorem drawKeyId_sc (s : State) : (drawKeyId s).2.sc = s.sc := rfl
@[simp] theorem drawKeyId_tok (s : State) : (drawKeyId s).2.tok = s.tok := rfl
@[simp] theorem drawKeyId_lcs (s : State) : (drawKeyId s).2.lcs = s.lcs := rfl
@[simp] theorem drawKeyId_dbg (s : State) : (drawKeyId s).2.dbg = s.dbg := rfl
@[simp] theorem drawKeyId_tam (s : State) : (drawKeyId s).2.tam = s.tam := rfl
@[simp] theorem drawKeyId_flt (s : State) : (drawKeyId s).2.flt = s.flt := rfl
@[simp] theorem drawKeyId_alm (s : State) : (drawKeyId s).2.alm = s.alm := rfl
@[simp] theorem drawKeyId_doe (s : State) : (drawKeyId s).2.doe = s.doe := rfl
@[simp] theorem drawKeyId_out (s : State) : (drawKeyId s).2.out = s.out := rfl
@[simp] theorem drawKeyId_pending (s : State) : (drawKeyId s).2.pending = s.pending := rfl

end Sys2Proof.Machine
end

