-- ==== Sys2Proof/Laws/Frames.lean ====
section
/-!
SUPPORT. What each shared operation can change at all: everything else is as before.
-/
namespace Sys2Proof.Machine
set_option Elab.async false -- the package as one text has more theorems than threads

/-! ### The Almanac path -/

theorem overflowUp_frame (k : Nat) (s : State) : overflowUp k s = { s with alm := (overflowUp k s).alm } := rfl

theorem bufferRecord_frame (r : AlmRec) (s : State) : bufferRecord r s = { s with alm := (bufferRecord r s).alm } := by
  unfold bufferRecord
  repeat' first | rfl | split

theorem raiseEvent_frame (k x : Nat) (p : Bytes) (s : State) (b : Bool) : raiseEvent k x p s b = { s with alm := (raiseEvent k x p s b).alm } := by
  unfold raiseEvent
  extract_lets s' r
  split
  · rfl
  · split
    · rfl
    · rw [bufferRecord_frame]

theorem faultEvent_frame (n k x : Nat) (p : Bytes) (s : State) (b : Bool) :
    faultEvent n k x p s b = { setFault n s with alm := (faultEvent n k x p s b).alm } :=
  raiseEvent_frame k x p (setFault n s) b

/-- An event leaves the clock, the counters and the cursor of the Almanac path alone. -/
theorem bufferRecord_alm (r : AlmRec) (s : State) :
    (bufferRecord r s).alm = { s.alm with staging := (bufferRecord r s).alm.staging, queue := (bufferRecord r s).alm.queue,
                                          overflow := (bufferRecord r s).alm.overflow, drops := (bufferRecord r s).alm.drops } := by
  unfold bufferRecord
  repeat' first | rfl | split

theorem raiseEvent_alm (k x : Nat) (p : Bytes) (s : State) (b : Bool) :
    (raiseEvent k x p s b).alm = { s.alm with staging := (raiseEvent k x p s b).alm.staging, queue := (raiseEvent k x p s b).alm.queue,
                                              overflow := (raiseEvent k x p s b).alm.overflow, drops := (raiseEvent k x p s b).alm.drops,
                                              windows := (raiseEvent k x p s b).alm.windows, eventSeq := sat32 s.alm.eventSeq } := by
  unfold raiseEvent
  extract_lets s' r
  split
  · rfl
  · split
    · rfl
    · rw [bufferRecord_alm]

/-! ### Writes, interrupts, event rings: only the function records and what leaves the module -/

/-- The two states differ at most in the function records and in what has left the module. -/
def LinkOnly (b t : State) : Prop := t = { b with fns := t.fns, out := t.out }

theorem LinkOnly.refl (s : State) : LinkOnly s s := rfl

theorem LinkOnly.trans {a b c : State} (h : LinkOnly a b) (k : LinkOnly b c) : LinkOnly a c := by
  unfold LinkOnly at *
  rw [k, h]

theorem linkOnly_emit {b s : State} (m : LinkMsg) (h : LinkOnly b s) : LinkOnly b (emit m s) := h.trans rfl

theorem linkOnly_onFn {b s : State} (f : Fn) (g : FnState → FnState) (h : LinkOnly b s) : LinkOnly b (s.onFn f g) := h.trans rfl

theorem linkOnly_foldl {α : Type} {b s : State} {f : State → α → State} {l : List α} (hf : ∀ t x, LinkOnly b t → LinkOnly b (f t x)) (h : LinkOnly b s) :
    LinkOnly b (l.foldl f s) := by
  induction l generalizing s with
  | nil => exact h
  | cons x l ih => exact ih (hf s x h)

theorem linkOnly_ite {b x y : State} {c : Prop} [Decidable c] (h : LinkOnly b x) (k : LinkOnly b y) : LinkOnly b (if c then x else y) := by
  split
  · exact h
  · exact k

theorem linkOnly_sendWrite {b s : State} (f : Fn) (a : Nat) (d : Bytes) (h : LinkOnly b s) : LinkOnly b (sendWrite f a d s) := linkOnly_emit _ h

theorem linkOnly_sendAsk {b s : State} (f : Fn) (a : Nat) (x : Tlp) (m : Tlp → LinkMsg) (h : LinkOnly b s) : LinkOnly b (sendAsk f a x m s) :=
  linkOnly_onFn _ _ (linkOnly_emit _ h)

theorem linkOnly_translatePage {b s : State} (f : Fn) (p : Nat) (h : LinkOnly b s) : LinkOnly b (translatePage f p s) :=
  linkOnly_ite h (linkOnly_onFn _ _ (linkOnly_sendAsk _ _ _ _ (linkOnly_ite h (h.trans rfl))))

theorem linkOnly_translate {b s : State} (f : Fn) (a n : Nat) (h : LinkOnly b s) : LinkOnly b (translate f a n s) :=
  linkOnly_foldl (fun _ _ => linkOnly_translatePage _ _) h

theorem linkOnly_postWrite {b s : State} (f : Fn) (a : Nat) (d : Bytes) (h : LinkOnly b s) : LinkOnly b (postWrite f a d s) :=
  linkOnly_foldl (fun _ _ => linkOnly_sendWrite _ _ _) (linkOnly_translate _ _ _ h)

theorem linkOnly_postRead {b s : State} (f : Fn) (a n : Nat) (h : LinkOnly b s) : LinkOnly b (postRead f a n s) :=
  linkOnly_foldl (fun _ _ => linkOnly_sendAsk _ _ _ _) (linkOnly_translate _ _ _ h)

theorem linkOnly_fetchRead {b s : State} (f : Fn) (q : Nat) (h : LinkOnly b s) : LinkOnly b (fetchRead f q s) := by
  unfold fetchRead
  split
  · exact linkOnly_postRead _ _ _ h
  · exact h

theorem linkOnly_answerUr {b s : State} (f : Fn) (h : LinkOnly b s) : LinkOnly b (answerUr f s) :=
  linkOnly_onFn _ _ (linkOnly_onFn _ _ (linkOnly_emit _ h))

theorem linkOnly_markWord {b s : State} (a m : Nat) (h : LinkOnly b s) : LinkOnly b (markWord a m s) := by
  unfold markWord
  exact linkOnly_sendAsk _ _ _ _ (linkOnly_translate _ _ _ h)

theorem linkOnly_markMap {b s : State} (d : DirtyMap) (l : List Nat) (h : LinkOnly b s) : LinkOnly b (markMap d l s) :=
  linkOnly_foldl (fun _ _ => linkOnly_markWord _ _) h

theorem linkOnly_markAll {b s : State} (f : Fn) (l : List (DirtyMap × Nat)) (h : LinkOnly b s) : LinkOnly b (markAll f l s) :=
  linkOnly_ite h (linkOnly_ite (linkOnly_onFn _ _ h) (linkOnly_foldl (fun _ _ => linkOnly_markMap _ _) h))

theorem linkOnly_countOutside {b s : State} (f : Fn) (a n : Nat) (h : LinkOnly b s) : LinkOnly b (countOutside f a n s) :=
  linkOnly_ite (linkOnly_onFn _ _ h) h

theorem linkOnly_dirtyMark {b s : State} (f : Fn) (a n : Nat) (h : LinkOnly b s) : LinkOnly b (dirtyMark f a n s) :=
  linkOnly_countOutside _ _ _ (linkOnly_markAll _ _ h)

theorem linkOnly_signal {b s : State} (f : Fn) (v : Nat) (h : LinkOnly b s) : LinkOnly b (signal f v s) := by
  unfold signal
  refine linkOnly_ite h ?_
  split
  exact linkOnly_ite h (linkOnly_ite (linkOnly_onFn _ _ h) (linkOnly_emit _ h))

theorem linkOnly_writeOut {b s : State} (f : Fn) (a : Nat) (d : Bytes) (h : LinkOnly b s) : LinkOnly b (writeOut f a d s) :=
  linkOnly_ite h (linkOnly_dirtyMark _ _ _ (linkOnly_postWrite _ _ _ h))

theorem linkOnly_writeRing {b s : State} (f : Fn) (a : Nat) (d : Bytes) (h : LinkOnly b s) : LinkOnly b (writeRing f a d s) :=
  linkOnly_sendWrite _ _ _ (linkOnly_translate _ _ _ (linkOnly_dirtyMark _ _ _ h))

theorem linkOnly_ringEvent {b s : State} (f : Fn) (k x d v : Nat) (h : LinkOnly b s) : LinkOnly b (ringEvent f k x d v s) := by
  unfold ringEvent
  split
  · exact h
  · exact linkOnly_ite (linkOnly_onFn _ _ h) (linkOnly_signal _ _ (linkOnly_onFn _ _ (linkOnly_writeRing _ _ _ h)))

theorem linkOnly_ringEventAll {b s : State} (k d v : Nat) (h : LinkOnly b s) : LinkOnly b (ringEventAll k d v s) :=
  linkOnly_foldl (fun _ _ ht => linkOnly_ringEvent _ _ _ _ _ ht) h

theorem linkOnly_answerRead {b s : State} (f : Fn) (v : Nat) (h : LinkOnly b s) : LinkOnly b (answerRead f v s) :=
  linkOnly_ite (linkOnly_answerUr _ h) (linkOnly_emit _ h)

/-- A trace frame changes only the trace port's fields and what leaves the module. -/
theorem trace_frame (e : TraceEv) (s : State) : trace e s = { s with dbg := (trace e s).dbg, out := (trace e s).out } := by
  unfold trace
  extract_lets d
  split
  · rfl
  · split
    · rfl
    · split
      · rfl
      · split <;> rfl

/-- Rights that lapse change only the debug unit and the Almanac path. -/
theorem clampRights_frame (s : State) : clampRights s = { s with dbg := (clampRights s).dbg, alm := (clampRights s).alm } := by
  unfold clampRights setActive
  dsimp only
  split
  · rfl
  · split
    · rfl
    · split <;> rw [raiseEvent_frame] <;> rfl

/-- The mask port's draws touch no debug unit. -/
theorem reseedMask_dbg (u : Nat) (s : State) : (reseedMask u s).dbg = s.dbg := by
  unfold reseedMask
  cases s.sc.drbgOn <;> rfl
theorem drawMask_dbg (c b : Nat) (s : State) : (drawMask c b s).dbg = s.dbg := by
  unfold drawMask
  split
  · rfl
  · extract_lets t
    split
    · exact reseedMask_dbg _ _
    · rfl

end Sys2Proof.Machine
end

