-- ==== Sys2Proof/Laws/Events.lean ====
section
/-!
SUPPORT. What the shared operations over events, interrupts and the link leave alone, one lemma per field of the state.
-/
namespace Sys2Proof.Machine
set_option Elab.async false -- the package as one text has more theorems than threads

/-! ### raiseEvent -/

@[simp] theorem raiseEvent_part (k x : Nat) (p : Bytes) (b : Bool) (s : State) : (raiseEvent k x p s b).part = s.part := by rw [raiseEvent_frame]
@[simp] theorem raiseEvent_clk (k x : Nat) (p : Bytes) (b : Bool) (s : State) : (raiseEvent k x p s b).clk = s.clk := by rw [raiseEvent_frame]
@[simp] theorem raiseEvent_pwr (k x : Nat) (p : Bytes) (b : Bool) (s : State) : (raiseEvent k x p s b).pwr = s.pwr := by rw [raiseEvent_frame]
@[simp] theorem raiseEvent_boot (k x : Nat) (p : Bytes) (b : Bool) (s : State) : (raiseEvent k x p s b).boot = s.boot := by rw [raiseEvent_frame]
@[simp] theorem raiseEvent_eph (k x : Nat) (p : Bytes) (b : Bool) (s : State) : (raiseEvent k x p s b).eph = s.eph := by rw [raiseEvent_frame]
@[simp] theorem raiseEvent_mer (k x : Nat) (p : Bytes) (b : Bool) (s : State) : (raiseEvent k x p s b).mer = s.mer := by rw [raiseEvent_frame]
@[simp] theorem raiseEvent_link (k x : Nat) (p : Bytes) (b : Bool) (s : State) : (raiseEvent k x p s b).link = s.link := by rw [raiseEvent_frame]
@[simp] theorem raiseEvent_fns (k x : Nat) (p : Bytes) (b : Bool) (s : State) : (raiseEvent k x p s b).fns = s.fns := by rw [raiseEvent_frame]
@[simp] theorem raiseEvent_slices (k x : Nat) (p : Bytes) (b : Bool) (s : State) : (raiseEvent k x p s b).slices = s.slices := by rw [raiseEvent_frame]
@[simp] theorem raiseEvent_mgr (k x : Nat) (p : Bytes) (b : Bool) (s : State) : (raiseEvent k x p s b).mgr = s.mgr := by rw [raiseEvent_frame]
@[simp] theorem raiseEvent_sqs (k x : Nat) (p : Bytes) (b : Bool) (s : State) : (raiseEvent k x p s b).sqs = s.sqs := by rw [raiseEvent_frame]
@[simp] theorem raiseEvent_cqs (k x : Nat) (p : Bytes) (b : Bool) (s : State) : (raiseEvent k x p s b).cqs = s.cqs := by rw [raiseEvent_frame]
@[simp] theorem raiseEvent_jobs (k x : Nat) (p : Bytes) (b : Bool) (s : State) : (raiseEvent k x p s b).jobs = s.jobs := by rw [raiseEvent_frame]
@[simp] theorem raiseEvent_nextJob (k x : Nat) (p : Bytes) (b : Bool) (s : State) : (raiseEvent k x p s b).nextJob = s.nextJob := by rw [raiseEvent_frame]
@[simp] theorem raiseEvent_waits (k x : Nat) (p : Bytes) (b : Bool) (s : State) : (raiseEvent k x p s b).waits = s.waits := by rw [raiseEvent_frame]
@[simp] theorem raiseEvent_slots (k x : Nat) (p : Bytes) (b : Bool) (s : State) : (raiseEvent k x p s b).slots = s.slots := by rw [raiseEvent_frame]
@[simp] theorem raiseEvent_ctxs (k x : Nat) (p : Bytes) (b : Bool) (s : State) : (raiseEvent k x p s b).ctxs = s.ctxs := by rw [raiseEvent_frame]
@[simp] theorem raiseEvent_mem (k x : Nat) (p : Bytes) (b : Bool) (s : State) : (raiseEvent k x p s b).mem = s.mem := by rw [raiseEvent_frame]
@[simp] theorem raiseEvent_units (k x : Nat) (p : Bytes) (b : Bool) (s : State) : (raiseEvent k x p s b).units = s.units := by rw [raiseEvent_frame]
@[simp] theorem raiseEvent_chans (k x : Nat) (p : Bytes) (b : Bool) (s : State) : (raiseEvent k x p s b).chans = s.chans := by rw [raiseEvent_frame]
@[simp] theorem raiseEvent_mon (k x : Nat) (p : Bytes) (b : Bool) (s : State) : (raiseEvent k x p s b).mon = s.mon := by rw [raiseEvent_frame]
@[simp] theorem raiseEvent_vcc (k x : Nat) (p : Bytes) (b : Bool) (s : State) : (raiseEvent k x p s b).vcc = s.vcc := by rw [raiseEvent_frame]
@[simp] theorem raiseEvent_mae (k x : Nat) (p : Bytes) (b : Bool) (s : State) : (raiseEvent k x p s b).mae = s.mae := by rw [raiseEvent_frame]
@[simp] theorem raiseEvent_sc (k x : Nat) (p : Bytes) (b : Bool) (s : State) : (raiseEvent k x p s b).sc = s.sc := by rw [raiseEvent_frame]
@[simp] theorem raiseEvent_tok (k x : Nat) (p : Bytes) (b : Bool) (s : State) : (raiseEvent k x p s b).tok = s.tok := by rw [raiseEvent_frame]
@[simp] theorem raiseEvent_lcs (k x : Nat) (p : Bytes) (b : Bool) (s : State) : (raiseEvent k x p s b).lcs = s.lcs := by rw [raiseEvent_frame]
@[simp] theorem raiseEvent_dbg (k x : Nat) (p : Bytes) (b : Bool) (s : State) : (raiseEvent k x p s b).dbg = s.dbg := by rw [raiseEvent_frame]
@[simp] theorem raiseEvent_tam (k x : Nat) (p : Bytes) (b : Bool) (s : State) : (raiseEvent k x p s b).tam = s.tam := by rw [raiseEvent_frame]
@[simp] theorem raiseEvent_flt (k x : Nat) (p : Bytes) (b : Bool) (s : State) : (raiseEvent k x p s b).flt = s.flt := by rw [raiseEvent_frame]
@[simp] theorem raiseEvent_doe (k x : Nat) (p : Bytes) (b : Bool) (s : State) : (raiseEvent k x p s b).doe = s.doe := by rw [raiseEvent_frame]
@[simp] theorem raiseEvent_out (k x : Nat) (p : Bytes) (b : Bool) (s : State) : (raiseEvent k x p s b).out = s.out := by rw [raiseEvent_frame]
@[simp] theorem raiseEvent_free (k x : Nat) (p : Bytes) (b : Bool) (s : State) : (raiseEvent k x p s b).free = s.free := by rw [raiseEvent_frame]
@[simp] theorem raiseEvent_pending (k x : Nat) (p : Bytes) (b : Bool) (s : State) : (raiseEvent k x p s b).pending = s.pending := by rw [raiseEvent_frame]

/-! ### bufferRecord -/

@[simp] theorem bufferRecord_part (r : AlmRec) (s : State) : (bufferRecord r s).part = s.part := by rw [bufferRecord_frame]
@[simp] theorem bufferRecord_clk (r : AlmRec) (s : State) : (bufferRecord r s).clk = s.clk := by rw [bufferRecord_frame]
@[simp] theorem bufferRecord_pwr (r : AlmRec) (s : State) : (bufferRecord r s).pwr = s.pwr := by rw [bufferRecord_frame]
@[simp] theorem bufferRecord_boot (r : AlmRec) (s : State) : (bufferRecord r s).boot = s.boot := by rw [bufferRecord_frame]
@[simp] theorem bufferRecord_eph (r : AlmRec) (s : State) : (bufferRecord r s).eph = s.eph := by rw [bufferRecord_frame]
@[simp] theorem bufferRecord_mer (r : AlmRec) (s : State) : (bufferRecord r s).mer = s.mer := by rw [bufferRecord_frame]
@[simp] theorem bufferRecord_link (r : AlmRec) (s : State) : (bufferRecord r s).link = s.link := by rw [bufferRecord_frame]
@[simp] theorem bufferRecord_fns (r : AlmRec) (s : State) : (bufferRecord r s).fns = s.fns := by rw [bufferRecord_frame]
@[simp] theorem bufferRecord_slices (r : AlmRec) (s : State) : (bufferRecord r s).slices = s.slices := by rw [bufferRecord_frame]
@[simp] theorem bufferRecord_mgr (r : AlmRec) (s : State) : (bufferRecord r s).mgr = s.mgr := by rw [bufferRecord_frame]
@[simp] theorem bufferRecord_sqs (r : AlmRec) (s : State) : (bufferRecord r s).sqs = s.sqs := by rw [bufferRecord_frame]
@[simp] theorem bufferRecord_cqs (r : AlmRec) (s : State) : (bufferRecord r s).cqs = s.cqs := by rw [bufferRecord_frame]
@[simp] theorem bufferRecord_jobs (r : AlmRec) (s : State) : (bufferRecord r s).jobs = s.jobs := by rw [bufferRecord_frame]
@[simp] theorem bufferRecord_nextJob (r : AlmRec) (s : State) : (bufferRecord r s).nextJob = s.nextJob := by rw [bufferRecord_frame]
@[simp] theorem bufferRecord_waits (r : AlmRec) (s : State) : (bufferRecord r s).waits = s.waits := by rw [bufferRecord_frame]
@[simp] theorem bufferRecord_slots (r : AlmRec) (s : State) : (bufferRecord r s).slots = s.slots := by rw [bufferRecord_frame]
@[simp] theorem bufferRecord_ctxs (r : AlmRec) (s : State) : (bufferRecord r s).ctxs = s.ctxs := by rw [bufferRecord_frame]
@[simp] theorem bufferRecord_mem (r : AlmRec) (s : State) : (bufferRecord r s).mem = s.mem := by rw [bufferRecord_frame]
@[simp] theorem bufferRecord_units (r : AlmRec) (s : State) : (bufferRecord r s).units = s.units := by rw [bufferRecord_frame]
@[simp] theorem bufferRecord_chans (r : AlmRec) (s : State) : (bufferRecord r s).chans = s.chans := by rw [bufferRecord_frame]
@[simp] theorem bufferRecord_mon (r : AlmRec) (s : State) : (bufferRecord r s).mon = s.mon := by rw [bufferRecord_frame]
@[simp] theorem bufferRecord_vcc (r : AlmRec) (s : State) : (bufferRecord r s).vcc = s.vcc := by rw [bufferRecord_frame]
@[simp] theorem bufferRecord_mae (r : AlmRec) (s : State) : (bufferRecord r s).mae = s.mae := by rw [bufferRecord_frame]
@[simp] theorem bufferRecord_sc (r : AlmRec) (s : State) : (bufferRecord r s).sc = s.sc := by rw [bufferRecord_frame]
@[simp] theorem bufferRecord_tok (r : AlmRec) (s : State) : (bufferRecord r s).tok = s.tok := by rw [bufferRecord_frame]
@[simp] theorem bufferRecord_lcs (r : AlmRec) (s : State) : (bufferRecord r s).lcs = s.lcs := by rw [bufferRecord_frame]
@[simp] theorem bufferRecord_dbg (r : AlmRec) (s : State) : (bufferRecord r s).dbg = s.dbg := by rw [bufferRecord_frame]
@[simp] theorem bufferRecord_tam (r : AlmRec) (s : State) : (bufferRecord r s).tam = s.tam := by rw [bufferRecord_frame]
@[simp] theorem bufferRecord_flt (r : AlmRec) (s : State) : (bufferRecord r s).flt = s.flt := by rw [bufferRecord_frame]
@[simp] theorem bufferRecord_doe (r : AlmRec) (s : State) : (bufferRecord r s).doe = s.doe := by rw [bufferRecord_frame]
@[simp] theorem bufferRecord_out (r : AlmRec) (s : State) : (bufferRecord r s).out = s.out := by rw [bufferRecord_frame]
@[simp] theorem bufferRecord_free (r : AlmRec) (s : State) : (bufferRecord r s).free = s.free := by rw [bufferRecord_frame]
@[simp] theorem bufferRecord_pending (r : AlmRec) (s : State) : (bufferRecord r s).pending = s.pending := by rw [bufferRecord_frame]

/-! ### trace -/

@[simp] theorem trace_part (e : TraceEv) (s : State) : (trace e s).part = s.part := by rw [trace_frame]
@[simp] theorem trace_clk (e : TraceEv) (s : State) : (trace e s).clk = s.clk := by rw [trace_frame]
@[simp] theorem trace_pwr (e : TraceEv) (s : State) : (trace e s).pwr = s.pwr := by rw [trace_frame]
@[simp] theorem trace_boot (e : TraceEv) (s : State) : (trace e s).boot = s.boot := by rw [trace_frame]
@[simp] theorem trace_eph (e : TraceEv) (s : State) : (trace e s).eph = s.eph := by rw [trace_frame]
@[simp] theorem trace_mer (e : TraceEv) (s : State) : (trace e s).mer = s.mer := by rw [trace_frame]
@[simp] theorem trace_link (e : TraceEv) (s : State) : (trace e s).link = s.link := by rw [trace_frame]
@[simp] theorem trace_fns (e : TraceEv) (s : State) : (trace e s).fns = s.fns := by rw [trace_frame]
@[simp] theorem trace_slices (e : TraceEv) (s : State) : (trace e s).slices = s.slices := by rw [trace_frame]
@[simp] theorem trace_mgr (e : TraceEv) (s : State) : (trace e s).mgr = s.mgr := by rw [trace_frame]
@[simp] theorem trace_sqs (e : TraceEv) (s : State) : (trace e s).sqs = s.sqs := by rw [trace_frame]
@[simp] theorem trace_cqs (e : TraceEv) (s : State) : (trace e s).cqs = s.cqs := by rw [trace_frame]
@[simp] theorem trace_jobs (e : TraceEv) (s : State) : (trace e s).jobs = s.jobs := by rw [trace_frame]
@[simp] theorem trace_nextJob (e : TraceEv) (s : State) : (trace e s).nextJob = s.nextJob := by rw [trace_frame]
@[simp] theorem trace_waits (e : TraceEv) (s : State) : (trace e s).waits = s.waits := by rw [trace_frame]
@[simp] theorem trace_slots (e : TraceEv) (s : State) : (trace e s).slots = s.slots := by rw [trace_frame]
@[simp] theorem trace_ctxs (e : TraceEv) (s : State) : (trace e s).ctxs = s.ctxs := by rw [trace_frame]
@[simp] theorem trace_mem (e : TraceEv) (s : State) : (trace e s).mem = s.mem := by rw [trace_frame]
@[simp] theorem trace_units (e : TraceEv) (s : State) : (trace e s).units = s.units := by rw [trace_frame]
@[simp] theorem trace_chans (e : TraceEv) (s : State) : (trace e s).chans = s.chans := by rw [trace_frame]
@[simp] theorem trace_mon (e : TraceEv) (s : State) : (trace e s).mon = s.mon := by rw [trace_frame]
@[simp] theorem trace_vcc (e : TraceEv) (s : State) : (trace e s).vcc = s.vcc := by rw [trace_frame]
@[simp] theorem trace_mae (e : TraceEv) (s : State) : (trace e s).mae = s.mae := by rw [trace_frame]
@[simp] theorem trace_sc (e : TraceEv) (s : State) : (trace e s).sc = s.sc := by rw [trace_frame]
@[simp] theorem trace_tok (e : TraceEv) (s : State) : (trace e s).tok = s.tok := by rw [trace_frame]
@[simp] theorem trace_lcs (e : TraceEv) (s : State) : (trace e s).lcs = s.lcs := by rw [trace_frame]
@[simp] theorem trace_tam (e : TraceEv) (s : State) : (trace e s).tam = s.tam := by rw [trace_frame]
@[simp] theorem trace_flt (e : TraceEv) (s : State) : (trace e s).flt = s.flt := by rw [trace_frame]
@[simp] theorem trace_alm (e : TraceEv) (s : State) : (trace e s).alm = s.alm := by rw [trace_frame]
@[simp] theorem trace_doe (e : TraceEv) (s : State) : (trace e s).doe = s.doe := by rw [trace_frame]
@[simp] theorem trace_free (e : TraceEv) (s : State) : (trace e s).free = s.free := by rw [trace_frame]
@[simp] theorem trace_pending (e : TraceEv) (s : State) : (trace e s).pending = s.pending := by rw [trace_frame]

/-! ### ringEvent -/

@[simp] theorem ringEvent_part (f : Fn) (k x d v : Nat) (s : State) : (ringEvent f k x d v s).part = s.part := by rw [show LinkOnly s (ringEvent f k x d v s) from linkOnly_ringEvent _ _ _ _ _ (.refl s)]
@[simp] theorem ringEvent_clk (f : Fn) (k x d v : Nat) (s : State) : (ringEvent f k x d v s).clk = s.clk := by rw [show LinkOnly s (ringEvent f k x d v s) from linkOnly_ringEvent _ _ _ _ _ (.refl s)]
@[simp] theorem ringEvent_pwr (f : Fn) (k x d v : Nat) (s : State) : (ringEvent f k x d v s).pwr = s.pwr := by rw [show LinkOnly s (ringEvent f k x d v s) from linkOnly_ringEvent _ _ _ _ _ (.refl s)]
@[simp] theorem ringEvent_boot (f : Fn) (k x d v : Nat) (s : State) : (ringEvent f k x d v s).boot = s.boot := by rw [show LinkOnly s (ringEvent f k x d v s) from linkOnly_ringEvent _ _ _ _ _ (.refl s)]
@[simp] theorem ringEvent_eph (f : Fn) (k x d v : Nat) (s : State) : (ringEvent f k x d v s).eph = s.eph := by rw [show LinkOnly s (ringEvent f k x d v s) from linkOnly_ringEvent _ _ _ _ _ (.refl s)]
@[simp] theorem ringEvent_mer (f : Fn) (k x d v : Nat) (s : State) : (ringEvent f k x d v s).mer = s.mer := by rw [show LinkOnly s (ringEvent f k x d v s) from linkOnly_ringEvent _ _ _ _ _ (.refl s)]
@[simp] theorem ringEvent_link (f : Fn) (k x d v : Nat) (s : State) : (ringEvent f k x d v s).link = s.link := by rw [show LinkOnly s (ringEvent f k x d v s) from linkOnly_ringEvent _ _ _ _ _ (.refl s)]
@[simp] theorem ringEvent_slices (f : Fn) (k x d v : Nat) (s : State) : (ringEvent f k x d v s).slices = s.slices := by rw [show LinkOnly s (ringEvent f k x d v s) from linkOnly_ringEvent _ _ _ _ _ (.refl s)]
@[simp] theorem ringEvent_mgr (f : Fn) (k x d v : Nat) (s : State) : (ringEvent f k x d v s).mgr = s.mgr := by rw [show LinkOnly s (ringEvent f k x d v s) from linkOnly_ringEvent _ _ _ _ _ (.refl s)]
@[simp] theorem ringEvent_sqs (f : Fn) (k x d v : Nat) (s : State) : (ringEvent f k x d v s).sqs = s.sqs := by rw [show LinkOnly s (ringEvent f k x d v s) from linkOnly_ringEvent _ _ _ _ _ (.refl s)]
@[simp] theorem ringEvent_cqs (f : Fn) (k x d v : Nat) (s : State) : (ringEvent f k x d v s).cqs = s.cqs := by rw [show LinkOnly s (ringEvent f k x d v s) from linkOnly_ringEvent _ _ _ _ _ (.refl s)]
@[simp] theorem ringEvent_jobs (f : Fn) (k x d v : Nat) (s : State) : (ringEvent f k x d v s).jobs = s.jobs := by rw [show LinkOnly s (ringEvent f k x d v s) from linkOnly_ringEvent _ _ _ _ _ (.refl s)]
@[simp] theorem ringEvent_nextJob (f : Fn) (k x d v : Nat) (s : State) : (ringEvent f k x d v s).nextJob = s.nextJob := by rw [show LinkOnly s (ringEvent f k x d v s) from linkOnly_ringEvent _ _ _ _ _ (.refl s)]
@[simp] theorem ringEvent_waits (f : Fn) (k x d v : Nat) (s : State) : (ringEvent f k x d v s).waits = s.waits := by rw [show LinkOnly s (ringEvent f k x d v s) from linkOnly_ringEvent _ _ _ _ _ (.refl s)]
@[simp] theorem ringEvent_slots (f : Fn) (k x d v : Nat) (s : State) : (ringEvent f k x d v s).slots = s.slots := by rw [show LinkOnly s (ringEvent f k x d v s) from linkOnly_ringEvent _ _ _ _ _ (.refl s)]
@[simp] theorem ringEvent_ctxs (f : Fn) (k x d v : Nat) (s : State) : (ringEvent f k x d v s).ctxs = s.ctxs := by rw [show LinkOnly s (ringEvent f k x d v s) from linkOnly_ringEvent _ _ _ _ _ (.refl s)]
@[simp] theorem ringEvent_mem (f : Fn) (k x d v : Nat) (s : State) : (ringEvent f k x d v s).mem = s.mem := by rw [show LinkOnly s (ringEvent f k x d v s) from linkOnly_ringEvent _ _ _ _ _ (.refl s)]
@[simp] theorem ringEvent_units (f : Fn) (k x d v : Nat) (s : State) : (ringEvent f k x d v s).units = s.units := by rw [show LinkOnly s (ringEvent f k x d v s) from linkOnly_ringEvent _ _ _ _ _ (.refl s)]
@[simp] theorem ringEvent_chans (f : Fn) (k x d v : Nat) (s : State) : (ringEvent f k x d v s).chans = s.chans := by rw [show LinkOnly s (ringEvent f k x d v s) from linkOnly_ringEvent _ _ _ _ _ (.refl s)]
@[simp] theorem ringEvent_mon (f : Fn) (k x d v : Nat) (s : State) : (ringEvent f k x d v s).mon = s.mon := by rw [show LinkOnly s (ringEvent f k x d v s) from linkOnly_ringEvent _ _ _ _ _ (.refl s)]
@[simp] theorem ringEvent_vcc (f : Fn) (k x d v : Nat) (s : State) : (ringEvent f k x d v s).vcc = s.vcc := by rw [show LinkOnly s (ringEvent f k x d v s) from linkOnly_ringEvent _ _ _ _ _ (.refl s)]
@[simp] theorem ringEvent_mae (f : Fn) (k x d v : Nat) (s : State) : (ringEvent f k x d v s).mae = s.mae := by rw [show LinkOnly s (ringEvent f k x d v s) from linkOnly_ringEvent _ _ _ _ _ (.refl s)]
@[simp] theorem ringEvent_sc (f : Fn) (k x d v : Nat) (s : State) : (ringEvent f k x d v s).sc = s.sc := by rw [show LinkOnly s (ringEvent f k x d v s) from linkOnly_ringEvent _ _ _ _ _ (.refl s)]
@[simp] theorem ringEvent_tok (f : Fn) (k x d v : Nat) (s : State) : (ringEvent f k x d v s).tok = s.tok := by rw [show LinkOnly s (ringEvent f k x d v s) from linkOnly_ringEvent _ _ _ _ _ (.refl s)]
@[simp] theorem ringEvent_lcs (f : Fn) (k x d v : Nat) (s : State) : (ringEvent f k x d v s).lcs = s.lcs := by rw [show LinkOnly s (ringEvent f k x d v s) from linkOnly_ringEvent _ _ _ _ _ (.refl s)]
@[simp] theorem ringEvent_dbg (f : Fn) (k x d v : Nat) (s : State) : (ringEvent f k x d v s).dbg = s.dbg := by rw [show LinkOnly s (ringEvent f k x d v s) from linkOnly_ringEvent _ _ _ _ _ (.refl s)]
@[simp] theorem ringEvent_tam (f : Fn) (k x d v : Nat) (s : State) : (ringEvent f k x d v s).tam = s.tam := by rw [show LinkOnly s (ringEvent f k x d v s) from linkOnly_ringEvent _ _ _ _ _ (.refl s)]
@[simp] theorem ringEvent_flt (f : Fn) (k x d v : Nat) (s : State) : (ringEvent f k x d v s).flt = s.flt := by rw [show LinkOnly s (ringEvent f k x d v s) from linkOnly_ringEvent _ _ _ _ _ (.refl s)]
@[simp] theorem ringEvent_alm (f : Fn) (k x d v : Nat) (s : State) : (ringEvent f k x d v s).alm = s.alm := by rw [show LinkOnly s (ringEvent f k x d v s) from linkOnly_ringEvent _ _ _ _ _ (.refl s)]
@[simp] theorem ringEvent_doe (f : Fn) (k x d v : Nat) (s : State) : (ringEvent f k x d v s).doe = s.doe := by rw [show LinkOnly s (ringEvent f k x d v s) from linkOnly_ringEvent _ _ _ _ _ (.refl s)]
@[simp] theorem ringEvent_free (f : Fn) (k x d v : Nat) (s : State) : (ringEvent f k x d v s).free = s.free := by rw [show LinkOnly s (ringEvent f k x d v s) from linkOnly_ringEvent _ _ _ _ _ (.refl s)]
@[simp] theorem ringEvent_pending (f : Fn) (k x d v : Nat) (s : State) : (ringEvent f k x d v s).pending = s.pending := by rw [show LinkOnly s (ringEvent f k x d v s) from linkOnly_ringEvent _ _ _ _ _ (.refl s)]

/-! ### ringEventAll -/

@[simp] theorem ringEventAll_part (k d v : Nat) (s : State) : (ringEventAll k d v s).part = s.part := by rw [show LinkOnly s (ringEventAll k d v s) from linkOnly_ringEventAll _ _ _ (.refl s)]
@[simp] theorem ringEventAll_clk (k d v : Nat) (s : State) : (ringEventAll k d v s).clk = s.clk := by rw [show LinkOnly s (ringEventAll k d v s) from linkOnly_ringEventAll _ _ _ (.refl s)]
@[simp] theorem ringEventAll_pwr (k d v : Nat) (s : State) : (ringEventAll k d v s).pwr = s.pwr := by rw [show LinkOnly s (ringEventAll k d v s) from linkOnly_ringEventAll _ _ _ (.refl s)]
@[simp] theorem ringEventAll_boot (k d v : Nat) (s : State) : (ringEventAll k d v s).boot = s.boot := by rw [show LinkOnly s (ringEventAll k d v s) from linkOnly_ringEventAll _ _ _ (.refl s)]
@[simp] theorem ringEventAll_eph (k d v : Nat) (s : State) : (ringEventAll k d v s).eph = s.eph := by rw [show LinkOnly s (ringEventAll k d v s) from linkOnly_ringEventAll _ _ _ (.refl s)]
@[simp] theorem ringEventAll_mer (k d v : Nat) (s : State) : (ringEventAll k d v s).mer = s.mer := by rw [show LinkOnly s (ringEventAll k d v s) from linkOnly_ringEventAll _ _ _ (.refl s)]
@[simp] theorem ringEventAll_link (k d v : Nat) (s : State) : (ringEventAll k d v s).link = s.link := by rw [show LinkOnly s (ringEventAll k d v s) from linkOnly_ringEventAll _ _ _ (.refl s)]
@[simp] theorem ringEventAll_slices (k d v : Nat) (s : State) : (ringEventAll k d v s).slices = s.slices := by rw [show LinkOnly s (ringEventAll k d v s) from linkOnly_ringEventAll _ _ _ (.refl s)]
@[simp] theorem ringEventAll_mgr (k d v : Nat) (s : State) : (ringEventAll k d v s).mgr = s.mgr := by rw [show LinkOnly s (ringEventAll k d v s) from linkOnly_ringEventAll _ _ _ (.refl s)]
@[simp] theorem ringEventAll_sqs (k d v : Nat) (s : State) : (ringEventAll k d v s).sqs = s.sqs := by rw [show LinkOnly s (ringEventAll k d v s) from linkOnly_ringEventAll _ _ _ (.refl s)]
@[simp] theorem ringEventAll_cqs (k d v : Nat) (s : State) : (ringEventAll k d v s).cqs = s.cqs := by rw [show LinkOnly s (ringEventAll k d v s) from linkOnly_ringEventAll _ _ _ (.refl s)]
@[simp] theorem ringEventAll_jobs (k d v : Nat) (s : State) : (ringEventAll k d v s).jobs = s.jobs := by rw [show LinkOnly s (ringEventAll k d v s) from linkOnly_ringEventAll _ _ _ (.refl s)]
@[simp] theorem ringEventAll_nextJob (k d v : Nat) (s : State) : (ringEventAll k d v s).nextJob = s.nextJob := by rw [show LinkOnly s (ringEventAll k d v s) from linkOnly_ringEventAll _ _ _ (.refl s)]
@[simp] theorem ringEventAll_waits (k d v : Nat) (s : State) : (ringEventAll k d v s).waits = s.waits := by rw [show LinkOnly s (ringEventAll k d v s) from linkOnly_ringEventAll _ _ _ (.refl s)]
@[simp] theorem ringEventAll_slots (k d v : Nat) (s : State) : (ringEventAll k d v s).slots = s.slots := by rw [show LinkOnly s (ringEventAll k d v s) from linkOnly_ringEventAll _ _ _ (.refl s)]
@[simp] theorem ringEventAll_ctxs (k d v : Nat) (s : State) : (ringEventAll k d v s).ctxs = s.ctxs := by rw [show LinkOnly s (ringEventAll k d v s) from linkOnly_ringEventAll _ _ _ (.refl s)]
@[simp] theorem ringEventAll_mem (k d v : Nat) (s : State) : (ringEventAll k d v s).mem = s.mem := by rw [show LinkOnly s (ringEventAll k d v s) from linkOnly_ringEventAll _ _ _ (.refl s)]
@[simp] theorem ringEventAll_units (k d v : Nat) (s : State) : (ringEventAll k d v s).units = s.units := by rw [show LinkOnly s (ringEventAll k d v s) from linkOnly_ringEventAll _ _ _ (.refl s)]
@[simp] theorem ringEventAll_chans (k d v : Nat) (s : State) : (ringEventAll k d v s).chans = s.chans := by rw [show LinkOnly s (ringEventAll k d v s) from linkOnly_ringEventAll _ _ _ (.refl s)]
@[simp] theorem ringEventAll_mon (k d v : Nat) (s : State) : (ringEventAll k d v s).mon = s.mon := by rw [show LinkOnly s (ringEventAll k d v s) from linkOnly_ringEventAll _ _ _ (.refl s)]
@[simp] theorem ringEventAll_vcc (k d v : Nat) (s : State) : (ringEventAll k d v s).vcc = s.vcc := by rw [show LinkOnly s (ringEventAll k d v s) from linkOnly_ringEventAll _ _ _ (.refl s)]
@[simp] theorem ringEventAll_mae (k d v : Nat) (s : State) : (ringEventAll k d v s).mae = s.mae := by rw [show LinkOnly s (ringEventAll k d v s) from linkOnly_ringEventAll _ _ _ (.refl s)]
@[simp] theorem ringEventAll_sc (k d v : Nat) (s : State) : (ringEventAll k d v s).sc = s.sc := by rw [show LinkOnly s (ringEventAll k d v s) from linkOnly_ringEventAll _ _ _ (.refl s)]
@[simp] theorem ringEventAll_tok (k d v : Nat) (s : State) : (ringEventAll k d v s).tok = s.tok := by rw [show LinkOnly s (ringEventAll k d v s) from linkOnly_ringEventAll _ _ _ (.refl s)]
@[simp] theorem ringEventAll_lcs (k d v : Nat) (s : State) : (ringEventAll k d v s).lcs = s.lcs := by rw [show LinkOnly s (ringEventAll k d v s) from linkOnly_ringEventAll _ _ _ (.refl s)]
@[simp] theorem ringEventAll_dbg (k d v : Nat) (s : State) : (ringEventAll k d v s).dbg = s.dbg := by rw [show LinkOnly s (ringEventAll k d v s) from linkOnly_ringEventAll _ _ _ (.refl s)]
@[simp] theorem ringEventAll_tam (k d v : Nat) (s : State) : (ringEventAll k d v s).tam = s.tam := by rw [show LinkOnly s (ringEventAll k d v s) from linkOnly_ringEventAll _ _ _ (.refl s)]
@[simp] theorem ringEventAll_flt (k d v : Nat) (s : State) : (ringEventAll k d v s).flt = s.flt := by rw [show LinkOnly s (ringEventAll k d v s) from linkOnly_ringEventAll _ _ _ (.refl s)]
@[simp] theorem ringEventAll_alm (k d v : Nat) (s : State) : (ringEventAll k d v s).alm = s.alm := by rw [show LinkOnly s (ringEventAll k d v s) from linkOnly_ringEventAll _ _ _ (.refl s)]
@[simp] theorem ringEventAll_doe (k d v : Nat) (s : State) : (ringEventAll k d v s).doe = s.doe := by rw [show LinkOnly s (ringEventAll k d v s) from linkOnly_ringEventAll _ _ _ (.refl s)]
@[simp] theorem ringEventAll_free (k d v : Nat) (s : State) : (ringEventAll k d v s).free = s.free := by rw [show LinkOnly s (ringEventAll k d v s) from linkOnly_ringEventAll _ _ _ (.refl s)]
@[simp] theorem ringEventAll_pending (k d v : Nat) (s : State) : (ringEventAll k d v s).pending = s.pending := by rw [show LinkOnly s (ringEventAll k d v s) from linkOnly_ringEventAll _ _ _ (.refl s)]

/-! ### signal -/

@[simp] theorem signal_part (f : Fn) (v : Nat) (s : State) : (signal f v s).part = s.part := by rw [show LinkOnly s (signal f v s) from linkOnly_signal _ _ (.refl s)]
@[simp] theorem signal_clk (f : Fn) (v : Nat) (s : State) : (signal f v s).clk = s.clk := by rw [show LinkOnly s (signal f v s) from linkOnly_signal _ _ (.refl s)]
@[simp] theorem signal_pwr (f : Fn) (v : Nat) (s : State) : (signal f v s).pwr = s.pwr := by rw [show LinkOnly s (signal f v s) from linkOnly_signal _ _ (.refl s)]
@[simp] theorem signal_boot (f : Fn) (v : Nat) (s : State) : (signal f v s).boot = s.boot := by rw [show LinkOnly s (signal f v s) from linkOnly_signal _ _ (.refl s)]
@[simp] theorem signal_eph (f : Fn) (v : Nat) (s : State) : (signal f v s).eph = s.eph := by rw [show LinkOnly s (signal f v s) from linkOnly_signal _ _ (.refl s)]
@[simp] theorem signal_mer (f : Fn) (v : Nat) (s : State) : (signal f v s).mer = s.mer := by rw [show LinkOnly s (signal f v s) from linkOnly_signal _ _ (.refl s)]
@[simp] theorem signal_link (f : Fn) (v : Nat) (s : State) : (signal f v s).link = s.link := by rw [show LinkOnly s (signal f v s) from linkOnly_signal _ _ (.refl s)]
@[simp] theorem signal_slices (f : Fn) (v : Nat) (s : State) : (signal f v s).slices = s.slices := by rw [show LinkOnly s (signal f v s) from linkOnly_signal _ _ (.refl s)]
@[simp] theorem signal_mgr (f : Fn) (v : Nat) (s : State) : (signal f v s).mgr = s.mgr := by rw [show LinkOnly s (signal f v s) from linkOnly_signal _ _ (.refl s)]
@[simp] theorem signal_sqs (f : Fn) (v : Nat) (s : State) : (signal f v s).sqs = s.sqs := by rw [show LinkOnly s (signal f v s) from linkOnly_signal _ _ (.refl s)]
@[simp] theorem signal_cqs (f : Fn) (v : Nat) (s : State) : (signal f v s).cqs = s.cqs := by rw [show LinkOnly s (signal f v s) from linkOnly_signal _ _ (.refl s)]
@[simp] theorem signal_jobs (f : Fn) (v : Nat) (s : State) : (signal f v s).jobs = s.jobs := by rw [show LinkOnly s (signal f v s) from linkOnly_signal _ _ (.refl s)]
@[simp] theorem signal_nextJob (f : Fn) (v : Nat) (s : State) : (signal f v s).nextJob = s.nextJob := by rw [show LinkOnly s (signal f v s) from linkOnly_signal _ _ (.refl s)]
@[simp] theorem signal_waits (f : Fn) (v : Nat) (s : State) : (signal f v s).waits = s.waits := by rw [show LinkOnly s (signal f v s) from linkOnly_signal _ _ (.refl s)]
@[simp] theorem signal_slots (f : Fn) (v : Nat) (s : State) : (signal f v s).slots = s.slots := by rw [show LinkOnly s (signal f v s) from linkOnly_signal _ _ (.refl s)]
@[simp] theorem signal_ctxs (f : Fn) (v : Nat) (s : State) : (signal f v s).ctxs = s.ctxs := by rw [show LinkOnly s (signal f v s) from linkOnly_signal _ _ (.refl s)]
@[simp] theorem signal_mem (f : Fn) (v : Nat) (s : State) : (signal f v s).mem = s.mem := by rw [show LinkOnly s (signal f v s) from linkOnly_signal _ _ (.refl s)]
@[simp] theorem signal_units (f : Fn) (v : Nat) (s : State) : (signal f v s).units = s.units := by rw [show LinkOnly s (signal f v s) from linkOnly_signal _ _ (.refl s)]
@[simp] theorem signal_chans (f : Fn) (v : Nat) (s : State) : (signal f v s).chans = s.chans := by rw [show LinkOnly s (signal f v s) from linkOnly_signal _ _ (.refl s)]
@[simp] theorem signal_mon (f : Fn) (v : Nat) (s : State) : (signal f v s).mon = s.mon := by rw [show LinkOnly s (signal f v s) from linkOnly_signal _ _ (.refl s)]
@[simp] theorem signal_vcc (f : Fn) (v : Nat) (s : State) : (signal f v s).vcc = s.vcc := by rw [show LinkOnly s (signal f v s) from linkOnly_signal _ _ (.refl s)]
@[simp] theorem signal_mae (f : Fn) (v : Nat) (s : State) : (signal f v s).mae = s.mae := by rw [show LinkOnly s (signal f v s) from linkOnly_signal _ _ (.refl s)]
@[simp] theorem signal_sc (f : Fn) (v : Nat) (s : State) : (signal f v s).sc = s.sc := by rw [show LinkOnly s (signal f v s) from linkOnly_signal _ _ (.refl s)]
@[simp] theorem signal_tok (f : Fn) (v : Nat) (s : State) : (signal f v s).tok = s.tok := by rw [show LinkOnly s (signal f v s) from linkOnly_signal _ _ (.refl s)]
@[simp] theorem signal_lcs (f : Fn) (v : Nat) (s : State) : (signal f v s).lcs = s.lcs := by rw [show LinkOnly s (signal f v s) from linkOnly_signal _ _ (.refl s)]
@[simp] theorem signal_dbg (f : Fn) (v : Nat) (s : State) : (signal f v s).dbg = s.dbg := by rw [show LinkOnly s (signal f v s) from linkOnly_signal _ _ (.refl s)]
@[simp] theorem signal_tam (f : Fn) (v : Nat) (s : State) : (signal f v s).tam = s.tam := by rw [show LinkOnly s (signal f v s) from linkOnly_signal _ _ (.refl s)]
@[simp] theorem signal_flt (f : Fn) (v : Nat) (s : State) : (signal f v s).flt = s.flt := by rw [show LinkOnly s (signal f v s) from linkOnly_signal _ _ (.refl s)]
@[simp] theorem signal_alm (f : Fn) (v : Nat) (s : State) : (signal f v s).alm = s.alm := by rw [show LinkOnly s (signal f v s) from linkOnly_signal _ _ (.refl s)]
@[simp] theorem signal_doe (f : Fn) (v : Nat) (s : State) : (signal f v s).doe = s.doe := by rw [show LinkOnly s (signal f v s) from linkOnly_signal _ _ (.refl s)]
@[simp] theorem signal_free (f : Fn) (v : Nat) (s : State) : (signal f v s).free = s.free := by rw [show LinkOnly s (signal f v s) from linkOnly_signal _ _ (.refl s)]
@[simp] theorem signal_pending (f : Fn) (v : Nat) (s : State) : (signal f v s).pending = s.pending := by rw [show LinkOnly s (signal f v s) from linkOnly_signal _ _ (.refl s)]

/-! ### writeOut -/

@[simp] theorem writeOut_part (f : Fn) (a : Nat) (d : Bytes) (s : State) : (writeOut f a d s).part = s.part := by rw [show LinkOnly s (writeOut f a d s) from linkOnly_writeOut _ _ _ (.refl s)]
@[simp] theorem writeOut_clk (f : Fn) (a : Nat) (d : Bytes) (s : State) : (writeOut f a d s).clk = s.clk := by rw [show LinkOnly s (writeOut f a d s) from linkOnly_writeOut _ _ _ (.refl s)]
@[simp] theorem writeOut_pwr (f : Fn) (a : Nat) (d : Bytes) (s : State) : (writeOut f a d s).pwr = s.pwr := by rw [show LinkOnly s (writeOut f a d s) from linkOnly_writeOut _ _ _ (.refl s)]
@[simp] theorem writeOut_boot (f : Fn) (a : Nat) (d : Bytes) (s : State) : (writeOut f a d s).boot = s.boot := by rw [show LinkOnly s (writeOut f a d s) from linkOnly_writeOut _ _ _ (.refl s)]
@[simp] theorem writeOut_eph (f : Fn) (a : Nat) (d : Bytes) (s : State) : (writeOut f a d s).eph = s.eph := by rw [show LinkOnly s (writeOut f a d s) from linkOnly_writeOut _ _ _ (.refl s)]
@[simp] theorem writeOut_mer (f : Fn) (a : Nat) (d : Bytes) (s : State) : (writeOut f a d s).mer = s.mer := by rw [show LinkOnly s (writeOut f a d s) from linkOnly_writeOut _ _ _ (.refl s)]
@[simp] theorem writeOut_link (f : Fn) (a : Nat) (d : Bytes) (s : State) : (writeOut f a d s).link = s.link := by rw [show LinkOnly s (writeOut f a d s) from linkOnly_writeOut _ _ _ (.refl s)]
@[simp] theorem writeOut_slices (f : Fn) (a : Nat) (d : Bytes) (s : State) : (writeOut f a d s).slices = s.slices := by rw [show LinkOnly s (writeOut f a d s) from linkOnly_writeOut _ _ _ (.refl s)]
@[simp] theorem writeOut_mgr (f : Fn) (a : Nat) (d : Bytes) (s : State) : (writeOut f a d s).mgr = s.mgr := by rw [show LinkOnly s (writeOut f a d s) from linkOnly_writeOut _ _ _ (.refl s)]
@[simp] theorem writeOut_sqs (f : Fn) (a : Nat) (d : Bytes) (s : State) : (writeOut f a d s).sqs = s.sqs := by rw [show LinkOnly s (writeOut f a d s) from linkOnly_writeOut _ _ _ (.refl s)]
@[simp] theorem writeOut_cqs (f : Fn) (a : Nat) (d : Bytes) (s : State) : (writeOut f a d s).cqs = s.cqs := by rw [show LinkOnly s (writeOut f a d s) from linkOnly_writeOut _ _ _ (.refl s)]
@[simp] theorem writeOut_jobs (f : Fn) (a : Nat) (d : Bytes) (s : State) : (writeOut f a d s).jobs = s.jobs := by rw [show LinkOnly s (writeOut f a d s) from linkOnly_writeOut _ _ _ (.refl s)]
@[simp] theorem writeOut_nextJob (f : Fn) (a : Nat) (d : Bytes) (s : State) : (writeOut f a d s).nextJob = s.nextJob := by rw [show LinkOnly s (writeOut f a d s) from linkOnly_writeOut _ _ _ (.refl s)]
@[simp] theorem writeOut_waits (f : Fn) (a : Nat) (d : Bytes) (s : State) : (writeOut f a d s).waits = s.waits := by rw [show LinkOnly s (writeOut f a d s) from linkOnly_writeOut _ _ _ (.refl s)]
@[simp] theorem writeOut_slots (f : Fn) (a : Nat) (d : Bytes) (s : State) : (writeOut f a d s).slots = s.slots := by rw [show LinkOnly s (writeOut f a d s) from linkOnly_writeOut _ _ _ (.refl s)]
@[simp] theorem writeOut_ctxs (f : Fn) (a : Nat) (d : Bytes) (s : State) : (writeOut f a d s).ctxs = s.ctxs := by rw [show LinkOnly s (writeOut f a d s) from linkOnly_writeOut _ _ _ (.refl s)]
@[simp] theorem writeOut_mem (f : Fn) (a : Nat) (d : Bytes) (s : State) : (writeOut f a d s).mem = s.mem := by rw [show LinkOnly s (writeOut f a d s) from linkOnly_writeOut _ _ _ (.refl s)]
@[simp] theorem writeOut_units (f : Fn) (a : Nat) (d : Bytes) (s : State) : (writeOut f a d s).units = s.units := by rw [show LinkOnly s (writeOut f a d s) from linkOnly_writeOut _ _ _ (.refl s)]
@[simp] theorem writeOut_chans (f : Fn) (a : Nat) (d : Bytes) (s : State) : (writeOut f a d s).chans = s.chans := by rw [show LinkOnly s (writeOut f a d s) from linkOnly_writeOut _ _ _ (.refl s)]
@[simp] theorem writeOut_mon (f : Fn) (a : Nat) (d : Bytes) (s : State) : (writeOut f a d s).mon = s.mon := by rw [show LinkOnly s (writeOut f a d s) from linkOnly_writeOut _ _ _ (.refl s)]
@[simp] theorem writeOut_vcc (f : Fn) (a : Nat) (d : Bytes) (s : State) : (writeOut f a d s).vcc = s.vcc := by rw [show LinkOnly s (writeOut f a d s) from linkOnly_writeOut _ _ _ (.refl s)]
@[simp] theorem writeOut_mae (f : Fn) (a : Nat) (d : Bytes) (s : State) : (writeOut f a d s).mae = s.mae := by rw [show LinkOnly s (writeOut f a d s) from linkOnly_writeOut _ _ _ (.refl s)]
@[simp] theorem writeOut_sc (f : Fn) (a : Nat) (d : Bytes) (s : State) : (writeOut f a d s).sc = s.sc := by rw [show LinkOnly s (writeOut f a d s) from linkOnly_writeOut _ _ _ (.refl s)]
@[simp] theorem writeOut_tok (f : Fn) (a : Nat) (d : Bytes) (s : State) : (writeOut f a d s).tok = s.tok := by rw [show LinkOnly s (writeOut f a d s) from linkOnly_writeOut _ _ _ (.refl s)]
@[simp] theorem writeOut_lcs (f : Fn) (a : Nat) (d : Bytes) (s : State) : (writeOut f a d s).lcs = s.lcs := by rw [show LinkOnly s (writeOut f a d s) from linkOnly_writeOut _ _ _ (.refl s)]
@[simp] theorem writeOut_dbg (f : Fn) (a : Nat) (d : Bytes) (s : State) : (writeOut f a d s).dbg = s.dbg := by rw [show LinkOnly s (writeOut f a d s) from linkOnly_writeOut _ _ _ (.refl s)]
@[simp] theorem writeOut_tam (f : Fn) (a : Nat) (d : Bytes) (s : State) : (writeOut f a d s).tam = s.tam := by rw [show LinkOnly s (writeOut f a d s) from linkOnly_writeOut _ _ _ (.refl s)]
@[simp] theorem writeOut_flt (f : Fn) (a : Nat) (d : Bytes) (s : State) : (writeOut f a d s).flt = s.flt := by rw [show LinkOnly s (writeOut f a d s) from linkOnly_writeOut _ _ _ (.refl s)]
@[simp] theorem writeOut_alm (f : Fn) (a : Nat) (d : Bytes) (s : State) : (writeOut f a d s).alm = s.alm := by rw [show LinkOnly s (writeOut f a d s) from linkOnly_writeOut _ _ _ (.refl s)]
@[simp] theorem writeOut_doe (f : Fn) (a : Nat) (d : Bytes) (s : State) : (writeOut f a d s).doe = s.doe := by rw [show LinkOnly s (writeOut f a d s) from linkOnly_writeOut _ _ _ (.refl s)]
@[simp] theorem writeOut_free (f : Fn) (a : Nat) (d : Bytes) (s : State) : (writeOut f a d s).free = s.free := by rw [show LinkOnly s (writeOut f a d s) from linkOnly_writeOut _ _ _ (.refl s)]
@[simp] theorem writeOut_pending (f : Fn) (a : Nat) (d : Bytes) (s : State) : (writeOut f a d s).pending = s.pending := by rw [show LinkOnly s (writeOut f a d s) from linkOnly_writeOut _ _ _ (.refl s)]

/-! ### answerRead -/

@[simp] theorem answerRead_part (f : Fn) (v : Nat) (s : State) : (answerRead f v s).part = s.part := by unfold answerRead; split <;> rfl
@[simp] theorem answerRead_clk (f : Fn) (v : Nat) (s : State) : (answerRead f v s).clk = s.clk := by unfold answerRead; split <;> rfl
@[simp] theorem answerRead_pwr (f : Fn) (v : Nat) (s : State) : (answerRead f v s).pwr = s.pwr := by unfold answerRead; split <;> rfl
@[simp] theorem answerRead_boot (f : Fn) (v : Nat) (s : State) : (answerRead f v s).boot = s.boot := by unfold answerRead; split <;> rfl
@[simp] theorem answerRead_eph (f : Fn) (v : Nat) (s : State) : (answerRead f v s).eph = s.eph := by unfold answerRead; split <;> rfl
@[simp] theorem answerRead_mer (f : Fn) (v : Nat) (s : State) : (answerRead f v s).mer = s.mer := by unfold answerRead; split <;> rfl
@[simp] theorem answerRead_link (f : Fn) (v : Nat) (s : State) : (answerRead f v s).link = s.link := by unfold answerRead; split <;> rfl
@[simp] theorem answerRead_slices (f : Fn) (v : Nat) (s : State) : (answerRead f v s).slices = s.slices := by unfold answerRead; split <;> rfl
@[simp] theorem answerRead_mgr (f : Fn) (v : Nat) (s : State) : (answerRead f v s).mgr = s.mgr := by unfold answerRead; split <;> rfl
@[simp] theorem answerRead_sqs (f : Fn) (v : Nat) (s : State) : (answerRead f v s).sqs = s.sqs := by unfold answerRead; split <;> rfl
@[simp] theorem answerRead_cqs (f : Fn) (v : Nat) (s : State) : (answerRead f v s).cqs = s.cqs := by unfold answerRead; split <;> rfl
@[simp] theorem answerRead_jobs (f : Fn) (v : Nat) (s : State) : (answerRead f v s).jobs = s.jobs := by unfold answerRead; split <;> rfl
@[simp] theorem answerRead_nextJob (f : Fn) (v : Nat) (s : State) : (answerRead f v s).nextJob = s.nextJob := by unfold answerRead; split <;> rfl
@[simp] theorem answerRead_waits (f : Fn) (v : Nat) (s : State) : (answerRead f v s).waits = s.waits := by unfold answerRead; split <;> rfl
@[simp] theorem answerRead_slots (f : Fn) (v : Nat) (s : State) : (answerRead f v s).slots = s.slots := by unfold answerRead; split <;> rfl
@[simp] theorem answerRead_ctxs (f : Fn) (v : Nat) (s : State) : (answerRead f v s).ctxs = s.ctxs := by unfold answerRead; split <;> rfl
@[simp] theorem answerRead_mem (f : Fn) (v : Nat) (s : State) : (answerRead f v s).mem = s.mem := by unfold answerRead; split <;> rfl
@[simp] theorem answerRead_units (f : Fn) (v : Nat) (s : State) : (answerRead f v s).units = s.units := by unfold answerRead; split <;> rfl
@[simp] theorem answerRead_chans (f : Fn) (v : Nat) (s : State) : (answerRead f v s).chans = s.chans := by unfold answerRead; split <;> rfl
@[simp] theorem answerRead_mon (f : Fn) (v : Nat) (s : State) : (answerRead f v s).mon = s.mon := by unfold answerRead; split <;> rfl
@[simp] theorem answerRead_vcc (f : Fn) (v : Nat) (s : State) : (answerRead f v s).vcc = s.vcc := by unfold answerRead; split <;> rfl
@[simp] theorem answerRead_mae (f : Fn) (v : Nat) (s : State) : (answerRead f v s).mae = s.mae := by unfold answerRead; split <;> rfl
@[simp] theorem answerRead_sc (f : Fn) (v : Nat) (s : State) : (answerRead f v s).sc = s.sc := by unfold answerRead; split <;> rfl
@[simp] theorem answerRead_tok (f : Fn) (v : Nat) (s : State) : (answerRead f v s).tok = s.tok := by unfold answerRead; split <;> rfl
@[simp] theorem answerRead_lcs (f : Fn) (v : Nat) (s : State) : (answerRead f v s).lcs = s.lcs := by unfold answerRead; split <;> rfl
@[simp] theorem answerRead_dbg (f : Fn) (v : Nat) (s : State) : (answerRead f v s).dbg = s.dbg := by unfold answerRead; split <;> rfl
@[simp] theorem answerRead_tam (f : Fn) (v : Nat) (s : State) : (answerRead f v s).tam = s.tam := by unfold answerRead; split <;> rfl
@[simp] theorem answerRead_flt (f : Fn) (v : Nat) (s : State) : (answerRead f v s).flt = s.flt := by unfold answerRead; split <;> rfl
@[simp] theorem answerRead_alm (f : Fn) (v : Nat) (s : State) : (answerRead f v s).alm = s.alm := by unfold answerRead; split <;> rfl
@[simp] theorem answerRead_doe (f : Fn) (v : Nat) (s : State) : (answerRead f v s).doe = s.doe := by unfold answerRead; split <;> rfl
@[simp] theorem answerRead_free (f : Fn) (v : Nat) (s : State) : (answerRead f v s).free = s.free := by unfold answerRead; split <;> rfl
@[simp] theorem answerRead_pending (f : Fn) (v : Nat) (s : State) : (answerRead f v s).pending = s.pending := by unfold answerRead; split <;> rfl

/-! ### What an event leaves of the Almanac path -/

@[simp] theorem raiseEvent_alm_eventSeq (k x : Nat) (p : Bytes) (b : Bool) (s : State) : (raiseEvent k x p s b).alm.eventSeq = sat32 s.alm.eventSeq := by rw [raiseEvent_alm]
@[simp] theorem raiseEvent_alm_lostCount (k x : Nat) (p : Bytes) (b : Bool) (s : State) : (raiseEvent k x p s b).alm.lostCount = s.alm.lostCount := by rw [raiseEvent_alm]
@[simp] theorem raiseEvent_alm_powerCycle (k x : Nat) (p : Bytes) (b : Bool) (s : State) : (raiseEvent k x p s b).alm.powerCycle = s.alm.powerCycle := by rw [raiseEvent_alm]
@[simp] theorem raiseEvent_alm_hours (k x : Nat) (p : Bytes) (b : Bool) (s : State) : (raiseEvent k x p s b).alm.hours = s.alm.hours := by rw [raiseEvent_alm]
@[simp] theorem raiseEvent_alm_hourNs (k x : Nat) (p : Bytes) (b : Bool) (s : State) : (raiseEvent k x p s b).alm.hourNs = s.alm.hourNs := by rw [raiseEvent_alm]
@[simp] theorem raiseEvent_alm_offNs (k x : Nat) (p : Bytes) (b : Bool) (s : State) : (raiseEvent k x p s b).alm.offNs = s.alm.offNs := by rw [raiseEvent_alm]
@[simp] theorem raiseEvent_alm_copyCycle (k x : Nat) (p : Bytes) (b : Bool) (s : State) : (raiseEvent k x p s b).alm.copyCycle = s.alm.copyCycle := by rw [raiseEvent_alm]
@[simp] theorem raiseEvent_alm_copyHours (k x : Nat) (p : Bytes) (b : Bool) (s : State) : (raiseEvent k x p s b).alm.copyHours = s.alm.copyHours := by rw [raiseEvent_alm]
@[simp] theorem raiseEvent_alm_cursor (k x : Nat) (p : Bytes) (b : Bool) (s : State) : (raiseEvent k x p s b).alm.cursor = s.alm.cursor := by rw [raiseEvent_alm]
@[simp] theorem raiseEvent_alm_loading (k x : Nat) (p : Bytes) (b : Bool) (s : State) : (raiseEvent k x p s b).alm.loading = s.alm.loading := by rw [raiseEvent_alm]
@[simp] theorem raiseEvent_alm_clearing (k x : Nat) (p : Bytes) (b : Bool) (s : State) : (raiseEvent k x p s b).alm.clearing = s.alm.clearing := by rw [raiseEvent_alm]
@[simp] theorem raiseEvent_alm_window (k x : Nat) (p : Bytes) (b : Bool) (s : State) : (raiseEvent k x p s b).alm.window = s.alm.window := by rw [raiseEvent_alm]
@[simp] theorem raiseEvent_alm_ovfSel (k x : Nat) (p : Bytes) (b : Bool) (s : State) : (raiseEvent k x p s b).alm.ovfSel = s.alm.ovfSel := by rw [raiseEvent_alm]
@[simp] theorem bufferRecord_alm_eventSeq (r : AlmRec) (s : State) : (bufferRecord r s).alm.eventSeq = s.alm.eventSeq := by rw [bufferRecord_alm]
@[simp] theorem bufferRecord_alm_lostCount (r : AlmRec) (s : State) : (bufferRecord r s).alm.lostCount = s.alm.lostCount := by rw [bufferRecord_alm]
@[simp] theorem bufferRecord_alm_powerCycle (r : AlmRec) (s : State) : (bufferRecord r s).alm.powerCycle = s.alm.powerCycle := by rw [bufferRecord_alm]
@[simp] theorem bufferRecord_alm_hours (r : AlmRec) (s : State) : (bufferRecord r s).alm.hours = s.alm.hours := by rw [bufferRecord_alm]
@[simp] theorem bufferRecord_alm_hourNs (r : AlmRec) (s : State) : (bufferRecord r s).alm.hourNs = s.alm.hourNs := by rw [bufferRecord_alm]
@[simp] theorem bufferRecord_alm_offNs (r : AlmRec) (s : State) : (bufferRecord r s).alm.offNs = s.alm.offNs := by rw [bufferRecord_alm]
@[simp] theorem bufferRecord_alm_copyCycle (r : AlmRec) (s : State) : (bufferRecord r s).alm.copyCycle = s.alm.copyCycle := by rw [bufferRecord_alm]
@[simp] theorem bufferRecord_alm_copyHours (r : AlmRec) (s : State) : (bufferRecord r s).alm.copyHours = s.alm.copyHours := by rw [bufferRecord_alm]
@[simp] theorem bufferRecord_alm_cursor (r : AlmRec) (s : State) : (bufferRecord r s).alm.cursor = s.alm.cursor := by rw [bufferRecord_alm]
@[simp] theorem bufferRecord_alm_loading (r : AlmRec) (s : State) : (bufferRecord r s).alm.loading = s.alm.loading := by rw [bufferRecord_alm]
@[simp] theorem bufferRecord_alm_clearing (r : AlmRec) (s : State) : (bufferRecord r s).alm.clearing = s.alm.clearing := by rw [bufferRecord_alm]
@[simp] theorem bufferRecord_alm_window (r : AlmRec) (s : State) : (bufferRecord r s).alm.window = s.alm.window := by rw [bufferRecord_alm]
@[simp] theorem bufferRecord_alm_ovfSel (r : AlmRec) (s : State) : (bufferRecord r s).alm.ovfSel = s.alm.ovfSel := by rw [bufferRecord_alm]
@[simp] theorem bufferRecord_alm_windows (r : AlmRec) (s : State) : (bufferRecord r s).alm.windows = s.alm.windows := by rw [bufferRecord_alm]

end Sys2Proof.Machine
end

