-- ==== Sys2Proof/Laws/Finds.lean ====
section
/-!
SUPPORT. Reading a function, a queue, a job, a slot or a unit after one of them changed.
-/
namespace Sys2Proof.Machine
set_option Elab.async false -- the package as one text has more theorems than threads

theorem find_modFirst {α : Type} (p : α → Bool) (g : α → α) (hg : ∀ x, p x = true → p (g x) = true) (l : List α) :
    (modFirst p g l).find? p = (l.find? p).map g := by
  induction l with
  | nil => rfl
  | cons a l ih => by_cases h : p a = true <;> simp [modFirst, h, hg, ih]

theorem find_modFirst_ne {α : Type} (p q : α → Bool) (g : α → α) (hg : ∀ x, p x = true → q (g x) = false) (hq : ∀ x, p x = true → q x = false) (l : List α) :
    (modFirst p g l).find? q = l.find? q := by
  induction l with
  | nil => rfl
  | cons a l ih => by_cases h : p a = true <;> simp [modFirst, h, hg, hq, List.find?_cons, ih]

theorem fn?_onFn (s : State) (f : Fn) (g : FnState → FnState) (hg : ∀ x, x.fn = f → (g x).fn = f) : (s.onFn f g).fn? f = (s.fn? f).map g :=
  find_modFirst _ g (by simpa using hg) s.fns

theorem fn?_onFn_ne (s : State) (f h : Fn) (g : FnState → FnState) (hg : ∀ x, (g x).fn = x.fn) (hf : f ≠ h) : (s.onFn f g).fn? h = s.fn? h :=
  find_modFirst_ne _ _ g (by intro x; simp only [beq_iff_eq, beq_eq_false_iff_ne, hg]; rintro rfl; exact hf)
    (by intro x; simp only [beq_iff_eq, beq_eq_false_iff_ne]; rintro rfl; exact hf) s.fns

theorem fn?_fn {s : State} {f : Fn} {x : FnState} (h : s.fn? f = some x) : x.fn = f := by
  simpa using List.find?_some h

theorem fnOf_eq {s : State} {f : Fn} {x : FnState} (h : s.fn? f = some x) : s.fnOf f = x := by
  unfold State.fnOf
  rw [h]
  rfl

theorem sq?_onSq (s : State) (f : Fn) (q : Nat) (g : Sq → Sq) (hg : ∀ x, (g x).fn = x.fn ∧ (g x).id = x.id) : (s.onSq f q g).sq? f q = (s.sq? f q).map g :=
  find_modFirst _ g (by intro x; simp [hg]) s.sqs

theorem cq?_onCq (s : State) (f : Fn) (q : Nat) (g : Cq → Cq) (hg : ∀ x, (g x).fn = x.fn ∧ (g x).id = x.id) : (s.onCq f q g).cq? f q = (s.cq? f q).map g :=
  find_modFirst _ g (by intro x; simp [hg]) s.cqs

theorem sq?_of_sqs {s t : State} (h : s.sqs = t.sqs) (f : Fn) (q : Nat) : s.sq? f q = t.sq? f q := by simp [State.sq?, h]
theorem cq?_of_cqs {s t : State} (h : s.cqs = t.cqs) (f : Fn) (q : Nat) : s.cq? f q = t.cq? f q := by simp [State.cq?, h]
theorem job?_of_jobs {s t : State} (h : s.jobs = t.jobs) (i : Nat) : s.job? i = t.job? i := by simp [State.job?, h]
theorem fn?_of_fns {s t : State} (h : s.fns = t.fns) (f : Fn) : s.fn? f = t.fn? f := by simp [State.fn?, h]

theorem job?_onJob (s : State) (i : Nat) (g : Job → Job) (hg : ∀ x, (g x).id = x.id) : (s.onJob i g).job? i = (s.job? i).map g :=
  find_modFirst _ g (by intro x; simp [hg]) s.jobs

theorem unit?_onUnit (s : State) (u : Nat) (g : UnitSt → UnitSt) (hg : ∀ x, (g x).id = x.id) : (s.onUnit u g).unit? u = (s.unit? u).map g :=
  find_modFirst _ g (by intro x; simp [hg]) s.units

/-- A queue that stops keeps everything but its state, its reason and what it latched. -/
theorem sq?_stopSq {s : State} {f : Fn} {q : Nat} {x : Sq} (r v : Nat) (h : s.sq? f q = some x) (hx : x.st ≠ .error) :
    (stopSq f q r v s).sq? f q = some { x with st := .error, reason := r, latched := v } := by
  have hx' : (x.st == .error) = false := by simpa using hx
  simp only [stopSq, h, hx', Bool.false_eq_true, if_false, stopEvent]
  have e := sq?_onSq s f q (fun x => { x with st := .error, reason := r, latched := v }) (fun _ => ⟨rfl, rfl⟩)
  rw [h] at e
  split <;> exact (sq?_of_sqs (ringEvent_sqs ..) f q).trans e

theorem jobs_stopSq (f : Fn) (q r v : Nat) (s : State) : (stopSq f q r v s).jobs = s.jobs := by
  unfold stopSq stopEvent
  split
  · rfl
  · split
    · rfl
    · split <;> simp

theorem cqs_stopSq (f : Fn) (q r v : Nat) (s : State) : (stopSq f q r v s).cqs = s.cqs := by
  unfold stopSq stopEvent
  split
  · rfl
  · split
    · rfl
    · split <;> simp

end Sys2Proof.Machine
end

