-- ==== Sys2Proof/Laws/Rings.lean ====
section
/-!
SUPPORT. Ring indices: how far one lies behind another as either moves (R148 to R153).
-/
namespace Sys2Proof.Machine
set_option Elab.async false -- the package as one text has more theorems than threads

theorem idxPos_lt {n v : Nat} (h : idxSlot v < n) : idxPos n v < 2 * n := by
  have w : idxWrap v = 0 ∨ idxWrap v = 1 := by unfold idxWrap; omega
  unfold idxPos
  rcases w with w | w <;> rw [w] <;> omega

theorem idxSlot_idxOf {n : Nat} (p : Nat) (h0 : 0 < n) (h : n ≤ 65536) : idxSlot (idxOf n p) = p % n := by
  have := Nat.mod_lt p h0
  unfold idxSlot idxOf
  omega

theorem idxPos_idxOf {n p : Nat} (h : n ≤ 65536) (hp : p < 2 * n) : idxPos n (idxOf n p) = p := by
  have h0 : 0 < n := by omega
  have hm := Nat.mod_lt p h0
  have hq : p / n = 0 ∨ p / n = 1 := by
    have : p / n < 2 := Nat.div_lt_of_lt_mul (by omega)
    generalize p / n = d at this ⊢
    omega
  have hw : idxWrap (idxOf n p) = p / n := by
    unfold idxWrap idxOf
    generalize p / n = q at *
    omega
  have e := Nat.div_add_mod p n
  unfold idxPos
  rw [hw, idxSlot_idxOf p h0 h]
  rcases hq with q | q <;> rw [q] at e ⊢ <;> omega

/-- The distance of two positions. -/
theorem dist_pos {n a b : Nat} (ha : a < 2 * n) (hb : b < 2 * n) : (b + 2 * n - a) % (2 * n) = if a ≤ b then b - a else b + 2 * n - a := by
  split
  · rw [show b + 2 * n - a = (b - a) + 2 * n from by omega, Nat.add_mod_right, Nat.mod_eq_of_lt (by omega)]
  · rw [Nat.mod_eq_of_lt (by omega)]

theorem idxDist_self {n v : Nat} : idxDist n v v = 0 := by
  unfold idxDist
  rw [show idxPos n v + 2 * n - idxPos n v = 2 * n from by omega, Nat.mod_self]

theorem depth_le {l : Nat} (h : l ≤ 16) : 0 < 2 ^ l ∧ 2 ^ l ≤ 65536 :=
  ⟨Nat.two_pow_pos l, Nat.le_trans (Nat.pow_le_pow_right (by decide) h) (by decide)⟩

/-- The next index, as a position. -/
theorem idxNext_pos {l v : Nat} (hl : l ≤ 16) (h : idxSlot v < 2 ^ l) :
    idxSlot (idxNext (2 ^ l) v) < 2 ^ l ∧ idxPos (2 ^ l) (idxNext (2 ^ l) v) = if idxPos (2 ^ l) v + 1 < 2 * 2 ^ l then idxPos (2 ^ l) v + 1 else 0 := by
  obtain ⟨h0, h1⟩ := depth_le hl
  have hp := idxPos_lt h
  generalize 2 ^ l = n at *
  have hm : (idxPos n v + 1) % (2 * n) < 2 * n := Nat.mod_lt _ (by omega)
  refine ⟨by unfold idxNext; rw [idxSlot_idxOf _ h0 h1]; exact Nat.mod_lt _ h0, ?_⟩
  unfold idxNext
  rw [idxPos_idxOf h1 hm]
  split
  · exact Nat.mod_eq_of_lt (by omega)
  · rw [show idxPos n v + 1 = 2 * n from by omega, Nat.mod_self]

/-- An empty ring. -/
theorem RingOk.empty {l : Nat} (h : l ≤ 16) : RingOk l 0 0 := by
  obtain ⟨h0, -⟩ := depth_le h
  exact ⟨h, h0, h0, by rw [idxDist_self]; exact Nat.zero_le _⟩

/-- An entry more at the tail of a ring with room. -/
theorem RingOk.next {l h t : Nat} (r : RingOk l h t) (room : idxDist (2 ^ l) h t < 2 ^ l) :
    RingOk l h (idxNext (2 ^ l) t) ∧ idxDist (2 ^ l) h (idxNext (2 ^ l) t) = idxDist (2 ^ l) h t + 1 := by
  obtain ⟨hl, hh, ht, hd⟩ := r
  obtain ⟨ns, np⟩ := idxNext_pos hl ht
  have a := idxPos_lt hh
  have b := idxPos_lt ht
  have c := idxPos_lt ns
  have e : idxDist (2 ^ l) h (idxNext (2 ^ l) t) = idxDist (2 ^ l) h t + 1 := by
    unfold idxDist at *
    rw [dist_pos a c, np]
    rw [dist_pos a b] at *
    clear np c ns
    generalize 2 ^ l = n at *
    split at room <;> repeat' split
    all_goals omega
  exact ⟨⟨hl, hh, ns, by omega⟩, e⟩

/-- The head passes an entry. -/
theorem RingOk.pass {l h t : Nat} (r : RingOk l h t) (some : 0 < idxDist (2 ^ l) h t) :
    RingOk l (idxNext (2 ^ l) h) t ∧ idxDist (2 ^ l) (idxNext (2 ^ l) h) t = idxDist (2 ^ l) h t - 1 := by
  obtain ⟨hl, hh, ht, hd⟩ := r
  obtain ⟨ns, np⟩ := idxNext_pos hl hh
  have a := idxPos_lt hh
  have b := idxPos_lt ht
  have c := idxPos_lt ns
  have e : idxDist (2 ^ l) (idxNext (2 ^ l) h) t = idxDist (2 ^ l) h t - 1 := by
    unfold idxDist at *
    rw [dist_pos c b, np]
    rw [dist_pos a b] at *
    clear np c ns
    generalize 2 ^ l = n at *
    split at some <;> repeat' split
    all_goals omega
  exact ⟨⟨hl, ns, ht, by omega⟩, e⟩

/-- The tail moves forward, no further than the depth. -/
theorem RingOk.tail {l h t i : Nat} (r : RingOk l h t) (hi : idxSlot i < 2 ^ l) (far : idxDist (2 ^ l) h i ≤ 2 ^ l)
    (fwd : idxDist (2 ^ l) h t ≤ idxDist (2 ^ l) h i) : RingOk l h i ∧ idxDist (2 ^ l) h i = idxDist (2 ^ l) h t + idxDist (2 ^ l) t i := by
  obtain ⟨hl, hh, ht, hd⟩ := r
  refine ⟨⟨hl, hh, hi, far⟩, ?_⟩
  have a := idxPos_lt hh
  have b := idxPos_lt ht
  have c := idxPos_lt hi
  unfold idxDist at *
  rw [dist_pos a b] at *
  rw [dist_pos a c] at *
  rw [dist_pos b c]
  generalize 2 ^ l = n at *
  by_cases x : idxPos n h ≤ idxPos n t <;> by_cases y : idxPos n h ≤ idxPos n i <;> by_cases z : idxPos n t ≤ idxPos n i <;>
    simp only [x, y, z, if_true, if_false] at far fwd hd ⊢ <;> omega

/-- The head moves forward, no further than the tail. -/
theorem RingOk.head {l h t i : Nat} (r : RingOk l h t) (hi : idxSlot i < 2 ^ l) (far : idxDist (2 ^ l) h i ≤ idxDist (2 ^ l) h t) : RingOk l i t := by
  obtain ⟨hl, hh, ht, hd⟩ := r
  refine ⟨hl, hi, ht, ?_⟩
  have a := idxPos_lt hh
  have b := idxPos_lt ht
  have c := idxPos_lt hi
  unfold idxDist at *
  rw [dist_pos a b] at *
  rw [dist_pos a c] at *
  rw [dist_pos c b]
  generalize 2 ^ l = n at *
  by_cases x : idxPos n h ≤ idxPos n t <;> by_cases y : idxPos n h ≤ idxPos n i <;> by_cases z : idxPos n i ≤ idxPos n t <;>
    simp only [x, y, z, if_true, if_false] at far hd ⊢ <;> omega

/-- An SQ's head passes an entry. -/
theorem SqOk.pass {q : Sq} (h : SqOk q) : SqOk q.pass := by
  unfold Sq.pass
  split
  · exact h
  · rename_i e
    have ne : 0 < q.arrivals.length := by
      cases ha : q.arrivals with
      | nil => simp [ha] at e
      | cons => simp
    have p := RingOk.pass h.1 (by omega)
    exact ⟨p.1, by rw [List.length_drop]; exact (congrArg (· - 1) h.2).trans p.2.symm⟩
end Sys2Proof.Machine
end

