-- ==== Sys2Proof/Laws/Tiles.lean ====
section
/-!
SUPPORT. Laws of the cluster memory: every operation keeps the canonical form; a read after a write.
-/
namespace Sys2Proof.Machine
set_option Elab.async false -- the package as one text has more theorems than threads

/-- The canonical form as a pairwise order and no zero byte. -/
theorem wf_iff (m : List Host.Cell) : Memory.wf m = true ↔ (∀ c ∈ m, c.2 ≠ 0) ∧ m.Pairwise (fun a b => a.1 < b.1) := by
  induction m with
  | nil => simp [Memory.wf]
  | cons c r ih =>
    cases r with
    | nil => simp [Memory.wf]
    | cons d t =>
      have e : Memory.wf (c :: d :: t) = true ↔ (c.2 ≠ 0 ∧ c.1 < d.1) ∧ Memory.wf (d :: t) = true := by
        simp [Memory.wf, and_assoc]
      rw [e, ih, List.pairwise_cons (a := c)]
      constructor
      · rintro ⟨⟨h1, h2⟩, h3, h4⟩
        refine ⟨fun x hx => ?_, fun x hx => ?_, h4⟩
        · rcases List.mem_cons.1 hx with rfl | hx
          · exact h1
          · exact h3 x hx
        · rcases List.mem_cons.1 hx with rfl | hx
          · exact h2
          · exact Nat.lt_trans h2 ((List.pairwise_cons.1 h4).1 x hx)
      · rintro ⟨h1, h2, h4⟩
        exact ⟨⟨h1 c (List.mem_cons_self ..), h2 d (List.mem_cons_self ..)⟩, fun x hx => h1 x (List.mem_cons_of_mem _ hx), h4⟩

/-- The empty memory is canonical. -/
@[simp] theorem wf_nil : Memory.wf [] = true := rfl

/-- Dropping cells keeps the form. -/
theorem wf_filter {m : List Host.Cell} (p : Host.Cell → Bool) (h : Memory.wf m = true) : Memory.wf (m.filter p) = true := by
  rw [wf_iff] at h ⊢
  exact ⟨fun c hc => h.1 c (List.mem_filter.1 hc).1, h.2.sublist List.filter_sublist⟩

/-- A cell of the memory after a byte write is a cell of the memory before it or the byte written. -/
theorem mem_cellWrite {m : List Host.Cell} {a : Nat} {b : Byte} {c : Host.Cell} (h : c ∈ cellWrite m a b) : c ∈ m ∨ (c = (a, b) ∧ b ≠ 0) := by
  induction m with
  | nil =>
    simp only [cellWrite] at h
    split at h
    · simp at h
    · rename_i hb
      exact .inr ⟨by simpa using h, hb⟩
  | cons d r ih =>
    simp only [cellWrite] at h
    split at h
    · split at h
      · exact .inl h
      · rename_i hb
        rcases List.mem_cons.1 h with rfl | h
        · exact .inr ⟨rfl, hb⟩
        · exact .inl h
    · split at h
      · split at h
        · exact .inl (List.mem_cons_of_mem _ h)
        · rename_i hb
          rcases List.mem_cons.1 h with rfl | h
          · exact .inr ⟨rfl, hb⟩
          · exact .inl (List.mem_cons_of_mem _ h)
      · rcases List.mem_cons.1 h with rfl | h
        · exact .inl (List.mem_cons_self ..)
        · exact (ih h).imp (List.mem_cons_of_mem _) id

/-- A byte write keeps the form. -/
theorem wf_cellWrite {m : List Host.Cell} (a : Nat) (b : Byte) (h : Memory.wf m = true) : Memory.wf (cellWrite m a b) = true := by
  rw [wf_iff] at h ⊢
  refine ⟨fun c hc => ?_, ?_⟩
  · rcases mem_cellWrite hc with hc | ⟨rfl, hb⟩
    · exact h.1 c hc
    · exact hb
  · obtain ⟨-, h⟩ := h
    induction m with
    | nil => simp only [cellWrite]; split <;> simp
    | cons d r ih =>
      obtain ⟨hd, hr⟩ := List.pairwise_cons.1 h
      simp only [cellWrite]
      split
      · rename_i lt
        split
        · exact h
        · refine List.pairwise_cons.2 ⟨fun x hx => ?_, h⟩
          rcases List.mem_cons.1 hx with rfl | hx
          · exact lt
          · exact Nat.lt_trans lt (hd x hx)
      · split
        · rename_i ge eq
          split
          · exact hr
          · exact List.pairwise_cons.2 ⟨fun x hx => eq ▸ hd x hx, hr⟩
        · rename_i ge ne
          refine List.pairwise_cons.2 ⟨fun x hx => ?_, ih hr⟩
          rcases mem_cellWrite hx with hx | ⟨rfl, -⟩
          · exact hd x hx
          · show d.1 < a
            omega

/-- A write of a byte string keeps the form. -/
theorem wf_cellsWrite (bs : Bytes) {m : List Host.Cell} (a : Nat) (h : Memory.wf m = true) : Memory.wf (cellsWrite m a bs) = true := by
  induction bs generalizing m a with
  | nil => exact h
  | cons b r ih => exact ih (a + 1) (wf_cellWrite a b h)

/-- A tile fails exactly where the check word that it carries is not that of its bytes (R397). -/
theorem tileFails_iff (cl : Cluster) (t : Nat) : tileFails cl t = true ↔ tileCheck cl t ≠ checkWord cl.tiles t := by
  have h : checkWord cl.tiles t ^^^ syndrome cl t = checkWord cl.tiles t ↔ syndrome cl t = 0 := by
    rw [show (checkWord cl.tiles t ^^^ syndrome cl t = checkWord cl.tiles t) ↔ (checkWord cl.tiles t ^^^ syndrome cl t = checkWord cl.tiles t ^^^ 0) from by simp]
    exact BitVec.xor_right_inj _
  simp [tileFails, tileCheck, h]

end Sys2Proof.Machine
end

