-- ==== Sys2Proof/Laws/TokenKeys.lean ====
section
/-!
SUPPORT. What leaves a token's stateful keys alone: erases, block moves, journal pages, records.
-/
namespace Sys2Proof.Machine
set_option Elab.async false -- the package as one text has more theorems than threads

@[simp] theorem stateful_eraseBlock (l : Nat) (t : Token) : (eraseBlock l t).stateful = t.stateful := by
  unfold eraseBlock
  extract_lets p n u
  repeat' first | rfl | split

@[simp] theorem stateful_eraseBlocks (ls : List Nat) (t : Token) : (eraseBlocks ls t).stateful = t.stateful := by
  unfold eraseBlocks
  induction ls generalizing t with
  | nil => rfl
  | cons l ls ih => simp [List.foldl_cons, ih]

@[simp] theorem stateful_wearMove (t : Token) : (wearMove t).stateful = t.stateful := by
  unfold wearMove
  split
  · rfl
  · split
    · rfl
    · extract_lets l p n
      split <;> rfl

@[simp] theorem stateful_journalPage (t : Token) : (journalPage t).stateful = t.stateful := by
  unfold journalPage
  extract_lets t u
  repeat' first | rfl | split
  all_goals simp [u, t]

theorem stateful_logOpen {t u : Token} (h : logOpen t = some u) : u.stateful = t.stateful := by
  unfold logOpen at h
  repeat' split at h
  all_goals first | cases h | skip
  all_goals rfl

@[simp] theorem stateful_logProgram (k : Bytes) (r : LeafRec) (t : Token) : (logProgram k r t).stateful = t.stateful := by
  unfold logProgram
  split
  · rfl
  · rename_i u h
    exact (stateful_logOpen h :)

@[simp] theorem stateful_compactLog (k : Bytes) (t : Token) : (compactLog k t).stateful = t.stateful := by
  unfold compactLog
  extract_lets old u v gone
  have hu : u.stateful = t.stateful := by
    unfold u
    generalize checkpoints t = l
    have key : ∀ w : Token, (l.foldl (fun u r => logProgram k r u) w).stateful = w.stateful := by
      induction l with
      | nil => intro w; rfl
      | cons r l ih => intro w; simp [List.foldl_cons, ih]
    exact key _
  show v.stateful = t.stateful
  rw [show v.stateful = u.stateful from stateful_eraseBlocks _ u, hu]

@[simp] theorem stateful_logRecord (k : Bytes) (r : LeafRec) (t : Token) : (logRecord k r t).stateful = t.stateful := by
  unfold logRecord
  extract_lets u
  split
  · exact stateful_logProgram ..
  · rw [stateful_compactLog]
    exact stateful_logProgram ..

@[simp] theorem stateful_appendRecord (i : Nat) (b : Bytes) (t : Token) : (appendRecord i b t).stateful = t.stateful := by
  unfold appendRecord
  repeat' first | rfl | split
  all_goals simp

@[simp] theorem stateful_takeClaim (g : Bytes) (t : Token) : (takeClaim g t).stateful = t.stateful := by
  unfold takeClaim
  split <;> simp

@[simp] theorem stateful_enrol (c k : Bytes) (j : Nat) (t : Token) : (enrol c k j t).stateful = t.stateful := by
  unfold enrol
  simp

@[simp] theorem stateful_rewrap (c k : Bytes) (t : Token) : (rewrap c k t).stateful = t.stateful := by
  unfold rewrap
  repeat' first | rfl | split
  all_goals simp

/-- Records under another content key leave no key: every key read is one the token had. -/
theorem stateful_readSealed (k : Bytes) (t : Token) : (readSealed k t).stateful = t.stateful ∨ (readSealed k t).stateful = [] := by
  unfold readSealed
  split
  · exact .inl rfl
  · exact .inr rfl

@[simp] theorem stateful_deskWrite (w : DeskWrite) (t : Token) : (deskWrite w t).stateful = t.stateful := by
  have h := fun r => stateful_eraseBlocks (blocksOf r) t
  unfold deskWrite
  extract_lets r u n
  have hu : u.stateful = t.stateful := h r
  clear_value u n
  repeat' split
  all_goals exact hu
end Sys2Proof.Machine
end

