-- ==== Sys2Proof/Laws/Keeps.lean ====
section
/-!
SUPPORT. What every command keeps: the part, the queue, clusters in order, burned fuses; the rules by which it is shown.
-/
namespace Sys2Proof.Machine
set_option Elab.async false -- the package as one text has more theorems than threads

/-- The events of a command after which an order starts anew: the module is reset, an instance is restored, a token is put into the socket, an AUM
is applied. -/
structure Breaks where
  reset : Prop
  restore : Prop
  token : Prop
  aum : Prop

/-- What every command keeps, whatever it does: the part, the queue of waiting commands, clusters in order, burned fuses, FREE slots without material;
and, but for the events that start an order anew, the rings, the generations, the leaves. -/
structure Keeps (K : Breaks) (b t : State) : Prop where
  part : t.part = b.part
  pending : t.pending = b.pending
  tiles : TilesOk b → TilesOk t
  fuses : FusesHold b.sc t.sc
  slots : SlotsOk b → SlotsOk t
  gens : ¬K.reset → ¬K.restore → GenHold b.slots t.slots
  rings : ¬K.restore → RingsOk b → RingsOk t
  leaves : ¬K.token → LeavesOk b → LeavesOk t
  nexts : ¬K.token → ¬K.aum → NextsHold b.tok.socket t.tok.socket

/-! ### Fuses -/

theorem FusesHold.refl (a : Sc) : FusesHold a a := ⟨fun _ h => h, fun _ h => h, id, id, id, Nat.le_refl _⟩
theorem FusesHold.trans {a b c : Sc} (h : FusesHold a b) (k : FusesHold b c) : FusesHold a c :=
  ⟨fun n x => k.lc n (h.lc n x), fun n x => k.ends n (h.ends n x), k.lock ∘ h.lock, k.drs ∘ h.drs, k.root ∘ h.root, Nat.le_trans h.floor k.floor⟩
theorem FusesHold.same {a b : Sc} (h1 : a.lcFuses = b.lcFuses) (h2 : a.endFuses = b.endFuses) (h3 : a.debugLock = b.debugLock)
  (h4 : a.drsBlown = b.drsBlown) (h5 : a.rootBlown = b.rootBlown) (h6 : a.floor = b.floor) : FusesHold a b :=
  ⟨fun _ h => h1 ▸ h, fun _ h => h2 ▸ h, fun h => h3 ▸ h, fun h => h4 ▸ h, fun h => h5 ▸ h, h6 ▸ Nat.le_refl _⟩

/-! ### Slots and stateful keys -/

theorem GenHold.refl (a : List Slot) : GenHold a a := fun _ x h => ⟨x, h, Nat.le_refl _⟩
theorem GenHold.trans {a b c : List Slot} (h : GenHold a b) (k : GenHold b c) : GenHold a c := fun i x hx => by
  obtain ⟨y, hy, hxy⟩ := h i x hx
  obtain ⟨z, hz, hyz⟩ := k i y hy
  exact ⟨z, hz, Nat.le_trans hxy hyz⟩
theorem LaterKey.refl (k : StatefulKey) : LaterKey k k := ⟨rfl, rfl, rfl, rfl, Nat.le_refl _, Nat.le_refl _⟩
theorem LaterKey.trans {k l m : StatefulKey} (h : LaterKey k l) (j : LaterKey l m) : LaterKey k m :=
  ⟨h.1.trans j.1, h.2.1.trans j.2.1, h.2.2.1.trans j.2.2.1, h.2.2.2.1.trans j.2.2.2.1, Nat.le_trans h.2.2.2.2.1 j.2.2.2.2.1, Nat.le_trans h.2.2.2.2.2 j.2.2.2.2.2⟩
theorem NextsHold.refl (a : Option Token) : NextsHold a a := fun u h => ⟨u, h, fun l hl => ⟨l, hl, .refl l⟩⟩
theorem NextsHold.trans {a b c : Option Token} (h : NextsHold a b) (k : NextsHold b c) : NextsHold a c := fun u hu => by
  obtain ⟨t, ht, ht'⟩ := k u hu
  obtain ⟨r, hr, hr'⟩ := h t ht
  refine ⟨r, hr, fun m hm => ?_⟩
  obtain ⟨l, hl, hlm⟩ := ht' m hm
  obtain ⟨j, hj, hjl⟩ := hr' l hl
  exact ⟨j, hj, hjl.trans hlm⟩

theorem mem_modFirst {α : Type} {p : α → Bool} {g : α → α} {l : List α} {y : α} (h : y ∈ modFirst p g l) : y ∈ l ∨ ∃ x, l.find? p = some x ∧ y = g x := by
  induction l with
  | nil => cases h
  | cons a r ih =>
    unfold modFirst at h
    by_cases q : p a = true
    · rw [if_pos q] at h
      rcases List.mem_cons.1 h with e | m
      · exact .inr ⟨a, by simp [q], e⟩
      · exact .inl (List.mem_cons_of_mem _ m)
    · rw [if_neg q] at h
      rcases List.mem_cons.1 h with e | m
      · exact .inl (e ▸ List.mem_cons_self)
      · rcases ih m with m | ⟨x, hx, e⟩
        · exact .inl (List.mem_cons_of_mem _ m)
        · exact .inr ⟨x, by simp [q, hx], e⟩
theorem all_modFirst {α : Type} {P : α → Prop} {p : α → Bool} {g : α → α} {l : List α} (hg : ∀ x, P x → P (g x)) (h : ∀ x ∈ l, P x) : ∀ x ∈ modFirst p g l, P x := by
  intro y hy
  rcases mem_modFirst hy with m | ⟨x, hx, rfl⟩
  · exact h y m
  · exact hg x (h x (List.mem_of_find?_eq_some hx))
theorem all_map {α : Type} {P : α → Prop} {g : α → α} {l : List α} (hg : ∀ x, P x → P (g x)) (h : ∀ x ∈ l, P x) : ∀ x ∈ l.map g, P x := by
  intro y hy
  obtain ⟨x, hx, rfl⟩ := List.mem_map.1 hy
  exact hg x (h x hx)
theorem all_filter {α : Type} {P : α → Prop} {p : α → Bool} {l : List α} (h : ∀ x ∈ l, P x) : ∀ x ∈ l.filter p, P x := fun x hx => h x (List.mem_filter.1 hx).1
theorem all_append {α : Type} {P : α → Prop} {l m : List α} (h : ∀ x ∈ l, P x) (k : ∀ x ∈ m, P x) : ∀ x ∈ l ++ m, P x :=
  fun x hx => (List.mem_append.1 hx).elim (h x) (k x)

theorem GenHold.map {a : List Slot} {g : Slot → Slot} (hg : ∀ x, (g x).idx = x.idx ∧ x.gen ≤ (g x).gen) : GenHold a (a.map g) := by
  intro i x hx
  refine ⟨g x, ?_, (hg x).2⟩
  rw [List.find?_map, show ((fun x : Slot => x.idx == i) ∘ g) = (fun x => x.idx == i) from funext fun x => by simp [(hg x).1], hx]
  rfl
theorem GenHold.modFirst {a : List Slot} {j : Nat} {g : Slot → Slot} (hg : ∀ x, (g x).idx = x.idx ∧ x.gen ≤ (g x).gen) :
    GenHold a (Machine.modFirst (fun x => x.idx == j) g a) := by
  intro i x
  induction a with
  | nil => exact fun h => nomatch h
  | cons y r ih =>
    intro h
    unfold Machine.modFirst
    rw [List.find?_cons] at h
    by_cases q : (y.idx == j) = true
    · rw [if_pos q, List.find?_cons, (hg y).1]
      by_cases e : (y.idx == i) = true
      · simp only [e] at h ⊢; cases h; exact ⟨_, rfl, (hg _).2⟩
      · simp only [Bool.not_eq_true] at e; simp only [e] at h ⊢; exact ⟨x, h, Nat.le_refl _⟩
    · rw [if_neg q, List.find?_cons]
      by_cases e : (y.idx == i) = true
      · simp only [e] at h ⊢; cases h; exact ⟨_, rfl, Nat.le_refl _⟩
      · simp only [Bool.not_eq_true] at e; simp only [e] at h ⊢; exact ih h
theorem GenHold.append {a c : List Slot} : GenHold a (a ++ c) := fun i x hx => ⟨x, by rw [List.find?_append, hx]; rfl, Nat.le_refl _⟩

theorem NextsHold.of {a b : Option Token} (f : Token → Token) (hb : b = a.map f) (hf : ∀ t, a = some t → ∀ l ∈ (f t).stateful, ∃ k ∈ t.stateful, LaterKey k l) : NextsHold a b := by
  subst hb
  intro u hu
  obtain ⟨t, ht, rfl⟩ := Option.map_eq_some_iff.1 hu
  exact ⟨t, ht, hf t ht⟩

/-! ### Keeps: order, branches, loops, local values -/

theorem Keeps.refl {K : Breaks} (s : State) : Keeps K s s :=
  ⟨rfl, rfl, id, .refl _, id, fun _ _ => .refl _, fun _ => id, fun _ => id, fun _ _ => .refl _⟩
theorem Keeps.trans {K : Breaks} {a b c : State} (h : Keeps K a b) (k : Keeps K b c) : Keeps K a c :=
  ⟨k.part.trans h.part, k.pending.trans h.pending, k.tiles ∘ h.tiles, h.fuses.trans k.fuses, k.slots ∘ h.slots,
    fun r p => (h.gens r p).trans (k.gens r p), fun r => k.rings r ∘ h.rings r, fun r => k.leaves r ∘ h.leaves r, fun r p => (h.nexts r p).trans (k.nexts r p)⟩

/-- A state that differs from one that keeps in nothing that `Keeps` speaks of but what is shown. -/
theorem Keeps.to {K : Breaks} {b s t : State} (h : Keeps K b s) (p : t.part = s.part := by rfl) (q : t.pending = s.pending := by rfl)
    (v : VccOk s.vcc → VccOk t.vcc := by exact id) (f : FusesHold s.sc t.sc := by exact .refl _) (x : SlotsOk s → SlotsOk t := by exact id)
    (g : GenHold s.slots t.slots := by exact .refl _) (r : RingsOk s → RingsOk t := by exact id) (l : LeavesOk s → LeavesOk t := by exact id)
    (n : NextsHold s.tok.socket t.tok.socket := by exact .refl _) : Keeps K b t :=
  h.trans ⟨p, q, v, f, x, fun _ _ => g, fun _ => r, fun _ => l, fun _ _ => n⟩

theorem keeps_ite {K : Breaks} {b x y : State} {c : Prop} [Decidable c] (h : Keeps K b x) (k : Keeps K b y) : Keeps K b (if c then x else y) := by
  split
  · exact h
  · exact k

theorem keeps_foldl {α : Type} {K : Breaks} {b s : State} {f : State → α → State} {l : List α} (hf : ∀ t x, Keeps K b t → Keeps K b (f t x)) (h : Keeps K b s) :
    Keeps K b (l.foldl f s) := by
  induction l generalizing s with
  | nil => exact h
  | cons x l ih => exact ih (hf s x h)

theorem keeps_cut {K : Breaks} {b v : State} {P : Prop} (h : Keeps K b v) (k : Keeps K b v → P) : P := k h
theorem keeps_fcut {K : Breaks} {b : State} {v : State → State} {P : Prop} (h : ∀ s, Keeps K b s → Keeps K b (v s)) (k : (∀ s, Keeps K b s → Keeps K b (v s)) → P) : P := k h
theorem keeps_fcut2 {α : Type} {K : Breaks} {b : State} {v : α → State → State} {P : Prop} (h : ∀ a s, Keeps K b s → Keeps K b (v a s)) (k : (∀ a s, Keeps K b s → Keeps K b (v a s)) → P) : P := k h
theorem keeps_pcut {α : Type} {K : Breaks} {b : State} {v : α × State} {P : Prop} (h : Keeps K b v.2) (k : Keeps K b v.2 → P) : P := k h
theorem keeps_pair {α : Type} {K : Breaks} {b t : State} {x : α} (h : Keeps K b t) : Keeps K b (x, t).2 := h
theorem keeps_snd {α : Type} {K : Breaks} {b t : State} {x : α} {p : α × State} (e : p = (x, t)) (h : Keeps K b p.2) : Keeps K b t := by subst e; exact h

/-- A marker that lets a proof tell an update of fields from a state as it stands. -/
def Changed (_ _ : State) : Prop := True
theorem Changed.all {a b : State} : Changed a b := trivial
theorem Changed.none {t : State} : Changed t (State.mk t.part t.clk t.pwr t.boot t.eph t.mer t.link t.fns t.slices t.mgr t.sqs t.cqs t.jobs t.nextJob t.waits t.slots t.ctxs t.mem t.units t.chans t.mon t.vcc t.mae t.sc t.tok t.lcs t.dbg t.tam t.flt t.alm t.doe t.out t.free t.pending) := trivial
/-- A restore puts queues and slots in with the indices and generations that they were saved with. -/
theorem Keeps.anew {K : Breaks} {b s t : State} (hR : K.restore) (h : Keeps K b s) (p : t.part = s.part := by rfl) (q : t.pending = s.pending := by rfl)
    (v : t.vcc = s.vcc := by rfl) (f : FusesHold s.sc t.sc := by exact .refl _) (x : SlotsOk s → SlotsOk t := by exact id) (n : t.tok.socket = s.tok.socket := by rfl) : Keeps K b t :=
  ⟨p.trans h.part, q.trans h.pending, fun hb => by unfold TilesOk; rw [v]; exact h.tiles hb, h.fuses.trans f, x ∘ h.slots, fun _ r => absurd hR r, fun r => absurd hR r,
    fun r hb => by unfold LeavesOk; rw [n]; exact h.leaves r hb, fun r k => by rw [n]; exact h.nexts r k⟩

/-! ### Keeps: the queues' rings -/

/-- The SQs change, each keeping its ring. -/
theorem keeps_sqs {K : Breaks} {b t : State} (l : List Sq) (h : Keeps K b t) (hl : (∀ q ∈ t.sqs, SqOk q) → ∀ q ∈ l, SqOk q) : Keeps K b { t with sqs := l } :=
  h.to (r := fun r => ⟨hl r.1, r.2⟩)
/-- The CQs change, each keeping its ring. -/
theorem keeps_cqs {K : Breaks} {b t : State} (l : List Cq) (h : Keeps K b t) (hl : (∀ q ∈ t.cqs, CqOk q) → ∀ q ∈ l, CqOk q) : Keeps K b { t with cqs := l } :=
  h.to (r := fun r => ⟨r.1, hl r.2⟩)
theorem cqOk_of {s : State} {f : Fn} {q : Nat} {c : Cq} (e : s.cq? f q = some c) (h : ∀ q ∈ s.cqs, CqOk q) : CqOk c := h c (List.mem_of_find?_eq_some e)
theorem sqOk_of {s : State} {f : Fn} {q : Nat} {c : Sq} (e : s.sq? f q = some c) (h : ∀ q ∈ s.sqs, SqOk q) : SqOk c := h c (List.mem_of_find?_eq_some e)
/-- A CQ changes, shown of the one that is found. -/
theorem keeps_onCq_of {K : Breaks} {b s : State} (f : Fn) (q : Nat) (g : Cq → Cq) (h : Keeps K b s) (hg : ∀ c, s.cq? f q = some c → CqOk c → CqOk (g c)) :
    Keeps K b (s.onCq f q g) :=
  keeps_cqs _ h fun r y hy => by
    rcases mem_modFirst hy with m | ⟨x, hx, rfl⟩
    · exact r y m
    · exact hg x hx (r x (List.mem_of_find?_eq_some hx))
/-- An SQ changes, shown of the one that is found. -/
theorem keeps_onSq_of {K : Breaks} {b s : State} (f : Fn) (q : Nat) (g : Sq → Sq) (h : Keeps K b s) (hg : ∀ c, s.sq? f q = some c → SqOk c → SqOk (g c)) :
    Keeps K b (s.onSq f q g) :=
  keeps_sqs _ h fun r y hy => by
    rcases mem_modFirst hy with m | ⟨x, hx, rfl⟩
    · exact r y m
    · exact hg x hx (r x (List.mem_of_find?_eq_some hx))

theorem cq_returnCredit (c : Cq) (h : CqOk c) : CqOk (returnCredit c) := by unfold returnCredit; split <;> exact h

/-! ### Keeps: slots -/

theorem slot_free (x : Slot) (_ : SlotOk x) : SlotOk (freeSlot x) := fun _ => rfl
theorem gen_free (x : Slot) : (freeSlot x).idx = x.idx ∧ x.gen ≤ (freeSlot x).gen := ⟨rfl, Nat.le_refl _⟩
theorem le_genUp (g : Nat) : g ≤ genUp g := by unfold genUp; split <;> omega
theorem slot_unpin (g : Nat) (x : Slot) (h : SlotOk x) : SlotOk (unpinSlot g x) := by unfold unpinSlot; split <;> exact h
theorem gen_unpin (g : Nat) (x : Slot) : (unpinSlot g x).idx = x.idx ∧ x.gen ≤ (unpinSlot g x).gen := by unfold unpinSlot; split <;> exact ⟨rfl, Nat.le_refl _⟩

theorem slot_lost (x : Slot) (_ : SlotOk x) : SlotOk (lostSlot x) := fun _ => rfl
theorem gen_lost (x : Slot) : (lostSlot x).idx = x.idx ∧ x.gen ≤ (lostSlot x).gen := ⟨rfl, le_genUp _⟩

/-! ### Keeps: an update of other fields of State -/

theorem keeps_mk {K : Breaks} {b t : State} {x_clk x_pwr x_boot x_eph x_mer x_link x_fns x_slices x_mgr x_sqs x_cqs x_jobs x_nextJob x_waits x_slots x_ctxs x_mem x_units x_chans x_mon x_mae x_tok x_lcs x_dbg x_tam x_flt x_alm x_doe x_out x_free x_sc} (h : Keeps K b t) (k1 : t.sc.lcFuses = x_sc.lcFuses := by rfl) (k2 : t.sc.endFuses = x_sc.endFuses := by rfl) (k3 : t.sc.debugLock = x_sc.debugLock := by rfl) (k4 : t.sc.drsBlown = x_sc.drsBlown := by rfl) (k5 : t.sc.rootBlown = x_sc.rootBlown := by rfl) (k6 : t.sc.floor = x_sc.floor := by rfl)
    (k7 : x_slots = t.slots := by rfl) (k8 : x_sqs = t.sqs := by rfl) (k9 : x_cqs = t.cqs := by rfl) (k10 : x_tok.socket = t.tok.socket := by with_unfolding_all rfl)
    (_ : Changed t (State.mk t.part x_clk x_pwr x_boot x_eph x_mer x_link x_fns x_slices x_mgr x_sqs x_cqs x_jobs x_nextJob x_waits x_slots x_ctxs x_mem x_units x_chans x_mon t.vcc x_mae x_sc x_tok x_lcs x_dbg x_tam x_flt x_alm x_doe x_out x_free t.pending) := by first | (fail_if_success exact Changed.none); exact Changed.all) : Keeps K b (State.mk t.part x_clk x_pwr x_boot x_eph x_mer x_link x_fns x_slices x_mgr x_sqs x_cqs x_jobs x_nextJob x_waits x_slots x_ctxs x_mem x_units x_chans x_mon t.vcc x_mae x_sc x_tok x_lcs x_dbg x_tam x_flt x_alm x_doe x_out x_free t.pending) := by
  subst k7 k8 k9
  exact h.to rfl rfl id (.same k1 k2 k3 k4 k5 k6) id (.refl _) id (by unfold LeavesOk; rw [k10]; exact id) (by rw [k10]; exact .refl _)

/-- An admin result whose state keeps what it must. -/
def KeepsRes (K : Breaks) (b : State) : AdminRes → Prop
  | .ok _ _ s => Keeps K b s
  | .fail _ _ _ => True
  | .wait _ s => Keeps K b s
/-- An outcome that is a next state and keeps what it must. -/
def KeepsOut (K : Breaks) (b : State) : Host.Outcome State Fault Refusal → Prop
  | .next t => Keeps K b t
  | _ => False
/-- Every result of a list of checks keeps what it must. -/
def AllRes (K : Breaks) (b : State) (l : List (Bool × AdminRes)) : Prop := ∀ p ∈ l, KeepsRes K b p.2
theorem AllRes.nil {K : Breaks} {b : State} : AllRes K b [] := by intro p h; cases h
theorem AllRes.cons {K : Breaks} {b : State} {x r l} (h : KeepsRes K b r) (k : AllRes K b l) : AllRes K b ((x, r) :: l) := by
  intro p hp; cases hp with
  | head => exact h
  | tail _ hp => exact k p hp
/-! ### Clusters -/

theorem VccOk.map {l : List Cluster} {f : Cluster → Cluster} (hf : ∀ c, Memory.wf c.tiles = true → Memory.wf (f c).tiles = true) (h : VccOk l) : VccOk (l.map f) := by
  refine ⟨by simp [h.1], ?_⟩
  intro c hc
  obtain ⟨d, hd, rfl⟩ := List.mem_map.1 hc
  exact hf d (h.2 d hd)
theorem VccOk.modAt {l : List Cluster} {f : Cluster → Cluster} (i : Nat) (hf : ∀ c, Memory.wf c.tiles = true → Memory.wf (f c).tiles = true) (h : VccOk l) :
    VccOk (Machine.modAt l i f) := by
  have key : ∀ (l : List Cluster) (i : Nat), (Machine.modAt l i f).length = l.length ∧
      ((∀ c ∈ l, Memory.wf c.tiles = true) → ∀ c ∈ Machine.modAt l i f, Memory.wf c.tiles = true) := by
    intro l
    induction l with
    | nil => intro i; exact ⟨by simp [Machine.modAt], fun h => by simpa [Machine.modAt] using h⟩
    | cons a r ih =>
      intro i
      cases i with
      | zero =>
        refine ⟨by simp [Machine.modAt], fun h => ?_⟩
        simp only [Machine.modAt, List.forall_mem_cons] at h ⊢
        exact ⟨hf a h.1, h.2⟩
      | succ n =>
        refine ⟨by simp [Machine.modAt, (ih n).1], fun h => ?_⟩
        simp only [Machine.modAt, List.forall_mem_cons] at h ⊢
        exact ⟨h.1, (ih n).2 h.2⟩
  exact ⟨by rw [(key l i).1]; exact h.1, (key l i).2 h.2⟩
theorem KeepsRes.ok {K : Breaks} {b s : State} {n i} (h : Keeps K b s) : KeepsRes K b (.ok n i s) := h
theorem KeepsRes.fail {K : Breaks} {b : State} {x y z} : KeepsRes K b (.fail x y z) := trivial
theorem KeepsRes.wait {K : Breaks} {b s : State} {w} (h : Keeps K b s) : KeepsRes K b (.wait w s) := h
theorem KeepsOut.next {K : Breaks} {b s : State} (h : Keeps K b s) : KeepsOut K b (.next s) := h
end Sys2Proof.Machine
end

