-- ==== Sys2Proof/Laws/KeepTiles.lean ====
section
/-!
SUPPORT. Every operation on a cluster keeps its tiles canonical.
-/
namespace Sys2Proof.Machine
set_option Elab.async false -- the package as one text has more theorems than threads

theorem wf_foldl {α : Type} {f : List Host.Cell → α → List Host.Cell} {l : List α} {m : List Host.Cell} (hf : ∀ m x, Memory.wf m = true → Memory.wf (f m x) = true) (h : Memory.wf m = true) : Memory.wf (l.foldl f m) = true := by
  induction l generalizing m with
  | nil => exact h
  | cons x l ih => exact ih (hf m x h)
theorem wf_foldlc {α : Type} {f : Cluster → α → Cluster} {l : List α} {m : Cluster} (hf : ∀ m x, Memory.wf m.tiles = true → Memory.wf (f m x).tiles = true) (h : Memory.wf m.tiles = true) : Memory.wf (l.foldl f m).tiles = true := by
  induction l generalizing m with
  | nil => exact h
  | cons x l ih => exact ih (hf m x h)

theorem wf_regs {a0 a1 a2} (h0 : Memory.wf (a0).cl.tiles = true) :
    Memory.wf (VccIn.regs a0 a1 a2).cl.tiles = true := by
  unfold VccIn.regs
  repeat' with_reducible first | assumption

theorem wf_groupOp {a0 a1 a2 a3} (h3 : Memory.wf (a3).cl.tiles = true) :
    Memory.wf (groupOp a0 a1 a2 a3).cl.tiles = true := by
  unfold groupOp
  repeat' with_reducible first | assumption | apply wf_regs | dsimp only | split
  all_goals exact h3

theorem wf_shaddOp {a0 a1} (h1 : Memory.wf (a1).cl.tiles = true) :
    Memory.wf (shaddOp a0 a1).cl.tiles = true := by
  unfold shaddOp
  repeat' with_reducible first | assumption | apply wf_groupOp

theorem wf_stop {a0 a1} (h0 : Memory.wf (a0).cl.tiles = true) :
    Memory.wf (VccIn.stop a0 a1).cl.tiles = true := by
  unfold VccIn.stop
  repeat' with_reducible first | assumption

theorem wf_storeAt {a0 a1 a2 a3} (h3 : Memory.wf (a3).tiles = true) :
    Memory.wf (storeAt a0 a1 a2 a3).tiles = true := by
  unfold storeAt
  repeat' with_reducible first | assumption | apply wf_cellsWrite

theorem wf_storeView {a0 a1 a2 a3 a4} (h4 : Memory.wf (a4).tiles = true) :
    Memory.wf (storeView a0 a1 a2 a3 a4).tiles = true := by
  unfold storeView
  repeat' with_reducible first | assumption | apply wf_storeAt | split

theorem wf_shortMem {a0 a1 a2} (h2 : Memory.wf (a2).cl.tiles = true) :
    Memory.wf (shortMem a0 a1 a2).cl.tiles = true := by
  unfold shortMem
  repeat' with_reducible first | assumption | apply wf_stop | apply wf_regs | apply wf_storeView | dsimp only | split

theorem wf_writeG {a0 a1 a2 a3 a4} (h0 : Memory.wf (a0).cl.tiles = true) :
    Memory.wf (writeG a0 a1 a2 a3 a4).cl.tiles = true := by
  unfold writeG
  repeat' with_reducible first | assumption | apply wf_stop | apply wf_regs | split

theorem wf_luiOp {a0 a1 a2} (h2 : Memory.wf (a2).cl.tiles = true) :
    Memory.wf (luiOp a0 a1 a2).cl.tiles = true := by
  unfold luiOp
  repeat' with_reducible first | assumption | apply wf_writeG

theorem wf_shortOp {a0 a1 a2} (h2 : Memory.wf (a2).cl.tiles = true) :
    Memory.wf (shortOp a0 a1 a2).cl.tiles = true := by
  unfold shortOp
  repeat' with_reducible first | assumption | apply wf_regs | dsimp only | split

theorem wf_hGuard (a0 : VccIn) (a1 : List Nat) (a2 : Unit → VOut) (h0 : Memory.wf (a0).cl.tiles = true) (h2 : ∀ v0, Memory.wf (a2 v0).cl.tiles = true) :
    Memory.wf (hGuard a0 a1 a2).cl.tiles = true := by
  unfold hGuard
  repeat' with_reducible first | assumption | apply wf_stop | apply h2 | split

theorem wf_hClass (a0 : VccIn) (a1 : List (Nat × Nat)) (a2 : List (Nat × Nat)) (a3 : Unit → VOut) (h0 : Memory.wf (a0).cl.tiles = true) (h3 : ∀ v0, Memory.wf (a3 v0).cl.tiles = true) :
    Memory.wf (hClass a0 a1 a2 a3).cl.tiles = true := by
  unfold hClass
  repeat' with_reducible first | assumption | apply h3 | split

theorem wf_randOp {a0 a1} (h1 : Memory.wf (a1).cl.tiles = true) :
    Memory.wf (randOp a0 a1).cl.tiles = true := by
  unfold randOp
  repeat' with_reducible first | assumption | apply wf_hGuard | apply wf_hClass | apply wf_storeView | intro _

theorem wf_winWaitOp {a0} (h0 : Memory.wf (a0).cl.tiles = true) :
    Memory.wf (winWaitOp a0).cl.tiles = true := by
  unfold winWaitOp
  repeat' with_reducible first | assumption

theorem wf_vectorOp {a0 a1 a2 a3 a4} (h4 : Memory.wf (a4).cl.tiles = true) :
    Memory.wf (vectorOp a0 a1 a2 a3 a4).cl.tiles = true := by
  unfold vectorOp
  repeat' with_reducible first | assumption | apply wf_regs | dsimp only | split

theorem wf_vvOpen {a0 a1 a2} (h2 : Memory.wf (a2).cl.tiles = true) :
    Memory.wf (vvOpen a0 a1 a2).cl.tiles = true := by
  unfold vvOpen
  repeat' with_reducible first | assumption | apply wf_vectorOp

theorem wf_scalarShift {a0 a1 a2} (h2 : Memory.wf (a2).cl.tiles = true) :
    Memory.wf (scalarShift a0 a1 a2).cl.tiles = true := by
  unfold scalarShift
  repeat' with_reducible first | assumption | apply wf_writeG

theorem wf_shandpOp {a0 a1} (h1 : Memory.wf (a1).cl.tiles = true) :
    Memory.wf (shandpOp a0 a1).cl.tiles = true := by
  unfold shandpOp
  repeat' with_reducible first | assumption | apply wf_groupOp

theorem wf_shselOp {a0 a1} (h1 : Memory.wf (a1).cl.tiles = true) :
    Memory.wf (shselOp a0 a1).cl.tiles = true := by
  unfold shselOp
  repeat' with_reducible first | assumption | apply wf_groupOp

theorem wf_memLoop (a0 : VccIn) (a1 : Bool) (a2 : Nat) (a3 : Nat → List Nat) (a4 : Nat → Bool) (a5 : Nat → List Nat → Cluster → Cluster) (a6 : List Nat) (a7 : Cluster)
    (h5 : ∀ v0 v1 v2, Memory.wf v2.tiles = true → Memory.wf (a5 v0 v1 v2).tiles = true) (h7 : Memory.wf a7.tiles = true) :
    Memory.wf (memLoop a0 a1 a2 a3 a4 a5 a6 a7).2.tiles = true := by
  induction a6 generalizing a7 with
  | nil => exact h7
  | cons j r ih =>
    unfold memLoop
    repeat' first
      | with_reducible assumption
      | with_reducible apply ih
      | with_reducible apply h5
      | split
      | dsimp only

theorem wf_memOp (a0 : MemOps) (a1 : Bool) (a2 : Bool) (a3 : Nat) (a4 : Nat → List Nat) (a5 : Nat → List Nat → Cluster → Cluster) (a6 : VccIn) (h5 : ∀ v0 v1 v2, Memory.wf (v2).tiles = true → Memory.wf (a5 v0 v1 v2).tiles = true) (h6 : Memory.wf (a6).cl.tiles = true) :
    Memory.wf (memOp a0 a1 a2 a3 a4 a5 a6).cl.tiles = true := by
  unfold memOp
  repeat' with_reducible first | assumption | apply wf_stop | apply wf_memLoop | dsimp only | split

theorem wf_setElem {a0 a1 a2 a3 a4 a5} (h5 : Memory.wf (a5).tiles = true) :
    Memory.wf (setElem a0 a1 a2 a3 a4 a5).tiles = true := by
  unfold setElem
  repeat' with_reducible first | assumption

theorem wf_maskTagged {a0 a1 a2} (h2 : Memory.wf (a2).cl.tiles = true) :
    Memory.wf (maskTagged a0 a1 a2).cl.tiles = true := by
  unfold maskTagged
  repeat' with_reducible first | assumption | split

theorem wf_vldOp {a0 a1} (h1 : Memory.wf (a1).cl.tiles = true) :
    Memory.wf (vldOp a0 a1).cl.tiles = true := by
  unfold vldOp
  repeat' with_reducible first | assumption | apply wf_maskTagged | apply wf_memOp | apply wf_setElem | intro _

theorem wf_withKec {a0 a1 a2 a3} (h0 : Memory.wf (a0).cl.tiles = true) :
    Memory.wf (withKec a0 a1 a2 a3).cl.tiles = true := h0

theorem wf_kecX4Op {a0 a1} (h1 : Memory.wf (a1).cl.tiles = true) :
    Memory.wf (kecX4Op a0 a1).cl.tiles = true := by
  unfold kecX4Op
  repeat' with_reducible first | assumption | apply wf_hGuard | apply wf_hClass | apply wf_storeView | intro _

theorem wf_shrefOp {a0 a1} (h1 : Memory.wf (a1).cl.tiles = true) :
    Memory.wf (shrefOp a0 a1).cl.tiles = true := by
  unfold shrefOp
  repeat' with_reducible first | assumption | apply wf_groupOp

theorem wf_shcmpzOp {a0 a1} (h1 : Memory.wf (a1).cl.tiles = true) :
    Memory.wf (shcmpzOp a0 a1).cl.tiles = true := by
  unfold shcmpzOp
  repeat' with_reducible first | assumption | apply wf_regs | dsimp only | split
  all_goals exact h1

theorem wf_kecXbOp {a0 a1} (h1 : Memory.wf (a1).cl.tiles = true) :
    Memory.wf (kecXbOp a0 a1).cl.tiles = true := by
  unfold kecXbOp
  repeat' with_reducible first | assumption | apply wf_hGuard | apply wf_hClass | apply wf_withKec | dsimp only | intro _

theorem wf_withMod (a0 : VccIn) (a1 : Nat) (a2 : List Nat) (a3 : ModEntry → VOut) (h0 : Memory.wf (a0).cl.tiles = true) (h3 : ∀ v0, Memory.wf (a3 v0).cl.tiles = true) :
    Memory.wf (withMod a0 a1 a2 a3).cl.tiles = true := by
  unfold withMod
  repeat' with_reducible first | assumption | apply h3 | split

theorem wf_nttOp {a0 a1} (h1 : Memory.wf (a1).cl.tiles = true) :
    Memory.wf (nttOp a0 a1).cl.tiles = true := by
  unfold nttOp
  repeat' with_reducible first | assumption | apply wf_hGuard | apply wf_withMod | apply wf_hClass | apply wf_storeView | intro _

theorem wf_shabOp {a0 a1} (h1 : Memory.wf (a1).cl.tiles = true) :
    Memory.wf (shabOp a0 a1).cl.tiles = true := by
  unfold shabOp
  repeat' with_reducible first | assumption | apply wf_groupOp

theorem wf_vvOp {a0 a1 a2} (h2 : Memory.wf (a2).cl.tiles = true) :
    Memory.wf (vvOp a0 a1 a2).cl.tiles = true := by
  unfold vvOp
  repeat' with_reducible first | assumption | apply wf_vectorOp

theorem wf_wipeSlot {a0 a1} (h1 : Memory.wf (a1).tiles = true) :
    Memory.wf (wipeSlot a0 a1).tiles = true := by
  unfold wipeSlot
  repeat' with_reducible first | assumption | apply wf_filter

theorem wf_shxorpOp {a0 a1} (h1 : Memory.wf (a1).cl.tiles = true) :
    Memory.wf (shxorpOp a0 a1).cl.tiles = true := by
  unfold shxorpOp
  repeat' with_reducible first | assumption | apply wf_groupOp

theorem wf_splitMask {a0 a1 a2} (h2 : Memory.wf (a2).cl.tiles = true) :
    Memory.wf (splitMask a0 a1 a2).cl.tiles = true := h2

theorem wf_shldSplitOp {a0 a1} (h1 : Memory.wf (a1).cl.tiles = true) :
    Memory.wf (shldSplitOp a0 a1).cl.tiles = true := by
  unfold shldSplitOp
  repeat' with_reducible first | assumption | apply wf_splitMask | dsimp only | apply wf_memOp | apply wf_setElem | apply wf_foldlc | intro _

theorem wf_setvlOp {a0 a1 a2 a3} (h3 : Memory.wf (a3).cl.tiles = true) :
    Memory.wf (setvlOp a0 a1 a2 a3).cl.tiles = true := by
  unfold setvlOp
  repeat' with_reducible first | assumption | apply wf_stop | apply wf_regs | dsimp only | split

theorem wf_sha2Op {a0 a1 a2 a3 a4} (h4 : Memory.wf (a4).cl.tiles = true) :
    Memory.wf (sha2Op a0 a1 a2 a3 a4).cl.tiles = true := by
  unfold sha2Op
  repeat' with_reducible first | assumption | apply wf_hGuard | apply wf_hClass | apply wf_storeView | intro _

theorem wf_kecPermOp {a0} (h0 : Memory.wf (a0).cl.tiles = true) :
    Memory.wf (kecPermOp a0).cl.tiles = true := by
  unfold kecPermOp
  repeat' with_reducible first | assumption | apply wf_withKec | dsimp only

theorem wf_shandOp {a0 a1} (h1 : Memory.wf (a1).cl.tiles = true) :
    Memory.wf (shandOp a0 a1).cl.tiles = true := by
  unfold shandOp
  repeat' with_reducible first | assumption | apply wf_groupOp

theorem wf_winFetchOp {a0 a1 a2} (h2 : Memory.wf (a2).cl.tiles = true) :
    Memory.wf (winFetchOp a0 a1 a2).cl.tiles = true := by
  unfold winFetchOp
  repeat' with_reducible first | assumption | apply wf_hGuard | apply wf_stop | intro _ | dsimp only | split

theorem wf_jalOp {a0 a1 a2} (h2 : Memory.wf (a2).cl.tiles = true) :
    Memory.wf (jalOp a0 a1 a2).cl.tiles = true := by
  unfold jalOp
  repeat' with_reducible first | assumption | apply wf_regs

theorem wf_jrOp {a0 a1} (h1 : Memory.wf (a1).cl.tiles = true) :
    Memory.wf (jrOp a0 a1).cl.tiles = true := by
  unfold jrOp
  repeat' with_reducible first | assumption | apply wf_stop | split

theorem wf_modOp {a0 a1 a2 a3 a4} (h4 : Memory.wf (a4).cl.tiles = true) :
    Memory.wf (modOp a0 a1 a2 a3 a4).cl.tiles = true := by
  unfold modOp
  repeat' with_reducible first | assumption | apply wf_withMod | apply wf_regs | intro _ | dsimp only | split

theorem wf_vsOp {a0 a1 a2} (h2 : Memory.wf (a2).cl.tiles = true) :
    Memory.wf (vsOp a0 a1 a2).cl.tiles = true := by
  unfold vsOp
  repeat' with_reducible first | assumption | apply wf_vectorOp

theorem wf_clmulOp {a0 a1} (h1 : Memory.wf (a1).cl.tiles = true) :
    Memory.wf (clmulOp a0 a1).cl.tiles = true := by
  unfold clmulOp
  repeat' with_reducible first | assumption | apply wf_regs | dsimp only | split

theorem wf_xmovOp {a0 a1 a2} (h2 : Memory.wf (a2).cl.tiles = true) :
    Memory.wf (xmovOp a0 a1 a2).cl.tiles = true := by
  unfold xmovOp
  repeat' with_reducible first | assumption | apply wf_hGuard | apply wf_stop | apply wf_hClass | intro _ | dsimp only | split

theorem wf_kecOutOp {a0 a1} (h1 : Memory.wf (a1).cl.tiles = true) :
    Memory.wf (kecOutOp a0 a1).cl.tiles = true := by
  unfold kecOutOp
  repeat' with_reducible first | assumption | apply wf_hGuard | apply wf_hClass | apply wf_storeView | apply wf_foldlc | intro _

theorem wf_sysFaultOp {a0} (h0 : Memory.wf (a0).cl.tiles = true) :
    Memory.wf (sysFaultOp a0).cl.tiles = true := by
  unfold sysFaultOp
  repeat' with_reducible first | assumption

theorem wf_scalarOp {a0 a1 a2} (h2 : Memory.wf (a2).cl.tiles = true) :
    Memory.wf (scalarOp a0 a1 a2).cl.tiles = true := by
  unfold scalarOp
  repeat' with_reducible first | assumption | apply wf_writeG

theorem wf_shxorOp {a0 a1} (h1 : Memory.wf (a1).cl.tiles = true) :
    Memory.wf (shxorOp a0 a1).cl.tiles = true := by
  unfold shxorOp
  repeat' with_reducible first | assumption | apply wf_groupOp

theorem wf_shldSharesOp {a0 a1} (h1 : Memory.wf (a1).cl.tiles = true) :
    Memory.wf (shldSharesOp a0 a1).cl.tiles = true := by
  unfold shldSharesOp
  repeat' with_reducible first | assumption | apply wf_memOp | apply wf_setElem | apply wf_foldlc | intro _

theorem wf_csrrOp {a0 a1 a2} (h2 : Memory.wf (a2).cl.tiles = true) :
    Memory.wf (csrrOp a0 a1 a2).cl.tiles = true := by
  unfold csrrOp
  repeat' with_reducible first | assumption | apply wf_writeG

theorem wf_leaveCluster {a0 a1} (h1 : Memory.wf (a1).tiles = true) :
    Memory.wf (leaveCluster a0 a1).tiles = true := by
  unfold leaveCluster
  repeat' with_reducible first | assumption | apply wf_wipeSlot | dsimp only | split

theorem wf_verdictOp {a0 a1 a2} (h2 : Memory.wf (a2).cl.tiles = true) :
    Memory.wf (verdictOp a0 a1 a2).cl.tiles = true := by
  unfold verdictOp
  repeat' with_reducible first | assumption | apply wf_hGuard | apply wf_hClass | intro _

theorem wf_vcmpOp {a0 a1 a2} (h2 : Memory.wf (a2).cl.tiles = true) :
    Memory.wf (vcmpOp a0 a1 a2).cl.tiles = true := by
  unfold vcmpOp
  repeat' with_reducible first | assumption | apply wf_regs | dsimp only | split

theorem wf_permOp {a0 a1 a2 a3} (h3 : Memory.wf (a3).cl.tiles = true) :
    Memory.wf (permOp a0 a1 a2 a3).cl.tiles = true := by
  unfold permOp
  repeat' with_reducible first | assumption | apply wf_vectorOp

theorem wf_untagOp {a0 a1 a2} (h2 : Memory.wf (a2).cl.tiles = true) :
    Memory.wf (untagOp a0 a1 a2).cl.tiles = true := by
  unfold untagOp
  repeat' with_reducible first | assumption | apply wf_regs

theorem wf_landFetch {a0 a1 a2} (h2 : Memory.wf (a2).tiles = true) :
    Memory.wf (landFetch a0 a1 a2).tiles = true := by
  unfold landFetch
  repeat' with_reducible first | assumption | apply wf_cellsWrite

theorem wf_landAll {a0 a1} (h1 : Memory.wf (a1).tiles = true) :
    Memory.wf (landAll a0 a1).tiles = true := by
  unfold landAll
  repeat' with_reducible first | assumption | apply wf_landFetch | apply wf_foldlc | intro _ | dsimp only | split

theorem wf_gfmulOp {a0 a1} (h1 : Memory.wf (a1).cl.tiles = true) :
    Memory.wf (gfmulOp a0 a1).cl.tiles = true := by
  unfold gfmulOp
  repeat' with_reducible first | assumption | apply wf_withMod | apply wf_regs | intro _ | dsimp only | split

theorem wf_saveCluster {a0 a1} (h1 : Memory.wf (a1).tiles = true) :
    Memory.wf (saveCluster a0 a1).tiles = true := by
  unfold saveCluster
  repeat' with_reducible first | assumption | apply wf_landAll

theorem wf_shbaOp {a0 a1} (h1 : Memory.wf (a1).cl.tiles = true) :
    Memory.wf (shbaOp a0 a1).cl.tiles = true := by
  unfold shbaOp
  repeat' with_reducible first | assumption | apply wf_groupOp

theorem wf_vstOp {a0 a1} (h1 : Memory.wf (a1).cl.tiles = true) :
    Memory.wf (vstOp a0 a1).cl.tiles = true := by
  unfold vstOp
  repeat' with_reducible first | assumption | apply wf_memOp | apply wf_storeAt | intro _

theorem wf_branchOp {a0 a1 a2 a3 a4} (h4 : Memory.wf (a4).cl.tiles = true) :
    Memory.wf (branchOp a0 a1 a2 a3 a4).cl.tiles = true := by
  unfold branchOp
  repeat' with_reducible first | assumption | apply wf_stop | split

theorem wf_kecInitOp {a0 a1} (h1 : Memory.wf (a1).cl.tiles = true) :
    Memory.wf (kecInitOp a0 a1).cl.tiles = true := by
  unfold kecInitOp
  repeat' with_reducible first | assumption | apply wf_withKec

theorem wf_writeShares {a0 a1 a2 a3} (h0 : Memory.wf (a0) = true) :
    Memory.wf (writeShares a0 a1 a2 a3) = true := by
  unfold writeShares
  repeat' with_reducible first | assumption | apply wf_cellsWrite | apply wf_foldl | intro _

theorem wf_vsOpen {a0 a1 a2} (h2 : Memory.wf (a2).cl.tiles = true) :
    Memory.wf (vsOpen a0 a1 a2).cl.tiles = true := by
  unfold vsOpen
  repeat' with_reducible first | assumption | apply wf_vectorOp

theorem wf_shstOp {a0 a1} (h1 : Memory.wf (a1).cl.tiles = true) :
    Memory.wf (shstOp a0 a1).cl.tiles = true := by
  unfold shstOp
  repeat' with_reducible first | assumption | apply wf_memOp | apply wf_storeAt | apply wf_foldlc | intro _

theorem wf_vmvxOp {a0 a1 a2 a3} (h3 : Memory.wf (a3).cl.tiles = true) :
    Memory.wf (vmvxOp a0 a1 a2 a3).cl.tiles = true := by
  unfold vmvxOp
  repeat' with_reducible first | assumption | apply wf_writeG

theorem wf_writeConsts {a0 a1} (h1 : Memory.wf a1 = true) : Memory.wf (writeConsts a0 a1) = true :=
  wf_foldl (fun _ _ h => wf_cellsWrite _ _ h) h1

theorem wf_restoreCluster {a0 a1 a2 a3} (h3 : Memory.wf (a3).tiles = true) :
    Memory.wf (restoreCluster a0 a1 a2 a3).tiles = true := by
  unfold restoreCluster
  repeat' with_reducible first | assumption | apply wf_writeConsts | apply wf_cellsWrite | apply wf_foldl | intro _ | dsimp only | split

theorem wf_kecXbsOp {a0 a1} (h1 : Memory.wf (a1).cl.tiles = true) :
    Memory.wf (kecXbsOp a0 a1).cl.tiles = true := by
  unfold kecXbsOp
  repeat' with_reducible first | assumption | apply wf_hGuard | apply wf_hClass | apply wf_withKec | dsimp only | intro _

end Sys2Proof.Machine
end

