-- ==== Sys2Proof/Laws/KeepOps.lean ====
section
/-!
SUPPORT. What a command keeps (Laws/Keeps.lean), for the shared operations, ends of jobs, queues, slots, the digest port, vector instructions.
-/
namespace Sys2Proof.Machine
set_option Elab.async false -- the package as one text has more theorems than threads

/-! ### Machine/Ops.lean -/

theorem keeps_onSlot {K b} (s a1 g) (h : Keeps K b s) (h1 : ∀ x, SlotOk x → SlotOk (g x) := by with_unfolding_all exact fun _ h => h)
    (h2 : ∀ x, (g x).idx = x.idx ∧ x.gen ≤ (g x).gen := by with_unfolding_all exact fun _ => ⟨rfl, Nat.le_refl _⟩) : Keeps K b (State.onSlot s a1 g) :=
  h.to (x := all_modFirst h1) (g := .modFirst h2)

theorem keeps_onCtx {K b} (s a1 a2) (h : Keeps K b s) : Keeps K b (State.onCtx s a1 a2) := by
  unfold State.onCtx
  repeat' with_reducible first | assumption | refine keeps_mk ?_

theorem keeps_onCq {K b} (s a1 a2 g) (h : Keeps K b s) (h1 : ∀ x, CqOk x → CqOk (g x) := by with_unfolding_all exact fun _ h => h) :
    Keeps K b (State.onCq s a1 a2 g) :=
  h.to (r := fun r => ⟨r.1, all_modFirst h1 r.2⟩)

theorem keeps_onJob {K b} (s a1 a2) (h : Keeps K b s) : Keeps K b (State.onJob s a1 a2) := by
  unfold State.onJob
  repeat' with_reducible first | assumption | refine keeps_mk ?_

theorem keeps_emit {K b} (a0 s) (h : Keeps K b s) : Keeps K b (emit a0 s) := by
  unfold emit
  repeat' with_reducible first | assumption | refine keeps_mk ?_

theorem keeps_onFn {K b} (s a1 a2) (h : Keeps K b s) : Keeps K b (State.onFn s a1 a2) := by
  unfold State.onFn
  repeat' with_reducible first | assumption | refine keeps_mk ?_

theorem keeps_countOutside {K b} (a0 a1 a2 s) (h : Keeps K b s) : Keeps K b (countOutside a0 a1 a2 s) := by
  unfold countOutside
  repeat' with_reducible first
    | assumption | apply keeps_onFn | intro _
    | (extract_lets +onlyGivenNames x; refine keeps_pcut (K := K) (b := b) (v := x) ?_ ?_; unfold x; clear x; rotate_left; (try clear_value x); intro hp)
    | (extract_lets +onlyGivenNames x; refine keeps_cut (K := K) (b := b) (v := x) ?_ ?_; unfold x; clear x; rotate_left; (try clear_value x); intro hx)
    | (extract_lets +onlyGivenNames x; (first | (have _h : Sc := x; clear _h; subst x) | (have _h : TokSt := x; clear _h; subst x) | clear_value x | subst x)) | apply keeps_ite | apply keeps_foldl
    | split

theorem keeps_atcRoom {K b} (s) (h : Keeps K b s) : Keeps K b (atcRoom s) := by
  unfold atcRoom
  repeat' with_reducible first
    | assumption | refine keeps_mk ?_ | intro _
    | (extract_lets +onlyGivenNames x; refine keeps_pcut (K := K) (b := b) (v := x) ?_ ?_; unfold x; clear x; rotate_left; (try clear_value x); intro hp)
    | (extract_lets +onlyGivenNames x; refine keeps_cut (K := K) (b := b) (v := x) ?_ ?_; unfold x; clear x; rotate_left; (try clear_value x); intro hx)
    | (extract_lets +onlyGivenNames x; (first | (have _h : Sc := x; clear _h; subst x) | (have _h : TokSt := x; clear _h; subst x) | clear_value x | subst x)) | apply keeps_ite | apply keeps_foldl
    | split

theorem keeps_sendAsk {K b} (a0 a1 a2 a3 s) (h : Keeps K b s) : Keeps K b (sendAsk a0 a1 a2 a3 s) := by
  unfold sendAsk
  repeat' with_reducible first
    | assumption | apply keeps_onFn | apply keeps_emit | apply hg | intro _
    | (extract_lets +onlyGivenNames x; refine keeps_pcut (K := K) (b := b) (v := x) ?_ ?_; unfold x; clear x; rotate_left; (try clear_value x); intro hp)
    | (extract_lets +onlyGivenNames x; refine keeps_fcut (K := K) (b := b) (v := x) ?_ ?_; unfold x; clear x; rotate_left; (try clear_value x); intro hg)
    | (extract_lets +onlyGivenNames x; refine keeps_fcut2 (K := K) (b := b) (v := x) ?_ ?_; unfold x; clear x; rotate_left; (try clear_value x); intro hg)
    | (extract_lets +onlyGivenNames x; refine keeps_cut (K := K) (b := b) (v := x) ?_ ?_; unfold x; clear x; rotate_left; (try clear_value x); intro hx)
    | (extract_lets +onlyGivenNames x; (first | (have _h : Sc := x; clear _h; subst x) | (have _h : TokSt := x; clear _h; subst x) | clear_value x | subst x)) | apply keeps_ite | apply keeps_foldl
    | split

theorem keeps_translatePage {K b} (a0 a1 s) (h : Keeps K b s) : Keeps K b (translatePage a0 a1 s) := by
  unfold translatePage
  repeat' with_reducible first
    | assumption | apply keeps_sendAsk | apply keeps_onFn | apply keeps_atcRoom | apply keeps_emit | intro _
    | (extract_lets +onlyGivenNames x; refine keeps_pcut (K := K) (b := b) (v := x) ?_ ?_; unfold x; clear x; rotate_left; (try clear_value x); intro hp)
    | (extract_lets +onlyGivenNames x; refine keeps_cut (K := K) (b := b) (v := x) ?_ ?_; unfold x; clear x; rotate_left; (try clear_value x); intro hx)
    | (extract_lets +onlyGivenNames x; (first | (have _h : Sc := x; clear _h; subst x) | (have _h : TokSt := x; clear _h; subst x) | clear_value x | subst x)) | apply keeps_ite | apply keeps_foldl
    | split

theorem keeps_translate {K b} (a0 a1 a2 s) (h : Keeps K b s) : Keeps K b (translate a0 a1 a2 s) := by
  unfold translate
  repeat' with_reducible first
    | assumption | apply keeps_translatePage | intro _
    | (extract_lets +onlyGivenNames x; refine keeps_pcut (K := K) (b := b) (v := x) ?_ ?_; unfold x; clear x; rotate_left; (try clear_value x); intro hp)
    | (extract_lets +onlyGivenNames x; refine keeps_cut (K := K) (b := b) (v := x) ?_ ?_; unfold x; clear x; rotate_left; (try clear_value x); intro hx)
    | (extract_lets +onlyGivenNames x; (first | (have _h : Sc := x; clear _h; subst x) | (have _h : TokSt := x; clear _h; subst x) | clear_value x | subst x)) | apply keeps_ite | apply keeps_foldl
    | split

theorem keeps_markWord {K b} (a0 a1 s) (h : Keeps K b s) : Keeps K b (markWord a0 a1 s) := by
  unfold markWord
  repeat' with_reducible first
    | assumption | apply keeps_sendAsk | apply keeps_emit | apply keeps_translate | intro _
    | (extract_lets +onlyGivenNames x; refine keeps_pcut (K := K) (b := b) (v := x) ?_ ?_; unfold x; clear x; rotate_left; (try clear_value x); intro hp)
    | (extract_lets +onlyGivenNames x; refine keeps_cut (K := K) (b := b) (v := x) ?_ ?_; unfold x; clear x; rotate_left; (try clear_value x); intro hx)
    | (extract_lets +onlyGivenNames x; (first | (have _h : Sc := x; clear _h; subst x) | (have _h : TokSt := x; clear _h; subst x) | clear_value x | subst x)) | apply keeps_ite | apply keeps_foldl
    | split

theorem keeps_failLog {K b} (a0 s) (h : Keeps K b s) : Keeps K b (failLog a0 s) := by
  unfold failLog
  repeat' with_reducible first
    | assumption | apply keeps_onFn | apply hg | intro _
    | (extract_lets +onlyGivenNames x; refine keeps_pcut (K := K) (b := b) (v := x) ?_ ?_; unfold x; clear x; rotate_left; (try clear_value x); intro hp)
    | (extract_lets +onlyGivenNames x; refine keeps_fcut (K := K) (b := b) (v := x) ?_ ?_; unfold x; clear x; rotate_left; (try clear_value x); intro hg)
    | (extract_lets +onlyGivenNames x; refine keeps_fcut2 (K := K) (b := b) (v := x) ?_ ?_; unfold x; clear x; rotate_left; (try clear_value x); intro hg)
    | (extract_lets +onlyGivenNames x; refine keeps_cut (K := K) (b := b) (v := x) ?_ ?_; unfold x; clear x; rotate_left; (try clear_value x); intro hx)
    | (extract_lets +onlyGivenNames x; (first | (have _h : Sc := x; clear _h; subst x) | (have _h : TokSt := x; clear _h; subst x) | clear_value x | subst x)) | apply keeps_ite | apply keeps_foldl
    | split

theorem keeps_markMap {K b} (a0 a1 s) (h : Keeps K b s) : Keeps K b (markMap a0 a1 s) := by
  unfold markMap
  repeat' with_reducible first
    | assumption | apply keeps_markWord | apply hg | intro _
    | (extract_lets +onlyGivenNames x; refine keeps_pcut (K := K) (b := b) (v := x) ?_ ?_; unfold x; clear x; rotate_left; (try clear_value x); intro hp)
    | (extract_lets +onlyGivenNames x; refine keeps_fcut (K := K) (b := b) (v := x) ?_ ?_; unfold x; clear x; rotate_left; (try clear_value x); intro hg)
    | (extract_lets +onlyGivenNames x; refine keeps_fcut2 (K := K) (b := b) (v := x) ?_ ?_; unfold x; clear x; rotate_left; (try clear_value x); intro hg)
    | (extract_lets +onlyGivenNames x; refine keeps_cut (K := K) (b := b) (v := x) ?_ ?_; unfold x; clear x; rotate_left; (try clear_value x); intro hx)
    | (extract_lets +onlyGivenNames x; (first | (have _h : Sc := x; clear _h; subst x) | (have _h : TokSt := x; clear _h; subst x) | clear_value x | subst x)) | apply keeps_ite | apply keeps_foldl
    | split

theorem keeps_markAll {K b} (a0 a1 s) (h : Keeps K b s) : Keeps K b (markAll a0 a1 s) := by
  unfold markAll
  repeat' with_reducible first
    | assumption | apply keeps_failLog | apply keeps_markMap | apply hg | intro _
    | (extract_lets +onlyGivenNames x; refine keeps_pcut (K := K) (b := b) (v := x) ?_ ?_; unfold x; clear x; rotate_left; (try clear_value x); intro hp)
    | (extract_lets +onlyGivenNames x; refine keeps_fcut (K := K) (b := b) (v := x) ?_ ?_; unfold x; clear x; rotate_left; (try clear_value x); intro hg)
    | (extract_lets +onlyGivenNames x; refine keeps_fcut2 (K := K) (b := b) (v := x) ?_ ?_; unfold x; clear x; rotate_left; (try clear_value x); intro hg)
    | (extract_lets +onlyGivenNames x; refine keeps_cut (K := K) (b := b) (v := x) ?_ ?_; unfold x; clear x; rotate_left; (try clear_value x); intro hx)
    | (extract_lets +onlyGivenNames x; (first | (have _h : Sc := x; clear _h; subst x) | (have _h : TokSt := x; clear _h; subst x) | clear_value x | subst x)) | apply keeps_ite | apply keeps_foldl
    | split

theorem keeps_dirtyMark {K b} (a0 a1 a2 s) (h : Keeps K b s) : Keeps K b (dirtyMark a0 a1 a2 s) := by
  unfold dirtyMark
  repeat' with_reducible first
    | assumption | apply keeps_markAll | apply keeps_countOutside | apply keeps_markPages | intro _
    | (extract_lets +onlyGivenNames x; refine keeps_pcut (K := K) (b := b) (v := x) ?_ ?_; unfold x; clear x; rotate_left; (try clear_value x); intro hp)
    | (extract_lets +onlyGivenNames x; refine keeps_cut (K := K) (b := b) (v := x) ?_ ?_; unfold x; clear x; rotate_left; (try clear_value x); intro hx)
    | (extract_lets +onlyGivenNames x; (first | (have _h : Sc := x; clear _h; subst x) | (have _h : TokSt := x; clear _h; subst x) | clear_value x | subst x)) | apply keeps_ite | apply keeps_foldl
    | split

theorem keeps_sendWrite {K b} (a0 a1 a2 s) (h : Keeps K b s) : Keeps K b (sendWrite a0 a1 a2 s) := by
  unfold sendWrite
  repeat' with_reducible first
    | assumption | apply keeps_emit | apply hg | intro _
    | (extract_lets +onlyGivenNames x; refine keeps_pcut (K := K) (b := b) (v := x) ?_ ?_; unfold x; clear x; rotate_left; (try clear_value x); intro hp)
    | (extract_lets +onlyGivenNames x; refine keeps_fcut (K := K) (b := b) (v := x) ?_ ?_; unfold x; clear x; rotate_left; (try clear_value x); intro hg)
    | (extract_lets +onlyGivenNames x; refine keeps_fcut2 (K := K) (b := b) (v := x) ?_ ?_; unfold x; clear x; rotate_left; (try clear_value x); intro hg)
    | (extract_lets +onlyGivenNames x; refine keeps_cut (K := K) (b := b) (v := x) ?_ ?_; unfold x; clear x; rotate_left; (try clear_value x); intro hx)
    | (extract_lets +onlyGivenNames x; (first | (have _h : Sc := x; clear _h; subst x) | (have _h : TokSt := x; clear _h; subst x) | clear_value x | subst x)) | apply keeps_ite | apply keeps_foldl
    | split

theorem keeps_writeRing {K b} (a0 a1 a2 s) (h : Keeps K b s) : Keeps K b (writeRing a0 a1 a2 s) := by
  unfold writeRing
  repeat' with_reducible first
    | assumption | apply keeps_sendWrite | apply keeps_dirtyMark | apply keeps_emit | apply keeps_translate | intro _
    | (extract_lets +onlyGivenNames x; refine keeps_pcut (K := K) (b := b) (v := x) ?_ ?_; unfold x; clear x; rotate_left; (try clear_value x); intro hp)
    | (extract_lets +onlyGivenNames x; refine keeps_cut (K := K) (b := b) (v := x) ?_ ?_; unfold x; clear x; rotate_left; (try clear_value x); intro hx)
    | (extract_lets +onlyGivenNames x; (first | (have _h : Sc := x; clear _h; subst x) | (have _h : TokSt := x; clear _h; subst x) | clear_value x | subst x)) | apply keeps_ite | apply keeps_foldl
    | split

theorem keeps_sendMsix {K b} (a0 a1 s) (h : Keeps K b s) : Keeps K b (sendMsix a0 a1 s) := by
  unfold sendMsix
  repeat' with_reducible first
    | assumption | apply keeps_emit | intro _
    | (extract_lets +onlyGivenNames x; refine keeps_pcut (K := K) (b := b) (v := x) ?_ ?_; unfold x; clear x; rotate_left; (try clear_value x); intro hp)
    | (extract_lets +onlyGivenNames x; refine keeps_cut (K := K) (b := b) (v := x) ?_ ?_; unfold x; clear x; rotate_left; (try clear_value x); intro hx)
    | (extract_lets +onlyGivenNames x; (first | (have _h : Sc := x; clear _h; subst x) | (have _h : TokSt := x; clear _h; subst x) | clear_value x | subst x)) | apply keeps_ite | apply keeps_foldl
    | split

theorem keeps_signal {K b} (a0 a1 s) (h : Keeps K b s) : Keeps K b (signal a0 a1 s) := by
  unfold signal
  repeat' with_reducible first
    | assumption | apply keeps_onFn | apply keeps_sendMsix | intro _
    | (extract_lets +onlyGivenNames x; refine keeps_pcut (K := K) (b := b) (v := x) ?_ ?_; unfold x; clear x; rotate_left; (try clear_value x); intro hp)
    | (extract_lets +onlyGivenNames x; refine keeps_cut (K := K) (b := b) (v := x) ?_ ?_; unfold x; clear x; rotate_left; (try clear_value x); intro hx)
    | (extract_lets +onlyGivenNames x; (first | (have _h : Sc := x; clear _h; subst x) | (have _h : TokSt := x; clear _h; subst x) | clear_value x | subst x)) | apply keeps_ite | apply keeps_foldl
    | split

theorem keeps_onSq {K b} (s a1 a2 g) (h : Keeps K b s) (h1 : ∀ x, SqOk x → SqOk (g x) := by with_unfolding_all exact fun _ h => h) :
    Keeps K b (State.onSq s a1 a2 g) :=
  h.to (r := fun r => ⟨all_modFirst h1 r.1, r.2⟩)

theorem keeps_trace {K b} (a0 s) (h : Keeps K b s) : Keeps K b (trace a0 s) := by
  unfold trace
  repeat' with_reducible first
    | assumption | refine keeps_mk ?_ | apply keeps_emit
    | (extract_lets +onlyGivenNames x; refine keeps_cut (K := K) (b := b) (v := x) ?_ ?_; unfold x; clear x; rotate_left; (try clear_value x); intro hx)
    | (extract_lets +onlyGivenNames x; (first | (have _h : Sc := x; clear _h; subst x) | (have _h : TokSt := x; clear _h; subst x) | clear_value x | subst x)) | apply keeps_ite

theorem keeps_ringEvent {K b} (a0 a1 a2 a3 a4 s) (h : Keeps K b s) : Keeps K b (ringEvent a0 a1 a2 a3 a4 s) := by
  unfold ringEvent
  repeat' with_reducible first
    | assumption | apply keeps_onFn | apply keeps_writeRing | apply keeps_signal
    | (extract_lets +onlyGivenNames x; refine keeps_cut (K := K) (b := b) (v := x) ?_ ?_; unfold x; clear x; rotate_left; (try clear_value x); intro hx)
    | (extract_lets +onlyGivenNames x; (first | (have _h : Sc := x; clear _h; subst x) | (have _h : TokSt := x; clear _h; subst x) | clear_value x | subst x)) | apply keeps_ite | split

theorem keeps_overflowUp {K b} (a0 s) (h : Keeps K b s) : Keeps K b (overflowUp a0 s) := by
  unfold overflowUp
  repeat' with_reducible first | assumption | refine keeps_mk ?_

theorem keeps_bufferRecord {K b} (a0 s) (h : Keeps K b s) : Keeps K b (bufferRecord a0 s) := by
  unfold bufferRecord
  repeat' with_reducible first
    | assumption | refine keeps_mk ?_ | apply keeps_overflowUp | intro _
    | (extract_lets +onlyGivenNames x; refine keeps_fcut2 (K := K) (b := b) (v := x) ?_ ?_; unfold x; clear x; rotate_left; (try clear_value x); intro hg)
    | (extract_lets +onlyGivenNames x; (first | (have _h : Sc := x; clear _h; subst x) | (have _h : TokSt := x; clear _h; subst x) | clear_value x | subst x)) | apply hg | apply keeps_ite | split

theorem keeps_raiseEvent {K b} (a0 a1 a2 s a4) (h : Keeps K b s) : Keeps K b (raiseEvent a0 a1 a2 s a4) := by
  unfold raiseEvent
  repeat' with_reducible first
    | assumption | refine keeps_mk ?_ | apply keeps_bufferRecord
    | (extract_lets +onlyGivenNames x; refine keeps_cut (K := K) (b := b) (v := x) ?_ ?_; unfold x; clear x; rotate_left; (try clear_value x); intro hx)
    | (extract_lets +onlyGivenNames x; (first | (have _h : Sc := x; clear _h; subst x) | (have _h : TokSt := x; clear _h; subst x) | clear_value x | subst x)) | apply keeps_ite

theorem keeps_setFault {K b} (a0 s) (h : Keeps K b s) : Keeps K b (setFault a0 s) := by
  unfold setFault
  repeat' with_reducible first | assumption | refine keeps_mk ?_

theorem keeps_faultEvent {K b} (a0 a1 a2 a3 s a5) (h : Keeps K b s) : Keeps K b (faultEvent a0 a1 a2 a3 s a5) := by
  unfold faultEvent
  repeat' with_reducible first | assumption | apply keeps_raiseEvent | apply keeps_setFault

theorem keeps_onUnit {K b} (s a1 a2) (h : Keeps K b s) : Keeps K b (State.onUnit s a1 a2) := by
  unfold State.onUnit
  repeat' with_reducible first | assumption | refine keeps_mk ?_

theorem keeps_ringEventAll {K b} (a0 a1 a2 s) (h : Keeps K b s) : Keeps K b (ringEventAll a0 a1 a2 s) := by
  unfold ringEventAll
  repeat' with_reducible first | assumption | apply keeps_ringEvent | apply keeps_foldl | intro _

theorem keeps_drawBytes {K b} (a0 s) (h : Keeps K b s) : Keeps K b (drawBytes a0 s).2 := by
  unfold drawBytes
  repeat' with_reducible first | assumption | refine keeps_mk ?_

theorem keeps_drawNat {K b} (a0 s) (h : Keeps K b s) : Keeps K b (drawNat a0 s).2 := by
  unfold drawNat
  repeat' with_reducible first | assumption | refine keeps_mk ?_

theorem keeps_drawKeyId {K b} (s) (h : Keeps K b s) : Keeps K b (drawKeyId s).2 := by
  unfold drawKeyId
  repeat' with_reducible first | assumption | apply keeps_drawNat

theorem keeps_postWrite {K b} (a0 a1 a2 s) (h : Keeps K b s) : Keeps K b (postWrite a0 a1 a2 s) := by
  unfold postWrite
  repeat' with_reducible first
    | assumption | apply keeps_sendWrite | apply keeps_emit | apply keeps_translate | intro _
    | (extract_lets +onlyGivenNames x; refine keeps_pcut (K := K) (b := b) (v := x) ?_ ?_; unfold x; clear x; rotate_left; (try clear_value x); intro hp)
    | (extract_lets +onlyGivenNames x; refine keeps_cut (K := K) (b := b) (v := x) ?_ ?_; unfold x; clear x; rotate_left; (try clear_value x); intro hx)
    | (extract_lets +onlyGivenNames x; (first | (have _h : Sc := x; clear _h; subst x) | (have _h : TokSt := x; clear _h; subst x) | clear_value x | subst x)) | apply keeps_ite | apply keeps_foldl
    | split

theorem keeps_writeOut {K b} (a0 a1 a2 s) (h : Keeps K b s) : Keeps K b (writeOut a0 a1 a2 s) := by
  unfold writeOut
  repeat' with_reducible first
    | assumption | apply keeps_dirtyMark | apply keeps_postWrite | intro _
    | (extract_lets +onlyGivenNames x; refine keeps_pcut (K := K) (b := b) (v := x) ?_ ?_; unfold x; clear x; rotate_left; (try clear_value x); intro hp)
    | (extract_lets +onlyGivenNames x; refine keeps_cut (K := K) (b := b) (v := x) ?_ ?_; unfold x; clear x; rotate_left; (try clear_value x); intro hx)
    | (extract_lets +onlyGivenNames x; (first | (have _h : Sc := x; clear _h; subst x) | (have _h : TokSt := x; clear _h; subst x) | clear_value x | subst x)) | apply keeps_ite | apply keeps_foldl
    | split

/-! ### Machine/Clock.lean -/

/-! ### Machine/MaeWords.lean -/

theorem keeps_maeExec {K b} (a0 a1 a2 s) (h : Keeps K b s) : Keeps K b (maeExec a0 a1 a2 s) := by
  unfold maeExec
  repeat' with_reducible first | assumption | refine keeps_mk ?_ | apply keeps_ite | split

theorem keeps_execMaeInv {K b} (a0 a1 s) (h : Keeps K b s) : KeepsOut K b (execMaeInv a0 a1 s) := by
  unfold execMaeInv
  repeat' with_reducible first | assumption | apply keeps_maeExec | apply KeepsOut.next

theorem keeps_execMaeExp {K b} (a0 a1 s) (h : Keeps K b s) : KeepsOut K b (execMaeExp a0 a1 s) := by
  unfold execMaeExp
  repeat' with_reducible first | assumption | apply keeps_maeExec | apply KeepsOut.next

theorem keeps_execMaeMul {K b} (a0 a1 s) (h : Keeps K b s) : KeepsOut K b (execMaeMul a0 a1 s) := by
  unfold execMaeMul
  repeat' with_reducible first | assumption | apply keeps_maeExec | apply KeepsOut.next

theorem keeps_execMaeAdd {K b} (a0 a1 s) (h : Keeps K b s) : KeepsOut K b (execMaeAdd a0 a1 s) := by
  unfold execMaeAdd
  repeat' with_reducible first | assumption | apply keeps_maeExec | apply KeepsOut.next

theorem keeps_execMaeSub {K b} (a0 a1 s) (h : Keeps K b s) : KeepsOut K b (execMaeSub a0 a1 s) := by
  unfold execMaeSub
  repeat' with_reducible first | assumption | apply keeps_maeExec | apply KeepsOut.next

theorem keeps_execMaeSqr {K b} (a0 a1 s) (h : Keeps K b s) : KeepsOut K b (execMaeSqr a0 a1 s) := by
  unfold execMaeSqr
  repeat' with_reducible first | assumption | apply keeps_maeExec | apply KeepsOut.next

theorem keeps_execMaeEnd {K b} (a0 a1 s) (h : Keeps K b s) : KeepsOut K b (execMaeEnd a0 a1 s) := by
  unfold execMaeEnd
  repeat' with_reducible first | assumption | apply keeps_maeExec | apply KeepsOut.next

/-! ### Machine/Admission.lean -/

theorem keeps_rerunAdmission {K b} (a0 s) (h : Keeps K b s) : Keeps K b (rerunAdmission a0 s) := by
  unfold rerunAdmission
  repeat' with_reducible first
    | assumption | refine keeps_mk ?_ | apply keeps_raiseEvent | apply keeps_ringEventAll
    | (extract_lets +onlyGivenNames x; (first | (have _h : Sc := x; clear _h; subst x) | (have _h : TokSt := x; clear _h; subst x) | clear_value x | subst x)) | apply keeps_ite

/-! ### Machine/Rights.lean -/

theorem keeps_stepRun {K b} (s) (h : Keeps K b s) : Keeps K b (stepRun s) := by
  unfold stepRun
  repeat' with_reducible first | assumption | refine keeps_mk ?_

theorem keeps_setActive {K b} (a0 s) (h : Keeps K b s) : Keeps K b (setActive a0 s) := by
  unfold setActive
  repeat' with_reducible first
    | assumption | refine keeps_mk ?_ | apply keeps_stepRun | apply keeps_raiseEvent
    | (extract_lets +onlyGivenNames x; refine keeps_cut (K := K) (b := b) (v := x) ?_ ?_; unfold x; clear x; rotate_left; (try clear_value x); intro hx)
    | (extract_lets +onlyGivenNames x; (first | (have _h : Sc := x; clear _h; subst x) | (have _h : TokSt := x; clear _h; subst x) | clear_value x | subst x)) | apply keeps_ite

theorem keeps_clampRights {K b} (s) (h : Keeps K b s) : Keeps K b (clampRights s) := by
  unfold clampRights
  repeat' with_reducible first | assumption | apply keeps_setActive | apply keeps_ite

theorem keeps_eraseCert {K b} (s) (h : Keeps K b s) : Keeps K b (eraseCert s) := by
  unfold eraseCert
  repeat' with_reducible first | assumption | refine keeps_mk ?_ | apply keeps_clampRights

/-! ### Machine/Finish.lean -/

theorem keeps_dropNew {K b} (a0 s) (h : Keeps K b s) : Keeps K b (dropNew a0 s) := by
  unfold dropNew
  refine keeps_ite h ?_
  split
  · exact keeps_onSlot _ _ _ h slot_free gen_free
  · exact h

theorem keeps_freeUnits {K b} (a0 s) (h : Keeps K b s) : Keeps K b (freeUnits a0 s) := by
  unfold freeUnits
  repeat' with_reducible first | assumption | refine keeps_mk ?_

theorem wf_leave (j : Nat) (l : List Cluster) (h : VccOk l) : VccOk (l.map (leaveCluster j)) := h.map (fun _ hc => wf_leaveCluster hc)

theorem keeps_releaseJob {K : Breaks} {b : State} (j : Job) (s : State) (h : Keeps K b s) : Keeps K b (releaseJob j s) := by
  have h1 : Keeps K b (j.pins.foldl (fun s p => s.onSlot p.1 (unpinSlot p.2)) (freeUnits j.id s)) :=
    keeps_foldl (fun _ p ht => keeps_onSlot _ _ _ ht (slot_unpin p.2) (gen_unpin p.2)) (keeps_freeUnits _ _ h)
  exact h1.to (v := wf_leave j.id _)

theorem keeps_signalCq {K b} (a0 a1 s) (h : Keeps K b s) : Keeps K b (signalCq a0 a1 s) := by
  unfold signalCq
  repeat' with_reducible first | assumption | apply keeps_signal | refine keeps_onCq _ _ _ _ ?_ | split

theorem keeps_putEntry {K b} (a0 a1 a2 a3 s) (h : Keeps K b s) : Keeps K b (putEntry a0 a1 a2 a3 s) := by
  unfold putEntry
  split
  · exact h
  · rename_i c hc
    split
    · exact h
    · rename_i room
      have e : (writeRing a0 (c.base + idxSlot c.tail * 32) a2 s).cqs = s.cqs := by rw [linkOnly_writeRing a0 (c.base + idxSlot c.tail * 32) a2 (LinkOnly.refl s)]
      have hp : ∀ now, Keeps K b ((writeRing a0 (c.base + idxSlot c.tail * 32) a2 s).onCq a0 a1
          (fun c => { c with tail := idxNext c.depth c.tail, sinceSig := c.sinceSig + 1, firstUnsig := some (c.firstUnsig.getD now) })) := fun now =>
        keeps_onCq_of _ _ _ (keeps_writeRing _ _ _ _ h) fun d hd ok => by
          rw [cq?_of_cqs e, hc] at hd
          cases hd
          exact (RingOk.next ok (of_decide_eq_true (show c.room = true by simpa using room))).1
      exact keeps_ite (keeps_signalCq _ _ _ (hp _)) (hp _)

theorem keeps_releasePlace {K b} (a0 s) (h : Keeps K b s) : Keeps K b (releasePlace a0 s) := by
  unfold releasePlace
  have h1 : Keeps K b { s with jobs := s.jobs.filter (fun x => x.id != a0.id) } := keeps_mk h
  exact keeps_ite (keeps_sqs _ h1 (all_map fun _ h => h)) h1

theorem keeps_beginEpisode {K b} (a0 a1 s) (h : Keeps K b s) : Keeps K b (beginEpisode a0 a1 s) := by
  unfold beginEpisode
  repeat' with_reducible first | assumption | apply keeps_ringEvent | refine keeps_onCq _ _ _ _ ?_ | apply keeps_ite | split

theorem keeps_writeCompletion {K b} (a0 a1 a2 a3 a4 s) (h : Keeps K b s) : Keeps K b (writeCompletion a0 a1 a2 a3 a4 s) := by
  unfold writeCompletion
  repeat' with_reducible first
    | assumption | refine keeps_mk ?_ | apply keeps_putEntry | refine keeps_onCq _ _ _ _ ?_ | refine keeps_onCq _ _ _ _ ?_ cq_returnCredit | refine keeps_onSq _ _ _ _ ?_ | apply keeps_trace | apply keeps_releasePlace
    | apply keeps_beginEpisode | (extract_lets +onlyGivenNames x; (first | (have _h : Sc := x; clear _h; subst x) | (have _h : TokSt := x; clear _h; subst x) | clear_value x | subst x)) | apply keeps_ite
    | split

theorem keeps_endEpisode {K b} (a0 a1 s) (h : Keeps K b s) : Keeps K b (endEpisode a0 a1 s) := by
  unfold endEpisode
  split
  · exact h
  · have h1 := keeps_onCq s a0 a1 (fun c => { c with episode := false }) h
    exact keeps_ite (keeps_sqs _ h1 (all_map fun x h => by split <;> exact h)) h

theorem keeps_drainHeld {K : Breaks} {b : State} (f : Fn) (q n : Nat) (s : State) (h : Keeps K b s) : Keeps K b (drainHeld f q n s) := by
  induction n generalizing s with
  | zero => exact h
  | succ n ih =>
    unfold drainHeld
    split
    · exact h
    · split
      · exact h
      · split
        · exact h
        · exact ih _ (keeps_writeCompletion _ _ _ _ _ _ (keeps_onCq _ _ _ _ h))

theorem keeps_drainCq {K b} (a0 a1 s) (h : Keeps K b s) : Keeps K b (drainCq a0 a1 s) := by
  unfold drainCq
  repeat' with_reducible first | assumption | apply keeps_endEpisode | apply keeps_drainHeld | split

theorem keeps_flushDirty {K b} (a0 s) (h : Keeps K b s) : Keeps K b (flushDirty a0 s) := by
  unfold flushDirty
  repeat' with_reducible first
    | assumption | apply keeps_markAll | apply keeps_onJob | apply keeps_markPages | intro _
    | (extract_lets +onlyGivenNames x; refine keeps_pcut (K := K) (b := b) (v := x) ?_ ?_; unfold x; clear x; rotate_left; (try clear_value x); intro hp)
    | (extract_lets +onlyGivenNames x; refine keeps_cut (K := K) (b := b) (v := x) ?_ ?_; unfold x; clear x; rotate_left; (try clear_value x); intro hx)
    | (extract_lets +onlyGivenNames x; (first | (have _h : Sc := x; clear _h; subst x) | (have _h : TokSt := x; clear _h; subst x) | clear_value x | subst x)) | apply keeps_ite | apply keeps_foldl
    | split

theorem keeps_adminDone {K b} (a0 a1 a2 a3 s) (h : Keeps K b s) : Keeps K b (adminDone a0 a1 a2 a3 s) := by
  unfold adminDone
  repeat' with_reducible first | assumption | apply keeps_writeCompletion | apply keeps_ite | split

theorem keeps_dirtyDone {K b} (a0 s) (h : Keeps K b s) : Keeps K b (dirtyDone a0 s) := by
  unfold dirtyDone
  repeat' with_reducible first
    | assumption | refine keeps_mk ?_ | apply keeps_onFn | apply keeps_adminDone | apply hg | intro _
    | (extract_lets +onlyGivenNames x; refine keeps_pcut (K := K) (b := b) (v := x) ?_ ?_; unfold x; clear x; rotate_left; (try clear_value x); intro hp)
    | (extract_lets +onlyGivenNames x; refine keeps_fcut (K := K) (b := b) (v := x) ?_ ?_; unfold x; clear x; rotate_left; (try clear_value x); intro hg)
    | (extract_lets +onlyGivenNames x; refine keeps_fcut2 (K := K) (b := b) (v := x) ?_ ?_; unfold x; clear x; rotate_left; (try clear_value x); intro hg)
    | (extract_lets +onlyGivenNames x; refine keeps_cut (K := K) (b := b) (v := x) ?_ ?_; unfold x; clear x; rotate_left; (try clear_value x); intro hx)
    | (extract_lets +onlyGivenNames x; (first | (have _h : Sc := x; clear _h; subst x) | (have _h : TokSt := x; clear _h; subst x) | clear_value x | subst x)) | apply keeps_ite | apply keeps_foldl
    | split

theorem keeps_dirtyChecks {K b} (a0 s) (h : Keeps K b s) : Keeps K b (dirtyChecks a0 s) := by
  unfold dirtyChecks
  repeat' with_reducible first
    | assumption | refine keeps_mk ?_ | apply keeps_dirtyDone | apply hg | intro _
    | (extract_lets +onlyGivenNames x; refine keeps_pcut (K := K) (b := b) (v := x) ?_ ?_; unfold x; clear x; rotate_left; (try clear_value x); intro hp)
    | (extract_lets +onlyGivenNames x; refine keeps_fcut (K := K) (b := b) (v := x) ?_ ?_; unfold x; clear x; rotate_left; (try clear_value x); intro hg)
    | (extract_lets +onlyGivenNames x; refine keeps_fcut2 (K := K) (b := b) (v := x) ?_ ?_; unfold x; clear x; rotate_left; (try clear_value x); intro hg)
    | (extract_lets +onlyGivenNames x; refine keeps_cut (K := K) (b := b) (v := x) ?_ ?_; unfold x; clear x; rotate_left; (try clear_value x); intro hx)
    | (extract_lets +onlyGivenNames x; (first | (have _h : Sc := x; clear _h; subst x) | (have _h : TokSt := x; clear _h; subst x) | clear_value x | subst x)) | apply keeps_ite | apply keeps_foldl
    | split

theorem keeps_settleDirty {K b} (a0 a1 s) (h : Keeps K b s) : Keeps K b (settleDirty a0 a1 s) := by
  unfold settleDirty
  repeat' with_reducible first
    | assumption | apply keeps_dirtyChecks | apply keeps_flushDirty | apply hg | intro _
    | (extract_lets +onlyGivenNames x; refine keeps_pcut (K := K) (b := b) (v := x) ?_ ?_; unfold x; clear x; rotate_left; (try clear_value x); intro hp)
    | (extract_lets +onlyGivenNames x; refine keeps_fcut (K := K) (b := b) (v := x) ?_ ?_; unfold x; clear x; rotate_left; (try clear_value x); intro hg)
    | (extract_lets +onlyGivenNames x; refine keeps_fcut2 (K := K) (b := b) (v := x) ?_ ?_; unfold x; clear x; rotate_left; (try clear_value x); intro hg)
    | (extract_lets +onlyGivenNames x; refine keeps_cut (K := K) (b := b) (v := x) ?_ ?_; unfold x; clear x; rotate_left; (try clear_value x); intro hx)
    | (extract_lets +onlyGivenNames x; (first | (have _h : Sc := x; clear _h; subst x) | (have _h : TokSt := x; clear _h; subst x) | clear_value x | subst x)) | apply keeps_ite | apply keeps_foldl
    | split

theorem keeps_deliver {K b} (a0 a1 s) (h : Keeps K b s) : Keeps K b (deliver a0 a1 s) := by
  unfold deliver
  repeat' with_reducible first
    | assumption | apply keeps_settleDirty | refine keeps_mk ?_ | refine keeps_onCq _ _ _ _ ?_ | apply keeps_onJob | apply keeps_drainCq | apply keeps_flushDirty | apply keeps_writeCompletion
    | intro _
    | (extract_lets +onlyGivenNames x; refine keeps_pcut (K := K) (b := b) (v := x) ?_ ?_; unfold x; clear x; rotate_left; (try clear_value x); intro hp)
    | (extract_lets +onlyGivenNames x; refine keeps_cut (K := K) (b := b) (v := x) ?_ ?_; unfold x; clear x; rotate_left; (try clear_value x); intro hx)
    | (extract_lets +onlyGivenNames x; (first | (have _h : Sc := x; clear _h; subst x) | (have _h : TokSt := x; clear _h; subst x) | clear_value x | subst x)) | apply keeps_ite | apply keeps_foldl
    | split

theorem keeps_failOne {K b} (a0 a1 s) (h : Keeps K b s) : Keeps K b (failOne a0 a1 s) := by
  unfold failOne
  repeat' with_reducible first | assumption | apply keeps_dropNew | apply keeps_releaseJob | apply keeps_onCtx | apply keeps_deliver | split

theorem keeps_failJob {K b} (a0 a1 s) (h : Keeps K b s) : Keeps K b (failJob a0 a1 s) := by
  unfold failJob
  repeat' with_reducible first | assumption | apply keeps_failOne | apply keeps_foldl | intro _

theorem keeps_requeueJob {K : Breaks} {b : State} (bad : List Nat) (j : Job) (s : State) (h : Keeps K b s) : Keeps K b (requeueJob bad j s) :=
  keeps_onJob _ _ _ ((keeps_freeUnits j.id _ h).to (v := wf_leave j.id _))

theorem keeps_retryJob {K b} (a0 a1 s) (h : Keeps K b s) : Keeps K b (retryJob a0 a1 s) := by
  unfold retryJob
  repeat' with_reducible first | assumption | apply keeps_failJob | apply keeps_requeueJob | apply keeps_ite | split

theorem keeps_abortJob {K b} (a0 a1 s) (h : Keeps K b s) : Keeps K b (abortJob a0 a1 s) := by
  unfold abortJob
  repeat' with_reducible first | assumption | apply keeps_failJob | apply keeps_ite | split

theorem keeps_abortJobs {K b} (a0 a1 s) (h : Keeps K b s) : Keeps K b (abortJobs a0 a1 s) := by
  unfold abortJobs
  repeat' with_reducible first | assumption | apply keeps_abortJob | apply keeps_foldl | intro _

theorem keeps_emptyPool {K b} (a0 s) (h : Keeps K b s) : Keeps K b (emptyPool a0 s) := by
  unfold emptyPool
  repeat' with_reducible first
    | assumption | refine keeps_mk ?_ | apply keeps_abortJobs | apply keeps_raiseEvent
    | (extract_lets +onlyGivenNames x; refine keeps_cut (K := K) (b := b) (v := x) ?_ ?_; unfold x; clear x; rotate_left; (try clear_value x); intro hx)
    | (extract_lets +onlyGivenNames x; (first | (have _h : Sc := x; clear _h; subst x) | (have _h : TokSt := x; clear _h; subst x) | clear_value x | subst x)) | apply keeps_ite

theorem keeps_endJob {K b} (a0 a1 a2 s) (h : Keeps K b s) : Keeps K b (endJob a0 a1 a2 s) := by
  unfold endJob
  repeat' with_reducible first
    | assumption | apply keeps_failJob | intro _
    | (extract_lets +onlyGivenNames x; refine keeps_pcut (K := K) (b := b) (v := x) ?_ ?_; unfold x; clear x; rotate_left; (try clear_value x); intro hp)
    | (extract_lets +onlyGivenNames x; refine keeps_cut (K := K) (b := b) (v := x) ?_ ?_; unfold x; clear x; rotate_left; (try clear_value x); intro hx)
    | (extract_lets +onlyGivenNames x; (first | (have _h : Sc := x; clear _h; subst x) | (have _h : TokSt := x; clear _h; subst x) | clear_value x | subst x)) | apply keeps_ite | apply keeps_foldl
    | split

theorem keeps_endStranded {K b} (s) (h : Keeps K b s) : Keeps K b (endStranded s) := by
  unfold endStranded
  repeat' with_reducible first
    | assumption | apply keeps_endJob | apply hg | intro _
    | (extract_lets +onlyGivenNames x; refine keeps_pcut (K := K) (b := b) (v := x) ?_ ?_; unfold x; clear x; rotate_left; (try clear_value x); intro hp)
    | (extract_lets +onlyGivenNames x; refine keeps_fcut (K := K) (b := b) (v := x) ?_ ?_; unfold x; clear x; rotate_left; (try clear_value x); intro hg)
    | (extract_lets +onlyGivenNames x; refine keeps_fcut2 (K := K) (b := b) (v := x) ?_ ?_; unfold x; clear x; rotate_left; (try clear_value x); intro hg)
    | (extract_lets +onlyGivenNames x; refine keeps_cut (K := K) (b := b) (v := x) ?_ ?_; unfold x; clear x; rotate_left; (try clear_value x); intro hx)
    | (extract_lets +onlyGivenNames x; (first | (have _h : Sc := x; clear _h; subst x) | (have _h : TokSt := x; clear _h; subst x) | clear_value x | subst x)) | apply keeps_ite | apply keeps_foldl
    | split

theorem keeps_fenceUnit {K b} (a0 a1 s) (h : Keeps K b s) : Keeps K b (fenceUnit a0 a1 s) := by
  unfold fenceUnit
  repeat' with_reducible first
    | assumption | apply keeps_endStranded | apply keeps_onUnit | apply keeps_setFault | apply keeps_ringEvent | apply keeps_raiseEvent | apply keeps_trace | apply keeps_retryJob
    | apply keeps_emptyPool | apply keeps_rerunAdmission | apply keeps_foldl | intro _
    | (extract_lets +onlyGivenNames x; refine keeps_cut (K := K) (b := b) (v := x) ?_ ?_; unfold x; clear x; rotate_left; (try clear_value x); intro hx)
    | (extract_lets +onlyGivenNames x; (first | (have _h : Sc := x; clear _h; subst x) | (have _h : TokSt := x; clear _h; subst x) | clear_value x | subst x)) | apply keeps_ite | split

theorem keeps_operandTileError {K b} (a0 a1 a2 a3 s) (h : Keeps K b s) : Keeps K b (operandTileError a0 a1 a2 a3 s) := by
  unfold operandTileError
  repeat' with_reducible first
    | assumption | apply keeps_faultEvent | apply keeps_onUnit | apply keeps_fenceUnit
    | (extract_lets +onlyGivenNames x; refine keeps_cut (K := K) (b := b) (v := x) ?_ ?_; unfold x; clear x; rotate_left; (try clear_value x); intro hx)
    | (extract_lets +onlyGivenNames x; (first | (have _h : Sc := x; clear _h; subst x) | (have _h : TokSt := x; clear _h; subst x) | clear_value x | subst x)) | apply keeps_ite

theorem keeps_noteMismatch {K b} (s) (h : Keeps K b s) : Keeps K b (noteMismatch s) := by
  unfold noteMismatch
  repeat' with_reducible first | assumption | refine keeps_mk ?_

theorem keeps_wrapCtx {K b} (a0 s) (h : Keeps K b s) : Keeps K b (wrapCtx a0 s) := by
  unfold wrapCtx
  repeat' with_reducible first
    | assumption | apply keeps_onCtx | refine keeps_mk ?_ | intro _
    | (extract_lets +onlyGivenNames x; refine keeps_pcut (K := K) (b := b) (v := x) ?_ ?_; unfold x; clear x; rotate_left; (try clear_value x); intro hp)
    | (extract_lets +onlyGivenNames x; refine keeps_cut (K := K) (b := b) (v := x) ?_ ?_; unfold x; clear x; rotate_left; (try clear_value x); intro hx)
    | (extract_lets +onlyGivenNames x; (first | (have _h : Sc := x; clear _h; subst x) | (have _h : TokSt := x; clear _h; subst x) | clear_value x | subst x)) | apply keeps_ite | apply keeps_foldl
    | split

theorem keeps_okOne {K b} (a0 a1 s) (h : Keeps K b s) : Keeps K b (okOne a0 a1 s) := by
  unfold okOne
  repeat' with_reducible first
    | assumption | apply keeps_onCtx | apply keeps_deliver | apply keeps_releaseJob | apply keeps_wrapCtx | intro _
    | (extract_lets +onlyGivenNames x; refine keeps_pcut (K := K) (b := b) (v := x) ?_ ?_; unfold x; clear x; rotate_left; (try clear_value x); intro hp)
    | (extract_lets +onlyGivenNames x; refine keeps_cut (K := K) (b := b) (v := x) ?_ ?_; unfold x; clear x; rotate_left; (try clear_value x); intro hx)
    | (extract_lets +onlyGivenNames x; (first | (have _h : Sc := x; clear _h; subst x) | (have _h : TokSt := x; clear _h; subst x) | clear_value x | subst x)) | apply keeps_ite | apply keeps_foldl
    | split

theorem keeps_okJob {K b} (a0 a1 s) (h : Keeps K b s) : Keeps K b (okJob a0 a1 s) := by
  unfold okJob
  repeat' with_reducible first | assumption | apply keeps_okOne | apply keeps_foldl | intro _

theorem keeps_dropJob {K b} (a0 s) (h : Keeps K b s) : Keeps K b (dropJob a0 s) := by
  unfold dropJob
  repeat' with_reducible first
    | assumption | apply keeps_settleDirty | refine keeps_onCq _ _ _ _ ?_ | refine keeps_onCq _ _ _ _ ?_ cq_returnCredit | apply keeps_onCtx | apply keeps_endEpisode | apply keeps_dropNew | apply keeps_releaseJob
    | apply keeps_releasePlace | intro _
    | (extract_lets +onlyGivenNames x; refine keeps_pcut (K := K) (b := b) (v := x) ?_ ?_; unfold x; clear x; rotate_left; (try clear_value x); intro hp)
    | (extract_lets +onlyGivenNames x; refine keeps_cut (K := K) (b := b) (v := x) ?_ ?_; unfold x; clear x; rotate_left; (try clear_value x); intro hx)
    | (extract_lets +onlyGivenNames x; (first | (have _h : Sc := x; clear _h; subst x) | (have _h : TokSt := x; clear _h; subst x) | clear_value x | subst x)) | apply keeps_ite | apply keeps_foldl
    | split

theorem keeps_fenceChannel {K b} (a0 s) (h : Keeps K b s) : Keeps K b (fenceChannel a0 s) := by
  unfold fenceChannel
  repeat' with_reducible first
    | assumption | apply keeps_rerunAdmission | refine keeps_mk ?_
    | (with_unfolding_all exact hx.to (x := all_map (fun x h => by split <;> first | exact slot_lost x h | exact h)) (g := .map (fun x => by split <;> first | exact gen_lost x | exact ⟨rfl, Nat.le_refl _⟩))) | apply keeps_setFault | apply keeps_ringEvent | apply keeps_raiseEvent | apply keeps_retryJob | apply keeps_foldl | intro _
    | (extract_lets +onlyGivenNames x; refine keeps_cut (K := K) (b := b) (v := x) ?_ ?_; unfold x; clear x; rotate_left; (try clear_value x); intro hx)
    | (extract_lets +onlyGivenNames x; (first | (have _h : Sc := x; clear _h; subst x) | (have _h : TokSt := x; clear _h; subst x) | clear_value x | subst x)) | apply keeps_ite

theorem keeps_dramError {K b} (a0 a1 a2 s) (h : Keeps K b s) : Keeps K b (dramError a0 a1 a2 s) := by
  unfold dramError
  repeat' with_reducible first
    | assumption | refine keeps_mk ?_ | apply keeps_faultEvent | apply keeps_fenceChannel
    | (extract_lets +onlyGivenNames x; refine keeps_cut (K := K) (b := b) (v := x) ?_ ?_; unfold x; clear x; rotate_left; (try clear_value x); intro hx)
    | (extract_lets +onlyGivenNames x; (first | (have _h : Sc := x; clear _h; subst x) | (have _h : TokSt := x; clear _h; subst x) | clear_value x | subst x)) | apply keeps_ite

theorem keeps_checkedOut {K b} (a0 a1 s) (h : Keeps K b s) : Keeps K b (checkedOut a0 a1 s) := by
  unfold checkedOut
  repeat' with_reducible first | assumption | apply keeps_dropNew | apply keeps_releaseJob | apply keeps_onCtx | apply keeps_deliver | split

/-! ### Machine/Ddp.lean -/

theorem keeps_onDdp {K b} (a0 a1 s) (h : Keeps K b s) : Keeps K b (onDdp a0 a1 s) := by
  unfold onDdp
  repeat' with_reducible first | assumption | apply keeps_onFn

theorem keeps_ddpLengthWrite {K b} (a0 a1 s) (h : Keeps K b s) : Keeps K b (ddpLengthWrite a0 a1 s) := by
  unfold ddpLengthWrite
  repeat' with_reducible first | assumption | apply keeps_onDdp | apply keeps_ite

theorem keeps_ddpStart {K b} (a0 a1 s) (h : Keeps K b s) : Keeps K b (ddpStart a0 a1 s) := by
  unfold ddpStart
  repeat' with_reducible first
    | assumption | apply keeps_onDdp | (extract_lets +onlyGivenNames x; (first | (have _h : Sc := x; clear _h; subst x) | (have _h : TokSt := x; clear _h; subst x) | clear_value x | subst x))
    | apply keeps_ite | split

theorem keeps_ddpRelease {K b} (a0 s) (h : Keeps K b s) : Keeps K b (ddpRelease a0 s) := by
  unfold ddpRelease
  repeat' with_reducible first | assumption | apply keeps_onDdp | apply keeps_ite

theorem keeps_ddpLastWordWrite {K b} (a0 a1 s) (h : Keeps K b s) : Keeps K b (ddpLastWordWrite a0 a1 s) := by
  unfold ddpLastWordWrite
  repeat' with_reducible first | assumption | apply keeps_onDdp | apply keeps_ite

theorem keeps_ddpDataWrite {K b} (a0 a1 s) (h : Keeps K b s) : Keeps K b (ddpDataWrite a0 a1 s) := by
  unfold ddpDataWrite
  repeat' with_reducible first | assumption | apply keeps_onDdp | apply keeps_ite

theorem keeps_execDdpStart {K b} (a0 a1 s) (h : Keeps K b s) : KeepsOut K b (execDdpStart a0 a1 s) := by
  unfold execDdpStart
  repeat' with_reducible first | assumption | apply keeps_ddpStart | apply KeepsOut.next

theorem keeps_execDdpLastWord {K b} (a0 a1 s) (h : Keeps K b s) : KeepsOut K b (execDdpLastWord a0 a1 s) := by
  unfold execDdpLastWord
  repeat' with_reducible first | assumption | apply keeps_ddpLastWordWrite | apply KeepsOut.next

theorem keeps_execDdpRelease {K b} (a0 s) (h : Keeps K b s) : KeepsOut K b (execDdpRelease a0 s) := by
  unfold execDdpRelease
  repeat' with_reducible first | assumption | apply keeps_ddpRelease | apply KeepsOut.next

theorem keeps_execDdpLastLength {K b} (a0 a1 s) (h : Keeps K b s) : KeepsOut K b (execDdpLastLength a0 a1 s) := by
  unfold execDdpLastLength
  repeat' with_reducible first | assumption | apply keeps_ddpLengthWrite | apply KeepsOut.next

theorem keeps_execDdpData {K b} (a0 a1 s) (h : Keeps K b s) : KeepsOut K b (execDdpData a0 a1 s) := by
  unfold execDdpData
  repeat' with_reducible first | assumption | apply keeps_ddpDataWrite | apply KeepsOut.next

theorem keeps_ddpFinish {K b} (a0 a1 s) (h : Keeps K b s) : Keeps K b (ddpFinish a0 a1 s) := by
  unfold ddpFinish
  repeat' with_reducible first
    | assumption | apply keeps_noteMismatch | apply keeps_faultEvent | apply keeps_onDdp
    | (extract_lets +onlyGivenNames x; (first | (have _h : Sc := x; clear _h; subst x) | (have _h : TokSt := x; clear _h; subst x) | clear_value x | subst x)) | apply keeps_ite

theorem keeps_execDdpDone {K b} (a0 a1 s) (h : Keeps K b s) : KeepsOut K b (execDdpDone a0 a1 s) := by
  unfold execDdpDone
  repeat' with_reducible first | assumption | apply keeps_ddpFinish | apply KeepsOut.next

/-! ### Machine/Queues.lean -/

theorem keeps_stopEvent {K b} (a0 a1 a2 a3 a4 s) (h : Keeps K b s) : Keeps K b (stopEvent a0 a1 a2 a3 a4 s) := by
  unfold stopEvent
  repeat' with_reducible first | assumption | apply keeps_ringEvent | apply keeps_ite

theorem keeps_stopSq {K b} (a0 a1 a2 a3 s) (h : Keeps K b s) : Keeps K b (stopSq a0 a1 a2 a3 s) := by
  unfold stopSq
  repeat' with_reducible first | assumption | apply keeps_stopEvent | refine keeps_onSq _ _ _ _ ?_ | apply keeps_ite | split

theorem keeps_stopCq {K b} (a0 a1 a2 a3 s) (h : Keeps K b s) : Keeps K b (stopCq a0 a1 a2 a3 s) := by
  unfold stopCq
  repeat' with_reducible first
    | assumption | apply keeps_stopEvent | refine keeps_onCq _ _ _ _ ?_ | apply keeps_stopSq | apply keeps_foldl | intro _
    | (extract_lets +onlyGivenNames x; refine keeps_cut (K := K) (b := b) (v := x) ?_ ?_; unfold x; clear x; rotate_left; (try clear_value x); intro hx) | apply keeps_ite
    | split

theorem keeps_onAer {K b} (a0 a1 s) (h : Keeps K b s) : Keeps K b (onAer a0 a1 s) := by
  unfold onAer
  repeat' with_reducible first
    | assumption | apply keeps_onFn | intro _
    | (extract_lets +onlyGivenNames x; refine keeps_pcut (K := K) (b := b) (v := x) ?_ ?_; unfold x; clear x; rotate_left; (try clear_value x); intro hp)
    | (extract_lets +onlyGivenNames x; refine keeps_cut (K := K) (b := b) (v := x) ?_ ?_; unfold x; clear x; rotate_left; (try clear_value x); intro hx)
    | (extract_lets +onlyGivenNames x; (first | (have _h : Sc := x; clear _h; subst x) | (have _h : TokSt := x; clear _h; subst x) | clear_value x | subst x)) | apply keeps_ite | apply keeps_foldl
    | split

theorem keeps_aerCorrected {K b} (a0 a1 s) (h : Keeps K b s) : Keeps K b (aerCorrected a0 a1 s) := by
  unfold aerCorrected
  repeat' with_reducible first
    | assumption | apply keeps_onAer | intro _
    | (extract_lets +onlyGivenNames x; refine keeps_pcut (K := K) (b := b) (v := x) ?_ ?_; unfold x; clear x; rotate_left; (try clear_value x); intro hp)
    | (extract_lets +onlyGivenNames x; refine keeps_cut (K := K) (b := b) (v := x) ?_ ?_; unfold x; clear x; rotate_left; (try clear_value x); intro hx)
    | (extract_lets +onlyGivenNames x; (first | (have _h : Sc := x; clear _h; subst x) | (have _h : TokSt := x; clear _h; subst x) | clear_value x | subst x)) | apply keeps_ite | apply keeps_foldl
    | split

theorem keeps_aerFatal {K b} (a0 a1 s) (h : Keeps K b s) : Keeps K b (aerFatal a0 a1 s) := by
  unfold aerFatal
  repeat' with_reducible first
    | assumption | apply keeps_onAer | intro _
    | (extract_lets +onlyGivenNames x; refine keeps_pcut (K := K) (b := b) (v := x) ?_ ?_; unfold x; clear x; rotate_left; (try clear_value x); intro hp)
    | (extract_lets +onlyGivenNames x; refine keeps_cut (K := K) (b := b) (v := x) ?_ ?_; unfold x; clear x; rotate_left; (try clear_value x); intro hx)
    | (extract_lets +onlyGivenNames x; (first | (have _h : Sc := x; clear _h; subst x) | (have _h : TokSt := x; clear _h; subst x) | clear_value x | subst x)) | apply keeps_ite | apply keeps_foldl
    | split

theorem keeps_answerUr {K b} (a0 s) (h : Keeps K b s) : Keeps K b (answerUr a0 s) := by
  unfold answerUr
  repeat' with_reducible first
    | assumption | apply keeps_aerCorrected | apply keeps_aerFatal | apply keeps_emit | intro _
    | (extract_lets +onlyGivenNames x; refine keeps_pcut (K := K) (b := b) (v := x) ?_ ?_; unfold x; clear x; rotate_left; (try clear_value x); intro hp)
    | (extract_lets +onlyGivenNames x; refine keeps_cut (K := K) (b := b) (v := x) ?_ ?_; unfold x; clear x; rotate_left; (try clear_value x); intro hx)
    | (extract_lets +onlyGivenNames x; (first | (have _h : Sc := x; clear _h; subst x) | (have _h : TokSt := x; clear _h; subst x) | clear_value x | subst x)) | apply keeps_ite | apply keeps_foldl
    | split

theorem keeps_answerRead {K b} (a0 a1 s) (h : Keeps K b s) : Keeps K b (answerRead a0 a1 s) := by
  unfold answerRead
  repeat' with_reducible first
    | assumption | apply keeps_answerUr | apply keeps_emit | intro _
    | (extract_lets +onlyGivenNames x; refine keeps_pcut (K := K) (b := b) (v := x) ?_ ?_; unfold x; clear x; rotate_left; (try clear_value x); intro hp)
    | (extract_lets +onlyGivenNames x; refine keeps_cut (K := K) (b := b) (v := x) ?_ ?_; unfold x; clear x; rotate_left; (try clear_value x); intro hx)
    | (extract_lets +onlyGivenNames x; (first | (have _h : Sc := x; clear _h; subst x) | (have _h : TokSt := x; clear _h; subst x) | clear_value x | subst x)) | apply keeps_ite | apply keeps_foldl
    | split

theorem keeps_aqSizeWrite {K b} (a0 a1 s) (h : Keeps K b s) : Keeps K b (aqSizeWrite a0 a1 s) := by
  unfold aqSizeWrite
  split
  · exact h
  · refine keeps_ite h (keeps_ite (keeps_onFn _ _ _ h) (keeps_ite h ?_))
    split
    · exact keeps_onFn _ _ _ h
    · rename_i x _ bad
      simp only [Bool.not_eq_true, Bool.or_eq_false_iff, Bool.not_eq_false'] at bad
      have lo : ∀ n, adminLog2Ok n = true → n ≤ 16 := fun n e => by
        simp only [adminLog2Ok, Bool.and_eq_true, decide_eq_true_eq] at e
        omega
      refine h.to (r := fun r => ⟨all_append r.1 ?_, all_append r.2 ?_⟩) <;>
        (intro q hq; rw [List.mem_singleton.1 hq])
      · exact ⟨.empty (lo _ bad.1.1.1), idxDist_self.symm⟩
      · exact .empty (lo _ bad.1.1.2)

theorem keeps_execAqEnable {K b} (a0 a1 s) (h : Keeps K b s) : KeepsOut K b (execAqEnable a0 a1 s) := by
  unfold execAqEnable
  repeat' with_reducible first | assumption | apply keeps_aqSizeWrite | apply KeepsOut.next

theorem keeps_evrHeadWrite {K b} (a0 a1 s) (h : Keeps K b s) : Keeps K b (evrHeadWrite a0 a1 s) := by
  unfold evrHeadWrite
  repeat' with_reducible first
    | assumption | apply keeps_onFn | (extract_lets +onlyGivenNames x; (first | (have _h : Sc := x; clear _h; subst x) | (have _h : TokSt := x; clear _h; subst x) | clear_value x | subst x))
    | apply keeps_ite | split

theorem keeps_cqHeadRule {K b} (a0 a1 a2 s) (h : Keeps K b s) : Keeps K b (cqHeadRule a0 a1 a2 s) := by
  unfold cqHeadRule
  split
  · exact h
  · rename_i c hc
    refine keeps_ite h ?_
    split
    · exact keeps_stopCq _ _ _ _ _ h
    · rename_i lo
      split
      · exact keeps_stopCq _ _ _ _ _ h
      · rename_i far
        exact keeps_drainCq _ _ _ (keeps_onCq_of _ _ _ h fun d hd ok => by
          rw [hc] at hd
          cases hd
          exact RingOk.head ok (Nat.lt_of_not_le lo) (Nat.le_of_not_lt far))

theorem keeps_sqTailRule {K b} (a0 a1 a2 s) (h : Keeps K b s) : Keeps K b (sqTailRule a0 a1 a2 s) := by
  unfold sqTailRule
  split
  · exact h
  · rename_i x hx
    refine keeps_ite h ?_
    split
    · exact keeps_stopSq _ _ _ _ _ h
    · rename_i lo
      split
      · exact keeps_stopSq _ _ _ _ _ h
      · rename_i far
        split
        · exact keeps_stopSq _ _ _ _ _ h
        · rename_i fwd
          exact keeps_onSq_of _ _ _ h fun d hd ok => by
            rw [hx] at hd
            cases hd
            obtain ⟨r, e⟩ := RingOk.tail ok.1 (Nat.lt_of_not_le lo) (Nat.le_of_not_lt far) (Nat.le_of_not_lt fwd)
            exact ⟨r, by rw [List.length_append, List.length_replicate, ok.2]; exact e.symm⟩

theorem keeps_doorbellWrite {K b} (a0 a1 s) (h : Keeps K b s) : Keeps K b (doorbellWrite a0 a1 s) := by
  unfold doorbellWrite
  repeat' with_reducible first | assumption | apply keeps_cqHeadRule | apply keeps_sqTailRule | apply keeps_ite | split

theorem keeps_cqTimer {K b} (a0 a1 s) (h : Keeps K b s) : Keeps K b (cqTimer a0 a1 s) := by
  unfold cqTimer
  repeat' with_reducible first | assumption | apply keeps_signalCq | apply keeps_ite | split

theorem keeps_execCqInterruptTimer {K b} (a0 a1 s) (h : Keeps K b s) : KeepsOut K b (execCqInterruptTimer a0 a1 s) := by
  unfold execCqInterruptTimer
  repeat' with_reducible first | assumption | apply keeps_cqTimer | apply KeepsOut.next

theorem keeps_execSqTailDoorbell {K b} (a0 s) (h : Keeps K b s) : KeepsOut K b (execSqTailDoorbell a0 s) := by
  unfold execSqTailDoorbell
  repeat' with_reducible first | assumption | apply keeps_doorbellWrite | apply KeepsOut.next

theorem keeps_evrDroppedRead {K b} (a0 s) (h : Keeps K b s) : Keeps K b (evrDroppedRead a0 s) := by
  unfold evrDroppedRead
  repeat' with_reducible first
    | assumption | apply keeps_answerRead | apply keeps_onFn
    | (extract_lets +onlyGivenNames x; refine keeps_cut (K := K) (b := b) (v := x) ?_ ?_; unfold x; clear x; rotate_left; (try clear_value x); intro hx) | apply keeps_ite

theorem keeps_execEvrHead {K b} (a0 a1 s) (h : Keeps K b s) : KeepsOut K b (execEvrHead a0 a1 s) := by
  unfold execEvrHead
  repeat' with_reducible first | assumption | apply keeps_evrHeadWrite | apply KeepsOut.next

theorem keeps_execCqHeadDoorbell {K b} (a0 s) (h : Keeps K b s) : KeepsOut K b (execCqHeadDoorbell a0 s) := by
  unfold execCqHeadDoorbell
  repeat' with_reducible first | assumption | apply keeps_doorbellWrite | apply KeepsOut.next

theorem keeps_execEvrDroppedRead {K b} (a0 s) (h : Keeps K b s) : KeepsOut K b (execEvrDroppedRead a0 s) := by
  unfold execEvrDroppedRead
  repeat' with_reducible first | assumption | apply keeps_evrDroppedRead | apply KeepsOut.next

/-! ### Machine/Slots.lean -/

theorem keeps_dropDdp {K b} (a0 s) (h : Keeps K b s) : Keeps K b (dropDdp a0 s) := by
  unfold dropDdp
  repeat' with_reducible first | assumption | refine keeps_mk ?_

theorem keeps_endKeyCtxs {K b} (a0 s) (h : Keeps K b s) : Keeps K b (endKeyCtxs a0 s) := by
  unfold endKeyCtxs
  repeat' with_reducible first | assumption | refine keeps_mk ?_

theorem keeps_retireSlot {K b} (a0 s) (h : Keeps K b s) : Keeps K b (retireSlot a0 s) := by
  unfold retireSlot
  split
  · exact h
  · exact keeps_ite h (keeps_onSlot _ _ _ (keeps_dropDdp _ _ (keeps_endKeyCtxs _ _ h)) (fun _ _ e => nomatch e) fun x => ⟨rfl, le_genUp _⟩)

theorem keeps_endEraseWaits {K b} (s) (h : Keeps K b s) : Keeps K b (endEraseWaits s) := by
  unfold endEraseWaits
  repeat' with_reducible first | assumption | refine keeps_mk ?_ | apply keeps_adminDone | apply keeps_foldl | intro _

theorem keeps_endEraseJobs {K b} (a0 s) (h : Keeps K b s) : Keeps K b (endEraseJobs a0 s) := by
  unfold endEraseJobs
  repeat' with_reducible first | assumption | apply keeps_okJob | apply keeps_foldl | intro _

theorem keeps_zeroSlot {K b} (a0 s) (h : Keeps K b s) : Keeps K b (zeroSlot a0 s) := by
  unfold zeroSlot
  split
  · exact h
  · exact (keeps_onSlot _ _ _ h slot_free gen_free).to

theorem keeps_finishRetire {K b} (a0 s) (h : Keeps K b s) : Keeps K b (finishRetire a0 s) := by
  unfold finishRetire
  repeat' with_reducible first | assumption | apply keeps_endEraseWaits | apply keeps_endEraseJobs | apply keeps_zeroSlot

theorem keeps_eraseSlot {K b} (a0 a1 s) (h : Keeps K b s) : Keeps K b (eraseSlot a0 a1 s).2.2 := by
  unfold eraseSlot
  repeat' with_reducible first
    | assumption | apply keeps_retireSlot | apply keeps_finishRetire | apply keeps_abortJob | apply keeps_foldl | intro _
    | (extract_lets +onlyGivenNames x; refine keeps_cut (K := K) (b := b) (v := x) ?_ ?_; unfold x; clear x; rotate_left; (try clear_value x); intro hx)
    | (extract_lets +onlyGivenNames x; (first | (have _h : Sc := x; clear _h; subst x) | (have _h : TokSt := x; clear _h; subst x) | clear_value x | subst x)) | split

theorem keeps_slotRetired {K b} (a0 s) (h : Keeps K b s) : Keeps K b (slotRetired a0 s) := by
  unfold slotRetired
  repeat' with_reducible first | assumption | apply keeps_finishRetire | apply keeps_ite | split

theorem keeps_execSlotRetired {K b} (a0 s) (h : Keeps K b s) : KeepsOut K b (execSlotRetired a0 s) := by
  unfold execSlotRetired
  repeat' with_reducible first | assumption | apply keeps_slotRetired | apply KeepsOut.next

/-! ### Machine/Vector.lean -/

theorem keeps_putCluster {K : Breaks} {b : State} (c : Nat) (cl : Cluster) (s : State) (h : Keeps K b s) (hc : VccOk b.vcc → Memory.wf cl.tiles = true) :
    Keeps K b (putCluster c cl s) :=
  { h with tiles := fun hb => VccOk.modAt c (fun _ _ => hc hb) (h.tiles hb) }

theorem keeps_haltAgain {K b} (a0 a1 s) (h : Keeps K b s) : Keeps K b (haltAgain a0 a1 s) := by
  unfold haltAgain
  repeat' with_reducible first
    | assumption | refine keeps_mk ?_ | (extract_lets +onlyGivenNames x; (first | (have _h : Sc := x; clear _h; subst x) | (have _h : TokSt := x; clear _h; subst x) | clear_value x | subst x))
    | apply keeps_ite

theorem keeps_peerCopy {K : Breaks} {b : State} (job : Nat) (p : Nat × Nat × Bytes × List Nat) (s : State) (h : Keeps K b s) : Keeps K b (peerCopy job p s) := by
  refine h.to (v := fun hb => VccOk.modAt p.1 (fun k hk => ?_) hb)
  split
  · exact hk
  · exact wf_storeView hk

theorem keeps_endFaulted {K b} (a0 s) (h : Keeps K b s) : Keeps K b (endFaulted a0 s) := by
  unfold endFaulted
  repeat' with_reducible first
    | assumption | apply keeps_endJob | intro _
    | (extract_lets +onlyGivenNames x; refine keeps_pcut (K := K) (b := b) (v := x) ?_ ?_; unfold x; clear x; rotate_left; (try clear_value x); intro hp)
    | (extract_lets +onlyGivenNames x; refine keeps_cut (K := K) (b := b) (v := x) ?_ ?_; unfold x; clear x; rotate_left; (try clear_value x); intro hx)
    | (extract_lets +onlyGivenNames x; (first | (have _h : Sc := x; clear _h; subst x) | (have _h : TokSt := x; clear _h; subst x) | clear_value x | subst x)) | apply keeps_ite | apply keeps_foldl
    | split

theorem keeps_selfFault {K b} (a0 a1 s) (h : Keeps K b s) : Keeps K b (selfFault a0 a1 s) := by
  unfold selfFault
  repeat' with_reducible first | assumption | apply keeps_fenceUnit | apply keeps_noteMismatch | apply keeps_faultEvent

theorem keeps_kernelDefect {K b} (a0 a1 a2 a3 s) (h : Keeps K b s) : Keeps K b (kernelDefect a0 a1 a2 a3 s) := by
  unfold kernelDefect
  repeat' with_reducible first | assumption | apply keeps_endFaulted | apply keeps_faultEvent

theorem keeps_takeTrap {K : Breaks} {b : State} (c : Nat) (j : Job) (x : VccIn) (o : VOut) (k : TrapKind) (e t : Nat) (s : State) (h : Keeps K b s)
    (ho : VccOk b.vcc → Memory.wf o.cl.tiles = true) : Keeps K b (takeTrap c j x o k e t s) := by
  unfold takeTrap
  split
  · extract_lets +onlyGivenNames y
    have hy : Keeps K b y := keeps_faultEvent _ _ _ _ _ _ h
    clear_value y
    split
    · exact keeps_fenceUnit _ _ _ hy
    · exact keeps_putCluster _ _ _ hy ho
  · exact keeps_endFaulted _ _ (keeps_operandTileError _ _ _ _ _ h)
  · exact keeps_selfFault _ _ _ h
  · exact keeps_kernelDefect _ _ _ _ _ h

theorem keeps_drawSeed {K b} (a0 s) (h : Keeps K b s) : Keeps K b (drawSeed a0 s).2 := by
  unfold drawSeed
  repeat' with_reducible first
    | assumption | refine keeps_mk ?_ 
    | (extract_lets +onlyGivenNames x; refine keeps_pcut (K := K) (b := b) (v := x) ?_ ?_; unfold x; clear x; rotate_left; (try clear_value x); intro hp)
    | (extract_lets +onlyGivenNames x; (first | (have _h : Sc := x; clear _h; subst x) | (have _h : TokSt := x; clear _h; subst x) | clear_value x | subst x))
    | split | (apply keeps_snd; assumption)

theorem keeps_reseedMask {K b} (u : Nat) (s : State) (h : Keeps K b s) : Keeps K b (reseedMask u s) := by
  unfold reseedMask
  apply keeps_onUnit
  split
  · exact keeps_drawSeed _ _ h
  · exact h

theorem keeps_drawMask {K b} (c bits : Nat) (s : State) (h : Keeps K b s) : Keeps K b (drawMask c bits s) := by
  unfold drawMask
  have hu := keeps_onUnit s (vccId c) (fun (x : UnitSt) => { x with maskBlocks := x.maskBlocks + ceilDiv bits 256 }) h
  exact keeps_ite h (keeps_ite (keeps_reseedMask _ _ hu) hu)

theorem keeps_endInstr {K : Breaks} {b : State} (c : Nat) (j : Job) (x : VccIn) (o : VOut) (s : State) (h : Keeps K b s)
    (ho : VccOk b.vcc → Memory.wf o.cl.tiles = true) : Keeps K b (endInstr c j x o s) := by
  unfold endInstr
  have h := keeps_drawMask c o.mask s h
  generalize drawMask c o.mask s = s at h ⊢
  have hf : Keeps K b { s with free := o.free } := h.to
  have hm : ∀ pc : Nat, Keeps K b (haltAgain c j (match o.peer with
      | some p => peerCopy j.id p (putCluster c (o.cl.stepTo pc) { s with free := o.free })
      | none => putCluster c (o.cl.stepTo pc) { s with free := o.free })) := by
    intro pc
    apply keeps_haltAgain
    have hp := keeps_putCluster c (o.cl.stepTo pc) _ hf ho
    split
    · exact keeps_peerCopy _ _ _ hp
    · exact hp
  dsimp only
  split
  · exact hm _
  · exact hm _
  · exact keeps_takeTrap _ _ _ _ _ _ _ _ hf ho
  · exact h
  · exact h

theorem wf_vccReady {c : Nat} {s : State} {cl : Cluster} {r : Resid} {j : Job} (e : vccReady c s = some (cl, r, j)) (h : VccOk s.vcc) :
    Memory.wf cl.tiles = true := by
  unfold vccReady at e
  split at e
  · cases e
  · rename_i k hk
    repeat' first
      | cases e
      | (split at e)
    exact h.2 _ (List.mem_of_getElem? hk)

theorem keeps_vccRun {K : Breaks} {b : State} (a0 : Nat) (a1 : VccIn → Bool) (a2 : VccIn → VOut) (s : State)
    (h2 : ∀ x : VccIn, Memory.wf x.cl.tiles = true → Memory.wf (a2 x).cl.tiles = true) (h : Keeps K b s) : Keeps K b (vccRun a0 a1 a2 s) := by
  unfold vccRun
  split
  · exact h
  · rename_i cl r j e
    dsimp only
    split
    · exact keeps_failJob _ _ _ h
    · exact keeps_endInstr _ _ _ _ _ h (fun hb => h2 _ (wf_vccReady e (h.tiles hb)))

theorem keeps_onWord {K : Breaks} {b : State} (c : Nat) (i : CodeWord) (f : State → State) (s : State) (hf : ∀ v, Keeps K b v → Keeps K b (f v)) (h : Keeps K b s) :
    Keeps K b (onWord c i f s) := by
  unfold onWord
  exact keeps_ite (hf s h) h

theorem keeps_vccPlain {K : Breaks} {b : State} (a0 : Nat) (a1 : VccIn → VOut) (s : State) (h1 : ∀ x : VccIn, Memory.wf x.cl.tiles = true → Memory.wf (a1 x).cl.tiles = true) (h : Keeps K b s) :
    Keeps K b (vccPlain a0 a1 s) := by
  unfold vccPlain
  repeat' with_reducible first | assumption | apply keeps_vccRun

theorem keeps_vccRandom {K : Breaks} {b : State} (a0 : Nat) (a1 : VccIn → VOut) (s : State) (h1 : ∀ x : VccIn, Memory.wf x.cl.tiles = true → Memory.wf (a1 x).cl.tiles = true) (h : Keeps K b s) :
    Keeps K b (vccRandom a0 a1 s) := by
  unfold vccRandom
  repeat' with_reducible first | assumption | apply keeps_vccRun

end Sys2Proof.Machine
end

