-- ==== Sys2Proof/Laws/KeepRun.lean ====
section
/-!
SUPPORT. What a command keeps (Laws/Keeps.lean), for the Orrery, runs of jobs, resets, links, the token ledger, the admin queue.
-/
namespace Sys2Proof.Machine
set_option Elab.async false -- the package as one text has more theorems than threads

/-! ### Machine/AdminBase.lean -/

theorem keeps_aFail {K b} (a0 a1)  : KeepsRes K b (aFail a0 a1) := by
  unfold aFail
  repeat' with_reducible first | apply KeepsRes.fail

theorem keeps_toBuf {K : Breaks} {b : State} (a0 : AdminIn) (a1 : Bytes) (a2 : Bytes) (a3 : State → AdminRes) (s : State) (h3 : ∀ v0, Keeps K b v0 → KeepsRes K b (a3 v0)) (h : Keeps K b s) :
    KeepsRes K b (toBuf a0 a1 a2 a3 s) := by
  unfold toBuf
  repeat' with_reducible first | assumption | apply h3 | apply keeps_aFail | apply keeps_writeOut | split | apply KeepsRes.fail

theorem keeps_aBad {K b} (a0)  : KeepsRes K b (aBad a0) := by
  unfold aBad
  repeat' with_reducible first | apply KeepsRes.fail

theorem keeps_adminFinish {K : Breaks} {b : State} (f : Fn) (tag : Nat) (s : State) (r : AdminRes) (hr : KeepsRes K b r) (h : Keeps K b s) : Keeps K b (adminFinish f tag s r) := by
  cases r with
  | ok n i t => unfold adminFinish; exact keeps_writeCompletion _ _ _ _ _ _ hr
  | fail st d n => unfold adminFinish; exact keeps_writeCompletion _ _ _ _ _ _ h
  | wait w t => exact Keeps.to hr

theorem keeps_aChecks {K : Breaks} {b : State} (l : List (Bool × AdminRes)) (k : Unit → AdminRes) (hl : AllRes K b l) (hk : ∀ v, KeepsRes K b (k v)) : KeepsRes K b (aChecks l k) := by
  induction l with
  | nil => exact hk ()
  | cons p r ih =>
    unfold aChecks
    split
    · exact hl p (List.mem_cons_self ..)
    · exact ih (fun q hq => hl q (List.mem_cons_of_mem _ hq))

/-- The checks of a command, and what it does once each has passed. -/
theorem keeps_aChecks_of {K : Breaks} {b : State} (l : List (Bool × AdminRes)) (k : Unit → AdminRes) (hl : AllRes K b l)
    (hk : (∀ p ∈ l, p.1 = false) → KeepsRes K b (k ())) : KeepsRes K b (aChecks l k) := by
  induction l with
  | nil => exact hk (fun _ h => nomatch h)
  | cons p r ih =>
    unfold aChecks
    split
    · exact hl p (List.mem_cons_self ..)
    · rename_i e
      refine ih (fun q hq => hl q (List.mem_cons_of_mem _ hq)) fun hr => hk fun q hq => ?_
      rcases List.mem_cons.1 hq with rfl | hq
      · exact Bool.eq_false_iff.2 e
      · exact hr q hq

theorem keeps_adminGate {K : Breaks} {b : State} (s : State) (a1 : Fn) (a2 : Bytes) (a3 : Unit → AdminRes) (h3 : ∀ v0, KeepsRes K b (a3 v0)) (h : Keeps K b s) :
    KeepsRes K b (adminGate s a1 a2 a3) := by
  unfold adminGate
  repeat' with_reducible first | assumption | apply keeps_aChecks | apply keeps_aBad | apply keeps_aFail | exact AllRes.nil | apply AllRes.cons

theorem keeps_unknownSub {K b} (a0)  : KeepsRes K b (unknownSub a0) := by
  unfold unknownSub
  repeat' with_reducible first | apply keeps_aBad | split

theorem keeps_postRead {K b} (a0 a1 a2 s) (h : Keeps K b s) : Keeps K b (postRead a0 a1 a2 s) := by
  unfold postRead
  repeat' with_reducible first
    | assumption | apply keeps_sendAsk | apply keeps_emit | apply keeps_translate | intro _
    | (extract_lets +onlyGivenNames x; refine keeps_pcut (K := K) (b := b) (v := x) ?_ ?_; unfold x; clear x; rotate_left; (try clear_value x); intro hp)
    | (extract_lets +onlyGivenNames x; refine keeps_cut (K := K) (b := b) (v := x) ?_ ?_; unfold x; clear x; rotate_left; (try clear_value x); intro hx)
    | (extract_lets +onlyGivenNames x; (first | (have _h : Sc := x; clear _h; subst x) | (have _h : TokSt := x; clear _h; subst x) | clear_value x | subst x)) | apply keeps_ite | apply keeps_foldl
    | split

theorem keeps_fetchRead {K b} (a0 a1 s) (h : Keeps K b s) : Keeps K b (fetchRead a0 a1 s) := by
  unfold fetchRead
  repeat' with_reducible first
    | assumption | apply keeps_postRead | intro _
    | (extract_lets +onlyGivenNames x; refine keeps_pcut (K := K) (b := b) (v := x) ?_ ?_; unfold x; clear x; rotate_left; (try clear_value x); intro hp)
    | (extract_lets +onlyGivenNames x; refine keeps_cut (K := K) (b := b) (v := x) ?_ ?_; unfold x; clear x; rotate_left; (try clear_value x); intro hx)
    | (extract_lets +onlyGivenNames x; (first | (have _h : Sc := x; clear _h; subst x) | (have _h : TokSt := x; clear _h; subst x) | clear_value x | subst x)) | apply keeps_ite | apply keeps_foldl
    | split

theorem keeps_bufRead {K b} (a0 a1 s) (h : Keeps K b s) : Keeps K b (bufRead a0 a1 s) := by
  unfold bufRead
  repeat' with_reducible first
    | assumption | apply keeps_postRead | apply hg | intro _
    | (extract_lets +onlyGivenNames x; refine keeps_pcut (K := K) (b := b) (v := x) ?_ ?_; unfold x; clear x; rotate_left; (try clear_value x); intro hp)
    | (extract_lets +onlyGivenNames x; refine keeps_fcut (K := K) (b := b) (v := x) ?_ ?_; unfold x; clear x; rotate_left; (try clear_value x); intro hg)
    | (extract_lets +onlyGivenNames x; refine keeps_fcut2 (K := K) (b := b) (v := x) ?_ ?_; unfold x; clear x; rotate_left; (try clear_value x); intro hg)
    | (extract_lets +onlyGivenNames x; refine keeps_cut (K := K) (b := b) (v := x) ?_ ?_; unfold x; clear x; rotate_left; (try clear_value x); intro hx)
    | (extract_lets +onlyGivenNames x; (first | (have _h : Sc := x; clear _h; subst x) | (have _h : TokSt := x; clear _h; subst x) | clear_value x | subst x)) | apply keeps_ite | apply keeps_foldl
    | split

theorem keeps_adminRun {K : Breaks} {b : State} (a0 : Nat) (a1 : Bytes → AdminIn → State → AdminRes) (a2 : AdminIn) (s : State) (h1 : ∀ v0 v1 v2, Keeps K b v2 → KeepsRes K b (a1 v0 v1 v2)) (h : Keeps K b s) :
    Keeps K b (adminRun a0 a1 a2 s) := by
  unfold adminRun
  repeat' with_reducible first
    | assumption | apply keeps_bufRead | apply h1 | apply keeps_fetchRead | apply keeps_stopSq | refine keeps_onSq _ _ _ _ ?_ (by with_unfolding_all exact fun _ h => SqOk.pass h) | apply keeps_adminFinish | apply keeps_adminGate | apply keeps_unknownSub | intro _
    | (extract_lets +onlyGivenNames x; refine keeps_cut (K := K) (b := b) (v := x) ?_ ?_; unfold x; clear x; rotate_left; (try clear_value x); intro hx)
    | (extract_lets +onlyGivenNames x; (first | (have _h : Sc := x; clear _h; subst x) | (have _h : TokSt := x; clear _h; subst x) | clear_value x | subst x)) | apply keeps_ite | split

/-! ### Machine/Orrery.lean -/

/-- A change of one stateful key, shown of the key that it finds. -/
theorem keeps_onStateful_of {K b} (d i g s) (h : Keeps K b s)
    (hg : ∀ t k, s.tok.socket = some t → t.stateful.find? (fun k => k.domain == d && k.index == i) = some k → (LeafOk k → LeafOk (g k)) ∧ LaterKey k (g k)) :
    Keeps K b (onStateful d i g s) := by
  refine h.to (l := ?_) (n := .of _ rfl ?_)
  · intro hl u hu k hk
    obtain ⟨t, ht, rfl⟩ := Option.map_eq_some_iff.1 hu
    rcases mem_modFirst hk with m | ⟨x, hx, rfl⟩
    · exact hl t ht k m
    · exact (hg t x ht hx).1 (hl t ht x (List.mem_of_find?_eq_some hx))
  · intro t ht k hk
    rcases mem_modFirst hk with m | ⟨x, hx, rfl⟩
    · exact ⟨k, m, .refl k⟩
    · exact ⟨x, List.mem_of_find?_eq_some hx, (hg t x ht hx).2⟩
theorem keeps_onStateful {K b} (d i g s) (h : Keeps K b s) (h1 : ∀ k, LeafOk k → LeafOk (g k) := by with_unfolding_all exact fun _ h => h)
    (h2 : ∀ k, LaterKey k (g k) := by with_unfolding_all exact fun _ => ⟨rfl, rfl, rfl, rfl, Nat.le_refl _, Nat.le_refl _⟩) : Keeps K b (onStateful d i g s) :=
  keeps_onStateful_of d i g s h fun _ k _ _ => ⟨h1 k, h2 k⟩

theorem keeps_noteLow {K b} (a0 a1 s) (h : Keeps K b s) : Keeps K b (noteLow a0 a1 s) := by
  unfold noteLow
  repeat' with_reducible first
    | assumption | apply keeps_raiseEvent | refine keeps_onStateful _ _ _ _ ?_
    | (extract_lets +onlyGivenNames x; (first | (have _h : Sc := x; clear _h; subst x) | (have _h : TokSt := x; clear _h; subst x) | clear_value x | subst x)) | apply keeps_ite | split

theorem keeps_showActivity {K b} (s) (h : Keeps K b s) : Keeps K b (showActivity s) := by
  unfold showActivity
  repeat' with_reducible first | assumption | refine keeps_mk ?_

theorem keeps_noteDispatch {K b} (a0 a1 a2 s) (h : Keeps K b s) : Keeps K b (noteDispatch a0 a1 a2 s) := by
  unfold noteDispatch
  repeat' with_reducible first
    | assumption | refine keeps_mk ?_ | apply keeps_trace | apply keeps_showActivity
    | (extract_lets +onlyGivenNames x; refine keeps_cut (K := K) (b := b) (v := x) ?_ ?_; unfold x; clear x; rotate_left; (try clear_value x); intro hx)
    | (extract_lets +onlyGivenNames x; (first | (have _h : Sc := x; clear _h; subst x) | (have _h : TokSt := x; clear _h; subst x) | clear_value x | subst x)) | apply keeps_ite

theorem keeps_splitShares {K : Breaks} {b : State} (n : Nat) (x : Bytes) (s : State) (h : Keeps K b s) : Keeps K b (splitShares n x s).2 := by
  have key : ∀ (l : List Nat) (a : List Bytes × State), Keeps K b a.2 →
      Keeps K b (l.foldl (fun (acc : List Bytes × State) _ => ((acc.1 ++ [(drawBytes x.length acc.2).1], (drawBytes x.length acc.2).2) : List Bytes × State)) a).2 := by
    intro l
    induction l with
    | nil => intro a ha; exact ha
    | cons y l ih => intro a ha; exact ih _ (keeps_drawBytes _ _ ha)
  exact key _ _ h

theorem keeps_completeFailed {K b} (a0 a1 s) (h : Keeps K b s) : Keeps K b (completeFailed a0 a1 s) := by
  unfold completeFailed
  repeat' with_reducible first | assumption | apply keeps_deliver | apply keeps_onJob | apply keeps_ite | split

theorem keeps_reserveCtx {K b} (a0 a1 s) (h : Keeps K b s) : Keeps K b (reserveCtx a0 a1 s) := by
  unfold reserveCtx
  repeat' with_reducible first | assumption | refine keeps_mk ?_ | apply keeps_onCtx | apply keeps_onJob | split

def KeepsStage (K : Breaks) (b : State) : Staging → Prop
  | .took t => Keeps K b t
  | _ => True

theorem KeepsStage.wait {K : Breaks} {b : State} : KeepsStage K b .wait := trivial

theorem KeepsStage.fail {K : Breaks} {b : State} {st} : KeepsStage K b (.fail st) := trivial

theorem KeepsStage.took {K : Breaks} {b t : State} (h : Keeps K b t) : KeepsStage K b (.took t) := h

theorem KeepsStage.ite {K : Breaks} {b : State} {c : Prop} [Decidable c] {x y : Staging} (h : KeepsStage K b x) (k : KeepsStage K b y) : KeepsStage K b (if c then x else y) := by
  split
  · exact h
  · exact k

theorem keeps_stageJob {K : Breaks} {b : State} (j : Job) (s : State) (h : Keeps K b s) : KeepsStage K b (stageJob j s) := by
  unfold stageJob
  repeat' first
    | (extract_lets +onlyGivenNames z; clear_value z)
    | exact KeepsStage.wait
    | exact KeepsStage.fail
    | exact KeepsStage.took h
    | exact KeepsStage.took h.to
    | exact KeepsStage.took (keeps_onJob _ _ _ h.to)
    | exact KeepsStage.took (keeps_reserveCtx _ _ _ h)
    | with_reducible apply KeepsStage.ite
    | split

theorem keeps_takeStaging {K : Breaks} {b : State} (i : Nat) (s : State) (h : Keeps K b s) : Keeps K b (takeStaging i s) := by
  unfold takeStaging
  split
  · exact h
  · split
    · exact h
    · split
      · exact keeps_onJob _ _ _ h
      · exact keeps_failJob _ _ _ h
      · rename_i e
        exact keeps_onJob _ _ _ (show KeepsStage K b (.took _) from e ▸ keeps_stageJob _ s h)

theorem keeps_takeCredit {K b} (a0 s) (h : Keeps K b s) : Keeps K b (takeCredit a0 s) := by
  unfold takeCredit
  repeat' with_reducible first | assumption | apply keeps_onJob | refine keeps_onCq _ _ _ _ ?_ | apply keeps_ite | split

theorem keeps_takePlace {K b} (a0 s) (h : Keeps K b s) : Keeps K b (takePlace a0 s) := by
  unfold takePlace
  repeat' with_reducible first
    | assumption | apply keeps_onJob | (extract_lets +onlyGivenNames x; (first | (have _h : Sc := x; clear _h; subst x) | (have _h : TokSt := x; clear _h; subst x) | clear_value x | subst x))
    | apply keeps_ite | split

theorem keeps_spendTokens {K b} (s a1 a2) (h : Keeps K b s) : Keeps K b (spendTokens s a1 a2) := by
  unfold spendTokens
  repeat' with_reducible first | assumption | refine keeps_onSq _ _ _ _ ?_

theorem keeps_takeTokens {K b} (a0 s) (h : Keeps K b s) : Keeps K b (takeTokens a0 s) := by
  unfold takeTokens
  repeat' with_reducible first
    | assumption | apply keeps_onJob | apply keeps_spendTokens
    | (extract_lets +onlyGivenNames x; (first | (have _h : Sc := x; clear _h; subst x) | (have _h : TokSt := x; clear _h; subst x) | clear_value x | subst x)) | apply keeps_ite | split

theorem keeps_reserveJob {K b} (a0 s) (h : Keeps K b s) : Keeps K b (reserveJob a0 s) := by
  unfold reserveJob
  repeat' with_reducible first
    | assumption | apply keeps_completeFailed | apply keeps_takeStaging | apply keeps_takeCredit | apply keeps_takePlace | apply keeps_takeTokens | apply keeps_ite
    | split

theorem keeps_blockRead {K b} (a0 a1 s) (h : Keeps K b s) : Keeps K b (blockRead a0 a1 s) := by
  unfold blockRead
  repeat' with_reducible first
    | assumption | apply keeps_postRead | apply hg | intro _
    | (extract_lets +onlyGivenNames x; refine keeps_pcut (K := K) (b := b) (v := x) ?_ ?_; unfold x; clear x; rotate_left; (try clear_value x); intro hp)
    | (extract_lets +onlyGivenNames x; refine keeps_fcut (K := K) (b := b) (v := x) ?_ ?_; unfold x; clear x; rotate_left; (try clear_value x); intro hg)
    | (extract_lets +onlyGivenNames x; refine keeps_fcut2 (K := K) (b := b) (v := x) ?_ ?_; unfold x; clear x; rotate_left; (try clear_value x); intro hg)
    | (extract_lets +onlyGivenNames x; refine keeps_cut (K := K) (b := b) (v := x) ?_ ?_; unfold x; clear x; rotate_left; (try clear_value x); intro hx)
    | (extract_lets +onlyGivenNames x; (first | (have _h : Sc := x; clear _h; subst x) | (have _h : TokSt := x; clear _h; subst x) | clear_value x | subst x)) | apply keeps_ite | apply keeps_foldl
    | split

theorem keeps_acceptEntry {K b} (a0 a1 a2 a3 s) (h : Keeps K b s) : Keeps K b (acceptEntry a0 a1 a2 a3 s) := by
  unfold acceptEntry
  repeat' with_reducible first
    | assumption | apply keeps_blockRead | refine keeps_mk ?_ | refine keeps_onSq _ _ _ _ ?_ (by with_unfolding_all exact fun _ h => SqOk.pass h) | apply keeps_onCtx | apply keeps_reserveJob
    | (extract_lets +onlyGivenNames x; refine keeps_cut (K := K) (b := b) (v := x) ?_ ?_; unfold x; clear x; rotate_left; (try clear_value x); intro hx) | split

theorem keeps_fetchOne {K b} (a0 a1 a2 s) (h : Keeps K b s) : Keeps K b (fetchOne a0 a1 a2 s) := by
  unfold fetchOne
  repeat' with_reducible first
    | assumption | apply keeps_acceptEntry | apply keeps_fetchRead | apply keeps_stopSq | intro _
    | (extract_lets +onlyGivenNames x; refine keeps_pcut (K := K) (b := b) (v := x) ?_ ?_; unfold x; clear x; rotate_left; (try clear_value x); intro hp)
    | (extract_lets +onlyGivenNames x; refine keeps_cut (K := K) (b := b) (v := x) ?_ ?_; unfold x; clear x; rotate_left; (try clear_value x); intro hx)
    | (extract_lets +onlyGivenNames x; (first | (have _h : Sc := x; clear _h; subst x) | (have _h : TokSt := x; clear _h; subst x) | clear_value x | subst x)) | apply keeps_ite | apply keeps_foldl
    | split

theorem keeps_unprepare {K b} (a0 s) (h : Keeps K b s) : Keeps K b (unprepare a0 s) := by
  unfold unprepare
  repeat' with_reducible first | assumption | refine keeps_onStateful _ _ _ _ ?_ | apply keeps_ite | split

theorem keeps_reserveSlot {K b} (a0 a1 s) (h : Keeps K b s) : Keeps K b (reserveSlot a0 a1 s) := by
  unfold reserveSlot
  split
  · exact keeps_onSlot _ _ _ h (fun _ _ e => nomatch e)
  · exact h.to (x := fun r => all_append r (by intro x hx; rw [List.mem_singleton.1 hx]; exact fun e => nomatch e)) (g := .append)

theorem keeps_execJobReserve {K b} (a0 s) (h : Keeps K b s) : KeepsOut K b (execJobReserve a0 s) := by
  unfold execJobReserve
  repeat' with_reducible first | assumption | apply keeps_reserveJob | apply KeepsOut.next

theorem keeps_claimUnits {K b} (a0 a1 s) (h : Keeps K b s) : Keeps K b (claimUnits a0 a1 s) := by
  unfold claimUnits
  repeat' with_reducible first | assumption | refine keeps_mk ?_

theorem wf_saveWhere2 (p : Cluster → Bool) (j : Nat) (l : List Cluster) (h : VccOk l) : VccOk (l.map (fun c => if p c then saveCluster j c else c)) := by
  refine h.map (fun c hc => ?_)
  split
  · exact wf_saveCluster hc
  · exact hc

/-- What makes room in the context store keeps what it must, for each context or saved state that can go. -/
theorem keeps_spillable {K : Breaks} {b s t : State} {x : Nat × (State → State)} (hx : x ∈ spillable s) (h : Keeps K b t) : Keeps K b (x.2 t) := by
  simp only [spillable, List.mem_append, List.mem_map] at hx
  obtain ⟨c, -, rfl⟩ | ⟨j, -, rfl⟩ := hx
  · exact keeps_onCtx _ _ _ h
  · exact keeps_onJob _ _ _ h

/-- A choice among the elements of a list, made element by element, is one of them. -/
theorem foldl_pick_mem {α : Type} (f : Option α → α → Option α) (hf : ∀ o x, f o x = some x ∨ f o x = o) (l : List α) (o : Option α) {y : α}
    (e : l.foldl f o = some y) : y ∈ l ∨ o = some y := by
  induction l generalizing o with
  | nil => exact .inr e
  | cons x r ih =>
    rcases ih _ e with h | h
    · exact .inl (List.mem_cons_of_mem _ h)
    · rcases hf o x with k | k
      · rw [k] at h; cases h; exact .inl (List.mem_cons_self ..)
      · rw [k] at h; exact .inr h

theorem keeps_fitStore {K : Breaks} {b : State} (n : Nat) (s : State) (h : Keeps K b s) : Keeps K b (fitStore n s) := by
  induction n generalizing s with
  | zero => exact h
  | succ n ih =>
    unfold fitStore
    refine keeps_ite h ?_
    extract_lets first
    have pick : ∀ o x, first o x = some x ∨ first o x = o := by
      intro o x
      cases o with
      | none => exact .inl rfl
      | some y => by_cases k : x.1 < y.1 <;> simp [first, k]
    split
    · rename_i v e
      exact ih _ (keeps_spillable ((foldl_pick_mem _ pick _ _ e).resolve_right (by simp)) h)
    · exact h

theorem keeps_saveCtxs {K b} (a0 a1 a2 s) (h : Keeps K b s) : Keeps K b (saveCtxs a0 a1 a2 s) := by
  unfold saveCtxs
  repeat' with_reducible first
    | assumption | refine keeps_mk ?_ | apply keeps_onJob | apply keeps_fitStore | intro _
    | (extract_lets +onlyGivenNames x; refine keeps_pcut (K := K) (b := b) (v := x) ?_ ?_; unfold x; clear x; rotate_left; (try clear_value x); intro hp)
    | (extract_lets +onlyGivenNames x; refine keeps_cut (K := K) (b := b) (v := x) ?_ ?_; unfold x; clear x; rotate_left; (try clear_value x); intro hx)
    | (extract_lets +onlyGivenNames x; (first | (have _h : Sc := x; clear _h; subst x) | (have _h : TokSt := x; clear _h; subst x) | clear_value x | subst x)) | apply keeps_ite | apply keeps_foldl
    | split

theorem keeps_saveJob {K : Breaks} {b : State} (v : Job) (s : State) (h : Keeps K b s) : Keeps K b (saveJob v s) :=
  keeps_trace _ _ (keeps_saveCtxs _ _ _ _ (keeps_onJob _ _ _ ((keeps_freeUnits v.id _ h).to (v := wf_saveWhere2 _ v.id _) (f := .same rfl rfl rfl rfl rfl rfl))))

theorem keeps_useKeys {K b} (a0 s) (h : Keeps K b s) : Keeps K b (useKeys a0 s) := by
  unfold useKeys
  repeat' with_reducible first | assumption | refine keeps_mk ?_ | apply keeps_foldl | intro _

theorem keeps_useCtx {K b} (a0 s) (h : Keeps K b s) : Keeps K b (useCtx a0 s) := by
  unfold useCtx
  repeat' with_reducible first
    | assumption | refine keeps_mk ?_ | apply keeps_onCtx | apply keeps_fitStore | intro _
    | (extract_lets +onlyGivenNames x; refine keeps_pcut (K := K) (b := b) (v := x) ?_ ?_; unfold x; clear x; rotate_left; (try clear_value x); intro hp)
    | (extract_lets +onlyGivenNames x; refine keeps_cut (K := K) (b := b) (v := x) ?_ ?_; unfold x; clear x; rotate_left; (try clear_value x); intro hx)
    | (extract_lets +onlyGivenNames x; (first | (have _h : Sc := x; clear _h; subst x) | (have _h : TokSt := x; clear _h; subst x) | clear_value x | subst x)) | apply keeps_ite | apply keeps_foldl
    | split

theorem slot_pinFor (now h : Nat) (x : Slot) (k : SlotOk x) : SlotOk (pinFor now h x).1 := by
  unfold pinFor
  repeat' split
  all_goals exact k
theorem gen_pinFor (now h : Nat) (x : Slot) : (pinFor now h x).1.idx = x.idx ∧ x.gen ≤ (pinFor now h x).1.gen := by
  unfold pinFor
  repeat' split
  all_goals exact ⟨rfl, Nat.le_refl _⟩

theorem keeps_bindSlot {K b} (w j s) (h : Keeps K b s) : Keeps K b (bindSlot w j s).2 := by
  unfold bindSlot
  split
  · split
    · exact keeps_reserveSlot _ _ _ h
    · exact h
  · exact h

theorem keeps_bindPins {K b} (hs j s) (h : Keeps K b s) : Keeps K b (bindPins hs j s).2 := by
  unfold bindPins
  split
  · exact keeps_foldl (fun t x ht => keeps_onSlot _ _ _ ht (slot_pinFor t.clk x) (gen_pinFor t.clk x)) h
  · exact h

/-- A stateful key that a handle names is the first of its domain and index on the token. -/
theorem stateful_found {s : State} {h : Nat} {k : StatefulKey} (e : stateful? s h = some k) :
    ∃ t, s.tok.socket = some t ∧ t.stateful.find? (fun x => x.domain == k.domain && x.index == k.index) = some k := by
  unfold stateful? anchored at e
  split at e
  · obtain ⟨t, ht, hf⟩ := Option.bind_eq_some_iff.1 e
    have hp := List.find?_some hf
    simp only [Bool.and_eq_true, beq_iff_eq] at hp
    exact ⟨t, ht, by rw [hp.1, hp.2]; exact hf⟩
  · cases e

/-- The leaf that is taken lies at or above the next one and below the recorded end; it is used up, and what is left stays in order (R253, R304). -/
theorem takeLeaf_ok {k : StatefulKey} {g a c : Nat} (e : freeLeaf k = some (g, a, c)) :
    k.next ≤ g ∧ (takeLeaf g a c k).next = g + 1 ∧ LaterKey k (takeLeaf g a c k) ∧ (LeafOk k → g < k.endLeaf ∧ LeafOk (takeLeaf g a c k)) := by
  unfold freeLeaf at e
  obtain ⟨r, hr, er⟩ := Option.map_eq_some_iff.1 e
  have hlt : max k.next r.1 < r.2 := by simpa using List.find?_some hr
  have hm := List.mem_of_find?_eq_some hr
  cases er
  have hn : k.next ≤ max k.next r.1 := Nat.le_max_left ..
  refine ⟨hn, rfl, ⟨rfl, rfl, rfl, rfl, by show k.next ≤ max k.next r.1 + 1; omega, Nat.le_refl _⟩, fun ok => ?_⟩
  have he := ok.2.1 r hm
  exact ⟨by omega, by show max k.next r.1 + 1 ≤ k.endLeaf; omega, fun q hq => ok.2.1 q (List.mem_filter.1 hq).1, ok.2.2.filter _⟩

theorem keeps_nextLeaf {K b} (h s) (hk : Keeps K b s) : Keeps K b (nextLeaf h s).2 := by
  unfold nextLeaf
  split
  · rename_i k e
    split
    · rename_i g a c l
      obtain ⟨t, ht, hf⟩ := stateful_found e
      refine keeps_noteLow _ _ _ (keeps_onStateful_of _ _ _ _ hk fun u x hu hx => ?_)
      rw [ht] at hu
      cases hu
      rw [hf] at hx
      cases hx
      exact ⟨fun ok => ((takeLeaf_ok l).2.2.2 ok).2, (takeLeaf_ok l).2.2.1⟩
    · exact hk
  · exact hk

theorem keeps_bindLeaf {K b} (j s) (h : Keeps K b s) : Keeps K b (bindLeaf j s).2 := by
  unfold bindLeaf
  split
  · exact keeps_nextLeaf _ _ h
  · exact h

theorem keeps_bindJob {K b} (a0 a1 s) (h : Keeps K b s) : Keeps K b (bindJob a0 a1 s) := by
  unfold bindJob
  have h1 := keeps_bindLeaf (bindPins (pinHandles (bindSlot a1.slot a0 s).2 (bindSlot a1.slot a0 s).1) (bindSlot a1.slot a0 s).1 (bindSlot a1.slot a0 s).2).1 _
    (keeps_useKeys (pinHandles (bindSlot a1.slot a0 s).2 (bindSlot a1.slot a0 s).1) _
      (keeps_bindPins (pinHandles (bindSlot a1.slot a0 s).2 (bindSlot a1.slot a0 s).1) (bindSlot a1.slot a0 s).1 _ (keeps_bindSlot a1.slot a0 s h)))
  refine keeps_onJob _ _ _ ?_
  split
  · exact keeps_useCtx _ _ h1
  · exact h1

theorem keeps_memError {K b} (a0 s) (h : Keeps K b s) : Keeps K b (memError a0 s) := by
  unfold memError
  repeat' with_reducible first | assumption | apply keeps_dramError | apply keeps_faultEvent | apply keeps_ite

theorem keeps_memTroubles {K b} (a0 a1 a2 s) (h : Keeps K b s) : Keeps K b (memTroubles a0 a1 a2 s) := by
  unfold memTroubles
  repeat' with_reducible first
    | assumption | apply keeps_endJob | apply keeps_faultEvent | apply keeps_memError | intro _
    | (extract_lets +onlyGivenNames x; refine keeps_pcut (K := K) (b := b) (v := x) ?_ ?_; unfold x; clear x; rotate_left; (try clear_value x); intro hp)
    | (extract_lets +onlyGivenNames x; refine keeps_cut (K := K) (b := b) (v := x) ?_ ?_; unfold x; clear x; rotate_left; (try clear_value x); intro hx)
    | (extract_lets +onlyGivenNames x; (first | (have _h : Sc := x; clear _h; subst x) | (have _h : TokSt := x; clear _h; subst x) | clear_value x | subst x)) | apply keeps_ite | apply keeps_foldl
    | split

theorem keeps_noteStall {K b} (a0 a1 s) (h : Keeps K b s) : Keeps K b (noteStall a0 a1 s) := by
  unfold noteStall
  repeat' with_reducible first
    | assumption | apply keeps_onJob | intro _
    | (extract_lets +onlyGivenNames x; refine keeps_pcut (K := K) (b := b) (v := x) ?_ ?_; unfold x; clear x; rotate_left; (try clear_value x); intro hp)
    | (extract_lets +onlyGivenNames x; refine keeps_cut (K := K) (b := b) (v := x) ?_ ?_; unfold x; clear x; rotate_left; (try clear_value x); intro hx)
    | (extract_lets +onlyGivenNames x; (first | (have _h : Sc := x; clear _h; subst x) | (have _h : TokSt := x; clear _h; subst x) | clear_value x | subst x)) | apply keeps_ite | apply keeps_foldl
    | split

theorem keeps_resumeJob {K : Breaks} {b : State} (j : Job) (us : List Nat) (d : DispatchIn) (s : State) (h : Keeps K b s) : Keeps K b (resumeJob j us d s) := by
  unfold resumeJob
  have h1 := keeps_claimUnits j us _ (keeps_onJob s j.id (fun j => { j with phase := .running, units := us, saves := [] }) h)
  extract_lets s1 s2 s3
  have h2 : Keeps K b s2 := by
    show Keeps K b (match j.ctx with | some i => useCtx i s1 | none => s1)
    split
    · exact keeps_useCtx _ _ h1
    · exact h1
  clear_value s2
  refine keeps_memTroubles _ _ _ _ (keeps_noteStall _ _ _ (keeps_noteDispatch _ _ _ _ ?_))
  show Keeps K b (if _ then _ else _)
  split
  · exact keeps_foldl (fun t u ht => ht.to (v := VccOk.modAt u (fun _ hk => wf_restoreCluster hk))) h2
  · exact h2

theorem keeps_enterCluster {K : Breaks} {b : State} (j : Job) (d : DispatchIn) (g : List Nat) (u : Nat) (s : State) (h : Keeps K b s) : Keeps K b (enterCluster j d g u s) := by
  unfold enterCluster
  split
  · exact h
  · rename_i c hc
    extract_lets slot pk opT winT consts input p base r1 r2 s2 m1 m2 m3 m4 m5
    have h1 : Keeps K b s2 := keeps_splitShares _ _ _ (keeps_splitShares _ _ _ h)
    have hm : VccOk b.vcc → Memory.wf m5 = true := fun hb => by
      have w0 : Memory.wf c.tiles = true := (h.tiles hb).2 _ (List.mem_of_getElem? hc)
      have w2 : Memory.wf m2 = true := wf_cellsWrite _ _ (wf_cellsWrite _ _ w0)
      have w3 : Memory.wf m3 = true := by unfold m3; split; exact w2; exact wf_writeShares w2
      have w4 : Memory.wf m4 = true := by unfold m4; split; exact w3; exact wf_writeShares w3
      exact wf_foldl (fun _ _ hm => wf_cellsWrite _ _ hm) w4
    clear_value m5 s2
    exact { h1 with tiles := fun hb => VccOk.modAt u (fun _ _ => hm hb) (h1.tiles hb) }

theorem keeps_loadEngines {K b} (a0 a1 a2 s) (h : Keeps K b s) : Keeps K b (loadEngines a0 a1 a2 s) := by
  unfold loadEngines
  repeat' with_reducible first | assumption | refine keeps_mk ?_ | apply keeps_ite | split

theorem keeps_inputStop {K b} (a0 s) (h : Keeps K b s) : Keeps K b (inputStop a0 s) := by
  unfold inputStop
  repeat' with_reducible first
    | assumption | apply keeps_failJob | intro _
    | (extract_lets +onlyGivenNames x; refine keeps_pcut (K := K) (b := b) (v := x) ?_ ?_; unfold x; clear x; rotate_left; (try clear_value x); intro hp)
    | (extract_lets +onlyGivenNames x; refine keeps_cut (K := K) (b := b) (v := x) ?_ ?_; unfold x; clear x; rotate_left; (try clear_value x); intro hx)
    | (extract_lets +onlyGivenNames x; (first | (have _h : Sc := x; clear _h; subst x) | (have _h : TokSt := x; clear _h; subst x) | clear_value x | subst x)) | apply keeps_ite | apply keeps_foldl
    | split

theorem keeps_dataReads {K b} (f l n s) (h : Keeps K b s) : Keeps K b (dataReads f l n s) := by
  induction l generalizing n s with
  | nil => exact h
  | cons a l ih => exact ih _ _ (keeps_postRead _ _ _ _ h)

theorem keeps_listReads {K b} (a0 a1 a2 s) (h : Keeps K b s) : Keeps K b (listReads a0 a1 a2 s) := by
  unfold listReads
  repeat' with_reducible first
    | assumption | apply keeps_postRead | apply hg | intro _
    | (extract_lets +onlyGivenNames x; refine keeps_pcut (K := K) (b := b) (v := x) ?_ ?_; unfold x; clear x; rotate_left; (try clear_value x); intro hp)
    | (extract_lets +onlyGivenNames x; refine keeps_fcut (K := K) (b := b) (v := x) ?_ ?_; unfold x; clear x; rotate_left; (try clear_value x); intro hg)
    | (extract_lets +onlyGivenNames x; refine keeps_fcut2 (K := K) (b := b) (v := x) ?_ ?_; unfold x; clear x; rotate_left; (try clear_value x); intro hg)
    | (extract_lets +onlyGivenNames x; refine keeps_cut (K := K) (b := b) (v := x) ?_ ?_; unfold x; clear x; rotate_left; (try clear_value x); intro hx)
    | (extract_lets +onlyGivenNames x; (first | (have _h : Sc := x; clear _h; subst x) | (have _h : TokSt := x; clear _h; subst x) | clear_value x | subst x)) | apply keeps_ite | apply keeps_foldl
    | split

theorem keeps_inputReads {K b} (a0 a1 s) (h : Keeps K b s) : Keeps K b (inputReads a0 a1 s) := by
  unfold inputReads
  repeat' with_reducible first
    | assumption | apply keeps_dataReads | apply keeps_listReads | apply keeps_postRead | apply hg | intro _
    | (extract_lets +onlyGivenNames x; refine keeps_pcut (K := K) (b := b) (v := x) ?_ ?_; unfold x; clear x; rotate_left; (try clear_value x); intro hp)
    | (extract_lets +onlyGivenNames x; refine keeps_fcut (K := K) (b := b) (v := x) ?_ ?_; unfold x; clear x; rotate_left; (try clear_value x); intro hg)
    | (extract_lets +onlyGivenNames x; refine keeps_fcut2 (K := K) (b := b) (v := x) ?_ ?_; unfold x; clear x; rotate_left; (try clear_value x); intro hg)
    | (extract_lets +onlyGivenNames x; refine keeps_cut (K := K) (b := b) (v := x) ?_ ?_; unfold x; clear x; rotate_left; (try clear_value x); intro hx)
    | (extract_lets +onlyGivenNames x; (first | (have _h : Sc := x; clear _h; subst x) | (have _h : TokSt := x; clear _h; subst x) | clear_value x | subst x)) | apply keeps_ite | apply keeps_foldl
    | split

theorem keeps_startJob {K b} (a0 a1 a2 s) (h : Keeps K b s) : Keeps K b (startJob a0 a1 a2 s) := by
  unfold startJob
  repeat' with_reducible first
    | assumption | apply keeps_inputReads | apply keeps_onJob | apply keeps_bindJob | apply keeps_claimUnits | apply keeps_enterCluster
    | apply keeps_inputStop | apply keeps_loadEngines | apply keeps_memTroubles | apply keeps_noteDispatch | apply keeps_noteStall | intro _
    | (extract_lets +onlyGivenNames x; refine keeps_pcut (K := K) (b := b) (v := x) ?_ ?_; unfold x; clear x; rotate_left; (try clear_value x); intro hp)
    | (extract_lets +onlyGivenNames x; refine keeps_cut (K := K) (b := b) (v := x) ?_ ?_; unfold x; clear x; rotate_left; (try clear_value x); intro hx)
    | (extract_lets +onlyGivenNames x; (first | (have _h : Sc := x; clear _h; subst x) | (have _h : TokSt := x; clear _h; subst x) | clear_value x | subst x)) | apply keeps_ite | apply keeps_foldl
    | split

theorem keeps_dispatchJob {K b} (a0 a1 s) (h : Keeps K b s) : Keeps K b (dispatchJob a0 a1 s) := by
  unfold dispatchJob
  repeat' with_reducible first
    | assumption | apply keeps_resumeJob | apply keeps_checkedOut | apply keeps_unprepare | apply keeps_failJob | apply keeps_onJob | apply keeps_startJob
    | apply keeps_ite | split

theorem keeps_clearUnits {K : Breaks} {b t : State} (n : Nat) (j : Job) (q : Option Nat) (s : State) (vs : List Nat) (e : clearUnits n j q s = some (vs, t)) (h : Keeps K b s) :
    Keeps K b t := by
  induction n generalizing s vs with
  | zero =>
    unfold clearUnits at e
    split at e
    · cases e; exact h
    · cases e
  | succ n ih =>
    unfold clearUnits at e
    split at e
    · cases e; exact h
    · dsimp only at e
      split at e
      · cases e
      · obtain ⟨r, hr, k⟩ := Option.map_eq_some_iff.1 e
        cases k
        exact ih _ _ hr (keeps_saveJob _ _ h)

theorem keeps_clearGang {K : Breaks} {b t : State} (n : Nat) (j : Job) (s : State) (l : List Job) (vs : List Nat) (e : clearGang j s n l = some (vs, t)) (h : Keeps K b s) :
    Keeps K b t := by
  induction n generalizing l vs with
  | zero => cases e
  | succ n ih =>
    unfold clearGang at e
    split at e
    · cases e
    · split at e
      · rename_i hr
        cases e
        exact keeps_clearUnits _ _ _ _ _ hr (keeps_saveJob _ _ h)
      · exact ih _ _ e

theorem keeps_roomFor {K : Breaks} {b t : State} (j : Job) (s : State) (vs : List Nat) (e : roomFor s j = some (vs, t)) (h : Keeps K b s) : Keeps K b t := by
  unfold roomFor at e
  split at e
  · exact keeps_clearGang _ _ _ _ _ e h
  · exact keeps_clearUnits _ _ _ _ _ e h

theorem keeps_preemptJob {K : Breaks} {b : State} (v i : Nat) (d : DispatchIn) (s : State) (h : Keeps K b s) : Keeps K b (preemptJob v i d s) := by
  unfold preemptJob
  split
  · exact h
  · refine keeps_ite h ?_
    split
    · exact h
    · rename_i e
      exact keeps_ite (keeps_dispatchJob _ _ _ (keeps_roomFor _ _ _ e h)) h

theorem keeps_execJobDispatch {K b} (a0 a1 s) (h : Keeps K b s) : KeepsOut K b (execJobDispatch a0 a1 s) := by
  unfold execJobDispatch
  repeat' with_reducible first | assumption | apply keeps_dispatchJob | apply KeepsOut.next

theorem keeps_overrunTake {K b} (a0 s) (h : Keeps K b s) : Keeps K b (overrunTake a0 s) := by
  unfold overrunTake
  repeat' with_reducible first
    | assumption | refine keeps_mk ?_ | apply keeps_spendTokens | apply keeps_onJob
    | (extract_lets +onlyGivenNames x; refine keeps_cut (K := K) (b := b) (v := x) ?_ ?_; unfold x; clear x; rotate_left; (try clear_value x); intro hx)
    | (extract_lets +onlyGivenNames x; (first | (have _h : Sc := x; clear _h; subst x) | (have _h : TokSt := x; clear _h; subst x) | clear_value x | subst x)) | apply keeps_ite | split

theorem keeps_execOverrunToken {K b} (a0 s) (h : Keeps K b s) : KeepsOut K b (execOverrunToken a0 s) := by
  unfold execOverrunToken
  repeat' with_reducible first | assumption | apply keeps_overrunTake | apply KeepsOut.next

theorem keeps_execSqFetch {K b} (a0 a1 a2 s) (h : Keeps K b s) : KeepsOut K b (execSqFetch a0 a1 a2 s) := by
  unfold execSqFetch
  repeat' with_reducible first | assumption | apply keeps_fetchOne | apply KeepsOut.next

theorem keeps_execJobPreempt {K b} (a0 a1 a2 s) (h : Keeps K b s) : KeepsOut K b (execJobPreempt a0 a1 a2 s) := by
  unfold execJobPreempt
  repeat' with_reducible first | assumption | apply keeps_preemptJob | apply KeepsOut.next

/-! ### Machine/Run.lean -/

theorem wf_saveWhere (p : Cluster → Bool) (j : Nat) (l : List Cluster) (h : VccOk l) : VccOk (l.map (fun c => if p c then saveCluster j c else c)) := by
  refine h.map (fun c hc => ?_)
  split
  · exact wf_saveCluster hc
  · exact hc

theorem keeps_yieldOverrun {K : Breaks} {b : State} (j : Job) (i r : Bytes) (n : Nat) (s : State) (h : Keeps K b s) : Keeps K b (yieldOverrun j i r n s) := by
  unfold yieldOverrun
  extract_lets t keep u v
  have hu : Keeps K b u := (keeps_freeUnits j.id _ h).to (v := wf_saveWhere _ j.id _)
  have hv : Keeps K b v := keeps_onJob _ _ _ hu
  exact keeps_ite hv (keeps_saveCtxs _ _ _ _ hv)

theorem keeps_gangMismatch {K b} (a0 s) (h : Keeps K b s) : Keeps K b (gangMismatch a0 s) := by
  unfold gangMismatch
  repeat' with_reducible first | assumption | apply keeps_noteMismatch | apply keeps_faultEvent | apply keeps_retryJob

theorem keeps_unitFault {K b} (a0 a1 a2 a3 s) (h : Keeps K b s) : Keeps K b (unitFault a0 a1 a2 a3 s) := by
  unfold unitFault
  repeat' with_reducible first | assumption | apply keeps_fenceUnit | apply keeps_noteMismatch | apply keeps_faultEvent

theorem keeps_jobFault {K b} (a0 a1 a2 s) (h : Keeps K b s) : Keeps K b (jobFault a0 a1 a2 s) := by
  unfold jobFault
  repeat' with_reducible first
    | assumption | apply keeps_dramError | apply keeps_endJob | apply keeps_faultEvent | apply keeps_fenceUnit | apply keeps_gangMismatch
    | apply keeps_operandTileError | apply keeps_unitFault | intro _
    | (extract_lets +onlyGivenNames x; refine keeps_fcut (K := K) (b := b) (v := x) ?_ ?_; unfold x; clear x; rotate_left; (try clear_value x); intro hg)
    | (extract_lets +onlyGivenNames x; refine keeps_cut (K := K) (b := b) (v := x) ?_ ?_; unfold x; clear x; rotate_left; (try clear_value x); intro hx)
    | (extract_lets +onlyGivenNames x; (first | (have _h : Sc := x; clear _h; subst x) | (have _h : TokSt := x; clear _h; subst x) | clear_value x | subst x)) | apply hg | apply keeps_ite | split

theorem keeps_writeJob {K b} (a0 a1 a2 s) (h : Keeps K b s) : Keeps K b (writeJob a0 a1 a2 s) := by
  unfold writeJob
  repeat' with_reducible first
    | assumption | apply keeps_onJob | apply keeps_countOutside | apply keeps_postWrite | intro _
    | (extract_lets +onlyGivenNames x; refine keeps_pcut (K := K) (b := b) (v := x) ?_ ?_; unfold x; clear x; rotate_left; (try clear_value x); intro hp)
    | (extract_lets +onlyGivenNames x; refine keeps_cut (K := K) (b := b) (v := x) ?_ ?_; unfold x; clear x; rotate_left; (try clear_value x); intro hx)
    | (extract_lets +onlyGivenNames x; (first | (have _h : Sc := x; clear _h; subst x) | (have _h : TokSt := x; clear _h; subst x) | clear_value x | subst x)) | apply keeps_ite | apply keeps_foldl
    | split

theorem keeps_scatter {K : Breaks} {b : State} (j : Job) (l : List (Nat × Nat)) (bs : Bytes) (s : State) (h : Keeps K b s) : Keeps K b (scatter j l bs s) := by
  induction l generalizing bs s with
  | nil => exact h
  | cons p r ih =>
    unfold scatter
    split
    · exact h
    · exact ih _ _ (keeps_writeJob _ _ _ _ h)

theorem keeps_fencePair {K b} (a0 a1 s) (h : Keeps K b s) : Keeps K b (fencePair a0 a1 s) := by
  unfold fencePair
  repeat' with_reducible first | assumption | apply keeps_fenceUnit | apply keeps_foldl | intro _ | apply keeps_ite

theorem keeps_placeKey {K : Breaks} {b t : State} {i : Nat} (j : Job) (k : NewKey) (s : State) (e : placeKey j k s = some (i, t)) (h : Keeps K b s) : Keeps K b t := by
  unfold placeKey at e
  dsimp only at e
  repeat' first
    | cases e
    | (split at e)
    | exact keeps_dropDdp _ _ (keeps_endKeyCtxs _ _ (keeps_onSlot _ _ _ h (fun _ _ e => nomatch e) (fun _ => ⟨rfl, Nat.le_succ _⟩)))
    | exact keeps_onSlot _ _ _ h (fun _ _ e => nomatch e) (fun _ => ⟨rfl, Nat.le_succ _⟩)

theorem keeps_writeFrom {K b} (a0 a1 a2 a3 s) (h : Keeps K b s) : Keeps K b (writeFrom a0 a1 a2 a3 s) := by
  unfold writeFrom
  repeat' with_reducible first
    | assumption | apply keeps_scatter | apply hg | intro _
    | (extract_lets +onlyGivenNames x; refine keeps_pcut (K := K) (b := b) (v := x) ?_ ?_; unfold x; clear x; rotate_left; (try clear_value x); intro hp)
    | (extract_lets +onlyGivenNames x; refine keeps_fcut (K := K) (b := b) (v := x) ?_ ?_; unfold x; clear x; rotate_left; (try clear_value x); intro hg)
    | (extract_lets +onlyGivenNames x; refine keeps_fcut2 (K := K) (b := b) (v := x) ?_ ?_; unfold x; clear x; rotate_left; (try clear_value x); intro hg)
    | (extract_lets +onlyGivenNames x; refine keeps_cut (K := K) (b := b) (v := x) ?_ ?_; unfold x; clear x; rotate_left; (try clear_value x); intro hx)
    | (extract_lets +onlyGivenNames x; (first | (have _h : Sc := x; clear _h; subst x) | (have _h : TokSt := x; clear _h; subst x) | clear_value x | subst x)) | apply keeps_ite | apply keeps_foldl
    | split

theorem keeps_writeOutput {K b} (a0 a1 a2 s) (h : Keeps K b s) : Keeps K b (writeOutput a0 a1 a2 s) := by
  unfold writeOutput
  repeat' with_reducible first
    | assumption | apply keeps_writeFrom | apply keeps_scatter | intro _
    | (extract_lets +onlyGivenNames x; refine keeps_pcut (K := K) (b := b) (v := x) ?_ ?_; unfold x; clear x; rotate_left; (try clear_value x); intro hp)
    | (extract_lets +onlyGivenNames x; refine keeps_cut (K := K) (b := b) (v := x) ?_ ?_; unfold x; clear x; rotate_left; (try clear_value x); intro hx)
    | (extract_lets +onlyGivenNames x; (first | (have _h : Sc := x; clear _h; subst x) | (have _h : TokSt := x; clear _h; subst x) | clear_value x | subst x)) | apply keeps_ite | apply keeps_foldl
    | split

theorem keeps_streamOut {K b} (a0 a1 a2 a3 s) (h : Keeps K b s) : Keeps K b (streamOut a0 a1 a2 a3 s) := by
  unfold streamOut
  repeat' with_reducible first
    | assumption | apply keeps_onJob | apply keeps_writeOutput | intro _
    | (extract_lets +onlyGivenNames x; refine keeps_pcut (K := K) (b := b) (v := x) ?_ ?_; unfold x; clear x; rotate_left; (try clear_value x); intro hp)
    | (extract_lets +onlyGivenNames x; refine keeps_cut (K := K) (b := b) (v := x) ?_ ?_; unfold x; clear x; rotate_left; (try clear_value x); intro hx)
    | (extract_lets +onlyGivenNames x; (first | (have _h : Sc := x; clear _h; subst x) | (have _h : TokSt := x; clear _h; subst x) | clear_value x | subst x)) | apply keeps_ite | apply keeps_foldl
    | split

theorem keeps_finishOk {K : Breaks} {b : State} (j : Job) (x : JobRun) (r : Result) (s : State) (h : Keeps K b s) : Keeps K b (finishOk j x r s) := by
  unfold finishOk
  extract_lets fr t out write
  have hw : ∀ i u, Keeps K b u → Keeps K b (write i u) := fun _ _ hu => keeps_okJob _ _ _ (keeps_writeOutput _ _ _ _ hu)
  have ht : Keeps K b t := keeps_ite (keeps_listReads _ _ _ _ h) h
  clear_value write t
  refine keeps_ite ht ?_
  split
  · exact keeps_endJob _ _ _ _ (keeps_streamOut _ _ _ _ _ ht)
  · split
    · exact hw _ _ ht
    · split
      · rename_i e
        exact hw _ _ (keeps_placeKey _ _ _ e ht)
      · exact keeps_failJob _ _ _ ht

theorem keeps_finishJob {K b} (a0 a1 a2 a3 s) (h : Keeps K b s) : Keeps K b (finishJob a0 a1 a2 a3 s) := by
  unfold finishJob
  repeat' with_reducible first | assumption | apply keeps_fencePair | apply keeps_yieldOverrun | apply keeps_jobFault | apply keeps_finishOk | apply keeps_failJob | apply keeps_ite | split

theorem keeps_runOn {K : Breaks} {b : State} (want grain : State → Job → Nat) (svc : Svc) (x : JobRun) (j : Job) (s : State)
    (hv : ∀ j i t s, Keeps K b s → Keeps K b (svc j i t s).2) (h : Keeps K b s) : Keeps K b (runOn want grain svc x j s) := by
  unfold runOn
  split
  extract_lets strs n g twice upto met at_ text part r
  have hp : Keeps K b part := keeps_streamOut _ _ _ _ _ h
  clear_value part met
  refine keeps_ite (keeps_failJob _ _ _ h) (keeps_ite hp ?_)
  split
  · exact keeps_jobFault _ _ _ _ hp
  · split
    · exact keeps_endJob _ _ _ _ hp
    · exact keeps_finishJob _ _ _ _ _ (hv _ _ _ _ h)

theorem keeps_runJob {K : Breaks} {b : State} (op : Nat) (want grain : State → Job → Nat) (svc : Svc) (x : JobRun) (s : State)
    (hv : ∀ j i t s, Keeps K b s → Keeps K b (svc j i t s).2) (h : Keeps K b s) : Keeps K b (runJob op want grain svc x s) := by
  unfold runJob
  split
  · exact h
  · exact keeps_runOn _ _ _ _ _ _ hv (keeps_noteStall _ _ _ h)

theorem keeps_runPlain {K : Breaks} {b : State} (a0 : Nat) (a1 : Job → Bytes → State → Result × State) (a2 : JobRun) (s : State) (h1 : ∀ v0 v1 v2, Keeps K b v2 → Keeps K b (a1 v0 v1 v2).2) (h : Keeps K b s) :
    Keeps K b (runPlain a0 a1 a2 s) := by
  unfold runPlain
  repeat' with_reducible first | assumption | apply h1 | apply keeps_runJob | intro _

theorem keeps_jobRandom {K b} (a0 a1 s) (h : Keeps K b s) : Keeps K b (jobRandom a0 a1 s).2 := by
  unfold jobRandom
  repeat' with_reducible first | assumption | apply keeps_drawBytes | split

/-! ### Machine/Resets.lean -/

theorem keeps_wipeDomains {K b} (a0 s) (h : Keeps K b s) : Keeps K b (wipeDomains a0 s) := by
  unfold wipeDomains
  repeat' with_reducible first | assumption | refine keeps_mk ?_ | apply keeps_eraseSlot | apply keeps_foldl | intro _

theorem keeps_dropJobs {K b} (a0 s) (h : Keeps K b s) : Keeps K b (dropJobs a0 s) := by
  unfold dropJobs
  repeat' with_reducible first | assumption | apply keeps_dropJob | apply keeps_foldl | intro _

theorem keeps_resetWaits {K b} (a0 s) (h : Keeps K b s) : Keeps K b (resetWaits a0 s) := by
  unfold resetWaits
  repeat' with_reducible first | assumption | refine keeps_mk ?_ | apply keeps_adminDone | apply keeps_foldl | intro _

theorem keeps_resetOne {K b} (a0 s) (h : Keeps K b s) : Keeps K b (resetOne a0 s) := by
  unfold resetOne
  repeat' with_reducible first
    | assumption | refine keeps_mk ?_ | (with_unfolding_all exact hx.to (r := fun r => ⟨all_filter r.1, all_filter r.2⟩)) | apply keeps_dropJobs | apply keeps_resetWaits | apply keeps_signal | apply keeps_resetManager | apply keeps_onFn
    | (extract_lets +onlyGivenNames x; refine keeps_cut (K := K) (b := b) (v := x) ?_ ?_; unfold x; clear x; rotate_left; (try clear_value x); intro hx) | apply keeps_ite
    | split

theorem keeps_resetInstance {K b} (a0 s) (h : Keeps K b s) : Keeps K b (resetInstance a0 s) := by
  unfold resetInstance
  repeat' with_reducible first | assumption | apply keeps_wipeDomains | apply keeps_resetOne | apply keeps_ite | split

theorem keeps_resetPf1 {K b} (s) (h : Keeps K b s) : Keeps K b (resetPf1 s) := by
  unfold resetPf1
  repeat' with_reducible first
    | assumption | apply keeps_resetInstance | apply keeps_onFn | apply keeps_foldl | intro _
    | (extract_lets +onlyGivenNames x; refine keeps_cut (K := K) (b := b) (v := x) ?_ ?_; unfold x; clear x; rotate_left; (try clear_value x); intro hx)
    | apply keeps_ite

theorem keeps_vfsGone {K b} (s) (h : Keeps K b s) : Keeps K b (vfsGone s) := by
  unfold vfsGone
  repeat' with_reducible first | assumption | refine keeps_mk ?_ | apply keeps_resetInstance | apply keeps_foldl | intro _

theorem keeps_resetPf0 {K b} (s) (h : Keeps K b s) : Keeps K b (resetPf0 s) := by
  unfold resetPf0
  repeat' with_reducible first
    | assumption | apply keeps_resetOne | apply keeps_vfsGone | apply keeps_wipeDomains
    | (extract_lets +onlyGivenNames x; refine keeps_cut (K := K) (b := b) (v := x) ?_ ?_; unfold x; clear x; rotate_left; (try clear_value x); intro hx) | apply keeps_ite

theorem keeps_execFlrPf0 {K b} (s) (h : Keeps K b s) : KeepsOut K b (execFlrPf0 s) := by
  unfold execFlrPf0
  repeat' with_reducible first | assumption | apply keeps_resetPf0 | split | apply KeepsOut.next

theorem keeps_vfUp {K b} (a0 s) (h : Keeps K b s) : Keeps K b (vfUp a0 s) := by
  unfold vfUp
  repeat' with_reducible first | assumption | apply keeps_onFn | apply keeps_ite

theorem keeps_execVfReady {K b} (a0 s) (h : Keeps K b s) : KeepsOut K b (execVfReady a0 s) := by
  unfold execVfReady
  repeat' with_reducible first | assumption | apply keeps_vfUp | apply KeepsOut.next

theorem keeps_releaseSlices {K b} (a0 s) (h : Keeps K b s) : Keeps K b (releaseSlices a0 s) := by
  unfold releaseSlices
  repeat' with_reducible first | assumption | refine keeps_mk ?_

theorem keeps_resetAll {K b} (s) (h : Keeps K b s) : Keeps K b (resetAll s) := by
  unfold resetAll
  repeat' with_reducible first
    | assumption | refine keeps_mk ?_ | apply keeps_resetPf1 | apply keeps_vfsGone | apply keeps_releaseSlices | apply keeps_wipeDomains | apply keeps_resetOne

theorem keeps_vfsOn {K b} (a0 s) (h : Keeps K b s) : Keeps K b (vfsOn a0 s) := by
  unfold vfsOn
  repeat' with_reducible first
    | assumption | refine keeps_mk ?_ | (extract_lets +onlyGivenNames x; (first | (have _h : Sc := x; clear _h; subst x) | (have _h : TokSt := x; clear _h; subst x) | clear_value x | subst x))
    | apply keeps_ite

theorem keeps_busMasterStop {K b} (a0 s) (h : Keeps K b s) : Keeps K b (busMasterStop a0 s) := by
  unfold busMasterStop
  repeat' with_reducible first | assumption | apply keeps_dropJob | apply keeps_stopSq | apply keeps_foldl | intro _

theorem keeps_busMasterOff {K b} (a0 s) (h : Keeps K b s) : Keeps K b (busMasterOff a0 s) := by
  unfold busMasterOff
  repeat' with_reducible first | assumption | apply keeps_busMasterStop | apply keeps_onFn | apply keeps_foldl | intro _ | apply keeps_ite

theorem keeps_execVfEnableClear {K b} (s) (h : Keeps K b s) : KeepsOut K b (execVfEnableClear s) := by
  unfold execVfEnableClear
  repeat' with_reducible first | assumption | apply keeps_vfsGone | apply KeepsOut.next

theorem keeps_execFlrPf1 {K b} (s) (h : Keeps K b s) : KeepsOut K b (execFlrPf1 s) := by
  unfold execFlrPf1
  repeat' with_reducible first | assumption | apply keeps_resetPf1 | split | apply KeepsOut.next

theorem keeps_resetPfSpace {K b} (a0 s) (h : Keeps K b s) : Keeps K b (resetPfSpace a0 s) := by
  unfold resetPfSpace
  repeat' with_reducible first
    | assumption | refine keeps_mk ?_ | intro _
    | (extract_lets +onlyGivenNames x; refine keeps_pcut (K := K) (b := b) (v := x) ?_ ?_; unfold x; clear x; rotate_left; (try clear_value x); intro hp)
    | (extract_lets +onlyGivenNames x; refine keeps_cut (K := K) (b := b) (v := x) ?_ ?_; unfold x; clear x; rotate_left; (try clear_value x); intro hx)
    | (extract_lets +onlyGivenNames x; (first | (have _h : Sc := x; clear _h; subst x) | (have _h : TokSt := x; clear _h; subst x) | clear_value x | subst x)) | apply keeps_ite | apply keeps_foldl
    | split

theorem keeps_enterD0 {K b} (a0 s) (h : Keeps K b s) : Keeps K b (enterD0 a0 s) := by
  unfold enterD0
  repeat' with_reducible first
    | assumption | apply keeps_onFn | apply keeps_resetPfSpace | intro _
    | (extract_lets +onlyGivenNames x; refine keeps_pcut (K := K) (b := b) (v := x) ?_ ?_; unfold x; clear x; rotate_left; (try clear_value x); intro hp)
    | (extract_lets +onlyGivenNames x; refine keeps_cut (K := K) (b := b) (v := x) ?_ ?_; unfold x; clear x; rotate_left; (try clear_value x); intro hx)
    | (extract_lets +onlyGivenNames x; (first | (have _h : Sc := x; clear _h; subst x) | (have _h : TokSt := x; clear _h; subst x) | clear_value x | subst x)) | apply keeps_ite | apply keeps_foldl
    | split

theorem keeps_endSliceWaits {K b} (a0 s) (h : Keeps K b s) : Keeps K b (endSliceWaits a0 s) := by
  unfold endSliceWaits
  repeat' with_reducible first | assumption | refine keeps_mk ?_ | apply keeps_releaseSlices | apply keeps_adminDone | apply keeps_foldl | intro _ | apply keeps_ite

theorem keeps_resetEnd {K b} (a0 s) (h : Keeps K b s) : Keeps K b (resetEnd a0 s) := by
  unfold resetEnd
  repeat' with_reducible first
    | assumption | apply keeps_onFn | apply keeps_endSliceWaits | intro _
    | (extract_lets +onlyGivenNames x; refine keeps_pcut (K := K) (b := b) (v := x) ?_ ?_; unfold x; clear x; rotate_left; (try clear_value x); intro hp)
    | (extract_lets +onlyGivenNames x; refine keeps_cut (K := K) (b := b) (v := x) ?_ ?_; unfold x; clear x; rotate_left; (try clear_value x); intro hx)
    | (extract_lets +onlyGivenNames x; (first | (have _h : Sc := x; clear _h; subst x) | (have _h : TokSt := x; clear _h; subst x) | clear_value x | subst x)) | apply keeps_ite | apply keeps_foldl
    | split

theorem keeps_resetComplete {K b} (a0 s) (h : Keeps K b s) : Keeps K b (resetComplete a0 s) := by
  unfold resetComplete
  repeat' with_reducible first
    | assumption | apply keeps_resetEnd | intro _
    | (extract_lets +onlyGivenNames x; refine keeps_pcut (K := K) (b := b) (v := x) ?_ ?_; unfold x; clear x; rotate_left; (try clear_value x); intro hp)
    | (extract_lets +onlyGivenNames x; refine keeps_cut (K := K) (b := b) (v := x) ?_ ?_; unfold x; clear x; rotate_left; (try clear_value x); intro hx)
    | (extract_lets +onlyGivenNames x; (first | (have _h : Sc := x; clear _h; subst x) | (have _h : TokSt := x; clear _h; subst x) | clear_value x | subst x)) | apply keeps_ite | apply keeps_foldl
    | split

theorem keeps_enterD3 {K b} (a0 s) (h : Keeps K b s) : Keeps K b (enterD3 a0 s) := by
  unfold enterD3
  repeat' with_reducible first
    | assumption | apply keeps_resetPf0 | apply keeps_resetPf1 | apply keeps_resetInstance | apply keeps_onFn
    | (extract_lets +onlyGivenNames x; refine keeps_cut (K := K) (b := b) (v := x) ?_ ?_; unfold x; clear x; rotate_left; (try clear_value x); intro hx) | apply keeps_ite
    | split

theorem keeps_execD3hotEntry {K b} (a0 s) (h : Keeps K b s) : KeepsOut K b (execD3hotEntry a0 s) := by
  unfold execD3hotEntry
  repeat' with_reducible first | assumption | apply keeps_enterD3 | apply KeepsOut.next

theorem keeps_execFlrVf {K b} (a0 s) (h : Keeps K b s) : KeepsOut K b (execFlrVf a0 s) := by
  unfold execFlrVf
  repeat' with_reducible first | assumption | apply keeps_resetInstance | apply keeps_ite | apply KeepsOut.next

theorem keeps_execD0Entry {K b} (a0 s) (h : Keeps K b s) : KeepsOut K b (execD0Entry a0 s) := by
  unfold execD0Entry
  repeat' with_reducible first | assumption | apply keeps_enterD0 | apply KeepsOut.next

theorem keeps_execBusMasterEnableClear {K b} (a0 s) (h : Keeps K b s) : KeepsOut K b (execBusMasterEnableClear a0 s) := by
  unfold execBusMasterEnableClear
  repeat' with_reducible first | assumption | apply keeps_busMasterOff | apply KeepsOut.next

theorem keeps_execFunctionResetComplete {K b} (a0 s) (h : Keeps K b s) : KeepsOut K b (execFunctionResetComplete a0 s) := by
  unfold execFunctionResetComplete
  repeat' with_reducible first | assumption | apply keeps_resetComplete | apply KeepsOut.next

theorem keeps_execMemorySpaceEnableClear {K b} (a0 s) (h : Keeps K b s) : KeepsOut K b (execMemorySpaceEnableClear a0 s) := by
  unfold execMemorySpaceEnableClear
  repeat' with_reducible first | assumption | apply keeps_onFn | apply KeepsOut.next

theorem keeps_execVfEnable {K b} (a0 s) (h : Keeps K b s) : KeepsOut K b (execVfEnable a0 s) := by
  unfold execVfEnable
  repeat' with_reducible first | assumption | apply keeps_vfsOn | apply KeepsOut.next

/-! ### Machine/MeridianUnit.lean -/

theorem keeps_merMove {K b} (a0 a1 s) (h : Keeps K b s) : Keeps K b (merMove a0 a1 s) := by
  unfold merMove
  repeat' with_reducible first | assumption | refine keeps_mk ?_ | apply keeps_raiseEvent

theorem keeps_merStart {K b} (s) (h : Keeps K b s) : Keeps K b (merStart s) := by
  unfold merStart
  repeat' with_reducible first
    | assumption | refine keeps_mk ?_ | apply keeps_merMove
    | (extract_lets +onlyGivenNames x; refine keeps_cut (K := K) (b := b) (v := x) ?_ ?_; unfold x; clear x; rotate_left; (try clear_value x); intro hx)
    | (extract_lets +onlyGivenNames x; (first | (have _h : Sc := x; clear _h; subst x) | (have _h : TokSt := x; clear _h; subst x) | clear_value x | subst x)) | apply keeps_ite

theorem keeps_merSource {K b} (a0 s) (h : Keeps K b s) : Keeps K b (merSource a0 s) := by
  unfold merSource
  repeat' with_reducible first
    | assumption | refine keeps_mk ?_ | apply keeps_merMove
    | (extract_lets +onlyGivenNames x; (first | (have _h : Sc := x; clear _h; subst x) | (have _h : TokSt := x; clear _h; subst x) | clear_value x | subst x)) | apply keeps_ite | split

theorem keeps_transitRead {K b} (a0 s) (h : Keeps K b s) : Keeps K b (transitRead a0 s) := by
  unfold transitRead
  repeat' with_reducible first
    | assumption | refine keeps_mk ?_ | apply keeps_answerRead
    | (extract_lets +onlyGivenNames x; refine keeps_cut (K := K) (b := b) (v := x) ?_ ?_; unfold x; clear x; rotate_left; (try clear_value x); intro hx)
    | (extract_lets +onlyGivenNames x; (first | (have _h : Sc := x; clear _h; subst x) | (have _h : TokSt := x; clear _h; subst x) | clear_value x | subst x)) | apply keeps_ite

theorem keeps_execTransitNowLoRead {K b} (a0 s) (h : Keeps K b s) : KeepsOut K b (execTransitNowLoRead a0 s) := by
  unfold execTransitNowLoRead
  repeat' with_reducible first | assumption | apply keeps_transitRead | apply KeepsOut.next

theorem keeps_catchUpDone {K b} (s) (h : Keeps K b s) : Keeps K b (catchUpDone s) := by
  unfold catchUpDone
  repeat' with_reducible first
    | assumption | refine keeps_mk ?_ | (extract_lets +onlyGivenNames x; (first | (have _h : Sc := x; clear _h; subst x) | (have _h : TokSt := x; clear _h; subst x) | clear_value x | subst x))
    | apply keeps_ite

theorem keeps_merLoss {K b} (s) (h : Keeps K b s) : Keeps K b (merLoss s) := by
  unfold merLoss
  repeat' with_reducible first
    | assumption | refine keeps_mk ?_ | apply keeps_merMove
    | (extract_lets +onlyGivenNames x; refine keeps_cut (K := K) (b := b) (v := x) ?_ ?_; unfold x; clear x; rotate_left; (try clear_value x); intro hx)
    | (extract_lets +onlyGivenNames x; (first | (have _h : Sc := x; clear _h; subst x) | (have _h : TokSt := x; clear _h; subst x) | clear_value x | subst x)) | apply keeps_ite

theorem keeps_ptmOff {K b} (s) (h : Keeps K b s) : Keeps K b (ptmOff s) := by
  unfold ptmOff
  repeat' with_reducible first
    | assumption | refine keeps_mk ?_ | apply keeps_merLoss
    | (extract_lets +onlyGivenNames x; refine keeps_cut (K := K) (b := b) (v := x) ?_ ?_; unfold x; clear x; rotate_left; (try clear_value x); intro hx)
    | (extract_lets +onlyGivenNames x; (first | (have _h : Sc := x; clear _h; subst x) | (have _h : TokSt := x; clear _h; subst x) | clear_value x | subst x)) | apply keeps_ite

theorem keeps_ptmFail {K b} (s) (h : Keeps K b s) : Keeps K b (ptmFail s) := by
  unfold ptmFail
  repeat' with_reducible first
    | assumption | refine keeps_mk ?_ | apply keeps_merLoss
    | (extract_lets +onlyGivenNames x; refine keeps_cut (K := K) (b := b) (v := x) ?_ ?_; unfold x; clear x; rotate_left; (try clear_value x); intro hx)
    | (extract_lets +onlyGivenNames x; (first | (have _h : Sc := x; clear _h; subst x) | (have _h : TokSt := x; clear _h; subst x) | clear_value x | subst x)) | apply keeps_ite

theorem keeps_ptmDialog {K b} (s) (h : Keeps K b s) : Keeps K b (ptmDialog s) := by
  unfold ptmDialog
  repeat' with_reducible first
    | assumption | refine keeps_mk ?_ | apply keeps_ptmFail | apply keeps_emit
    | (extract_lets +onlyGivenNames x; refine keeps_cut (K := K) (b := b) (v := x) ?_ ?_; unfold x; clear x; rotate_left; (try clear_value x); intro hx)
    | (extract_lets +onlyGivenNames x; (first | (have _h : Sc := x; clear _h; subst x) | (have _h : TokSt := x; clear _h; subst x) | clear_value x | subst x)) | apply keeps_ite

theorem keeps_markerBad {K b} (s) (h : Keeps K b s) : Keeps K b (markerBad s) := by
  unfold markerBad
  repeat' with_reducible first
    | assumption | refine keeps_mk ?_ | apply keeps_merLoss
    | (extract_lets +onlyGivenNames x; refine keeps_cut (K := K) (b := b) (v := x) ?_ ?_; unfold x; clear x; rotate_left; (try clear_value x); intro hx)
    | (extract_lets +onlyGivenNames x; (first | (have _h : Sc := x; clear _h; subst x) | (have _h : TokSt := x; clear _h; subst x) | clear_value x | subst x)) | apply keeps_ite

theorem keeps_execCoaxMarkerMissing {K b} (s) (h : Keeps K b s) : KeepsOut K b (execCoaxMarkerMissing s) := by
  unfold execCoaxMarkerMissing
  repeat' with_reducible first | assumption | apply keeps_markerBad | split | apply KeepsOut.next

theorem keeps_coaxEdges {K b} (s) (h : Keeps K b s) : Keeps K b (coaxEdges s) := by
  unfold coaxEdges
  repeat' with_reducible first
    | assumption | refine keeps_mk ?_ | apply keeps_merLoss
    | (extract_lets +onlyGivenNames x; (first | (have _h : Sc := x; clear _h; subst x) | (have _h : TokSt := x; clear _h; subst x) | clear_value x | subst x)) | apply keeps_ite

theorem keeps_execPtmEnableClear {K b} (s) (h : Keeps K b s) : KeepsOut K b (execPtmEnableClear s) := by
  unfold execPtmEnableClear
  repeat' with_reducible first | assumption | apply keeps_ptmOff | apply KeepsOut.next

theorem keeps_merLock {K b} (a0 s) (h : Keeps K b s) : Keeps K b (merLock a0 s) := by
  unfold merLock
  repeat' with_reducible first | assumption | refine keeps_mk ?_ | apply keeps_merMove

theorem keeps_coaxMark {K b} (a0 s) (h : Keeps K b s) : Keeps K b (coaxMark a0 s) := by
  unfold coaxMark
  repeat' with_reducible first
    | assumption | refine keeps_mk ?_ | apply keeps_markerBad | apply keeps_merLock
    | (extract_lets +onlyGivenNames x; refine keeps_cut (K := K) (b := b) (v := x) ?_ ?_; unfold x; clear x; rotate_left; (try clear_value x); intro hx)
    | (extract_lets +onlyGivenNames x; (first | (have _h : Sc := x; clear _h; subst x) | (have _h : TokSt := x; clear _h; subst x) | clear_value x | subst x)) | apply keeps_ite

theorem keeps_execCoaxEdgeLoss {K b} (s) (h : Keeps K b s) : KeepsOut K b (execCoaxEdgeLoss s) := by
  unfold execCoaxEdgeLoss
  repeat' with_reducible first | assumption | apply keeps_coaxEdges | apply KeepsOut.next

theorem keeps_execPtmDialog {K b} (s) (h : Keeps K b s) : KeepsOut K b (execPtmDialog s) := by
  unfold execPtmDialog
  repeat' with_reducible first | assumption | apply keeps_ptmDialog | apply KeepsOut.next

theorem keeps_driftUpdate {K b} (s) (h : Keeps K b s) : Keeps K b (driftUpdate s) := by
  unfold driftUpdate
  repeat' with_reducible first
    | assumption | refine keeps_mk ?_ | (extract_lets +onlyGivenNames x; (first | (have _h : Sc := x; clear _h; subst x) | (have _h : TokSt := x; clear _h; subst x) | clear_value x | subst x))
    | apply keeps_ite

theorem keeps_execHoldoverDriftUpdate {K b} (s) (h : Keeps K b s) : KeepsOut K b (execHoldoverDriftUpdate s) := by
  unfold execHoldoverDriftUpdate
  repeat' with_reducible first | assumption | apply keeps_driftUpdate | apply KeepsOut.next

theorem keeps_ptmAnswer {K b} (a0 a1 s) (h : Keeps K b s) : Keeps K b (ptmAnswer a0 a1 s) := by
  unfold ptmAnswer
  repeat' with_reducible first
    | assumption | refine keeps_mk ?_ | apply keeps_merLoss | apply keeps_merLock
    | (extract_lets +onlyGivenNames x; refine keeps_cut (K := K) (b := b) (v := x) ?_ ?_; unfold x; clear x; rotate_left; (try clear_value x); intro hx)
    | (extract_lets +onlyGivenNames x; (first | (have _h : Sc := x; clear _h; subst x) | (have _h : TokSt := x; clear _h; subst x) | clear_value x | subst x)) | apply keeps_ite

theorem keeps_ptmResponse {K b} (a0 s) (h : Keeps K b s) : Keeps K b (ptmResponse a0 s) := by
  unfold ptmResponse
  repeat' with_reducible first | assumption | apply keeps_ptmFail | apply keeps_ptmAnswer | apply keeps_ite | split

theorem keeps_execPtmResponse {K b} (a0 s) (h : Keeps K b s) : KeepsOut K b (execPtmResponse a0 s) := by
  unfold execPtmResponse
  repeat' with_reducible first | assumption | apply keeps_ptmResponse | apply KeepsOut.next

theorem keeps_holdoverEnd {K b} (s) (h : Keeps K b s) : Keeps K b (holdoverEnd s) := by
  unfold holdoverEnd
  repeat' with_reducible first
    | assumption | apply keeps_raiseEvent | apply keeps_merMove
    | (extract_lets +onlyGivenNames x; (first | (have _h : Sc := x; clear _h; subst x) | (have _h : TokSt := x; clear _h; subst x) | clear_value x | subst x)) | apply keeps_ite

theorem keeps_execCatchUpEnd {K b} (s) (h : Keeps K b s) : KeepsOut K b (execCatchUpEnd s) := by
  unfold execCatchUpEnd
  repeat' with_reducible first | assumption | apply keeps_catchUpDone | apply KeepsOut.next

theorem keeps_execCoaxMarker {K b} (a0 s) (h : Keeps K b s) : KeepsOut K b (execCoaxMarker a0 s) := by
  unfold execCoaxMarker
  repeat' with_reducible first | assumption | apply keeps_coaxMark | apply KeepsOut.next

theorem keeps_execHoldoverExpired {K b} (s) (h : Keeps K b s) : KeepsOut K b (execHoldoverExpired s) := by
  unfold execHoldoverExpired
  repeat' with_reducible first | assumption | apply keeps_holdoverEnd | apply KeepsOut.next

/-! ### Machine/Link.lean -/

theorem keeps_jobDmaFault {K b} (a0 s) (h : Keeps K b s) : Keeps K b (jobDmaFault a0 s) := by
  unfold jobDmaFault
  repeat' with_reducible first | assumption | apply keeps_failJob | apply keeps_ite | split

theorem keeps_fetchFault {K b} (a0 a1 s) (h : Keeps K b s) : Keeps K b (fetchFault a0 a1 s) := by
  unfold fetchFault
  repeat' with_reducible first | assumption | apply keeps_stopSq | apply keeps_ite | split

theorem keeps_dirtyFault {K b} (a0 s) (h : Keeps K b s) : Keeps K b (dirtyFault a0 s) := by
  unfold dirtyFault
  exact keeps_ite (keeps_failLog _ _ h) h

theorem keeps_dmaStop {K b} (a0 a1 s) (h : Keeps K b s) : Keeps K b (dmaStop a0 a1 s) := by
  unfold dmaStop
  repeat' with_reducible first
    | assumption | apply keeps_onFn | apply keeps_dirtyFault | apply keeps_fetchFault | apply keeps_jobDmaFault | apply keeps_stopCq
    | intro _
    | (extract_lets +onlyGivenNames x; refine keeps_pcut (K := K) (b := b) (v := x) ?_ ?_; unfold x; clear x; rotate_left; (try clear_value x); intro hp)
    | (extract_lets +onlyGivenNames x; refine keeps_cut (K := K) (b := b) (v := x) ?_ ?_; unfold x; clear x; rotate_left; (try clear_value x); intro hx)
    | (extract_lets +onlyGivenNames x; (first | (have _h : Sc := x; clear _h; subst x) | (have _h : TokSt := x; clear _h; subst x) | clear_value x | subst x)) | apply keeps_ite | apply keeps_foldl
    | split

theorem keeps_dmaFault {K b} (a0 a1 s) (h : Keeps K b s) : Keeps K b (dmaFault a0 a1 s) := by
  unfold dmaFault
  repeat' with_reducible first
    | assumption | apply keeps_aerFatal | apply keeps_dmaStop | intro _
    | (extract_lets +onlyGivenNames x; refine keeps_pcut (K := K) (b := b) (v := x) ?_ ?_; unfold x; clear x; rotate_left; (try clear_value x); intro hp)
    | (extract_lets +onlyGivenNames x; refine keeps_cut (K := K) (b := b) (v := x) ?_ ?_; unfold x; clear x; rotate_left; (try clear_value x); intro hx)
    | (extract_lets +onlyGivenNames x; (first | (have _h : Sc := x; clear _h; subst x) | (have _h : TokSt := x; clear _h; subst x) | clear_value x | subst x)) | apply keeps_ite | apply keeps_foldl
    | split

theorem keeps_dmaTimeout {K b} (a0 s) (h : Keeps K b s) : Keeps K b (dmaTimeout a0 s) := by
  unfold dmaTimeout
  repeat' with_reducible first
    | assumption | apply keeps_aerFatal | apply keeps_dmaStop | intro _
    | (extract_lets +onlyGivenNames x; refine keeps_pcut (K := K) (b := b) (v := x) ?_ ?_; unfold x; clear x; rotate_left; (try clear_value x); intro hp)
    | (extract_lets +onlyGivenNames x; refine keeps_cut (K := K) (b := b) (v := x) ?_ ?_; unfold x; clear x; rotate_left; (try clear_value x); intro hx)
    | (extract_lets +onlyGivenNames x; (first | (have _h : Sc := x; clear _h; subst x) | (have _h : TokSt := x; clear _h; subst x) | clear_value x | subst x)) | apply keeps_ite | apply keeps_foldl
    | split

theorem keeps_inBandReset {K b} (s) (h : Keeps K b s) : Keeps K b (inBandReset s) := by
  unfold inBandReset
  repeat' with_reducible first | assumption | apply keeps_ptmOff | apply keeps_resetAll | apply keeps_ite

theorem keeps_execHotReset {K b} (s) (h : Keeps K b s) : KeepsOut K b (execHotReset s) := by
  unfold execHotReset
  repeat' with_reducible first | assumption | apply keeps_inBandReset | apply KeepsOut.next

theorem keeps_atsDone {K b} (a0 a1 a2 s) (h : Keeps K b s) : Keeps K b (atsDone a0 a1 a2 s) := by
  unfold atsDone
  repeat' with_reducible first
    | assumption | apply keeps_onFn | apply keeps_emit | intro _
    | (extract_lets +onlyGivenNames x; refine keeps_pcut (K := K) (b := b) (v := x) ?_ ?_; unfold x; clear x; rotate_left; (try clear_value x); intro hp)
    | (extract_lets +onlyGivenNames x; refine keeps_cut (K := K) (b := b) (v := x) ?_ ?_; unfold x; clear x; rotate_left; (try clear_value x); intro hx)
    | (extract_lets +onlyGivenNames x; (first | (have _h : Sc := x; clear _h; subst x) | (have _h : TokSt := x; clear _h; subst x) | clear_value x | subst x)) | apply keeps_ite | apply keeps_foldl
    | split

theorem keeps_execAtsInvalidate {K b} (a0 a1 s) (h : Keeps K b s) : KeepsOut K b (execAtsInvalidate a0 a1 s) := by
  unfold execAtsInvalidate
  repeat' with_reducible first | assumption | apply keeps_atsDone | apply KeepsOut.next

theorem keeps_linkRetrained {K b} (a0 a1 s) (h : Keeps K b s) : Keeps K b (linkRetrained a0 a1 s) := by
  unfold linkRetrained
  repeat' with_reducible first
    | assumption | refine keeps_mk ?_ | apply keeps_raiseEvent
    | (extract_lets +onlyGivenNames x; refine keeps_cut (K := K) (b := b) (v := x) ?_ ?_; unfold x; clear x; rotate_left; (try clear_value x); intro hx)
    | (extract_lets +onlyGivenNames x; (first | (have _h : Sc := x; clear _h; subst x) | (have _h : TokSt := x; clear _h; subst x) | clear_value x | subst x)) | apply keeps_ite

theorem keeps_execLinkRetrain {K b} (a0 a1 s) (h : Keeps K b s) : KeepsOut K b (execLinkRetrain a0 a1 s) := by
  unfold execLinkRetrain
  repeat' with_reducible first | assumption | apply keeps_linkRetrained | apply KeepsOut.next

theorem keeps_sendPending {K b} (a0 s) (h : Keeps K b s) : Keeps K b (sendPending a0 s) := by
  unfold sendPending
  repeat' with_reducible first
    | assumption | apply keeps_onFn | apply keeps_sendMsix | intro _
    | (extract_lets +onlyGivenNames x; refine keeps_pcut (K := K) (b := b) (v := x) ?_ ?_; unfold x; clear x; rotate_left; (try clear_value x); intro hp)
    | (extract_lets +onlyGivenNames x; refine keeps_cut (K := K) (b := b) (v := x) ?_ ?_; unfold x; clear x; rotate_left; (try clear_value x); intro hx)
    | (extract_lets +onlyGivenNames x; (first | (have _h : Sc := x; clear _h; subst x) | (have _h : TokSt := x; clear _h; subst x) | clear_value x | subst x)) | apply keeps_ite | apply keeps_foldl
    | split

theorem keeps_unmask {K b} (a0 a1 s) (h : Keeps K b s) : Keeps K b (unmask a0 a1 s) := by
  unfold unmask
  repeat' with_reducible first | assumption | apply keeps_onFn | apply keeps_sendPending | split

theorem keeps_linkUpAt {K b} (a0 a1 s) (h : Keeps K b s) : Keeps K b (linkUpAt a0 a1 s) := by
  unfold linkUpAt
  repeat' with_reducible first
    | assumption | refine keeps_mk ?_ | (extract_lets +onlyGivenNames x; (first | (have _h : Sc := x; clear _h; subst x) | (have _h : TokSt := x; clear _h; subst x) | clear_value x | subst x))
    | apply keeps_ite

theorem keeps_execLinkUp {K b} (a0 a1 s) (h : Keeps K b s) : KeepsOut K b (execLinkUp a0 a1 s) := by
  unfold execLinkUp
  repeat' with_reducible first | assumption | apply keeps_linkUpAt | apply KeepsOut.next

theorem keeps_execSecondaryBusReset {K b} (s) (h : Keeps K b s) : KeepsOut K b (execSecondaryBusReset s) := by
  unfold execSecondaryBusReset
  repeat' with_reducible first | assumption | apply keeps_inBandReset | apply KeepsOut.next

theorem keeps_linkDown {K b} (s) (h : Keeps K b s) : Keeps K b (linkDown s) := by
  unfold linkDown
  repeat' with_reducible first
    | assumption | refine keeps_mk ?_ | apply keeps_inBandReset
    | (extract_lets +onlyGivenNames x; refine keeps_cut (K := K) (b := b) (v := x) ?_ ?_; unfold x; clear x; rotate_left; (try clear_value x); intro hx)
    | (extract_lets +onlyGivenNames x; (first | (have _h : Sc := x; clear _h; subst x) | (have _h : TokSt := x; clear _h; subst x) | clear_value x | subst x)) | apply keeps_ite

theorem keeps_execDmaReadFailure {K b} (a0 s) (h : Keeps K b s) : KeepsOut K b (execDmaReadFailure a0 s) := by
  unfold execDmaReadFailure
  repeat' with_reducible first | assumption | apply keeps_dmaFault | apply KeepsOut.next

theorem keeps_execCompletionTimeout {K b} (a0 s) (h : Keeps K b s) : KeepsOut K b (execCompletionTimeout a0 s) := by
  unfold execCompletionTimeout
  repeat' with_reducible first | assumption | apply keeps_dmaTimeout | apply KeepsOut.next

theorem keeps_execDlDown {K b} (s) (h : Keeps K b s) : KeepsOut K b (execDlDown s) := by
  unfold execDlDown
  repeat' with_reducible first | assumption | apply keeps_linkDown | apply KeepsOut.next

theorem keeps_execMsixUnmask {K b} (a0 a1 s) (h : Keeps K b s) : KeepsOut K b (execMsixUnmask a0 a1 s) := by
  unfold execMsixUnmask
  repeat' with_reducible first | assumption | apply keeps_unmask | apply KeepsOut.next

/-! ### Machine/Ledger.lean -/

theorem keeps_dropAnchoredKeys {K b} (s) (h : Keeps K b s) : Keeps K b (dropAnchoredKeys s) := by
  unfold dropAnchoredKeys
  repeat' with_reducible first | assumption | refine keeps_mk ?_

/-- A change of the token whose stateful keys are among those it had, each changed through `g`. -/
theorem keeps_onToken_keys {K b} (s f) (g : Token → StatefulKey → StatefulKey) (h : Keeps K b s) (hf : ∀ t, ∀ l ∈ (f t).stateful, ∃ k ∈ t.stateful, l = g t k)
    (h1 : ∀ t k, LeafOk k → LeafOk (g t k) := by with_unfolding_all exact fun _ _ h => h)
    (h2 : ∀ t k, LaterKey k (g t k) := by with_unfolding_all exact fun _ _ => ⟨rfl, rfl, rfl, rfl, Nat.le_refl _, Nat.le_refl _⟩) : Keeps K b (State.onToken s f) := by
  refine h.to (l := ?_) (n := .of f rfl ?_)
  · intro hl u hu l hk
    obtain ⟨t, ht, rfl⟩ := Option.map_eq_some_iff.1 hu
    obtain ⟨k, hm, rfl⟩ := hf t l hk
    exact h1 t k (hl t ht k hm)
  · intro t _ l hl
    obtain ⟨k, hk, rfl⟩ := hf t l hl
    exact ⟨k, hk, h2 t k⟩
theorem keeps_onToken {K b} (s f) (h : Keeps K b s) (hf : ∀ t, (f t).stateful = t.stateful := by with_unfolding_all exact fun _ => rfl) : Keeps K b (State.onToken s f) :=
  keeps_onToken_keys s f (fun _ k => k) h (fun t l hl => ⟨l, hf t ▸ hl, rfl⟩)

/-- A change of the token, shown of the one in the socket, that leaves its stateful keys. -/
theorem keeps_onToken_of {K b} (s f) (h : Keeps K b s) (hf : ∀ t, s.tok.socket = some t → (f t).stateful = t.stateful) : Keeps K b (State.onToken s f) := by
  refine h.to (l := ?_) (n := .of f rfl fun t ht l hl => ⟨l, hf t ht ▸ hl, .refl l⟩)
  intro hl u hu l hk
  obtain ⟨t, ht, rfl⟩ := Option.map_eq_some_iff.1 hu
  exact hl t ht l (hf t ht ▸ hk)

theorem leaf_burn (k : StatefulKey) (h : LeafOk k) : LeafOk (burnLeaves k) :=
  ⟨by show max k.next k.endLeaf ≤ k.endLeaf; have := h.1; omega, by simp [burnLeaves], by simp [burnLeaves]⟩
theorem later_burn (k : StatefulKey) : LaterKey k (burnLeaves k) := ⟨rfl, rfl, rfl, rfl, Nat.le_max_left .., Nat.le_refl _⟩
theorem mem_map_key {l : List StatefulKey} {g : StatefulKey → StatefulKey} : ∀ x ∈ l.map g, ∃ k ∈ l, x = g k := fun x hx => by
  obtain ⟨k, hk, e⟩ := List.mem_map.1 hx
  exact ⟨k, hk, e.symm⟩
theorem keeps_burn {K b} (s) (h : Keeps K b s) : Keeps K b (s.onToken (fun (t : Token) => { t with stateful := t.stateful.map burnLeaves })) :=
  keeps_onToken_keys s _ (fun _ => burnLeaves) h (fun _ => mem_map_key) (fun _ => leaf_burn) (fun _ => later_burn)

theorem keeps_tokenEvent {K b} (a0 a1 s) (h : Keeps K b s) : Keeps K b (tokenEvent a0 a1 s) := by
  unfold tokenEvent
  repeat' with_reducible first | assumption | apply keeps_raiseEvent | apply keeps_ringEvent

theorem keeps_sessionEvent {K b} (s) (h : Keeps K b s) : Keeps K b (sessionEvent s) := by
  unfold sessionEvent
  repeat' with_reducible first | assumption | apply keeps_tokenEvent

theorem keeps_endSession {K b} (s) (h : Keeps K b s) : Keeps K b (endSession s) := by
  unfold endSession
  repeat' with_reducible first
    | assumption | apply keeps_clampRights | refine keeps_mk ?_ | apply keeps_dropAnchoredKeys | apply keeps_burn | apply keeps_sessionEvent
    | (extract_lets +onlyGivenNames x; refine keeps_cut (K := K) (b := b) (v := x) ?_ ?_; unfold x; clear x; rotate_left; (try clear_value x); intro hx)
    | (extract_lets +onlyGivenNames x; (first | (have _h : Sc := x; clear _h; subst x) | (have _h : TokSt := x; clear _h; subst x) | clear_value x | subst x)) | apply keeps_ite

theorem keeps_noteLife {K b} (a0 s) (h : Keeps K b s) : Keeps K b (noteLife a0 s) := by
  unfold noteLife
  repeat' with_reducible first
    | assumption | refine keeps_mk ?_ | apply keeps_tokenEvent | apply keeps_burn
    | (extract_lets +onlyGivenNames x; refine keeps_cut (K := K) (b := b) (v := x) ?_ ?_; unfold x; clear x; rotate_left; (try clear_value x); intro hx)
    | (extract_lets +onlyGivenNames x; (first | (have _h : Sc := x; clear _h; subst x) | (have _h : TokSt := x; clear _h; subst x) | clear_value x | subst x)) | apply keeps_ite

theorem keeps_framed {K b} (s) (h : Keeps K b s) : Keeps K b (State.framed s) := by
  unfold State.framed
  repeat' with_reducible first
    | assumption | refine keeps_mk ?_ | apply hg | intro _
    | (extract_lets +onlyGivenNames x; refine keeps_pcut (K := K) (b := b) (v := x) ?_ ?_; unfold x; clear x; rotate_left; (try clear_value x); intro hp)
    | (extract_lets +onlyGivenNames x; refine keeps_fcut (K := K) (b := b) (v := x) ?_ ?_; unfold x; clear x; rotate_left; (try clear_value x); intro hg)
    | (extract_lets +onlyGivenNames x; refine keeps_fcut2 (K := K) (b := b) (v := x) ?_ ?_; unfold x; clear x; rotate_left; (try clear_value x); intro hg)
    | (extract_lets +onlyGivenNames x; refine keeps_cut (K := K) (b := b) (v := x) ?_ ?_; unfold x; clear x; rotate_left; (try clear_value x); intro hx)
    | (extract_lets +onlyGivenNames x; (first | (have _h : Sc := x; clear _h; subst x) | (have _h : TokSt := x; clear _h; subst x) | clear_value x | subst x)) | apply keeps_ite | apply keeps_foldl
    | split

theorem keeps_refreshLife {K b} (s) (h : Keeps K b s) : Keeps K b (refreshLife s) := by
  unfold refreshLife
  repeat' with_reducible first
    | assumption | apply keeps_framed | refine keeps_mk ?_ | apply keeps_noteLife
    | (extract_lets +onlyGivenNames x; (first | (have _h : Sc := x; clear _h; subst x) | (have _h : TokSt := x; clear _h; subst x) | clear_value x | subst x)) | split

theorem keeps_noteToken {K b} (s) (h : Keeps K b s) : Keeps K b (noteToken s) := by
  unfold noteToken
  repeat' with_reducible first
    | assumption | apply keeps_noteLife | intro _
    | (extract_lets +onlyGivenNames x; refine keeps_pcut (K := K) (b := b) (v := x) ?_ ?_; unfold x; clear x; rotate_left; (try clear_value x); intro hp)
    | (extract_lets +onlyGivenNames x; refine keeps_cut (K := K) (b := b) (v := x) ?_ ?_; unfold x; clear x; rotate_left; (try clear_value x); intro hx)
    | (extract_lets +onlyGivenNames x; (first | (have _h : Sc := x; clear _h; subst x) | (have _h : TokSt := x; clear _h; subst x) | clear_value x | subst x)) | apply keeps_ite | apply keeps_foldl
    | split

theorem keeps_writeLeafRec {K b} (a0 s) (h : Keeps K b s) : Keeps K b (writeLeafRec a0 s) := by
  unfold writeLeafRec
  repeat' with_reducible first
    | assumption | apply keeps_framed | refine keeps_onToken _ _ ?_ (stateful_logRecord _ _) | apply keeps_noteToken | intro _
    | (extract_lets +onlyGivenNames x; refine keeps_pcut (K := K) (b := b) (v := x) ?_ ?_; unfold x; clear x; rotate_left; (try clear_value x); intro hp)
    | (extract_lets +onlyGivenNames x; refine keeps_cut (K := K) (b := b) (v := x) ?_ ?_; unfold x; clear x; rotate_left; (try clear_value x); intro hx)
    | (extract_lets +onlyGivenNames x; (first | (have _h : Sc := x; clear _h; subst x) | (have _h : TokSt := x; clear _h; subst x) | clear_value x | subst x)) | apply keeps_ite | apply keeps_foldl
    | split

theorem keeps_reservationDone {K b} (a0 a1 s) (h : Keeps K b s) : Keeps K b (reservationDone a0 a1 s) := by
  unfold reservationDone
  split
  · exact h
  · rename_i k e
    refine keeps_ite h (keeps_noteLow _ _ _ (keeps_writeLeafRec _ _ (keeps_onStateful_of _ _ _ _ h fun t x ht hx => ?_)))
    unfold anchored at e
    split at e
    · rw [ht] at e
      rw [show t.stateful.find? (fun k => k.domain == a0 && k.index == a1) = some k from e] at hx
      cases hx
      have hi : k.endLeaf ≤ max k.endLeaf (min (k.endLeaf + 2 ^ reserveExp s k) (leafCount k)) := Nat.le_max_left ..
      refine ⟨fun ok => ⟨Nat.le_trans ok.1 hi, all_append (fun r hr => Nat.le_trans (ok.2.1 r hr) hi) ?_, List.pairwise_append.2 ⟨ok.2.2, ?_, fun r hr q hq => ?_⟩⟩,
        rfl, rfl, rfl, rfl, Nat.le_refl _, hi⟩
      · intro r hr
        split at hr
        · exact Nat.le_of_eq (congrArg (fun (r : Nat × Nat) => r.2) (List.mem_singleton.1 hr))
        · cases hr
      · split
        · exact List.pairwise_singleton _ _
        · exact List.Pairwise.nil
      · split at hq
        · rw [List.mem_singleton.1 hq]
          exact ok.2.1 r hr
        · cases hq
    · cases e

theorem keeps_lifeTick {K b} (s) (h : Keeps K b s) : Keeps K b (lifeTick s) := by
  unfold lifeTick
  repeat' with_reducible first | assumption | apply keeps_refreshLife | apply keeps_ite

theorem keeps_execTokenLifeRefresh {K b} (s) (h : Keeps K b s) : KeepsOut K b (execTokenLifeRefresh s) := by
  unfold execTokenLifeRefresh
  repeat' with_reducible first | assumption | apply keeps_lifeTick | apply KeepsOut.next

theorem keeps_latchForced {K b} (s) (h : Keeps K b s) : Keeps K b (latchForced s) := by
  unfold latchForced
  repeat' with_reducible first
    | assumption | refine keeps_mk ?_ | apply keeps_endSession | apply keeps_raiseEvent
    | (extract_lets +onlyGivenNames x; refine keeps_cut (K := K) (b := b) (v := x) ?_ ?_; unfold x; clear x; rotate_left; (try clear_value x); intro hx)
    | (extract_lets +onlyGivenNames x; (first | (have _h : Sc := x; clear _h; subst x) | (have _h : TokSt := x; clear _h; subst x) | clear_value x | subst x)) | apply keeps_ite

theorem keeps_execLatchOpen {K b} (s) (h : Keeps K b s) : KeepsOut K b (execLatchOpen s) := by
  unfold execLatchOpen
  repeat' with_reducible first | assumption | apply keeps_latchForced | apply KeepsOut.next

theorem keeps_execReservationCommit {K b} (a0 a1 s) (h : Keeps K b s) : KeepsOut K b (execReservationCommit a0 a1 s) := by
  unfold execReservationCommit
  repeat' with_reducible first | assumption | apply keeps_reservationDone | apply KeepsOut.next

theorem keeps_execTokenSessionEnd {K b} (s) (h : Keeps K b s) : KeepsOut K b (execTokenSessionEnd s) := by
  unfold execTokenSessionEnd
  repeat' with_reducible first | assumption | apply keeps_endSession | apply KeepsOut.next

end Sys2Proof.Machine
end

