-- ==== Sys2Proof/Laws/KeepJobs.lean ====
section
/-!
SUPPORT. What a command keeps (Laws/Keeps.lean), for the services.
-/
namespace Sys2Proof.Machine
set_option Elab.async false -- the package as one text has more theorems than threads

/-! ### Machine/AttestJobs.lean -/

theorem keeps_svcQuote {K b} (a0 a1 s) (h : Keeps K b s) : Keeps K b (svcQuote a0 a1 s).2 := by
  unfold svcQuote
  repeat' with_reducible first
    | assumption | apply keeps_drawBytes
    | (extract_lets +onlyGivenNames x; refine keeps_pcut (K := K) (b := b) (v := x) ?_ ?_; unfold x; clear x; rotate_left; (try clear_value x); intro hp) | split

theorem keeps_svcIdentity {K b} (a0 a1 s) (h : Keeps K b s) : Keeps K b (svcIdentity a0 a1 s).2 := by
  unfold svcIdentity
  repeat' with_reducible first | assumption

theorem keeps_svcChallenge {K b} (a0 a1 s) (h : Keeps K b s) : Keeps K b (svcChallenge a0 a1 s).2 := by
  unfold svcChallenge
  repeat' with_reducible first | assumption | split

/-! ### Machine/ClassicalJobs.lean -/

theorem keeps_svcEdSign {K b} (a0 a1 s) (h : Keeps K b s) : Keeps K b (svcEdSign a0 a1 s).2 := by
  unfold svcEdSign
  repeat' with_reducible first | assumption

theorem keeps_ecdsaDraw {K : Breaks} {b : State} (c : PCurve) (d : Nat) (g : Bytes) (n : Nat) (s : State) (h : Keeps K b s) : Keeps K b (ecdsaDraw c d g n s).2 := by
  induction n generalizing s with
  | zero => exact h
  | succ n ih =>
    unfold ecdsaDraw
    have h1 := keeps_drawBytes (ecScalarLen c) _ h
    dsimp only
    split
    · exact ih _ h1
    · exact h1

theorem keeps_pairEc {K b} (a0 s) (h : Keeps K b s) : Keeps K b (pairEc a0 s).2 := by
  unfold pairEc
  repeat' with_reducible first
    | assumption | apply keeps_drawBytes | apply keeps_ecdsaDraw
    | (extract_lets +onlyGivenNames x; (first | (have _h : Sc := x; clear _h; subst x) | (have _h : TokSt := x; clear _h; subst x) | clear_value x | subst x)) | split

theorem keeps_probablyPrime {K : Breaks} {b : State} (m n : Nat) (s : State) (h : Keeps K b s) : Keeps K b (probablyPrime m n s).2 := by
  induction n generalizing s with
  | zero => exact h
  | succ n ih =>
    unfold probablyPrime
    have h1 := keeps_drawNat (m - 3) _ h
    dsimp only
    split
    · exact ih _ h1
    · exact h1

theorem keeps_primeSearch {K : Breaks} {b : State} (w d p n : Nat) (s : State) (h : Keeps K b s) : Keeps K b (primeSearch w d p n s).2 := by
  induction n generalizing s with
  | zero => exact h
  | succ n ih =>
    unfold primeSearch
    have h1 := keeps_drawNat (2 ^ d - primeFloor d) _ h
    have h2 := fun m r => keeps_probablyPrime m r _ h1
    dsimp only
    repeat' first
      | exact ih _ h1
      | exact ih _ (h2 _ _)
      | exact h2 _ _
      | split

theorem keeps_pairRsa {K b} (a0 a1 s) (h : Keeps K b s) : Keeps K b (pairRsa a0 a1 s).2 := by
  unfold pairRsa
  repeat' with_reducible first
    | assumption | apply keeps_primeSearch
    | (extract_lets +onlyGivenNames x; refine keeps_pcut (K := K) (b := b) (v := x) ?_ ?_; unfold x; clear x; rotate_left; (try clear_value x); intro hp)
    | (extract_lets +onlyGivenNames x; (first | (have _h : Sc := x; clear _h; subst x) | (have _h : TokSt := x; clear _h; subst x) | clear_value x | subst x)) | split

theorem keeps_pairEd {K b} (a0 s) (h : Keeps K b s) : Keeps K b (pairEd a0 s).2 := by
  unfold pairEd
  repeat' with_reducible first | assumption | apply keeps_drawBytes

theorem keeps_svcRaw {K b} (a0 a1 a2 s) (h : Keeps K b s) : Keeps K b (svcRaw a0 a1 a2 s).2 := by
  unfold svcRaw
  repeat' with_reducible first | assumption | (extract_lets +onlyGivenNames x; (first | (have _h : Sc := x; clear _h; subst x) | (have _h : TokSt := x; clear _h; subst x) | clear_value x | subst x)) | split

theorem keeps_execRawAdd {K b} (a0 s) (h : Keeps K b s) : KeepsOut K b (execRawAdd a0 s) := by
  unfold execRawAdd
  repeat' with_reducible first | assumption | apply keeps_runPlain | apply keeps_svcRaw | apply KeepsOut.next

theorem keeps_svcEcdsaVerify {K b} (a0 a1 s) (h : Keeps K b s) : Keeps K b (svcEcdsaVerify a0 a1 s).2 := by
  unfold svcEcdsaVerify
  repeat' with_reducible first | assumption | (extract_lets +onlyGivenNames x; (first | (have _h : Sc := x; clear _h; subst x) | (have _h : TokSt := x; clear _h; subst x) | clear_value x | subst x)) | split

theorem keeps_svcRsaDecrypt {K b} (a0 a1 s) (h : Keeps K b s) : Keeps K b (svcRsaDecrypt a0 a1 s).2 := by
  unfold svcRsaDecrypt
  repeat' with_reducible first | assumption | (extract_lets +onlyGivenNames x; (first | (have _h : Sc := x; clear _h; subst x) | (have _h : TokSt := x; clear _h; subst x) | clear_value x | subst x)) | split

theorem keeps_svcRsaSign {K b} (a0 a1 s) (h : Keeps K b s) : Keeps K b (svcRsaSign a0 a1 s).2 := by
  unfold svcRsaSign
  repeat' with_reducible first | assumption | apply keeps_drawBytes

theorem keeps_agreed {K b} (a0 a1 s) (h : Keeps K b s) : Keeps K b (agreed a0 a1 s).2 := by
  unfold agreed
  repeat' with_reducible first
    | assumption | apply keeps_drawKeyId
    | (extract_lets +onlyGivenNames x; refine keeps_pcut (K := K) (b := b) (v := x) ?_ ?_; unfold x; clear x; rotate_left; (try clear_value x); intro hp) | split

theorem keeps_svcEcdh {K b} (a0 a1 s) (h : Keeps K b s) : Keeps K b (svcEcdh a0 a1 s).2 := by
  unfold svcEcdh
  repeat' with_reducible first | assumption | apply keeps_agreed | split

theorem keeps_execEcdh {K b} (a0 s) (h : Keeps K b s) : KeepsOut K b (execEcdh a0 s) := by
  unfold execEcdh
  repeat' with_reducible first | assumption | apply keeps_runPlain | apply keeps_svcEcdh | apply KeepsOut.next

theorem keeps_execRsaDecrypt {K b} (a0 s) (h : Keeps K b s) : KeepsOut K b (execRsaDecrypt a0 s) := by
  unfold execRsaDecrypt
  repeat' with_reducible first | assumption | apply keeps_runPlain | apply keeps_svcRsaDecrypt | apply KeepsOut.next

theorem keeps_svcRun {K b} (a0 a1 s) (h : Keeps K b s) : Keeps K b (svcRun a0 a1 s).2 := by
  unfold svcRun
  repeat' with_reducible first
    | assumption | refine keeps_mk ?_
    | (extract_lets +onlyGivenNames x; refine keeps_cut (K := K) (b := b) (v := x) ?_ ?_; unfold x; clear x; rotate_left; (try clear_value x); intro hx)
    | (extract_lets +onlyGivenNames x; (first | (have _h : Sc := x; clear _h; subst x) | (have _h : TokSt := x; clear _h; subst x) | clear_value x | subst x)) | split

theorem keeps_execRun {K b} (a0 s) (h : Keeps K b s) : KeepsOut K b (execRun a0 s) := by
  unfold execRun
  repeat' with_reducible first | assumption | apply keeps_runPlain | apply keeps_svcRun | apply KeepsOut.next

theorem keeps_svcAgree {K b} (a0 a1 s) (h : Keeps K b s) : Keeps K b (svcAgree a0 a1 s).2 := by
  unfold svcAgree
  repeat' with_reducible first
    | assumption | apply keeps_agreed | (extract_lets +onlyGivenNames x; (first | (have _h : Sc := x; clear _h; subst x) | (have _h : TokSt := x; clear _h; subst x) | clear_value x | subst x)) | split

theorem keeps_execRawSub {K b} (a0 s) (h : Keeps K b s) : KeepsOut K b (execRawSub a0 s) := by
  unfold execRawSub
  repeat' with_reducible first | assumption | apply keeps_runPlain | apply keeps_svcRaw | apply KeepsOut.next

theorem keeps_execEcdsaVerify {K b} (a0 s) (h : Keeps K b s) : KeepsOut K b (execEcdsaVerify a0 s) := by
  unfold execEcdsaVerify
  repeat' with_reducible first | assumption | apply keeps_runPlain | apply keeps_svcEcdsaVerify | apply KeepsOut.next

theorem keeps_svcRsaVerify {K b} (a0 a1 s) (h : Keeps K b s) : Keeps K b (svcRsaVerify a0 a1 s).2 := by
  unfold svcRsaVerify
  repeat' with_reducible first | assumption | (extract_lets +onlyGivenNames x; (first | (have _h : Sc := x; clear _h; subst x) | (have _h : TokSt := x; clear _h; subst x) | clear_value x | subst x)) | split

theorem keeps_svcEdVerify {K b} (a0 a1 s) (h : Keeps K b s) : Keeps K b (svcEdVerify a0 a1 s).2 := by
  unfold svcEdVerify
  repeat' with_reducible first | assumption | (extract_lets +onlyGivenNames x; (first | (have _h : Sc := x; clear _h; subst x) | (have _h : TokSt := x; clear _h; subst x) | clear_value x | subst x)) | split

theorem keeps_execEdVerify {K b} (a0 s) (h : Keeps K b s) : KeepsOut K b (execEdVerify a0 s) := by
  unfold execEdVerify
  repeat' with_reducible first | assumption | apply keeps_runPlain | apply keeps_svcEdVerify | apply KeepsOut.next

theorem keeps_execRawSqr {K b} (a0 s) (h : Keeps K b s) : KeepsOut K b (execRawSqr a0 s) := by
  unfold execRawSqr
  repeat' with_reducible first | assumption | apply keeps_runPlain | apply keeps_svcRaw | apply KeepsOut.next

theorem keeps_execRawInv {K b} (a0 s) (h : Keeps K b s) : KeepsOut K b (execRawInv a0 s) := by
  unfold execRawInv
  repeat' with_reducible first | assumption | apply keeps_runPlain | apply keeps_svcRaw | apply KeepsOut.next

theorem keeps_execEdSign {K b} (a0 s) (h : Keeps K b s) : KeepsOut K b (execEdSign a0 s) := by
  unfold execEdSign
  repeat' with_reducible first | assumption | apply keeps_runPlain | apply keeps_svcEdSign | apply KeepsOut.next

theorem keeps_svcEcdsaSign {K b} (a0 a1 s) (h : Keeps K b s) : Keeps K b (svcEcdsaSign a0 a1 s).2 := by
  unfold svcEcdsaSign
  repeat' with_reducible first
    | assumption | apply keeps_ecdsaDraw | (extract_lets +onlyGivenNames x; (first | (have _h : Sc := x; clear _h; subst x) | (have _h : TokSt := x; clear _h; subst x) | clear_value x | subst x)) | split

theorem keeps_execEcdsaSign {K b} (a0 s) (h : Keeps K b s) : KeepsOut K b (execEcdsaSign a0 s) := by
  unfold execEcdsaSign
  repeat' with_reducible first | assumption | apply keeps_runPlain | apply keeps_svcEcdsaSign | apply KeepsOut.next

theorem keeps_execRsaVerify {K b} (a0 s) (h : Keeps K b s) : KeepsOut K b (execRsaVerify a0 s) := by
  unfold execRsaVerify
  repeat' with_reducible first | assumption | apply keeps_runPlain | apply keeps_svcRsaVerify | apply KeepsOut.next

theorem keeps_svcRsaEncrypt {K b} (a0 a1 s) (h : Keeps K b s) : Keeps K b (svcRsaEncrypt a0 a1 s).2 := by
  unfold svcRsaEncrypt
  repeat' with_reducible first
    | assumption | apply keeps_drawBytes
    | (extract_lets +onlyGivenNames x; refine keeps_pcut (K := K) (b := b) (v := x) ?_ ?_; unfold x; clear x; rotate_left; (try clear_value x); intro hp)
    | (extract_lets +onlyGivenNames x; (first | (have _h : Sc := x; clear _h; subst x) | (have _h : TokSt := x; clear _h; subst x) | clear_value x | subst x)) | split

theorem keeps_execRsaEncrypt {K b} (a0 s) (h : Keeps K b s) : KeepsOut K b (execRsaEncrypt a0 s) := by
  unfold execRsaEncrypt
  repeat' with_reducible first | assumption | apply keeps_runPlain | apply keeps_svcRsaEncrypt | apply KeepsOut.next

theorem keeps_execAgree {K b} (a0 s) (h : Keeps K b s) : KeepsOut K b (execAgree a0 s) := by
  unfold execAgree
  repeat' with_reducible first | assumption | apply keeps_runPlain | apply keeps_svcAgree | apply KeepsOut.next

theorem keeps_execRawExp {K b} (a0 s) (h : Keeps K b s) : KeepsOut K b (execRawExp a0 s) := by
  unfold execRawExp
  repeat' with_reducible first | assumption | apply keeps_runPlain | apply keeps_svcRaw | apply KeepsOut.next

theorem keeps_execRsaSign {K b} (a0 s) (h : Keeps K b s) : KeepsOut K b (execRsaSign a0 s) := by
  unfold execRsaSign
  repeat' with_reducible first | assumption | apply keeps_runPlain | apply keeps_svcRsaSign | apply KeepsOut.next

theorem keeps_execRawMul {K b} (a0 s) (h : Keeps K b s) : KeepsOut K b (execRawMul a0 s) := by
  unfold execRawMul
  repeat' with_reducible first | assumption | apply keeps_runPlain | apply keeps_svcRaw | apply KeepsOut.next

/-! ### Machine/CodeJobs.lean -/

theorem keeps_mcelieceAttempts {K : Breaks} {b : State} (ps n : Nat) (s : State) (h : Keeps K b s) : Keeps K b (mcelieceAttempts ps n s).2 := by
  induction n generalizing s with
  | zero => exact h
  | succ n ih =>
    unfold mcelieceAttempts
    have h1 := keeps_drawBytes 32 _ h
    dsimp only
    split
    · exact h1
    · exact ih _ h1

theorem keeps_mcErrors {K : Breaks} {b : State} (x : McSet) (n : Nat) (s : State) (h : Keeps K b s) : Keeps K b (mcErrors x n s).2 := by
  induction n generalizing s with
  | zero => exact h
  | succ n ih =>
    unfold mcErrors
    extract_lets r
    have hr : Keeps K b r.2 := keeps_drawBytes _ _ h
    clear_value r
    split
    · exact hr
    · exact ih _ hr

theorem keeps_codeEncaps {K b} (a0 a1 s) (h : Keeps K b s) : Keeps K b (codeEncaps a0 a1 s).2 := by
  unfold codeEncaps
  repeat' with_reducible first
    | assumption | apply keeps_drawBytes | apply keeps_mcErrors 
    | (extract_lets +onlyGivenNames x; refine keeps_pcut (K := K) (b := b) (v := x) ?_ ?_; unfold x; clear x; rotate_left; (try clear_value x); intro hp)
    | (extract_lets +onlyGivenNames x; (first | (have _h : Sc := x; clear _h; subst x) | (have _h : TokSt := x; clear _h; subst x) | clear_value x | subst x))
    | split | (apply keeps_snd; assumption)

theorem keeps_pairCode {K b} (a0 a1 s) (h : Keeps K b s) : Keeps K b (pairCode a0 a1 s).2 := by
  unfold pairCode
  repeat' with_reducible first
    | assumption | apply keeps_codeEncaps | apply keeps_drawBytes | apply keeps_mcelieceAttempts 
    | (extract_lets +onlyGivenNames x; refine keeps_pcut (K := K) (b := b) (v := x) ?_ ?_; unfold x; clear x; rotate_left; (try clear_value x); intro hp)
    | (extract_lets +onlyGivenNames x; (first | (have _h : Sc := x; clear _h; subst x) | (have _h : TokSt := x; clear _h; subst x) | clear_value x | subst x))
    | split | (apply keeps_snd; assumption)

theorem keeps_svcCodeDecaps {K b} (a0 a1 s) (h : Keeps K b s) : Keeps K b (svcCodeDecaps a0 a1 s).2 := by
  unfold svcCodeDecaps
  repeat' with_reducible first | assumption

theorem keeps_execCodeDecaps {K b} (a0 s) (h : Keeps K b s) : KeepsOut K b (execCodeDecaps a0 s) := by
  unfold execCodeDecaps
  repeat' with_reducible first | assumption | apply keeps_runPlain | apply keeps_svcCodeDecaps | apply KeepsOut.next

theorem keeps_svcLoadPublic {K b} (a0 a1 s) (h : Keeps K b s) : Keeps K b (svcLoadPublic a0 a1 s).2 := by
  unfold svcLoadPublic
  repeat' with_reducible first
    | assumption | apply keeps_drawKeyId
    | (extract_lets +onlyGivenNames x; refine keeps_pcut (K := K) (b := b) (v := x) ?_ ?_; unfold x; clear x; rotate_left; (try clear_value x); intro hp)
    | (extract_lets +onlyGivenNames x; (first | (have _h : Sc := x; clear _h; subst x) | (have _h : TokSt := x; clear _h; subst x) | clear_value x | subst x)) | split

theorem keeps_capWrap {K b} (a0 a1 a2 s) (h : Keeps K b s) : Keeps K b (capWrap a0 a1 a2 s).2 := by
  unfold capWrap
  repeat' with_reducible first
    | assumption | apply keeps_codeEncaps | apply keeps_drawBytes 
    | (extract_lets +onlyGivenNames x; refine keeps_pcut (K := K) (b := b) (v := x) ?_ ?_; unfold x; clear x; rotate_left; (try clear_value x); intro hp)
    | (extract_lets +onlyGivenNames x; (first | (have _h : Sc := x; clear _h; subst x) | (have _h : TokSt := x; clear _h; subst x) | clear_value x | subst x))
    | split | (apply keeps_snd; assumption)

theorem keeps_svcSeal {K b} (a0 a1 s) (h : Keeps K b s) : Keeps K b (svcSeal a0 a1 s).2 := by
  unfold svcSeal
  repeat' with_reducible first
    | assumption | apply keeps_drawBytes | apply keeps_drawKeyId | apply keeps_capWrap
    | (extract_lets +onlyGivenNames x; refine keeps_pcut (K := K) (b := b) (v := x) ?_ ?_; unfold x; clear x; rotate_left; (try clear_value x); intro hp)
    | (extract_lets +onlyGivenNames x; (first | (have _h : Sc := x; clear _h; subst x) | (have _h : TokSt := x; clear _h; subst x) | clear_value x | subst x)) | split | (apply keeps_snd; assumption)

theorem keeps_svcOpen {K b} (a0 a1 s) (h : Keeps K b s) : Keeps K b (svcOpen a0 a1 s).2 := by
  unfold svcOpen
  repeat' with_reducible first
    | assumption | apply keeps_drawKeyId
    | (extract_lets +onlyGivenNames x; refine keeps_pcut (K := K) (b := b) (v := x) ?_ ?_; unfold x; clear x; rotate_left; (try clear_value x); intro hp)
    | (extract_lets +onlyGivenNames x; (first | (have _h : Sc := x; clear _h; subst x) | (have _h : TokSt := x; clear _h; subst x) | clear_value x | subst x)) | split

theorem keeps_execOpen {K b} (a0 s) (h : Keeps K b s) : KeepsOut K b (execOpen a0 s) := by
  unfold execOpen
  repeat' with_reducible first | assumption | apply keeps_runPlain | apply keeps_svcOpen | apply KeepsOut.next

theorem keeps_svcReseal {K b} (a0 a1 s) (h : Keeps K b s) : Keeps K b (svcReseal a0 a1 s).2 := by
  unfold svcReseal
  repeat' with_reducible first | assumption | apply keeps_capWrap | split | (apply keeps_snd; assumption)

theorem keeps_execReseal {K b} (a0 s) (h : Keeps K b s) : KeepsOut K b (execReseal a0 s) := by
  unfold execReseal
  repeat' with_reducible first | assumption | apply keeps_runPlain | apply keeps_svcReseal | apply KeepsOut.next

theorem keeps_execLoadPublic {K b} (a0 s) (h : Keeps K b s) : KeepsOut K b (execLoadPublic a0 s) := by
  unfold execLoadPublic
  repeat' with_reducible first | assumption | apply keeps_runPlain | apply keeps_svcLoadPublic | apply KeepsOut.next

theorem keeps_svcCodeEncaps {K b} (a0 a1 s) (h : Keeps K b s) : Keeps K b (svcCodeEncaps a0 a1 s).2 := by
  unfold svcCodeEncaps
  repeat' with_reducible first
    | assumption | apply keeps_codeEncaps 
    | (extract_lets +onlyGivenNames x; refine keeps_pcut (K := K) (b := b) (v := x) ?_ ?_; unfold x; clear x; rotate_left; (try clear_value x); intro hp)
    | (extract_lets +onlyGivenNames x; (first | (have _h : Sc := x; clear _h; subst x) | (have _h : TokSt := x; clear _h; subst x) | clear_value x | subst x))
    | split | (apply keeps_snd; assumption)

theorem keeps_execSeal {K b} (a0 s) (h : Keeps K b s) : KeepsOut K b (execSeal a0 s) := by
  unfold execSeal
  repeat' with_reducible first | assumption | apply keeps_runPlain | apply keeps_svcSeal | apply KeepsOut.next

theorem keeps_execCodeEncaps {K b} (a0 s) (h : Keeps K b s) : KeepsOut K b (execCodeEncaps a0 s) := by
  unfold execCodeEncaps
  repeat' with_reducible first | assumption | apply keeps_runPlain | apply keeps_svcCodeEncaps | apply KeepsOut.next

/-! ### Machine/HashSigJobs.lean -/

theorem keeps_svcPublicKey {K b} (a0 a1 s) (h : Keeps K b s) : Keeps K b (svcPublicKey a0 a1 s).2 := by
  unfold svcPublicKey
  repeat' with_reducible first | assumption | split

theorem leaf_prepare (h : Nat) (k : StatefulKey) (o : LeafOk k) : LeafOk (prepareKey h k) := by unfold prepareKey; split <;> exact o
theorem later_prepare (h : Nat) (k : StatefulKey) : LaterKey k (prepareKey h k) := by unfold prepareKey; split <;> exact .refl k
theorem later_build (k : StatefulKey) : LaterKey k (buildLeaf k) ∧ (buildLeaf k).ranges = k.ranges ∧ (buildLeaf k).next = k.next ∧ (buildLeaf k).endLeaf = k.endLeaf := by
  unfold buildLeaf
  extract_lets m
  split <;> exact ⟨.refl k, rfl, rfl, rfl⟩
theorem leaf_build {k : StatefulKey} (o : LeafOk k) : LeafOk (buildLeaf k) := by
  obtain ⟨-, h1, h2, h3⟩ := later_build k
  unfold LeafOk
  rw [h1, h2, h3]
  exact o
theorem leaf_buildStep (h : Nat) (k : StatefulKey) (o : LeafOk k) : LeafOk (buildStep h k) := by
  unfold buildStep
  split
  · exact leaf_build (leaf_build o)
  · exact o
theorem later_buildStep (h : Nat) (k : StatefulKey) : LaterKey k (buildStep h k) := by
  unfold buildStep
  split
  · exact (later_build k).1.trans (later_build _).1
  · exact .refl k

theorem keeps_svcPrepare {K b} (a0 a1 s) (h : Keeps K b s) : Keeps K b (svcPrepare a0 a1 s).2 := by
  unfold svcPrepare
  repeat' with_reducible first | assumption | refine keeps_onStateful _ _ _ _ ?_ (leaf_prepare _) (later_prepare _)

theorem keeps_execPublicKey {K b} (a0 s) (h : Keeps K b s) : KeepsOut K b (execPublicKey a0 s) := by
  unfold execPublicKey
  repeat' with_reducible first | assumption | apply keeps_runPlain | apply keeps_svcPublicKey | apply KeepsOut.next

theorem keeps_svcHssVerify {K b} (a0 a1 s) (h : Keeps K b s) : Keeps K b (svcHssVerify a0 a1 s).2 := by
  unfold svcHssVerify
  repeat' with_reducible first | assumption

theorem keeps_execHssVerify {K b} (a0 s) (h : Keeps K b s) : KeepsOut K b (execHssVerify a0 s) := by
  unfold execHssVerify
  repeat' with_reducible first | assumption | apply keeps_runPlain | apply keeps_svcHssVerify | apply KeepsOut.next

theorem keeps_svcHssSign {K b} (a0 a1 s) (h : Keeps K b s) : Keeps K b (svcHssSign a0 a1 s).2 := by
  unfold svcHssSign
  repeat' with_reducible first | assumption | refine keeps_onStateful _ _ _ _ ?_ | split

theorem keeps_execPrepare {K b} (a0 s) (h : Keeps K b s) : KeepsOut K b (execPrepare a0 s) := by
  unfold execPrepare
  repeat' with_reducible first | assumption | apply keeps_runPlain | apply keeps_svcPrepare | apply KeepsOut.next

theorem keeps_buildFirst {K b} (a0 s) (h : Keeps K b s) : Keeps K b (buildFirst a0 s) := by
  unfold buildFirst
  repeat' with_reducible first
    | assumption | refine keeps_onStateful _ _ _ _ ?_ (leaf_buildStep _) (later_buildStep _) | intro _
    | (extract_lets +onlyGivenNames x; refine keeps_pcut (K := K) (b := b) (v := x) ?_ ?_; unfold x; clear x; rotate_left; (try clear_value x); intro hp)
    | (extract_lets +onlyGivenNames x; refine keeps_cut (K := K) (b := b) (v := x) ?_ ?_; unfold x; clear x; rotate_left; (try clear_value x); intro hx)
    | (extract_lets +onlyGivenNames x; (first | (have _h : Sc := x; clear _h; subst x) | (have _h : TokSt := x; clear _h; subst x) | clear_value x | subst x)) | apply keeps_ite | apply keeps_foldl
    | split

theorem keeps_execHssSign {K b} (a0 s) (h : Keeps K b s) : KeepsOut K b (execHssSign a0 s) := by
  unfold execHssSign
  repeat' with_reducible first
    | assumption | apply keeps_buildFirst | apply keeps_runPlain | apply keeps_svcHssSign | intro _
    | (extract_lets +onlyGivenNames x; refine keeps_pcut (K := K) (b := b) (v := x) ?_ ?_; unfold x; clear x; rotate_left; (try clear_value x); intro hp)
    | (extract_lets +onlyGivenNames x; refine keeps_cut (K := K) (b := b) (v := x) ?_ ?_; unfold x; clear x; rotate_left; (try clear_value x); intro hx)
    | (extract_lets +onlyGivenNames x; (first | (have _h : Sc := x; clear _h; subst x) | (have _h : TokSt := x; clear _h; subst x) | clear_value x | subst x)) | apply keeps_ite | apply keeps_foldl
    | split | apply KeepsOut.next

/-! ### Machine/LatticeJobs.lean -/

theorem keeps_svcMlDsaSign {K b} (a0 a1 a2 s) (h : Keeps K b s) : Keeps K b (svcMlDsaSign a0 a1 a2 s).2 := by
  unfold svcMlDsaSign
  repeat' with_reducible first
    | assumption | apply keeps_jobRandom
    | (extract_lets +onlyGivenNames x; refine keeps_pcut (K := K) (b := b) (v := x) ?_ ?_; unfold x; clear x; rotate_left; (try clear_value x); intro hp)
    | (extract_lets +onlyGivenNames x; (first | (have _h : Sc := x; clear _h; subst x) | (have _h : TokSt := x; clear _h; subst x) | clear_value x | subst x)) | split

theorem keeps_execMlDsaHashSign {K b} (a0 s) (h : Keeps K b s) : KeepsOut K b (execMlDsaHashSign a0 s) := by
  unfold execMlDsaHashSign
  repeat' with_reducible first | assumption | apply keeps_runPlain | apply keeps_svcMlDsaSign | apply KeepsOut.next

theorem keeps_pairMlKem {K b} (a0 s) (h : Keeps K b s) : Keeps K b (pairMlKem a0 s).2 := by
  unfold pairMlKem
  repeat' with_reducible first | assumption | apply keeps_drawBytes

theorem keeps_pairMlDsa {K b} (a0 a1 s) (h : Keeps K b s) : Keeps K b (pairMlDsa a0 a1 s).2 := by
  unfold pairMlDsa
  repeat' with_reducible first | assumption | apply keeps_jobRandom

theorem keeps_pairSlhDsa {K b} (a0 s) (h : Keeps K b s) : Keeps K b (pairSlhDsa a0 s).2 := by
  unfold pairSlhDsa
  repeat' with_reducible first | assumption | apply keeps_drawBytes

theorem keeps_svcSlhDsaSign {K b} (a0 a1 a2 s) (h : Keeps K b s) : Keeps K b (svcSlhDsaSign a0 a1 a2 s).2 := by
  unfold svcSlhDsaSign
  repeat' with_reducible first
    | assumption | apply keeps_drawBytes
    | (extract_lets +onlyGivenNames x; refine keeps_pcut (K := K) (b := b) (v := x) ?_ ?_; unfold x; clear x; rotate_left; (try clear_value x); intro hp)
    | (extract_lets +onlyGivenNames x; (first | (have _h : Sc := x; clear _h; subst x) | (have _h : TokSt := x; clear _h; subst x) | clear_value x | subst x)) | split

theorem keeps_execSlhDsaSign {K b} (a0 s) (h : Keeps K b s) : KeepsOut K b (execSlhDsaSign a0 s) := by
  unfold execSlhDsaSign
  repeat' with_reducible first | assumption | apply keeps_runPlain | apply keeps_svcSlhDsaSign | apply KeepsOut.next

theorem keeps_svcMlDsaVerify {K b} (a0 a1 a2 s) (h : Keeps K b s) : Keeps K b (svcMlDsaVerify a0 a1 a2 s).2 := by
  unfold svcMlDsaVerify
  repeat' with_reducible first | assumption | (extract_lets +onlyGivenNames x; (first | (have _h : Sc := x; clear _h; subst x) | (have _h : TokSt := x; clear _h; subst x) | clear_value x | subst x)) | split

theorem keeps_svcMlKemDecaps {K b} (a0 a1 s) (h : Keeps K b s) : Keeps K b (svcMlKemDecaps a0 a1 s).2 := by
  unfold svcMlKemDecaps
  repeat' with_reducible first | assumption | (extract_lets +onlyGivenNames x; (first | (have _h : Sc := x; clear _h; subst x) | (have _h : TokSt := x; clear _h; subst x) | clear_value x | subst x)) | split

theorem keeps_execSlhDsaHashSign {K b} (a0 s) (h : Keeps K b s) : KeepsOut K b (execSlhDsaHashSign a0 s) := by
  unfold execSlhDsaHashSign
  repeat' with_reducible first | assumption | apply keeps_runPlain | apply keeps_svcSlhDsaSign | apply KeepsOut.next

theorem keeps_execMlDsaVerify {K b} (a0 s) (h : Keeps K b s) : KeepsOut K b (execMlDsaVerify a0 s) := by
  unfold execMlDsaVerify
  repeat' with_reducible first | assumption | apply keeps_runPlain | apply keeps_svcMlDsaVerify | apply KeepsOut.next

theorem keeps_svcMlKemEncaps {K b} (a0 a1 s) (h : Keeps K b s) : Keeps K b (svcMlKemEncaps a0 a1 s).2 := by
  unfold svcMlKemEncaps
  repeat' with_reducible first
    | assumption | apply keeps_drawBytes
    | (extract_lets +onlyGivenNames x; refine keeps_pcut (K := K) (b := b) (v := x) ?_ ?_; unfold x; clear x; rotate_left; (try clear_value x); intro hp)
    | (extract_lets +onlyGivenNames x; (first | (have _h : Sc := x; clear _h; subst x) | (have _h : TokSt := x; clear _h; subst x) | clear_value x | subst x)) | split

theorem keeps_execMlKemEncaps {K b} (a0 s) (h : Keeps K b s) : KeepsOut K b (execMlKemEncaps a0 s) := by
  unfold execMlKemEncaps
  repeat' with_reducible first | assumption | apply keeps_runPlain | apply keeps_svcMlKemEncaps | apply KeepsOut.next

theorem keeps_svcSlhDsaVerify {K b} (a0 a1 a2 s) (h : Keeps K b s) : Keeps K b (svcSlhDsaVerify a0 a1 a2 s).2 := by
  unfold svcSlhDsaVerify
  repeat' with_reducible first | assumption | split

theorem keeps_execSlhDsaVerify {K b} (a0 s) (h : Keeps K b s) : KeepsOut K b (execSlhDsaVerify a0 s) := by
  unfold execSlhDsaVerify
  repeat' with_reducible first | assumption | apply keeps_runPlain | apply keeps_svcSlhDsaVerify | apply KeepsOut.next

theorem keeps_execSlhDsaHashVerify {K b} (a0 s) (h : Keeps K b s) : KeepsOut K b (execSlhDsaHashVerify a0 s) := by
  unfold execSlhDsaHashVerify
  repeat' with_reducible first | assumption | apply keeps_runPlain | apply keeps_svcSlhDsaVerify | apply KeepsOut.next

theorem keeps_execMlDsaHashVerify {K b} (a0 s) (h : Keeps K b s) : KeepsOut K b (execMlDsaHashVerify a0 s) := by
  unfold execMlDsaHashVerify
  repeat' with_reducible first | assumption | apply keeps_runPlain | apply keeps_svcMlDsaVerify | apply KeepsOut.next

theorem keeps_execMlDsaSign {K b} (a0 s) (h : Keeps K b s) : KeepsOut K b (execMlDsaSign a0 s) := by
  unfold execMlDsaSign
  repeat' with_reducible first | assumption | apply keeps_runPlain | apply keeps_svcMlDsaSign | apply KeepsOut.next

theorem keeps_execMlKemDecaps {K b} (a0 s) (h : Keeps K b s) : KeepsOut K b (execMlKemDecaps a0 s) := by
  unfold execMlKemDecaps
  repeat' with_reducible first | assumption | apply keeps_runPlain | apply keeps_svcMlKemDecaps | apply KeepsOut.next

/-! ### Machine/SymJobs.lean -/

theorem keeps_stepCtx {K b} (a0 a1 a2 a3 s) (h : Keeps K b s) : Keeps K b (stepCtx a0 a1 a2 a3 s) := by
  unfold stepCtx
  repeat' with_reducible first | assumption | apply keeps_onCtx

theorem keeps_svcSegment {K b} (a0 a1 a2 s) (h : Keeps K b s) : Keeps K b (svcSegment a0 a1 a2 s).2 := by
  unfold svcSegment
  repeat' with_reducible first
    | assumption | apply keeps_stepCtx | (extract_lets +onlyGivenNames x; (first | (have _h : Sc := x; clear _h; subst x) | (have _h : TokSt := x; clear _h; subst x) | clear_value x | subst x))
    | apply keeps_ite | split

theorem keeps_svcSym {K b} (a0 a1 a2 s) (h : Keeps K b s) : Keeps K b (svcSym a0 a1 a2 s).2 := by
  unfold svcSym
  repeat' with_reducible first
    | assumption | apply keeps_svcSegment | (extract_lets +onlyGivenNames x; (first | (have _h : Sc := x; clear _h; subst x) | (have _h : TokSt := x; clear _h; subst x) | clear_value x | subst x)) | split

theorem keeps_runSym {K b} (a0 a1 s) (h : Keeps K b s) : Keeps K b (runSym a0 a1 s) := by
  unfold runSym
  repeat' with_reducible first | assumption | apply keeps_runJob | apply keeps_svcSym

theorem keeps_execGcmSivDecrypt {K b} (a0 s) (h : Keeps K b s) : KeepsOut K b (execGcmSivDecrypt a0 s) := by
  unfold execGcmSivDecrypt
  repeat' with_reducible first | assumption | apply keeps_runSym | apply KeepsOut.next

theorem keeps_execCbcEncrypt {K b} (a0 s) (h : Keeps K b s) : KeepsOut K b (execCbcEncrypt a0 s) := by
  unfold execCbcEncrypt
  repeat' with_reducible first | assumption | apply keeps_runSym | apply KeepsOut.next

theorem keeps_execChachaPolyDecrypt {K b} (a0 s) (h : Keeps K b s) : KeepsOut K b (execChachaPolyDecrypt a0 s) := by
  unfold execChachaPolyDecrypt
  repeat' with_reducible first | assumption | apply keeps_runSym | apply KeepsOut.next

theorem keeps_execKwUnwrap {K b} (a0 s) (h : Keeps K b s) : KeepsOut K b (execKwUnwrap a0 s) := by
  unfold execKwUnwrap
  repeat' with_reducible first | assumption | apply keeps_runSym | apply KeepsOut.next

theorem keeps_execChachaPolyEncrypt {K b} (a0 s) (h : Keeps K b s) : KeepsOut K b (execChachaPolyEncrypt a0 s) := by
  unfold execChachaPolyEncrypt
  repeat' with_reducible first | assumption | apply keeps_runSym | apply KeepsOut.next

theorem keeps_execXtsDecrypt {K b} (a0 s) (h : Keeps K b s) : KeepsOut K b (execXtsDecrypt a0 s) := by
  unfold execXtsDecrypt
  repeat' with_reducible first | assumption | apply keeps_runSym | apply KeepsOut.next

theorem keeps_openCtx {K b} (a0 a1 a2 a3 a4 s) (h : Keeps K b s) : Keeps K b (openCtx a0 a1 a2 a3 a4 s).2 := by
  unfold openCtx
  repeat' with_reducible first
    | assumption | apply keeps_onCtx | (extract_lets +onlyGivenNames x; (first | (have _h : Sc := x; clear _h; subst x) | (have _h : TokSt := x; clear _h; subst x) | clear_value x | subst x)) | split

theorem keeps_execKwWrap {K b} (a0 s) (h : Keeps K b s) : KeepsOut K b (execKwWrap a0 s) := by
  unfold execKwWrap
  repeat' with_reducible first | assumption | apply keeps_runSym | apply KeepsOut.next

theorem keeps_svcCtxClose {K b} (a0 a1 s) (h : Keeps K b s) : Keeps K b (svcCtxClose a0 a1 s).2 := by
  unfold svcCtxClose
  repeat' with_reducible first | assumption | apply keeps_onCtx | split

theorem keeps_execCtxClose {K b} (a0 s) (h : Keeps K b s) : KeepsOut K b (execCtxClose a0 s) := by
  unfold execCtxClose
  repeat' with_reducible first | assumption | apply keeps_runPlain | apply keeps_svcCtxClose | apply KeepsOut.next

theorem keeps_execCbcDecrypt {K b} (a0 s) (h : Keeps K b s) : KeepsOut K b (execCbcDecrypt a0 s) := by
  unfold execCbcDecrypt
  repeat' with_reducible first | assumption | apply keeps_runSym | apply KeepsOut.next

theorem keeps_execGmacGenerate {K b} (a0 s) (h : Keeps K b s) : KeepsOut K b (execGmacGenerate a0 s) := by
  unfold execGmacGenerate
  repeat' with_reducible first | assumption | apply keeps_runSym | apply KeepsOut.next

theorem keeps_execGcmEncrypt {K b} (a0 s) (h : Keeps K b s) : KeepsOut K b (execGcmEncrypt a0 s) := by
  unfold execGcmEncrypt
  repeat' with_reducible first | assumption | apply keeps_runSym | apply KeepsOut.next

theorem keeps_execGcmSivEncrypt {K b} (a0 s) (h : Keeps K b s) : KeepsOut K b (execGcmSivEncrypt a0 s) := by
  unfold execGcmSivEncrypt
  repeat' with_reducible first | assumption | apply keeps_runSym | apply KeepsOut.next

theorem keeps_execGcmDecrypt {K b} (a0 s) (h : Keeps K b s) : KeepsOut K b (execGcmDecrypt a0 s) := by
  unfold execGcmDecrypt
  repeat' with_reducible first | assumption | apply keeps_runSym | apply KeepsOut.next

theorem keeps_svcCtxOpen {K b} (a0 a1 a2 s) (h : Keeps K b s) : Keeps K b (svcCtxOpen a0 a1 a2 s).2 := by
  unfold svcCtxOpen
  repeat' with_reducible first | assumption | apply keeps_openCtx

theorem keeps_execCtxOpen {K b} (a0 s) (h : Keeps K b s) : KeepsOut K b (execCtxOpen a0 s) := by
  unfold execCtxOpen
  repeat' with_reducible first | assumption | apply keeps_runJob | apply keeps_svcCtxOpen | apply KeepsOut.next

theorem keeps_execKwpUnwrap {K b} (a0 s) (h : Keeps K b s) : KeepsOut K b (execKwpUnwrap a0 s) := by
  unfold execKwpUnwrap
  repeat' with_reducible first | assumption | apply keeps_runSym | apply KeepsOut.next

theorem keeps_execKwpWrap {K b} (a0 s) (h : Keeps K b s) : KeepsOut K b (execKwpWrap a0 s) := by
  unfold execKwpWrap
  repeat' with_reducible first | assumption | apply keeps_runSym | apply KeepsOut.next

theorem keeps_execCcmDecrypt {K b} (a0 s) (h : Keeps K b s) : KeepsOut K b (execCcmDecrypt a0 s) := by
  unfold execCcmDecrypt
  repeat' with_reducible first | assumption | apply keeps_runSym | apply KeepsOut.next

theorem keeps_execCtr {K b} (a0 s) (h : Keeps K b s) : KeepsOut K b (execCtr a0 s) := by
  unfold execCtr
  repeat' with_reducible first | assumption | apply keeps_runSym | apply KeepsOut.next

theorem keeps_execCcmEncrypt {K b} (a0 s) (h : Keeps K b s) : KeepsOut K b (execCcmEncrypt a0 s) := by
  unfold execCcmEncrypt
  repeat' with_reducible first | assumption | apply keeps_runSym | apply KeepsOut.next

theorem keeps_execXtsEncrypt {K b} (a0 s) (h : Keeps K b s) : KeepsOut K b (execXtsEncrypt a0 s) := by
  unfold execXtsEncrypt
  repeat' with_reducible first | assumption | apply keeps_runSym | apply KeepsOut.next

theorem keeps_execGmacVerify {K b} (a0 s) (h : Keeps K b s) : KeepsOut K b (execGmacVerify a0 s) := by
  unfold execGmacVerify
  repeat' with_reducible first | assumption | apply keeps_runSym | apply KeepsOut.next

/-! ### Machine/BouquetJobs.lean -/

theorem keeps_writeStage {K b} (a0 a1 a2 a3 s) (h : Keeps K b s) : Keeps K b (writeStage a0 a1 a2 a3 s) := by
  unfold writeStage
  repeat' with_reducible first
    | assumption | apply keeps_writeFrom | apply hg | intro _
    | (extract_lets +onlyGivenNames x; refine keeps_pcut (K := K) (b := b) (v := x) ?_ ?_; unfold x; clear x; rotate_left; (try clear_value x); intro hp)
    | (extract_lets +onlyGivenNames x; refine keeps_fcut (K := K) (b := b) (v := x) ?_ ?_; unfold x; clear x; rotate_left; (try clear_value x); intro hg)
    | (extract_lets +onlyGivenNames x; refine keeps_fcut2 (K := K) (b := b) (v := x) ?_ ?_; unfold x; clear x; rotate_left; (try clear_value x); intro hg)
    | (extract_lets +onlyGivenNames x; refine keeps_cut (K := K) (b := b) (v := x) ?_ ?_; unfold x; clear x; rotate_left; (try clear_value x); intro hx)
    | (extract_lets +onlyGivenNames x; (first | (have _h : Sc := x; clear _h; subst x) | (have _h : TokSt := x; clear _h; subst x) | clear_value x | subst x)) | apply keeps_ite | apply keeps_foldl
    | split

theorem keeps_streamStages {K b} (a0 a1 a2 a3 a4 s) (h : Keeps K b s) : Keeps K b (streamStages a0 a1 a2 a3 a4 s) := by
  unfold streamStages
  repeat' with_reducible first
    | assumption | apply keeps_writeStage | apply keeps_onJob | apply keeps_writeOutput | intro _
    | (extract_lets +onlyGivenNames x; refine keeps_pcut (K := K) (b := b) (v := x) ?_ ?_; unfold x; clear x; rotate_left; (try clear_value x); intro hp)
    | (extract_lets +onlyGivenNames x; refine keeps_cut (K := K) (b := b) (v := x) ?_ ?_; unfold x; clear x; rotate_left; (try clear_value x); intro hx)
    | (extract_lets +onlyGivenNames x; (first | (have _h : Sc := x; clear _h; subst x) | (have _h : TokSt := x; clear _h; subst x) | clear_value x | subst x)) | apply keeps_ite | apply keeps_foldl
    | split

theorem keeps_bouquetEnd {K b} (a0 a1 a2 a3 a4 s) (h : Keeps K b s) : Keeps K b (bouquetEnd a0 a1 a2 a3 a4 s) := by
  unfold bouquetEnd
  repeat' with_reducible first
    | assumption | apply keeps_writeStage | apply keeps_endJob | apply keeps_okJob | apply keeps_streamStages | apply keeps_writeOutput | intro _
    | (extract_lets +onlyGivenNames x; refine keeps_pcut (K := K) (b := b) (v := x) ?_ ?_; unfold x; clear x; rotate_left; (try clear_value x); intro hp)
    | (extract_lets +onlyGivenNames x; refine keeps_cut (K := K) (b := b) (v := x) ?_ ?_; unfold x; clear x; rotate_left; (try clear_value x); intro hx)
    | (extract_lets +onlyGivenNames x; (first | (have _h : Sc := x; clear _h; subst x) | (have _h : TokSt := x; clear _h; subst x) | clear_value x | subst x)) | apply keeps_ite | apply keeps_foldl
    | split

theorem keeps_bouquetOn {K b} (a0 a1 s) (h : Keeps K b s) : Keeps K b (bouquetOn a0 a1 s) := by
  unfold bouquetOn
  repeat' with_reducible first
    | assumption | apply keeps_bouquetEnd | apply keeps_endJob | apply keeps_failJob | apply keeps_jobFault
    | apply keeps_streamStages | intro _
    | (extract_lets +onlyGivenNames x; refine keeps_pcut (K := K) (b := b) (v := x) ?_ ?_; unfold x; clear x; rotate_left; (try clear_value x); intro hp)
    | (extract_lets +onlyGivenNames x; refine keeps_cut (K := K) (b := b) (v := x) ?_ ?_; unfold x; clear x; rotate_left; (try clear_value x); intro hx)
    | (extract_lets +onlyGivenNames x; (first | (have _h : Sc := x; clear _h; subst x) | (have _h : TokSt := x; clear _h; subst x) | clear_value x | subst x)) | apply keeps_ite | apply keeps_foldl
    | split

theorem keeps_bouquetRun {K b} (a0 s) (h : Keeps K b s) : Keeps K b (bouquetRun a0 s) := by
  unfold bouquetRun
  repeat' with_reducible first
    | assumption | apply keeps_bouquetOn | apply keeps_noteStall | intro _
    | (extract_lets +onlyGivenNames x; refine keeps_pcut (K := K) (b := b) (v := x) ?_ ?_; unfold x; clear x; rotate_left; (try clear_value x); intro hp)
    | (extract_lets +onlyGivenNames x; refine keeps_cut (K := K) (b := b) (v := x) ?_ ?_; unfold x; clear x; rotate_left; (try clear_value x); intro hx)
    | (extract_lets +onlyGivenNames x; (first | (have _h : Sc := x; clear _h; subst x) | (have _h : TokSt := x; clear _h; subst x) | clear_value x | subst x)) | apply keeps_ite | apply keeps_foldl
    | split

theorem keeps_execBouquet {K b} (a0 s) (h : Keeps K b s) : KeepsOut K b (execBouquet a0 s) := by
  unfold execBouquet
  repeat' with_reducible first | assumption | apply keeps_bouquetRun | apply KeepsOut.next

/-! ### Machine/DigestJobs.lean -/

theorem keeps_svcDigest {K b} (a0 a1 a2 s) (h : Keeps K b s) : Keeps K b (svcDigest a0 a1 a2 s).2 := by
  unfold svcDigest
  repeat' with_reducible first
    | assumption | apply keeps_stepCtx | (extract_lets +onlyGivenNames x; (first | (have _h : Sc := x; clear _h; subst x) | (have _h : TokSt := x; clear _h; subst x) | clear_value x | subst x))
    | apply keeps_ite | split

theorem keeps_runDigest {K b} (a0 a1 s) (h : Keeps K b s) : Keeps K b (runDigest a0 a1 s) := by
  unfold runDigest
  repeat' with_reducible first | assumption | apply keeps_runJob | apply keeps_svcDigest

theorem keeps_execVerifyDigest {K b} (a0 s) (h : Keeps K b s) : KeepsOut K b (execVerifyDigest a0 s) := by
  unfold execVerifyDigest
  repeat' with_reducible first | assumption | apply keeps_runDigest | apply KeepsOut.next

theorem keeps_svcLeaf {K b} (a0 a1 s) (h : Keeps K b s) : Keeps K b (svcLeaf a0 a1 s).2 := by
  unfold svcLeaf
  repeat' with_reducible first | assumption

theorem keeps_execLeaf {K b} (a0 s) (h : Keeps K b s) : KeepsOut K b (execLeaf a0 s) := by
  unfold execLeaf
  repeat' with_reducible first | assumption | apply keeps_runPlain | apply keeps_svcLeaf | apply KeepsOut.next

theorem keeps_execKmacGenerate {K b} (a0 s) (h : Keeps K b s) : KeepsOut K b (execKmacGenerate a0 s) := by
  unfold execKmacGenerate
  repeat' with_reducible first | assumption | apply keeps_runDigest | apply KeepsOut.next

theorem keeps_svcRoot {K b} (a0 a1 s) (h : Keeps K b s) : Keeps K b (svcRoot a0 a1 s).2 := by
  unfold svcRoot
  repeat' with_reducible first | assumption

theorem keeps_execRoot {K b} (a0 s) (h : Keeps K b s) : KeepsOut K b (execRoot a0 s) := by
  unfold execRoot
  repeat' with_reducible first | assumption | apply keeps_runPlain | apply keeps_svcRoot | apply KeepsOut.next

theorem keeps_svcDgeOpen {K b} (a0 a1 a2 s) (h : Keeps K b s) : Keeps K b (svcDgeOpen a0 a1 a2 s).2 := by
  unfold svcDgeOpen
  repeat' with_reducible first | assumption | apply keeps_openCtx

theorem keeps_svcVerifyPath {K b} (a0 a1 s) (h : Keeps K b s) : Keeps K b (svcVerifyPath a0 a1 s).2 := by
  unfold svcVerifyPath
  repeat' with_reducible first | assumption

theorem keeps_execDgeCtxClose {K b} (a0 s) (h : Keeps K b s) : KeepsOut K b (execDgeCtxClose a0 s) := by
  unfold execDgeCtxClose
  repeat' with_reducible first | assumption | apply keeps_runPlain | apply keeps_svcCtxClose | apply KeepsOut.next

theorem keeps_svcChunkRoot {K b} (a0 a1 s) (h : Keeps K b s) : Keeps K b (svcChunkRoot a0 a1 s).2 := by
  unfold svcChunkRoot
  repeat' with_reducible first | assumption

theorem keeps_execChunkRoot {K b} (a0 s) (h : Keeps K b s) : KeepsOut K b (execChunkRoot a0 s) := by
  unfold execChunkRoot
  repeat' with_reducible first | assumption | apply keeps_runPlain | apply keeps_svcChunkRoot | apply KeepsOut.next

theorem keeps_execHash {K b} (a0 s) (h : Keeps K b s) : KeepsOut K b (execHash a0 s) := by
  unfold execHash
  repeat' with_reducible first | assumption | apply keeps_runDigest | apply KeepsOut.next

theorem keeps_svcStateImport {K b} (a0 a1 s) (h : Keeps K b s) : Keeps K b (svcStateImport a0 a1 s).2 := by
  unfold svcStateImport
  repeat' with_reducible first
    | assumption | apply keeps_drawNat | apply keeps_onCtx
    | (extract_lets +onlyGivenNames x; refine keeps_pcut (K := K) (b := b) (v := x) ?_ ?_; unfold x; clear x; rotate_left; (try clear_value x); intro hp)
    | (extract_lets +onlyGivenNames x; (first | (have _h : Sc := x; clear _h; subst x) | (have _h : TokSt := x; clear _h; subst x) | clear_value x | subst x)) | split

theorem keeps_execStateImport {K b} (a0 s) (h : Keeps K b s) : KeepsOut K b (execStateImport a0 s) := by
  unfold execStateImport
  repeat' with_reducible first | assumption | apply keeps_runPlain | apply keeps_svcStateImport | apply KeepsOut.next

theorem keeps_svcStateExport {K b} (a0 a1 s) (h : Keeps K b s) : Keeps K b (svcStateExport a0 a1 s).2 := by
  unfold svcStateExport
  repeat' with_reducible first
    | assumption | refine keeps_mk ?_
    | (extract_lets +onlyGivenNames x; refine keeps_cut (K := K) (b := b) (v := x) ?_ ?_; unfold x; clear x; rotate_left; (try clear_value x); intro hx)
    | (extract_lets +onlyGivenNames x; (first | (have _h : Sc := x; clear _h; subst x) | (have _h : TokSt := x; clear _h; subst x) | clear_value x | subst x)) | apply keeps_ite | split

theorem keeps_execStateExport {K b} (a0 s) (h : Keeps K b s) : KeepsOut K b (execStateExport a0 s) := by
  unfold execStateExport
  repeat' with_reducible first | assumption | apply keeps_runPlain | apply keeps_svcStateExport | apply KeepsOut.next

theorem keeps_execVerifyPath {K b} (a0 s) (h : Keeps K b s) : KeepsOut K b (execVerifyPath a0 s) := by
  unfold execVerifyPath
  repeat' with_reducible first | assumption | apply keeps_runPlain | apply keeps_svcVerifyPath | apply KeepsOut.next

theorem keeps_execKmacVerify {K b} (a0 s) (h : Keeps K b s) : KeepsOut K b (execKmacVerify a0 s) := by
  unfold execKmacVerify
  repeat' with_reducible first | assumption | apply keeps_runDigest | apply KeepsOut.next

theorem keeps_execDgeCtxOpen {K b} (a0 s) (h : Keeps K b s) : KeepsOut K b (execDgeCtxOpen a0 s) := by
  unfold execDgeCtxOpen
  repeat' with_reducible first | assumption | apply keeps_runJob | apply keeps_svcDgeOpen | apply KeepsOut.next

theorem keeps_execHmacVerify {K b} (a0 s) (h : Keeps K b s) : KeepsOut K b (execHmacVerify a0 s) := by
  unfold execHmacVerify
  repeat' with_reducible first | assumption | apply keeps_runDigest | apply KeepsOut.next

theorem keeps_execHmacGenerate {K b} (a0 s) (h : Keeps K b s) : KeepsOut K b (execHmacGenerate a0 s) := by
  unfold execHmacGenerate
  repeat' with_reducible first | assumption | apply keeps_runDigest | apply KeepsOut.next

/-! ### Machine/KeyJobs.lean -/

theorem keeps_pairRaw {K b} (a0 a1 s) (h : Keeps K b s) : Keeps K b (pairRaw a0 a1 s).2 := by
  unfold pairRaw
  repeat' with_reducible first | assumption | apply keeps_drawBytes

theorem keeps_pairOf {K b} (a0 s) (h : Keeps K b s) : Keeps K b (pairOf a0 s).2 := by
  unfold pairOf
  repeat' with_reducible first
    | assumption | apply keeps_pairMlKem | apply keeps_pairMlDsa | apply keeps_pairSlhDsa | apply keeps_pairCode | apply keeps_pairRsa | apply keeps_pairEc
    | apply keeps_pairEd | apply keeps_pairRaw | (extract_lets +onlyGivenNames x; (first | (have _h : Sc := x; clear _h; subst x) | (have _h : TokSt := x; clear _h; subst x) | clear_value x | subst x))
    | split | (apply keeps_snd; assumption) | (apply keeps_snd; assumption)

theorem keeps_sealBlob {K b} (a0 a1 a2 s) (h : Keeps K b s) : Keeps K b (sealBlob a0 a1 a2 s).2 := by
  unfold sealBlob
  repeat' with_reducible first | assumption | apply keeps_drawBytes

theorem keeps_svcKeygen {K b} (a0 a1 s) (h : Keeps K b s) : Keeps K b (svcKeygen a0 a1 s).2 := by
  unfold svcKeygen
  repeat' with_reducible first
    | assumption | apply keeps_pairOf | apply keeps_drawKeyId | apply keeps_sealBlob
    | (extract_lets +onlyGivenNames x; refine keeps_pcut (K := K) (b := b) (v := x) ?_ ?_; unfold x; clear x; rotate_left; (try clear_value x); intro hp)
    | (extract_lets +onlyGivenNames x; (first | (have _h : Sc := x; clear _h; subst x) | (have _h : TokSt := x; clear _h; subst x) | clear_value x | subst x)) | split

theorem keeps_eraseRun {K : Breaks} {b : State} (x : JobRun) (s : State) (h : Keeps K b s) : Keeps K b (eraseRun x s) := by
  unfold eraseRun
  split
  · exact h
  · split
    · exact h
    · split
      · exact keeps_failJob _ _ _ h
      · have h1 := fun f i => keeps_eraseSlot f i s h
        dsimp only
        split
        · exact keeps_okJob _ _ _ (h1 _ _)
        · exact keeps_onJob _ _ _ (h1 _ _)

theorem keeps_svcUnwrap {K b} (a0 a1 s) (h : Keeps K b s) : Keeps K b (svcUnwrap a0 a1 s).2 := by
  unfold svcUnwrap
  repeat' with_reducible first
    | assumption | apply keeps_drawKeyId
    | (extract_lets +onlyGivenNames x; refine keeps_pcut (K := K) (b := b) (v := x) ?_ ?_; unfold x; clear x; rotate_left; (try clear_value x); intro hp) | split

theorem keeps_svcDerive {K b} (a0 a1 s) (h : Keeps K b s) : Keeps K b (svcDerive a0 a1 s).2 := by
  unfold svcDerive
  repeat' with_reducible first | assumption | apply keeps_drawKeyId

theorem keeps_execDerive {K b} (a0 s) (h : Keeps K b s) : KeepsOut K b (execDerive a0 s) := by
  unfold execDerive
  repeat' with_reducible first | assumption | apply keeps_runPlain | apply keeps_svcDerive | apply KeepsOut.next

theorem keeps_svcRandom {K b} (a0 a1 s) (h : Keeps K b s) : Keeps K b (svcRandom a0 a1 s).2 := by
  unfold svcRandom
  repeat' with_reducible first
    | assumption | apply keeps_jobRandom 
    | (extract_lets +onlyGivenNames x; refine keeps_pcut (K := K) (b := b) (v := x) ?_ ?_; unfold x; clear x; rotate_left; (try clear_value x); intro hp)
    | (extract_lets +onlyGivenNames x; (first | (have _h : Sc := x; clear _h; subst x) | (have _h : TokSt := x; clear _h; subst x) | clear_value x | subst x))
    | split | (apply keeps_snd; assumption)

theorem keeps_holdRandom {K b} (a0 s) (h : Keeps K b s) : Keeps K b (holdRandom a0 s) := by
  unfold holdRandom
  repeat' with_reducible first
    | assumption | apply keeps_onJob | apply keeps_jobRandom | intro _
    | (extract_lets +onlyGivenNames x; refine keeps_pcut (K := K) (b := b) (v := x) ?_ ?_; unfold x; clear x; rotate_left; (try clear_value x); intro hp)
    | (extract_lets +onlyGivenNames x; refine keeps_cut (K := K) (b := b) (v := x) ?_ ?_; unfold x; clear x; rotate_left; (try clear_value x); intro hx)
    | (extract_lets +onlyGivenNames x; (first | (have _h : Sc := x; clear _h; subst x) | (have _h : TokSt := x; clear _h; subst x) | clear_value x | subst x)) | apply keeps_ite | apply keeps_foldl
    | split

theorem keeps_execRandom {K b} (a0 s) (h : Keeps K b s) : KeepsOut K b (execRandom a0 s) := by
  unfold execRandom
  repeat' with_reducible first
    | assumption | apply keeps_holdRandom | apply keeps_runPlain | apply keeps_svcRandom | intro _
    | (extract_lets +onlyGivenNames x; refine keeps_pcut (K := K) (b := b) (v := x) ?_ ?_; unfold x; clear x; rotate_left; (try clear_value x); intro hp)
    | (extract_lets +onlyGivenNames x; refine keeps_cut (K := K) (b := b) (v := x) ?_ ?_; unfold x; clear x; rotate_left; (try clear_value x); intro hx)
    | (extract_lets +onlyGivenNames x; (first | (have _h : Sc := x; clear _h; subst x) | (have _h : TokSt := x; clear _h; subst x) | clear_value x | subst x)) | apply keeps_ite | apply keeps_foldl
    | split | apply KeepsOut.next

theorem keeps_svcWrap {K b} (a0 a1 s) (h : Keeps K b s) : Keeps K b (svcWrap a0 a1 s).2 := by
  unfold svcWrap
  repeat' with_reducible first | assumption | apply keeps_sealBlob

theorem keeps_execUnwrap {K b} (a0 s) (h : Keeps K b s) : KeepsOut K b (execUnwrap a0 s) := by
  unfold execUnwrap
  repeat' with_reducible first | assumption | apply keeps_runPlain | apply keeps_svcUnwrap | apply KeepsOut.next

theorem keeps_execWrap {K b} (a0 s) (h : Keeps K b s) : KeepsOut K b (execWrap a0 s) := by
  unfold execWrap
  repeat' with_reducible first | assumption | apply keeps_runPlain | apply keeps_svcWrap | apply KeepsOut.next

theorem keeps_execKeygen {K b} (a0 s) (h : Keeps K b s) : KeepsOut K b (execKeygen a0 s) := by
  unfold execKeygen
  repeat' with_reducible first | assumption | apply keeps_runPlain | apply keeps_svcKeygen | apply KeepsOut.next

theorem keeps_execErase {K b} (a0 s) (h : Keeps K b s) : KeepsOut K b (execErase a0 s) := by
  unfold execErase
  repeat' with_reducible first | assumption | apply keeps_eraseRun | apply KeepsOut.next

end Sys2Proof.Machine
end

