-- ==== Sys2Proof/Laws/KeepVcc.lean ====
section
/-!
SUPPORT. What a command keeps (Laws/Keeps.lean), for the vector-cluster instructions.
-/
namespace Sys2Proof.Machine
set_option Elab.async false -- the package as one text has more theorems than threads

/-! ### Machine/VccHash.lean -/

theorem keeps_execGfmul {K b} (a0 a1 s) (h : Keeps K b s) : KeepsOut K b (execGfmul a0 a1 s) := by
  unfold execGfmul
  repeat' with_reducible first | assumption | refine keeps_onWord _ _ _ _ (fun _ _ => ?_) h | apply keeps_vccPlain | apply wf_gfmulOp | apply KeepsOut.next

theorem keeps_execSha2C256 {K b} (a0 a1 s) (h : Keeps K b s) : KeepsOut K b (execSha2C256 a0 a1 s) := by
  unfold execSha2C256
  repeat' with_reducible first | assumption | refine keeps_onWord _ _ _ _ (fun _ _ => ?_) h | apply keeps_vccRun | apply wf_sha2Op | apply KeepsOut.next

theorem keeps_execMadd {K b} (a0 a1 s) (h : Keeps K b s) : KeepsOut K b (execMadd a0 a1 s) := by
  unfold execMadd
  repeat' with_reducible first | assumption | refine keeps_onWord _ _ _ _ (fun _ _ => ?_) h | apply keeps_vccPlain | apply wf_modOp | apply KeepsOut.next

theorem keeps_winLand {K : Breaks} {b : State} (c job : Nat) (s : State) (h : Keeps K b s) : Keeps K b (winLand c job s) := by
  unfold winLand
  split
  · exact h
  · rename_i cl hcl
    split
    · exact h
    · split
      · exact h
      · exact keeps_putCluster _ _ _ h (fun hb => wf_landFetch ((h.tiles hb).2 _ (List.mem_of_getElem? hcl)))

theorem keeps_execClmul {K b} (a0 a1 s) (h : Keeps K b s) : KeepsOut K b (execClmul a0 a1 s) := by
  unfold execClmul
  repeat' with_reducible first | assumption | refine keeps_onWord _ _ _ _ (fun _ _ => ?_) h | apply keeps_vccPlain | apply wf_clmulOp | apply KeepsOut.next

theorem keeps_execMred {K b} (a0 a1 s) (h : Keeps K b s) : KeepsOut K b (execMred a0 a1 s) := by
  unfold execMred
  repeat' with_reducible first | assumption | refine keeps_onWord _ _ _ _ (fun _ _ => ?_) h | apply keeps_vccPlain | apply wf_modOp | apply KeepsOut.next

theorem keeps_execKecXb {K b} (a0 a1 s) (h : Keeps K b s) : KeepsOut K b (execKecXb a0 a1 s) := by
  unfold execKecXb
  repeat' with_reducible first | assumption | refine keeps_onWord _ _ _ _ (fun _ _ => ?_) h | apply keeps_vccRun | apply wf_kecXbOp | apply KeepsOut.next

theorem keeps_execKecXbs {K b} (a0 a1 s) (h : Keeps K b s) : KeepsOut K b (execKecXbs a0 a1 s) := by
  unfold execKecXbs
  repeat' with_reducible first | assumption | refine keeps_onWord _ _ _ _ (fun _ _ => ?_) h | apply keeps_vccRun | apply wf_kecXbsOp | apply KeepsOut.next

theorem keeps_execWinFetch {K b} (a0 a1 a2 s) (h : Keeps K b s) : KeepsOut K b (execWinFetch a0 a1 a2 s) := by
  unfold execWinFetch
  repeat' with_reducible first | assumption | refine keeps_onWord _ _ _ _ (fun _ _ => ?_) h | apply keeps_vccPlain | apply wf_winFetchOp | apply KeepsOut.next

theorem keeps_execTomont {K b} (a0 a1 s) (h : Keeps K b s) : KeepsOut K b (execTomont a0 a1 s) := by
  unfold execTomont
  repeat' with_reducible first | assumption | refine keeps_onWord _ _ _ _ (fun _ _ => ?_) h | apply keeps_vccPlain | apply wf_modOp | apply KeepsOut.next

theorem keeps_execKecInit {K b} (a0 s) (h : Keeps K b s) : KeepsOut K b (execKecInit a0 s) := by
  unfold execKecInit
  repeat' with_reducible first | assumption | refine keeps_onWord _ _ _ _ (fun _ _ => ?_) h | apply keeps_vccPlain | apply wf_kecInitOp | apply KeepsOut.next

theorem keeps_execVerdictJob {K b} (a0 a1 s) (h : Keeps K b s) : KeepsOut K b (execVerdictJob a0 a1 s) := by
  unfold execVerdictJob
  repeat' with_reducible first | assumption | refine keeps_onWord _ _ _ _ (fun _ _ => ?_) h | apply keeps_vccPlain | apply wf_verdictOp | apply KeepsOut.next

theorem keeps_execKecInits {K b} (a0 s) (h : Keeps K b s) : KeepsOut K b (execKecInits a0 s) := by
  unfold execKecInits
  repeat' with_reducible first | assumption | refine keeps_onWord _ _ _ _ (fun _ _ => ?_) h | apply keeps_vccPlain | apply wf_kecInitOp | intro _ | apply KeepsOut.next

theorem keeps_execXmov {K b} (a0 a1 a2 s) (h : Keeps K b s) : KeepsOut K b (execXmov a0 a1 a2 s) := by
  unfold execXmov
  repeat' with_reducible first | assumption | refine keeps_onWord _ _ _ _ (fun _ _ => ?_) h | apply keeps_vccPlain | apply wf_xmovOp | apply KeepsOut.next

theorem keeps_execRand {K b} (a0 a1 s) (h : Keeps K b s) : KeepsOut K b (execRand a0 a1 s) := by
  unfold execRand
  repeat' with_reducible first | assumption | refine keeps_onWord _ _ _ _ (fun _ _ => ?_) h | apply keeps_vccRandom | apply wf_randOp | apply KeepsOut.next

theorem keeps_execNtt {K b} (a0 a1 s) (h : Keeps K b s) : KeepsOut K b (execNtt a0 a1 s) := by
  unfold execNtt
  repeat' with_reducible first | assumption | refine keeps_onWord _ _ _ _ (fun _ _ => ?_) h | apply keeps_vccPlain | apply wf_nttOp | apply KeepsOut.next

theorem keeps_execMmul {K b} (a0 a1 s) (h : Keeps K b s) : KeepsOut K b (execMmul a0 a1 s) := by
  unfold execMmul
  repeat' with_reducible first | assumption | refine keeps_onWord _ _ _ _ (fun _ _ => ?_) h | apply keeps_vccPlain | apply wf_modOp | apply KeepsOut.next

theorem keeps_execMsub {K b} (a0 a1 s) (h : Keeps K b s) : KeepsOut K b (execMsub a0 a1 s) := by
  unfold execMsub
  repeat' with_reducible first | assumption | refine keeps_onWord _ _ _ _ (fun _ _ => ?_) h | apply keeps_vccPlain | apply wf_modOp | apply KeepsOut.next

theorem keeps_execVerdictCheck {K b} (a0 a1 s) (h : Keeps K b s) : KeepsOut K b (execVerdictCheck a0 a1 s) := by
  unfold execVerdictCheck
  repeat' with_reducible first | assumption | refine keeps_onWord _ _ _ _ (fun _ _ => ?_) h | apply keeps_vccPlain | apply wf_verdictOp | apply KeepsOut.next

theorem keeps_execWinWait {K b} (a0 s) (h : Keeps K b s) : KeepsOut K b (execWinWait a0 s) := by
  unfold execWinWait
  repeat' with_reducible first | assumption | refine keeps_onWord _ _ _ _ (fun _ _ => ?_) h | apply keeps_vccPlain | apply wf_winWaitOp | apply KeepsOut.next

theorem keeps_execKecX4 {K b} (a0 a1 s) (h : Keeps K b s) : KeepsOut K b (execKecX4 a0 a1 s) := by
  unfold execKecX4
  repeat' with_reducible first | assumption | refine keeps_onWord _ _ _ _ (fun _ _ => ?_) h | apply keeps_vccPlain | apply wf_kecX4Op | apply KeepsOut.next

theorem keeps_execWinFetchComplete {K b} (a0 a1 s) (h : Keeps K b s) : KeepsOut K b (execWinFetchComplete a0 a1 s) := by
  unfold execWinFetchComplete
  repeat' with_reducible first | assumption | apply keeps_winLand | apply KeepsOut.next

theorem keeps_execKecPerm {K b} (a0 s) (h : Keeps K b s) : KeepsOut K b (execKecPerm a0 s) := by
  unfold execKecPerm
  repeat' with_reducible first | assumption | refine keeps_onWord _ _ _ _ (fun _ _ => ?_) h | apply keeps_vccRun | apply wf_kecPermOp | apply KeepsOut.next

theorem keeps_execKecOut {K b} (a0 a1 s) (h : Keeps K b s) : KeepsOut K b (execKecOut a0 a1 s) := by
  unfold execKecOut
  repeat' with_reducible first | assumption | refine keeps_onWord _ _ _ _ (fun _ _ => ?_) h | apply keeps_vccPlain | apply wf_kecOutOp | apply KeepsOut.next

theorem keeps_execFrommont {K b} (a0 a1 s) (h : Keeps K b s) : KeepsOut K b (execFrommont a0 a1 s) := by
  unfold execFrommont
  repeat' with_reducible first | assumption | refine keeps_onWord _ _ _ _ (fun _ _ => ?_) h | apply keeps_vccPlain | apply wf_modOp | apply KeepsOut.next

theorem keeps_execSha2C512 {K b} (a0 a1 s) (h : Keeps K b s) : KeepsOut K b (execSha2C512 a0 a1 s) := by
  unfold execSha2C512
  repeat' with_reducible first | assumption | refine keeps_onWord _ _ _ _ (fun _ _ => ?_) h | apply keeps_vccRun | apply wf_sha2Op | apply KeepsOut.next

/-! ### Machine/VccMemory.lean -/

theorem keeps_execShst {K b} (a0 a1 s) (h : Keeps K b s) : KeepsOut K b (execShst a0 a1 s) := by
  unfold execShst
  repeat' with_reducible first | assumption | refine keeps_onWord _ _ _ _ (fun _ _ => ?_) h | apply keeps_vccPlain | apply wf_shstOp | apply KeepsOut.next

theorem keeps_execSvld {K b} (a0 a1 s) (h : Keeps K b s) : KeepsOut K b (execSvld a0 a1 s) := by
  unfold execSvld
  repeat' with_reducible first | assumption | refine keeps_onWord _ _ _ _ (fun _ _ => ?_) h | apply keeps_vccPlain | apply wf_shortMem | apply KeepsOut.next

theorem keeps_execVld {K b} (a0 a1 s) (h : Keeps K b s) : KeepsOut K b (execVld a0 a1 s) := by
  unfold execVld
  repeat' with_reducible first | assumption | refine keeps_onWord _ _ _ _ (fun _ _ => ?_) h | apply keeps_vccPlain | apply wf_vldOp | apply KeepsOut.next

theorem keeps_execShldShares {K b} (a0 a1 s) (h : Keeps K b s) : KeepsOut K b (execShldShares a0 a1 s) := by
  unfold execShldShares
  repeat' with_reducible first | assumption | refine keeps_onWord _ _ _ _ (fun _ _ => ?_) h | apply keeps_vccPlain | apply wf_shldSharesOp | apply KeepsOut.next

theorem keeps_execSvst {K b} (a0 a1 s) (h : Keeps K b s) : KeepsOut K b (execSvst a0 a1 s) := by
  unfold execSvst
  repeat' with_reducible first | assumption | refine keeps_onWord _ _ _ _ (fun _ _ => ?_) h | apply keeps_vccPlain | apply wf_shortMem | apply KeepsOut.next

theorem keeps_execShldSplit {K b} (a0 a1 s) (h : Keeps K b s) : KeepsOut K b (execShldSplit a0 a1 s) := by
  unfold execShldSplit
  repeat' with_reducible first | assumption | refine keeps_onWord _ _ _ _ (fun _ _ => ?_) h | apply keeps_vccRandom | apply wf_shldSplitOp | apply KeepsOut.next

theorem keeps_execVst {K b} (a0 a1 s) (h : Keeps K b s) : KeepsOut K b (execVst a0 a1 s) := by
  unfold execVst
  repeat' with_reducible first | assumption | refine keeps_onWord _ _ _ _ (fun _ _ => ?_) h | apply keeps_vccPlain | apply wf_vstOp | apply KeepsOut.next

/-! ### Machine/VccScalar.lean -/

theorem keeps_execSra {K b} (a0 a1 s) (h : Keeps K b s) : KeepsOut K b (execSra a0 a1 s) := by
  unfold execSra
  repeat' with_reducible first | assumption | refine keeps_onWord _ _ _ _ (fun _ _ => ?_) h | apply keeps_vccPlain | apply wf_scalarShift | apply KeepsOut.next

theorem keeps_execAdd {K b} (a0 a1 s) (h : Keeps K b s) : KeepsOut K b (execAdd a0 a1 s) := by
  unfold execAdd
  repeat' with_reducible first | assumption | refine keeps_onWord _ _ _ _ (fun _ _ => ?_) h | apply keeps_vccPlain | apply wf_scalarOp | apply KeepsOut.next

theorem keeps_execCsrr {K b} (a0 a1 a2 s) (h : Keeps K b s) : KeepsOut K b (execCsrr a0 a1 a2 s) := by
  unfold execCsrr
  repeat' with_reducible first | assumption | refine keeps_onWord _ _ _ _ (fun _ _ => ?_) h | apply keeps_vccPlain | apply wf_csrrOp | apply KeepsOut.next

theorem keeps_execMulhu {K b} (a0 a1 s) (h : Keeps K b s) : KeepsOut K b (execMulhu a0 a1 s) := by
  unfold execMulhu
  repeat' with_reducible first | assumption | refine keeps_onWord _ _ _ _ (fun _ _ => ?_) h | apply keeps_vccPlain | apply wf_scalarOp | apply KeepsOut.next

theorem keeps_execOr {K b} (a0 a1 s) (h : Keeps K b s) : KeepsOut K b (execOr a0 a1 s) := by
  unfold execOr
  repeat' with_reducible first | assumption | refine keeps_onWord _ _ _ _ (fun _ _ => ?_) h | apply keeps_vccPlain | apply wf_scalarOp | apply KeepsOut.next

theorem keeps_execXor {K b} (a0 a1 s) (h : Keeps K b s) : KeepsOut K b (execXor a0 a1 s) := by
  unfold execXor
  repeat' with_reducible first | assumption | refine keeps_onWord _ _ _ _ (fun _ _ => ?_) h | apply keeps_vccPlain | apply wf_scalarOp | apply KeepsOut.next

theorem keeps_execSrl {K b} (a0 a1 s) (h : Keeps K b s) : KeepsOut K b (execSrl a0 a1 s) := by
  unfold execSrl
  repeat' with_reducible first | assumption | refine keeps_onWord _ _ _ _ (fun _ _ => ?_) h | apply keeps_vccPlain | apply wf_scalarShift | apply KeepsOut.next

theorem keeps_execSll {K b} (a0 a1 s) (h : Keeps K b s) : KeepsOut K b (execSll a0 a1 s) := by
  unfold execSll
  repeat' with_reducible first | assumption | refine keeps_onWord _ _ _ _ (fun _ _ => ?_) h | apply keeps_vccPlain | apply wf_scalarShift | apply KeepsOut.next

theorem keeps_execVmvx {K b} (a0 a1 a2 a3 s) (h : Keeps K b s) : KeepsOut K b (execVmvx a0 a1 a2 a3 s) := by
  unfold execVmvx
  repeat' with_reducible first | assumption | refine keeps_onWord _ _ _ _ (fun _ _ => ?_) h | apply keeps_vccPlain | apply wf_vmvxOp | apply KeepsOut.next

theorem keeps_execAnd {K b} (a0 a1 s) (h : Keeps K b s) : KeepsOut K b (execAnd a0 a1 s) := by
  unfold execAnd
  repeat' with_reducible first | assumption | refine keeps_onWord _ _ _ _ (fun _ _ => ?_) h | apply keeps_vccPlain | apply wf_scalarOp | apply KeepsOut.next

theorem keeps_execLui {K b} (a0 a1 a2 s) (h : Keeps K b s) : KeepsOut K b (execLui a0 a1 a2 s) := by
  unfold execLui
  repeat' with_reducible first | assumption | refine keeps_onWord _ _ _ _ (fun _ _ => ?_) h | apply keeps_vccPlain | apply wf_luiOp | apply KeepsOut.next

theorem keeps_execMul {K b} (a0 a1 s) (h : Keeps K b s) : KeepsOut K b (execMul a0 a1 s) := by
  unfold execMul
  repeat' with_reducible first | assumption | refine keeps_onWord _ _ _ _ (fun _ _ => ?_) h | apply keeps_vccPlain | apply wf_scalarOp | apply KeepsOut.next

theorem keeps_execSetvl {K b} (a0 a1 a2 a3 s) (h : Keeps K b s) : KeepsOut K b (execSetvl a0 a1 a2 a3 s) := by
  unfold execSetvl
  repeat' with_reducible first | assumption | refine keeps_onWord _ _ _ _ (fun _ _ => ?_) h | apply keeps_vccPlain | apply wf_setvlOp | apply KeepsOut.next

theorem keeps_execSltu {K b} (a0 a1 s) (h : Keeps K b s) : KeepsOut K b (execSltu a0 a1 s) := by
  unfold execSltu
  repeat' with_reducible first | assumption | refine keeps_onWord _ _ _ _ (fun _ _ => ?_) h | apply keeps_vccPlain | apply wf_scalarOp | apply KeepsOut.next

theorem keeps_execSub {K b} (a0 a1 s) (h : Keeps K b s) : KeepsOut K b (execSub a0 a1 s) := by
  unfold execSub
  repeat' with_reducible first | assumption | refine keeps_onWord _ _ _ _ (fun _ _ => ?_) h | apply keeps_vccPlain | apply wf_scalarOp | apply KeepsOut.next

/-! ### Machine/VccShare.lean -/

theorem keeps_execShab {K b} (a0 a1 s) (h : Keeps K b s) : KeepsOut K b (execShab a0 a1 s) := by
  unfold execShab
  repeat' with_reducible first | assumption | refine keeps_onWord _ _ _ _ (fun _ _ => ?_) h | apply keeps_vccRandom | apply wf_shabOp | apply KeepsOut.next

theorem keeps_execShcmpz {K b} (a0 a1 s) (h : Keeps K b s) : KeepsOut K b (execShcmpz a0 a1 s) := by
  unfold execShcmpz
  repeat' with_reducible first | assumption | refine keeps_onWord _ _ _ _ (fun _ _ => ?_) h | apply keeps_vccRandom | apply wf_shcmpzOp | apply KeepsOut.next

theorem keeps_execShxorp {K b} (a0 a1 s) (h : Keeps K b s) : KeepsOut K b (execShxorp a0 a1 s) := by
  unfold execShxorp
  repeat' with_reducible first | assumption | refine keeps_onWord _ _ _ _ (fun _ _ => ?_) h | apply keeps_vccPlain | apply wf_shxorpOp | apply KeepsOut.next

theorem keeps_execShsel {K b} (a0 a1 s) (h : Keeps K b s) : KeepsOut K b (execShsel a0 a1 s) := by
  unfold execShsel
  repeat' with_reducible first | assumption | refine keeps_onWord _ _ _ _ (fun _ _ => ?_) h | apply keeps_vccRandom | apply wf_shselOp | apply KeepsOut.next

theorem keeps_execShandp {K b} (a0 a1 s) (h : Keeps K b s) : KeepsOut K b (execShandp a0 a1 s) := by
  unfold execShandp
  repeat' with_reducible first | assumption | refine keeps_onWord _ _ _ _ (fun _ _ => ?_) h | apply keeps_vccPlain | apply wf_shandpOp | apply KeepsOut.next

theorem keeps_execShadd {K b} (a0 a1 s) (h : Keeps K b s) : KeepsOut K b (execShadd a0 a1 s) := by
  unfold execShadd
  repeat' with_reducible first | assumption | refine keeps_onWord _ _ _ _ (fun _ _ => ?_) h | apply keeps_vccPlain | apply wf_shaddOp | apply KeepsOut.next

theorem keeps_execShref {K b} (a0 a1 s) (h : Keeps K b s) : KeepsOut K b (execShref a0 a1 s) := by
  unfold execShref
  repeat' with_reducible first | assumption | refine keeps_onWord _ _ _ _ (fun _ _ => ?_) h | apply keeps_vccRandom | apply wf_shrefOp | apply KeepsOut.next

theorem keeps_execShxor {K b} (a0 a1 s) (h : Keeps K b s) : KeepsOut K b (execShxor a0 a1 s) := by
  unfold execShxor
  repeat' with_reducible first | assumption | refine keeps_onWord _ _ _ _ (fun _ _ => ?_) h | apply keeps_vccPlain | apply wf_shxorOp | apply KeepsOut.next

theorem keeps_execShand {K b} (a0 a1 s) (h : Keeps K b s) : KeepsOut K b (execShand a0 a1 s) := by
  unfold execShand
  repeat' with_reducible first | assumption | refine keeps_onWord _ _ _ _ (fun _ _ => ?_) h | apply keeps_vccRandom | apply wf_shandOp | apply KeepsOut.next

theorem keeps_execShba {K b} (a0 a1 s) (h : Keeps K b s) : KeepsOut K b (execShba a0 a1 s) := by
  unfold execShba
  repeat' with_reducible first | assumption | refine keeps_onWord _ _ _ _ (fun _ _ => ?_) h | apply keeps_vccRandom | apply wf_shbaOp | apply KeepsOut.next

/-! ### Machine/VccVector.lean -/

theorem keeps_execSlideup {K b} (a0 a1 s) (h : Keeps K b s) : KeepsOut K b (execSlideup a0 a1 s) := by
  unfold execSlideup
  repeat' with_reducible first | assumption | refine keeps_onWord _ _ _ _ (fun _ _ => ?_) h | apply keeps_vccPlain | apply wf_permOp | apply KeepsOut.next

theorem keeps_execUnzip {K b} (a0 a1 s) (h : Keeps K b s) : KeepsOut K b (execUnzip a0 a1 s) := by
  unfold execUnzip
  repeat' with_reducible first | assumption | refine keeps_onWord _ _ _ _ (fun _ _ => ?_) h | apply keeps_vccPlain | apply wf_permOp | apply KeepsOut.next

theorem keeps_execVaddX {K b} (a0 a1 s) (h : Keeps K b s) : KeepsOut K b (execVaddX a0 a1 s) := by
  unfold execVaddX
  repeat' with_reducible first | assumption | refine keeps_onWord _ _ _ _ (fun _ _ => ?_) h | apply keeps_vccPlain | apply wf_vsOp | apply KeepsOut.next

theorem keeps_execVsub {K b} (a0 a1 s) (h : Keeps K b s) : KeepsOut K b (execVsub a0 a1 s) := by
  unfold execVsub
  repeat' with_reducible first | assumption | refine keeps_onWord _ _ _ _ (fun _ _ => ?_) h | apply keeps_vccPlain | apply wf_vvOp | apply KeepsOut.next

theorem keeps_execSvmul {K b} (a0 a1 s) (h : Keeps K b s) : KeepsOut K b (execSvmul a0 a1 s) := by
  unfold execSvmul
  repeat' with_reducible first | assumption | refine keeps_onWord _ _ _ _ (fun _ _ => ?_) h | apply keeps_vccPlain | apply wf_shortOp | apply KeepsOut.next

theorem keeps_execReverse {K b} (a0 a1 s) (h : Keeps K b s) : KeepsOut K b (execReverse a0 a1 s) := by
  unfold execReverse
  repeat' with_reducible first | assumption | refine keeps_onWord _ _ _ _ (fun _ _ => ?_) h | apply keeps_vccPlain | apply wf_permOp | apply KeepsOut.next

theorem keeps_execVsrl {K b} (a0 a1 s) (h : Keeps K b s) : KeepsOut K b (execVsrl a0 a1 s) := by
  unfold execVsrl
  repeat' with_reducible first | assumption | refine keeps_onWord _ _ _ _ (fun _ _ => ?_) h | apply keeps_vccPlain | apply wf_vvOpen | apply KeepsOut.next

theorem keeps_execBroadcast {K b} (a0 a1 s) (h : Keeps K b s) : KeepsOut K b (execBroadcast a0 a1 s) := by
  unfold execBroadcast
  repeat' with_reducible first | assumption | refine keeps_onWord _ _ _ _ (fun _ _ => ?_) h | apply keeps_vccPlain | apply wf_permOp | apply KeepsOut.next

theorem keeps_execVxorX {K b} (a0 a1 s) (h : Keeps K b s) : KeepsOut K b (execVxorX a0 a1 s) := by
  unfold execVxorX
  repeat' with_reducible first | assumption | refine keeps_onWord _ _ _ _ (fun _ _ => ?_) h | apply keeps_vccPlain | apply wf_vsOp | apply KeepsOut.next

theorem keeps_execVcmp {K b} (a0 a1 a2 s) (h : Keeps K b s) : KeepsOut K b (execVcmp a0 a1 a2 s) := by
  unfold execVcmp
  repeat' with_reducible first | assumption | refine keeps_onWord _ _ _ _ (fun _ _ => ?_) h | apply keeps_vccPlain | apply wf_vcmpOp | apply KeepsOut.next

theorem keeps_execVsubX {K b} (a0 a1 s) (h : Keeps K b s) : KeepsOut K b (execVsubX a0 a1 s) := by
  unfold execVsubX
  repeat' with_reducible first | assumption | refine keeps_onWord _ _ _ _ (fun _ _ => ?_) h | apply keeps_vccPlain | apply wf_vsOp | apply KeepsOut.next

theorem keeps_execVand {K b} (a0 a1 s) (h : Keeps K b s) : KeepsOut K b (execVand a0 a1 s) := by
  unfold execVand
  repeat' with_reducible first | assumption | refine keeps_onWord _ _ _ _ (fun _ _ => ?_) h | apply keeps_vccPlain | apply wf_vvOp | apply KeepsOut.next

theorem keeps_execVorX {K b} (a0 a1 s) (h : Keeps K b s) : KeepsOut K b (execVorX a0 a1 s) := by
  unfold execVorX
  repeat' with_reducible first | assumption | refine keeps_onWord _ _ _ _ (fun _ _ => ?_) h | apply keeps_vccPlain | apply wf_vsOp | apply KeepsOut.next

theorem keeps_execVmulh {K b} (a0 a1 s) (h : Keeps K b s) : KeepsOut K b (execVmulh a0 a1 s) := by
  unfold execVmulh
  repeat' with_reducible first | assumption | refine keeps_onWord _ _ _ _ (fun _ _ => ?_) h | apply keeps_vccPlain | apply wf_vvOpen | apply KeepsOut.next

theorem keeps_execSvrot {K b} (a0 a1 s) (h : Keeps K b s) : KeepsOut K b (execSvrot a0 a1 s) := by
  unfold execSvrot
  repeat' with_reducible first | assumption | refine keeps_onWord _ _ _ _ (fun _ _ => ?_) h | apply keeps_vccPlain | apply wf_shortOp | apply KeepsOut.next

theorem keeps_execVadd {K b} (a0 a1 s) (h : Keeps K b s) : KeepsOut K b (execVadd a0 a1 s) := by
  unfold execVadd
  repeat' with_reducible first | assumption | refine keeps_onWord _ _ _ _ (fun _ _ => ?_) h | apply keeps_vccPlain | apply wf_vvOp | apply KeepsOut.next

theorem keeps_execVsllX {K b} (a0 a1 s) (h : Keeps K b s) : KeepsOut K b (execVsllX a0 a1 s) := by
  unfold execVsllX
  repeat' with_reducible first | assumption | refine keeps_onWord _ _ _ _ (fun _ _ => ?_) h | apply keeps_vccPlain | apply wf_vsOpen | apply KeepsOut.next

theorem keeps_execZip {K b} (a0 a1 s) (h : Keeps K b s) : KeepsOut K b (execZip a0 a1 s) := by
  unfold execZip
  repeat' with_reducible first | assumption | refine keeps_onWord _ _ _ _ (fun _ _ => ?_) h | apply keeps_vccPlain | apply wf_permOp | apply KeepsOut.next

theorem keeps_execVor {K b} (a0 a1 s) (h : Keeps K b s) : KeepsOut K b (execVor a0 a1 s) := by
  unfold execVor
  repeat' with_reducible first | assumption | refine keeps_onWord _ _ _ _ (fun _ _ => ?_) h | apply keeps_vccPlain | apply wf_vvOp | apply KeepsOut.next

theorem keeps_execVmul {K b} (a0 a1 s) (h : Keeps K b s) : KeepsOut K b (execVmul a0 a1 s) := by
  unfold execVmul
  repeat' with_reducible first | assumption | refine keeps_onWord _ _ _ _ (fun _ _ => ?_) h | apply keeps_vccPlain | apply wf_vvOp | apply KeepsOut.next

theorem keeps_execVsll {K b} (a0 a1 s) (h : Keeps K b s) : KeepsOut K b (execVsll a0 a1 s) := by
  unfold execVsll
  repeat' with_reducible first | assumption | refine keeps_onWord _ _ _ _ (fun _ _ => ?_) h | apply keeps_vccPlain | apply wf_vvOpen | apply KeepsOut.next

theorem keeps_execVxor {K b} (a0 a1 s) (h : Keeps K b s) : KeepsOut K b (execVxor a0 a1 s) := by
  unfold execVxor
  repeat' with_reducible first | assumption | refine keeps_onWord _ _ _ _ (fun _ _ => ?_) h | apply keeps_vccPlain | apply wf_vvOp | apply KeepsOut.next

theorem keeps_execVsrlX {K b} (a0 a1 s) (h : Keeps K b s) : KeepsOut K b (execVsrlX a0 a1 s) := by
  unfold execVsrlX
  repeat' with_reducible first | assumption | refine keeps_onWord _ _ _ _ (fun _ _ => ?_) h | apply keeps_vccPlain | apply wf_vsOpen | apply KeepsOut.next

theorem keeps_execSlidedown {K b} (a0 a1 s) (h : Keeps K b s) : KeepsOut K b (execSlidedown a0 a1 s) := by
  unfold execSlidedown
  repeat' with_reducible first | assumption | refine keeps_onWord _ _ _ _ (fun _ _ => ?_) h | apply keeps_vccPlain | apply wf_permOp | apply KeepsOut.next

theorem keeps_execVmulX {K b} (a0 a1 s) (h : Keeps K b s) : KeepsOut K b (execVmulX a0 a1 s) := by
  unfold execVmulX
  repeat' with_reducible first | assumption | refine keeps_onWord _ _ _ _ (fun _ _ => ?_) h | apply keeps_vccPlain | apply wf_vsOp | apply KeepsOut.next

theorem keeps_execSvadd {K b} (a0 a1 s) (h : Keeps K b s) : KeepsOut K b (execSvadd a0 a1 s) := by
  unfold execSvadd
  repeat' with_reducible first | assumption | refine keeps_onWord _ _ _ _ (fun _ _ => ?_) h | apply keeps_vccPlain | apply wf_shortOp | apply KeepsOut.next

theorem keeps_execSvxor {K b} (a0 a1 s) (h : Keeps K b s) : KeepsOut K b (execSvxor a0 a1 s) := by
  unfold execSvxor
  repeat' with_reducible first | assumption | refine keeps_onWord _ _ _ _ (fun _ _ => ?_) h | apply keeps_vccPlain | apply wf_shortOp | apply KeepsOut.next

theorem keeps_execVandX {K b} (a0 a1 s) (h : Keeps K b s) : KeepsOut K b (execVandX a0 a1 s) := by
  unfold execVandX
  repeat' with_reducible first | assumption | refine keeps_onWord _ _ _ _ (fun _ _ => ?_) h | apply keeps_vccPlain | apply wf_vsOp | apply KeepsOut.next

/-! ### Machine/VccControl.lean -/

theorem keeps_execBltu {K b} (a0 a1 a2 a3 s) (h : Keeps K b s) : KeepsOut K b (execBltu a0 a1 a2 a3 s) := by
  unfold execBltu
  repeat' with_reducible first | assumption | refine keeps_onWord _ _ _ _ (fun _ _ => ?_) h | apply keeps_vccPlain | apply wf_branchOp | apply KeepsOut.next

theorem keeps_onResid {K : Breaks} {b : State} (job : Nat) (us : List Nat) (f : Resid → Resid) (s : State) (h : Keeps K b s) : Keeps K b (onResid job us f s) :=
  keeps_foldl (fun t u ht => ht.to (v := VccOk.modAt u (fun _ hk => hk))) h

theorem keeps_endKey {K b} (a0 a1 s) (h : Keeps K b s) : Keeps K b (endKey a0 a1 s).2 := by
  unfold endKey
  repeat' with_reducible first
    | assumption | apply keeps_drawKeyId
    | (extract_lets +onlyGivenNames x; refine keeps_pcut (K := K) (b := b) (v := x) ?_ ?_; unfold x; clear x; rotate_left; (try clear_value x); intro hp)
    | (extract_lets +onlyGivenNames x; (first | (have _h : Sc := x; clear _h; subst x) | (have _h : TokSt := x; clear _h; subst x) | clear_value x | subst x)) | split

theorem keeps_finishEnd {K b} (a0 a1 a2 a3 a4 a5 s) (h : Keeps K b s) : Keeps K b (finishEnd a0 a1 a2 a3 a4 a5 s) := by
  unfold finishEnd
  repeat' with_reducible first
    | assumption | apply keeps_kernelDefect | apply keeps_selfFault | apply keeps_finishJob | apply keeps_endFaulted | apply keeps_operandTileError
    | apply keeps_endKey
    | (extract_lets +onlyGivenNames x; refine keeps_fcut (K := K) (b := b) (v := x) ?_ ?_; unfold x; clear x; rotate_left; (try clear_value x); intro hf)
    | (extract_lets +onlyGivenNames x; refine keeps_pcut (K := K) (b := b) (v := x) ?_ ?_; unfold x; clear x; rotate_left; (try clear_value x); intro hp)
    | (extract_lets +onlyGivenNames x; (first | (have _h : Sc := x; clear _h; subst x) | (have _h : TokSt := x; clear _h; subst x) | clear_value x | subst x)) | apply hf | apply keeps_ite | split

theorem keeps_endAt {K b} (a0 a1 a2 a3 s) (h : Keeps K b s) : Keeps K b (endAt a0 a1 a2 a3 s) := by
  unfold endAt
  repeat' with_reducible first
    | assumption | apply keeps_endJob | apply keeps_finishEnd | apply keeps_gangMismatch | apply keeps_onResid
    | apply keeps_selfFault | intro _
    | (extract_lets +onlyGivenNames x; refine keeps_pcut (K := K) (b := b) (v := x) ?_ ?_; unfold x; clear x; rotate_left; (try clear_value x); intro hp)
    | (extract_lets +onlyGivenNames x; refine keeps_cut (K := K) (b := b) (v := x) ?_ ?_; unfold x; clear x; rotate_left; (try clear_value x); intro hx)
    | (extract_lets +onlyGivenNames x; (first | (have _h : Sc := x; clear _h; subst x) | (have _h : TokSt := x; clear _h; subst x) | clear_value x | subst x)) | apply keeps_ite | apply keeps_foldl
    | split

theorem keeps_execEnd {K b} (a0 a1 a2 a3 s) (h : Keeps K b s) : KeepsOut K b (execEnd a0 a1 a2 a3 s) := by
  unfold execEnd
  repeat' with_reducible first | assumption | refine keeps_onWord _ _ _ _ (fun _ _ => ?_) h | apply keeps_endAt | apply KeepsOut.next

theorem keeps_testRun {K b} (a0 a1 s) (h : Keeps K b s) : Keeps K b (testRun a0 a1 s) := by
  unfold testRun
  split
  · exact h
  · rename_i k hk
    have hw : VccOk b.vcc → Memory.wf k.tiles = true := fun hb => (h.tiles hb).2 _ (List.mem_of_getElem? hk)
    split
    · exact keeps_putCluster _ _ _ (h.to) hw
    · split
      · exact h
      · exact keeps_putCluster _ _ _ (keeps_raiseEvent _ _ _ _ _ (keeps_raiseEvent _ _ _ _ _ (h.to))) hw

theorem keeps_reloadTile {K : Breaks} {b : State} (again : Bool) (c : Nat) (s : State) (h : Keeps K b s) : Keeps K b (reloadTile again c s) := by
  unfold reloadTile
  refine keeps_ite (keeps_testRun _ _ _ h) ?_
  split
  · exact h
  · rename_i cl hcl
    split
    · exact h
    · refine keeps_putCluster _ _ _ h (fun hb => ?_)
      exact (h.tiles hb).2 cl (List.mem_of_getElem? hcl)

theorem keeps_execJr {K b} (a0 a1 s) (h : Keeps K b s) : KeepsOut K b (execJr a0 a1 s) := by
  unfold execJr
  repeat' with_reducible first | assumption | refine keeps_onWord _ _ _ _ (fun _ _ => ?_) h | apply keeps_vccPlain | apply wf_jrOp | apply KeepsOut.next

theorem keeps_execBeq {K b} (a0 a1 a2 a3 s) (h : Keeps K b s) : KeepsOut K b (execBeq a0 a1 a2 a3 s) := by
  unfold execBeq
  repeat' with_reducible first | assumption | refine keeps_onWord _ _ _ _ (fun _ _ => ?_) h | apply keeps_vccPlain | apply wf_branchOp | apply KeepsOut.next

theorem keeps_yieldAt {K : Breaks} {b : State} (x : Bool) (c : Nat) (s : State) (h : Keeps K b s) : Keeps K b (yieldAt x c s) := by
  unfold yieldAt
  split
  · exact h
  · extract_lets us s1 s2 s3
    refine keeps_ite (keeps_onResid _ _ _ _ h) ?_
    have h1 : Keeps K b s1 := keeps_onResid _ _ _ _ h
    clear_value s1
    have h2 : Keeps K b s2 := keeps_foldl (fun t u ht => ht.to (v := VccOk.modAt u (fun _ hk => hk))) h1
    clear_value s2
    have h3 : Keeps K b s3 := keeps_haltAgain _ _ _ h2
    clear_value s3
    exact keeps_ite (keeps_yieldOverrun _ _ _ _ _ h3) (keeps_ite (keeps_saveJob _ _ h3) h3)

theorem keeps_execYield {K b} (a0 s) (h : Keeps K b s) : KeepsOut K b (execYield a0 s) := by
  unfold execYield
  repeat' with_reducible first | assumption | refine keeps_onWord _ _ _ _ (fun _ _ => ?_) h | apply keeps_yieldAt | apply KeepsOut.next

theorem keeps_execJal {K b} (a0 a1 a2 s) (h : Keeps K b s) : KeepsOut K b (execJal a0 a1 a2 s) := by
  unfold execJal
  repeat' with_reducible first | assumption | refine keeps_onWord _ _ _ _ (fun _ _ => ?_) h | apply keeps_vccPlain | apply wf_jalOp | apply KeepsOut.next

theorem keeps_watchdogAt {K b} (a0 s) (h : Keeps K b s) : Keeps K b (watchdogAt a0 s) := by
  unfold watchdogAt
  repeat' with_reducible first | assumption | apply keeps_kernelDefect | apply keeps_ite | split

theorem keeps_execWatchdog {K b} (a0 s) (h : Keeps K b s) : KeepsOut K b (execWatchdog a0 s) := by
  unfold execWatchdog
  repeat' with_reducible first | assumption | apply keeps_watchdogAt | apply KeepsOut.next

theorem keeps_execYieldExtend {K b} (a0 s) (h : Keeps K b s) : KeepsOut K b (execYieldExtend a0 s) := by
  unfold execYieldExtend
  repeat' with_reducible first | assumption | refine keeps_onWord _ _ _ _ (fun _ _ => ?_) h | apply keeps_yieldAt | apply KeepsOut.next

theorem keeps_execBne {K b} (a0 a1 a2 a3 s) (h : Keeps K b s) : KeepsOut K b (execBne a0 a1 a2 a3 s) := by
  unfold execBne
  repeat' with_reducible first | assumption | refine keeps_onWord _ _ _ _ (fun _ _ => ?_) h | apply keeps_vccPlain | apply wf_branchOp | apply KeepsOut.next

theorem keeps_execSysFault {K b} (a0 s) (h : Keeps K b s) : KeepsOut K b (execSysFault a0 s) := by
  unfold execSysFault
  repeat' with_reducible first | assumption | refine keeps_onWord _ _ _ _ (fun _ _ => ?_) h | apply keeps_vccPlain | apply wf_sysFaultOp | apply KeepsOut.next

theorem keeps_execTileReload {K b} (a0 a1 s) (h : Keeps K b s) : KeepsOut K b (execTileReload a0 a1 s) := by
  unfold execTileReload
  repeat' with_reducible first | assumption | apply keeps_reloadTile | apply KeepsOut.next

theorem keeps_execUntag {K b} (a0 a1 a2 s) (h : Keeps K b s) : KeepsOut K b (execUntag a0 a1 a2 s) := by
  unfold execUntag
  repeat' with_reducible first | assumption | refine keeps_onWord _ _ _ _ (fun _ _ => ?_) h | apply keeps_vccPlain | apply wf_untagOp | apply KeepsOut.next

end Sys2Proof.Machine
end

