-- ==== Sys2Proof/Laws/KeepAdmin.lean ====
section
/-!
SUPPORT. What a command keeps (Laws/Keeps.lean), for the admin commands and the DOE mailbox.
-/
namespace Sys2Proof.Machine
set_option Elab.async false -- the package as one text has more theorems than threads

/-! ### Machine/AdminQueues.lean -/

theorem keeps_adminIdentify {K b} (a0 a1 s) (h : Keeps K b s) : KeepsRes K b (adminIdentify a0 a1 s) := by
  unfold adminIdentify
  repeat' with_reducible first | assumption | apply keeps_toBuf | intro _ | apply KeepsRes.ok

theorem keeps_execIdentify {K b} (a0 s) (h : Keeps K b s) : KeepsOut K b (execIdentify a0 s) := by
  unfold execIdentify
  repeat' with_reducible first | assumption | apply keeps_adminRun | apply keeps_adminIdentify | apply KeepsOut.next

theorem keeps_adminDestroyCq {K b} (a0 a1 s) (h : Keeps K b s) : KeepsRes K b (adminDestroyCq a0 a1 s) := by
  unfold adminDestroyCq
  repeat' with_reducible first
    | assumption | refine keeps_mk ?_ | (with_unfolding_all exact h.to (r := fun r => ⟨r.1, all_filter r.2⟩)) | apply keeps_aChecks | apply keeps_aBad | exact AllRes.nil | apply AllRes.cons | intro _ | apply KeepsRes.ok

theorem keeps_adminAbortJob {K b} (a0 a1 s) (h : Keeps K b s) : KeepsRes K b (adminAbortJob a0 a1 s) := by
  unfold adminAbortJob
  repeat' with_reducible first
    | assumption | apply keeps_aChecks | apply keeps_aBad | apply keeps_abortJob | exact AllRes.nil | apply AllRes.cons | intro _ | split | apply KeepsRes.ok

theorem keeps_execAbortJob {K b} (a0 s) (h : Keeps K b s) : KeepsOut K b (execAbortJob a0 s) := by
  unfold execAbortJob
  repeat' with_reducible first | assumption | apply keeps_adminRun | apply keeps_adminAbortJob | apply KeepsOut.next

theorem keeps_adminCreateCq {K b} (a0 a1 s) (h : Keeps K b s) : KeepsRes K b (adminCreateCq a0 a1 s) := by
  unfold adminCreateCq
  refine keeps_aChecks_of _ _ (by repeat' with_reducible first | apply keeps_aBad | apply keeps_aFail | exact AllRes.nil | apply AllRes.cons) fun ok => ?_
  have hn := ok _ (List.mem_cons_of_mem _ (List.mem_cons_of_mem _ (List.mem_cons_self ..)))
  simp only [Bool.or_eq_false_iff, decide_eq_false_iff_not] at hn
  exact KeepsRes.ok (h.to (r := fun r => ⟨r.1, all_append r.2 fun q hq => by
    rw [List.mem_singleton.1 hq]
    exact .empty (Nat.le_of_not_lt hn.2)⟩))

theorem keeps_execCreateCq {K b} (a0 s) (h : Keeps K b s) : KeepsOut K b (execCreateCq a0 s) := by
  unfold execCreateCq
  repeat' with_reducible first | assumption | apply keeps_adminRun | apply keeps_adminCreateCq | apply KeepsOut.next

theorem keeps_adminLog {K b} (a0 a1 a2 s) (h : Keeps K b s) : KeepsRes K b (adminLog a0 a1 a2 s) := by
  unfold adminLog
  repeat' with_reducible first | assumption | apply keeps_toBuf | intro _ | apply KeepsRes.ok

theorem keeps_adminDestroySq {K b} (a0 a1 s) (h : Keeps K b s) : KeepsRes K b (adminDestroySq a0 a1 s) := by
  unfold adminDestroySq
  repeat' with_reducible first
    | assumption | refine keeps_mk ?_ | (with_unfolding_all exact h.to (r := fun r => ⟨all_filter r.1, r.2⟩)) | apply keeps_aChecks | apply keeps_aBad | exact AllRes.nil | apply AllRes.cons | intro _ | apply KeepsRes.ok

theorem keeps_execGetLogQueueStatus {K b} (a0 s) (h : Keeps K b s) : KeepsOut K b (execGetLogQueueStatus a0 s) := by
  unfold execGetLogQueueStatus
  repeat' with_reducible first | assumption | apply keeps_adminRun | apply keeps_adminLog | apply KeepsOut.next

theorem keeps_takeSnapshot {K b} (a0 a1 s) (h : Keeps K b s) : Keeps K b (takeSnapshot a0 a1 s) := by
  unfold takeSnapshot
  repeat' with_reducible first
    | assumption | refine keeps_mk ?_ | (with_unfolding_all exact hx.to (r := fun r => ⟨all_map (fun q h => by split <;> exact h) r.1, r.2⟩))
    | (extract_lets +onlyGivenNames x; refine keeps_cut (K := K) (b := b) (v := x) ?_ ?_; unfold x; clear x; rotate_left; (try clear_value x); intro hx)
    | (extract_lets +onlyGivenNames x; (first | (have _h : Sc := x; clear _h; subst x) | (have _h : TokSt := x; clear _h; subst x) | clear_value x | subst x)) | apply keeps_ite

theorem keeps_adminSnapshot {K b} (a0 a1 s) (h : Keeps K b s) : KeepsRes K b (adminSnapshot a0 a1 s) := by
  unfold adminSnapshot
  repeat' with_reducible first
    | assumption | apply keeps_aChecks | apply keeps_aBad | apply keeps_toBuf | apply keeps_takeSnapshot | exact AllRes.nil | apply AllRes.cons | intro _
    | apply KeepsRes.ok

theorem keeps_execMonitorSnapshot {K b} (a0 s) (h : Keeps K b s) : KeepsOut K b (execMonitorSnapshot a0 s) := by
  unfold execMonitorSnapshot
  repeat' with_reducible first | assumption | apply keeps_adminRun | apply keeps_adminSnapshot | apply KeepsOut.next

theorem keeps_adminCreateSq {K b} (a0 a1 s) (h : Keeps K b s) : KeepsRes K b (adminCreateSq a0 a1 s) := by
  unfold adminCreateSq
  refine keeps_aChecks_of _ _ (by repeat' with_reducible first | apply keeps_aBad | apply keeps_aFail | exact AllRes.nil | apply AllRes.cons) fun ok => ?_
  have hn := ok _ (List.mem_cons_of_mem _ (List.mem_cons_of_mem _ (List.mem_cons_self ..)))
  simp only [Bool.or_eq_false_iff, decide_eq_false_iff_not] at hn
  exact KeepsRes.ok (h.to (r := fun r => ⟨all_append r.1 fun q hq => by
    rw [List.mem_singleton.1 hq]
    exact ⟨.empty (Nat.le_of_not_lt hn.2), idxDist_self.symm⟩, r.2⟩))

theorem keeps_execCreateSq {K b} (a0 s) (h : Keeps K b s) : KeepsOut K b (execCreateSq a0 s) := by
  unfold execCreateSq
  repeat' with_reducible first | assumption | apply keeps_adminRun | apply keeps_adminCreateSq | apply KeepsOut.next

theorem keeps_setRing {K b} (a0 a1 a2 a3 s) (h : Keeps K b s) : Keeps K b (setRing a0 a1 a2 a3 s) := by
  unfold setRing
  repeat' with_reducible first
    | assumption | refine keeps_mk ?_ | apply keeps_onFn | apply keeps_ringEvent
    | (extract_lets +onlyGivenNames x; refine keeps_cut (K := K) (b := b) (v := x) ?_ ?_; unfold x; clear x; rotate_left; (try clear_value x); intro hx)
    | (extract_lets +onlyGivenNames x; (first | (have _h : Sc := x; clear _h; subst x) | (have _h : TokSt := x; clear _h; subst x) | clear_value x | subst x)) | apply keeps_ite

theorem keeps_adminSetRing {K b} (a0 a1 s) (h : Keeps K b s) : KeepsRes K b (adminSetRing a0 a1 s) := by
  unfold adminSetRing
  repeat' with_reducible first
    | assumption | apply keeps_aChecks | apply keeps_aBad | apply keeps_setRing | exact AllRes.nil | apply AllRes.cons | intro _ | apply KeepsRes.ok

theorem keeps_execSetEventRing {K b} (a0 s) (h : Keeps K b s) : KeepsOut K b (execSetEventRing a0 s) := by
  unfold execSetEventRing
  repeat' with_reducible first | assumption | apply keeps_adminRun | apply keeps_adminSetRing | apply KeepsOut.next

theorem keeps_execDestroySq {K b} (a0 s) (h : Keeps K b s) : KeepsOut K b (execDestroySq a0 s) := by
  unfold execDestroySq
  repeat' with_reducible first | assumption | apply keeps_adminRun | apply keeps_adminDestroySq | apply KeepsOut.next

theorem keeps_execDestroyCq {K b} (a0 s) (h : Keeps K b s) : KeepsOut K b (execDestroyCq a0 s) := by
  unfold execDestroyCq
  repeat' with_reducible first | assumption | apply keeps_adminRun | apply keeps_adminDestroyCq | apply KeepsOut.next

theorem keeps_execGetLogPoolStatus {K b} (a0 s) (h : Keeps K b s) : KeepsOut K b (execGetLogPoolStatus a0 s) := by
  unfold execGetLogPoolStatus
  repeat' with_reducible first | assumption | apply keeps_adminRun | apply keeps_adminLog | apply KeepsOut.next

/-! ### Machine/Aum.lean -/

theorem keeps_newStateful {K b} (a0 a1 a2 s) (h : Keeps K b s) : Keeps K b (newStateful a0 a1 a2 s).2 := by
  unfold newStateful
  repeat' with_reducible first | assumption | apply keeps_drawBytes | apply keeps_drawKeyId

theorem keeps_putAnchored {K b} (a0 a1 a2 s) (h : Keeps K b s) : Keeps K b (putAnchored a0 a1 a2 s).2 := by
  unfold putAnchored
  repeat' with_reducible first
    | assumption | apply keeps_drawKeyId | apply keeps_newStateful
    | (extract_lets +onlyGivenNames x; refine keeps_pcut (K := K) (b := b) (v := x) ?_ ?_; unfold x; clear x; rotate_left; (try clear_value x); intro hp)
    | (extract_lets +onlyGivenNames x; (first | (have _h : Sc := x; clear _h; subst x) | (have _h : TokSt := x; clear _h; subst x) | clear_value x | subst x)) | split

theorem leaf_putAnchored (a p : Bytes) (t : Token) (s : State) (h : ∀ k ∈ t.stateful, LeafOk k) : ∀ k ∈ (putAnchored a p t s).1.stateful, LeafOk k := by
  unfold putAnchored
  split
  · exact h
  · exact h
  · exact h
  · extract_lets same v r
    have hr : LeafOk r.1 := ⟨Nat.le_refl _, fun _ h => (nomatch h), List.Pairwise.nil⟩
    clear_value r
    show ∀ k ∈ putWhere same r.1 t.stateful, LeafOk k
    unfold putWhere
    split
    · exact all_modFirst (fun _ _ => hr) h
    · exact all_append h (by intro k hk; rw [List.mem_singleton.1 hk]; exact hr)
theorem leaf_dropAnchored (a : Bytes) (t : Token) (h : ∀ k ∈ t.stateful, LeafOk k) : ∀ k ∈ (dropAnchored a t).stateful, LeafOk k := by
  unfold dropAnchored
  split
  · exact h
  · exact h
  · exact h
  · exact all_filter h

/-- The token operation of an AUM; it may install or replace a stateful key. -/
theorem keeps_applyToken {K b} (hA : K.aum) (a0 s) (h : Keeps K b s) : Keeps K b (applyToken a0 s) := by
  unfold applyToken
  split
  · exact h
  · rename_i t ht
    extract_lets t1 t2 q x1 x2 x3 s2
    have e2 : t2.stateful = t.stateful := by
      unfold t2 t1
      split <;> simp
    have hq : Keeps K b q.2 := by
      unfold q
      split
      · exact keeps_putAnchored _ _ _ _ h
      · exact keeps_putAnchored _ _ _ _ h
      all_goals exact h
    have lq : LeavesOk s → ∀ k ∈ q.1.stateful, LeafOk k := by
      intro hl
      have l2 : ∀ k ∈ t2.stateful, LeafOk k := by rw [e2]; exact hl t ht
      unfold q
      split
      · exact leaf_putAnchored _ _ _ _ l2
      · exact leaf_putAnchored _ _ _ _ l2
      · exact leaf_dropAnchored _ _ l2
      all_goals exact l2
    have h2 : Keeps K b s2 :=
      { hq with
        leaves := fun hk hb u hu => by
          cases hu
          rw [stateful_journalPage]
          exact lq (h.leaves hk hb)
        nexts := fun _ ha => absurd hA ha }
    clear_value s2 q
    split
    · exact keeps_writeLeafRec _ _ h2
    · exact keeps_noteToken _ h2

theorem keeps_applyFuses {K b} (a0 s) (h : Keeps K b s) : Keeps K b (applyFuses a0 s) := by
  unfold applyFuses
  repeat' with_reducible first
    | assumption | refine keeps_mk ?_ | (extract_lets +onlyGivenNames x; (first | (have _h : Sc := x; clear _h; subst x) | (have _h : TokSt := x; clear _h; subst x) | clear_value x | subst x))
    | apply keeps_ite

theorem keeps_raiseFloor {K : Breaks} {b : State} (n : Nat) (s : State) (h : Keeps K b s) : Keeps K b (raiseFloor n s) := by
  unfold raiseFloor
  split
  · exact h.to (f := ⟨fun _ h => h, fun _ h => h, id, id, id, Nat.le_max_left _ _⟩)
  · exact h

theorem keeps_loadAnchored {K b} (s) (h : Keeps K b s) : Keeps K b (loadAnchored s) := by
  unfold loadAnchored
  repeat' with_reducible first
    | assumption | refine keeps_mk ?_ | (extract_lets +onlyGivenNames x; (first | (have _h : Sc := x; clear _h; subst x) | (have _h : TokSt := x; clear _h; subst x) | clear_value x | subst x)) | split

theorem keeps_applyAum {K b} (hA : K.aum) (a0 a1 s) (h : Keeps K b s) : Keeps K b (applyAum a0 a1 s) := by
  unfold applyAum
  repeat' with_reducible first
    | assumption | apply keeps_applyToken | apply keeps_applyFuses | apply keeps_raiseFloor | apply keeps_loadAnchored | apply keeps_clampRights
    | apply keeps_raiseEvent | apply keeps_ite

theorem keeps_adminCert {K b} (a0 a1 s) (h : Keeps K b s) : KeepsRes K b (adminCert a0 a1 s) := by
  unfold adminCert
  repeat' with_reducible first
    | assumption | refine keeps_mk ?_ | apply keeps_aFail | apply keeps_aBad | apply keeps_clampRights | apply keeps_raiseEvent
    | (extract_lets +onlyGivenNames x; refine keeps_cut (K := K) (b := b) (v := x) ?_ ?_; unfold x; clear x; rotate_left; (try clear_value x); intro hx)
    | (extract_lets +onlyGivenNames x; (first | (have _h : Sc := x; clear _h; subst x) | (have _h : TokSt := x; clear _h; subst x) | clear_value x | subst x)) | split | apply KeepsRes.ok

theorem keeps_aumFailure {K b} (a0)  : KeepsRes K b (aumFailure a0) := by
  unfold aumFailure
  repeat' with_reducible first | apply keeps_aBad | apply keeps_aFail | split

theorem keeps_adminAum {K b} (hA : K.aum) (a0 a1 s) (h : Keeps K b s) : KeepsRes K b (adminAum a0 a1 s) := by
  unfold adminAum
  repeat' with_reducible first
    | assumption | apply keeps_aFail | apply keeps_aBad | apply keeps_aumFailure | apply keeps_applyAum
    | (extract_lets +onlyGivenNames x; refine keeps_cut (K := K) (b := b) (v := x) ?_ ?_; unfold x; clear x; rotate_left; (try clear_value x); intro hx) | split
    | apply KeepsRes.ok

theorem keeps_execAumSubmit {K b} (hA : K.aum) (a0 s) (h : Keeps K b s) : KeepsOut K b (execAumSubmit a0 s) := by
  unfold execAumSubmit
  repeat' with_reducible first | assumption | apply keeps_adminRun | apply keeps_adminAum | apply KeepsOut.next

theorem keeps_execDbgCertSubmit {K b} (a0 s) (h : Keeps K b s) : KeepsOut K b (execDbgCertSubmit a0 s) := by
  unfold execDbgCertSubmit
  repeat' with_reducible first | assumption | apply keeps_adminRun | apply keeps_adminCert | apply KeepsOut.next

/-! ### Machine/Slices.lean -/

theorem keeps_signalInstance {K b} (a0 s) (h : Keeps K b s) : Keeps K b (signalInstance a0 s) := by
  unfold signalInstance
  repeat' with_reducible first | assumption | apply keeps_signal | apply keeps_ite

theorem keeps_onMbx {K b} (a0 a1 s) (h : Keeps K b s) : Keeps K b (onMbx a0 a1 s) := by
  unfold onMbx
  repeat' with_reducible first | assumption | apply keeps_onFn

theorem keeps_mbxOutAck {K b} (s) (h : Keeps K b s) : Keeps K b (mbxOutAck s) := by
  unfold mbxOutAck
  repeat' with_reducible first | assumption | apply keeps_signalInstance | apply keeps_onMbx | apply keeps_ite | split

theorem keeps_mailboxWrite {K b} (a0 s) (h : Keeps K b s) : Keeps K b (mailboxWrite a0 s) := by
  unfold mailboxWrite
  repeat' with_reducible first
    | assumption | refine keeps_mk ?_ | apply keeps_onMbx | (extract_lets +onlyGivenNames x; (first | (have _h : Sc := x; clear _h; subst x) | (have _h : TokSt := x; clear _h; subst x) | clear_value x | subst x))
    | apply keeps_ite | split

theorem keeps_endQuiesce {K b} (a0 s) (h : Keeps K b s) : Keeps K b (endQuiesce a0 s) := by
  unfold endQuiesce
  repeat' with_reducible first | assumption | refine keeps_mk ?_ | apply keeps_onFn | apply keeps_adminDone | apply keeps_foldl | intro _

theorem keeps_adminSliceReset {K b} (a0 a1 a2 s) (h : Keeps K b s) : KeepsRes K b (adminSliceReset a0 a1 a2 s) := by
  unfold adminSliceReset
  repeat' with_reducible first
    | assumption | apply keeps_aChecks | apply keeps_aBad | apply keeps_resetInstance | exact AllRes.nil | apply AllRes.cons | intro _ | apply KeepsRes.wait

theorem keeps_execSliceReset {K b} (a0 s) (h : Keeps K b s) : KeepsOut K b (execSliceReset a0 s) := by
  unfold execSliceReset
  repeat' with_reducible first | assumption | apply keeps_adminRun | apply keeps_adminSliceReset | apply KeepsOut.next

theorem AllRes.append {K : Breaks} {b : State} {l k : List (Bool × AdminRes)} (h : AllRes K b l) (g : AllRes K b k) : AllRes K b (l ++ k) := by
  intro p hp
  rcases List.mem_append.1 hp with hp | hp
  · exact h p hp
  · exact g p hp

theorem keeps_onInstance {K : Breaks} {b : State} (s : State) (e : Bytes) (l : List (Bool × AdminRes)) (k : Fn → AdminRes) (hl : AllRes K b l) (hk : ∀ f, KeepsRes K b (k f)) (_ : Keeps K b s) :
    KeepsRes K b (onInstance s e l k) :=
  keeps_aChecks _ _ (AllRes.append (AllRes.cons (keeps_aBad _) (AllRes.cons (keeps_aBad _) AllRes.nil)) hl) (fun _ => hk _)

theorem keeps_dirtyWait {K b} (op f d s) (h : Keeps K b s) : KeepsRes K b (dirtyWait op f d s) := by
  unfold dirtyWait
  dsimp only
  split
  · exact keeps_ite h (keeps_ite (keeps_onFn _ _ _ h) (keeps_onFn _ _ _ h))
  · exact h

theorem keeps_adminDirtyEnable {K b} (a0 a1 s) (h : Keeps K b s) : KeepsRes K b (adminDirtyEnable a0 a1 s) := by
  unfold adminDirtyEnable
  exact keeps_onInstance _ _ _ _ (AllRes.cons (keeps_aBad _) (AllRes.cons (keeps_aBad _) AllRes.nil))
    (fun _ => keeps_dirtyWait _ _ _ _ (keeps_mk (keeps_onFn _ _ _ h))) h

theorem keeps_execDirtyLogEnable {K b} (a0 s) (h : Keeps K b s) : KeepsOut K b (execDirtyLogEnable a0 s) := by
  unfold execDirtyLogEnable
  repeat' with_reducible first | assumption | apply keeps_adminRun | apply keeps_adminDirtyEnable | apply KeepsOut.next

theorem keeps_execMailboxDataWrite {K b} (a0 s) (h : Keeps K b s) : KeepsOut K b (execMailboxDataWrite a0 s) := by
  unfold execMailboxDataWrite
  repeat' with_reducible first | assumption | apply keeps_mailboxWrite | apply KeepsOut.next

theorem keeps_beginQuiesce {K b} (a0 s) (h : Keeps K b s) : Keeps K b (beginQuiesce a0 s) := by
  unfold beginQuiesce
  exact keeps_onFn _ _ _ (keeps_sqs _ h (all_map fun q h => by split <;> exact h))

theorem keeps_adminQuiesce {K b} (a0 a1 s) (h : Keeps K b s) : KeepsRes K b (adminQuiesce a0 a1 s) := by
  unfold adminQuiesce
  repeat' with_reducible first
    | assumption | apply keeps_aChecks | apply keeps_aBad | apply keeps_onInstance | apply keeps_beginQuiesce | apply keeps_abortJobs | apply keeps_endQuiesce
    | exact AllRes.nil | apply AllRes.cons | intro _
    | (extract_lets +onlyGivenNames x; refine keeps_cut (K := K) (b := b) (v := x) ?_ ?_; unfold x; clear x; rotate_left; (try clear_value x); intro hx) | apply keeps_ite
    | split | apply KeepsRes.ok | apply KeepsRes.wait

theorem keeps_adminDirtyEnd {K b} (a0 a1 a2 s) (h : Keeps K b s) : KeepsRes K b (adminDirtyEnd a0 a1 a2 s) := by
  unfold adminDirtyEnd
  repeat' with_reducible first
    | assumption | apply keeps_dirtyWait | apply keeps_onFn | apply keeps_aBad | apply keeps_aChecks | apply keeps_flushInstance | apply keeps_onInstance
    | exact AllRes.nil | apply AllRes.cons | intro _
    | (extract_lets +onlyGivenNames x; refine keeps_pcut (K := K) (b := b) (v := x) ?_ ?_; unfold x; clear x; rotate_left; (try clear_value x); intro hp)
    | (extract_lets +onlyGivenNames x; refine keeps_cut (K := K) (b := b) (v := x) ?_ ?_; unfold x; clear x; rotate_left; (try clear_value x); intro hx)
    | (extract_lets +onlyGivenNames x; (first | (have _h : Sc := x; clear _h; subst x) | (have _h : TokSt := x; clear _h; subst x) | clear_value x | subst x)) | apply keeps_ite | apply keeps_foldl
    | split | apply KeepsRes.ok | exact KeepsRes.fail

theorem keeps_execDirtyLogSync {K b} (a0 s) (h : Keeps K b s) : KeepsOut K b (execDirtyLogSync a0 s) := by
  unfold execDirtyLogSync
  repeat' with_reducible first | assumption | apply keeps_adminRun | apply keeps_adminDirtyEnd | apply KeepsOut.next

theorem keeps_mbxInSend {K b} (s) (h : Keeps K b s) : Keeps K b (mbxInSend s) := by
  unfold mbxInSend
  repeat' with_reducible first | assumption | refine keeps_mk ?_ | apply keeps_onMbx | apply keeps_signalInstance | apply keeps_ite | split

theorem keeps_execInSend {K b} (s) (h : Keeps K b s) : KeepsOut K b (execInSend s) := by
  unfold execInSend
  repeat' with_reducible first | assumption | apply keeps_mbxInSend | apply KeepsOut.next

theorem keeps_signalManager {K b} (s) (h : Keeps K b s) : Keeps K b (signalManager s) := by
  unfold signalManager
  repeat' with_reducible first | assumption | apply keeps_signal | apply keeps_ite

theorem keeps_mbxOutSend {K b} (a0 s) (h : Keeps K b s) : Keeps K b (mbxOutSend a0 s) := by
  unfold mbxOutSend
  repeat' with_reducible first | assumption | apply keeps_onMbx | apply keeps_signalManager | apply keeps_ite

theorem keeps_mbxInAck {K b} (a0 s) (h : Keeps K b s) : Keeps K b (mbxInAck a0 s) := by
  unfold mbxInAck
  repeat' with_reducible first | assumption | apply keeps_signalManager | apply keeps_onMbx | apply keeps_ite

theorem keeps_quiesceDone {K b} (a0 s) (h : Keeps K b s) : Keeps K b (quiesceDone a0 s) := by
  unfold quiesceDone
  repeat' with_reducible first | assumption | apply keeps_endQuiesce | apply keeps_ite

theorem keeps_execQuiesce {K b} (a0 s) (h : Keeps K b s) : KeepsOut K b (execQuiesce a0 s) := by
  unfold execQuiesce
  repeat' with_reducible first | assumption | apply keeps_adminRun | apply keeps_adminQuiesce | apply KeepsOut.next

theorem keeps_execDirtyLogDisable {K b} (a0 s) (h : Keeps K b s) : KeepsOut K b (execDirtyLogDisable a0 s) := by
  unfold execDirtyLogDisable
  repeat' with_reducible first | assumption | apply keeps_adminRun | apply keeps_adminDirtyEnd | apply KeepsOut.next

theorem keeps_execInAck {K b} (a0 s) (h : Keeps K b s) : KeepsOut K b (execInAck a0 s) := by
  unfold execInAck
  repeat' with_reducible first | assumption | apply keeps_mbxInAck | apply KeepsOut.next

theorem keeps_endQuiescence {K b} (a0 s) (h : Keeps K b s) : Keeps K b (endQuiescence a0 s) := by
  unfold endQuiescence
  exact keeps_foldl (fun _ _ ht => keeps_drainCq _ _ _ ht) (keeps_onFn _ _ _ (keeps_sqs _ h (all_map fun q h => by split <;> exact h)))

theorem keeps_adminResume {K b} (a0 a1 s) (h : Keeps K b s) : KeepsRes K b (adminResume a0 a1 s) := by
  unfold adminResume
  repeat' with_reducible first
    | assumption | apply keeps_aChecks | apply keeps_aBad | apply keeps_onInstance | apply keeps_endQuiescence | exact AllRes.nil | apply AllRes.cons | intro _
    | split | apply KeepsRes.ok

theorem keeps_execSliceDestroy {K b} (a0 s) (h : Keeps K b s) : KeepsOut K b (execSliceDestroy a0 s) := by
  unfold execSliceDestroy
  repeat' with_reducible first | assumption | apply keeps_adminRun | apply keeps_adminSliceReset | apply KeepsOut.next

theorem keeps_adminSliceCreate {K b} (a0 a1 s) (h : Keeps K b s) : KeepsRes K b (adminSliceCreate a0 a1 s) := by
  unfold adminSliceCreate
  repeat' with_reducible first
    | assumption | refine keeps_mk ?_ | apply keeps_aChecks | apply keeps_aBad | apply keeps_aFail | exact AllRes.nil | apply AllRes.cons | intro _
    | apply KeepsRes.ok

theorem keeps_execQuiesceDrained {K b} (a0 s) (h : Keeps K b s) : KeepsOut K b (execQuiesceDrained a0 s) := by
  unfold execQuiesceDrained
  repeat' with_reducible first | assumption | apply keeps_quiesceDone | apply KeepsOut.next

theorem keeps_execOutSend {K b} (a0 s) (h : Keeps K b s) : KeepsOut K b (execOutSend a0 s) := by
  unfold execOutSend
  repeat' with_reducible first | assumption | apply keeps_mbxOutSend | apply KeepsOut.next

theorem keeps_execQuiesceResume {K b} (a0 s) (h : Keeps K b s) : KeepsOut K b (execQuiesceResume a0 s) := by
  unfold execQuiesceResume
  repeat' with_reducible first | assumption | apply keeps_adminRun | apply keeps_adminResume | apply KeepsOut.next

theorem keeps_execSliceCreate {K b} (a0 s) (h : Keeps K b s) : KeepsOut K b (execSliceCreate a0 s) := by
  unfold execSliceCreate
  repeat' with_reducible first | assumption | apply keeps_adminRun | apply keeps_adminSliceCreate | apply KeepsOut.next

theorem keeps_execOutAck {K b} (s) (h : Keeps K b s) : KeepsOut K b (execOutAck s) := by
  unfold execOutAck
  repeat' with_reducible first | assumption | apply keeps_mbxOutAck | apply KeepsOut.next

/-! ### Machine/AdminKeys.lean -/

theorem keeps_keyGate {K : Breaks} {b : State} (s : State) (a1 : AdminIn) (a2 : Bytes) (a3 : Bool) (a4 : Nat) (a5 : Unit → AdminRes) (h5 : ∀ v0, KeepsRes K b (a5 v0)) (h : Keeps K b s) :
    KeepsRes K b (keyGate s a1 a2 a3 a4 a5) := by
  unfold keyGate
  repeat' with_reducible first | assumption | apply keeps_aChecks | apply keeps_aBad | apply keeps_aFail | exact AllRes.nil | apply AllRes.cons

theorem keeps_adminDomainInfo {K b} (a0 a1 s) (h : Keeps K b s) : KeepsRes K b (adminDomainInfo a0 a1 s) := by
  unfold adminDomainInfo
  repeat' with_reducible first | assumption | apply keeps_keyGate | apply keeps_toBuf | intro _ | apply KeepsRes.ok

theorem keeps_adminEraseDomain {K : Breaks} {b : State} (e : Bytes) (a : AdminIn) (s : State) (h : Keeps K b s) : KeepsRes K b (adminEraseDomain e a s) := by
  refine keeps_keyGate _ _ _ _ _ _ (fun _ => ?_) h
  have key : ∀ (l : List Nat) (p : Nat × State), Keeps K b p.2 →
      Keeps K b (l.foldl (fun (p : Nat × State) i => ((p.1 + (eraseSlot (aForce e) i p.2).1, (eraseSlot (aForce e) i p.2).2.2) : Nat × State)) p).2 := by
    intro l
    induction l with
    | nil => intro p hp; exact hp
    | cons y l ih => intro p hp; exact ih _ (keeps_eraseSlot _ _ _ hp)
  dsimp only
  split
  · exact key _ (0, s) h
  · exact key _ (0, s) h

theorem keeps_execEraseDomain {K b} (a0 s) (h : Keeps K b s) : KeepsOut K b (execEraseDomain a0 s) := by
  unfold execEraseDomain
  repeat' with_reducible first | assumption | apply keeps_adminRun | apply keeps_adminEraseDomain | apply KeepsOut.next

theorem keeps_execDomainInfo {K b} (a0 s) (h : Keeps K b s) : KeepsOut K b (execDomainInfo a0 s) := by
  unfold execDomainInfo
  repeat' with_reducible first | assumption | apply keeps_adminRun | apply keeps_adminDomainInfo | apply KeepsOut.next

theorem keeps_adminErase {K : Breaks} {b : State} (e : Bytes) (a : AdminIn) (s : State) (h : Keeps K b s) : KeepsRes K b (adminErase e a s) := by
  refine keeps_keyGate _ _ _ _ _ _ (fun _ => ?_) h
  split
  · exact keeps_aFail _ _
  · have h1 := fun f i => keeps_eraseSlot f i s h
    dsimp only
    split
    · exact h1 _ _
    · exact h1 _ _

theorem keeps_attestGate {K : Breaks} {b : State} (a0 : Bytes) (a1 : AdminIn) (a2 : Bytes → AdminRes) (h2 : ∀ v0, KeepsRes K b (a2 v0)) :
    KeepsRes K b (attestGate a0 a1 a2) := by
  unfold attestGate
  repeat' with_reducible first
    | apply h2 | apply keeps_aChecks | apply keeps_aBad | apply keeps_aFail | exact AllRes.nil | apply AllRes.cons | intro _ | split | apply KeepsRes.fail

theorem keeps_quoteSigs {K b} (a0 a1 s) (h : Keeps K b s) : Keeps K b (quoteSigs a0 a1 s).2 := by
  unfold quoteSigs
  repeat' with_reducible first
    | assumption | apply keeps_drawBytes | apply keeps_ecdsaDraw
    | (extract_lets +onlyGivenNames x; refine keeps_pcut (K := K) (b := b) (v := x) ?_ ?_; unfold x; clear x; rotate_left; (try clear_value x); intro hp)
    | (extract_lets +onlyGivenNames x; (first | (have _h : Sc := x; clear _h; subst x) | (have _h : TokSt := x; clear _h; subst x) | clear_value x | subst x)) | split

theorem keeps_adminQuote {K b} (a0 a1 s) (h : Keeps K b s) : KeepsRes K b (adminQuote a0 a1 s) := by
  unfold adminQuote
  repeat' with_reducible first
    | assumption | apply keeps_attestGate | apply keeps_quoteSigs | apply keeps_toBuf | intro _
    | (extract_lets +onlyGivenNames x; refine keeps_pcut (K := K) (b := b) (v := x) ?_ ?_; unfold x; clear x; rotate_left; (try clear_value x); intro hp)
    | (extract_lets +onlyGivenNames x; (first | (have _h : Sc := x; clear _h; subst x) | (have _h : TokSt := x; clear _h; subst x) | clear_value x | subst x)) | split | apply KeepsRes.ok
    | apply KeepsRes.fail

theorem keeps_execAttestQuote {K b} (a0 s) (h : Keeps K b s) : KeepsOut K b (execAttestQuote a0 s) := by
  unfold execAttestQuote
  repeat' with_reducible first | assumption | apply keeps_runPlain | apply keeps_svcQuote | apply keeps_adminRun | apply keeps_adminQuote | split | apply KeepsOut.next

theorem keeps_adminAnchorInfo {K b} (a0 a1 s) (h : Keeps K b s) : KeepsRes K b (adminAnchorInfo a0 a1 s) := by
  unfold adminAnchorInfo
  repeat' with_reducible first | assumption | apply keeps_keyGate | apply keeps_toBuf | intro _ | apply KeepsRes.ok

theorem keeps_adminSlotInfo {K b} (a0 a1 s) (h : Keeps K b s) : KeepsRes K b (adminSlotInfo a0 a1 s) := by
  unfold adminSlotInfo
  repeat' with_reducible first | assumption | apply keeps_keyGate | apply keeps_aFail | apply keeps_toBuf | intro _ | split | apply KeepsRes.ok

theorem keeps_execSlotInfo {K b} (a0 s) (h : Keeps K b s) : KeepsOut K b (execSlotInfo a0 s) := by
  unfold execSlotInfo
  repeat' with_reducible first | assumption | apply keeps_adminRun | apply keeps_adminSlotInfo | apply KeepsOut.next

theorem keeps_adminIdentity {K : Breaks} {b : State} (e : Bytes) (a : AdminIn) (s : State) (h : Keeps K b s) : KeepsRes K b (adminIdentity e a s) := by
  unfold adminIdentity
  refine keeps_attestGate _ _ _ (fun _ => ?_)
  extract_lets m
  clear_value m
  exact keeps_toBuf _ _ _ _ _ (fun _ ht => KeepsRes.ok ht) h

theorem keeps_execKeyAdminErase {K b} (a0 s) (h : Keeps K b s) : KeepsOut K b (execKeyAdminErase a0 s) := by
  unfold execKeyAdminErase
  repeat' with_reducible first | assumption | apply keeps_adminRun | apply keeps_adminErase | apply KeepsOut.next

theorem keeps_execAttestIdentity {K b} (a0 s) (h : Keeps K b s) : KeepsOut K b (execAttestIdentity a0 s) := by
  unfold execAttestIdentity
  repeat' with_reducible first
    | assumption | apply keeps_runPlain | apply keeps_svcIdentity | apply keeps_adminRun | apply keeps_adminIdentity | split | apply KeepsOut.next

theorem keeps_adminChallenge {K b} (a0 a1 s) (h : Keeps K b s) : KeepsRes K b (adminChallenge a0 a1 s) := by
  unfold adminChallenge
  repeat' with_reducible first | assumption | apply keeps_attestGate | apply keeps_aFail | apply keeps_toBuf | intro _ | split | apply KeepsRes.ok

theorem keeps_execAnchorInfo {K b} (a0 s) (h : Keeps K b s) : KeepsOut K b (execAnchorInfo a0 s) := by
  unfold execAnchorInfo
  repeat' with_reducible first | assumption | apply keeps_adminRun | apply keeps_adminAnchorInfo | apply KeepsOut.next

theorem keeps_execAttestChallenge {K b} (a0 s) (h : Keeps K b s) : KeepsOut K b (execAttestChallenge a0 s) := by
  unfold execAttestChallenge
  repeat' with_reducible first
    | assumption | apply keeps_runPlain | apply keeps_svcChallenge | apply keeps_adminRun | apply keeps_adminChallenge | split | apply KeepsOut.next

/-! ### Machine/DoeMailbox.lean -/

theorem keeps_refuse {K b} (a0 s) (h : Keeps K b s) : Keeps K b (refuse a0 s) := by
  unfold refuse
  repeat' with_reducible first | assumption | apply keeps_emit

theorem keeps_answer {K b} (a0 s) (h : Keeps K b s) : Keeps K b (answer a0 s) := by
  unfold answer
  repeat' with_reducible first | assumption | apply keeps_emit

theorem keeps_recorded {K b} (a0 a1 s) (h : Keeps K b s) : Keeps K b (recorded a0 a1 s) := by
  unfold recorded
  repeat' with_reducible first
    | assumption | refine keeps_mk ?_ | apply keeps_answer | intro _
    | (extract_lets +onlyGivenNames x; refine keeps_pcut (K := K) (b := b) (v := x) ?_ ?_; unfold x; clear x; rotate_left; (try clear_value x); intro hp)
    | (extract_lets +onlyGivenNames x; refine keeps_cut (K := K) (b := b) (v := x) ?_ ?_; unfold x; clear x; rotate_left; (try clear_value x); intro hx)
    | (extract_lets +onlyGivenNames x; (first | (have _h : Sc := x; clear _h; subst x) | (have _h : TokSt := x; clear _h; subst x) | clear_value x | subst x)) | apply keeps_ite | apply keeps_foldl
    | split

theorem keeps_spdmCaps {K b} (a0 s) (h : Keeps K b s) : Keeps K b (spdmCaps a0 s) := by
  unfold spdmCaps
  repeat' with_reducible first
    | assumption | refine keeps_mk ?_ | apply keeps_recorded | apply keeps_refuse | intro _
    | (extract_lets +onlyGivenNames x; refine keeps_pcut (K := K) (b := b) (v := x) ?_ ?_; unfold x; clear x; rotate_left; (try clear_value x); intro hp)
    | (extract_lets +onlyGivenNames x; refine keeps_cut (K := K) (b := b) (v := x) ?_ ?_; unfold x; clear x; rotate_left; (try clear_value x); intro hx)
    | (extract_lets +onlyGivenNames x; (first | (have _h : Sc := x; clear _h; subst x) | (have _h : TokSt := x; clear _h; subst x) | clear_value x | subst x)) | apply keeps_ite | apply keeps_foldl
    | split

theorem keeps_whileOpen {K : Breaks} {b : State} (a0 : State → State) (s : State) (h0 : ∀ v0, Keeps K b v0 → Keeps K b (a0 v0)) (h : Keeps K b s) :
    Keeps K b (whileOpen a0 s) := by
  unfold whileOpen
  repeat' with_reducible first | assumption | apply h0 | apply keeps_ite

theorem keeps_object {K : Breaks} {b : State} (n : Nat) (a1 : State → State) (s : State) (h1 : ∀ v0, Keeps K b v0 → Keeps K b (a1 v0)) (h : Keeps K b s) :
    Keeps K b (object n a1 s) :=
  keeps_whileOpen _ _ (fun _ hv => keeps_ite (keeps_mk hv) (h1 _ hv)) h

theorem keeps_mailed {K : Breaks} {b : State} (k : Bytes → State → State) (s : State) (h1 : ∀ r v, Keeps K b v → Keeps K b (k r v)) (h : Keeps K b s) : Keeps K b (mailed k s) :=
  keeps_object _ _ _ (fun _ hv => h1 _ _ (keeps_mk hv)) h

theorem keeps_spdmAgree {b s t : State} {p z o : Bytes} (e : spdmAgree p s = some (z, o, t)) (h : Keeps K b s) : Keeps K b t := by
  unfold spdmAgree at e
  split at e
  · cases e
  · split at e <;> cases e
    exact keeps_drawBytes _ _ h

theorem keeps_execSpdmUnsupportedRequest {K b} (a0 s) (h : Keeps K b s) : KeepsOut K b (execSpdmUnsupportedRequest a0 s) := by
  unfold execSpdmUnsupportedRequest
  repeat' with_reducible first | assumption | apply keeps_whileOpen | apply keeps_emit | apply KeepsOut.next

theorem keeps_spdmAlgs {K b} (a0 s) (h : Keeps K b s) : Keeps K b (spdmAlgs a0 s) := by
  unfold spdmAlgs
  repeat' with_reducible first
    | assumption | refine keeps_mk ?_ | apply keeps_recorded | apply keeps_refuse | intro _
    | (extract_lets +onlyGivenNames x; refine keeps_pcut (K := K) (b := b) (v := x) ?_ ?_; unfold x; clear x; rotate_left; (try clear_value x); intro hp)
    | (extract_lets +onlyGivenNames x; refine keeps_cut (K := K) (b := b) (v := x) ?_ ?_; unfold x; clear x; rotate_left; (try clear_value x); intro hx)
    | (extract_lets +onlyGivenNames x; (first | (have _h : Sc := x; clear _h; subst x) | (have _h : TokSt := x; clear _h; subst x) | clear_value x | subst x)) | apply keeps_ite | apply keeps_foldl
    | split

theorem keeps_execNegotiateAlgorithms {K b} (s) (h : Keeps K b s) : KeepsOut K b (execNegotiateAlgorithms s) := by
  unfold execNegotiateAlgorithms
  repeat' with_reducible first
    | assumption | apply keeps_mailed | apply keeps_spdmAlgs | intro _ | apply KeepsOut.next

theorem keeps_counted {K b} (a0 s) (h : Keeps K b s) : Keeps K b (counted a0 s) := by
  unfold counted
  repeat' with_reducible first
    | assumption | refine keeps_mk ?_ | apply hg | intro _
    | (extract_lets +onlyGivenNames x; refine keeps_pcut (K := K) (b := b) (v := x) ?_ ?_; unfold x; clear x; rotate_left; (try clear_value x); intro hp)
    | (extract_lets +onlyGivenNames x; refine keeps_fcut (K := K) (b := b) (v := x) ?_ ?_; unfold x; clear x; rotate_left; (try clear_value x); intro hg)
    | (extract_lets +onlyGivenNames x; refine keeps_fcut2 (K := K) (b := b) (v := x) ?_ ?_; unfold x; clear x; rotate_left; (try clear_value x); intro hg)
    | (extract_lets +onlyGivenNames x; refine keeps_cut (K := K) (b := b) (v := x) ?_ ?_; unfold x; clear x; rotate_left; (try clear_value x); intro hx)
    | (extract_lets +onlyGivenNames x; (first | (have _h : Sc := x; clear _h; subst x) | (have _h : TokSt := x; clear _h; subst x) | clear_value x | subst x)) | apply keeps_ite | apply keeps_foldl
    | split

theorem keeps_dropSession {K b} (a0 s) (h : Keeps K b s) : Keeps K b (dropSession a0 s) := by
  unfold dropSession
  repeat' with_reducible first | assumption | refine keeps_mk ?_

theorem keeps_opened {K : Breaks} {b : State} (n : Nat) (body : Bytes) (k : State → State) (s : State) (hk : ∀ v, Keeps K b v → Keeps K b (k v)) (h : Keeps K b s) :
    Keeps K b (opened n body k s) := by
  unfold opened
  repeat' with_reducible first
    | assumption | apply hk | apply keeps_counted | apply keeps_refuse | apply keeps_dropSession | refine keeps_mk ?_ | apply keeps_ite
    | split

theorem keeps_inSession {K : Breaks} {b : State} (n : Nat) (body : Bytes) (k : State → State) (s : State) (hk : ∀ v, Keeps K b v → Keeps K b (k v)) (h : Keeps K b s) :
    Keeps K b (inSession n body k s) := by
  unfold inSession
  exact keeps_ite (keeps_opened _ _ _ _ hk h) (keeps_refuse _ _ h)

theorem keeps_answerIn {K b} (a0 a1 s) (h : Keeps K b s) : Keeps K b (answerIn a0 a1 s) := by
  unfold answerIn
  repeat' with_reducible first
    | assumption | refine keeps_mk ?_ | apply keeps_emit | intro _
    | (extract_lets +onlyGivenNames x; refine keeps_pcut (K := K) (b := b) (v := x) ?_ ?_; unfold x; clear x; rotate_left; (try clear_value x); intro hp)
    | (extract_lets +onlyGivenNames x; refine keeps_cut (K := K) (b := b) (v := x) ?_ ?_; unfold x; clear x; rotate_left; (try clear_value x); intro hx)
    | (extract_lets +onlyGivenNames x; (first | (have _h : Sc := x; clear _h; subst x) | (have _h : TokSt := x; clear _h; subst x) | clear_value x | subst x)) | apply keeps_ite | apply keeps_foldl
    | split

theorem keeps_ideAnswer {K b} (a0 a1 a2 a3 s) (h : Keeps K b s) : Keeps K b (ideAnswer a0 a1 a2 a3 s) := by
  unfold ideAnswer
  repeat' with_reducible first
    | assumption | apply keeps_answerIn | intro _
    | (extract_lets +onlyGivenNames x; refine keeps_pcut (K := K) (b := b) (v := x) ?_ ?_; unfold x; clear x; rotate_left; (try clear_value x); intro hp)
    | (extract_lets +onlyGivenNames x; refine keeps_cut (K := K) (b := b) (v := x) ?_ ?_; unfold x; clear x; rotate_left; (try clear_value x); intro hx)
    | (extract_lets +onlyGivenNames x; (first | (have _h : Sc := x; clear _h; subst x) | (have _h : TokSt := x; clear _h; subst x) | clear_value x | subst x)) | apply keeps_ite | apply keeps_foldl
    | split

theorem keeps_ideGo {K b} (a0 a1 s) (h : Keeps K b s) : Keeps K b (ideGo a0 a1 s) := by
  unfold ideGo
  repeat' with_reducible first | assumption | refine keeps_mk ?_ | apply keeps_inSession | apply keeps_ideAnswer | intro _

theorem keeps_execIdeKmKSetGo {K b} (a0 a1 s) (h : Keeps K b s) : KeepsOut K b (execIdeKmKSetGo a0 a1 s) := by
  unfold execIdeKmKSetGo
  repeat' with_reducible first | assumption | apply keeps_whileOpen | apply keeps_ideGo | apply KeepsOut.next

theorem keeps_ideInsecure {K b} (a0 s) (h : Keeps K b s) : Keeps K b (ideInsecure a0 s) := by
  unfold ideInsecure
  repeat' with_reducible first
    | assumption | refine keeps_mk ?_ | intro _
    | (extract_lets +onlyGivenNames x; refine keeps_pcut (K := K) (b := b) (v := x) ?_ ?_; unfold x; clear x; rotate_left; (try clear_value x); intro hp)
    | (extract_lets +onlyGivenNames x; refine keeps_cut (K := K) (b := b) (v := x) ?_ ?_; unfold x; clear x; rotate_left; (try clear_value x); intro hx)
    | (extract_lets +onlyGivenNames x; (first | (have _h : Sc := x; clear _h; subst x) | (have _h : TokSt := x; clear _h; subst x) | clear_value x | subst x)) | apply keeps_ite | apply keeps_foldl
    | split

theorem keeps_ideFail {K b} (a0 a1 s) (h : Keeps K b s) : Keeps K b (ideFail a0 a1 s) := by
  unfold ideFail
  repeat' with_reducible first
    | assumption | apply keeps_ideInsecure | apply keeps_jobDmaFault | intro _
    | (extract_lets +onlyGivenNames x; refine keeps_pcut (K := K) (b := b) (v := x) ?_ ?_; unfold x; clear x; rotate_left; (try clear_value x); intro hp)
    | (extract_lets +onlyGivenNames x; refine keeps_cut (K := K) (b := b) (v := x) ?_ ?_; unfold x; clear x; rotate_left; (try clear_value x); intro hx)
    | (extract_lets +onlyGivenNames x; (first | (have _h : Sc := x; clear _h; subst x) | (have _h : TokSt := x; clear _h; subst x) | clear_value x | subst x)) | apply keeps_ite | apply keeps_foldl
    | split

theorem keeps_execIdeIntegrityFailure {K b} (a0 s) (h : Keeps K b s) : KeepsOut K b (execIdeIntegrityFailure a0 s) := by
  unfold execIdeIntegrityFailure
  repeat' with_reducible first | assumption | apply keeps_ideFail | apply KeepsOut.next

theorem keeps_spdmSign {K b} (a0 a1 s) (h : Keeps K b s) : Keeps K b (spdmSign a0 a1 s).2 := by
  unfold spdmSign
  repeat' with_reducible first | assumption | apply keeps_ecdsaDraw | split

theorem keeps_spdmChallenge {K b} (a0 s) (h : Keeps K b s) : Keeps K b (spdmChallenge a0 s) := by
  unfold spdmChallenge
  repeat' with_reducible first
    | assumption | apply keeps_refuse | apply keeps_drawBytes | apply keeps_spdmSign | apply keeps_answer
    | (extract_lets +onlyGivenNames x; refine keeps_pcut (K := K) (b := b) (v := x) ?_ ?_; unfold x; clear x; rotate_left; (try clear_value x); intro hp)
    | (extract_lets +onlyGivenNames x; (first | (have _h : Sc := x; clear _h; subst x) | (have _h : TokSt := x; clear _h; subst x) | clear_value x | subst x)) | apply keeps_ite

theorem keeps_spdmVersion {K b} (s) (h : Keeps K b s) : Keeps K b (spdmVersion s) := by
  unfold spdmVersion
  repeat' with_reducible first
    | assumption | refine keeps_mk ?_ | apply keeps_recorded | intro _
    | (extract_lets +onlyGivenNames x; refine keeps_pcut (K := K) (b := b) (v := x) ?_ ?_; unfold x; clear x; rotate_left; (try clear_value x); intro hp)
    | (extract_lets +onlyGivenNames x; refine keeps_cut (K := K) (b := b) (v := x) ?_ ?_; unfold x; clear x; rotate_left; (try clear_value x); intro hx)
    | (extract_lets +onlyGivenNames x; (first | (have _h : Sc := x; clear _h; subst x) | (have _h : TokSt := x; clear _h; subst x) | clear_value x | subst x)) | apply keeps_ite | apply keeps_foldl
    | split

theorem keeps_execGetVersion {K b} (s) (h : Keeps K b s) : KeepsOut K b (execGetVersion s) := by
  unfold execGetVersion
  repeat' with_reducible first | assumption | apply keeps_whileOpen | apply keeps_spdmVersion | apply KeepsOut.next

theorem keeps_negotiated {K : Breaks} {b : State} (a0 : State → State) (s : State) (h0 : ∀ v0, Keeps K b v0 → Keeps K b (a0 v0)) (h : Keeps K b s) :
    Keeps K b (negotiated a0 s) := by
  unfold negotiated
  repeat' with_reducible first | assumption | apply h0 | apply keeps_refuse | apply keeps_ite

theorem keeps_spdmMeasure {K b} (a0 a1 a2 s) (h : Keeps K b s) : Keeps K b (spdmMeasure a0 a1 a2 s) := by
  unfold spdmMeasure
  repeat' with_reducible first
    | assumption | apply keeps_refuse | apply keeps_drawBytes | apply keeps_spdmSign | apply keeps_answer
    | (extract_lets +onlyGivenNames x; refine keeps_pcut (K := K) (b := b) (v := x) ?_ ?_; unfold x; clear x; rotate_left; (try clear_value x); intro hp)
    | (extract_lets +onlyGivenNames x; (first | (have _h : Sc := x; clear _h; subst x) | (have _h : TokSt := x; clear _h; subst x) | clear_value x | subst x)) | apply keeps_ite

theorem keeps_execGetMeasurements {K b} (a0 a1 a2 s) (h : Keeps K b s) : KeepsOut K b (execGetMeasurements a0 a1 a2 s) := by
  unfold execGetMeasurements
  repeat' with_reducible first
    | assumption | apply keeps_negotiated | apply keeps_object | apply keeps_spdmMeasure | intro _ | apply KeepsOut.next

theorem keeps_execDoeDiscovery {K b} (a0 s) (h : Keeps K b s) : KeepsOut K b (execDoeDiscovery a0 s) := by
  unfold execDoeDiscovery
  repeat' with_reducible first | assumption | apply keeps_whileOpen | apply keeps_answer | apply KeepsOut.next

theorem keeps_establish {K b} (a0 a1 s) (h : Keeps K b s) : Keeps K b (establish a0 a1 s) := by
  unfold establish
  repeat' with_reducible first
    | assumption | refine keeps_mk ?_ | intro _
    | (extract_lets +onlyGivenNames x; refine keeps_pcut (K := K) (b := b) (v := x) ?_ ?_; unfold x; clear x; rotate_left; (try clear_value x); intro hp)
    | (extract_lets +onlyGivenNames x; refine keeps_cut (K := K) (b := b) (v := x) ?_ ?_; unfold x; clear x; rotate_left; (try clear_value x); intro hx)
    | (extract_lets +onlyGivenNames x; (first | (have _h : Sc := x; clear _h; subst x) | (have _h : TokSt := x; clear _h; subst x) | clear_value x | subst x)) | apply keeps_ite | apply keeps_foldl
    | split

theorem keeps_spdmFinish {K b} (a0 a1 s) (h : Keeps K b s) : Keeps K b (spdmFinish a0 a1 s) := by
  unfold spdmFinish
  repeat' with_reducible first
    | assumption | apply keeps_opened | apply keeps_answerIn | apply keeps_dropSession | apply keeps_establish | apply keeps_refuse | intro _
    | (extract_lets +onlyGivenNames x; refine keeps_pcut (K := K) (b := b) (v := x) ?_ ?_; unfold x; clear x; rotate_left; (try clear_value x); intro hp)
    | (extract_lets +onlyGivenNames x; refine keeps_cut (K := K) (b := b) (v := x) ?_ ?_; unfold x; clear x; rotate_left; (try clear_value x); intro hx)
    | (extract_lets +onlyGivenNames x; (first | (have _h : Sc := x; clear _h; subst x) | (have _h : TokSt := x; clear _h; subst x) | clear_value x | subst x)) | apply keeps_ite | apply keeps_foldl
    | split

theorem keeps_ideStop {K b} (a0 a1 s) (h : Keeps K b s) : Keeps K b (ideStop a0 a1 s) := by
  unfold ideStop
  repeat' with_reducible first | assumption | refine keeps_mk ?_ | apply keeps_inSession | apply keeps_ideAnswer | intro _

theorem keeps_execIdeKmKSetStop {K b} (a0 a1 s) (h : Keeps K b s) : KeepsOut K b (execIdeKmKSetStop a0 a1 s) := by
  unfold execIdeKmKSetStop
  repeat' with_reducible first | assumption | apply keeps_whileOpen | apply keeps_ideStop | apply KeepsOut.next

theorem keeps_execGetCapabilities {K b} (s) (h : Keeps K b s) : KeepsOut K b (execGetCapabilities s) := by
  unfold execGetCapabilities
  repeat' with_reducible first
    | assumption | apply keeps_mailed | apply keeps_spdmCaps | intro _ | apply KeepsOut.next

theorem keeps_spdmDigests {K b} (s) (h : Keeps K b s) : Keeps K b (spdmDigests s) := by
  unfold spdmDigests
  repeat' with_reducible first | assumption | apply keeps_answer | apply keeps_ite

theorem keeps_spdmEnd {K b} (a0 s) (h : Keeps K b s) : Keeps K b (spdmEnd a0 s) := by
  unfold spdmEnd
  repeat' with_reducible first
    | assumption | apply keeps_answerIn | apply keeps_dropSession | apply keeps_inSession | intro _
    | (extract_lets +onlyGivenNames x; refine keeps_pcut (K := K) (b := b) (v := x) ?_ ?_; unfold x; clear x; rotate_left; (try clear_value x); intro hp)
    | (extract_lets +onlyGivenNames x; refine keeps_cut (K := K) (b := b) (v := x) ?_ ?_; unfold x; clear x; rotate_left; (try clear_value x); intro hx)
    | (extract_lets +onlyGivenNames x; (first | (have _h : Sc := x; clear _h; subst x) | (have _h : TokSt := x; clear _h; subst x) | clear_value x | subst x)) | apply keeps_ite | apply keeps_foldl
    | split

theorem keeps_spdmCertificate {K b} (a0 a1 s) (h : Keeps K b s) : Keeps K b (spdmCertificate a0 a1 s) := by
  unfold spdmCertificate
  repeat' with_reducible first
    | assumption | apply keeps_refuse | apply keeps_answer
    | (extract_lets +onlyGivenNames x; (first | (have _h : Sc := x; clear _h; subst x) | (have _h : TokSt := x; clear _h; subst x) | clear_value x | subst x)) | apply keeps_ite

theorem keeps_execGetCertificate {K b} (a0 a1 s) (h : Keeps K b s) : KeepsOut K b (execGetCertificate a0 a1 s) := by
  unfold execGetCertificate
  repeat' with_reducible first | assumption | apply keeps_whileOpen | apply keeps_negotiated | apply keeps_spdmCertificate | intro _ | apply KeepsOut.next

theorem keeps_execGetDigests {K b} (s) (h : Keeps K b s) : KeepsOut K b (execGetDigests s) := by
  unfold execGetDigests
  repeat' with_reducible first | assumption | apply keeps_whileOpen | apply keeps_negotiated | apply keeps_spdmDigests | intro _ | apply KeepsOut.next

theorem keeps_ideQuery {K b} (a0 s) (h : Keeps K b s) : Keeps K b (ideQuery a0 s) := by
  unfold ideQuery
  repeat' with_reducible first
    | assumption | apply keeps_answerIn | apply keeps_inSession | intro _
    | (extract_lets +onlyGivenNames x; refine keeps_pcut (K := K) (b := b) (v := x) ?_ ?_; unfold x; clear x; rotate_left; (try clear_value x); intro hp)
    | (extract_lets +onlyGivenNames x; refine keeps_cut (K := K) (b := b) (v := x) ?_ ?_; unfold x; clear x; rotate_left; (try clear_value x); intro hx)
    | (extract_lets +onlyGivenNames x; (first | (have _h : Sc := x; clear _h; subst x) | (have _h : TokSt := x; clear _h; subst x) | clear_value x | subst x)) | apply keeps_ite | apply keeps_foldl
    | split

theorem keeps_execIdeKmQuery {K b} (a0 s) (h : Keeps K b s) : KeepsOut K b (execIdeKmQuery a0 s) := by
  unfold execIdeKmQuery
  repeat' with_reducible first | assumption | apply keeps_whileOpen | apply keeps_ideQuery | apply KeepsOut.next

theorem keeps_execEndSession {K b} (a0 s) (h : Keeps K b s) : KeepsOut K b (execEndSession a0 s) := by
  unfold execEndSession
  repeat' with_reducible first | assumption | apply keeps_whileOpen | apply keeps_spdmEnd | apply KeepsOut.next

theorem keeps_execFinish {K b} (a0 a1 s) (h : Keeps K b s) : KeepsOut K b (execFinish a0 a1 s) := by
  unfold execFinish
  repeat' with_reducible first
    | assumption | apply keeps_object | apply keeps_spdmFinish | intro _ | apply KeepsOut.next

theorem keeps_execDoeAbort {K b} (s) (h : Keeps K b s) : KeepsOut K b (execDoeAbort s) := by
  unfold execDoeAbort
  repeat' with_reducible first | assumption | refine keeps_mk ?_ | apply keeps_ite | apply KeepsOut.next

theorem keeps_ideProg {K b} (a0 a1 s) (h : Keeps K b s) : Keeps K b (ideProg a0 a1 s) := by
  unfold ideProg
  repeat' with_reducible first
    | assumption | refine keeps_mk ?_ | apply keeps_inSession | apply keeps_ideAnswer | intro _
    | (extract_lets +onlyGivenNames x; (first | (have _h : Sc := x; clear _h; subst x) | (have _h : TokSt := x; clear _h; subst x) | clear_value x | subst x)) | apply keeps_ite

theorem keeps_execIdeKmKeyProg {K b} (a0 a1 s) (h : Keeps K b s) : KeepsOut K b (execIdeKmKeyProg a0 a1 s) := by
  unfold execIdeKmKeyProg
  repeat' with_reducible first | assumption | apply keeps_whileOpen | apply keeps_ideProg | apply KeepsOut.next

theorem keeps_spdmExchange {K b} (a0 s) (h : Keeps K b s) : Keeps K b (spdmExchange a0 s) := by
  unfold spdmExchange
  repeat' with_reducible first
    | assumption | refine keeps_mk ?_ | apply keeps_refuse | apply keeps_drawBytes | apply keeps_spdmSign | apply keeps_answer
    | (extract_lets +onlyGivenNames x; refine keeps_pcut (K := K) (b := b) (v := x) ?_ ?_; unfold x; clear x; rotate_left; (try clear_value x); intro hp) | apply keeps_ite
    | split | (apply keeps_spdmAgree; assumption; assumption)

theorem keeps_execKeyExchange {K b} (a0 s) (h : Keeps K b s) : KeepsOut K b (execKeyExchange a0 s) := by
  unfold execKeyExchange
  repeat' with_reducible first
    | assumption | apply keeps_negotiated | apply keeps_object | apply keeps_spdmExchange | intro _ | apply KeepsOut.next

theorem keeps_execSpdmChallenge {K b} (a0 s) (h : Keeps K b s) : KeepsOut K b (execSpdmChallenge a0 s) := by
  unfold execSpdmChallenge
  repeat' with_reducible first
    | assumption | apply keeps_negotiated | apply keeps_object | apply keeps_spdmChallenge | intro _ | apply KeepsOut.next

/-! ### Machine/Migrate.lean -/

theorem keeps_putSlot {K b} (hR : K.restore) (a0 s) (h : Keeps K b s) : Keeps K b (putSlot a0 s) :=
  h.anew hR (x := fun r => by
    show ∀ x ∈ putWhere _ _ s.slots, SlotOk x
    unfold putWhere
    split
    · exact all_modFirst (fun _ _ e => nomatch e) r
    · exact all_append r (by intro x hx; rw [List.mem_singleton.1 hx]; exact fun e => nomatch e))

theorem keeps_putCtx {K b} (a0 s) (h : Keeps K b s) : Keeps K b (putCtx a0 s) := by
  unfold putCtx
  repeat' with_reducible first | assumption | refine keeps_mk ?_

theorem keeps_restoreFn {K b} (hR : K.restore) (a0 a1 s) (h : Keeps K b s) : Keeps K b (restoreFn a0 a1 s) := by
  unfold restoreFn
  extract_lets size upd s1 x
  have h1 : Keeps K b s1 := keeps_onFn _ _ _ h
  clear_value s1
  exact keeps_ite h1 (h1.anew hR)

theorem keeps_placeRest {K b} (hR : K.restore) (a0 a1 a2 s) (h : Keeps K b s) : Keeps K b (placeRest a0 a1 a2 s) := by
  unfold placeRest
  refine keeps_restoreFn hR _ _ _ (keeps_foldl (fun _ _ ht => keeps_putCtx _ _ ht) (keeps_foldl (fun _ _ ht => keeps_putSlot hR _ _ ht) (h.anew hR)))

theorem keeps_placeSqs {K : Breaks} {b t : State} (hR : K.restore) (f : Fn) (d : Nat) (l : List Bytes) (s : State) (e : placeSqs f d l s = some t) (h : Keeps K b s) : Keeps K b t := by
  induction l generalizing s with
  | nil => cases e; exact h
  | cons r l ih =>
    unfold placeSqs at e
    split at e
    · cases e
    · exact ih _ e (h.anew hR)

theorem keeps_restoreParts {K : Breaks} {b : State} (hR : K.restore) (s : State) (f : Fn) (d : Nat) (g : Bytes) (p : BlobParts) (h : Keeps K b s) : KeepsRes K b (restoreParts s f d g p) := by
  refine keeps_aChecks _ _ ?_ (fun _ => ?_)
  · repeat' first
      | exact AllRes.nil
      | refine AllRes.cons ?_ ?_
      | exact keeps_aBad _
      | exact keeps_aFail _ _
  · split
    · exact keeps_aFail _ _
    · rename_i e
      exact keeps_placeRest hR _ _ _ _ (keeps_placeSqs hR _ _ _ _ e h)

theorem keeps_adminRestore {K b} (hR : K.restore) (a0 a1 s) (h : Keeps K b s) : KeepsRes K b (adminRestore a0 a1 s) := by
  unfold adminRestore
  repeat' with_reducible first
    | assumption | apply keeps_onInstance | apply keeps_aFail | apply keeps_restoreParts | exact AllRes.nil | apply AllRes.cons | intro _
    | (extract_lets +onlyGivenNames x; (first | (have _h : Sc := x; clear _h; subst x) | (have _h : TokSt := x; clear _h; subst x) | clear_value x | subst x)) | split

theorem keeps_execRestoreState {K b} (hR : K.restore) (a0 s) (h : Keeps K b s) : KeepsOut K b (execRestoreState a0 s) := by
  unfold execRestoreState
  repeat' with_reducible first | assumption | apply keeps_adminRun | apply keeps_adminRestore | apply KeepsOut.next

theorem keeps_adminSave {K : Breaks} {b : State} (e : Bytes) (a : AdminIn) (s : State) (h : Keeps K b s) : KeepsRes K b (adminSave e a s) := by
  unfold adminSave
  extract_lets f d
  clear_value f d
  refine keeps_onInstance _ _ _ _ ?_ (fun _ => ?_) h
  · exact AllRes.cons (keeps_aBad _) (AllRes.cons (keeps_aFail _ _) (AllRes.cons (keeps_aFail _ _) AllRes.nil))
  · have hn : Keeps K b (drawBytes 12 s).2 := keeps_drawBytes _ _ h
    exact keeps_toBuf _ _ _ _ _ (fun _ ht => KeepsRes.ok ht) hn

theorem keeps_execSaveState {K b} (a0 s) (h : Keeps K b s) : KeepsOut K b (execSaveState a0 s) := by
  unfold execSaveState
  repeat' with_reducible first | assumption | apply keeps_adminRun | apply keeps_adminSave | apply KeepsOut.next

end Sys2Proof.Machine
end

