-- ==== Sys2Proof/Laws/KeepSystem.lean ====
section
/-!
SUPPORT. What a command keeps (Laws/Keeps.lean), for the Almanac, the Ephemeris, tamper, faults, lifecycle, register writes, start-up and power.
-/
namespace Sys2Proof.Machine
set_option Elab.async false -- the package as one text has more theorems than threads

/-! ### Machine/Almanac.lean -/

theorem keeps_onJournal {K b} (s a1) (h : Keeps K b s) (hf : ∀ t, (a1 t).stateful = t.stateful := by with_unfolding_all exact fun _ => rfl) :
    Keeps K b (State.onJournal s a1) := by
  unfold State.onJournal
  exact keeps_noteToken _ (keeps_onToken _ _ (keeps_framed _ h) fun t => by rw [stateful_journalPage]; exact hf t)

theorem keeps_saveOverflow {K b} (s) (h : Keeps K b s) : Keeps K b (saveOverflow s) := by
  unfold saveOverflow
  repeat' with_reducible first
    | assumption | refine keeps_onJournal _ _ ?_ | intro _
    | (extract_lets +onlyGivenNames x; refine keeps_pcut (K := K) (b := b) (v := x) ?_ ?_; unfold x; clear x; rotate_left; (try clear_value x); intro hp)
    | (extract_lets +onlyGivenNames x; refine keeps_cut (K := K) (b := b) (v := x) ?_ ?_; unfold x; clear x; rotate_left; (try clear_value x); intro hx)
    | (extract_lets +onlyGivenNames x; (first | (have _h : Sc := x; clear _h; subst x) | (have _h : TokSt := x; clear _h; subst x) | clear_value x | subst x)) | apply keeps_ite | apply keeps_foldl
    | split

theorem keeps_clearAlmanac {K b} (s) (h : Keeps K b s) : Keeps K b (clearAlmanac s) := by
  unfold clearAlmanac
  split
  · exact h
  · rename_i t ht
    extract_lets u ended
    have hu : u.stateful = t.stateful := stateful_eraseBlocks _ t
    have he : ∀ v, Keeps K b v → Keeps K b (ended v) := fun v hv => keeps_mk (keeps_onJournal _ _ hv)
    clear_value u ended
    have same : ∀ w, s.tok.socket = some w → u.stateful = w.stateful := fun w hw => by rw [ht] at hw; cases hw; exact hu
    split
    · exact he _ (keeps_noteLife _ _ (keeps_onToken_of _ _ h same))
    · exact he _ (keeps_onToken _ _ (keeps_mk (keeps_onToken_of _ _ h same)) (stateful_appendRecord _ _))

theorem keeps_popRecord {K b} (s) (h : Keeps K b s) : Keeps K b (popRecord s) := by
  unfold popRecord
  repeat' with_reducible first
    | assumption | refine keeps_mk ?_ | (extract_lets +onlyGivenNames x; (first | (have _h : Sc := x; clear _h; subst x) | (have _h : TokSt := x; clear _h; subst x) | clear_value x | subst x))
    | apply keeps_ite

theorem keeps_commitOne {K b} (s) (h : Keeps K b s) : Keeps K b (commitOne s) := by
  unfold commitOne
  repeat' with_reducible first | assumption | apply keeps_framed | refine keeps_onToken _ _ ?_ (stateful_appendRecord _ _) | apply keeps_popRecord | apply keeps_overflowUp | split

theorem keeps_commitAll {K : Breaks} {b : State} (n : Nat) (s : State) (h : Keeps K b s) : Keeps K b (commitAll n s) := by
  induction n generalizing s with
  | zero => exact h
  | succ n ih =>
    unfold commitAll
    split
    · exact h
    · exact ih _ (keeps_commitOne _ h)

theorem keeps_closeWindow {K b} (a0 s) (h : Keeps K b s) : Keeps K b (closeWindow a0 s) := by
  unfold closeWindow
  repeat' with_reducible first
    | assumption | refine keeps_mk ?_ | apply keeps_bufferRecord
    | (extract_lets +onlyGivenNames x; refine keeps_cut (K := K) (b := b) (v := x) ?_ ?_; unfold x; clear x; rotate_left; (try clear_value x); intro hx)
    | (extract_lets +onlyGivenNames x; (first | (have _h : Sc := x; clear _h; subst x) | (have _h : TokSt := x; clear _h; subst x) | clear_value x | subst x)) | split

theorem keeps_closeWindows {K b} (s) (h : Keeps K b s) : Keeps K b (closeWindows s) := by
  unfold closeWindows
  repeat' with_reducible first | assumption | apply keeps_closeWindow | apply keeps_foldl | intro _

theorem keeps_windowEnd {K b} (a0 a1 s) (h : Keeps K b s) : Keeps K b (windowEnd a0 a1 s) := by
  unfold windowEnd
  repeat' with_reducible first | assumption | apply keeps_closeWindow | apply keeps_ite | split

theorem keeps_clearDone {K b} (s) (h : Keeps K b s) : Keeps K b (clearDone s) := by
  unfold clearDone
  repeat' with_reducible first | assumption | apply keeps_clearAlmanac | apply keeps_ite

theorem keeps_execAlmanacCleared {K b} (s) (h : Keeps K b s) : KeepsOut K b (execAlmanacCleared s) := by
  unfold execAlmanacCleared
  repeat' with_reducible first | assumption | apply keeps_clearDone | apply KeepsOut.next

theorem keeps_loadAt {K b} (a0 s) (h : Keeps K b s) : Keeps K b (loadAt a0 s) := by
  unfold loadAt
  repeat' with_reducible first | assumption | refine keeps_mk ?_

theorem keeps_cursorWrite {K b} (a0 s) (h : Keeps K b s) : Keeps K b (cursorWrite a0 s) := by
  unfold cursorWrite
  repeat' with_reducible first | assumption | apply keeps_loadAt | apply keeps_ite

theorem keeps_execAlmCursorWrite {K b} (a0 s) (h : Keeps K b s) : KeepsOut K b (execAlmCursorWrite a0 s) := by
  unfold execAlmCursorWrite
  repeat' with_reducible first | assumption | apply keeps_cursorWrite | apply KeepsOut.next

theorem keeps_almStatusRead {K b} (s) (h : Keeps K b s) : Keeps K b (almStatusRead s) := by
  unfold almStatusRead
  repeat' with_reducible first
    | assumption | refine keeps_mk ?_ | apply keeps_answerRead
    | (extract_lets +onlyGivenNames x; refine keeps_cut (K := K) (b := b) (v := x) ?_ ?_; unfold x; clear x; rotate_left; (try clear_value x); intro hx)
    | (extract_lets +onlyGivenNames x; (first | (have _h : Sc := x; clear _h; subst x) | (have _h : TokSt := x; clear _h; subst x) | clear_value x | subst x)) | apply keeps_ite

theorem keeps_hourPassed {K b} (s) (h : Keeps K b s) : Keeps K b (hourPassed s) := by
  unfold hourPassed
  repeat' with_reducible first
    | assumption | refine keeps_mk ?_ | apply keeps_saveOverflow
    | (extract_lets +onlyGivenNames x; (first | (have _h : Sc := x; clear _h; subst x) | (have _h : TokSt := x; clear _h; subst x) | clear_value x | subst x)) | apply keeps_ite

theorem keeps_execHourTick {K b} (s) (h : Keeps K b s) : KeepsOut K b (execHourTick s) := by
  unfold execHourTick
  repeat' with_reducible first | assumption | apply keeps_hourPassed | apply KeepsOut.next

theorem keeps_almClearWrite {K b} (a0 s) (h : Keeps K b s) : Keeps K b (almClearWrite a0 s) := by
  unfold almClearWrite
  repeat' with_reducible first
    | assumption | refine keeps_mk ?_ | refine keeps_onJournal _ _ ?_ | intro _
    | (extract_lets +onlyGivenNames x; refine keeps_pcut (K := K) (b := b) (v := x) ?_ ?_; unfold x; clear x; rotate_left; (try clear_value x); intro hp)
    | (extract_lets +onlyGivenNames x; refine keeps_cut (K := K) (b := b) (v := x) ?_ ?_; unfold x; clear x; rotate_left; (try clear_value x); intro hx)
    | (extract_lets +onlyGivenNames x; (first | (have _h : Sc := x; clear _h; subst x) | (have _h : TokSt := x; clear _h; subst x) | clear_value x | subst x)) | apply keeps_ite | apply keeps_foldl
    | split

theorem keeps_windowLoad {K b} (s) (h : Keeps K b s) : Keeps K b (windowLoad s) := by
  unfold windowLoad
  repeat' with_reducible first
    | assumption | refine keeps_mk ?_ | (extract_lets +onlyGivenNames x; (first | (have _h : Sc := x; clear _h; subst x) | (have _h : TokSt := x; clear _h; subst x) | clear_value x | subst x))
    | apply keeps_ite

theorem keeps_execAlmWindowLoad {K b} (s) (h : Keeps K b s) : KeepsOut K b (execAlmWindowLoad s) := by
  unfold execAlmWindowLoad
  repeat' with_reducible first | assumption | apply keeps_windowLoad | apply KeepsOut.next

theorem keeps_window15Read {K b} (s) (h : Keeps K b s) : Keeps K b (window15Read s) := by
  unfold window15Read
  repeat' with_reducible first
    | assumption | apply keeps_answerRead | apply keeps_loadAt
    | (extract_lets +onlyGivenNames x; refine keeps_cut (K := K) (b := b) (v := x) ?_ ?_; unfold x; clear x; rotate_left; (try clear_value x); intro hx) | apply keeps_ite

theorem keeps_execAlmWindow15Read {K b} (s) (h : Keeps K b s) : KeepsOut K b (execAlmWindow15Read s) := by
  unfold execAlmWindow15Read
  repeat' with_reducible first | assumption | apply keeps_window15Read | apply KeepsOut.next

theorem keeps_commitNext {K b} (s) (h : Keeps K b s) : Keeps K b (commitNext s) := by
  unfold commitNext
  repeat' with_reducible first | assumption | apply keeps_commitOne | apply keeps_ite

theorem keeps_execAlmanacCommit {K b} (s) (h : Keeps K b s) : KeepsOut K b (execAlmanacCommit s) := by
  unfold execAlmanacCommit
  repeat' with_reducible first | assumption | apply keeps_commitNext | apply KeepsOut.next

theorem keeps_execAlmStatusRead {K b} (s) (h : Keeps K b s) : KeepsOut K b (execAlmStatusRead s) := by
  unfold execAlmStatusRead
  repeat' with_reducible first | assumption | apply keeps_almStatusRead | apply KeepsOut.next

theorem keeps_execAlmClear {K b} (a0 s) (h : Keeps K b s) : KeepsOut K b (execAlmClear a0 s) := by
  unfold execAlmClear
  repeat' with_reducible first | assumption | apply keeps_almClearWrite | apply KeepsOut.next

theorem keeps_execCoalesceWindowClose {K b} (a0 a1 s) (h : Keeps K b s) : KeepsOut K b (execCoalesceWindowClose a0 a1 s) := by
  unfold execCoalesceWindowClose
  repeat' with_reducible first | assumption | apply keeps_windowEnd | apply KeepsOut.next

/-! ### Machine/Ephemeris.lean -/

theorem keeps_setTried {K b} (a0 a1 a2 s) (h : Keeps K b s) : Keeps K b (setTried a0 a1 a2 s) := by
  unfold setTried
  repeat' with_reducible first | assumption | refine keeps_mk ?_

theorem keeps_runAum {K : Breaks} {b : State} (hA : K.aum) (i : Nat) (e : EphBody) (n : Nat) (s : State) (h : Keeps K b s) : Keeps K b (runAum i e n s).1 := by
  unfold runAum
  split
  · split
    · exact h
    · split
      · exact h
      · split
        · exact h
        · split
          · exact h
          · exact keeps_applyAum hA _ _ _ h
  · exact h

theorem keeps_runAums {K : Breaks} {b : State} (hA : K.aum) (l : List (Nat × EphBody)) (n : Nat) (s : State) (h : Keeps K b s) : Keeps K b (runAums l n s).1 := by
  induction l generalizing n s with
  | nil => exact h
  | cons p l ih =>
    unfold runAums
    have h1 := keeps_runAum hA p.1 p.2 n s h
    dsimp only
    split
    · exact h1
    · exact ih _ _ h1

theorem keeps_tryCopy {K : Breaks} {b : State} (hA : K.aum) (n : Nat) (s : State) (h : Keeps K b s) : Keeps K b (tryCopy n s) := by
  unfold tryCopy
  extract_lets img
  clear_value img
  split
  · exact keeps_setTried _ _ _ _ h
  · split
    · exact keeps_setTried _ _ _ _ h
    · split
      rename_i t k bad e
      have h1 : Keeps K b t := by
        have := keeps_runAums hA (numbered (imageItems img)) s.boot.aums s h
        rwa [e] at this
      have h2 : Keeps K b { t with boot := { t.boot with aums := k } } := h1.to
      dsimp only
      split
      · exact keeps_setTried _ _ _ _ h2
      · exact keeps_setTried _ _ _ _ h2

theorem keeps_fallback {K b} (hA : K.aum) (s) (h : Keeps K b s) : Keeps K b (fallback s) := by
  unfold fallback
  repeat' with_reducible first
    | assumption | refine keeps_mk ?_ | apply keeps_tryCopy
    | (extract_lets +onlyGivenNames x; (first | (have _h : Sc := x; clear _h; subst x) | (have _h : TokSt := x; clear _h; subst x) | clear_value x | subst x)) | apply keeps_ite

theorem keeps_chooseImage {K b} (hA : K.aum) (s) (h : Keeps K b s) : Keeps K b (chooseImage s) := by
  unfold chooseImage
  repeat' with_reducible first
    | assumption | apply keeps_setTried | apply keeps_tryCopy | apply keeps_fallback
    | (extract_lets +onlyGivenNames x; refine keeps_cut (K := K) (b := b) (v := x) ?_ ?_; unfold x; clear x; rotate_left; (try clear_value x); intro hx) | apply keeps_ite

theorem keeps_tryKernels {K b} (s) (h : Keeps K b s) : Keeps K b (tryKernels s) := by
  unfold tryKernels
  repeat' with_reducible first
    | assumption | refine keeps_mk ?_ | apply keeps_setTried
    | (extract_lets +onlyGivenNames x; (first | (have _h : Sc := x; clear _h; subst x) | (have _h : TokSt := x; clear _h; subst x) | clear_value x | subst x)) | apply keeps_ite | split

theorem keeps_chooseKernels {K b} (hA : K.aum) (s) (h : Keeps K b s) : Keeps K b (chooseKernels s) := by
  unfold chooseKernels
  repeat' with_reducible first
    | assumption | apply keeps_tryKernels | apply keeps_fallback
    | (extract_lets +onlyGivenNames x; refine keeps_cut (K := K) (b := b) (v := x) ?_ ?_; unfold x; clear x; rotate_left; (try clear_value x); intro hx) | apply keeps_ite

theorem keeps_admitImage {K b} (s) (h : Keeps K b s) : Keeps K b (admitImage s) := by
  unfold admitImage
  repeat' with_reducible first
    | assumption | refine keeps_mk ?_ | refine keeps_onJournal _ _ ?_ | apply keeps_setTried | intro _
    | (extract_lets +onlyGivenNames x; refine keeps_pcut (K := K) (b := b) (v := x) ?_ ?_; unfold x; clear x; rotate_left; (try clear_value x); intro hp)
    | (extract_lets +onlyGivenNames x; refine keeps_cut (K := K) (b := b) (v := x) ?_ ?_; unfold x; clear x; rotate_left; (try clear_value x); intro hx)
    | (extract_lets +onlyGivenNames x; (first | (have _h : Sc := x; clear _h; subst x) | (have _h : TokSt := x; clear _h; subst x) | clear_value x | subst x)) | apply keeps_ite | apply keeps_foldl
    | split

/-! ### Machine/Tamper.lean -/

theorem keeps_noteAlarm {K b} (a0 a1 a2 a3 s) (h : Keeps K b s) : Keeps K b (noteAlarm a0 a1 a2 a3 s) := by
  unfold noteAlarm
  repeat' with_reducible first
    | assumption | refine keeps_mk ?_ | apply keeps_raiseEvent | apply keeps_trace | apply keeps_ringEvent
    | (extract_lets +onlyGivenNames x; refine keeps_cut (K := K) (b := b) (v := x) ?_ ?_; unfold x; clear x; rotate_left; (try clear_value x); intro hx) | apply keeps_ite

theorem keeps_auxAlarm {K b} (a0 s) (h : Keeps K b s) : Keeps K b (auxAlarm a0 s) := by
  unfold auxAlarm
  repeat' with_reducible first
    | assumption | refine keeps_mk ?_ | (extract_lets +onlyGivenNames x; (first | (have _h : Sc := x; clear _h; subst x) | (have _h : TokSt := x; clear _h; subst x) | clear_value x | subst x))
    | apply keeps_ite

theorem keeps_quarantine {K b} (a0 s) (h : Keeps K b s) : Keeps K b (quarantine a0 s) := by
  unfold quarantine
  repeat' with_reducible first
    | assumption | refine keeps_mk ?_ | (extract_lets +onlyGivenNames x; (first | (have _h : Sc := x; clear _h; subst x) | (have _h : TokSt := x; clear _h; subst x) | clear_value x | subst x))
    | apply keeps_ite

theorem keeps_abortUnits {K b} (a0 a1 s) (h : Keeps K b s) : Keeps K b (abortUnits a0 a1 s) := by
  unfold abortUnits
  repeat' with_reducible first
    | assumption | refine keeps_mk ?_ | apply keeps_quarantine | apply keeps_abortJob | apply keeps_rerunAdmission | apply hg | intro _
    | (extract_lets +onlyGivenNames x; refine keeps_pcut (K := K) (b := b) (v := x) ?_ ?_; unfold x; clear x; rotate_left; (try clear_value x); intro hp)
    | (extract_lets +onlyGivenNames x; refine keeps_fcut (K := K) (b := b) (v := x) ?_ ?_; unfold x; clear x; rotate_left; (try clear_value x); intro hg)
    | (extract_lets +onlyGivenNames x; refine keeps_fcut2 (K := K) (b := b) (v := x) ?_ ?_; unfold x; clear x; rotate_left; (try clear_value x); intro hg)
    | (extract_lets +onlyGivenNames x; refine keeps_cut (K := K) (b := b) (v := x) ?_ ?_; unfold x; clear x; rotate_left; (try clear_value x); intro hx)
    | (extract_lets +onlyGivenNames x; (first | (have _h : Sc := x; clear _h; subst x) | (have _h : TokSt := x; clear _h; subst x) | clear_value x | subst x)) | apply keeps_ite | apply keeps_foldl
    | split

theorem keeps_abortAlarm {K b} (a0 a1 s) (h : Keeps K b s) : Keeps K b (abortAlarm a0 a1 s) := by
  unfold abortAlarm
  exact keeps_ite h (keeps_mk (keeps_abortUnits _ _ _ h))

theorem keeps_dropDdpKeys {K b} (s) (h : Keeps K b s) : Keeps K b (dropDdpKeys s) := by
  unfold dropDdpKeys
  repeat' with_reducible first | assumption | refine keeps_mk ?_

theorem keeps_eraseKeys {K b} (s) (h : Keeps K b s) : Keeps K b (eraseKeys s) := by
  unfold eraseKeys
  repeat' with_reducible first | assumption | refine keeps_mk ?_ | apply keeps_dropAnchoredKeys | apply keeps_dropDdpKeys

theorem keeps_governAborts {K b} (s) (h : Keeps K b s) : Keeps K b (governAborts s) := by
  unfold governAborts
  repeat' with_reducible first
    | assumption | refine keeps_mk ?_ | apply keeps_quarantine | apply hg | intro _
    | (extract_lets +onlyGivenNames x; refine keeps_pcut (K := K) (b := b) (v := x) ?_ ?_; unfold x; clear x; rotate_left; (try clear_value x); intro hp)
    | (extract_lets +onlyGivenNames x; refine keeps_fcut (K := K) (b := b) (v := x) ?_ ?_; unfold x; clear x; rotate_left; (try clear_value x); intro hg)
    | (extract_lets +onlyGivenNames x; refine keeps_fcut2 (K := K) (b := b) (v := x) ?_ ?_; unfold x; clear x; rotate_left; (try clear_value x); intro hg)
    | (extract_lets +onlyGivenNames x; refine keeps_cut (K := K) (b := b) (v := x) ?_ ?_; unfold x; clear x; rotate_left; (try clear_value x); intro hx)
    | (extract_lets +onlyGivenNames x; (first | (have _h : Sc := x; clear _h; subst x) | (have _h : TokSt := x; clear _h; subst x) | clear_value x | subst x)) | apply keeps_ite | apply keeps_foldl
    | split

theorem keeps_eraseAlarm {K b} (s) (h : Keeps K b s) : Keeps K b (eraseAlarm s) := by
  unfold eraseAlarm
  exact keeps_mk (keeps_setActive _ _ (keeps_eraseCert _ (keeps_eraseKeys _ (keeps_abortJobs _ _ _ (keeps_quarantine _ _ (keeps_governAborts _ h))))))

theorem keeps_runAlarm {K b} (a0 a1 a2 s) (h : Keeps K b s) : Keeps K b (runAlarm a0 a1 a2 s) := by
  unfold runAlarm
  repeat' with_reducible first
    | assumption | refine keeps_mk ?_ | apply keeps_abortAlarm | apply keeps_eraseAlarm
    | (extract_lets +onlyGivenNames x; (first | (have _h : Sc := x; clear _h; subst x) | (have _h : TokSt := x; clear _h; subst x) | clear_value x | subst x)) | apply keeps_ite

theorem keeps_bootKeys {K b} (s) (h : Keeps K b s) : Keeps K b (bootKeys s) := by
  unfold bootKeys
  repeat' with_reducible first | assumption | refine keeps_mk ?_ | apply keeps_drawBytes

theorem keeps_startAlarm {K b} (a0 s) (h : Keeps K b s) : Keeps K b (startAlarm a0 s) := by
  unfold startAlarm
  repeat' with_reducible first
    | assumption | refine keeps_mk ?_ | apply keeps_setActive | apply keeps_eraseCert | apply keeps_quarantine | apply keeps_bootKeys
    | (extract_lets +onlyGivenNames x; refine keeps_cut (K := K) (b := b) (v := x) ?_ ?_; unfold x; clear x; rotate_left; (try clear_value x); intro hx)
    | (extract_lets +onlyGivenNames x; (first | (have _h : Sc := x; clear _h; subst x) | (have _h : TokSt := x; clear _h; subst x) | clear_value x | subst x)) | apply keeps_ite

theorem keeps_tamperAlarm {K b} (a0 a1 a2 s) (h : Keeps K b s) : Keeps K b (tamperAlarm a0 a1 a2 s) := by
  unfold tamperAlarm
  repeat' with_reducible first
    | assumption | apply keeps_noteAlarm | apply keeps_auxAlarm | apply keeps_runAlarm | apply keeps_startAlarm
    | (extract_lets +onlyGivenNames x; refine keeps_cut (K := K) (b := b) (v := x) ?_ ?_; unfold x; clear x; rotate_left; (try clear_value x); intro hx)
    | (extract_lets +onlyGivenNames x; (first | (have _h : Sc := x; clear _h; subst x) | (have _h : TokSt := x; clear _h; subst x) | clear_value x | subst x)) | apply keeps_ite

theorem keeps_holdEnd {K b} (a0 a1 s) (h : Keeps K b s) : Keeps K b (holdEnd a0 a1 s) := by
  unfold holdEnd
  exact keeps_ite (keeps_mk (keeps_mk h)) h

theorem keeps_execTamperHoldEnd {K b} (a0 a1 s) (h : Keeps K b s) : KeepsOut K b (execTamperHoldEnd a0 a1 s) := by
  unfold execTamperHoldEnd
  repeat' with_reducible first | assumption | apply keeps_holdEnd | apply KeepsOut.next

theorem keeps_condClear {K b} (a0 a1 s) (h : Keeps K b s) : Keeps K b (condClear a0 a1 s) := by
  unfold condClear
  repeat' with_reducible first | assumption | refine keeps_mk ?_

theorem keeps_execTamperConditionClear {K b} (a0 a1 s) (h : Keeps K b s) : KeepsOut K b (execTamperConditionClear a0 a1 s) := by
  unfold execTamperConditionClear
  repeat' with_reducible first | assumption | apply keeps_condClear | apply KeepsOut.next

theorem keeps_ackLatch {K b} (a0 s) (h : Keeps K b s) : Keeps K b (ackLatch a0 s) := by
  unfold ackLatch
  repeat' with_reducible first
    | assumption | refine keeps_mk ?_ | (extract_lets +onlyGivenNames x; (first | (have _h : Sc := x; clear _h; subst x) | (have _h : TokSt := x; clear _h; subst x) | clear_value x | subst x))
    | apply keeps_ite

theorem keeps_ackSensors {K b} (a0 s) (h : Keeps K b s) : Keeps K b (ackSensors a0 s) := by
  unfold ackSensors
  repeat' with_reducible first | assumption | refine keeps_mk ?_ | apply keeps_ite

theorem keeps_destroySeal {K b} (s) (h : Keeps K b s) : Keeps K b (destroySeal s) := by
  unfold destroySeal
  exact keeps_ite h (h.to (f := .same rfl rfl rfl rfl rfl rfl) (x := all_map fun _ _ _ => rfl) (g := .map fun _ => ⟨rfl, Nat.le_refl _⟩))

theorem keeps_zeroArea {K b} (s) (h : Keeps K b s) : Keeps K b (zeroArea s) := by
  unfold zeroArea
  exact keeps_mk (keeps_onToken_keys s _ (fun _ k => k) h (fun _ _ hl => nomatch hl))

theorem keeps_zeroizeEnd {K b} (s) (h : Keeps K b s) : Keeps K b (zeroizeEnd s) := by
  unfold zeroizeEnd
  repeat' with_reducible first
    | assumption | apply keeps_zeroArea | refine keeps_mk ?_ | refine keeps_onToken _ _ ?_ | apply keeps_endSession
    | (extract_lets +onlyGivenNames x; refine keeps_cut (K := K) (b := b) (v := x) ?_ ?_; unfold x; clear x; rotate_left; (try clear_value x); intro hx)
    | (extract_lets +onlyGivenNames x; (first | (have _h : Sc := x; clear _h; subst x) | (have _h : TokSt := x; clear _h; subst x) | clear_value x | subst x)) | apply keeps_ite

theorem keeps_execSealingKeyDestroy {K b} (s) (h : Keeps K b s) : KeepsOut K b (execSealingKeyDestroy s) := by
  unfold execSealingKeyDestroy
  repeat' with_reducible first | assumption | apply keeps_destroySeal | apply KeepsOut.next

theorem keeps_execTamperAckSensor {K b} (a0 s) (h : Keeps K b s) : KeepsOut K b (execTamperAckSensor a0 s) := by
  unfold execTamperAckSensor
  repeat' with_reducible first | assumption | apply keeps_ackSensors | apply KeepsOut.next

theorem keeps_execTamperAlarm {K b} (a0 a1 a2 s) (h : Keeps K b s) : KeepsOut K b (execTamperAlarm a0 a1 a2 s) := by
  unfold execTamperAlarm
  repeat' with_reducible first | assumption | apply keeps_tamperAlarm | apply KeepsOut.next

theorem keeps_execTamperAckSleepLatch {K b} (a0 s) (h : Keeps K b s) : KeepsOut K b (execTamperAckSleepLatch a0 s) := by
  unfold execTamperAckSleepLatch
  repeat' with_reducible first | assumption | apply keeps_ackLatch | apply KeepsOut.next

theorem keeps_execDestroyZeroizeEnd {K b} (s) (h : Keeps K b s) : KeepsOut K b (execDestroyZeroizeEnd s) := by
  unfold execDestroyZeroizeEnd
  repeat' with_reducible first | assumption | apply keeps_zeroizeEnd | apply KeepsOut.next

/-! ### Machine/FaultRows.lean -/

theorem keeps_stopDrbgs {K b} (s) (h : Keeps K b s) : Keeps K b (stopDrbgs s) := by
  unfold stopDrbgs
  repeat' with_reducible first | assumption | refine keeps_mk ?_ | apply keeps_abortJobs

theorem keeps_sourceFails {K b} (a0 a1 s) (h : Keeps K b s) : Keeps K b (sourceFails a0 a1 s) := by
  unfold sourceFails
  repeat' with_reducible first
    | assumption | refine keeps_mk ?_ | apply keeps_faultEvent | apply keeps_stopDrbgs
    | (extract_lets +onlyGivenNames x; refine keeps_cut (K := K) (b := b) (v := x) ?_ ?_; unfold x; clear x; rotate_left; (try clear_value x); intro hx)
    | (extract_lets +onlyGivenNames x; (first | (have _h : Sc := x; clear _h; subst x) | (have _h : TokSt := x; clear _h; subst x) | clear_value x | subst x)) | apply keeps_ite

theorem keeps_execEntropy {K b} (a0 a1 s) (h : Keeps K b s) : KeepsOut K b (execEntropy a0 a1 s) := by
  unfold execEntropy
  repeat' with_reducible first | assumption | apply keeps_sourceFails | apply KeepsOut.next

theorem keeps_faultAck {K b} (a0 s) (h : Keeps K b s) : Keeps K b (faultAck a0 s) := by
  unfold faultAck
  repeat' with_reducible first
    | assumption | refine keeps_mk ?_ | (extract_lets +onlyGivenNames x; (first | (have _h : Sc := x; clear _h; subst x) | (have _h : TokSt := x; clear _h; subst x) | clear_value x | subst x))
    | apply keeps_ite

theorem keeps_execMaskReseed {K b} (a0 s) (h : Keeps K b s) : KeepsOut K b (execMaskReseed a0 s) := by
  unfold execMaskReseed
  repeat' with_reducible first | assumption | apply keeps_reseedMask | apply keeps_maskReseed | apply KeepsOut.next

theorem keeps_lockstepFault {K b} (a0 s) (h : Keeps K b s) : Keeps K b (lockstepFault a0 s) := by
  unfold lockstepFault
  repeat' with_reducible first
    | assumption | apply keeps_noteMismatch | apply keeps_faultEvent | apply keeps_quarantine
    | (extract_lets +onlyGivenNames x; refine keeps_cut (K := K) (b := b) (v := x) ?_ ?_; unfold x; clear x; rotate_left; (try clear_value x); intro hx) | apply keeps_ite

theorem keeps_execLockstep {K b} (a0 s) (h : Keeps K b s) : KeepsOut K b (execLockstep a0 s) := by
  unfold execLockstep
  repeat' with_reducible first | assumption | apply keeps_lockstepFault | apply KeepsOut.next

theorem keeps_unitHang {K b} (a0 s) (h : Keeps K b s) : Keeps K b (unitHang a0 s) := by
  unfold unitHang
  repeat' with_reducible first
    | assumption | apply keeps_fenceUnit | apply keeps_raiseEvent
    | (extract_lets +onlyGivenNames x; (first | (have _h : Sc := x; clear _h; subst x) | (have _h : TokSt := x; clear _h; subst x) | clear_value x | subst x)) | apply keeps_ite | split

theorem keeps_execHang {K b} (a0 s) (h : Keeps K b s) : KeepsOut K b (execHang a0 s) := by
  unfold execHang
  repeat' with_reducible first | assumption | apply keeps_unitHang | apply KeepsOut.next

theorem keeps_execFaultAck {K b} (a0 s) (h : Keeps K b s) : KeepsOut K b (execFaultAck a0 s) := by
  unfold execFaultAck
  repeat' with_reducible first | assumption | apply keeps_faultAck | apply KeepsOut.next

theorem keeps_channelFails {K b} (a0 s) (h : Keeps K b s) : Keeps K b (channelFails a0 s) := by
  unfold channelFails
  repeat' with_reducible first | assumption | apply keeps_fenceChannel | apply keeps_ite

theorem keeps_execDramChannelLinkFailure {K b} (a0 s) (h : Keeps K b s) : KeepsOut K b (execDramChannelLinkFailure a0 s) := by
  unfold execDramChannelLinkFailure
  repeat' with_reducible first | assumption | apply keeps_channelFails | apply KeepsOut.next

/-! ### Machine/Lifecycle.lean -/

theorem keeps_blowCustody {K b} (s) (h : Keeps K b s) : Keeps K b (blowCustody s) := by
  unfold blowCustody
  repeat' with_reducible first | assumption | refine keeps_mk ?_

theorem keeps_dieEffects {K : Breaks} {b : State} (t : Nat) (s : State) (h : Keeps K b s) : Keeps K b (dieEffects t s) := by
  unfold dieEffects
  split
  · exact keeps_eraseCert _ (keeps_setActive _ _ (h.to (f := ⟨fun _ h => h, fun _ h => h, fun _ => rfl, id, id, Nat.le_refl _⟩)))
  · split
    · have h1 := keeps_blowCustody _ h
      refine keeps_eraseCert _ (h1.to (f := ⟨fun _ h => h, fun _ h => h, id, fun k => ?_, fun _ => rfl, Nat.le_refl _⟩))
      show ((blowCustody s).sc.drsBlown || t == 0x1F) = true
      rw [k]
      rfl
    · exact h

theorem keeps_tokenEffects {K b} (a0 s) (h : Keeps K b s) : Keeps K b (tokenEffects a0 s) := by
  unfold tokenEffects
  repeat' with_reducible first
    | assumption | apply keeps_zeroArea | refine keeps_onJournal _ _ ?_ | refine keeps_onToken _ _ ?_ | apply keeps_endSession | apply keeps_saveOverflow | intro _
    | (extract_lets +onlyGivenNames x; refine keeps_pcut (K := K) (b := b) (v := x) ?_ ?_; unfold x; clear x; rotate_left; (try clear_value x); intro hp)
    | (extract_lets +onlyGivenNames x; refine keeps_cut (K := K) (b := b) (v := x) ?_ ?_; unfold x; clear x; rotate_left; (try clear_value x); intro hx)
    | (extract_lets +onlyGivenNames x; (first | (have _h : Sc := x; clear _h; subst x) | (have _h : TokSt := x; clear _h; subst x) | clear_value x | subst x)) | apply keeps_ite | apply keeps_foldl
    | split

theorem keeps_burnEnd {K : Breaks} {b : State} (k : Nat) (s : State) (h : Keeps K b s) : Keeps K b (burnEnd k s) := by
  refine h.to (f := ⟨fun _ h => h, fun n hn => ?_, id, id, id, Nat.le_refl _⟩)
  show n ∈ (if s.sc.endFuses.contains k then s.sc.endFuses else s.sc.endFuses ++ [k])
  split
  · exact hn
  · exact List.mem_append_left _ hn

theorem keeps_closeTransition {K b} (a0 s) (h : Keeps K b s) : Keeps K b (closeTransition a0 s) := by
  unfold closeTransition
  repeat' with_reducible first | assumption | apply keeps_raiseEvent | apply keeps_burnEnd

theorem keeps_endService {K b} (s) (h : Keeps K b s) : Keeps K b (endService s) := by
  unfold endService
  exact keeps_eraseKeys _ (keeps_mk (keeps_abortJobs _ _ _ h))

theorem keeps_runWrite {K b} (s) (h : Keeps K b s) : Keeps K b (runWrite s) := by
  unfold runWrite
  repeat' with_reducible first | assumption | apply keeps_stepRun | apply keeps_ite

theorem keeps_execDbgStepRun {K b} (s) (h : Keeps K b s) : KeepsOut K b (execDbgStepRun s) := by
  unfold execDbgStepRun
  repeat' with_reducible first | assumption | apply keeps_runWrite | apply KeepsOut.next

theorem keeps_stepWrite {K b} (s) (h : Keeps K b s) : Keeps K b (stepWrite s) := by
  unfold stepWrite
  repeat' with_reducible first
    | assumption | refine keeps_mk ?_ | (extract_lets +onlyGivenNames x; (first | (have _h : Sc := x; clear _h; subst x) | (have _h : TokSt := x; clear _h; subst x) | clear_value x | subst x))
    | apply keeps_ite

theorem keeps_execDbgStep {K b} (s) (h : Keeps K b s) : KeepsOut K b (execDbgStep s) := by
  unfold execDbgStep
  repeat' with_reducible first | assumption | apply keeps_stepWrite | apply KeepsOut.next

theorem keeps_armWrite {K b} (a0 s) (h : Keeps K b s) : Keeps K b (armWrite a0 s) := by
  unfold armWrite
  repeat' with_reducible first
    | assumption | refine keeps_mk ?_ | (extract_lets +onlyGivenNames x; (first | (have _h : Sc := x; clear _h; subst x) | (have _h : TokSt := x; clear _h; subst x) | clear_value x | subst x))
    | apply keeps_ite

theorem keeps_execDbgStepArm {K b} (a0 s) (h : Keeps K b s) : KeepsOut K b (execDbgStepArm a0 s) := by
  unfold execDbgStepArm
  repeat' with_reducible first | assumption | apply keeps_armWrite | apply KeepsOut.next

theorem keeps_lcsFinish {K b} (s) (h : Keeps K b s) : Keeps K b (lcsFinish s) := by
  unfold lcsFinish
  repeat' with_reducible first
    | assumption | refine keeps_mk ?_ | apply keeps_closeTransition | apply keeps_endSession
    | (extract_lets +onlyGivenNames x; refine keeps_cut (K := K) (b := b) (v := x) ?_ ?_; unfold x; clear x; rotate_left; (try clear_value x); intro hx)
    | (extract_lets +onlyGivenNames x; (first | (have _h : Sc := x; clear _h; subst x) | (have _h : TokSt := x; clear _h; subst x) | clear_value x | subst x)) | apply keeps_ite

theorem keeps_burnBegin {K : Breaks} {b : State} (k : Nat) (s : State) (h : Keeps K b s) : Keeps K b (burnBegin k s) := by
  refine h.to (f := ⟨fun n hn => ?_, fun _ h => h, id, id, id, Nat.le_refl _⟩)
  show n ∈ (if s.sc.lcFuses.contains k then s.sc.lcFuses else s.sc.lcFuses ++ [k])
  split
  · exact hn
  · exact List.mem_append_left _ hn

theorem keeps_lcsBegin {K b} (a0 s) (h : Keeps K b s) : Keeps K b (lcsBegin a0 s) := by
  unfold lcsBegin
  repeat' with_reducible first
    | assumption | refine keeps_mk ?_ | refine keeps_onJournal _ _ ?_ | apply keeps_burnBegin | apply keeps_clampRights | apply keeps_dieEffects
    | apply keeps_endService | apply keeps_tokenEffects | intro _
    | (extract_lets +onlyGivenNames x; refine keeps_pcut (K := K) (b := b) (v := x) ?_ ?_; unfold x; clear x; rotate_left; (try clear_value x); intro hp)
    | (extract_lets +onlyGivenNames x; refine keeps_cut (K := K) (b := b) (v := x) ?_ ?_; unfold x; clear x; rotate_left; (try clear_value x); intro hx)
    | (extract_lets +onlyGivenNames x; (first | (have _h : Sc := x; clear _h; subst x) | (have _h : TokSt := x; clear _h; subst x) | clear_value x | subst x)) | apply keeps_ite | apply keeps_foldl
    | split

theorem keeps_lcsRefused {K b} (a0 a1 s) (h : Keeps K b s) : Keeps K b (lcsRefused a0 a1 s) := by
  unfold lcsRefused
  repeat' with_reducible first | assumption | refine keeps_mk ?_ | apply keeps_raiseEvent

theorem keeps_lcsWrite {K b} (a0 s) (h : Keeps K b s) : Keeps K b (lcsWrite a0 s) := by
  unfold lcsWrite
  repeat' with_reducible first
    | assumption | apply keeps_lcsBegin | apply keeps_lcsRefused
    | (extract_lets +onlyGivenNames x; (first | (have _h : Sc := x; clear _h; subst x) | (have _h : TokSt := x; clear _h; subst x) | clear_value x | subst x)) | apply keeps_ite

theorem keeps_rightsWrite {K b} (a0 s) (h : Keeps K b s) : Keeps K b (rightsWrite a0 s) := by
  unfold rightsWrite
  repeat' with_reducible first | assumption | apply keeps_setActive | apply keeps_ite

theorem keeps_execLcsAdvanceScrapped {K b} (a0 s) (h : Keeps K b s) : KeepsOut K b (execLcsAdvanceScrapped a0 s) := by
  unfold execLcsAdvanceScrapped
  repeat' with_reducible first | assumption | apply keeps_lcsWrite | apply KeepsOut.next

theorem keeps_execLcsAdvanceFielded {K b} (a0 s) (h : Keeps K b s) : KeepsOut K b (execLcsAdvanceFielded a0 s) := by
  unfold execLcsAdvanceFielded
  repeat' with_reducible first | assumption | apply keeps_lcsWrite | apply KeepsOut.next

theorem keeps_execLcsAdvanceIntegrator {K b} (a0 s) (h : Keeps K b s) : KeepsOut K b (execLcsAdvanceIntegrator a0 s) := by
  unfold execLcsAdvanceIntegrator
  repeat' with_reducible first | assumption | apply keeps_lcsWrite | apply KeepsOut.next

theorem keeps_execLcsAdvanceReturned {K b} (a0 s) (h : Keeps K b s) : KeepsOut K b (execLcsAdvanceReturned a0 s) := by
  unfold execLcsAdvanceReturned
  repeat' with_reducible first | assumption | apply keeps_lcsWrite | apply KeepsOut.next

theorem keeps_execDbgRightsWrite {K b} (a0 s) (h : Keeps K b s) : KeepsOut K b (execDbgRightsWrite a0 s) := by
  unfold execDbgRightsWrite
  repeat' with_reducible first | assumption | apply keeps_rightsWrite | apply KeepsOut.next

theorem keeps_frameSent {K b} (s) (h : Keeps K b s) : Keeps K b (frameSent s) := by
  unfold frameSent
  dsimp only
  split
  · exact keeps_ite (keeps_emit _ _ (h.to)) (h.to)
  · exact h.to

theorem keeps_execTraceFrameSent {K b} (s) (h : Keeps K b s) : KeepsOut K b (execTraceFrameSent s) := by
  unfold execTraceFrameSent
  repeat' with_reducible first | assumption | apply keeps_frameSent | apply KeepsOut.next

theorem keeps_execLcsTransition {K b} (s) (h : Keeps K b s) : KeepsOut K b (execLcsTransition s) := by
  unfold execLcsTransition
  repeat' with_reducible first | assumption | apply keeps_lcsFinish | apply KeepsOut.next

/-! ### Machine/Registers.lean -/

theorem keeps_ddpCtrlWrite {K b} (a0 a1 s) (h : Keeps K b s) : Keeps K b (ddpCtrlWrite a0 a1 s) := by
  unfold ddpCtrlWrite
  repeat' with_reducible first
    | assumption | apply keeps_onDdp | apply keeps_ddpStart | apply keeps_ddpRelease
    | (extract_lets +onlyGivenNames x; refine keeps_cut (K := K) (b := b) (v := x) ?_ ?_; unfold x; clear x; rotate_left; (try clear_value x); intro hx) | apply keeps_ite

theorem keeps_pfCfgWrite {K b} (a0 a1 a2 s) (h : Keeps K b s) : Keeps K b (pfCfgWrite a0 a1 a2 s) := by
  unfold pfCfgWrite
  repeat' with_reducible first
    | assumption | refine keeps_mk ?_ | apply keeps_ptmOff | apply keeps_vfsOn | apply keeps_vfsGone
    | (extract_lets +onlyGivenNames x; (first | (have _h : Sc := x; clear _h; subst x) | (have _h : TokSt := x; clear _h; subst x) | clear_value x | subst x)) | apply keeps_ite | split

theorem keeps_fnCfgWrite {K b} (a0 a1 a2 s) (h : Keeps K b s) : Keeps K b (fnCfgWrite a0 a1 a2 s) := by
  unfold fnCfgWrite
  repeat' with_reducible first
    | assumption | apply keeps_onFn | apply keeps_busMasterOff | apply keeps_sendPending | apply keeps_unmask
    | (extract_lets +onlyGivenNames x; (first | (have _h : Sc := x; clear _h; subst x) | (have _h : TokSt := x; clear _h; subst x) | clear_value x | subst x)) | apply keeps_ite | split

theorem keeps_doeWord {K : Breaks} {b : State} (v : Nat) (s : State) (h : Keeps K b s) : Keeps K b (doeWord v s) := by
  unfold doeWord
  exact keeps_ite h (keeps_ite (keeps_mk h) (keeps_mk h))

theorem keeps_ideCfgWrite {K : Breaks} {b : State} (fld : CfgField) (v : Nat) (s : State) (h : Keeps K b s) : Keeps K b (ideCfgWrite fld v s) := by
  unfold ideCfgWrite
  extract_lets on d at_
  have ha : ∀ n g, Keeps K b (at_ n g) := fun _ _ => h.to
  split
  · exact ha _ _
  · exact ha _ _
  · exact ha _ _
  · exact h

theorem keeps_cfgWrite {K b} (a0 a1 a2 s) (h : Keeps K b s) : Keeps K b (cfgWrite a0 a1 a2 s) := by
  unfold cfgWrite
  repeat' with_reducible first
    | assumption | apply keeps_onFn | apply keeps_fnCfgWrite | apply keeps_doeWord | apply keeps_ideCfgWrite | apply keeps_pfCfgWrite | intro _
    | (extract_lets +onlyGivenNames x; refine keeps_pcut (K := K) (b := b) (v := x) ?_ ?_; unfold x; clear x; rotate_left; (try clear_value x); intro hp)
    | (extract_lets +onlyGivenNames x; refine keeps_cut (K := K) (b := b) (v := x) ?_ ?_; unfold x; clear x; rotate_left; (try clear_value x); intro hx)
    | (extract_lets +onlyGivenNames x; (first | (have _h : Sc := x; clear _h; subst x) | (have _h : TokSt := x; clear _h; subst x) | clear_value x | subst x)) | apply keeps_ite | apply keeps_foldl
    | split

theorem keeps_aqBaseWrite {K b} (a0 a1 a2 s) (h : Keeps K b s) : Keeps K b (aqBaseWrite a0 a1 a2 s) := by
  unfold aqBaseWrite
  repeat' with_reducible first
    | assumption | apply keeps_onFn
    | (extract_lets +onlyGivenNames x; (first | (have _h : Sc := x; clear _h; subst x) | (have _h : TokSt := x; clear _h; subst x) | clear_value x | subst x)) | apply keeps_ite

theorem keeps_mbxCtrlWrite {K b} (a0 a1 s) (h : Keeps K b s) : Keeps K b (mbxCtrlWrite a0 a1 s) := by
  unfold mbxCtrlWrite
  repeat' with_reducible first
    | assumption | apply keeps_onMbx | apply keeps_mbxOutSend | apply keeps_mbxInAck
    | (extract_lets +onlyGivenNames x; refine keeps_cut (K := K) (b := b) (v := x) ?_ ?_; unfold x; clear x; rotate_left; (try clear_value x); intro hx) | apply keeps_ite

theorem keeps_pageWrite {K b} (a0 a1 a2 s) (h : Keeps K b s) : Keeps K b (pageWrite a0 a1 a2 s) := by
  unfold pageWrite
  repeat' with_reducible first
    | assumption | apply keeps_aqBaseWrite | apply keeps_aqSizeWrite | apply keeps_doorbellWrite | apply keeps_evrHeadWrite | apply keeps_mailboxWrite
    | apply keeps_mbxCtrlWrite | apply keeps_ddpCtrlWrite | apply keeps_onDdp | apply keeps_ddpLengthWrite
    | (extract_lets +onlyGivenNames x; (first | (have _h : Sc := x; clear _h; subst x) | (have _h : TokSt := x; clear _h; subst x) | clear_value x | subst x)) | apply keeps_ite

theorem keeps_stepCtrlWrite {K b} (a0 s) (h : Keeps K b s) : Keeps K b (stepCtrlWrite a0 s) := by
  unfold stepCtrlWrite
  repeat' with_reducible first
    | assumption | apply keeps_armWrite | apply keeps_stepWrite | apply keeps_runWrite
    | (extract_lets +onlyGivenNames x; refine keeps_cut (K := K) (b := b) (v := x) ?_ ?_; unfold x; clear x; rotate_left; (try clear_value x); intro hx) | apply keeps_ite

theorem keeps_mgrCtrlWrite {K b} (a0 s) (h : Keeps K b s) : Keeps K b (mgrCtrlWrite a0 s) := by
  unfold mgrCtrlWrite
  repeat' with_reducible first
    | assumption | refine keeps_mk ?_ | apply keeps_onMbx | apply keeps_mbxInSend | apply keeps_mbxOutAck
    | (extract_lets +onlyGivenNames x; refine keeps_cut (K := K) (b := b) (v := x) ?_ ?_; unfold x; clear x; rotate_left; (try clear_value x); intro hx) | apply keeps_ite
    | split

theorem keeps_blockWrite {K b} (a0 a1 s) (h : Keeps K b s) : Keeps K b (blockWrite a0 a1 s) := by
  unfold blockWrite
  repeat' with_reducible first
    | assumption | refine keeps_mk ?_ | apply keeps_lcsWrite | apply keeps_rightsWrite | apply keeps_stepCtrlWrite | apply keeps_ackLatch | apply keeps_ackSensors
    | apply keeps_faultAck | apply keeps_cursorWrite | apply keeps_almClearWrite | apply keeps_mgrCtrlWrite | apply keeps_mailboxWrite
    | (extract_lets +onlyGivenNames x; (first | (have _h : Sc := x; clear _h; subst x) | (have _h : TokSt := x; clear _h; subst x) | clear_value x | subst x)) | apply keeps_ite

theorem keeps_bar0Write {K b} (a0 s) (h : Keeps K b s) : Keeps K b (bar0Write a0 s) := by
  unfold bar0Write
  repeat' with_reducible first
    | assumption | apply keeps_ddpDataWrite | apply keeps_ddpLastWordWrite | apply keeps_pageWrite | apply keeps_blockWrite | apply keeps_ite | split

theorem keeps_tableWrite {K b} (a0 a1 a2 s) (h : Keeps K b s) : Keeps K b (tableWrite a0 a1 a2 s) := by
  unfold tableWrite
  repeat' with_reducible first
    | assumption | apply keeps_onFn | apply keeps_fnCfgWrite | intro _
    | (extract_lets +onlyGivenNames x; refine keeps_pcut (K := K) (b := b) (v := x) ?_ ?_; unfold x; clear x; rotate_left; (try clear_value x); intro hp)
    | (extract_lets +onlyGivenNames x; refine keeps_cut (K := K) (b := b) (v := x) ?_ ?_; unfold x; clear x; rotate_left; (try clear_value x); intro hx)
    | (extract_lets +onlyGivenNames x; (first | (have _h : Sc := x; clear _h; subst x) | (have _h : TokSt := x; clear _h; subst x) | clear_value x | subst x)) | apply keeps_ite | apply keeps_foldl
    | split

theorem keeps_bar4Write {K b} (a0 a1 s) (h : Keeps K b s) : Keeps K b (bar4Write a0 a1 s) := by
  unfold bar4Write
  repeat' with_reducible first
    | assumption | apply keeps_tableWrite | intro _
    | (extract_lets +onlyGivenNames x; refine keeps_pcut (K := K) (b := b) (v := x) ?_ ?_; unfold x; clear x; rotate_left; (try clear_value x); intro hp)
    | (extract_lets +onlyGivenNames x; refine keeps_cut (K := K) (b := b) (v := x) ?_ ?_; unfold x; clear x; rotate_left; (try clear_value x); intro hx)
    | (extract_lets +onlyGivenNames x; (first | (have _h : Sc := x; clear _h; subst x) | (have _h : TokSt := x; clear _h; subst x) | clear_value x | subst x)) | apply keeps_ite | apply keeps_foldl
    | split

theorem keeps_tlpError {K b} (a0 a1 s) (h : Keeps K b s) : Keeps K b (tlpError a0 a1 s) := by
  unfold tlpError
  repeat' with_reducible first
    | assumption | apply keeps_aerCorrected | apply keeps_aerFatal | apply hg | intro _
    | (extract_lets +onlyGivenNames x; refine keeps_pcut (K := K) (b := b) (v := x) ?_ ?_; unfold x; clear x; rotate_left; (try clear_value x); intro hp)
    | (extract_lets +onlyGivenNames x; refine keeps_fcut (K := K) (b := b) (v := x) ?_ ?_; unfold x; clear x; rotate_left; (try clear_value x); intro hg)
    | (extract_lets +onlyGivenNames x; refine keeps_fcut2 (K := K) (b := b) (v := x) ?_ ?_; unfold x; clear x; rotate_left; (try clear_value x); intro hg)
    | (extract_lets +onlyGivenNames x; refine keeps_cut (K := K) (b := b) (v := x) ?_ ?_; unfold x; clear x; rotate_left; (try clear_value x); intro hx)
    | (extract_lets +onlyGivenNames x; (first | (have _h : Sc := x; clear _h; subst x) | (have _h : TokSt := x; clear _h; subst x) | clear_value x | subst x)) | apply keeps_ite | apply keeps_foldl
    | split

theorem keeps_regWrite {K b} (a0 s) (h : Keeps K b s) : Keeps K b (regWrite a0 s) := by
  unfold regWrite
  repeat' with_reducible first
    | assumption | apply keeps_tlpError | apply keeps_bar0Write | apply keeps_bar4Write | apply keeps_cfgWrite | apply keeps_doorbellWrite | intro _
    | (extract_lets +onlyGivenNames x; refine keeps_pcut (K := K) (b := b) (v := x) ?_ ?_; unfold x; clear x; rotate_left; (try clear_value x); intro hp)
    | (extract_lets +onlyGivenNames x; refine keeps_cut (K := K) (b := b) (v := x) ?_ ?_; unfold x; clear x; rotate_left; (try clear_value x); intro hx)
    | (extract_lets +onlyGivenNames x; (first | (have _h : Sc := x; clear _h; subst x) | (have _h : TokSt := x; clear _h; subst x) | clear_value x | subst x)) | apply keeps_ite | apply keeps_foldl
    | split

theorem keeps_execRegisterWrite {K b} (a0 s) (h : Keeps K b s) : KeepsOut K b (execRegisterWrite a0 s) := by
  unfold execRegisterWrite
  repeat' with_reducible first | assumption | apply keeps_regWrite | apply KeepsOut.next

/-! ### Machine/Startup.lean -/

theorem keeps_stepAlarms {K b} (s) (h : Keeps K b s) : Keeps K b (stepAlarms s) := by
  unfold stepAlarms
  repeat' with_reducible first | assumption | refine keeps_mk ?_ | apply keeps_tamperAlarm | apply keeps_foldl | intro _

theorem keeps_latchStraps {K b} (s) (h : Keeps K b s) : Keeps K b (latchStraps s) := by
  unfold latchStraps
  repeat' with_reducible first
    | assumption | refine keeps_mk ?_ | apply keeps_raiseEvent
    | (extract_lets +onlyGivenNames x; refine keeps_cut (K := K) (b := b) (v := x) ?_ ?_; unfold x; clear x; rotate_left; (try clear_value x); intro hx)
    | (extract_lets +onlyGivenNames x; (first | (have _h : Sc := x; clear _h; subst x) | (have _h : TokSt := x; clear _h; subst x) | clear_value x | subst x)) | apply keeps_ite

theorem keeps_readLatch {K b} (s) (h : Keeps K b s) : Keeps K b (readLatch s) := by
  unfold readLatch
  repeat' with_reducible first
    | assumption | refine keeps_mk ?_ | apply keeps_quarantine
    | (extract_lets +onlyGivenNames x; refine keeps_cut (K := K) (b := b) (v := x) ?_ ?_; unfold x; clear x; rotate_left; (try clear_value x); intro hx)
    | (extract_lets +onlyGivenNames x; (first | (have _h : Sc := x; clear _h; subst x) | (have _h : TokSt := x; clear _h; subst x) | clear_value x | subst x)) | apply keeps_ite

theorem keeps_repeatDie {K b} (s) (h : Keeps K b s) : Keeps K b (repeatDie s) := by
  unfold repeatDie
  repeat' with_reducible first | assumption | apply keeps_dieEffects | split

theorem keeps_countCycle {K b} (s) (h : Keeps K b s) : Keeps K b (countCycle s) := by
  unfold countCycle
  repeat' with_reducible first
    | assumption | refine keeps_mk ?_ | (extract_lets +onlyGivenNames x; (first | (have _h : Sc := x; clear _h; subst x) | (have _h : TokSt := x; clear _h; subst x) | clear_value x | subst x))
    | apply keeps_ite | split

theorem keeps_noteAuxLost {K b} (s) (h : Keeps K b s) : Keeps K b (noteAuxLost s) := by
  unfold noteAuxLost
  repeat' with_reducible first
    | assumption | refine keeps_mk ?_ | apply keeps_raiseEvent
    | (extract_lets +onlyGivenNames x; (first | (have _h : Sc := x; clear _h; subst x) | (have _h : TokSt := x; clear _h; subst x) | clear_value x | subst x)) | apply keeps_ite

theorem keeps_stepFuses {K b} (s) (h : Keeps K b s) : Keeps K b (stepFuses s) := by
  unfold stepFuses
  repeat' with_reducible first
    | assumption | refine keeps_mk ?_ | apply keeps_latchStraps | apply keeps_readLatch | apply keeps_repeatDie | apply keeps_countCycle | apply keeps_noteAuxLost
    | apply keeps_merStart | (extract_lets +onlyGivenNames x; (first | (have _h : Sc := x; clear _h; subst x) | (have _h : TokSt := x; clear _h; subst x) | clear_value x | subst x)) | apply keeps_ite

theorem keeps_makeDrs {K : Breaks} {b : State} (s : State) (h : Keeps K b s) : Keeps K b (makeDrs s) := by
  unfold makeDrs
  split
  · exact h.to (f := .same rfl rfl rfl rfl rfl rfl)
  · split
    · have hd := keeps_drawBytes 32 s h
      extract_lets d a c t
      have ht : Keeps K b t := hd.to (f := .same rfl rfl rfl rfl rfl rfl)
      clear_value t
      exact keeps_ite ht (keeps_mk ht)
    · exact h

theorem keeps_keysFromDrs {K b} (s) (h : Keeps K b s) : Keeps K b (keysFromDrs s) := by
  unfold keysFromDrs
  repeat' with_reducible first
    | assumption | apply keeps_quarantine | apply keeps_setTried | apply keeps_bootKeys | apply keeps_makeDrs | intro _
    | (extract_lets +onlyGivenNames x; refine keeps_pcut (K := K) (b := b) (v := x) ?_ ?_; unfold x; clear x; rotate_left; (try clear_value x); intro hp)
    | (extract_lets +onlyGivenNames x; refine keeps_cut (K := K) (b := b) (v := x) ?_ ?_; unfold x; clear x; rotate_left; (try clear_value x); intro hx)
    | (extract_lets +onlyGivenNames x; (first | (have _h : Sc := x; clear _h; subst x) | (have _h : TokSt := x; clear _h; subst x) | clear_value x | subst x)) | apply keeps_ite | apply keeps_foldl
    | split

theorem keeps_stepNoise {K b} (s) (h : Keeps K b s) : Keeps K b (stepNoise s) := by
  unfold stepNoise
  repeat' with_reducible first
    | assumption | refine keeps_mk ?_ | apply keeps_faultEvent | apply keeps_keysFromDrs | apply keeps_quarantine | apply keeps_setTried | intro _
    | (extract_lets +onlyGivenNames x; refine keeps_pcut (K := K) (b := b) (v := x) ?_ ?_; unfold x; clear x; rotate_left; (try clear_value x); intro hp)
    | (extract_lets +onlyGivenNames x; refine keeps_cut (K := K) (b := b) (v := x) ?_ ?_; unfold x; clear x; rotate_left; (try clear_value x); intro hx)
    | (extract_lets +onlyGivenNames x; (first | (have _h : Sc := x; clear _h; subst x) | (have _h : TokSt := x; clear _h; subst x) | clear_value x | subst x)) | apply keeps_ite | apply keeps_foldl
    | split

/-- The keys that a token is read with are those it had, or none. -/
def SameKeys (s : State) (t : Token) : Prop := ∃ u, s.tok.socket = some u ∧ ∀ k ∈ t.stateful, k ∈ u.stateful

theorem keeps_sessionOpen {K b} (a0 a1 a2 a3 a4 s) (hk : SameKeys s a4) (h : Keeps K b s) : Keeps K b (sessionOpen a0 a1 a2 a3 a4 s) := by
  unfold sessionOpen
  obtain ⟨u, hu, hm⟩ := hk
  refine keeps_sessionEvent _ (keeps_refreshLife _ (h.to (l := fun hl v hv k hk => ?_) (n := fun v hv => ?_)))
  · cases hv
    exact hl u hu k (hm k hk)
  · cases hv
    exact ⟨u, hu, fun l hl => ⟨l, hm l hl, .refl l⟩⟩

theorem tok_linkHandshake (hs : Handshake) (t : Token) (s : State) : (linkHandshake hs t s).2.tok = s.tok := by
  unfold linkHandshake
  dsimp only
  split <;> rfl
theorem mem_readSealed {k : Bytes} {t : Token} : ∀ x ∈ (readSealed k t).stateful, x ∈ t.stateful := fun x hx => by
  rcases stateful_readSealed k t with e | e
  · exact e ▸ hx
  · rw [e] at hx; cases hx

theorem keeps_tokenReply {K b} (a0 a1 a2 s) (h : Keeps K b s) : Keeps K b (tokenReply a0 a1 a2 s).2 := by
  unfold tokenReply
  repeat' with_reducible first
    | assumption | apply keeps_drawBytes 
    | (extract_lets +onlyGivenNames x; refine keeps_pcut (K := K) (b := b) (v := x) ?_ ?_; unfold x; clear x; rotate_left; (try clear_value x); intro hp)
    | (extract_lets +onlyGivenNames x; (first | (have _h : Sc := x; clear _h; subst x) | (have _h : TokSt := x; clear _h; subst x) | clear_value x | subst x))
    | split | (apply keeps_snd; assumption)

theorem keeps_linkHandshake {K b} (a0 a1 s) (h : Keeps K b s) : Keeps K b (linkHandshake a0 a1 s).2 := by
  unfold linkHandshake
  repeat' with_reducible first
    | assumption | apply keeps_drawBytes | apply keeps_tokenReply 
    | (extract_lets +onlyGivenNames x; refine keeps_pcut (K := K) (b := b) (v := x) ?_ ?_; unfold x; clear x; rotate_left; (try clear_value x); intro hp)
    | (extract_lets +onlyGivenNames x; (first | (have _h : Sc := x; clear _h; subst x) | (have _h : TokSt := x; clear _h; subst x) | clear_value x | subst x))
    | split | (apply keeps_snd; assumption)

theorem keeps_openCustody {K : Breaks} {b u : State} {tr k : Bytes} {x : Token} {s : State} (e : openCustody tr k x s = .inr u) (hx : s.tok.socket = some x) (h : Keeps K b s) :
    Keeps K b u := by
  unfold openCustody at e
  dsimp only at e
  repeat' first
    | cases e
    | split at e
    | exact keeps_sessionOpen _ _ _ _ _ _ ⟨x, hx, fun l hl => mem_readSealed l (by simpa using hl)⟩ h
    | exact keeps_sessionOpen _ _ _ _ _ _ ⟨x, hx, fun l hl => hl⟩ h
    | exact keeps_sessionOpen _ _ _ _ _ _ ⟨x, hx, fun l hl => by simpa using hl⟩ (keeps_drawBytes _ _ h)
    | exact keeps_sessionOpen _ _ _ _ _ _ ⟨x, hx, fun l hl => by
        split at hl <;> exact mem_readSealed l (by simpa using hl)⟩ h

theorem keeps_openToken {K : Breaks} {b : State} (x : Handshake) (t : Token) (s : State) (ht : s.tok.socket = some t) (h : Keeps K b s) : Keeps K b (openToken x t s).2 := by
  unfold openToken
  split
  · exact h
  · extract_lets r
    have hr : Keeps K b r.2 := keeps_linkHandshake _ _ _ h
    have hs : r.2.tok.socket = some t := by rw [show r.2.tok = s.tok from tok_linkHandshake x t s]; exact ht
    split
    · exact hr
    · split
      · exact hr
      · split
        · exact hr
        · rename_i e
          exact keeps_openCustody e hs hr

theorem keeps_stepToken {K : Breaks} {b : State} (s : State) (h : Keeps K b s) : Keeps K b (stepToken s) := by
  unfold stepToken
  split
  · exact h
  · split
    · exact h
    · extract_lets o u n
      have ho : Keeps K b o.2 := keeps_openToken _ _ _ (by assumption) h
      exact keeps_ite ho (ho.to)

theorem keeps_refuseToken {K b} (a0 s) (h : Keeps K b s) : Keeps K b (refuseToken a0 s) := by
  unfold refuseToken
  repeat' with_reducible first | assumption | refine keeps_mk ?_ | apply keeps_sessionEvent | apply keeps_setTried

theorem keeps_finishTransition {K b} (s) (h : Keeps K b s) : Keeps K b (finishTransition s) := by
  unfold finishTransition
  repeat' with_reducible first | assumption | apply keeps_tokenEffects | refine keeps_onToken _ _ ?_ | split

theorem keeps_finishDestroy {K b} (s) (h : Keeps K b s) : Keeps K b (finishDestroy s) := by
  unfold finishDestroy
  repeat' with_reducible first
    | assumption | apply keeps_zeroArea | refine keeps_mk ?_ | refine keeps_onToken _ _ ?_ | apply keeps_quarantine
    | (extract_lets +onlyGivenNames x; refine keeps_cut (K := K) (b := b) (v := x) ?_ ?_; unfold x; clear x; rotate_left; (try clear_value x); intro hx)
    | (extract_lets +onlyGivenNames x; (first | (have _h : Sc := x; clear _h; subst x) | (have _h : TokSt := x; clear _h; subst x) | clear_value x | subst x)) | apply keeps_ite

theorem keeps_burnFloor {K : Breaks} {b : State} (s : State) (h : Keeps K b s) : Keeps K b (burnFloor s) :=
  h.to (f := ⟨fun _ h => h, fun _ h => h, id, id, id, Nat.le_max_left _ _⟩)

theorem keeps_finishAum {K b} (hA : K.aum) (s) (h : Keeps K b s) : Keeps K b (finishAum s) := by
  unfold finishAum
  repeat' with_reducible first | assumption | apply keeps_applyAum | split

theorem keeps_mergeOverflow {K b} (s) (h : Keeps K b s) : Keeps K b (mergeOverflow s) := by
  unfold mergeOverflow
  repeat' with_reducible first | assumption | refine keeps_mk ?_

theorem keeps_startAlmanac {K b} (s) (h : Keeps K b s) : Keeps K b (startAlmanac s) := by
  unfold startAlmanac
  repeat' with_reducible first
    | assumption | refine keeps_mk ?_ | apply keeps_mergeOverflow | apply keeps_clearAlmanac | apply keeps_commitAll | apply keeps_raiseEvent
    | (extract_lets +onlyGivenNames x; refine keeps_cut (K := K) (b := b) (v := x) ?_ ?_; unfold x; clear x; rotate_left; (try clear_value x); intro hx)
    | (extract_lets +onlyGivenNames x; (first | (have _h : Sc := x; clear _h; subst x) | (have _h : TokSt := x; clear _h; subst x) | clear_value x | subst x)) | apply keeps_ite

theorem keeps_tornApply {K b} (s) (h : Keeps K b s) : Keeps K b (tornApply s) := by
  unfold tornApply
  repeat' with_reducible first
    | assumption | refine keeps_mk ?_ | refine keeps_onToken _ _ ?_ | intro _
    | (extract_lets +onlyGivenNames x; refine keeps_pcut (K := K) (b := b) (v := x) ?_ ?_; unfold x; clear x; rotate_left; (try clear_value x); intro hp)
    | (extract_lets +onlyGivenNames x; refine keeps_cut (K := K) (b := b) (v := x) ?_ ?_; unfold x; clear x; rotate_left; (try clear_value x); intro hx)
    | (extract_lets +onlyGivenNames x; (first | (have _h : Sc := x; clear _h; subst x) | (have _h : TokSt := x; clear _h; subst x) | clear_value x | subst x)) | apply keeps_ite | apply keeps_foldl
    | split

theorem keeps_reconcile {K b} (hA : K.aum) (s) (h : Keeps K b s) : Keeps K b (reconcile s) := by
  unfold reconcile
  split
  · exact h
  · refine keeps_ite (keeps_refuseToken _ _ h) ?_
    extract_lets s1 s2 s3 s4
    have h1 : Keeps K b s1 := keeps_finishTransition _ (keeps_finishDestroy _ h)
    have h2 : Keeps K b s2 := keeps_burnFloor _ (keeps_finishAum hA _ (keeps_tornApply _ h1))
    have h3 : Keeps K b s3 := keeps_onToken_keys _ _ (fun t k => startKey t.readOnly (loggedEnd (s2.tok.tck.getD []) t k.keyId) k) h2 (fun _ => mem_map_key)
      (fun t k _ => ⟨Nat.le_refl _, fun _ hr => (nomatch hr), List.Pairwise.nil⟩)
      (fun t k => ⟨rfl, rfl, rfl, rfl, Nat.le_trans (Nat.le_max_left _ _) (Nat.le_max_left _ _), Nat.le_trans (Nat.le_max_right _ _) (Nat.le_max_left _ _)⟩)
    have h4 : Keeps K b s4 := keeps_ite (keeps_noteToken _ (keeps_onToken _ _ h3 (fun t => stateful_eraseBlock _ t))) h3
    clear_value s1 s4
    exact keeps_ite h1 (keeps_startAlmanac _ (keeps_loadAnchored _ h4))

theorem keeps_tornFuses {K b} (s) (h : Keeps K b s) : Keeps K b (tornFuses s) := by
  unfold tornFuses
  repeat' with_reducible first
    | assumption | refine keeps_mk ?_ | apply hg | intro _
    | (extract_lets +onlyGivenNames x; refine keeps_pcut (K := K) (b := b) (v := x) ?_ ?_; unfold x; clear x; rotate_left; (try clear_value x); intro hp)
    | (extract_lets +onlyGivenNames x; refine keeps_fcut (K := K) (b := b) (v := x) ?_ ?_; unfold x; clear x; rotate_left; (try clear_value x); intro hg)
    | (extract_lets +onlyGivenNames x; refine keeps_fcut2 (K := K) (b := b) (v := x) ?_ ?_; unfold x; clear x; rotate_left; (try clear_value x); intro hg)
    | (extract_lets +onlyGivenNames x; refine keeps_cut (K := K) (b := b) (v := x) ?_ ?_; unfold x; clear x; rotate_left; (try clear_value x); intro hx)
    | (extract_lets +onlyGivenNames x; (first | (have _h : Sc := x; clear _h; subst x) | (have _h : TokSt := x; clear _h; subst x) | clear_value x | subst x)) | apply keeps_ite | apply keeps_foldl
    | split

theorem keeps_stepJournal {K b} (hA : K.aum) (s) (h : Keeps K b s) : Keeps K b (stepJournal s) := by
  unfold stepJournal
  repeat' with_reducible first | assumption | apply keeps_tornFuses | refine keeps_mk ?_ | apply keeps_reconcile | apply keeps_closeTransition | apply keeps_ite | split

theorem keeps_seedUnits {K b} (s) (h : Keeps K b s) : Keeps K b (seedUnits s) := by
  unfold seedUnits
  repeat' with_reducible first
    | assumption | apply keeps_onUnit | apply keeps_drawSeed | intro _
    | (extract_lets +onlyGivenNames x; refine keeps_pcut (K := K) (b := b) (v := x) ?_ ?_; unfold x; clear x; rotate_left; (try clear_value x); intro hp)
    | (extract_lets +onlyGivenNames x; refine keeps_cut (K := K) (b := b) (v := x) ?_ ?_; unfold x; clear x; rotate_left; (try clear_value x); intro hx)
    | (extract_lets +onlyGivenNames x; (first | (have _h : Sc := x; clear _h; subst x) | (have _h : TokSt := x; clear _h; subst x) | clear_value x | subst x)) | apply keeps_ite | apply keeps_foldl
    | split

theorem keeps_stepKat {K b} (s) (h : Keeps K b s) : Keeps K b (stepKat s) := by
  unfold stepKat
  repeat' with_reducible first
    | assumption | refine keeps_mk ?_ | apply keeps_faultEvent | apply keeps_seedUnits | intro _
    | (extract_lets +onlyGivenNames x; refine keeps_pcut (K := K) (b := b) (v := x) ?_ ?_; unfold x; clear x; rotate_left; (try clear_value x); intro hp)
    | (extract_lets +onlyGivenNames x; refine keeps_cut (K := K) (b := b) (v := x) ?_ ?_; unfold x; clear x; rotate_left; (try clear_value x); intro hx)
    | (extract_lets +onlyGivenNames x; (first | (have _h : Sc := x; clear _h; subst x) | (have _h : TokSt := x; clear _h; subst x) | clear_value x | subst x)) | apply keeps_ite | apply keeps_foldl
    | split

theorem keeps_applyEphemeris {K b} (s) (h : Keeps K b s) : Keeps K b (applyEphemeris s) := by
  unfold applyEphemeris
  repeat' with_reducible first
    | assumption | refine keeps_mk ?_ | apply keeps_merSource | apply keeps_noteLow | apply keeps_foldl | intro _
    | (extract_lets +onlyGivenNames x; refine keeps_cut (K := K) (b := b) (v := x) ?_ ?_; unfold x; clear x; rotate_left; (try clear_value x); intro hx)
    | (extract_lets +onlyGivenNames x; (first | (have _h : Sc := x; clear _h; subst x) | (have _h : TokSt := x; clear _h; subst x) | clear_value x | subst x)) | apply keeps_ite

theorem keeps_stepEnable {K b} (s) (h : Keeps K b s) : Keeps K b (stepEnable s) := by
  unfold stepEnable
  repeat' with_reducible first | assumption | refine keeps_mk ?_ | apply keeps_applyEphemeris | apply keeps_raiseEvent | apply keeps_ite

theorem keeps_bootStep {K b} (hA : K.aum) (s) (h : Keeps K b s) : Keeps K b (bootStep s) := by
  unfold bootStep
  repeat' with_reducible first
    | assumption | apply keeps_stepFuses | apply keeps_stepNoise | apply keeps_stepToken | apply keeps_stepJournal | apply keeps_chooseImage
    | apply keeps_chooseKernels | apply keeps_stepKat | apply keeps_admitImage | apply keeps_stepEnable | split

theorem keeps_bootFrom {K : Breaks} {b : State} (hA : K.aum) (n : Nat) (s : State) (h : Keeps K b s) : Keeps K b (bootFrom n s) := by
  induction n generalizing s with
  | zero => exact h
  | succ n ih =>
    unfold bootFrom
    split
    · exact h
    · have h1 := keeps_stepAlarms _ h
      dsimp only
      split
      · exact h1
      · have h2 := keeps_bootStep hA _ h1
        split
        · exact h2
        · exact ih _ (h2.to)

theorem keeps_beginStart {K b} (hA : K.aum) (a0 a1 s) (h : Keeps K b s) : Keeps K b (beginStart a0 a1 s) := by
  unfold beginStart
  repeat' with_reducible first | assumption | refine keeps_mk ?_ | apply keeps_bootFrom

theorem keeps_resumeStart {K b} (hA : K.aum) (s) (h : Keeps K b s) : Keeps K b (resumeStart s) := by
  unfold resumeStart
  repeat' with_reducible first
    | assumption | refine keeps_mk ?_ | apply keeps_bootFrom
    | (extract_lets +onlyGivenNames x; (first | (have _h : Sc := x; clear _h; subst x) | (have _h : TokSt := x; clear _h; subst x) | clear_value x | subst x)) | apply keeps_ite

theorem keeps_retryToken {K b} (hA : K.aum) (a0 s) (h : Keeps K b s) : Keeps K b (retryToken a0 s) := by
  unfold retryToken
  repeat' with_reducible first
    | assumption | refine keeps_mk ?_ | apply keeps_bootFrom
    | (extract_lets +onlyGivenNames x; (first | (have _h : Sc := x; clear _h; subst x) | (have _h : TokSt := x; clear _h; subst x) | clear_value x | subst x)) | apply keeps_ite

theorem keeps_execTokenSessionRetry {K b} (hA : K.aum) (a0 s) (h : Keeps K b s) : KeepsOut K b (execTokenSessionRetry a0 s) := by
  unfold execTokenSessionRetry
  repeat' with_reducible first | assumption | apply keeps_retryToken | apply KeepsOut.next

theorem keeps_execStartupHoldResume {K b} (hA : K.aum) (s) (h : Keeps K b s) : KeepsOut K b (execStartupHoldResume s) := by
  unfold execStartupHoldResume
  repeat' with_reducible first | assumption | apply keeps_resumeStart | apply KeepsOut.next

/-! ### Machine/Power.lean -/

theorem keeps_perstOff {K b} (hA : K.aum) (a0 s) (h : Keeps K b s) : Keeps K b (perstOff a0 s) := by
  unfold perstOff
  repeat' with_reducible first
    | assumption | refine keeps_mk ?_ | apply keeps_beginStart
    | (extract_lets +onlyGivenNames x; (first | (have _h : Sc := x; clear _h; subst x) | (have _h : TokSt := x; clear _h; subst x) | clear_value x | subst x)) | apply keeps_ite

theorem keeps_execPerstDeassert {K b} (hA : K.aum) (a0 s) (h : Keeps K b s) : KeepsOut K b (execPerstDeassert a0 s) := by
  unfold execPerstDeassert
  repeat' with_reducible first | assumption | apply keeps_perstOff | apply KeepsOut.next

theorem keeps_auxGone {K b} (s) (h : Keeps K b s) : Keeps K b (auxGone s) := by
  unfold auxGone
  repeat' with_reducible first
    | assumption | refine keeps_mk ?_ | (extract_lets +onlyGivenNames x; (first | (have _h : Sc := x; clear _h; subst x) | (have _h : TokSt := x; clear _h; subst x) | clear_value x | subst x))
    | apply keeps_ite

theorem keeps_auxOff {K b} (s) (h : Keeps K b s) : Keeps K b (auxOff s) := by
  unfold auxOff
  repeat' with_reducible first
    | assumption | refine keeps_mk ?_ | apply keeps_auxGone
    | (extract_lets +onlyGivenNames x; (first | (have _h : Sc := x; clear _h; subst x) | (have _h : TokSt := x; clear _h; subst x) | clear_value x | subst x)) | apply keeps_ite

theorem keeps_execAuxiliaryPowerLoss {K b} (s) (h : Keeps K b s) : KeepsOut K b (execAuxiliaryPowerLoss s) := by
  unfold execAuxiliaryPowerLoss
  repeat' with_reducible first | assumption | apply keeps_auxOff | apply KeepsOut.next

theorem keeps_pgDip {K b} (a0 a1 s) (h : Keeps K b s) : Keeps K b (pgDip a0 a1 s) := by
  unfold pgDip
  repeat' with_reducible first
    | assumption | apply keeps_raiseEvent | apply keeps_tamperAlarm
    | (extract_lets +onlyGivenNames x; refine keeps_cut (K := K) (b := b) (v := x) ?_ ?_; unfold x; clear x; rotate_left; (try clear_value x); intro hx) | apply keeps_ite

theorem keeps_execPgDip {K b} (a0 a1 s) (h : Keeps K b s) : KeepsOut K b (execPgDip a0 a1 s) := by
  unfold execPgDip
  repeat' with_reducible first | assumption | apply keeps_pgDip | apply KeepsOut.next

theorem keeps_smbusAnswer {K b} (a0 a1 a2 s) (h : Keeps K b s) : Keeps K b (smbusAnswer a0 a1 a2 s) := by
  unfold smbusAnswer
  repeat' with_reducible first | assumption | apply keeps_emit

theorem keeps_healthRead {K b} (a0 a1 s) (h : Keeps K b s) : Keeps K b (healthRead a0 a1 s) := by
  unfold healthRead
  repeat' with_reducible first
    | assumption | refine keeps_mk ?_ | apply keeps_smbusAnswer
    | (extract_lets +onlyGivenNames x; (first | (have _h : Sc := x; clear _h; subst x) | (have _h : TokSt := x; clear _h; subst x) | clear_value x | subst x)) | apply keeps_ite

theorem keeps_execSmbusHealthRead {K b} (a0 a1 s) (h : Keeps K b s) : KeepsOut K b (execSmbusHealthRead a0 a1 s) := by
  unfold execSmbusHealthRead
  repeat' with_reducible first | assumption | apply keeps_healthRead | apply KeepsOut.next

theorem keeps_auxMissing {K b} (s) (h : Keeps K b s) : Keeps K b (auxMissing s) := by
  unfold auxMissing
  repeat' with_reducible first
    | assumption | refine keeps_mk ?_ | apply keeps_raiseEvent
    | (extract_lets +onlyGivenNames x; refine keeps_cut (K := K) (b := b) (v := x) ?_ ?_; unfold x; clear x; rotate_left; (try clear_value x); intro hx)
    | (extract_lets +onlyGivenNames x; (first | (have _h : Sc := x; clear _h; subst x) | (have _h : TokSt := x; clear _h; subst x) | clear_value x | subst x)) | apply keeps_ite

theorem keeps_volatileReset {K : Breaks} {b : State} (hR : K.reset) (s : State) (h : Keeps K b s) : Keeps K b (volatileReset s) := by
  have h1 := keeps_closeWindows s h
  exact { part := h1.part, pending := h1.pending, tiles := fun _ => by simp [TilesOk, VccOk, volatileReset], fuses := h1.fuses.trans (.same rfl rfl rfl rfl rfl rfl),
          slots := fun _ _ hx => (nomatch hx), gens := fun r => absurd hR r, rings := fun _ _ => ⟨fun _ hx => (nomatch hx), fun _ hx => (nomatch hx)⟩,
          leaves := h1.leaves, nexts := h1.nexts }

theorem keeps_pgOff {K b} (hR : K.reset) (s) (h : Keeps K b s) : Keeps K b (pgOff s) := by
  unfold pgOff
  repeat' with_reducible first
    | assumption | refine keeps_mk ?_ | apply keeps_volatileReset | refine keeps_onToken _ _ ?_
    | (extract_lets +onlyGivenNames x; refine keeps_cut (K := K) (b := b) (v := x) ?_ ?_; unfold x; clear x; rotate_left; (try clear_value x); intro hx)
    | (extract_lets +onlyGivenNames x; (first | (have _h : Sc := x; clear _h; subst x) | (have _h : TokSt := x; clear _h; subst x) | clear_value x | subst x)) | apply keeps_ite

theorem keeps_powerLoss {K b} (hR : K.reset) (s) (h : Keeps K b s) : Keeps K b (powerLoss s) := by
  unfold powerLoss
  repeat' with_reducible first | assumption | refine keeps_mk ?_ | apply keeps_auxGone | apply keeps_pgOff

theorem keeps_execAuxAbsent {K b} (s) (h : Keeps K b s) : KeepsOut K b (execAuxAbsent s) := by
  unfold execAuxAbsent
  repeat' with_reducible first | assumption | apply keeps_auxMissing | apply KeepsOut.next

theorem keeps_smbusOffset {K b} (a0 a1 s) (h : Keeps K b s) : Keeps K b (smbusOffset a0 a1 s) := by
  unfold smbusOffset
  repeat' with_reducible first
    | assumption | refine keeps_mk ?_ | (extract_lets +onlyGivenNames x; (first | (have _h : Sc := x; clear _h; subst x) | (have _h : TokSt := x; clear _h; subst x) | clear_value x | subst x))
    | apply keeps_ite

theorem keeps_perstOn {K b} (hR : K.reset) (s) (h : Keeps K b s) : Keeps K b (perstOn s) := by
  unfold perstOn
  repeat' with_reducible first
    | assumption | refine keeps_mk ?_ | apply keeps_volatileReset
    | (extract_lets +onlyGivenNames x; refine keeps_cut (K := K) (b := b) (v := x) ?_ ?_; unfold x; clear x; rotate_left; (try clear_value x); intro hx)
    | (extract_lets +onlyGivenNames x; (first | (have _h : Sc := x; clear _h; subst x) | (have _h : TokSt := x; clear _h; subst x) | clear_value x | subst x)) | apply keeps_ite

theorem keeps_auxFirst {K b} (s) (h : Keeps K b s) : Keeps K b (auxFirst s) := by
  unfold auxFirst
  repeat' with_reducible first
    | assumption | refine keeps_mk ?_ | (extract_lets +onlyGivenNames x; (first | (have _h : Sc := x; clear _h; subst x) | (have _h : TokSt := x; clear _h; subst x) | clear_value x | subst x))
    | apply keeps_ite

theorem keeps_seatToken {K b} (hT : K.token) (a0 s) (h : Keeps K b s) : Keeps K b (seatToken a0 s) :=
  { h with leaves := fun r => absurd hT r, nexts := fun r => absurd hT r }

theorem keeps_powerUp {K b} (hT : K.token) (hA : K.aum) (a0 s) (h : Keeps K b s) : Keeps K b (powerUp a0 s) := by
  unfold powerUp
  repeat' with_reducible first
    | assumption | refine keeps_mk ?_ | apply keeps_auxFirst | apply keeps_seatToken | apply keeps_auxMissing | apply keeps_beginStart
    | (extract_lets +onlyGivenNames x; refine keeps_cut (K := K) (b := b) (v := x) ?_ ?_; unfold x; clear x; rotate_left; (try clear_value x); intro hx)
    | (extract_lets +onlyGivenNames x; (first | (have _h : Sc := x; clear _h; subst x) | (have _h : TokSt := x; clear _h; subst x) | clear_value x | subst x)) | apply keeps_ite

theorem keeps_execPowerGood {K b} (hT : K.token) (hA : K.aum) (a0 s) (h : Keeps K b s) : KeepsOut K b (execPowerGood a0 s) := by
  unfold execPowerGood
  repeat' with_reducible first | assumption | apply keeps_powerUp | apply KeepsOut.next

theorem keeps_thermalClear {K b} (s) (h : Keeps K b s) : Keeps K b (thermalClear s) := by
  unfold thermalClear
  repeat' with_reducible first | assumption | refine keeps_mk ?_

theorem keeps_execThermalWarnClear {K b} (s) (h : Keeps K b s) : KeepsOut K b (execThermalWarnClear s) := by
  unfold execThermalWarnClear
  repeat' with_reducible first | assumption | apply keeps_thermalClear | apply KeepsOut.next

theorem keeps_fruRead {K b} (a0 a1 s) (h : Keeps K b s) : Keeps K b (fruRead a0 a1 s) := by
  unfold fruRead
  repeat' with_reducible first
    | assumption | refine keeps_mk ?_ | apply keeps_smbusAnswer
    | (extract_lets +onlyGivenNames x; (first | (have _h : Sc := x; clear _h; subst x) | (have _h : TokSt := x; clear _h; subst x) | clear_value x | subst x)) | apply keeps_ite

theorem keeps_execSmbusFruRead {K b} (a0 a1 s) (h : Keeps K b s) : KeepsOut K b (execSmbusFruRead a0 a1 s) := by
  unfold execSmbusFruRead
  repeat' with_reducible first | assumption | apply keeps_fruRead | apply KeepsOut.next

theorem keeps_pwrdisOn {K b} (hR : K.reset) (s) (h : Keeps K b s) : Keeps K b (pwrdisOn s) := by
  unfold pwrdisOn
  repeat' with_reducible first
    | assumption | refine keeps_mk ?_ | apply keeps_pgOff
    | (extract_lets +onlyGivenNames x; refine keeps_cut (K := K) (b := b) (v := x) ?_ ?_; unfold x; clear x; rotate_left; (try clear_value x); intro hx)
    | (extract_lets +onlyGivenNames x; (first | (have _h : Sc := x; clear _h; subst x) | (have _h : TokSt := x; clear _h; subst x) | clear_value x | subst x)) | apply keeps_ite

theorem keeps_execPwrdisAssert {K b} (hR : K.reset) (s) (h : Keeps K b s) : KeepsOut K b (execPwrdisAssert s) := by
  unfold execPwrdisAssert
  repeat' with_reducible first | assumption | apply keeps_pwrdisOn | apply KeepsOut.next

theorem keeps_pwrdisOff {K b} (s) (h : Keeps K b s) : Keeps K b (pwrdisOff s) := by
  unfold pwrdisOff
  repeat' with_reducible first | assumption | refine keeps_mk ?_

theorem keeps_healthSnap {K b} (a0 a1 a2 s) (h : Keeps K b s) : Keeps K b (healthSnap a0 a1 a2 s) := by
  unfold healthSnap
  repeat' with_reducible first
    | assumption | refine keeps_mk ?_ | (extract_lets +onlyGivenNames x; (first | (have _h : Sc := x; clear _h; subst x) | (have _h : TokSt := x; clear _h; subst x) | clear_value x | subst x))
    | apply keeps_ite

theorem keeps_execHealthSnapshot {K b} (a0 a1 a2 s) (h : Keeps K b s) : KeepsOut K b (execHealthSnapshot a0 a1 a2 s) := by
  unfold execHealthSnapshot
  repeat' with_reducible first | assumption | apply keeps_healthSnap | apply KeepsOut.next

theorem keeps_thermalWarn {K b} (a0 s) (h : Keeps K b s) : Keeps K b (thermalWarn a0 s) := by
  unfold thermalWarn
  repeat' with_reducible first
    | assumption | refine keeps_mk ?_ | apply keeps_raiseEvent
    | (extract_lets +onlyGivenNames x; (first | (have _h : Sc := x; clear _h; subst x) | (have _h : TokSt := x; clear _h; subst x) | clear_value x | subst x)) | apply keeps_ite

theorem keeps_execPowerLoss {K b} (hR : K.reset) (s) (h : Keeps K b s) : KeepsOut K b (execPowerLoss s) := by
  unfold execPowerLoss
  repeat' with_reducible first | assumption | apply keeps_powerLoss | apply KeepsOut.next

theorem keeps_execPwrdisDeassert {K b} (s) (h : Keeps K b s) : KeepsOut K b (execPwrdisDeassert s) := by
  unfold execPwrdisDeassert
  repeat' with_reducible first | assumption | apply keeps_pwrdisOff | apply KeepsOut.next

theorem keeps_execThermalWarn {K b} (a0 s) (h : Keeps K b s) : KeepsOut K b (execThermalWarn a0 s) := by
  unfold execThermalWarn
  repeat' with_reducible first | assumption | apply keeps_thermalWarn | apply KeepsOut.next

theorem keeps_auxOn {K b} (s) (h : Keeps K b s) : Keeps K b (auxOn s) := by
  unfold auxOn
  repeat' with_reducible first | assumption | refine keeps_mk ?_ | apply keeps_auxFirst

theorem keeps_execAuxiliaryPowerOn {K b} (s) (h : Keeps K b s) : KeepsOut K b (execAuxiliaryPowerOn s) := by
  unfold execAuxiliaryPowerOn
  repeat' with_reducible first | assumption | apply keeps_auxOn | apply KeepsOut.next

theorem keeps_execPerstAssert {K b} (hR : K.reset) (s) (h : Keeps K b s) : KeepsOut K b (execPerstAssert s) := by
  unfold execPerstAssert
  repeat' with_reducible first | assumption | apply keeps_perstOn | apply KeepsOut.next

theorem keeps_execSmbusOffsetWrite {K b} (a0 a1 s) (h : Keeps K b s) : KeepsOut K b (execSmbusOffsetWrite a0 a1 s) := by
  unfold execSmbusOffsetWrite
  repeat' with_reducible first | assumption | apply keeps_smbusOffset | apply KeepsOut.next

theorem keeps_activityOff {K b} (s) (h : Keeps K b s) : Keeps K b (activityOff s) := by
  unfold activityOff
  repeat' with_reducible first
    | assumption | refine keeps_mk ?_ | (extract_lets +onlyGivenNames x; (first | (have _h : Sc := x; clear _h; subst x) | (have _h : TokSt := x; clear _h; subst x) | clear_value x | subst x))
    | apply keeps_ite

theorem keeps_strapsRead {K b} (a0 s) (h : Keeps K b s) : Keeps K b (strapsRead a0 s) := by
  unfold strapsRead
  repeat' with_reducible first
    | assumption | refine keeps_mk ?_ | apply keeps_answerRead | apply keeps_raiseEvent
    | (extract_lets +onlyGivenNames x; refine keeps_cut (K := K) (b := b) (v := x) ?_ ?_; unfold x; clear x; rotate_left; (try clear_value x); intro hx)
    | (extract_lets +onlyGivenNames x; (first | (have _h : Sc := x; clear _h; subst x) | (have _h : TokSt := x; clear _h; subst x) | clear_value x | subst x)) | apply keeps_ite

theorem keeps_execStrapsRead {K b} (a0 s) (h : Keeps K b s) : KeepsOut K b (execStrapsRead a0 s) := by
  unfold execStrapsRead
  repeat' with_reducible first | assumption | apply keeps_strapsRead | apply KeepsOut.next

theorem keeps_execActivityStretchEnd {K b} (s) (h : Keeps K b s) : KeepsOut K b (execActivityStretchEnd s) := by
  unfold execActivityStretchEnd
  repeat' with_reducible first | assumption | apply keeps_activityOff | apply KeepsOut.next

theorem keeps_settleErase {K b} (s) (h : Keeps K b s) : Keeps K b (settleErase s) := by
  unfold settleErase
  repeat' with_reducible first
    | assumption | refine keeps_mk ?_ | apply keeps_quarantine | apply keeps_endSession | apply hg | intro _
    | (extract_lets +onlyGivenNames x; refine keeps_pcut (K := K) (b := b) (v := x) ?_ ?_; unfold x; clear x; rotate_left; (try clear_value x); intro hp)
    | (extract_lets +onlyGivenNames x; refine keeps_fcut (K := K) (b := b) (v := x) ?_ ?_; unfold x; clear x; rotate_left; (try clear_value x); intro hg)
    | (extract_lets +onlyGivenNames x; refine keeps_fcut2 (K := K) (b := b) (v := x) ?_ ?_; unfold x; clear x; rotate_left; (try clear_value x); intro hg)
    | (extract_lets +onlyGivenNames x; refine keeps_cut (K := K) (b := b) (v := x) ?_ ?_; unfold x; clear x; rotate_left; (try clear_value x); intro hx)
    | (extract_lets +onlyGivenNames x; (first | (have _h : Sc := x; clear _h; subst x) | (have _h : TokSt := x; clear _h; subst x) | clear_value x | subst x)) | apply keeps_ite | apply keeps_foldl
    | split

theorem keeps_settleSlots {K b} (s) (h : Keeps K b s) : Keeps K b (settleSlots s) := by
  unfold settleSlots
  exact h.to (x := all_map fun _ h => h) (g := .map fun _ => ⟨rfl, Nat.le_refl _⟩)

theorem keeps_tick {K b} (s) (h : Keeps K b s) : Keeps K b (tick s) := by
  unfold tick
  repeat' with_reducible first
    | assumption | refine keeps_mk ?_ | refine keeps_onToken _ _ ?_ stateful_wearMove | apply keeps_settleErase | apply keeps_settleSlots | apply hg | intro _
    | (extract_lets +onlyGivenNames x; refine keeps_pcut (K := K) (b := b) (v := x) ?_ ?_; unfold x; clear x; rotate_left; (try clear_value x); intro hp)
    | (extract_lets +onlyGivenNames x; refine keeps_fcut (K := K) (b := b) (v := x) ?_ ?_; unfold x; clear x; rotate_left; (try clear_value x); intro hg)
    | (extract_lets +onlyGivenNames x; refine keeps_fcut2 (K := K) (b := b) (v := x) ?_ ?_; unfold x; clear x; rotate_left; (try clear_value x); intro hg)
    | (extract_lets +onlyGivenNames x; refine keeps_cut (K := K) (b := b) (v := x) ?_ ?_; unfold x; clear x; rotate_left; (try clear_value x); intro hx)
    | (extract_lets +onlyGivenNames x; (first | (have _h : Sc := x; clear _h; subst x) | (have _h : TokSt := x; clear _h; subst x) | clear_value x | subst x)) | apply keeps_ite | apply keeps_foldl
    | split

end Sys2Proof.Machine
end

