-- ==== Sys2Proof/Laws/Lengths.lean ====
section
/-!
SUPPORT. Lengths: of Keccak's digests, of AES blocks and of what GCM answers; and slices of joined byte strings.
-/
namespace Sys2Proof.Machine
set_option Elab.async false -- as in State

theorem lanesBytes_length (a : Lanes) : (lanesBytes a).length = 8 * a.length := by
  induction a with
  | nil => rfl
  | cons l r ih => simp only [lanesBytes, List.flatMap_cons, List.length_append, List.length_cons] at *; rw [ih]; simp [leBytes]; omega

theorem foldl_keeps {α β : Type} (P : β → Prop) (f : β → α → β) (h : ∀ b x, P (f b x)) : ∀ (l : List α) (b : β), P b ∨ l ≠ [] → P (l.foldl f b)
  | [], _, g => g.resolve_right (fun e => e rfl)
  | x :: r, b, _ => foldl_keeps P f h r (f b x) (.inl (h b x))

theorem keccakRound_length (a : Lanes) (rc : BitVec 64) : (keccakRound a rc).length = 25 := by
  have : (keccakChi (keccakRhoPi (keccakTheta a))).length = 25 := by rw [keccakChi, List.length_mapIdx, keccakRhoPi, List.length_map, List.length_range]
  unfold keccakRound
  split <;> rename_i e <;> rw [e] at this
  · exact absurd this (by decide)
  · exact this

theorem sponge_length (x : Nat) (m : Bytes) : (sponge 136 x m 32).length = 32 := by
  have k (a : Lanes) : (keccakF a).length = 25 := by
    unfold keccakF
    exact foldl_keeps (fun b => b.length = 25) keccakRound keccakRound_length keccakRc a (.inr (by simp [keccakRc]))
  unfold sponge
  have h := foldl_keeps (fun b => b.length = 25) keccakAbsorb (fun b x => k (keccakXorIn b x)) (chunks 136 (m ++ keccakPad 136 x m.length)) keccakZero
    (.inl (by rw [keccakZero, List.length_replicate]))
  have e : ceilDiv 32 136 = 1 := by decide
  dsimp only
  rw [e, keccakSqueeze, List.length_take, List.length_append, List.length_take, lanesBytes_length, h]
  omega

theorem sha3_256_length (m : Bytes) : (sha3_256 m).length = 32 := sponge_length 6 m

theorem kmac256_length (key x s : Bytes) : (kmac256 key x 32 s).length = 32 := by
  have : (ascii "KMAC").isEmpty = false := by decide
  rw [kmac256, kmac, cshake, this, Bool.false_and, if_neg (by decide)]
  exact sponge_length _ _

theorem chunksFuel_whole (n : Nat) (hn : 0 < n) : ∀ (f k : Nat) (b : Bytes), b.length = n * k → k ≤ f → (chunksFuel n f b).length = k ∧ ∀ c ∈ chunksFuel n f b, c.length = n
  | 0, k, b, _, hk => by
    have : k = 0 := by omega
    subst this; exact ⟨rfl, by simp [chunksFuel]⟩
  | f + 1, 0, b, h, _ => by
    have : b = [] := List.length_eq_zero_iff.mp (by omega)
    subst this; simp [chunksFuel]
  | f + 1, k + 1, b, h, hk => by
    have hb : b.isEmpty = false := by
      cases b with
      | nil => simp only [List.length_nil] at h; rw [Nat.mul_succ] at h; omega
      | cons a l => rfl
    have h1 : n ≤ b.length := by rw [h]; exact Nat.le_mul_of_pos_right n (Nat.succ_pos k)
    have ih := chunksFuel_whole n hn f k (b.drop n) (by rw [List.length_drop, h, Nat.mul_succ, Nat.add_sub_cancel]) (by omega)
    simp only [chunksFuel, hb, Bool.false_eq_true, if_false, List.length_cons, List.mem_cons, forall_eq_or_imp]
    exact ⟨by omega, by rw [List.length_take]; omega, ih.2⟩

theorem chunks_whole (n k : Nat) (b : Bytes) (hn : 0 < n) (h : b.length = n * k) : (chunks n b).length = k ∧ ∀ c ∈ chunks n b, c.length = n :=
  chunksFuel_whole n hn _ k b h (by rw [h]; exact Nat.le_mul_of_pos_left k hn)

theorem flatten_length (n : Nat) : ∀ l : List Bytes, (∀ c ∈ l, c.length = n) → l.flatten.length = n * l.length
  | [], _ => rfl
  | a :: l, h => by
    rw [List.flatten_cons, List.length_append, h a (by simp), flatten_length n l (fun c hc => h c (by simp [hc])), List.length_cons, Nat.mul_succ, Nat.add_comm]

theorem aesExpand_words (nk : Nat) (h0 : 0 < nk) : ∀ (n i : Nat) (ws : List Bytes), (∀ w ∈ ws, w.length = 4) → nk ≤ ws.length →
    (aesExpand nk n i ws).length = n + ws.length ∧ ∀ w ∈ aesExpand nk n i ws, w.length = 4
  | 0, i, ws, h, _ => ⟨by simp [aesExpand], h⟩
  | n + 1, i, ws, h, hl => by
    have hp : (ws.headD []).length = 4 := by
      cases ws with
      | nil => simp only [List.length_nil] at hl; omega
      | cons a l => exact h a (by simp)
    have hg : (ws.getD (nk - 1) []).length = 4 := by
      rw [List.getD_eq_getElem?_getD, List.getElem?_eq_getElem (by omega), Option.getD_some]; exact h _ (List.getElem_mem _)
    have hx (a b : Bytes) (ha : a.length = 4) (hb : b.length = 4) : (xorBytes a b).length = 4 := by rw [xorBytes, List.length_zipWith, ha, hb]; rfl
    have hr : ((ws.headD []).drop 1 ++ (ws.headD []).take 1).length = 4 := by rw [List.length_append, List.length_drop, List.length_take, hp]; rfl
    unfold aesExpand
    have := aesExpand_words nk h0 n (i + 1) (xorBytes (ws.getD (nk - 1) []) (if i % nk == 0 then xorBytes (((ws.headD []).drop 1 ++ (ws.headD []).take 1).map subByte) [aesRcon (i / nk - 1), 0, 0, 0]
      else if nk > 6 && i % nk == 4 then (ws.headD []).map subByte else ws.headD []) :: ws) (by
        intro w hw
        rcases List.mem_cons.mp hw with rfl | hw
        · refine hx _ _ hg ?_
          split
          · exact hx _ _ (by rw [List.length_map]; exact hr) rfl
          · split
            · rw [List.length_map]; exact hp
            · exact hp
        · exact h w hw) (by rw [List.length_cons]; omega)
    exact ⟨by rw [this.1, List.length_cons]; omega, this.2⟩

theorem roundKeys_length (key : Bytes) (h : key.length = 32) : (aesRoundKeys key).length = 15 ∧ ∀ c ∈ aesRoundKeys key, c.length = 16 := by
  obtain ⟨h1, h2⟩ := chunks_whole 4 8 key (by omega) (by omega)
  have e := aesExpand_words 8 (by omega) 52 8 (chunks 4 key).reverse (fun w hw => h2 w (List.mem_reverse.mp hw)) (by rw [List.length_reverse]; omega)
  unfold aesRoundKeys
  rw [h]
  exact chunks_whole 16 15 _ (by omega) (by rw [flatten_length 4 _ (fun w hw => e.2 w (List.mem_reverse.mp hw)), List.length_reverse, e.1, List.length_reverse, h1])

theorem aesEncBlock_length (rks : List Bytes) (blk : Bytes) (h : 2 ≤ rks.length) (hc : ∀ c ∈ rks, c.length = 16) : (aesEncBlock rks blk).length = 16 := by
  match rks, h with
  | a :: b :: l, _ =>
    have : ((b :: l).getLastD []).length = 16 := by
      rw [List.getLastD_eq_getLast?, List.getLast?_eq_some_getLast (by simp), Option.getD_some]
      exact hc _ (List.mem_cons_of_mem _ (List.getLast_mem _))
    unfold aesEncBlock
    dsimp only
    rw [xorBytes, List.length_zipWith, this, shiftRows, List.length_map, List.length_range]; rfl

theorem gcmTag_length (key iv aad c : Bytes) (h : key.length = 32) : (gcmTag key iv aad c).length = 16 := by
  obtain ⟨h1, h2⟩ := roundKeys_length key h
  have hb (v : Nat) : (beBytes 16 v).length = 16 := by simp [beBytes, leBytes]
  unfold gcmTag aesEnc
  dsimp only
  rw [xorBytes, List.length_zipWith, aesEncBlock_length _ _ (by omega) h2, ghash, hb]; rfl

theorem gcmCtr_length (key iv c : Bytes) (k : Nat) (h : key.length = 32) (hc : c.length = 16 * k) : (gcmCtr key iv 0 c).length = 16 * k := by
  obtain ⟨h1, h2⟩ := roundKeys_length key h
  obtain ⟨h3, h4⟩ := chunks_whole 16 k c (by omega) hc
  unfold gcmCtr ctrFrom
  dsimp only
  rw [flatten_length 16, List.length_mapIdx, h3]
  intro b hb
  obtain ⟨i, hi, rfl⟩ := List.mem_mapIdx.mp hb
  rw [xorBytes, List.length_zipWith, aesEncBlock_length _ _ (by omega) h2, h4 _ (List.getElem_mem hi)]
  try rfl

/-- Decryption of a ciphertext behind a tag accepts that which is its own. -/
theorem gcmDec_tag (key iv aad c tag : Bytes) (h : key.length = 32) (ht : tag.length = 16) :
    gcmDec key iv aad (c ++ tag) 16 = (gcmCtr key iv 0 c, gcmTag key iv aad c == tag) := by
  have e : (c ++ tag).length - 16 = c.length := by rw [List.length_append, ht, Nat.add_sub_cancel]
  unfold gcmDec
  dsimp only
  rw [e, List.take_left, List.drop_left, List.take_of_length_le (Nat.le_of_eq (gcmTag_length _ _ _ _ h))]

theorem sliceOf_left (p q : Bytes) (o n : Nat) (h : o + n ≤ p.length) : sliceOf (p ++ q) o n = sliceOf p o n := by
  unfold sliceOf
  rw [List.drop_append_of_le_length (by omega), List.take_append_of_le_length (by rw [List.length_drop]; omega)]

theorem sliceOf_right (p q : Bytes) (o n : Nat) (h : p.length ≤ o) : sliceOf (p ++ q) o n = sliceOf q (o - p.length) n := by
  unfold sliceOf
  rw [List.drop_append, List.drop_eq_nil_of_le h, List.nil_append]

end Sys2Proof.Machine
end

