-- ==== Sys2Proof/Machine/RegMap.lean ====
section
/-!
DEFINITION. What the module shows without changing: the value every register of the memory BARs reads as (R501 to R509, the map
beside `regWrite`), and the two status LEDs (R83). The commands that read with a side effect (R502) answer the same values.
-/
namespace Sys2Proof.Machine

/-- Word `i` of a run of bytes, byte 4i in bits 7 to 0. -/
def wordOf (bs : Bytes) (i : Nat) : Nat := fieldLE bs (4 * i) 4
/-- Bits 31 to 0, or with `hi` bits 63 to 32, of a 64-bit register pair. -/
def halfOf (hi : Bool) (v : Nat) : Nat := if hi then v / 2 ^ 32 % 2 ^ 32 else v % 2 ^ 32
/-- Four counters of one byte each, counter 4m in bits 7 to 0 (R475, R494). -/
def countWord (cs : List Nat) (m : Nat) : Nat := wordOf (cs.map byteOf) m

/-! ### The function page (R508) -/

/-- AQ_STATUS (R167): the admin SQ's stop, or else the admin CQ's. -/
def aqStatus (s : State) (f : Fn) : Nat :=
  let x := s.fnOf f
  let q := ((s.sq? f 0xFFFF).map (fun q => (q.st == .error, q.reason, q.latched))).getD (false, 0, 0)
  let c := ((s.cq? f 0xFFFF).map (fun c => (c.st == .error, c.reason, c.latched))).getD (false, 0, 0)
  let e := if q.1 then q else c
  (if e.1 then e.2.1 * 2 ^ 24 + e.2.2 % 2 ^ 17 else 0) + (if !x.aqEnable then 0 else if e.1 then 2 else 1) * 2 ^ 22 + bitAt x.aqConfigErr 21

/-- EVR_STATUS (R180). -/
def evrStatus (e : FnEvr) : Nat := (if !e.present then 0 else if e.stopped then 2 else 1) * 2 ^ 30 + e.tail

/-- MBX_CTRL (R433); the write-only bits read 0. -/
def mbxCtrl (m : FnMbx) : Nat :=
  bitAt m.enable 31 + m.vector * 2 ^ 16 + bitAt m.outPend 13 + bitAt m.inPend 12 + bitAt m.overrun 11 + m.outLen

/-- DDP_STATUS (R389). -/
def ddpStatus (d : FnDdp) : Nat := d.seq * 2 ^ 16 + d.error * 2 ^ 8 + bitAt d.restarted 2 + bitAt d.done 1 + bitAt d.busy 0

/-- AQ_SIZE (R167). -/
def aqSize (x : FnState) : Nat := bitAt x.aqEnable 31 + x.aqCqLog2 * 2 ^ 8 + x.aqSqLog2

/-- The admin queue and event ring registers of a page (R167, R180). -/
def pageQueueValue (s : State) (f : Fn) (off : Nat) : Nat :=
  let x := s.fnOf f
  if off == 0x100 || off == 0x104 then halfOf (off == 0x104) x.aqSqBase.toNat
  else if off == 0x108 || off == 0x10C then halfOf (off == 0x10C) x.aqCqBase.toNat
  else if off == 0x110 then aqSize x
  else if off == 0x11C then aqStatus s f
  else if off == 0x204 then evrStatus x.evr
  else if off == 0x208 then x.evr.droppedReg
  else 0

/-- The mailbox registers of a page; on PF0's own page they read 0 (R433). -/
def pageMailboxValue (f : Fn) (m : FnMbx) (off : Nat) : Nat :=
  if !(hasMailbox f) then 0
  else if off < 0x500 then wordOf m.inWin ((off - 0x400) / 4)
  else if off < 0x600 then wordOf m.outWin ((off - 0x500) / 4)
  else if off == 0x600 then mbxCtrl m
  else if off == 0x604 then m.inLen
  else 0

/-- The direct digest port's registers of a page (R389). -/
def pageDigestValue (d : FnDdp) (off : Nat) : Nat :=
  if off == 0x800 then d.alg
  else if off == 0x804 then ddpStatus d
  else if off == 0x808 || off == 0x80C then halfOf (off == 0x80C) d.key
  else if 0x840 ≤ off && off < 0x880 then (if d.done then wordOf d.digest ((off - 0x840) / 4) else 0)
  else 0

/-- A 32-bit register of a function page; every offset the table leaves out reads 0 (R503, R508). -/
def pageValue (s : State) (f : Fn) (off : Nat) : Nat :=
  if off == 0 then fnStatus s f
  else if off < 0x400 then pageQueueValue s f off
  else if off < 0x800 then pageMailboxValue f (s.fnOf f).mbx off
  else pageDigestValue (s.fnOf f).ddp off

/-! ### The PF0 blocks (R507) -/

/-- DEV_ID (R119, R505). -/
def devId (p : Part) : Nat := deviceIdOf p .pf0 * 2 ^ 16 + 0x5951

/-- DEV_REV: STEPPING from 0x01, ROM and KERNEL_SET (R505). -/
def devRev (p : Part) : Nat := (1 + Config.stepping p % 255) * 2 ^ 16 + (Config.romVersions p).toNat

/-- Identity, capabilities and STRAPS (R84, R505, R506). -/
def identityValue (s : State) (off : Nat) : Nat :=
  if off == 0x00 then devId s.part
  else if off == 0x04 then devRev s.part
  else if 0x08 ≤ off && off < 0x18 then (devCap s.part).getD ((off - 8) / 4) 0
  else if off == 0x20 then s.pwr.live.toNat * 256 + s.pwr.straps.toNat
  else 0

/-- Start-up and Ephemeris (R111, R112). -/
def ephemerisValue (s : State) (off : Nat) : Nat :=
  if off == 0x10000 then fnStatus s .pf0
  else if off == 0x10004 then ephStatus s
  else if off == 0x10008 then s.eph.sequence
  else if off == 0x1000C then s.eph.source
  else if 0x10020 ≤ off && off < 0x10040 then wordOf s.eph.digest ((off - 0x10020) / 4)
  else 0

/-- LCS_STATE (R455). -/
def lcsState (s : State) : Nat := s.lcs.refused * 2 ^ 24 + s.lcs.lastRefuse * 2 ^ 16 + bitAt s.lcs.busy 8 + lcCode s

/-- DBG_RIGHTS (R458); CYCLES_LEFT is 0 without a stored certificate. -/
def dbgRights (s : State) : Nat :=
  ((s.dbg.cert.map (fun c => c.cyclesLeft)).getD 0) * 2 ^ 24 + rightsAvailable s * 2 ^ 16 + bitAt (settled s) 15 + s.dbg.active.toNat

/-- Register g`n` in the cluster window: 0 while no job is halted, and 0 where it is tagged (R462). -/
def windowReg (s : State) (n : Nat) : Nat :=
  if s.dbg.halted.isNone then 0
  else match s.vcc[s.dbg.haltedOn]? with
  | some c => if c.regs.gTag.contains n then 0 else (c.regs.g.getD n 0).toNat
  | none => 0

/-- Lifecycle and debug (R455, R458, R462); DBG_STEP_CTRL's write-only bits read 0. -/
def lifecycleValue (s : State) (off : Nat) : Nat :=
  if off == 0x20000 then lcsState s
  else if off == 0x20008 then dbgRights s
  else if off == 0x20010 then bitAt s.dbg.arm 31 + s.dbg.cluster
  else if off == 0x20014 then bitAt s.dbg.halted.isSome 31 + s.dbg.stepPc
  else if 0x21000 ≤ off && off < 0x21100 then halfOf (off % 8 == 4) (windowReg s ((off - 0x21000) / 8))
  else 0

/-- The present reading of a sensor (R475): its last alarm's while a condition of it stands, else whatever it reads now. -/
def sensorNow (s : State) (n : Nat) : Nat :=
  if s.tam.conds.any (fun c => c.1 == n && c.2.2.isNone) then s.tam.raw.getD n 0 else Config.sensorReading n s.clk % 2 ^ 32

/-- Tamper and fault registers (R475, R494); TAMPER_RAW reads 0 unless MONITOR_RAW is active. -/
def tamperValue (s : State) (off : Nat) : Nat :=
  if off == 0x30000 then tamperStatus s
  else if off == 0x30008 then s.flt.status.toNat
  else if 0x30010 ≤ off && off < 0x30020 then countWord s.tam.counts ((off - 0x30010) / 4)
  else if 0x30020 ≤ off && off < 0x30030 then countWord s.flt.counts ((off - 0x30020) / 4)
  else if 0x30040 ≤ off && off < 0x30080 then (if s.dbg.active.getLsbD 2 then sensorNow s ((off - 0x30040) / 4) else 0)
  else 0

/-- The Meridian block (R45); HOLDOVER_DRIFT reads 0 while LOCKED. -/
def meridianValue (s : State) (off : Nat) : Nat :=
  if off == 0x40000 then merStatus s
  else if off == 0x40008 then transitNow s % 2 ^ 32
  else if off == 0x4000C then s.mer.hiLatch
  else if off == 0x40010 then (if s.mer.st == .locked then 0 else s.mer.drift)
  else 0

/-- CLASS_STATE (R65), which shows the live state of the class. -/
def classState (s : State) (c : Nat) : Nat :=
  bitAt (s.eph.suspended.contains c) 1 + bitAt (s.eph.cfg.classes.any (fun k => k.num == c)) 0

/-- A register of class c's monitor block: the snapshot, but for CLASS_STATE (R65, R284). -/
def classValue (s : State) (c off : Nat) : Nat :=
  let m := s.mon.snap.getD c {}
  if 0x100 ≤ off then m.hist.getD ((off - 0x100) / 4) 0
  else if off == 0x2C then classState s c
  else ([m.latMin, m.latMax, halfOf false m.count, halfOf true m.count, halfOf false m.sum, halfOf true m.sum, m.missGuaranteed, m.missSuspended,
    m.missBudget, m.missCqFull, m.missResource, 0, m.irCount, m.signOverrun, m.missDebug]).getD (off / 4) 0

/-- A register of pool p's monitor block (R65). -/
def poolValue (s : State) (p off : Nat) : Nat :=
  let m := s.mon.poolSnap.getD p {}
  ([halfOf false m.busy, halfOf true m.busy, m.preempt, halfOf false m.snapTr, halfOf true m.snapTr]).getD (off / 4) 0

/-- The monitor blocks (R65). -/
def monitorValue (s : State) (off : Nat) : Nat :=
  if off < 0x52000 then classValue s ((off - 0x50000) / 0x200) (off % 0x200)
  else if 0x54000 ≤ off && off < 0x54100 then poolValue s ((off - 0x54000) / 0x40) (off % 0x40)
  else 0

/-- The token whose journal the Eyepiece shows: none without a FULL session (R491). -/
def shownToken (s : State) : Option Token := if fullSession s then s.tok.socket else none

/-- ALM_OVF_COUNT (R491). -/
def overflowShown (s : State) : Nat := ((s.alm.overflow.find? (fun x => x.1 == s.alm.ovfSel)).map (fun x => x.2)).getD 0

/-- The Eyepiece (R491); the window reads 0 while it is loading. -/
def almanacValue (s : State) (off : Nat) : Nat :=
  if off == 0x60000 then s.alm.cursor
  else if off == 0x60004 then almStatus s
  else if off == 0x60008 then ((shownToken s).map (fun t => t.almNext)).getD 0
  else if off == 0x6000C then ((shownToken s).map (fun t => t.almReserve)).getD 0
  else if off == 0x60010 then s.alm.ovfSel
  else if off == 0x60014 then overflowShown s
  else if 0x60040 ≤ off && off < 0x60080 then (if s.alm.loading then 0 else wordOf s.alm.window ((off - 0x60040) / 4))
  else 0

/-- The token registers (R257); the serial reads 0 without a session. -/
def tokenValue (s : State) (off : Nat) : Nat :=
  if off == 0x70000 then tokenStatus s
  else if off == 0x70004 then tokenLife s
  else if 0x70010 ≤ off && off < 0x70020 then (if anySession s then wordOf ((s.tok.socket.map (fun t => t.serial)).getD []) ((off - 0x70010) / 4) else 0)
  else 0

/-- The lowest number of the instances whose message waits for the manager, of one type. -/
def waitingMbx (s : State) (num : Fn → Option Nat) : Option Nat :=
  ((s.fns.filter (fun x => x.mbx.outPend && isInstance s x.fn)).filterMap (fun x => num x.fn)).min?

/-- MGR_MBX_NEXT: VFs before slices, the lowest number first (R434). -/
def mgrNext (s : State) : Nat :=
  match waitingMbx s (fun f => match f with | .vf n => some n | _ => none) with
  | some n => 2 ^ 31 + 2 * 2 ^ 16 + n
  | none =>
    match waitingMbx s (fun f => match f with | .slice n => some n | _ => none) with
    | some n => 2 ^ 31 + 2 ^ 16 + n
    | none => 0

/-- MGR_MBX_CTRL, of the instance selected; the write-only bits read 0 (R434).
IN_LEN and OVERRUN are the manager's own (R504) and read as held while no instance is selected too (DESIGN CHOICE, log 39). -/
def mgrCtrl (g : MgrMbx) (m : FnMbx) : Nat := m.outSent * 2 ^ 16 + bitAt m.outPend 13 + bitAt m.inPend 12 + bitAt g.overrun 11 + g.inLen

/-- The manager's mailbox block: what concerns an instance reads 0 while no live one is selected (R434). -/
def managerValue (s : State) (off : Nat) : Nat :=
  let m := ((selected s).map (fun f => (s.fnOf f).mbx)).getD {}
  if off == 0x80000 then s.mgr.selType * 2 ^ 16 + s.mgr.selInst
  else if off == 0x80004 then mgrCtrl s.mgr m
  else if off == 0x80008 then bitAt s.mgr.enable 31 + s.mgr.vector
  else if off == 0x8000C then mgrNext s
  else if 0x80100 ≤ off && off < 0x80200 then wordOf m.outWin ((off - 0x80100) / 4)
  else if 0x80200 ≤ off && off < 0x80300 then wordOf m.inWin ((off - 0x80200) / 4)
  else 0

/-- A 32-bit register of the PF0 blocks, one block to each 64 KiB (R507); every offset the table leaves out reads 0 (R503). -/
def blockValue (s : State) (off : Nat) : Nat :=
  match off / 0x10000 with
  | 0 => identityValue s off
  | 1 => ephemerisValue s off
  | 2 => lifecycleValue s off
  | 3 => tamperValue s off
  | 4 => meridianValue s off
  | 5 => monitorValue s off
  | 6 => almanacValue s off
  | 7 => tokenValue s off
  | 8 => managerValue s off
  | _ => 0

/-! ### A read (R143, R501) -/

/-- A 32-bit register of a BAR. While its function resets, every register but FN_STATUS reads 0 (R143). Doorbells read 0 (R509). -/
def regValue (s : State) (t : RegTarget) (off : Nat) : Nat :=
  match pageAt s t off with
  | some (f, o) => if (s.fnOf f).resetting && o != 0 then 0 else pageValue s f o
  | none => match t with
    | .bar0 .pf0 => if (s.fnOf .pf0).resetting && off != 0x10000 then 0 else blockValue s off
    | .bar4 f => if (s.fnOf f).resetting then 0 else tableValue s f off
    | _ => 0

/-- The data of a read that is answered: an aligned 32-bit read the register, an aligned 64-bit read two of them, lower address
first (TRANSIT_NOW whole, R45), every other read 0. -/
def regData (s : State) (t : RegTarget) (off width : Nat) : Nat :=
  if width == 32 && off % 4 == 0 then regValue s t off
  else if width == 64 && off % 8 == 0 then
    if t == .bar0 .pf0 && off == 0x40008 then (if (s.fnOf .pf0).resetting then 0 else transitNow s % 2 ^ 64)
    else regValue s t (off + 4) * 2 ^ 32 + regValue s t off
  else 0

/-- What a read of a BAR or of a configuration-space field returns; `none` is Unsupported Request, as while the BARs are closed (R94, R120,
R128). -/
def regRead (s : State) (t : RegTarget) (off width : Nat) : Option Nat :=
  match t with
  | .config f fld => cfgRead s f fld
  | t => if barOpen s (targetFn t) then some (regData s t off width) else none

/-! ### The LEDs (R83) -/

/-- The dark-bezel setting in effect: the Ephemeris's once applied and set, or else STRAPS[7]. -/
def darkBezel (s : State) : Bool := s.eph.cfg.dark.getD (s.pwr.straps.getLsbD 7)

/-- SERVICE, the left LED: the first row of its table that applies; the rows leave out no condition. -/
def serviceLed (s : State) : Led :=
  let ready := (s.fnOf .pf0).ready
  if darkBezel s || !s.pwr.pg then .off
  else if s.tam.quarantine then .amber
  else if !ready then .greenBlink
  else if !s.eph.configured then .amberBlink
  else if s.flt.degraded then .alternating
  else .green

/-- LEDGER, the right LED: the first row of its table that applies; none where no row does (log 35). -/
def ledgerLed (s : State) : Option Led :=
  if darkBezel s || !s.pwr.pg then some .off
  else if (!s.tok.present && s.pwr.straps.getLsbD 2) || (!(anySession s) && s.tok.failReason != 0) then some .amber
  else if s.tok.present && s.tok.readOnly then some .amberBlink
  else if anySession s && s.tok.wear then some .greenBlink
  else if anySession s then some .green
  else if !s.tok.present then some .off
  else none

end Sys2Proof.Machine
end

