-- ==== Sys2Proof/Machine/SealedLine.lean ====
section
/-!
DEFINITION. A line of sealed DRAM as the memory devices hold it (R17). No command shows a stored line: the commands that read one carry what its
check found (`MemErr`), and these definitions say what is checked.
-/
namespace Sys2Proof.Machine

/-- What the devices hold of a 64-byte line: the ciphertext and its MAC; the ECC check bits are the devices' own. -/
structure SealedLine where
  cipher : Bytes := []
  mac : BitVec 56 := 0
deriving DecidableEq, Repr

/-- What the ECC of a line's eight words finds: good, one bit corrected, or uncorrectable. -/
inductive LineEcc where
  | good
  | corrected
  | bad
deriving DecidableEq, Repr

/-- A line under a sealing key of 64 bytes: AES-256-XTS with the physical address as tweak, and the MAC over ciphertext and address; the MAC
function is open (`Config.lineMac`, log 5). -/
def sealLine (key : Bytes) (addr : Nat) (data : Bytes) : SealedLine :=
  let c := xts true key addr 64 data
  { cipher := c, mac := Config.lineMac key addr c }

/-- A read of a line: ECC first, the MAC second; nothing of a line that fails either is delivered. -/
def openLine (key : Bytes) (addr : Nat) (ecc : LineEcc) (l : SealedLine) : Option Bytes :=
  if ecc == .bad || l.mac != Config.lineMac key addr l.cipher then none else some (xts false key addr 64 l.cipher)

/-- A line of the module's sealed DRAM: none without a sealing key (R17, R469). -/
def storedLine (s : State) (addr : Nat) (data : Bytes) : Option SealedLine := s.sc.sealKey.map (fun k => sealLine k addr data)

end Sys2Proof.Machine
end

