-- ==== Sys2Proof/Machine/VccCycles.lean ====
section
/-!
DEFINITION. What an instruction of a vector cluster costs in cycles (R394, R407). No step spends time: the environment moves the clock (log 18).
-/
namespace Sys2Proof.Machine

/-! ### Widths by part (R394) -/

/-- Lane width in bits of one pass. -/
def laneBits : Part → Nat
  | .yq9 => 2048
  | .yq7 => 512
  | .yq5 => 256

/-- Tile bandwidth in bytes a cycle. -/
def tileBandwidth : Part → Nat
  | .yq9 => 256
  | .yq7 => 64
  | .yq5 => 32

/-- Elements of a gather or scatter a cycle. -/
def gatherRate : Part → Nat
  | .yq9 => 8
  | .yq7 => 4
  | .yq5 => 2

/-- NTT butterflies a cycle. -/
def butterflies : Part → Nat
  | .yq9 => 64
  | .yq7 => 16
  | .yq5 => 8

/-- GF(2^m) products and 64 by 64 carry-less products a cycle; the YQ5 has no such unit. -/
def gfRates : Part → Option (Nat × Nat)
  | .yq9 => some (128, 16)
  | .yq7 => some (32, 4)
  | .yq5 => none

/-- Bits that the mask port gives a cycle. -/
def maskPortBits : Nat := 256

/-! ### The counts of R407 -/

/-- Passes of an instruction over VL elements of width `w` (R394). -/
def passes (x : VccIn) (w : Nat) : Nat := ceilDiv (x.count w * w) (laneBits x.part)

/-- The mask products of a sharing: n(n - 1) / 2 (R404). -/
def maskPairs (n : Nat) : Nat := n * (n - 1) / 2

/-- A vector instruction; with a VL of 0 it is a no-op of one cycle (R395). -/
def vectorCost (x : VccIn) (w cost : Nat) : Nat := if x.count w == 0 then 1 else cost

/-- The count of SHAND, on which the other products of shares build. -/
def shandCost (x : VccIn) (w : Nat) : Nat := max (3 * passes x w) (ceilDiv (x.count w * w * maskPairs x.n) maskPortBits)

/-- SHREF and SHLD SPLIT. -/
def shrefCost (x : VccIn) (w : Nat) : Nat := max (x.n * passes x w) (ceilDiv (x.count w * w * (x.n - 1)) maskPortBits)

/-- A unit-stride access of VL elements. -/
def streamCost (x : VccIn) (w : Nat) : Nat := ceilDiv (x.count w * w / 8) (tileBandwidth x.part)

/-- VLD and VST by their mode (R399). -/
def memoryCost (x : VccIn) (o : MemOps) : Nat :=
  let w := ewBits o.ew
  vectorCost x w (if o.mode == 0 then streamCost x w else ceilDiv (x.count w) (gatherRate x.part))

/-- Shares of the Keccak state, an unmasked one taken as none. -/
def kecShares (x : VccIn) : Nat := if kecShared x then x.cl.regs.kec.length else 0

/-- One permutation. -/
def permCost (x : VccIn) : Nat := 12 * max 1 (kecShares x)

/-- SHA-2: plain, or on shares at the job's order. -/
def sha2Cost (plain order1 order2 : Nat) (x : VccIn) (h : HOps) : Nat := if !(bitOf h.fn 4) then plain else if x.n ≤ 2 then order1 else order2

/-- MOD: the cost of one image, or of one for each share (SHARED). -/
def modCost (x : VccIn) (h : HOps) (one : Nat) : Nat := vectorCost x 32 (if bitOf h.fn 5 then x.n * one else one)

/-- NTT. -/
def nttCost (x : VccIn) (h : HOps) : Nat :=
  let logN := h.fn % 16
  let one := ceilDiv (2 ^ logN / 2 * logN) (butterflies x.part) + 10
  if bitOf h.fn 5 then x.n * one else one

/-- A branch: two cycles where it is taken. -/
def branchCost (cond : BitVec 64 → BitVec 64 → Bool) (ra rb : Nat) (x : VccIn) : Nat :=
  if cond (gRead x.cl.regs ra) (gRead x.cl.regs rb) then 2 else 1

/-- VMUL, VMULH, VMUL.X and VPERM take two passes for one. -/
def twoPasses (x : VccIn) (o : VecOps) : Nat := vectorCost x (ewBits o.ew) (2 * passes x (ewBits o.ew))
def onePass (x : VccIn) (o : VecOps) : Nat := vectorCost x (ewBits o.ew) (passes x (ewBits o.ew))
def sharePasses (x : VccIn) (o : VecOps) : Nat := vectorCost x (ewBits o.ew) (x.n * passes x (ewBits o.ew))

/-- The cycles of an instruction where the job `x` runs it (R407). None for a row that is no instruction, for those that R407 does not count
(KEC INIT and INITS, WIN WAIT, YIELD.EXTEND, END), and for GF where the part lacks the unit. -/
def vccCycles (x : VccIn) : Instr → Option Nat
  | .add _ _ | .sub _ _ | .and_ _ _ | .or_ _ _ | .xor_ _ _ | .sll _ _ | .srl _ _ | .sra _ _ | .mul _ _ | .mulhu _ _ | .sltu _ _ | .lui _ _ _
  | .setvl _ _ _ _ | .csrr _ _ _ | .vmvx _ _ _ _ => some 1
  | .beq _ ra rb _ => some (branchCost (fun a b => a == b) ra rb x)
  | .bne _ ra rb _ => some (branchCost (fun a b => a != b) ra rb x)
  | .bltu _ ra rb _ => some (branchCost (fun a b => decide (a < b)) ra rb x)
  | .jal _ _ _ | .jr _ _ => some 2
  | .vadd _ o | .vsub _ o | .vand _ o | .vor _ o | .vxor _ o | .vsll _ o | .vsrl _ o | .vcmp _ _ o
  | .vaddX _ o | .vsubX _ o | .vandX _ o | .vorX _ o | .vxorX _ o | .vsllX _ o | .vsrlX _ o => some (onePass x o)
  | .vmul _ o | .vmulh _ o | .vmulX _ o | .slideup _ o | .slidedown _ o | .reverse _ o | .zip _ o | .unzip _ o | .broadcast _ o => some (twoPasses x o)
  | .vld _ o | .vst _ o => some (memoryCost x o)
  | .shldShares _ o | .shst _ o => some (vectorCost x (ewBits o.ew) (x.n * streamCost x (ewBits o.ew)))
  | .shldSplit _ o => some (vectorCost x (ewBits o.ew) (shrefCost x (ewBits o.ew)))
  | .shref _ o => some (vectorCost x (ewBits o.ew) (shrefCost x (ewBits o.ew)))
  | .shxor _ o | .shxorp _ o | .shandp _ o | .shadd _ o => some (sharePasses x o)
  | .shand _ o | .shsel _ o => some (vectorCost x (ewBits o.ew) (shandCost x (ewBits o.ew)))
  | .shba _ o | .shab _ o => let w := ewBits o.ew; some (vectorCost x w ((log2Up w + 2) * shandCost x w))
  | .shcmpz _ o => let w := ewBits o.ew; some (vectorCost x w ((log2Up (x.count w) + log2Up w) * shandCost x w))
  | .ntt _ h => some (nttCost x h)
  | .madd _ h | .msub _ h | .mred _ h => some (modCost x h (passes x 32))
  | .mmul _ h | .tomont _ h | .frommont _ h => some (modCost x h (2 * passes x 32 + 2))
  | .kecPerm _ => some (permCost x)
  | .kecXb _ h => some (hReg x h.b * (permCost x + ceilDiv (hReg x h.c) 32))
  | .kecXbs _ h => some (permCost x + ceilDiv (hReg x h.c) 32 * kecShares x)
  | .kecOut _ h => some (ceilDiv (hReg x h.c) 32 * kecShares x)
  | .kecX4 _ _ => some 96
  | .sha2C256 _ h => some (sha2Cost 16 48 80 x h)
  | .sha2C512 _ h => some (sha2Cost 20 60 100 x h)
  | .gfmul _ _ => (gfRates x.part).map (fun r => vectorCost x 16 (ceilDiv (x.count 16) r.1))
  | .clmul _ _ => (gfRates x.part).map (fun r => vectorCost x 64 (ceilDiv (x.count 64) r.2))
  | .svadd _ _ | .svxor _ _ | .svrot _ _ | .svmul _ _ | .svld _ _ | .svst _ _ => some 1
  | .verdictJob _ _ | .verdictCheck _ _ => some 40
  | .rand _ h => some (200 + ceilDiv (hReg x h.b) 32)
  | .winFetch _ _ _ => some 1
  | .xmov _ _ h => some (ceilDiv (hReg x h.c) 64)
  | .yield_ _ | .untag _ _ _ | .sysFault _ => some 1
  | _ => none

end Sys2Proof.Machine
end

