-- ==== Sys2Proof/WellFormed.lean ====
section
/-!
DEFINITION. Well-formed commands: every operand lies in the range that the spec gives it (register numbers of R399, functions of R119 and
R428, register accesses of R501, sensors and quadrants of R465, units of R481, the 64-byte entries of R146).
-/
namespace Sys2Proof

/-- A function number exists: VF 1 to 255, slice 0 to 4,095 (R120, R428). -/
def fnOk : Fn → Bool
  | .vf n => 1 ≤ n && n ≤ 255
  | .slice n => n < 4096
  | _ => true

/-- A register access targets a function that exists, with a width of 8, 16, 32 or 64 bits and a value that fits it (R501). -/
def accessOk (w : RegAccess) : Bool :=
  (w.width == 8 || w.width == 16 || w.width == 32 || w.width == 64) && w.value < 2 ^ w.width &&
    (match w.target with | .bar0 f => fnOk f | .bar2 f => fnOk f | .bar4 f => fnOk f | .config f _ => fnOk f)

/-- An SQ entry has 64 bytes (R146). -/
def fetchOk (f : Fetch) : Bool := match f.entry with | some e => e.length == 64 | none => true

/-- An admin entry has 64 bytes and comes from a function that exists (R170). -/
def adminOk (a : AdminIn) : Bool := fnOk a.fn && (match a.entry with | some e => e.length == 64 | none => true)

/-- An ATTEST command carries a well-formed admin entry where it is one. -/
def attestOk : AttestIn → Bool
  | .job _ => true
  | .admin a => adminOk a

/-- A slot index that a dispatch chooses lies in the table (R214). -/
def dispatchOk (d : DispatchIn) : Bool := d.slot < 16777216

/-- A command word's fields fit (R346): LEN 8 bits, registers P0 to P127. -/
def maeOk (m : MaeCmd) : Bool := m.len < 256 && m.dst < 128 && m.a < 128 && m.b < 128 && m.m < 128

/-- The fields of an S-format word fit (R399): registers, and a 15-bit signed immediate. -/
def scalarOk (o : ScalarOps) : Bool :=
  o.rd < 32 && o.rs1 < 32 && o.rs2 < 32 && (match o.imm with | some i => -16384 ≤ i && i < 16384 | none => true)

/-- The fields of a VV- or VS-format word fit (R399). -/
def vecOk (o : VecOps) : Bool := o.vd < 32 && o.vs1 < 32 && o.vs2 < 32 && o.vm < 8 && o.ew < 4

/-- A short-vector word names s0 to s15: bit 4 of each register field is 0 (R400). -/
def shortOk (o : VecOps) : Bool := o.vd < 16 && o.vs1 < 16 && o.vs2 < 16 && o.vm < 8 && o.ew < 4

/-- A share-aware word has ME = 0 and share groups at multiples of 4 (R401, R404). -/
def shareOk (o : VecOps) : Bool := vecOk o && !o.me

/-- A permutation's destination is neither of its sources (R401). -/
def permOk (o : VecOps) : Bool := vecOk o && o.vd != o.vs1 && o.vd != o.vs2

/-- The fields of an M-format word fit; MODE 3 is reserved (R399). -/
def memOk (o : MemOps) : Bool := o.vr < 32 && o.ab < 8 && o.ix < 32 && o.vm < 8 && o.ew < 4 && o.mode < 3

/-- The fields of an H-format word fit (R399). -/
def hOk (h : HOps) : Bool := h.a < 32 && h.b < 32 && h.c < 32 && h.q < 8 && h.fn < 256

/-- A register that may hold an address (R399). -/
def addrReg (r : Nat) : Bool := 24 ≤ r

/-- The registers A, B and C hold addresses, strides, counts or lengths (R399). -/
def hAddr3 (h : HOps) : Bool := hOk h && addrReg h.a && addrReg h.b && addrReg h.c

/-- A and B hold them. -/
def hAddr2 (h : HOps) : Bool := hOk h && addrReg h.a && addrReg h.b

/-- MOD with its optional SHARED form: A and B are group bases then (R404, R405). -/
def modOk (h : HOps) : Bool := hOk h && (h.fn == 0 || (h.fn == 32 && h.a % 4 == 0 && h.b % 4 == 0))

/-- A share-aware instruction on one group, and on two (R401, R404). -/
def share1Ok (o : VecOps) : Bool := shareOk o && o.vd % 4 == 0 && o.vs1 % 4 == 0
def share2Ok (o : VecOps) : Bool := share1Ok o && o.vs2 % 4 == 0

/-- SHLD: a group base and no mask (R401, R404); the SHARES forms are unit-stride only (R403). -/
def shareMemOk (o : MemOps) : Bool := memOk o && !o.me && o.vr % 4 == 0
def sharesMemOk (o : MemOps) : Bool := shareMemOk o && o.mode == 0

/-- SVLS (R403). -/
def shortMemOk (o : MemOps) : Bool := memOk o && o.vr < 16 && o.mode == 0

/-- A 16-bit signed branch offset (R399). -/
def imm16Ok (i : Int) : Bool := -32768 ≤ i && i < 32768

/-- A command is well formed. -/
def Instr.wf : Instr → Bool
  | .powerGood _ => true
  | .tokenSessionRetry _ => true
  | .startupHoldResume => true
  | .powerLoss => true
  | .pgDip _ _ => true
  | .perstAssert => true
  | .perstDeassert _ => true
  | .pwrdisAssert => true
  | .pwrdisDeassert => true
  | .auxAbsent => true
  | .latchOpen => true
  | .thermalWarn _ => true
  | .thermalWarnClear => true
  | .activityStretchEnd => true
  | .smbusOffsetWrite addr _ => addr < 128
  | .smbusFruRead _ _ => true
  | .smbusHealthRead _ _ => true
  | .healthSnapshot _ _ _ => true
  | .strapsRead _ => true
  | .transitNowLoRead _ => true
  | .ptmDialog => true
  | .ptmResponse _ => true
  | .coaxMarker _ => true
  | .coaxEdgeLoss => true
  | .ptmEnableClear => true
  | .holdoverExpired => true
  | .holdoverDriftUpdate => true
  | .catchUpEnd => true
  | .linkUp w speed => [1, 2, 4, 8, 16].contains w && [2, 5, 8, 16, 32].contains speed
  | .linkRetrain w speed => [1, 2, 4, 8, 16].contains w && [2, 5, 8, 16, 32].contains speed
  | .flrVf n => (1 ≤ n && n ≤ 255)
  | .flrPf0 => true
  | .flrPf1 => true
  | .hotReset => true
  | .secondaryBusReset => true
  | .dlDown => true
  | .functionResetComplete fn => fnOk fn
  | .d3hotEntry fn => fnOk fn
  | .d0Entry fn => fnOk fn
  | .busMasterEnableClear fn => fnOk fn
  | .memorySpaceEnableClear fn => fnOk fn
  | .vfEnable numVfs => numVfs ≤ 255
  | .vfReady n => (1 ≤ n && n ≤ 255)
  | .vfEnableClear => true
  | .atsInvalidate fn _ => fnOk fn
  | .dmaReadFailure _ => true
  | .completionTimeout _ => true
  | .msixUnmask fn _ => fnOk fn
  | .doeDiscovery _ => true
  | .doeAbort => true
  | .getVersion => true
  | .getCapabilities => true
  | .negotiateAlgorithms => true
  | .getDigests => true
  | .getCertificate _ _ => true
  | .spdmChallenge _ => true
  | .getMeasurements _ _ _ => true
  | .keyExchange _ => true
  | .finish _ _ => true
  | .endSession _ => true
  | .spdmUnsupportedRequest _ => true
  | .ideKmQuery _ => true
  | .ideKmKeyProg _ _ => true
  | .ideKmKSetGo _ _ => true
  | .ideKmKSetStop _ _ => true
  | .ideIntegrityFailure fail => fail.stream < 256
  | .sqTailDoorbell w => accessOk w
  | .cqHeadDoorbell w => accessOk w
  | .aqEnable fn _ => fnOk fn
  | .evrHead fn _ => fnOk fn
  | .evrDroppedRead fn => fnOk fn
  | .cqInterruptTimer fn q => fnOk fn && q < 65536
  | .sqFetch fn q f => fnOk fn && q < 65536 && fetchOk f
  | .jobReserve _ => true
  | .jobDispatch _ d => dispatchOk d
  | .jobPreempt _ _ d => dispatchOk d
  | .overrunToken _ => true
  | .slotRetired slot => slot < 16777216
  | .identify a => adminOk a
  | .createCq a => adminOk a
  | .createSq a => adminOk a
  | .destroySq a => adminOk a
  | .destroyCq a => adminOk a
  | .abortJob a => adminOk a
  | .getLogQueueStatus a => adminOk a
  | .getLogPoolStatus a => adminOk a
  | .setEventRing a => adminOk a
  | .monitorSnapshot a => adminOk a
  | .slotInfo a => adminOk a
  | .domainInfo a => adminOk a
  | .keyAdminErase a => adminOk a
  | .eraseDomain a => adminOk a
  | .anchorInfo a => adminOk a
  | .aumSubmit a => adminOk a
  | .dbgCertSubmit a => adminOk a
  | .quiesce a => adminOk a
  | .quiesceDrained fn => fnOk fn
  | .quiesceResume a => adminOk a
  | .saveState a => adminOk a
  | .restoreState a => adminOk a
  | .dirtyLogEnable a => adminOk a
  | .dirtyLogDisable a => adminOk a
  | .dirtyLogSync a => adminOk a
  | .sliceCreate a => adminOk a
  | .sliceReset a => adminOk a
  | .sliceDestroy a => adminOk a
  | .mlKemEncaps _ => true
  | .mlKemDecaps _ => true
  | .mlDsaSign _ => true
  | .mlDsaVerify _ => true
  | .mlDsaHashSign _ => true
  | .mlDsaHashVerify _ => true
  | .slhDsaSign _ => true
  | .slhDsaVerify _ => true
  | .slhDsaHashSign _ => true
  | .slhDsaHashVerify _ => true
  | .hssSign _ => true
  | .hssVerify _ => true
  | .prepare _ => true
  | .publicKey _ => true
  | .codeEncaps _ => true
  | .codeDecaps _ => true
  | .loadPublic _ => true
  | .seal _ => true
  | .reseal _ => true
  | .open_ _ => true
  | .rsaSign _ => true
  | .rsaVerify _ => true
  | .rsaDecrypt _ => true
  | .rsaEncrypt _ => true
  | .ecdsaSign _ => true
  | .ecdsaVerify _ => true
  | .ecdh _ => true
  | .agree _ => true
  | .edSign _ => true
  | .edVerify _ => true
  | .rawAdd _ => true
  | .rawSub _ => true
  | .rawMul _ => true
  | .rawSqr _ => true
  | .rawInv _ => true
  | .rawExp _ => true
  | .run _ => true
  | .maeAdd _ k => maeOk k
  | .maeSub _ k => maeOk k
  | .maeMul _ k => maeOk k
  | .maeSqr _ k => maeOk k
  | .maeInv _ k => maeOk k
  | .maeExp _ k => maeOk k
  | .maeEnd _ k => maeOk k
  | .cbcEncrypt _ => true
  | .cbcDecrypt _ => true
  | .ctr _ => true
  | .xtsEncrypt _ => true
  | .xtsDecrypt _ => true
  | .gcmEncrypt _ => true
  | .gcmDecrypt _ => true
  | .gmacGenerate _ => true
  | .gmacVerify _ => true
  | .gcmSivEncrypt _ => true
  | .gcmSivDecrypt _ => true
  | .ccmEncrypt _ => true
  | .ccmDecrypt _ => true
  | .kwWrap _ => true
  | .kwUnwrap _ => true
  | .kwpWrap _ => true
  | .kwpUnwrap _ => true
  | .chachaPolyEncrypt _ => true
  | .chachaPolyDecrypt _ => true
  | .ctxOpen _ => true
  | .ctxClose _ => true
  | .hash _ => true
  | .hmacGenerate _ => true
  | .hmacVerify _ => true
  | .kmacGenerate _ => true
  | .kmacVerify _ => true
  | .verifyDigest _ => true
  | .dgeCtxOpen _ => true
  | .dgeCtxClose _ => true
  | .stateExport _ => true
  | .stateImport _ => true
  | .leaf _ => true
  | .root _ => true
  | .chunkRoot _ => true
  | .verifyPath _ => true
  | .bouquet _ => true
  | .keygen _ => true
  | .derive _ => true
  | .unwrap _ => true
  | .wrap _ => true
  | .erase _ => true
  | .random _ => true
  | .attestChallenge x => attestOk x
  | .attestQuote x => attestOk x
  | .attestIdentity x => attestOk x
  | .add c o => c < 32 && scalarOk o
  | .sub c o => c < 32 && scalarOk o
  | .and_ c o => c < 32 && scalarOk o
  | .or_ c o => c < 32 && scalarOk o
  | .xor_ c o => c < 32 && scalarOk o
  | .sll c o => c < 32 && scalarOk o
  | .srl c o => c < 32 && scalarOk o
  | .sra c o => c < 32 && scalarOk o
  | .mul c o => c < 32 && scalarOk o
  | .mulhu c o => c < 32 && scalarOk o
  | .sltu c o => c < 32 && scalarOk o
  | .lui c rd imm => c < 32 && rd < 32 && (-16384 ≤ imm && imm < 16384)
  | .setvl c rd rs1 ew => c < 32 && rd < 32 && rs1 < 32 && ew < 4
  | .csrr c rd fn => c < 32 && rd < 32 && fn < 4
  | .vmvx c rd vs _ => c < 32 && rd < 32 && vs < 32
  | .vadd c o => c < 32 && vecOk o
  | .vsub c o => c < 32 && vecOk o
  | .vand c o => c < 32 && vecOk o
  | .vor c o => c < 32 && vecOk o
  | .vxor c o => c < 32 && vecOk o
  | .vsll c o => c < 32 && vecOk o
  | .vsrl c o => c < 32 && vecOk o
  | .vmul c o => c < 32 && vecOk o
  | .vmulh c o => c < 32 && vecOk o
  | .vcmp c rel o => c < 32 && rel < 3 && vecOk o
  | .slideup c o => c < 32 && permOk o
  | .slidedown c o => c < 32 && permOk o
  | .reverse c o => c < 32 && permOk o
  | .zip c o => c < 32 && permOk o
  | .unzip c o => c < 32 && permOk o
  | .broadcast c o => c < 32 && permOk o
  | .shxor c o => c < 32 && share2Ok o
  | .shand c o => c < 32 && share2Ok o
  | .shxorp c o => c < 32 && share1Ok o
  | .shandp c o => c < 32 && share1Ok o
  | .shadd c o => c < 32 && share2Ok o
  | .shref c o => c < 32 && share1Ok o
  | .shba c o => c < 32 && share1Ok o
  | .shab c o => c < 32 && share1Ok o
  | .shsel c o => c < 32 && share2Ok o
  | .shcmpz c o => c < 32 && share1Ok o
  | .svadd c o => c < 32 && shortOk o
  | .svxor c o => c < 32 && shortOk o
  | .svrot c o => c < 32 && shortOk o
  | .svmul c o => c < 32 && shortOk o
  | .vaddX c o => c < 32 && vecOk o
  | .vsubX c o => c < 32 && vecOk o
  | .vandX c o => c < 32 && vecOk o
  | .vorX c o => c < 32 && vecOk o
  | .vxorX c o => c < 32 && vecOk o
  | .vsllX c o => c < 32 && vecOk o
  | .vsrlX c o => c < 32 && vecOk o
  | .vmulX c o => c < 32 && vecOk o
  | .vld c o => c < 32 && memOk o
  | .vst c o => c < 32 && memOk o
  | .shldSplit c o => c < 32 && shareMemOk o
  | .shldShares c o => c < 32 && sharesMemOk o
  | .shst c o => c < 32 && sharesMemOk o
  | .svld c o => c < 32 && shortMemOk o
  | .svst c o => c < 32 && shortMemOk o
  | .winFetch c src h => c < 32 && src < 3 && hAddr3 h
  | .winFetchComplete c _ => c < 32
  | .winWait c => c < 32
  | .xmov c peer h => c < 32 && peer < 4 && hAddr3 h
  | .rand c h => c < 32 && hAddr2 h
  | .ntt c h => c < 32 && (hAddr3 h && h.fn < 64 && 3 ≤ h.fn % 16 && h.fn % 16 ≤ 10)
  | .madd c h => c < 32 && modOk h
  | .msub c h => c < 32 && modOk h
  | .mmul c h => c < 32 && modOk h
  | .mred c h => c < 32 && (hOk h && h.fn == 0)
  | .tomont c h => c < 32 && (hOk h && h.fn == 0)
  | .frommont c h => c < 32 && (hOk h && h.fn == 0)
  | .kecInit c => c < 32
  | .kecInits c => c < 32
  | .kecXb c h => c < 32 && hAddr3 h
  | .kecXbs c h => c < 32 && hAddr3 h
  | .kecPerm c => c < 32
  | .kecOut c h => c < 32 && hAddr3 h
  | .kecX4 c h => c < 32 && (hOk h && addrReg h.a)
  | .sha2C256 c h => c < 32 && (hAddr2 h && (h.fn == 0 || h.fn == 16))
  | .sha2C512 c h => c < 32 && (hAddr2 h && (h.fn == 0 || h.fn == 16))
  | .gfmul c h => c < 32 && hOk h
  | .clmul c h => c < 32 && hOk h
  | .verdictJob c h => c < 32 && hAddr3 h
  | .verdictCheck c h => c < 32 && hAddr3 h
  | .beq c ra rb imm => c < 32 && ra < 32 && rb < 32 && imm16Ok imm
  | .bne c ra rb imm => c < 32 && ra < 32 && rb < 32 && imm16Ok imm
  | .bltu c ra rb imm => c < 32 && ra < 32 && rb < 32 && imm16Ok imm
  | .jal c ra imm => c < 32 && (ra < 32 && addrReg ra) && imm16Ok imm
  | .jr c ra => c < 32 && ra < 32
  | .yield_ c => c < 32
  | .yieldExtend c => c < 32
  | .sysFault c => c < 32
  | .untag c ra file => c < 32 && ra < 32 && file < 4
  | .end_ c _ _ _ => c < 32
  | .watchdog c => c < 32
  | .tileReload c _ => c < 32
  | .reservationCommit domain _ => domain < 65536
  | .tokenSessionEnd => true
  | .tokenLifeRefresh => true
  | .almanacCommit => true
  | .coalesceWindowClose kind _ => kind < 65536
  | .hourTick => true
  | .almCursorWrite _ => true
  | .almWindow15Read => true
  | .almWindowLoad => true
  | .almStatusRead => true
  | .almClear _ => true
  | .almanacCleared => true
  | .lcsAdvanceIntegrator _ => true
  | .lcsAdvanceFielded _ => true
  | .lcsAdvanceReturned _ => true
  | .lcsAdvanceScrapped _ => true
  | .lcsTransition => true
  | .dbgRightsWrite _ => true
  | .dbgStepArm _ => true
  | .dbgStep => true
  | .dbgStepRun => true
  | .tamperAlarm sensor quadrant _ => sensor < 16 && quadrant < 4
  | .sealingKeyDestroy => true
  | .destroyZeroizeEnd => true
  | .tamperHoldEnd sensor quadrant => sensor < 16 && quadrant < 4
  | .tamperAckSensor _ => true
  | .tamperAckSleepLatch _ => true
  | .faultAck _ => true
  | .hang unit => unit < 65536
  | .entropy source _ => source < 4
  | .lockstep _ => true
  | .maskReseed unit => unit < 65536
  | .ddpStart fn alg => fnOk fn && alg < 256
  | .ddpRelease fn => fnOk fn
  | .ddpData fn w => fnOk fn && accessOk w
  | .ddpLastWord fn w => fnOk fn && accessOk w
  | .ddpLastLength fn _ => fnOk fn
  | .ddpDone fn _ => fnOk fn
  | .outSend fn => fnOk fn
  | .inAck fn => fnOk fn
  | .inSend => true
  | .outAck => true
  | .registerWrite w => accessOk w
  | .dramChannelLinkFailure chan => chan < 8
  | .coaxMarkerMissing => true
  | .tamperConditionClear sensor quadrant => sensor < 16 && quadrant < 4
  | .auxiliaryPowerOn => true
  | .auxiliaryPowerLoss => true
  | .traceFrameSent => true
  | .mailboxDataWrite w => accessOk w

end Sys2Proof
end

