-- ==== Sys2Proof/Tests/Slice0.lean ====
section
/-!
SUPPORT. Tests: an ill-formed command for each check of WellFormed, which the check refuses; worked values from the spec; and, for every
statement with hypotheses, a small state and operands that meet them, clause by clause, at the ends of their ranges.
-/
namespace Sys2Proof.Tests
set_option Elab.async false -- as in Laws
open Sys2Proof Sys2Proof.Machine

/-! ### Ill-formed commands -/

theorem test_wf_refuses_vf_0_and_256 : (Instr.flrVf 0).wf = false ∧ (Instr.vfReady 256).wf = false ∧ (Instr.d0Entry (.vf 256)).wf = false := by decide
theorem test_wf_refuses_slice_4096 : (Instr.quiesceDrained (.slice 4096)).wf = false := by decide
theorem test_wf_refuses_access_width : (Instr.registerWrite { width := 24 }).wf = false := by decide
theorem test_wf_refuses_access_value : (Instr.sqTailDoorbell { width := 32, value := 4294967296 }).wf = false := by decide
theorem test_wf_refuses_access_target : (Instr.mailboxDataWrite { target := .bar0 (.vf 0) }).wf = false := by decide
theorem test_wf_refuses_short_entry : (Instr.sqFetch .pf0 0 { entry := some [0] }).wf = false := by decide
theorem test_wf_refuses_fetch_queue : (Instr.sqFetch .pf0 65536 {}).wf = false ∧ (Instr.cqInterruptTimer .pf0 65536).wf = false := by decide
theorem test_wf_refuses_admin_entry : (Instr.identify { entry := some [1] }).wf = false ∧ (Instr.aumSubmit { fn := .slice 4096 }).wf = false := by decide
theorem test_wf_refuses_attest_entry : (Instr.attestQuote (.admin { entry := some [] })).wf = false := by decide
theorem test_wf_refuses_dispatch_slot : (Instr.jobDispatch 0 { slot := 16777216 }).wf = false ∧ (Instr.slotRetired 16777216).wf = false := by decide
theorem test_wf_refuses_engine_word : (Instr.maeAdd 0 { dst := 128 }).wf = false ∧ (Instr.maeEnd 0 { len := 256 }).wf = false := by decide
theorem test_wf_refuses_scalar_register : (Instr.add 0 { rd := 32 }).wf = false := by decide
theorem test_wf_refuses_scalar_immediate : (Instr.sltu 0 { imm := some 16384 }).wf = false ∧ (Instr.sltu 0 { imm := some (-16385) }).wf = false := by decide
theorem test_wf_refuses_cluster : (Instr.yield_ 32).wf = false := by decide
theorem test_wf_refuses_lui_immediate : (Instr.lui 0 1 16384).wf = false := by decide
theorem test_wf_refuses_setvl_width : (Instr.setvl 0 1 2 4).wf = false := by decide
theorem test_wf_refuses_csrr_selector : (Instr.csrr 0 1 4).wf = false := by decide
theorem test_wf_refuses_vector_mask : (Instr.vadd 0 { vm := 8 }).wf = false ∧ (Instr.vmvx 0 1 32 0).wf = false := by decide
theorem test_wf_refuses_vcmp_relation : (Instr.vcmp 0 3 {}).wf = false := by decide
theorem test_wf_refuses_short_vector_s16 : (Instr.svadd 0 { vd := 16 }).wf = false := by decide
theorem test_wf_refuses_masked_share : (Instr.shxor 0 { me := true }).wf = false := by decide
theorem test_wf_refuses_share_group : (Instr.shref 0 { vd := 2 }).wf = false ∧ (Instr.shand 0 { vs2 := 1 }).wf = false := by decide
theorem test_wf_refuses_permutation_in_place : (Instr.reverse 0 { vd := 3, vs1 := 3, vs2 := 4 }).wf = false := by decide
theorem test_wf_refuses_memory_mode : (Instr.vld 0 { mode := 3 }).wf = false := by decide
theorem test_wf_refuses_strided_shares : (Instr.shldShares 0 { mode := 1 }).wf = false ∧ (Instr.shldSplit 0 { vr := 1 }).wf = false := by decide
theorem test_wf_refuses_short_memory : (Instr.svld 0 { vr := 16 }).wf = false := by decide
theorem test_wf_refuses_special_address : (Instr.kecOut 0 { a := 23, b := 24, c := 24 }).wf = false ∧ (Instr.rand 0 { a := 24, b := 0 }).wf = false := by decide
theorem test_wf_refuses_gf2_field : (Instr.gfmul 0 { q := 8 }).wf = false := by decide
theorem test_wf_refuses_window_source : (Instr.winFetch 0 3 { a := 24, b := 24, c := 24 }).wf = false := by decide
theorem test_wf_refuses_xmov_peer : (Instr.xmov 0 4 { a := 24, b := 24, c := 24 }).wf = false := by decide
theorem test_wf_refuses_ntt_size : (Instr.ntt 0 { a := 24, b := 24, c := 24, fn := 2 }).wf = false ∧ (Instr.ntt 0 { a := 24, b := 24, c := 24, fn := 11 }).wf = false := by decide
theorem test_wf_refuses_modular_form : (Instr.madd 0 { fn := 1 }).wf = false ∧ (Instr.mmul 0 { a := 1, fn := 32 }).wf = false ∧ (Instr.mred 0 { fn := 32 }).wf = false := by decide
theorem test_wf_refuses_sha2_form : (Instr.sha2C256 0 { a := 24, b := 24, fn := 1 }).wf = false := by decide
theorem test_wf_refuses_branch_offset : (Instr.beq 0 1 2 32768).wf = false ∧ (Instr.bne 0 1 2 (-32769)).wf = false := by decide
theorem test_wf_refuses_jal_register : (Instr.jal 0 23 0).wf = false := by decide
theorem test_wf_refuses_untag_file : (Instr.untag 0 1 4).wf = false := by decide
theorem test_wf_refuses_link_width : (Instr.linkUp 32 32).wf = false ∧ (Instr.linkRetrain 16 3).wf = false := by decide
theorem test_wf_refuses_smbus_address : (Instr.smbusOffsetWrite 128 0).wf = false := by decide
theorem test_wf_refuses_num_vfs : (Instr.vfEnable 256).wf = false := by decide
theorem test_wf_refuses_stream : (Instr.ideIntegrityFailure { stream := 256 }).wf = false := by decide
theorem test_wf_refuses_domain : (Instr.reservationCommit 65536 0).wf = false := by decide
theorem test_wf_refuses_kind : (Instr.coalesceWindowClose 65536 0).wf = false := by decide
theorem test_wf_refuses_sensor : (Instr.tamperAlarm 16 0 0).wf = false ∧ (Instr.tamperHoldEnd 0 4).wf = false ∧ (Instr.tamperConditionClear 16 0).wf = false := by decide
theorem test_wf_refuses_unit : (Instr.hang 65536).wf = false ∧ (Instr.maskReseed 65536).wf = false := by decide
theorem test_wf_refuses_noise_source : (Instr.entropy 4 0).wf = false := by decide
theorem test_wf_refuses_digest_algorithm : (Instr.ddpStart .pf0 256).wf = false := by decide
theorem test_wf_refuses_channel : (Instr.dramChannelLinkFailure 8).wf = false := by decide
theorem test_wf_accepts_each_kind : (Instr.flrVf 255).wf = true ∧ (Instr.registerWrite { width := 64 }).wf = true ∧ (Instr.beq 31 31 31 (-32768)).wf = true ∧
    (Instr.mmul 0 { a := 4, b := 8, fn := 32 }).wf = true ∧ (Instr.ntt 0 { a := 24, b := 25, c := 26, fn := 42 }).wf = true := by decide

/-! ### Small states -/

/-- A function that is READY with its BARs open and DMA allowed. -/
def page (f : Fn) : FnState := { fn := f, ready := true, busMaster := true, memSpace := true }
/-- A configured module in VF mode with one VF, its link up, and a FULL session. -/
def live : State := { State.reset with
  pwr := { pg := true, main := true, aux := true, auxPowered := true, perst := false, perstSeen := true }
  boot := { done := true, step := 15 }
  link := { up := true, width := 16, speed := 32, full := 16, vfEnable := true, numVfs := 1 }
  eph := { configured := true, cfg := { slice := some false } }
  fns := [page .pf0, page .pf1, page (.vf 1)]
  tok := { present := true, latchClosed := true, session := .full, keysLoaded := true, socket := some {} }
  sc := { drbgOn := true, sealKey := some [], wrapKey := some [] } }
/-- The module with its connector as given. -/
def livePwr (f : Power → Power) : State := { live with pwr := f live.pwr }
/-- The module with its Meridian as given. -/
def liveMer (m : Meridian) : State := { live with mer := m }
/-- Bytes from pairs of position and value. -/
def bytesOf (n : Nat) (l : List (Nat × Nat)) : Bytes := (List.range n).map (fun i => byteOf (((l.find? (fun p => p.1 == i)).map (fun p => p.2)).getD 0))

/-! ### Witnesses: power, the connector, SMBus -/

theorem witness_MainPowerComesAndGoes :
    (let s : State := { State.reset with pwr := { State.reset.pwr with auxPowered := true } }
     s.pwr.pg = false ∧ s.pwr.pwrdis = false ∧ s.pwr.auxPowered = true) ∧
    (live.pwr.pg = true ∧ live.pwr.main = true) ∧ (livePwr (fun p => { p with pg := false, pwrdis := true })).pwr.pwrdis = true ∧
    (livePwr (fun p => { p with pg := false })).pwr.pg = false := by decide +kernel

theorem witness_PerstAndStartUp :
    ((livePwr (fun p => { p with perst := true, perstSeen := false })).pwr.perstSeen = false) ∧ (live.pwr.pg = true ∧ live.pwr.perst = false) ∧
    ((livePwr (fun p => { p with perst := true })).pwr.perst = true ∧ live.pwr.perstSeen = true) ∧
    (let s : State := { live with clk := 1700000000, boot := { waiting := true, attempt := 5, retryAt := 100000000 } }
     s.boot.waiting = true ∧ s.boot.hold = false ∧ s.boot.retryAt + retryDelay s.boot.attempt = s.clk) ∧
    (let s : State := { live with clk := 1699999999, boot := { waiting := true, attempt := 5, retryAt := 100000000 } }
     s.clk < s.boot.retryAt + retryDelay s.boot.attempt) ∧
    (let s : State := { live with boot := { hold := true } }
     s.boot.hold = true ∧ s.tam.conds = []) := by decide +kernel

theorem witness_DipsAndAuxiliaryRail :
    (live.pwr.pg = true ∧ 10800 ≤ 10800 ∧ 11039 < 11040) ∧ (live.pwr.pg = true ∧ 9999 < 10000 ∧ 50 ≤ 50 ∧ 20000 ≤ 20000) ∧
    (live.pwr.main = true ∧ live.pwr.auxNoted = false) ∧ ((livePwr (fun p => { p with auxNoted := true })).pwr.auxNoted = true) ∧
    (State.reset.pwr.pg = false ∧ State.reset.pwr.main = false) ∧ State.reset.pwr.auxPowered = false ∧ live.pwr.auxPowered = true := by decide +kernel

theorem witness_SupervisionRows :
    (live.pwr.pg = true ∧ (100 : Int) ≤ 100 ∧ live.pwr.thermWarn = false) ∧ (livePwr (fun p => { p with thermWarn := true })).pwr.thermWarn = true ∧
    (let s : State := { livePwr (fun p => { p with activity := true, activityAt := 5 }) with clk := 20000005, jobs := [{ id := 1 }] }
     s.pwr.activity = true ∧ (∀ j ∈ s.jobs, j.dispatched = false) ∧ s.pwr.activityAt + 20000000 = s.clk) ∧
    (∃ j ∈ ({ live with jobs := [{ id := 1, dispatched := true }] } : State).jobs, j.dispatched = true) ∧ 19999999 < live.pwr.activityAt + 20000000 ∧
    (barOpen live .pf0 = true ∧ (live.fnOf .pf0).resetting = false ∧ (0x10 : Byte) ≠ live.pwr.straps ∧ live.pwr.strapNoted = false) ∧
    (livePwr (fun p => { p with strapNoted := true })).pwr.strapNoted = true ∧
    (live.pwr.pg = true ∧ live.tok.latchClosed = true ∧ anySession live = true) := by decide +kernel

theorem witness_SmbusRows : live.pwr.auxPowered = true ∧ live.pwr.pg = true ∧ 0x52 ≠ 0x53 ∧ 0x52 ≠ 0x3A ∧ healthDue live = true ∧
    healthDue { livePwr (fun p => { p with healthAt := some 1 }) with clk := 100000001 } = true ∧
    healthDue { livePwr (fun p => { p with healthAt := some 1 }) with clk := 100000000 } = false := by decide +kernel

theorem witness_HealthBlockWithMainPowerOff :
    live.pwr.pg = true ∧
    (let s : State := { State.reset with pwr := { State.reset.pwr with aux := true, auxPowered := true } }
     s.pwr.auxPowered = true ∧ s.pwr.pg = false ∧ healthDue s = true ∧ s.pwr.smbOffHealth = 0) ∧
    (let s : State := { State.reset with pwr := { State.reset.pwr with
       auxPowered := true, healthAt := some 0, health := [0x01, 0x00, 0x00, 0x80, 0x80, 0x00, 0x00, 0xFF, 0x00] ++ zeros 23 } }
     s.pwr.pg = false ∧ healthDue s = false ∧ s.pwr.health.take 9 = [0x01, 0x00, 0x00, 0x80, 0x80, 0x00, 0x00, 0xFF, 0x00]) := by decide +kernel

/-! ### Witnesses: the Meridian -/

theorem witness_MeridianTime :
    (barOpen live .pf0 = true ∧ (live.fnOf .pf0).resetting = false) ∧ (liveMer { st := .freeRun }).mer.st = .freeRun ∧
    (let s : State := { liveMer { st := .holdover, holdoverS := 1, lossAt := 7 } with clk := 1000000007 }
     s.mer.st = .holdover ∧ 0 < s.mer.holdoverS ∧ s.mer.lossAt + s.mer.holdoverS * 1000000000 = s.clk) ∧ live.mer.holdoverS = 0 ∧
    (let m := (liveMer { slewing := true }).mer; m.slewing = true ∧ m.slewLeft = 0) ∧
    (let s := liveMer { running := true, slewing := true, slewLeft := 1 }
     s.pending = [] ∧ s.mer.running = true ∧ s.mer.slewing = true ∧ 0 < s.mer.slewLeft ∧ s.mer.slewHalf = false) ∧
    ((liveMer { running := true }).mer.running = true ∧ (liveMer { running := true }).mer.slewing = false ∧ (liveMer { running := true }).pending = [] ∧
      (liveMer { running := true }).tam.sessionOver = false) := by decide +kernel

theorem witness_ReferencesLockAndAreLost :
    (let s : State := { liveMer { running := true, source := 0, ptmEnable := true } with clk := 10000000 }
     s.mer.running = true ∧ s.mer.source = 0 ∧ s.mer.ptmEnable = true ∧ s.link.up = true ∧ s.mer.dialogOpen = false ∧
     s.mer.dialogAt + s.mer.dialogMs * 1000000 = s.clk) ∧ live.mer.source ≠ 0 ∧
    (let m := (liveMer { source := 0, dialogOpen := true, good := 3 }).mer
     m.dialogOpen = true ∧ m.source = 0 ∧ m.st ≠ .locked ∧ m.good = 3 ∧ (-200 : Int).natAbs ≤ 200) ∧
    (let m := (liveMer { source := 0, st := .locked, dialogOpen := true, bad := 2, ptmEnable := true }).mer
     m.dialogOpen = true ∧ m.source = 0 ∧ m.st = .locked ∧ m.bad = 2 ∧ m.ptmEnable = true) ∧
    (let s := liveMer { running := true, source := 1, good := 2 }
     onCoax s = true ∧ s.mer.st = .acquiring ∧ s.mer.good = 2 ∧ 9999950 ≤ 9999950 ∧ 10000050 ≤ 10000050) ∧
    (let s := liveMer { running := true, source := 1, st := .locked }
     onCoax s = true ∧ s.mer.st = .locked ∧ s.mer.markerMiss = 0) ∧
    (let s := liveMer { running := true, source := 1, st := .locked, markerMiss := 1 }
     onCoax s = true ∧ s.mer.st = .locked ∧ s.mer.markerMiss = 1 ∧ s.mer.markerEdges = 0 ∧ 19999900 ≤ 19999900 ∧ 20000100 ≤ 20000100) ∧ onCoax live = false := by decide +kernel

/-! ### Witnesses: the link, functions, resets -/

theorem witness_LinkComesUpAndRetrains :
    (let s : State := { live with link := {} }
     s.pwr.pg = true ∧ s.pwr.perst = false ∧ s.link.up = false ∧ bitsOf s.pwr.straps.toNat 4 2 = 0 ∧ min 32 (min (Config.lanes s.part) 16) = 16) ∧
    (bitsOf (0x10#8).toNat 4 2 = 1 ∧ bitsOf (0x20#8).toNat 4 2 = 2 ∧ bitsOf (0x30#8).toNat 4 2 = 3) ∧
    ({ livePwr (fun p => { p with straps := 0x30 }) with link := {} } : State).link.up = false ∧
    State.reset.pwr.perst = true ∧ live.link.up = true ∧
    (min 8 live.link.full = 8 ∧ 8 < live.link.width ∧ ¬(8 = live.link.full)) ∧ (min 16 live.link.full = 16 ∧ 16 < live.link.speed ∧ ¬(live.link.width < live.link.full)) ∧
    (let s : State := { live with link := { live.link with width := 8 } }
     s.link.up = true ∧ ¬(16 < s.link.width ∨ 32 < s.link.speed) ∧ 16 = s.link.full ∧ s.link.width < s.link.full ∧ 16 < s.link.speed) ∧
    (¬(16 < live.link.width ∨ 32 < live.link.speed) ∧ ¬(live.link.width < live.link.full)) := by decide +kernel

theorem witness_ResetsAndPowerStates :
    (live.fn? .pf0 = some (page .pf0) ∧ live.waits = [] ∧ (page .pf0).mbx.inPend = false) ∧
    (live.fn? (.vf 1) = some (page (.vf 1)) ∧ (page (.vf 1)).resetting = false ∧ (page (.vf 1)).d3 = false ∧ routed live (.vf 1) = true ∧ vfLives live 1 = true) ∧
    (let x : FnState := { page (.vf 1) with resetting := true }
     ({ live with fns := [page .pf0, x] } : State).fn? (.vf 1) = some x ∧ x.resetting = true) ∧
    (routed live (.vf 255) = false ∧ routed { live with link := { live.link with lastBus := 1 } } (.vf 255) = true) ∧
    (live.link.up = true ∧ (live.fnOf .pf0).resetting = false ∧ live.fn? .pf0 = some (page .pf0) ∧ (page .pf0).d3 = false) ∧
    ((live.fnOf .pf1).resetting = false ∧ live.fn? .pf1 = some (page .pf1) ∧ (page .pf1).d3 = false) ∧
    (let s : State := { live with fns := [{ page .pf0 with resetting := true }, { page .pf1 with resetting := true }] }
     (s.fnOf .pf0).resetting = true ∧ (s.fnOf .pf1).resetting = true) ∧ State.reset.link.up = false ∧
    (let x : FnState := { page .pf0 with d3 := true, resetting := true }
     let s : State := { live with fns := [x] }
     s.fn? .pf0 = some x ∧ x.d3 = true ∧ x.resetting = true ∧ routed s .pf0 = true ∧ s.waits = []) ∧
    (let x : FnState := { page (.slice 4095) with resetting := true }
     let s : State := { live with fns := [page .pf1, x] }
     s.fn? (.slice 4095) = some x ∧ x.resetting = true ∧ (s.fnOf .pf1).resetting = false) := by decide +kernel

theorem witness_EnableBitsOfFunctions :
    (let j : Job := { id := 1, fn := .vf 1, sq := 3, cq := 4 }
     let x : Sq := { fn := .vf 1, id := 3, cq := 4 }
     let c : Cq := { fn := .vf 1, id := 4 }
     let s : State := { live with jobs := [{ j with id := 2, fn := .pf0 }, j], sqs := [x], cqs := [c] }
     (s.fnOf (.vf 1)).busMaster = true ∧ s.waits = [] ∧ (∀ j ∈ s.jobs, (s.fn? j.fn).isSome = true) ∧ j ∈ s.jobs ∧ carrier j.fn = .vf 1 ∧ s.sq? j.fn j.sq = some x ∧ x.st ≠ .error ∧
     s.cq? (.vf 1) 4 = some c ∧ carrier .pf0 ≠ .vf 1 ∧ (∀ k ∈ s.jobs, k.id = 2 → k = { j with id := 2, fn := .pf0 })) ∧
    ((live.fnOf .pf0).busMaster = true ∧ (∀ j ∈ live.jobs, carrier j.fn ≠ .pf0) ∧ carrier .pf0 = .pf0) ∧
    (let s : State := { live with link := { up := true } }
     s.link.up = true ∧ s.link.vfEnable = false ∧ 0 ≤ 255 ∧ 255 ≤ 255) ∧
    ({ live with fns := [{ page .pf1 with busMaster := false }] } : State).fnOf .pf1 = { page .pf1 with busMaster := false } ∧
    (live.fn? (.vf 1) = some (page (.vf 1)) ∧ (page (.vf 1)).resetting = false ∧ (page (.vf 1)).d3 = false ∧ mayServe live (.vf 1) = true ∧ (live.fnOf .pf0).ready = true) := by decide +kernel

/-! ### Witnesses: DMA, messages, DOE -/

/-- A job of PF0 of opcode `op` with the descriptor bytes given beside it. -/
def jobOf (op : Nat) (d : List (Nat × Nat)) (ph : Phase) : Job :=
  { id := 1, desc := bytesOf 64 ([(0, op % 256), (1, op / 256)] ++ d), phase := ph, sq := 3, cq := 4 }
/-- The module with these jobs, an SQ and a CQ of PF0, of two entries each. -/
def withJobs (js : List Job) : State := { live with
  jobs := js
  nextJob := 9
  sqs := [{ id := 3, cq := 4, arrivals := [0], tail := 1 }]
  cqs := [{ id := 4, credits := 2 }] }
/-- PF0 changed. -/
def withFn (x : FnState) : State := { live with fns := [x, page .pf1] }

theorem witness_DmaFailuresAndMessages :
    (let j := jobOf 0x2301 [] .running
     (withJobs [j]).job? 1 = some j ∧ j.phase = .running ∧ j.pastEnd = false ∧ j.failed = none ∧ ((withJobs [j]).fnOf (governor j.fn)).cfg.noTimeout = false ∧
     DmaFail.denied ≠ .poisoned) ∧
    (let j := jobOf 0x2301 [] .running
     let s : State := { withJobs [j] with fns := [{ page .pf0 with cfg := { noTimeout := true } }] }
     s.job? 1 = some j ∧ (s.fnOf (governor j.fn)).cfg.noTimeout = true) ∧
    (let s := withJobs []
     let x : Sq := { id := 3, cq := 4, arrivals := [0], tail := 1 }
     let c : Cq := { id := 4, credits := 2 }
     s.sq? .pf0 3 = some x ∧ x.st = .enabled ∧ x.arrivals ≠ [] ∧ mayDma s .pf0 = true ∧ s.cq? .pf0 4 = some c ∧ c.st = .enabled ∧ x.cq = 4 ∧ 3 ≠ 0xFFFF) ∧
    (let x : FnState := { page .pf0 with evr := { present := true } }
     (withFn x).fn? .pf0 = some x ∧ x.evr.present = true) ∧
    (let x : FnState := { page .pf0 with dirty := { enabled := true } }
     (withFn x).fn? .pf0 = some x ∧ x.dirty.enabled = true) ∧
    ((withFn { page .pf0 with memSpace := false }).fn? .pf0 = some { page .pf0 with memSpace := false } ∧ pageOpen (withFn { page .pf0 with memSpace := false }) .pf0 = false) ∧
    (live.link.up = true ∧ live.fn? .pf0 = some (page .pf0) ∧ routed live .pf0 = true ∧ pageOpen live .pf0 = true ∧ (page .pf0).msixEnable = false ∧ (page .pf0).unmasked.contains 2047 = false) ∧
    (let x : FnState := { page .pf0 with msixEnable := true, pba := [2047] }
     (withFn x).fn? .pf0 = some x ∧ pageOpen (withFn x) .pf0 = true ∧ x.msixEnable = true ∧ x.fnMask = false ∧ x.unmasked.contains 2047 = false ∧ x.pba = [2047]) := by decide +kernel

theorem witness_MailboxAndCertificates :
    (doeOpen live = true ∧ live.doe.error = false ∧ live.doe.mailbox = [] ∧ ([] : Bytes).length ≤ 16376 ∧ live.doe.version = false ∧ live.doe.caps = false) ∧
    (let s : State := { live with doe := { version := true, caps := true, algs := true } }
     doeOpen s = true ∧ s.doe.error = false ∧ s.doe.version = true ∧ s.doe.caps = true ∧ s.doe.algs = true ∧ s.sc.certBank = false ∧ 0 < 6 ∧
     5 < 6 ∧ ([] : Bytes).length ≤ 16371) ∧
    (let s : State := { live with doe := { algs := true }, sc := { certBank := true } }
     doeOpen s = true ∧ s.doe.error = false ∧ s.doe.algs = true ∧ s.sc.certBank = true) ∧
    (let s : State := { live with doe := { error := true } }
     doeOpen s = true ∧ s.doe.error = true) ∧ doeOpen State.reset = false := by decide +kernel

/-- Data objects at the limit and just above it. -/
theorem witness_MailboxAndCertificates_limit : (List.replicate 16376 (0 : Byte)).length ≤ 16376 ∧ 16376 < (List.replicate 16377 (0 : Byte)).length ∧
    ({ live with doe := { mailbox := List.replicate 16377 0 } } : State).doe.error = false := by
  refine ⟨?_, ?_, rfl⟩ <;> rw [List.length_replicate] <;> decide

/-- The base point of P-384, as FIPS 186-5's curve gives it: a KEY_EXCHANGE on slot 0 that carries it. -/
def exchangeReq : Bytes := zeros 40 ++ beBytes 48 0xAA87CA22BE8B05378EB1C71EF320AD746E1D3B628BA79B9859F741E082542A385502F25DBF55296C3A545E3872760AB7 ++
  beBytes 48 0x3617DE4A96262C6F5D9E98BF9292DC29F8F41DBD289A147CE9DA3113B5F0B8C00A60B1CE1D7E819D7A431D7C90EA0E5F

theorem witness_SessionsAndIdeStreams_agree : (spdmAgree (exchangeData exchangeReq) live).isSome = true ∧
    byteAt exchangeReq 3 = 0 ∧ exchangeReq.length = 136 ∧ spdmAgree (exchangeData (zeros 40)) live = none := by
  refine ⟨by decide +kernel, by decide +kernel, by decide +kernel, by decide +kernel⟩

theorem witness_SessionsAndIdeStreams :
    (let s : State := { live with doe := { algs := true }, sc := { certBank := true } }
     doeOpen s = true ∧ s.doe.error = false ∧ s.doe.algs = true ∧ s.sc.certBank = true ∧ s.doe.sessions = []) ∧
    (let s : State := { live with doe := { algs := true, sessions := [(0, true), (1, false)] }, sc := { certBank := true } }
     doeOpen s = true ∧ s.doe.algs = true ∧ s.sc.certBank = true ∧ s.doe.sessions = [(0, true), (1, false)] ∧ s.doe.sessions.contains (1, false) = true ∧
     s.doe.sessions.contains (0, true) = true ∧ s.doe.sessions.contains (1, true) = false ∧ s.doe.mailbox = [] ∧ 1 ≤ 1 ∧ 2 ≤ 2 ∧ 255 ≤ 255 ∧ s.doe.streams = []) ∧
    ((zeros 32).length = 32 ∧ (zeros 8).length = 8 ∧ (zeros 31).length ≠ 32) ∧
    (let x : IdeStream := { id := 255, secure := true, keys := [(1, 2, true)], active := [(1, 2, true)] }
     let s : State := { live with doe := { sessions := [(0, true)], streams := [x] } }
     doeOpen s = true ∧ s.doe.error = false ∧ s.doe.mailbox = [] ∧ s.doe.sessions.contains (0, true) = true ∧ s.doe.streams = [x] ∧ x.id = 255 ∧ x.secure = true ∧ x.keys.contains (1, 2, true) = true ∧ x.active.contains (1, 2, true) = true) := by
  decide +kernel

/-- A record that is too short to open. -/
theorem witness_SessionsAndIdeStreams_record :
    let s : State := { live with doe := { sessions := [(0, true)], mailbox := [0] } }
    doeOpen s = true ∧ s.doe.error = false ∧ s.doe.sessions.contains (0, true) = true ∧ s.doe.mailbox ≠ [] ∧ openRequest (secretsOf s 0) s.doe.mailbox = none := by decide +kernel

/-- The MAC that is due is short enough for a FINISH, and the empty one is not it. -/
theorem witness_SessionsAndIdeStreams_finish : (finishMac live 0).length = 48 ∧ ([] : Bytes) ≠ finishMac live 0 := by decide +kernel

/-! ### Witnesses: rings, queues, the Orrery -/

theorem witness_RingOccupancyIsModular :
    (0 < 1 ∧ 65536 ≤ 65536) ∧ (0 < 65536 ∧ 65535 < 131072 ∧ 131071 < 131072 ∧ 65535 % 65536 < 65536 ∧ 131071 % 65536 < 65536 ∧
      65535 % 65536 = 131071 % 65536 ∧ 65535 / 65536 ≠ 131071 / 65536) ∧ (0 % 65536 < 1 ∧ 65536 % 65536 < 1) := by decide

/-- A doorbell write to pair 3 of PF0: the SQ tail, or the CQ head of pair 4. -/
def tailWrite (v : Nat) : RegAccess := { target := .bar2 .pf0, off := 48, value := v }
def headWrite (v : Nat) : RegAccess := { target := .bar2 .pf0, off := 72, value := v }

theorem witness_TailDoorbellTakesTheFirstOutcome :
    let s := withJobs []
    let x : Sq := { id := 3, cq := 4, arrivals := [0], tail := 1 }
    doorbellAt s (tailWrite 2) = some (.pf0, 3, false) ∧ serves s .pf0 = true ∧ barOpen s .pf0 = true ∧ s.sq? .pf0 3 = some x ∧ x.st ≠ .error ∧ 2 = 2 ^ x.log2 ∧
    2 ≤ 2 % 65536 ∧ (65537 % 65536 < 2 ∧ 2 < idxDist 2 x.head 65537) ∧ (0 % 65536 < 2 ∧ idxDist 2 x.head 0 ≤ 2 ∧ idxDist 2 x.head 0 < idxDist 2 x.head x.tail) ∧
    (65536 % 65536 < 2 ∧ idxDist 2 x.head 65536 ≤ 2 ∧ idxDist 2 x.head x.tail ≤ idxDist 2 x.head 65536) ∧ 1 = x.tail := by decide +kernel

theorem witness_HeadDoorbellsAndIgnoredOnes :
    (let s := withJobs []
     let c : Cq := { id := 4, credits := 2 }
     doorbellAt s (headWrite 2) = some (.pf0, 4, true) ∧ serves s .pf0 = true ∧ barOpen s .pf0 = true ∧ s.cq? .pf0 4 = some c ∧ c.st ≠ .error ∧ 2 = 2 ^ c.log2 ∧
     2 ≤ 2 % 65536 ∧ (1 % 65536 < 2 ∧ idxDist 2 c.head c.tail < idxDist 2 c.head 1) ∧ (0 % 65536 < 2 ∧ idxDist 2 c.head 0 ≤ idxDist 2 c.head c.tail) ∧ c.held = [] ∧ c.episode = false) ∧
    (let x : Sq := { id := 3, st := .error }
     let c : Cq := { id := 4, st := .error }
     let s : State := { live with sqs := [x], cqs := [c] }
     doorbellAt s (tailWrite 0) = some (.pf0, 3, false) ∧ s.sq? .pf0 3 = some x ∧ doorbellAt s (headWrite 0) = some (.pf0, 4, true) ∧ s.cq? .pf0 4 = some c) ∧
    (doorbellAt live (tailWrite 0) = some (.pf0, 3, false) ∧ live.sq? .pf0 3 = none ∧ doorbellAt live (headWrite 0) = some (.pf0, 4, true) ∧ live.cq? .pf0 4 = none) ∧
    ({ tailWrite 0 with width := 64 } : RegAccess).width ≠ 32 := by decide +kernel

theorem witness_AdminQueueEnable :
    let x : FnState := { page .pf0 with aqSqBase := 4096, aqCqBase := 8192 }
    (withFn x).fn? .pf0 = some x ∧ x.aqEnable = false ∧ aqOpen (withFn x) .pf0 = true ∧ bitOf (0x80000C01#32).toNat 31 = true ∧
    1 = bitsOf (0x80000C01#32).toNat 0 5 ∧ 12 = bitsOf (0x80000C01#32).toNat 8 5 ∧ serves (withFn x) .pf0 = true ∧ x.aqSqBase ≠ 0 ∧ x.aqCqBase ≠ 0 ∧
    bitsOf (0x80000D00#32).toNat 0 5 < 1 ∧ 12 < bitsOf (0x80000D00#32).toNat 8 5 ∧
    serves (withFn { x with ready := false }) .pf0 = false := by decide +kernel

theorem witness_CompletionEntriesAndInterrupts_credits :
    (let c : Cq := { id := 4, credits := 2 }
     (withJobs []).cq? .pf0 4 = some c ∧ idxDist (2 ^ c.log2) c.head c.tail < 2 ^ c.log2) ∧
    (let j := { jobOf 0x2301 [] .running with credit := true }
     let c : Cq := { id := 4, credits := 1, held := [{ job := 2, credited := true, entry := {} }] }
     let s : State := { withJobs [j] with cqs := [c] }
     HeldOk s ∧ s.job? 1 = some j ∧ j.phase ≠ .done ∧ s.cq? .pf0 4 = some c ∧ creditSum s .pf0 4 = 3) := by
  refine ⟨by decide +kernel, ⟨by decide +kernel, by decide +kernel⟩, by decide +kernel, by decide +kernel, by decide +kernel, by decide +kernel⟩

theorem witness_CompletionEntriesAndInterrupts :
    (({} : Completion).fixed = none ∧ (withJobs []).cq? .pf0 4 = some { id := 4, credits := 2 }) ∧
    (let x : FnState := { page .pf0 with evr := { present := true, log2 := 4, tail := 1 } }
     (withFn x).fn? .pf0 = some x ∧ x.evr.present = true ∧ x.evr.stopped = false ∧ pageOpen (withFn x) .pf0 = true ∧ barOpen (withFn x) .pf0 = true ∧ x.resetting = false ∧
     (1 % 65536 < 16 ∧ idxDist 16 x.evr.head 1 ≤ idxDist 16 x.evr.head x.evr.tail) ∧ 16 ≤ 16 % 65536 ∧ idxDist 16 x.evr.head x.evr.tail < idxDist 16 x.evr.head 2) ∧
    (let c : Cq := { id := 4, t := 1, firstUnsig := some 7 }
     let s : State := { live with cqs := [c], clk := 1031 }
     s.cq? .pf0 4 = some c ∧ c.firstUnsig = some 7 ∧ 0 < c.t ∧ 7 + 1024 * c.t = s.clk) ∧ ({ id := 4 } : Cq).t = 0 := by decide +kernel

theorem witness_FetchAcceptsOrStops :
    let s := withJobs [jobOf 0x2301 [] .running]
    let x : Sq := { id := 3, cq := 4, arrivals := [0], tail := 1 }
    let v := postRead .pf0 (x.base + x.head % 65536 * 64) 64 s
    s.sq? .pf0 3 = some x ∧ canFetch s .pf0 x = true ∧ entryReason v .pf0 3 (sliceZ (bytesOf 64 []) 0 64) = 5 ∧
    entryReason v .pf0 3 (sliceZ (bytesOf 64 [(0, 1), (1, 0x23)]) 0 64) = 8 ∧
    entryReason v .pf0 3 (sliceZ (bytesOf 64 [(0, 1), (1, 0x23), (4, 15), (48, 1)]) 0 64) = 0 := by decide +kernel

theorem witness_ReservationTakesItemsInOrder :
    (let j := jobOf 0x2301 [] .waitCredit
     let s : State := { withJobs [j] with cqs := [{ id := 4 }] }
     s.job? 1 = some j ∧ j.failed = none ∧ j.phase = .waitCredit ∧ s.cq? j.fn j.cq = some { id := 4 } ∧ ({ id := 4 } : Cq).credits = 0) ∧
    (let j := jobOf 0x2301 [] .waitCredit
     let s := withJobs [j]
     s.job? 1 = some j ∧ s.cq? j.fn j.cq = some { id := 4, credits := 2 } ∧ 0 < 2 ∧
     stageJob { j with credit := true, phase := .waitStaging } ((s.onCq j.fn j.cq (fun y => { y with credits := y.credits - 1 })).onJob 1 (fun y => { y with credit := true, phase := .waitStaging })) =
       .took ((s.onCq j.fn j.cq (fun y => { y with credits := y.credits - 1 })).onJob 1 (fun y => { y with credit := true, phase := .waitStaging }))) ∧
    (let x : Slot := { idx := 16777215, st := .retiring, material := [1] }
     let s : State := { live with slots := [x] }
     s.slot? 16777215 = some x ∧ x.st = .retiring ∧ slotRefs s x = 0 ∧ s.waits = [] ∧ s.jobs = []) := by
  refine ⟨by decide +kernel, ⟨by decide +kernel, by decide +kernel, by decide, rfl⟩, by decide +kernel⟩

/-- How staging ends. -/
def stagingKind : Staging → Nat
  | .wait => 0
  | .took _ => 1
  | .fail _ => 2

theorem witness_ReservationTakesItemsInOrder_items :
    (let j := jobOf 0x1101 [(5, 1)] .waitTokens
     let s := withJobs [j]
     s.job? 1 = some j ∧ j.failed = none ∧ jobTokens s j.cls j.desc j.block ≠ [] ∧ tokensFree s j (jobTokens s j.cls j.desc j.block) = true) ∧
    (let j := jobOf 0x1101 [(5, 1)] .waitTokens
     let s : State := { withJobs [j] with sqs := [{ id := 3, share := 4096, buckets := [{ pool := .vcc, level := 0 }] }], eph := { configured := true, cfg := { pools := [{ rho := 1000, sigma := 10 }] } } }
     s.job? 1 = some j ∧ jobTokens s j.cls j.desc j.block ≠ [] ∧ tokensFree s j (jobTokens s j.cls j.desc j.block) = false) ∧
    (let j := jobOf 0x4005 [] .waitTokens
     (withJobs [j]).job? 1 = some j ∧ jobTokens (withJobs [j]) j.cls j.desc j.block = []) ∧
    (let j := jobOf 0x1101 [(5, 1)] .waitPlace
     let s : State := { withJobs [j] with eph := { configured := true, cfg := { quotas := [(0, 0, 0, 1)] } } }
     s.job? 1 = some j ∧ (s.jobs.filter (fun x => x.inPlace && x.domain == j.domain)).length = 0 ∧ (s.jobs.filter (fun x => x.inPlace)).length = 0 ∧ inflightQuota s j.domain = 1 ∧
     (withJobs [j]).job? 1 = some j ∧ inflightQuota (withJobs [j]) j.domain = 0) ∧
    (let j (op : Nat) := jobOf op [(53, 0x14)] .waitStaging
     (withJobs [j 0x1101]).job? 1 = some (j 0x1101) ∧ stagingKind (stageJob (j 0x1101) (withJobs [j 0x1101])) = 1 ∧ stagingKind (stageJob (j 0x3020) (withJobs [j 0x3020])) = 2 ∧
     stagingKind (stageJob (j 0x4001) { withJobs [j 0x4001] with mem := { elimBy := some 7 } }) = 0) := by decide +kernel

/-- The same module with one engine of each kind. -/
def withUnits (js : List Job) : State := { withJobs js with units := [{ id := 0 }, { id := 0x0100 }, { id := 0x0200 }, { id := 0x0300 }] }
/-- A SHA-256 job of one input byte, and its number. -/
def hashJob (id dl : Nat) (ph : Phase) : Job := { jobOf 0x3101 [(4, 0), (5, 0), (24, 1), (36, 32), (52, 1)] ph with id := id, deadline := dl }

theorem witness_DispatchPreemptionTokens :
    (let j := jobOf 0x2301 [(5, 4), (24, 96), (36, 32)] .ready
     let d : DispatchIn := { units := [0x0300], input := zeros 96 }
     let s := withUnits [j]
     s.job? 1 = some j ∧ j.phase = .ready ∧ isNextUp s j = true ∧ placeUnits s j d.units = some [0x0300] ∧ (dispatchStop s j).isNone = true ∧ d.memErr = none ∧
     d.ctxTagBad = false ∧ (inputOf j.desc d.input d.inList).2 = none) ∧
    (let j : Job := { jobOf 0x2301 [(5, 4), (24, 96), (36, 32)] .preempted with units := [0x0300] }
     let s := withUnits [j]
     s.job? 1 = some j ∧ j.phase = .preempted ∧ isNextUp s j = true ∧ placeUnits s j [] = some [0x0300] ∧ ({} : DispatchIn).memErr = none ∧ ({} : DispatchIn).ctxTagBad = false) ∧
    (isReady (jobOf 0x2301 [] .running) = false) ∧
    (let v : Job := { hashJob 1 10 .running with units := [0x0200] }
     let b := hashJob 2 9 .ready
     let s : State := { withUnits [v, b] with units := [{ id := 0x0200, job := some 1 }] }
     s.job? 1 = some v ∧ s.job? 2 = some b ∧ mayPreempt s b = true ∧ (roomFor s b).map (fun r => r.1) = some [1] ∧ atPoint s v = true) ∧
    (let v : Job := { hashJob 1 10 .running with units := [0x0200], taken := 4095 }
     let b := hashJob 2 9 .ready
     let s : State := { withUnits [v, b] with units := [{ id := 0x0200, job := some 1 }] }
     mayPreempt s b = true ∧ (roomFor s b).map (fun r => r.1) = some [1] ∧ s.job? 1 = some v ∧ atPoint s v = false) ∧
    (let v : Job := { hashJob 1 9 .running with units := [0x0200] }
     let b := hashJob 2 9 .ready
     let s : State := { withUnits [v, b] with units := [{ id := 0x0200, job := some 1 }] }
     s.job? 2 = some b ∧ mayPreempt s b = true ∧ (roomFor s b).isNone = true ∧ mayPreempt (withUnits [b]) b = false) ∧
    (let j := jobOf 0x1101 [(5, 1)] .overrun
     (withUnits [j]).job? 1 = some j ∧ j.phase = .overrun ∧ tokensFree (withUnits [j]) j ((orderPools j).map (fun p => (p, 1))) = true) ∧
    (let j := jobOf 0x1101 [(5, 1)] .overrun
     let s : State := { withUnits [j] with sqs := [{ id := 3, share := 4096, buckets := [{ pool := .vcc, level := 0 }] }], eph := { configured := true, cfg := { pools := [{ rho := 1000, sigma := 10 }] } } }
     s.job? 1 = some j ∧ tokensFree s j ((orderPools j).map (fun p => (p, 1))) = false) := by decide +kernel

/-! ### Witnesses: admin commands -/

/-- PF0's admin queue pair, with one entry. -/
def withAdmin (s : State) : State := { s with
  sqs := [{ id := 0xFFFF, cq := 0xFFFF, arrivals := [0], tail := 1 }] ++ s.sqs
  cqs := [{ id := 0xFFFF, credits := 2 }] ++ s.cqs }
/-- An admin entry of opcode `op` with the bytes given beside it. -/
def adminEntry (op : Nat) (l : List (Nat × Nat)) : Bytes := bytesOf 64 ((0, op) :: l)

/-- An entry with its opcode, byte 24 and byte 27. -/
def plainEntry (op sub form : Byte) : Bytes := [op] ++ zeros 23 ++ [sub, 0, 0, form] ++ zeros 36

/-- One entry for each admin row. -/
def adminRows : List (Nat × Bytes) :=
  [(0x0100, plainEntry 1 0 0), (0x0200, plainEntry 2 0 0), (0x0300, plainEntry 3 0 0), (0x0400, plainEntry 4 0 0), (0x0500, plainEntry 5 0 0),
   (0x0600, plainEntry 6 0 0), (0x0701, plainEntry 7 1 0), (0x0702, plainEntry 7 2 0), (0x0800, plainEntry 8 0 0), (0x0900, plainEntry 9 0 0),
   (0x0A01, plainEntry 0x0A 1 0), (0x0A02, plainEntry 0x0A 2 0), (0x0A03, plainEntry 0x0A 3 0), (0x0A04, plainEntry 0x0A 4 0),
   (0x0A05, plainEntry 0x0A 5 0), (0x0B01, plainEntry 0x0B 1 0), (0x0B02, plainEntry 0x0B 2 0), (0x0B03, plainEntry 0x0B 3 0),
   (0x0C00, plainEntry 0x0C 0 0), (0x0D00, plainEntry 0x0D 0 0), (0x1000, plainEntry 0x10 0 0), (0x1001, plainEntry 0x10 0 1), (0x1100, plainEntry 0x11 0 0),
   (0x1200, plainEntry 0x12 0 0), (0x1300, plainEntry 0x13 0 0), (0x1301, plainEntry 0x13 0 1), (0x1302, plainEntry 0x13 0 2),
   (0x1400, plainEntry 0x14 0 0), (0x1500, plainEntry 0x15 0 0), (0x1600, plainEntry 0x16 0 0)]

theorem adminRows_pass : ∀ r ∈ adminRows, r.2.length = 64 ∧ rowCode r.2 = some r.1 ∧ reservedOk r.2 = true := by decide +kernel

theorem witness_AdminReady (r : Nat × Bytes) (h : r ∈ adminRows) : AdminReady r.1 { entry := some r.2 } r.2 (withAdmin live) :=
  ⟨⟨{ id := 0xFFFF, cq := 0xFFFF, arrivals := [0], tail := 1 }, rfl, (by decide +kernel : adminCanStart (withAdmin live) .pf0 _ = true)⟩, rfl, (adminRows_pass r h).1, (adminRows_pass r h).2.1, fun _ => rfl, .inl rfl, (adminRows_pass r h).2.2⟩

/-- Does a command's body answer OK, a failure, or a wait? -/
def ended : AdminRes → Nat
  | .ok _ _ _ => 0
  | .fail _ _ _ => 1
  | .wait _ _ => 2

theorem witness_AdminCommandsPassTheGateAndAnswer :
    (let s := withAdmin live
     let a : AdminIn := { buf := some [] }
     ended (adminIdentify (adminEntry 1 [(16, 64)]) a s) = 0 ∧ ended (adminLog (fun s _ => poolStatusBytes s) (adminEntry 7 [(24, 2), (18, 1)]) a s) = 0 ∧
     ended (adminDomainInfo (adminEntry 0x0A [(24, 2), (16, 32)]) a s) = 0 ∧ ended (adminAnchorInfo (adminEntry 0x0A [(24, 5), (16, 32)]) a s) = 0 ∧
     ended (adminIdentify (adminEntry 1 [(16, 63)]) a s) = 1) ∧
    (let j := hashJob 1 0 .ready
     let s : State := withAdmin { withJobs [{ j with fn := .vf 1 }] with eph := live.eph }
     ended (adminQuiesce (adminEntry 0x10 [(24, 1), (26, 2)]) {} s) = 2) ∧
    (let s := withAdmin live
     let e := adminEntry 0x7F []
     (∃ q, s.sq? .pf0 0xFFFF = some q ∧ adminCanStart s .pf0 q = true) ∧ e.length = 64 ∧ rowCode e = none ∧ adminOp (aOp e) = false) ∧
    (let s : State := { withAdmin live with eph := {} }
     let e := adminEntry 0x0A []
     s.eph.configured = false ∧ rowCode e = none ∧ adminOp (aOp e) = true ∧ aOp e < 16 ∧ unconfOk e = false) ∧
    (let s := withAdmin live
     let e := adminEntry 0x0A [(1, 1)]
     s.eph.configured = true ∧ rowCode e = none ∧ adminOp (aOp e) = true ∧ aOp e < 16 ∧ reservedOk e = false) := by
  refine ⟨by decide +kernel, by decide +kernel, ⟨⟨_, rfl, by decide +kernel⟩, by decide +kernel⟩, by decide +kernel, by decide +kernel⟩

theorem witness_QueueCommandsActOnTheirQueue :
    (64 ≤ aBufLen (adminEntry 1 [(16, 64)]) ∧ ({} : AdminIn).writeOk = true) ∧
    (let e := adminEntry 2 [(24, 255), (25, 15), (26, 16), (18, 32), (28, 255), (29, 7)]
     4095 = fieldLE e 24 2 ∧ 16 = byteAt e 26 ∧ 4095 < qpIds live .pf0 ∧ live.cq? .pf0 4095 = none ∧ 1 ≤ 16 ∧ aBuf e % 4096 = 0 ∧ aBufLen e = 32 * 2 ^ 16 ∧
     vectorOk live .pf0 (fieldLE e 28 2) = true ∧ qpTotal live < 65536) ∧
    (let e := adminEntry 3 [(24, 5), (26, 1), (16, 128), (28, 4), (30, 1), (32, 7)]
     let s : State := { withJobs [] with eph := { live.eph with cfg := { classes := [{}], quotas := [(7, 0, 1, 0)] } } }
     ended (adminCreateSq e {} s) = 0) ∧
    (let e := adminEntry 4 [(24, 3)]
     let x : Sq := { id := 3, cq := 4 }
     let s : State := { withJobs [] with sqs := [x] }
     s.sq? .pf0 (fieldLE e 24 2) = some x ∧ fieldLE e 24 2 < qpIds s .pf0 ∧ (∀ j ∈ s.jobs, j.fn = .pf0 → j.sq ≠ fieldLE e 24 2) ∧ x.head = x.tail) ∧
    (let e := adminEntry 5 [(24, 4)]
     (withJobs []).cq? .pf0 (fieldLE e 24 2) = some { id := 4, credits := 2 } ∧ fieldLE e 24 2 < qpIds live .pf0 ∧
     (∀ x ∈ live.sqs, x.fn = .pf0 → x.cq = fieldLE e 24 2 → x.id = 0xFFFF) ∧ (∃ x ∈ (withJobs []).sqs, x.fn = .pf0 ∧ x.cq = fieldLE e 24 2 ∧ x.id ≠ 0xFFFF)) ∧
    (let e := adminEntry 6 [(24, 3), (28, 9)]
     qidBad (withJobs []) .pf0 (fieldLE e 24 2) true = false ∧ ∀ j ∈ (withJobs []).jobs, j.fn = .pf0 → j.sq = fieldLE e 24 2 → j.tag ≠ fieldLE e 28 4) ∧
    aBuf (adminEntry 8 []) = 0 := by
  refine ⟨by decide +kernel, by decide +kernel, by decide +kernel, by decide +kernel, ⟨by decide +kernel, by decide +kernel, by decide +kernel, by decide +kernel⟩, by decide +kernel, by decide +kernel⟩

theorem witness_InstanceCommandsActOnTheirInstance :
    (let s : State := { live with eph := { configured := true, cfg := { slice := some true, quotas := [(7, 0, 1, 0)] } }, link := { live.link with pasidEnable := true } }
     ended (adminSliceCreate (adminEntry 0x14 [(24, 255), (25, 15), (26, 1), (28, 255), (29, 15), (30, 1), (32, 7), (37, 8)]) {} s) = 0) ∧
    (let e := adminEntry 0x10 [(24, 1), (26, 2)]
     byteAt e 27 = 0 ∧ aTarget e = some (.vf 1) ∧ modeBad live e = false ∧ instanceBad live e = false ∧ (live.fnOf (.vf 1)).quiesced = false ∧
     (live.fn? (.vf 1)).isSome = true ∧ (∀ j ∈ live.jobs, j.fn = .vf 1 → j.phase = .done) ∧ live.waits = []) ∧
    (let e := adminEntry 0x10 [(24, 1), (26, 1), (27, 3)]
     byteAt e 27 ≤ 3 ∧ modeBad live e = true) ∧
    (let e := adminEntry 0x13 [(24, 1), (26, 2), (27, 2)]
     aTarget e = some (.vf 1) ∧ modeBad live e = false ∧ instanceBad live e = false ∧ live.fn? (.vf 1) = some (page (.vf 1)) ∧ dirtyJobs live (.vf 1) = [] ∧ noRange e = true ∧
     (page (.vf 1)).dirty.failed = false) ∧
    (let s := withFn { page .pf0 with quiescing := true }
     (s.fnOf .pf0).quiescing = true ∧ drained s .pf0 = true) ∧ drained (withJobs [hashJob 1 0 .ready]) .pf0 = false := by decide +kernel

/-- The module in slice mode with slice 4095 as given. -/
def sliced (x : FnState) : State := { live with
  eph := { configured := true, cfg := { slice := some true } }
  slices := [{ num := 4095, domain := 7 }]
  fns := [page .pf0, page .pf1, x] }

theorem witness_InstanceCommandsActOnTheirInstance_slices :
    (let e := adminEntry 0x15 [(24, 255), (25, 15), (26, 1)]
     let s := sliced (page (.slice 4095))
     fieldLE e 24 2 = 4095 ∧ sliceModeBad s e = false ∧ 4095 < s.eph.cfg.sliceLimit ∧ s.slice? 4095 = some { num := 4095, domain := 7 } ∧
     s.fn? (.slice 4095) = some (page (.slice 4095)) ∧ (page (.slice 4095)).resetting = false ∧ sliceModeBad live e = true ∧ s.slice? (fieldLE (adminEntry 0x15 [(26, 1)]) 24 2) = none ∧
     sliceModeBad s (adminEntry 0x15 [(26, 1)]) = false) ∧
    (let x : FnState := { page (.slice 4095) with resetting := true }
     let s : State := { sliced x with waits := [{ kind := .sliceDestroy, fn := .pf0, target := .slice 4095, tag := 5 }] }
     s.fn? (.slice 4095) = some x ∧ x.resetting = true ∧ (s.fnOf .pf1).resetting = false ∧ s.waits = [{ kind := .sliceDestroy, fn := .pf0, target := .slice 4095, tag := 5 }]) := by decide +kernel

/-- VF 1 with its log as given, and a job of it whose bits are due. -/
def logged (d : FnDirty) : FnState := { page (.vf 1) with dirty := d }
def dirtyJob : Job := { id := 1, fn := .vf 1, dirty := [({}, 0)] }

theorem witness_InstanceCommandsActOnTheirInstance_logs :
    (let e := adminEntry 0x13 [(24, 1), (26, 2), (27, 1), (9, 16), (16, 0), (19, 16)]
     let s : State := { live with fns := [page .pf0, logged { enabled := true, failed := true }], jobs := [dirtyJob], link := { live.link with atomicOp := true } }
     aTarget e = some (.vf 1) ∧ modeBad s e = false ∧ instanceBad s e = false ∧ s.fn? (.vf 1) = some (logged { enabled := true, failed := true }) ∧
     (logged { enabled := true, failed := true }).dirty.failed = true ∧ aBuf e % 8 = 0 ∧ aBufLen e % 8 = 0 ∧ aBufLen e = 268435456 ∧ fieldLE e 52 8 % 4096 = 0 ∧ s.link.atomicOp = true) ∧
    (let e := adminEntry 0x13 [(24, 1), (26, 2), (16, 8)]
     dirtyJobs live (.vf 1) = [] ∧ aBufLen e = 8 ∧ aBuf e % 8 = 0) ∧
    (let e := adminEntry 0x13 [(24, 1), (26, 2), (27, 2)]
     let s : State := { live with fns := [page .pf0, logged { enabled := true }], jobs := [dirtyJob] }
     modeBad s e = false ∧ instanceBad s e = false ∧ s.fn? (.vf 1) = some (logged { enabled := true }) ∧ noRange e = true ∧ (logged { enabled := true }).dirty.failed = false ∧
     dirtyJobs s (.vf 1) ≠ []) ∧
    (let s : State := { live with fns := [page .pf0, logged { enabled := true, failed := true }] }
     s.fn? (.vf 1) = some (logged { enabled := true, failed := true }) ∧ noRange (adminEntry 0x13 [(24, 1), (26, 2)]) = true) := by decide +kernel

/-- A module with one custody key, the empty one, which opens as it stands; VF 1 as given, its domain 1 with a slot quota. -/
def custodial (x : FnState) : State := { live with
  fns := [page .pf0, x]
  sc := { live.sc with custodyBank := [{ key := kwIcv, live := true }], custodyCopy := true } }
/-- VF 1 quiesced, and the entry of SAVE_STATE or RESTORE_STATE of it with a buffer of 208 bytes. -/
def quiet : FnState := { page (.vf 1) with quiesced := true }
def moveEntry (op : Nat) : Bytes := adminEntry op [(24, 1), (26, 2), (16, 208)]

theorem custodial_key (x : FnState) : custodyKey (custodial x) = some [] ∧ ∀ fp, custodyFor (custodial x) fp = if custodyFp [] == fp then some [] else none := by
  have h : liveCustody (custodial x) = [(0, [], 0)] := rfl
  refine ⟨by unfold custodyKey; rw [h]; rfl, fun fp => ?_⟩
  unfold custodyFor
  rw [h]
  show (if true = true then List.find? (fun k => custodyFp k == fp) [[]] else none) = _
  rw [if_pos rfl, List.find?_cons]
  cases custodyFp [] == fp <;> rfl

theorem custodyFp_length : (custodyFp []).length = 8 := by rw [custodyFp, List.length_take, kmac256_length]; rfl

theorem witness_InstanceCommandsActOnTheirInstance_save :
    aTarget (moveEntry 0x11) = some (.vf 1) ∧ modeBad (custodial quiet) (moveEntry 0x11) = false ∧ instanceBad (custodial quiet) (moveEntry 0x11) = false ∧
    domainOf (custodial quiet) (.vf 1) = some 1 ∧ ((custodial quiet).fnOf (.vf 1)).quiesced = true ∧ (domainPolicy (custodial quiet) 1).getLsbD 1 = true ∧
    custodyKey (custodial quiet) = some [] ∧ (∀ n : Bytes, n.length = 12 → (instanceBlob (custodial quiet) (.vf 1) 2 1 1 [] n).length = aBufLen (moveEntry 0x11)) ∧
    (drawBytes 12 (custodial quiet)).1.length = 12 ∧ aBufLen (adminEntry 0x11 [(24, 1), (26, 2), (16, 207)]) < 208 ∧ ((custodial (page (.vf 1))).fnOf (.vf 1)).quiesced = false := by
  refine ⟨by decide +kernel, by decide +kernel, by decide +kernel, by decide +kernel, by decide +kernel, by decide +kernel, (custodial_key _).1, fun n hn => ?_,
    by simp [drawBytes], by decide +kernel, by decide +kernel⟩
  have hb : (instRecord (custodial quiet) (.vf 1) ++ ((qpUsed (custodial quiet) (.vf 1)).map (pairRecord (custodial quiet) (.vf 1))).flatten ++
    ((heldSaved (custodial quiet) (.vf 1)).map (heldRecord (custodial quiet))).flatten ++ ((savedSlots (custodial quiet) 1).map slotSave).flatten ++
    ((savedCtxs (custodial quiet) 1).map ctxSave).flatten).length = 16 * 4 := by decide +kernel
  have hl : aBufLen (moveEntry 0x11) = 208 := by decide +kernel
  unfold instanceBlob gcmEnc
  dsimp only
  have hk : (custodyBlobKey []).length = 32 := kmac256_length _ _ _
  have hd : (deviceId (custodial quiet)).length = 32 := sha3_256_length _
  have hz : (sliceZ (custodial quiet).eph.digest 0 32).length = 32 := by decide +kernel
  rw [hl]
  simp only [List.length_append, List.length_take, gcmTag_length _ _ _ _ hk, hd, hz, hn, custodyFp_length]
  rw [gcmCtr_length _ _ _ 4 hk hb]
  decide +kernel

/-- The header of a blob of 208 bytes for VF 1, its domain 1, with no queue, slot or context, under the fingerprint given; and the blob. -/
def blobHead (fp : Bytes) : Bytes := ascii "YQIB" ++ [1, 2, 1, 0, 1, 0, 0, 0, 208, 0, 0, 0] ++ fp ++ zeros 104
def blobOf (tag : Bytes) : Bytes := blobHead (custodyFp []) ++ (zeros 64 ++ tag)
def goodTag : Bytes := gcmTag (custodyBlobKey []) (sliceOf (blobHead (custodyFp [])) 24 12) (blobHead (custodyFp [])) (zeros 64)

theorem blobHead_fields (fp : Bytes) (h : fp.length = 8) : (blobHead fp).length = 128 ∧ sliceZ (blobHead fp) 16 8 = fp ∧
    ((blobHead fp).take 4 = ascii "YQIB" ∧ byteAt (blobHead fp) 4 = 1 ∧ byteAt (blobHead fp) 5 = 2 ∧ fieldLE (blobHead fp) 8 2 = 1 ∧ fieldLE (blobHead fp) 10 2 = 0 ∧
      fieldLE (blobHead fp) 12 4 = 208) ∧
    (fieldLE (blobHead fp) 36 4 = 0 ∧ fieldLE (blobHead fp) 40 4 = 0 ∧ fieldLE (blobHead fp) 44 4 = 0 ∧ fieldLE (blobHead fp) 48 4 = 0 ∧ fieldLE (blobHead fp) 52 4 = 0) := by
  match fp, h with
  | [a, b, c, d, e, f, g, i], _ => exact ⟨rfl, rfl, ⟨rfl, rfl, rfl, rfl, rfl, rfl⟩, rfl, rfl, rfl, rfl, rfl⟩

theorem blob_parts (tag : Bytes) (ht : tag.length = 16) : (blobOf tag).length = 208 ∧ (blobOf tag).take 128 = blobHead (custodyFp []) ∧ (blobOf tag).drop 128 = zeros 64 ++ tag := by
  obtain ⟨h0, _⟩ := blobHead_fields (custodyFp []) custodyFp_length
  exact ⟨by rw [blobOf, List.length_append, List.length_append, h0, ht, zeros, List.length_replicate], by rw [blobOf, ← h0, List.take_left], by rw [blobOf, ← h0, List.drop_left]⟩

theorem openInstance_blob (tag : Bytes) (ht : tag.length = 16) :
    (tag ≠ goodTag → openInstance [] (blobOf tag) = none) ∧ (tag = goodTag → ∃ x, openInstance [] (blobOf tag) = some { inst := x, pairs := [], held := [], slots := [], ctxs := [] }) := by
  obtain ⟨_, _, ⟨h1, h2, h3, h4, h5, h6⟩, g1, g2, g3, g4, g5⟩ := blobHead_fields (custodyFp []) custodyFp_length
  obtain ⟨hl, ha, hd⟩ := blob_parts tag ht
  have hk : (custodyBlobKey []).length = 32 := kmac256_length _ _ _
  have hp : (gcmCtr (custodyBlobKey []) (sliceOf (blobHead (custodyFp [])) 24 12) 0 (zeros 64)).length = 64 := gcmCtr_length _ _ _ 4 hk (by rw [zeros, List.length_replicate])
  have G := gcmDec_tag (custodyBlobKey []) (sliceOf (blobHead (custodyFp [])) 24 12) (blobHead (custodyFp [])) (zeros 64) tag hk ht
  rw [show gcmTag (custodyBlobKey []) (sliceOf (blobHead (custodyFp [])) 24 12) (blobHead (custodyFp [])) (zeros 64) = goodTag from rfl] at G
  generalize hr : (goodTag == tag) = r at G
  unfold openInstance
  dsimp only
  rw [ha, hd, hl, h1, h2, h3, h5, h6, g5, G]
  generalize gcmCtr (custodyBlobKey []) (sliceOf (blobHead (custodyFp [])) 24 12) 0 (zeros 64) = c at hp ⊢
  have d : c.drop 64 = [] := List.drop_eq_nil_of_le (by omega)
  refine ⟨fun h => ?_, fun h => ⟨c, ?_⟩⟩
  · have : r = false := hr ▸ beq_false_of_ne (Ne.symm h)
    subst this; split <;> rfl
  · have : r = true := by rw [← hr, h]; exact BEq.rfl
    subst this
    simp [blobParts, g1, g2, g3, g4, hp, slotsRead, d, sliceOf, chunks, chunksFuel, List.take_of_length_le (Nat.le_of_eq hp)]

theorem witness_InstanceCommandsActOnTheirInstance_restore :
    (aTarget (moveEntry 0x12) = some (.vf 1) ∧ modeBad (custodial quiet) (moveEntry 0x12) = false ∧ instanceBad (custodial quiet) (moveEntry 0x12) = false ∧
      ((custodial quiet).fn? (.vf 1)).isSome = true) ∧
    (fromBuf { buf := some (zeros 208) } 208 = some (zeros 208) ∧ custodyFor live (sliceZ (zeros 208) 16 8) = none) ∧
    (∀ tag : Bytes, tag.length = 16 → fromBuf { buf := some (blobOf tag) } (aBufLen (moveEntry 0x12)) = some (blobOf tag) ∧ custodyFor (custodial quiet) (sliceZ (blobOf tag) 16 8) = some []) ∧
    (∃ tag : Bytes, tag.length = 16 ∧ openInstance [] (blobOf tag) = none) ∧
    ∃ t, adminRestore (moveEntry 0x12) { buf := some (blobOf goodTag) } (custodial quiet) = .ok 0 [] t := by
  obtain ⟨h0, hs, ⟨_, _, _, h4, _⟩, _⟩ := blobHead_fields (custodyFp []) custodyFp_length
  have hk : (custodyBlobKey []).length = 32 := kmac256_length _ _ _
  have ht : goodTag.length = 16 := gcmTag_length _ _ _ _ hk
  have hb : aBufLen (moveEntry 0x12) = 208 := by decide +kernel
  have hc (tag : Bytes) (g : tag.length = 16) : fromBuf { buf := some (blobOf tag) } (aBufLen (moveEntry 0x12)) = some (blobOf tag) ∧
      custodyFor (custodial quiet) (sliceZ (blobOf tag) 16 8) = some [] := by
    obtain ⟨hl, -, -⟩ := blob_parts tag g
    have : sliceZ (blobOf tag) 16 8 = custodyFp [] := by
      rw [← hs]; unfold sliceZ; dsimp only; rw [blobOf, sliceOf_left _ _ _ _ (by omega)]
    rw [(custodial_key quiet).2, this, hb, fromBuf]
    simp [hl, List.take_of_length_le]
  refine ⟨by decide +kernel, by decide +kernel, hc, ?_, ?_⟩
  · by_cases h : goodTag = zeros 16
    · exact ⟨1 :: zeros 15, by decide, (openInstance_blob _ (by decide)).1 (by rw [h]; decide)⟩
    · exact ⟨zeros 16, by decide, (openInstance_blob _ (by decide)).1 (fun e => h e.symm)⟩
  · obtain ⟨x, hx⟩ := (openInstance_blob goodTag ht).2 rfl
    have hm : modeBad (custodial quiet) (moveEntry 0x12) = false := by decide +kernel
    have hi : instanceBad (custodial quiet) (moveEntry 0x12) = false := by decide +kernel
    have hf : aTarget (moveEntry 0x12) = some (.vf 1) := by decide +kernel
    have hd : domainOf (custodial quiet) (.vf 1) = some 1 := by decide +kernel
    unfold adminRestore onInstance
    simp only [List.cons_append, List.nil_append, aChecks, hm, hi, hf, (hc goodTag ht).1, Option.isNone_some, Option.getD_some, Bool.false_eq_true, if_false, (hc goodTag ht).2, hx, hd]
    unfold restoreParts
    rw [(blob_parts goodTag ht).2.1, h4]
    exact ⟨_, rfl⟩

/-- A message that names operation ERASE_ANCHORED of class 1 in good format, with the counter given, signed by zeros. -/
def aumOf (counter : Byte) : Bytes :=
  [0x59, 0x51, 0x55, 0x4D, 1, 0, 0, 0, 0x93, 0x12, 0, 0] ++ zeros 36 ++ [counter, 0, 0, 0, 0, 0, 0, 0, 3, 0] ++ zeros 22 ++ [1] ++ zeros 47 ++ zeros 4627

theorem witness_ContainersAndKeyCommandsAnswer :
    (fromBuf { buf := some [] } 0 = some [] ∧ ([] : Bytes).length < 12) ∧ (fromBuf { buf := some (zeros 13) } 12 = some (zeros 12) ∧ uTotal (zeros 12) ≠ 12) ∧
    (let m := aumOf 2
     (fromBuf { buf := some m } (m.length)).isSome = true ∧ aumFormatOk m = true ∧ uCounter m ≠ counterNow live + 1) ∧
    uCounter (aumOf 1) = counterNow live + 1 := by decide +kernel

/-- A certificate with the counter and the target given, signed by zeros. -/
def certHead : Bytes := ascii "YQDC" ++ [1, 0, 0, 0, 0x73, 0x12, 0, 0, 1, 0, 1, 0]
def certOf (c : Byte) (d : Bytes) : Bytes := certHead ++ (d ++ ((c :: zeros 47) ++ zeros 4627))

theorem certOf_good (c : Byte) (d : Bytes) (h : d.length = 32) : 
    (certOf c d).length = 4723 ∧ uTotal (certOf c d) = 4723 ∧ certFormatOk (certOf c d) = true ∧ uTarget (certOf c d) = d ∧ uCounter (certOf c d) = c.toNat := by
  have hh : certHead.length = 16 := by decide
  have hz : (zeros 4627).length = 4627 := by rw [zeros, List.length_replicate]
  have hm : (c :: zeros 47).length = 48 := by rw [List.length_cons, zeros, List.length_replicate]
  have hl : (certOf c d).length = 4723 := by rw [certOf, List.length_append, List.length_append, List.length_append, hh, h, hm, hz]
  have L (o n : Nat) (g : o + n ≤ 16) : sliceOf (certOf c d) o n = sliceOf certHead o n := sliceOf_left _ _ o n (by omega)
  have R (o n : Nat) (g : 48 ≤ o) (g' : o + n ≤ 96) : sliceOf (certOf c d) o n = sliceOf (c :: zeros 47) (o - 48) n := by
    rw [certOf, sliceOf_right _ _ _ _ (by omega), sliceOf_right _ _ _ _ (by omega), hh, h, Nat.sub_sub, sliceOf_left _ _ _ _ (by omega)]
  have T : uTotal (certOf c d) = 4723 := by rw [uTotal, fieldLE, L 8 4 (by omega)]; decide
  have F : uFlags (certOf c d) = 0 := by rw [uFlags, fieldLE, L 6 2 (by omega)]; decide
  have V : fieldLE (certOf c d) 4 2 = 1 := by rw [fieldLE, L 4 2 (by omega)]; decide
  have G : cRights (certOf c d) = 1 := by rw [cRights, fieldLE, L 12 2 (by omega)]; decide
  have Y : cCycles (certOf c d) = 1 := by rw [cCycles, fieldLE, L 14 2 (by omega)]; decide
  have M : (certOf c d).take 4 = ascii "YQDC" := by
    have := L 0 4 (by omega)
    rw [sliceOf, List.drop_zero] at this
    rw [this]; decide
  have X : cTests (certOf c d) = 0 := by rw [cTests, fieldLE, R 64 4 (by omega) (by omega)]; rfl
  have Z : allZero (sliceOf (certOf c d) 68 28) = true := by rw [R 68 28 (by omega) (by omega)]; rfl
  refine ⟨hl, T, ?_, ?_, ?_⟩
  · simp only [certFormatOk, cBody, uSigned, uHybrid, hl, T, F, V, G, Y, M, X, Z]; decide
  · rw [uTarget, certOf, sliceOf_right _ _ _ _ (by omega), sliceOf_left _ _ _ _ (by omega), hh]
    simp [sliceOf, List.take_of_length_le, h]
  · rw [uCounter, fieldLE, R 48 8 (by omega) (by omega)]
    simp [sliceOf, zeros, leNat]

theorem witness_ContainersAndKeyCommandsAnswer_cert :
    let e := adminEntry 0x0D [(16, 0x73), (17, 0x12)]
    let own (c : Byte) := certOf c (deviceId live)
    (∀ m : Bytes, m.length = 4723 → fromBuf { buf := some m } (aBufLen e) = some m) ∧
    ((own 0).length = 4723 ∧ certFormatOk (own 0) = true ∧ uTotal (own 0) = 4723 ∧ uTarget (own 0) = deviceId live ∧ uCounter (own 0) = counterNow live) ∧
    ((own 1).length = 4723 ∧ certFormatOk (own 1) = true ∧ uTotal (own 1) = 4723 ∧ uTarget (own 1) = deviceId live ∧ uCounter (own 1) ≠ counterNow live) ∧
    (∃ d : Bytes, (certOf 0 d).length = 4723 ∧ certFormatOk (certOf 0 d) = true ∧ uTotal (certOf 0 d) = 4723 ∧ uTarget (certOf 0 d) ≠ deviceId live) ∧
    (fromBuf { buf := some [] } 0 = some [] ∧ ([] : Bytes).length < 12) := by
  have n : counterNow live = 0 := by decide +kernel
  have g (c : Byte) := certOf_good c (deviceId live) (sha3_256_length _)
  refine ⟨fun m h => ?_, ⟨(g 0).1, (g 0).2.2.1, (g 0).2.1, (g 0).2.2.2.1, (g 0).2.2.2.2.trans n.symm⟩,
    ⟨(g 1).1, (g 1).2.2.1, (g 1).2.1, (g 1).2.2.2.1, by rw [(g 1).2.2.2.2, n]; decide⟩, ?_, rfl, by decide⟩
  · have : aBufLen (adminEntry 0x0D [(16, 0x73), (17, 0x12)]) = 4723 := by decide +kernel
    simp only [fromBuf, this, Option.bind_some, h, Nat.lt_irrefl, if_false, List.take_of_length_le (Nat.le_of_eq h)]
  · by_cases h : deviceId live = zeros 32
    · obtain ⟨a, b, c, d, _⟩ := certOf_good 0 (1 :: zeros 31) (by decide)
      exact ⟨_, a, c, b, by rw [d, h]; decide⟩
    · obtain ⟨a, b, c, d, _⟩ := certOf_good 0 (zeros 32) (by decide)
      exact ⟨_, a, c, b, by rw [d]; exact fun k => h k.symm⟩

/-- The entry of a KEY_ADMIN command `sub` on slot 0, of domain 0 and type 0x10, and a module with a key there. -/
def keyEntry (sub : Nat) : Bytes := adminEntry 0x0A [(24, sub), (16, 32), (37, 0x10)]
def withKey (js : List Job) : State := { withJobs js with slots := [{ idx := 0, st := .occupied, ktype := 0x10, material := [1] }] }

theorem witness_ContainersAndKeyCommandsAnswer_keys :
    (keySubReserved (keyEntry 1) = false ∧ domainOf live .pf0 = none ∧ infoSlot live (aHandle (keyEntry 1)) = none ∧
      (infoSlot (withKey []) (aHandle (keyEntry 1))).isSome = true ∧ 32 ≤ aBufLen (keyEntry 1) ∧ aBufLen (adminEntry 0x0A [(24, 1), (16, 31), (37, 0x10)]) < 32) ∧
    (keySubReserved (adminEntry 0x0A [(24, 2), (16, 32), (32, 1)]) = false ∧ domainOf live (.vf 1) = some 1 ∧ fieldLE (adminEntry 0x0A [(24, 2), (16, 32), (32, 1)]) 32 2 = 1 ∧
      1 ≠ hDomain (aHandle (keyEntry 1)) ∧ 1 ≠ fieldLE (keyEntry 2) 32 2) ∧
    (let h := aHandle (keyEntry 3)
     keySubReserved (keyEntry 3) = false ∧ aForce (keyEntry 3) = false ∧ eraseStatus live (hDomain h) h = some .keyNotFound ∧ eraseStatus (withKey []) (hDomain h) h = none ∧
     slotHolders (withKey []) (hSlot h) = [] ∧ (withKey []).jobs = [] ∧ (withKey []).waits = [] ∧
     (let s := withKey [{ jobOf 0x3001 [] .running with pins := [(0, 0)] }]
      eraseStatus s (hDomain h) h = none ∧ slotHolders s (hSlot h) ≠ [])) ∧
    (keySubReserved (adminEntry 0x0A [(24, 4), (32, 9)]) = false ∧ Fn.vf 1 ≠ .pf0 ∧ ∀ x ∈ (withKey []).slots, x.domain ≠ 9 ∧ x.st ≠ .retiring) := by decide +kernel

/-! ### Witnesses: jobs -/

/-- The opcodes of the job rows. -/
def jobOps : List Nat :=
  [0x1001, 0x1002, 0x1101, 0x1102, 0x1103, 0x1104, 0x1201, 0x1202, 0x1203, 0x1204, 0x1301, 0x1302, 0x1303, 0x1304, 0x1401, 0x1402, 0x1403, 0x1501, 0x1502,
   0x1503, 0x2001, 0x2002, 0x2003, 0x2004, 0x2101, 0x2102, 0x2103, 0x2201, 0x2202, 0x2203, 0x2301, 0x2302, 0x2303, 0x2304, 0x2305, 0x2306, 0x2310] ++
  ((List.range 19).map (0x3001 + ·)) ++ [0x3020, 0x3021, 0x3101, 0x3102, 0x3103, 0x3104, 0x3105, 0x3106, 0x3120, 0x3121, 0x3122, 0x3123, 0x3201, 0x3202, 0x3203,
   0x3204, 0x4001, 0x4002, 0x4003, 0x4004, 0x4101, 0x4201, 0x4202, 0x4203]

/-- A running job of opcode `op` on the module. -/
def running (op : Nat) : Job := { id := 1, desc := [byteOf op, byteOf (op / 256)] ++ zeros 62, phase := .running, sq := 3, cq := 4 }

theorem jobOps_run : ∀ op ∈ jobOps, runnable (withJobs [running op]) op { job := 1 } = some (running op) ∧ inputOf (running op).desc [] [] = ([], none) ∧
    (outputOf (running op).desc []).bad = none ∧ symWant live (running op) = 0 ∧ digestWant live (running op) = 0 := by decide +kernel

theorem witness_JobReady (op : Nat) (h : op ∈ jobOps) : JobReady op 0 { job := 1 } (running op) [] (withJobs [running op]) :=
  ⟨(jobOps_run op h).1, .inl ⟨rfl, (jobOps_run op h).2.1⟩, .inl rfl, rfl, rfl, rfl, rfl, (jobOps_run op h).2.2.1, rfl⟩

/-- A SIGN of a key that holds no leaf builds nothing first. -/
theorem witness_buildFirst : buildFirst { job := 1 } (withJobs [running 0x1301]) = withJobs [running 0x1301] := rfl

/-- How a service's result ends, where no token runs out and no check fails: OK without a key, OK with one, or another status. -/
def resultKind (r : Result) : Option Nat :=
  if r.overrun.isSome || r.faulty then none else if r.status != .ok then some 2 else if r.key.isSome then some 1 else some 0

/-- M, A and B of one word. -/
def words3 (m a b : Byte) : Bytes := zeros 7 ++ [m] ++ zeros 7 ++ [a] ++ zeros 7 ++ [b]
/-- A job with W = 1. -/
def rawJob (op : Nat) : Job := jobOf op [(5, 1), (24, 24), (36, 8)] .running

theorem witness_AsymmetricJobsRun :
    (∀ op ∈ [1, 2, 3, 4, 5, 6], resultKind (svcRaw op (rawJob (0x2300 + op)) (words3 7 5 6) live).1 = some 0 ∧
      resultKind (svcRaw op (rawJob (0x2300 + op)) (words3 1 0 0) live).1 = some 2) ∧
    (let x : JobRun := { job := 1, input := words3 7 5 6 }
     runnable (withJobs [rawJob 0x2303]) 0x2303 x = some (rawJob 0x2303) ∧ inputOf (rawJob 0x2303).desc x.input x.inList = (words3 7 5 6, none)) := by decide +kernel

/-- A SHA-256 job. -/
def shaJob : Job := jobOf 0x3101 [(5, 2), (24, 3), (36, 32)] .running

theorem witness_SymmetricAndDigestJobsRun :
    resultKind (svcDigest shaJob [0x61, 0x62, 0x63] [] live).1 = some 0 ∧
    resultKind (svcDigest (jobOf 0x3106 [(5, 2), (24, 32)] .running) (zeros 32) [] live).1 = some 2 := by decide +kernel

/-- A KEYGEN of an AES-128 key into slot 0. -/
def genJob : Job := { jobOf 0x4001 [(52, 0x10)] .running with newSlot := some 0 }

/-- A Bouquet of two SHA-256 stages, and one whose second stage compares with zeros. -/
def bouquetJob (second : Nat) : Job :=
  { jobOf 0x3801 [(24, 35), (52, 2)] .running with
    block := [3, 0, 0, 0, 0x01, 0x31, 0, 0, 2] ++ zeros 23 ++ [32] ++ zeros 31 ++ [3, 1, 0, 0, byteOf second, 0x31, 0, 0, 2] ++ zeros 23 ++ [32] ++ zeros 31 }

/-- The results of its stages. -/
def bouquetOuts (second : Nat) : List StageOut :=
  stagesRun live (bouquetJob second) (zeros 35) (stages (bouquetJob second).block) ((stages (bouquetJob second).block).map (fun _ => [])) [] true

theorem witness_KeyBouquetAndEraseJobsRun :
    (let s : State := { withJobs [genJob] with slots := [{ idx := 0 }] }
     resultKind (svcKeygen genJob [] s).1 = some 1 ∧ (placeKey genJob { ktype := 0x10 } s).isSome = true) ∧
    resultKind (svcRandom (jobOf 0x4101 [(36, 1), (52, 1)] .running) [] live).1 = some 0 ∧
    (∀ f ∈ [1, 6], let j := bouquetJob f
      let x : JobRun := { job := 1, input := zeros 35 }
      runnable (withJobs [j]) 0x3801 x = some j ∧ x.stalled = false ∧ x.more = false ∧ inputOf j.desc x.input x.inList = (zeros 35, none) ∧ (∀ r ∈ stages j.block, stageWant r = 0) ∧
      (∀ g ∈ stageFrags (stages j.block) [], g.bad = none)) ∧
    (∀ o ∈ bouquetOuts 1, o.res.status = .ok) ∧ (bouquetOuts 6).map (fun o => o.res.status) = [.ok, .verifyFailed] ∧
    (let j := jobOf 0x4005 [(13, 0x10)] .running
     let s : State := { withJobs [j] with slots := [{ idx := 0, st := .occupied, ktype := 0x10 }] }
     runnable s 0x4005 { job := 1 } = some j ∧ j.newSlot = none ∧ eraseStatus s j.domain (dKey j.desc) = none ∧ eraseBehind s j (hSlot (dKey j.desc)) = false ∧ slotHolders s (hSlot (dKey j.desc)) = []) ∧
    (let j := jobOf 0x4005 [] .running
     runnable (withJobs [j]) 0x4005 { job := 1 } = some j ∧ eraseBehind (withJobs [j]) j (hSlot (dKey j.desc)) = false ∧ eraseStatus (withJobs [j]) j.domain (dKey j.desc) = some .keyNotFound) := by decide +kernel

theorem witness_EngineWordsAndModularCommandsCompute :
    (let j := running 0x2310
     let s : State := { withJobs [j] with mae := [{}, {}, {}, { job := some 1 }] }
     s.mae[3]? = some { job := some 1 } ∧ s.job? 1 = some j ∧ j.phase = .running ∧ dOp j.desc = 0x2310) ∧
    (let m : MaeMem := { regs := [(0, 5), (1, 3), (2, 2 ^ 64 * 9 + 7), (127, 2 ^ 64 * 4 + 1)] }
     let k : MaeCmd := { dst := 127, a := 0, b := 1, m := 2 }
     m.ended = false ∧ (∀ op ∈ [1, 2, 3, 4, 5, 6], (maeResult op 1 (maeReg m 0 % 2 ^ 64) (maeReg m 1 % 2 ^ 64) (maeReg m 2 % 2 ^ 64)).isSome = true) ∧ maeResult 3 1 5 3 0 = none ∧
     maeReg (maeCommand m (maeWord 3 k)) 127 = 2 ^ 64 * 4 + 1 ∧ maeReg (maeCommand m (maeWord 1 k)) 127 = 2 ^ 64 * 4 + 1 ∧ maeReg (maeCommand m (maeWord 2 k)) 127 = 2 ^ 64 * 4 + 2) ∧
    (({ ended := true } : MaeMem).ended = true ∧ 0 < 1 ∧ 6 ≤ 6 ∧ 255 % 256 + 1 = 256) ∧
    (1 < 2 ∧ 0 < 2 ∧ 1 < 2 ∧ 2 % 2 = 0) ∧ (1 < 7 ∧ 6 < 7 ∧ 7 % 2 = 1 ∧ 2 ^ 64 - 1 < 2 ^ (64 * 1) ∧ maeResult 5 1 6 0 7 = some 6 ∧ maeResult 5 1 3 0 9 = none) ∧
    (1 ≤ 1 ∧ 7 ≤ 7) ∧ (maeResult 3 1 (beNat (sliceOf (words3 7 5 6) 8 8)) (beNat (sliceOf (words3 7 5 6) 16 8)) (beNat (sliceOf (words3 7 5 6) 0 8))).isSome = true := by decide +kernel

/-! ### Witnesses: clusters -/

/-- A running job on cluster 0 with the registers given; it sees 2 tiles. -/
def onCluster (r : RegSave) : State := { withJobs [running 0x1102] with
  vcc := { regs := r, pc := 7, resid := [{ job := 1, view := { opTiles := 2, gang := [] } }] } :: List.replicate 31 {} }
/-- Its cluster, its resident record and its job. -/
def theCluster (r : RegSave) : Cluster := { regs := r, pc := 7, resid := [{ job := 1, view := { opTiles := 2, gang := [] } }] }
def theResid : Resid := { job := 1, view := { opTiles := 2, gang := [] } }
/-- Four elements of one byte. -/
def four : RegSave := { vl := 4 }
/-- The end of an instruction: next word, another word, a stall, a trap, or no package. -/
def endKind : VEnd → Nat
  | .next => 0
  | .goto _ => 1
  | .wait => 2
  | .trap _ _ _ => 3
  | .notLoaded => 4

theorem witness_vccReady : vccReady 0 (onCluster four) = some (theCluster four, theResid, running 0x1102) ∧ (onCluster four).dbg.halted ≠ some 1 ∧
    (onCluster four).sc.drbgOn = true := by decide +kernel

/-- The words of a section, each bit by bit from R399's formats and R400's map. -/
theorem test_code_words :
    vccDecode 0b00000111111000010000100000000000 = some (.add { rd := 31, rs1 := 1, rs2 := 2 }) ∧
    vccDecode 0b00101100011001001111111111111111 = some (.sltu { rd := 3, rs1 := 4, imm := some (-1) }) ∧
    vccDecode 0b00110000001000001100000000000000 = some (.lui 1 (-16384)) ∧
    vccDecode 0b01100100010000110010011111100010 = some (.vcmp 2 { vd := 2, vs1 := 3, vs2 := 4, me := true, vm := 7, ew := 3 }) ∧
    vccDecode 0b01101111110001000000000001100001 = some (.shand { vd := 30, vs1 := 4, ew := 3 }) ∧
    vccDecode 0b10011111111000011111100001000000 = some (.vmulX { vd := 31, vs1 := 1, vs2 := 31, ew := 2 }) ∧
    vccDecode 0b10100100101011101011001010100000 = some (.vst { vr := 5, ab := 3, ix := 21, me := true, vm := 1, ew := 1, mode := 1 }) := by decide +kernel

theorem test_code_words_of_control_and_hash :
    vccDecode 0b10111011000110011101000000000011 = some (.xmov 3 { a := 24, b := 25, c := 26 }) ∧
    vccDecode 0b11000011000110011101000100101010 = some (.ntt { a := 24, b := 25, c := 26, q := 1, fn := 42 }) ∧
    vccDecode 0b11000111111000010001000000100010 = some (.mmul { a := 31, b := 1, c := 2, fn := 32 }) ∧
    vccDecode 0b11001011000110011101000000000101 = some (.kecOut { a := 24, b := 25, c := 26 }) ∧
    vccDecode 0b11100000001000101111111111111001 = some (.beq 1 2 (-7)) ∧
    vccDecode 0b11101111000000000000000000000100 = some (.jal 24 4) ∧
    vccDecode 0b11110100101000000000000000100011 = some (.untag 5 2) ∧
    vccDecode 0b11111100000000000000000000000001 = some (.end_ true false) ∧
    vccDecode 0 = none ∧ vccDecode 0b11011000000000000000000000000000 = none := by decide +kernel

/-- The same cluster with a loaded package whose word 7, before which it stands, is the one given. -/
def spelt (w : Nat) (r : RegSave) : State := { onCluster r with
  eph := { configured := true, cfg := { slice := some false }, kernels := [{ family := 0x11, ops := [{ opbyte := 2 }], code := List.replicate 7 0 ++ [w] }] } }

theorem witness_spells :
    (vccReady 0 (spelt 0b11100000001000101111111111111001 four) = some (theCluster four, theResid, running 0x1102) ∧
      spells 0 (.beq 1 2 (-7)) (spelt 0b11100000001000101111111111111001 four) = true ∧ spells 0 (.beq 1 2 (-8)) (spelt 0b11100000001000101111111111111001 four) = false) ∧
    spells 0 (.yield_) (onCluster four) = true ∧ (∀ o : MemOps, spells 0 (.vst o) (onCluster four) = true) ∧ (∀ o : ScalarOps, spells 0 (.add o) (onCluster four) = true) := by
  refine ⟨by decide +kernel, by decide +kernel, fun _ => rfl, fun _ => rfl⟩

theorem witness_RegisterInstructionsRetire :
    let x := seenBy live (theCluster four) theResid
    endKind (scalarOp (· + ·) { rd := 31, rs1 := 1, rs2 := 2 } x).fin = 0 ∧ endKind (luiOp 1 (-16384) x).fin = 0 ∧ endKind (setvlOp 1 2 3 x).fin = 0 ∧
    endKind (vvOp elAdd { vd := 31, vs1 := 1, vs2 := 2 } x).fin = 0 ∧ endKind (vsOp elMul { vd := 0 } x).fin = 0 ∧ endKind (shxorOp { vd := 28, vs1 := 4 } x).fin = 0 ∧
    endKind (shandOp { vd := 28, vs1 := 4 } x).fin = 0 ∧
    endKind (scalarOp (· + ·) { rd := 24, rs1 := 1 } (seenBy live (theCluster { four with gTag := [1] }) theResid)).fin = 3 := by decide +kernel

theorem witness_OtherInstructionsRetire :
    let x := seenBy live (theCluster four) theResid
    endKind (vldOp {} x).fin = 0 ∧ endKind (vstOp {} x).fin = 0 ∧ endKind (vstOp {} (seenBy live (theCluster { four with g := List.replicate 24 0 ++ [1021] ++ List.replicate 7 0 }) theResid)).fin = 3 ∧
    endKind (branchOp (fun a b => a == b) 1 2 (-7) x).fin = 1 ∧ endKind (winWaitOp x).fin = 0 ∧ endKind (kecInitOp 1 x).fin = 0 ∧ endKind (sysFaultOp x).fin = 0 ∧
    (let y := seenBy live { theCluster four with resid := [{ job := 1, view := { opTiles := 2, gang := [0, 1] } }] } { job := 1, view := { opTiles := 2, gang := [0, 1] } }
     endKind (xmovOp 1 { a := 24, b := 24, c := 24 } y).fin = 0 ∧ (xmovOp 1 { a := 24, b := 24, c := 24 } y).peer.isSome = true) := by decide +kernel

theorem witness_ScalarAndSystemResults :
    (vccReady 0 (onCluster four) = some (theCluster four, theResid, running 0x1102) ∧ (31 ≠ 0 ∧ 31 < four.g.length)) ∧
    (let r : RegSave := { four with g := [0, 5, 63] ++ List.replicate 29 0 }
     vccReady 0 (onCluster r) = some (theCluster r, theResid, running 0x1102) ∧ r.gTag.contains 1 = false ∧ (gRead r 2).toNat < 64) ∧
    (let r : RegSave := { four with gTag := [1] }
     vccReady 0 (onCluster r) = some (theCluster r, theResid, running 0x1102) ∧ (r.gTag.contains 1 || ((none : Option Int).isNone && r.gTag.contains 0)) = true ∧ 24 ≤ 24 ∧ 23 < 24) ∧
    (four.gTag.contains 31 = false ∧ 255 < Config.vlen live.part / (8 * 2 ^ (four.ew % 4)) ∧ four.vTag.contains 31 = false) := by decide +kernel

theorem witness_VectorResultsAreElementwise :
    (0 < (seenBy live (theCluster four) theResid).count 64 ∧ 31 < Config.vlen live.part / 64) ∧ (seenBy live (theCluster {}) theResid).count (ewBits 3) = 0 ∧ 255 < 2 ^ 8 := by
  decide +kernel

theorem witness_FreshSharesRecombine : 255 < 2 ^ 8 ∧ 2 ^ 64 - 1 < 2 ^ 64 := by decide

theorem witness_TileMemoryReadsWhatWasWritten : Memory.wf [] = true ∧ Memory.wf [(3, 1), (1048575, 255)] = true := by decide +kernel

theorem witness_StoresTouchOnlyTheirElements :
    vccReady 0 (onCluster four) = some (theCluster four, theResid, running 0x1102) ∧ addrTagged (seenBy live (theCluster four) theResid) {} false = false ∧
    Memory.wf (theCluster four).tiles = true ∧ endKind (vstOp {} (seenBy live (theCluster four) theResid)).fin = 0 ∧
    viewPhys theResid true (elemAddr (seenBy live (theCluster four) theResid) {} 3) 1 = some 131075 := by decide +kernel

/-- Registers that make the other stores act: 16 bytes in the last address register, the others 0; and a base 3 bytes before the end of the view. -/
def lengthIn31 : RegSave := { four with g := List.replicate 31 0 ++ [16] }
def nearEnd : RegSave := { four with g := List.replicate 24 0 ++ [1021] ++ List.replicate 7 0 }

theorem witness_StoresTouchOnlyTheirElements_others :
    (let x := seenBy live (theCluster nearEnd) theResid
     Memory.wf x.cl.tiles = true ∧ (match (vstOp {} x).fin with | .trap _ e _ => e == 3 | _ => false) = true) ∧
    (let x := seenBy live (theCluster four) { theResid with view := { opTiles := 2, gang := [], order := 1 } }
     Memory.wf x.cl.tiles = true ∧ endKind (shstOp { ix := 7 } x).fin = 0 ∧ shareAddrs x { ix := 7 } 1 = [1, 1]) ∧
    (let x := seenBy live (theCluster lengthIn31) theResid
     endKind (shortMem {} true x).fin = 0 ∧ endKind (randOp { a := 24, b := 31, c := 24 } x).fin = 0 ∧ viewPhys x.r true 0 16 = some 131072 ∧
     endKind (kecOutOp { a := 24, b := 24, c := 31 } (seenBy live (theCluster { lengthIn31 with kec := [keccakZero] }) theResid)).fin = 0 ∧
     endKind (winFetchOp 0 { a := 24, b := 24, c := 31 } (seenBy live (theCluster lengthIn31) { theResid with view := { opTiles := 2, windowTiles := 2, gang := [] } })).fin = 0) ∧
    (let s := onCluster four
     s.vcc[0]? = some (theCluster four) ∧ (theCluster four).resid.find? (fun q => q.job == 1) = some theResid ∧ Memory.wf (theCluster four).tiles = true ∧
     viewPhys theResid true 1020 4 = some 132092 ∧ (1 : Nat) ≠ 0) := by decide +kernel

theorem witness_BranchResults :
    (vccReady 0 (onCluster four) = some (theCluster four, theResid, running 0x1102) ∧ four.gTag.contains 1 = false ∧ four.gTag.contains 2 = false) ∧
    (let r : RegSave := { four with gTag := [1] }
     vccReady 0 (onCluster r) = some (theCluster r, theResid, running 0x1102) ∧ r.gTag.contains 1 = true) := by decide +kernel

theorem witness_SectionsAndProgramsEnd :
    (vccReady 0 (onCluster four) = some (theCluster four, theResid, running 0x1102) ∧ (onCluster four).dbg.halted ≠ some 1 ∧ theResid.view.gang = [] ∧
     (∀ b ∈ (onCluster four).jobs, isReady b = false) ∧ (running 0x1102).inBad = none ∧ theResid.faulted = false ∧ residOn (onCluster four) 1 0 = some theResid) ∧
    (let q : Resid := { theResid with faulted := true }
     let k : Cluster := { theCluster four with resid := [q] }
     let s : State := { onCluster four with vcc := [k] }
     vccReady 0 s = some (k, q, running 0x1102) ∧ q.faulted = true ∧ residOn s 1 0 = some q) ∧
    (let j : Job := { running 0x1102 with inBad := some .lengthMismatch }
     let s : State := { onCluster four with jobs := [j] }
     vccReady 0 s = some (theCluster four, theResid, j) ∧ j.inBad = some .lengthMismatch) ∧
    ({ onCluster four with clk := 20001 } : State).clk > theResid.yielded + theResid.view.nps ∧ ({ onCluster four with clk := 20000 } : State).clk ≤ theResid.yielded + theResid.view.nps := by
  decide +kernel

theorem witness_SupervisorReloadsAndCopies :
    (let k : Cluster := { theCluster four with trap := some { kind := .constTile, tile := 2047 }, badChecks := [(2047, 1)] }
     ({ live with vcc := [k] } : State).vcc[0]? = some k ∧ k.trap = some { kind := .constTile, tile := 2047 } ∧ testCluster { live with vcc := [k] } 0 = false) ∧
    testCluster { live with dbg := { active := 16, testMask := 2147483648 }, units := [{ id := vccId 31, st := .withheldTest }] } 31 = true ∧
    (let q : Resid := { theResid with window := [(0, 2, 0, 512)] }
     let k : Cluster := { theCluster four with resid := [q] }
     ({ live with vcc := [k] } : State).vcc[0]? = some k ∧ k.resid.find? (fun q => q.job == 1) = some q ∧ q.window = [(0, 2, 0, 512)]) := by decide +kernel

/-! ### Witnesses: the token and the Almanac -/

theorem witness_LedgerTokenRows :
    (anySession live = true ∧ live.tok.socket = some {} ∧ ({} : Token).readOnly = false) ∧ anySession State.reset = false ∧
    (let s : State := { live with clk := 999999999 }
     s.clk < s.tok.lifeAt + 1000000000) ∧
    (let s : State := { live with clk := 1000000000 }
     s.tok.lifeAt + 1000000000 ≤ s.clk ∧ 1024000 < ({} : Token).units) ∧
    (let tk : Token := { units := 1024000 }
     let s : State := { live with clk := 1000000000, tok := { live.tok with socket := some tk } }
     anySession s = true ∧ s.tok.socket = some tk ∧ tk.readOnly = false ∧ s.tok.lifeAt + 1000000000 ≤ s.clk ∧ tk.units ≤ 1024000 ∧ s.tok.wear = false) ∧
    (let k : StatefulKey := { domain := 65535, index := 255, param := 0x010501, heights := [5], writing := true }
     let tk : Token := { stateful := [k], logFree := 4 }
     let s : State := { live with tok := { live.tok with socket := some tk } }
     fullSession s = true ∧ s.tok.readOnly = false ∧ s.tok.keysLoaded = true ∧ s.pwr.pg = true ∧ s.tok.socket = some tk ∧ tk.readOnly = false ∧ tk.stateful = [k] ∧
     k.domain = 65535 ∧ k.index = 255 ∧ 4 ≤ tk.logFree ∧ k.writing = true ∧ k.endLeaf < leafCount k) ∧ ({} : StatefulKey).writing = false := by decide +kernel

/-- The module with its Almanac path as given. -/
def liveAlm (a : Almanac) : State := { live with alm := a }

theorem witness_AlmanacRecordsAndWindows :
    (let r : AlmRec := { severity := 4 }
     let tk : Token := { almNext := 258047 }
     let s : State := { liveAlm { staging := [r] } with tok := { live.tok with socket := some tk } }
     s.pwr.pg = true ∧ fullSession s = true ∧ s.alm.clearing = false ∧ s.tok.socket = some tk ∧ tk.almNext < 258048 ∧ (waiting s).head? = some r) ∧
    fullSession State.reset = false ∧
    (let a : AlmRec := { severity := 3 }
     let b : AlmRec := { severity := 4 }
     (liveAlm { staging := [a, b] }).alm.staging = [a, b] ∧ a.severity = 3 ∧ b.severity = 4) ∧
    (let r : AlmRec := { severity := 1 }
     let w : CoalWin := { first := some r, count := 2 }
     let s : State := { liveAlm { windows := [w] } with clk := 1000000000 }
     s.alm.windows = [w] ∧ w.openAt + s.eph.cfg.coalesceMs * 1000000 = s.clk ∧ w.first = some r ∧ r.severity = 1 ∧ s.alm.queue = []) ∧
    (let w : CoalWin := { openAt := 1 }
     let s : State := { liveAlm { windows := [w] } with clk := 1000000000 }
     s.alm.windows = [w] ∧ s.clk < w.openAt + s.eph.cfg.coalesceMs * 1000000 ∧ w.first = none) ∧
    ((liveAlm { hourNs := 3600000000000 }).pwr.pg = true ∧ 3600000000000 ≤ (liveAlm { hourNs := 3600000000000 }).alm.hourNs) ∧ live.alm.hourNs < 3600000000000 := by
  decide +kernel

theorem witness_EyepieceAndClear :
    (barOpen live .pf0 = true ∧ (live.fnOf .pf0).resetting = false ∧ live.alm.loading = false ∧ live.alm.clearing = false) ∧ (liveAlm { loading := true }).alm.loading = true ∧
    (let s : State := { live with dbg := { active := 2 } }
     s.tok.socket = some {} ∧ ({} : Token).readOnly = false ∧ s.tok.readOnly = false ∧ fullSession s = true ∧ s.alm.clearing = false ∧
     bitsOf (0xA501#32).toNat 8 8 = 0xA5 ∧ bitOf (0xA501#32).toNat 0 = true ∧ s.dbg.active.getLsbD 1 = true) ∧
    (bitsOf (0xA401#32).toNat 8 8 ≠ 0xA5 ∧ live.dbg.active.getLsbD 1 = false ∧ lcCode live ≠ 0x0F) ∧
    (let tk : Token := { units := 51456, journalFree := 2 }
     let s : State := { liveAlm { clearing := true } with tok := { live.tok with socket := some tk } }
     s.tok.socket = some tk ∧ tk.readOnly = false ∧ fullSession s = true ∧ s.alm.clearing = true ∧ 51200 + 256 ≤ tk.units ∧ 1 < tk.journalFree) := by decide +kernel

/-! ### Witnesses: lifecycle, debug, tamper, faults -/

/-- The module in a lifecycle state, with the fuses up to `n`, the certificate bank and the owner root written. -/
def inState (n : Nat) : State := { live with sc := { live.sc with lcFuses := List.range (n + 1), certBank := true, drs := some [], rootDigest := some [] } }

theorem witness_LifecycleTransitions :
    (pageOpen live .pf0 = true ∧ (∀ n ≤ 4, pageOpen (inState n) .pf0 = true)) ∧ lcsRefusal live (0xFF03#32).toNat = 1 ∧
    (lcsRefusal (inState 0) (0xFC03#32).toNat = 0 ∧ (0xFC03#32).toNat % 256 = 3) ∧ (lcsRefusal (inState 1) (0xF807#32).toNat = 0 ∧ (0xF807#32).toNat % 256 = 7) ∧
    (lcsRefusal (inState 2) (0xF00F#32).toNat = 0 ∧ (0xF00F#32).toNat % 256 = 15) ∧ (lcsRefusal (inState 3) (0xE01F#32).toNat = 0 ∧ fullSession (inState 3) = true) ∧
    (let s : State := { inState 1 with lcs := { busy := true, target := 3 } }
     s.lcs.busy = true ∧ s.sc.sealDead = false) ∧ live.lcs.busy = false ∧
    (0xFF03 < 65536 ∧ 0xFF03 / 256 % 256 + 0xFF03 % 256 ≠ 255) ∧ (0xFC03 / 256 % 256 + 0xFC03 % 256 = 255 ∧ lcCode (inState 1) ≠ 1 ∧ lcCode live = 1 ∧ live.sc.certBank = false) ∧
    (0xF807 / 256 % 256 + 0xF807 % 256 = 255 ∧ lcCode live ≠ 3 ∧ lcCode (inState 1) = 3 ∧ rootFused (inState 1) = true ∧
      rootFused { live with sc := { live.sc with lcFuses := [0, 1] } } = false) ∧ (0xF00F / 256 % 256 + 0xF00F % 256 = 255 ∧ lcCode live ≠ 7) ∧
    (0xE01F / 256 % 256 + 0xE01F % 256 = 255 ∧ live.lcs.busy = false) := by decide +kernel

theorem witness_DebugRows :
    (barOpen live .pf0 = true ∧ (live.fnOf .pf0).resetting = false) ∧
    (let s : State := { live with dbg := { active := 8, halted := some 1 } }
     barOpen s .pf0 = true ∧ s.dbg.active.getLsbD 3 = true ∧ settled s = true ∧ s.dbg.halted = some 1) ∧
    (let s : State := { live with dbg := { active := 8 } }
     s.dbg.active.getLsbD 3 = true ∧ settled s = true ∧ s.dbg.halted = none) ∧ live.dbg.active.getLsbD 3 = false ∧ live.dbg.traceNext = none ∧
    (let s : State := { live with dbg := { active := 1, traceBusy := true, traceNext := some [0] }, mer := { coaxTrace := true } }
     s.dbg.traceNext = some [0] ∧ traceOn s = true) := by decide +kernel

theorem witness_TamperAlarmsByClass :
    (0 < 16 ∧ 11 < 16 ∧ live.pwr.pg = true ∧ live.boot.done = true) ∧ alarmClass live 0 = 1 ∧ alarmClass live 11 = 2 ∧
    (let s : State := { inState 2 with eph := { configured := true, cfg := { floors := [(11, 3)] } } }
     alarmClass s 11 = 3 ∧ s.pwr.pg = true ∧ s.boot.done = true) ∧
    (let s : State := { inState 3 with dbg := { active := 32 } }
     alarmClass s 11 = 0) ∧ State.reset.pwr.pg = false ∧ live.tam.mismatches.length < 8 ∧ lcCode live ≠ 7 ∧ (9 < 10 ∧ 10 ≤ 10 ∧ 14 < 15) := by decide +kernel

theorem witness_TamperAlarmsByClass_sensors :
    (live.pwr.auxPowered = true ∧ (∀ n ∈ [12, 13], 2 ≤ alarmClass live n) ∧ 1 ≤ alarmClass { live with eph := { configured := true, cfg := { floors := [(15, 3)] } } } 15) ∧
    (let s : State := { live with clk := 99999999, tam := { mismatches := List.replicate 8 0 } }
     8 ≤ (s.tam.mismatches.filter (fun t => s.clk < t + 100000000)).length ∧ 2 ≤ alarmClass s 14) ∧
    (alarmClass live 9 = 1 ∧ (alarmsNow live).erase = false ∧ (alarmsNow { live with tam := { now := { erase := true } } }).erase = true) := by decide +kernel

theorem witness_TamperResponsesEnd_holds :
    (let x : UnitSt := { id := 0x0200, st := .heldTamper }
     let y : UnitSt := { id := 0x0100, st := .heldTamper }
     let z : UnitSt := { id := 0x0300 }
     let s : State := { live with clk := 1024000, tam := { conds := [(1, 0, none), (0, 0, some 0)], holds := [(0x0200, some 0), (0x0100, some 0), (0x0100, some 1)] }, units := [x, y, z] }
     quadrantLocal 0 = false ∧ (0, 0, some 0) ∈ s.tam.conds ∧ 0 + 1024000 ≤ s.clk ∧ s.units[0]? = some x ∧ s.units[1]? = some y ∧ s.units[2]? = some z ∧
     underSensor s.part 0 0 0x0200 = true ∧ (∀ h ∈ s.tam.holds, h.1 = x.id → h.2 = some 0) ∧ (∃ h ∈ s.tam.holds, h.1 = y.id ∧ h.2 ≠ some 0) ∧ z.st ≠ .heldTamper) ∧
    (let s : State := { live with tam := { conds := [(0, 0, none), (0, 1, none), (1, 0, some 5)] } }
     s.tam.conds[0]? = some (0, 0, none) ∧ s.tam.conds[1]? = some (0, 1, none) ∧ s.tam.conds[2]? = some (1, 0, some 5) ∧ 1 ≠ 0) ∧
    (let s : State := { live with sc := { live.sc with sealDead := true }, slots := [{ idx := 3, st := .occupied, material := [1] }] }
     s.sc.sealDead = true ∧ s.sc.sealKey.isSome = true ∧ s.slots[0]? = some { idx := 3, st := .occupied, material := [1] }) := by decide +kernel

theorem witness_TamperResponsesEnd :
    (let s : State := { live with sc := { live.sc with sealDead := true } }
     s.sc.sealDead = true ∧ s.sc.sealKey.isSome = true) ∧ live.sc.sealDead = false ∧
    (let s : State := { live with tam := { destroyPending := true } }
     s.pwr.pg = true ∧ s.tam.destroyPending = true ∧ fullSession s = true ∧ s.tok.socket = some {}) ∧
    (let s : State := { live with clk := 1023999, tam := { conds := [(0, 0, some 0)] } }
     ∀ c ∈ s.tam.conds, c.1 = 0 → c.2.2 = none ∨ ∃ a ∈ [0], c.2.2 = some a ∧ s.clk < a + 1024000) ∧
    (let x : UnitSt := { id := 0x0100, st := .heldTamper }
     let s : State := { live with clk := 1024000, tam := { conds := [(0, 0, some 0)], holds := [(0x0100, some 0)] }, units := [x] }
     quadrantLocal 0 = false ∧ s.tam.conds = [(0, 0, some 0)] ∧ 0 + 1024000 ≤ s.clk ∧ s.tam.holds = [(0x0100, some 0)] ∧ s.units = [x] ∧ x.id = 0x0100 ∧ x.st = .heldTamper) ∧
    ({ live with tam := { conds := [(0, 0, none)] } } : State).tam.conds = [(0, 0, none)] ∧
    (barOpen live .pf0 = true ∧ 15 < 16 ∧ (0x8000#32).toNat = 2 ^ 15 ∧ sensorAckable live 15 = true) ∧
    (let s : State := { live with tam := { conds := [(15, 0, none)] } }
     barOpen s .pf0 = true ∧ sensorAckable s 15 = false) ∧
    (bitOf (0x04000000#32).toNat 26 = true ∧ live.tam.destroyPending = false) := by decide +kernel

theorem witness_FaultUnitRows :
    (barOpen live .pf0 = true ∧ 15 < 16 ∧ live.flt.counts[15]? = some 0 ∧ faultPending live 15 = false ∧
      faultPending (liveAlm { staging := [{ kind := 0x0608, severity := 3 }] }) 7 = true) ∧
    (let x : UnitSt := { id := 0x0300, job := some 1 }
     let s : State := { live with clk := 20000, units := [x] }
     s.unit? 0x0300 = some x ∧ x.job = some 1 ∧ s.dbg.halted ≠ some 1 ∧ x.st = .inService ∧ (poolOfUnit 0x0300).isSome = true ∧ x.busySince + 20000 = s.clk) ∧
    (let x : UnitSt := { id := 0x0300, job := some 1 }
     let s : State := { live with clk := 19999, units := [x] }
     s.unit? 0x0300 = some x ∧ s.clk < x.busySince + 20000) ∧ (live.pwr.pg = true ∧ live.sc.drbgOn = true ∧ live.sc.sources[3]? = some true) ∧ live.sc.sources[4]? ≠ some true ∧
    ({ live with sc := { live.sc with sources := [true, false] } } : State).sc.sources[1]? ≠ some true ∧ State.reset.pwr.pg = false ∧ State.reset.sc.drbgOn = false ∧
    ({ State.reset with units := [{ id := 0x0300 }] } : State).unit? 0x0300 = some { id := 0x0300 } ∧
    (let x : UnitSt := { id := 0, maskBlocks := 1048577 }
     ({ live with units := [x] } : State).unit? 0 = some x ∧ ({ State.reset with units := [x] } : State).unit? 0 = some x) ∧
    (({ State.reset with pwr := { pg := true }, sc := { sources := [true, true, true, true] } } : State).sc.drbgOn = false ∧
      ((modAt [true, true, false, false] 0 (fun _ => false)).filter id).length < 2 ∧ 2 ≤ ((modAt live.sc.sources 3 (fun _ => false)).filter id).length) ∧
    (live.pwr.pg = true ∧ live.chans[7]? = some ({ inService := true } : Chan) ∧ ({ inService := true } : Chan).inService = true) := by decide +kernel

/-! ### Witnesses: the digest port, the mailboxes, register writes -/

/-- VF 1's digest port as given. -/
def withDdp (d : FnDdp) : FnState := { page (.vf 1) with ddp := d }
def vfState (x : FnState) : State := { live with fns := [page .pf0, x] }

theorem witness_DigestPortHashesItsWords :
    (live.fn? (.vf 1) = some (page (.vf 1)) ∧ pageOpen live (.vf 1) = true ∧ ddpAlgs.contains 0x0E = false ∧ ddpAlgs.contains 2 = true ∧ 2 ≠ 0x0F ∧
      hType (page (.vf 1)).ddp.key = 0 ∧ (page (.vf 1)).ddp.busy = false ∧ (page (.vf 1)).ddp.done = false ∧
      ddpLands (.vf 1) 0x810 { target := .bar0 (.vf 1), off := 0x810, width := 64, value := 2 ^ 64 - 1 } live = true ∧
      ddpLands (.vf 1) 0x818 { target := .bar0 (.vf 1), off := 0x818, width := 64 } live = true) ∧
    (let x := withDdp { busy := true, buffered := 511 }
     (vfState x).fn? (.vf 1) = some x ∧ pageOpen (vfState x) (.vf 1) = true ∧ x.ddp.error = 0 ∧ x.ddp.busy = true ∧ x.ddp.done = false ∧ x.ddp.ending = false ∧ x.ddp.buffered < 512) ∧
    (let x := withDdp { busy := true, buffered := 512 }
     (vfState x).fn? (.vf 1) = some x ∧ x.ddp.error = 0 ∧ x.ddp.busy = true ∧ x.ddp.ending = false ∧ 512 ≤ x.ddp.buffered ∧ x.ddp.drainAt = (vfState x).clk) ∧
    (let x := withDdp { busy := true, ending := true }
     (vfState x).fn? (.vf 1) = some x ∧ pageOpen (vfState x) (.vf 1) = true ∧ x.ddp.busy = true ∧ x.ddp.ending = true ∧ x.ddp.keyed = none) := by decide +kernel

/-- VF 1's mailbox as given. -/
def withMbx (m : FnMbx) : FnState := { page (.vf 1) with mbx := m }

theorem witness_MailboxMessagesWaitForTheirReader :
    (live.fn? (.vf 1) = some (page (.vf 1)) ∧ hasMailbox (.vf 1) = true ∧ pageOpen live (.vf 1) = true ∧ live.mgr.enable = false ∧ (page (.vf 1)).mbx.outPend = false ∧
      (page (.vf 1)).mbx.inPend = false ∧ selected live = none ∧ hasMailbox .pf0 = false ∧
      ideDiscards live { target := .bar0 (.vf 1), off := 0x500 } = false) ∧
    (let x := withMbx { outPend := true, inPend := true }
     let s : State := { vfState x with mgr := { selType := 2, selInst := 1 } }
     s.fn? (.vf 1) = some x ∧ pageOpen s (.vf 1) = true ∧ x.mbx.outPend = true ∧ x.mbx.inPend = true ∧ selected s = some (.vf 1) ∧ pageOpen s .pf0 = true ∧ x.mbx.enable = false) ∧
    (let s : State := { live with mgr := { enable := true, selType := 2, selInst := 1 } }
     s.mgr.enable = true ∧ selected s = some (.vf 1) ∧ pageOpen s .pf0 = true) ∧
    (pageAt live (.bar0 (.vf 1)) 0x500 = some (.vf 1, 0x500) ∧ pageAt live (.bar0 (.vf 1)) 0x5FC = some (.vf 1, 0x5FC) ∧ 0x5FC % 4 = 0 ∧ 0x500 ≤ 0x500 ∧ 0x5FC < 0x600 ∧
      ({ target := .bar0 (.vf 1), off := 0x5FC } : RegAccess).width = 32 ∧ ideDiscards live { target := .bar0 (.vf 1), off := 0x5FC } = false) := by
  decide +kernel

theorem witness_RegisterWritesReachTheirRegister :
    (8 ≠ 32 ∧ 8 ≠ 64 ∧ 2 % 4 ≠ 0) ∧ (barOpen State.reset .pf0 = false ∧ State.reset.link.up = false) ∧ pageOpen live .pf0 = true ∧
    (live.fn? .pf0 = some (page .pf0) ∧ (page .pf0).aqEnable = false) ∧
    (let x : FnState := { page .pf0 with aqEnable := true }
     (withFn x).fn? .pf0 = some x ∧ pageOpen (withFn x) .pf0 = true ∧ x.aqEnable = true) := by decide +kernel

theorem witness_RegisterWritesReachTheirRegister_config :
    (live.fn? .pf1 = some (page .pf1) ∧ cfgOpen live .pf0 = true ∧ cfgOpen live .pf1 = true ∧ cfgOpen live (.vf 1) = true ∧ (page .pf0).pba = [] ∧ 2 % 2 = 0) ∧
    (let x : FnState := { page .pf0 with pba := [3] }
     (withFn x).fn? .pf0 = some x ∧ cfgOpen (withFn x) .pf0 = true ∧ x.pba ≠ []) ∧
    (pageOpen live (.vf 1) = true ∧ 63 < tableVectors (.vf 1) ∧ 2047 < tableVectors .pf0 ∧ pageOpen live .pf0 = true ∧
      (let u : RegAccess := { target := .bar4 (.vf 1), off := 16 * 63 + 12, value := 2 ^ 32 - 1 }
       u.target = .bar4 (.vf 1) ∧ u.width = 32 ∧ u.ide = none ∧ u.error = none ∧ u.value % 2 = 1)) ∧
    (live.link.vfEnable = true ∧ (let s : State := { live with link := { live.link with vfEnable := false } }; s.link.vfEnable = false ∧ cfgOpen s .pf0 = true)) := by decide +kernel

/-! ### Witnesses: the block -/

theorem witness_StepRunsTheFrontCommand : ({ live with pending := [.thermalWarnClear, .holdoverExpired] } : State).pending = .thermalWarnClear :: [.holdoverExpired] := rfl

theorem witness_StepKeepsTilesCanonical : TilesOk live ∧ step live = .next (tick live) :=
  ⟨⟨by decide +kernel, by decide +kernel⟩, rfl⟩

theorem witness_FusesStayBurned : step (inState 2) = .next (tick (inState 2)) := rfl

/-- A command waits before the module with a queue pair and a key. -/
def beforeStep (c : Instr) : State := { withKey [] with pending := [c], cqs := [{ id := 4, log2 := 16, head := 65535, tail := 131071 }] }

theorem witness_RingsStayInOrder :
    RingsOk (beforeStep .thermalWarnClear) ∧ (∀ a, (beforeStep .thermalWarnClear).pending.head? ≠ some (.restoreState a)) ∧ (∃ t, step (beforeStep .thermalWarnClear) = .next t) := by
  refine ⟨⟨by decide +kernel, by decide +kernel⟩, fun a h => ?_, _, rfl⟩
  cases h

theorem witness_SlotGenerationsNeverFall :
    SlotsOk (beforeStep .thermalWarnClear) ∧ (∀ c, (beforeStep .thermalWarnClear).pending.head? = some c → resetsModule c = false ∧ ∀ a, c ≠ .restoreState a) ∧
    (∃ t, step (beforeStep .thermalWarnClear) = .next t) := by
  refine ⟨show ∀ x ∈ (beforeStep .thermalWarnClear).slots, SlotOk x by decide +kernel, fun c h => ?_, _, rfl⟩
  cases h
  exact ⟨rfl, fun a h => by cases h⟩

/-- A key of one tree of height 5 with two reserved ranges, the first with its last leaf left. -/
def leafKey : StatefulKey := { domain := 0, index := 0, heights := [5], next := 7, endLeaf := 16, ranges := [(7, 8), (12, 16)] }
def withLeaves : State := { live with tok := { live.tok with socket := some { stateful := [leafKey] } } }

theorem witness_EachLeafIsTakenOnce :
    (let j := jobOf 0x1301 [(13, 0x23)] .ready
     dOp j.desc = 0x1301 ∧ (nextLeaf (dKey j.desc) withLeaves).1 = some 7 ∧ LeafOk leafKey) ∧
    (LeavesOk withLeaves ∧ (∀ env, withLeaves.pending.head? ≠ some (.powerGood env)) ∧ step withLeaves = .next (tick withLeaves)) ∧
    (∀ c, withLeaves.pending.head? = some c → appliesAums c = false) := by
  refine ⟨by decide +kernel, ⟨fun t h => ?_, (fun env h => nomatch h), rfl⟩, (fun c h => nomatch h)⟩
  cases h
  decide +kernel

/-- The module before its first power-good meets what those three ask. -/
theorem reset_in_order : RingsOk State.reset ∧ SlotsOk State.reset ∧ LeavesOk State.reset :=
  ⟨⟨by decide +kernel, by decide +kernel⟩, (fun x h => nomatch h), (fun t h => nomatch h)⟩

/-! ### Values of the spec -/

/-- R366: a context record starts with 64 bytes, WRAP_NONCE last, and its plain STATE has 384. -/
theorem test_ctx_record : (ctxHead {} 7).length = 64 ∧ sliceOf (ctxHead {} 7) 52 12 = leBytes 12 7 ∧ (ctxPlain {}).length = 384 := by decide +kernel

/-- R407's example: an SHAND of a full YQ9 register at EW 64 takes 8 cycles at order 1 and 24 at order 2. -/
theorem test_shand_cycles :
    (let x (n : Nat) := seenBy live (theCluster { vl := 32 }) { theResid with view := { order := n } }
     live.part = .yq9 ∧ vccCycles (x 1) (.shand 0 { ew := 3 }) = some 8 ∧ vccCycles (x 2) (.shand 0 { ew := 3 }) = some 24) := by decide +kernel

/-- R152's tables: a ring of depth 4; the CQ-head writes against head 1:0, tail 1:2, and a full ring's first outcome. -/
theorem test_ring_distance : idxDist 4 (1 * 65536 + 0) (1 * 65536 + 2) = 2 ∧ idxDist 4 (1 * 65536 + 3) 0 = 1 ∧ idxDist 4 1 (65536 + 1) = 4 := by decide
/-- R380. -/
theorem test_verdict_words : verdictWords true = [0xF0, 0xA5, 0x96, 0x3C, 0x0F, 0x5A, 0x69, 0xC3] := by decide
/-- R450's one-hot codes: MAKER 0x01 to SCRAPPED 0x1F. -/
theorem test_lifecycle_codes : (List.range 5).map (fun n => lcCode (inState n)) = [0x01, 0x03, 0x07, 0x0F, 0x1F] := by decide +kernel
/-- R214: the fields of a handle. -/
theorem test_handle : mkHandle 0xFFFF 0x12 0xFFFE 0xFFFFFF = 0xFFFF12FFFEFFFFFF ∧ hGen 0xFFFF12FFFEFFFFFF = 0xFFFE ∧ hType 0xFFFF12FFFEFFFFFF = 0x12 := by decide
/-- FIPS 180-4's example "abc", which R374's SHA-256 must give. -/
theorem test_sha256_abc : (sha256 [0x61, 0x62, 0x63]).take 4 = [0xBA, 0x78, 0x16, 0xBF] := by decide +kernel
/-- R198. -/
theorem test_status_codes : Status.budgetExceeded.code = 0x0701 ∧ Status.outputTooSmall.code = 0x0104 := by decide
/-- R36: Meridian time in Transits is the nanoseconds shifted right by 10. -/
theorem test_transit_read : ∃ s, exec (.transitNowLoRead false) (liveMer { ns := 2 ^ 43 + 1024 }) = .next s ∧ s.mer.hiLatch = 2 ∧ s.out = [.readValue 1] :=
  ⟨_, rfl, by decide +kernel, by decide +kernel⟩
/-- R150: a doorbell beyond the ring's depth stops the queue with reason 0x01 and leaves its head. -/
theorem test_tail_doorbell_range : ∃ s, exec (.sqTailDoorbell (tailWrite 2)) (withJobs []) = .next s ∧ (s.sq? .pf0 3).map (fun q => (q.st, q.reason, q.latched, q.head)) = some (.error, 1, 2, 0) :=
  ⟨_, rfl, by decide +kernel⟩
/-- R393: g0 discards writes. -/
theorem test_g0_discards : (gWrite 0 5 true {}).g = ({} : RegSave).g := by decide +kernel
/-- R399: a vector add wraps within its element. -/
theorem test_vadd_wraps : (vRead (vvOp elAdd { vd := 3, vs1 := 1, vs2 := 2, ew := 3 } (seenBy live (theCluster { vl := 1, v := [0, 0x1FFFFFFFFFFFFFFFF, 2] ++ List.replicate 29 0 }) theResid)).cl.regs 3) = 1 := by
  decide +kernel
/-- R447: an advance without the complement is refused for reason 1 and counted. -/
theorem test_lcs_refused : ∃ s, exec (.lcsAdvanceIntegrator 0x0003) live = .next s ∧ (s.lcs.refused, s.lcs.lastRefuse) = (1, 1) := ⟨_, rfl, by decide +kernel⟩
/-- R491: a cursor write of more than 18 bits keeps the low 18. -/
theorem test_cursor_write : ∃ s, exec (.almCursorWrite 0xFFFFFFFF) live = .next s ∧ s.alm.cursor = 262143 ∧ s.alm.loading = true := ⟨_, rfl, by decide +kernel, by decide +kernel⟩
/-- R507, R508: the whole-register reset values. -/
theorem test_reset_block_values : [0x10000, 0x10004, 0x20000, 0x20008 + 8, 0x30000, 0x40000, 0x50000, 0x50004, 0x60004, 0x70000, 0x70004].map (regValue State.reset (.bar0 .pf0)) =
    [0x01000000, 0xFFFF0000, 0x1, 0, 0, 2, 0xFFFFFFFF, 0, 4, 0x00F00000, 0xFF000000] := by decide +kernel
/-- R506: DEV_CAP0 to DEV_CAP3 of the YQ9, and R505's DEV_ID. -/
theorem test_identity_values : [0, 8, 0xC, 0x10, 0x14].map (regValue State.reset (.bar0 .pf0)) = [0x0C905951, 0x04081020, 0x00040808, 0x49, 0x00080020] := by decide +kernel
/-- The module as reset leaves it, its link up and PF0's BARs open. -/
def opened : State := { State.reset with link := { State.reset.link with up := true }, fns := [{ page .pf0 with ready := false }] }
/-- R501: a read that is not aligned returns 0; R128: with the link down no read is answered from a register. -/
theorem test_unaligned_read : regRead opened (.bar0 .pf0) 0x10006 32 = some 0 ∧ regRead opened (.bar0 .pf0) 0x10000 64 = some 0xFFFF000001000000 ∧
    regRead State.reset (.bar0 .pf0) 0x10000 64 = none := by decide +kernel
/-- R83: without main power both LEDs are off. -/
theorem test_leds_unpowered : serviceLed State.reset = .off ∧ ledgerLed State.reset = some .off := by decide +kernel
/-- R83: QUARANTINE comes before every other row with main power. -/
theorem test_led_quarantine : serviceLed { State.reset with pwr := { main := true, pg := true }, tam := { quarantine := true } } = .amber := by decide +kernel

/-- R17: a line whose ECC fails, or whose MAC does not match, is not delivered; without a sealing key there is no line. -/
theorem test_line_is_checked (key : Bytes) (addr : Nat) (l : SealedLine) : openLine key addr .bad l = none ∧ openLine key addr .good { sealLine key addr [] with mac := l.mac } =
    (if l.mac != Config.lineMac key addr (sealLine key addr []).cipher then none else some (xts false key addr 64 (sealLine key addr []).cipher)) ∧
    storedLine State.reset addr [] = none := ⟨rfl, rfl, rfl⟩

end Sys2Proof.Tests
end

/-!
PROOFS. The health block and the SMBus reads (R87 to R89): what the loss of main power, a snapshot and a read do, each said once.
-/
namespace Sys2Proof.Machine

/-! ### The loss of main power -/

theorem exec_powerLoss (s : State) : exec .powerLoss s = .next (powerLoss s) := rfl
theorem exec_pwrdisAssert (s : State) : exec .pwrdisAssert s = .next (pwrdisOn s) := rfl

@[simp] theorem auxGone_pg (s : State) : (auxGone s).pwr.pg = s.pwr.pg := by
  unfold auxGone; split <;> rfl
@[simp] theorem auxGone_health (s : State) : (auxGone s).pwr.health = s.pwr.health := by
  unfold auxGone; split <;> rfl

@[simp] theorem pgOff_pg (s : State) : (pgOff s).pwr.pg = false := by
  unfold pgOff
  split
  case isTrue hoff => simpa using hoff
  case isFalse => rfl

theorem pgOff_health {s : State} (hpg : s.pwr.pg = true) : (pgOff s).pwr.health = healthOff := by
  simp [pgOff, hpg]

/-- The 9 bytes of the block that carry a field, as R89 gives them. -/
theorem healthOff_fields : healthOff.take 9 = [0x01, 0x00, 0x00, 0x80, 0x80, 0x00, 0x00, 0xFF, 0x00] := rfl

/-! ### Snapshots -/

theorem exec_healthSnapshot (tj tb : Int) (p12 : Nat) (s : State) :
    exec (.healthSnapshot tj tb p12) s = .next (healthSnap tj tb p12 s) := rfl

section
variable (tj tb : Int) (p12 : Nat) (s : State)

@[simp] theorem healthSnap_part : (healthSnap tj tb p12 s).part = s.part := by
  unfold healthSnap; split <;> rfl
@[simp] theorem healthSnap_out : (healthSnap tj tb p12 s).out = s.out := by
  unfold healthSnap; split <;> rfl
@[simp] theorem healthSnap_auxPowered : (healthSnap tj tb p12 s).pwr.auxPowered = s.pwr.auxPowered := by
  unfold healthSnap; split <;> rfl
@[simp] theorem healthSnap_smbOffFru : (healthSnap tj tb p12 s).pwr.smbOffFru = s.pwr.smbOffFru := by
  unfold healthSnap; split <;> rfl
@[simp] theorem healthSnap_smbOffHealth : (healthSnap tj tb p12 s).pwr.smbOffHealth = s.pwr.smbOffHealth := by
  unfold healthSnap; split <;> rfl

/-- With main power off a snapshot that is due takes R89's block, and one that is not due keeps the block. -/
theorem healthSnap_health_of_pg_off (haux : s.pwr.auxPowered = true) (hpg : s.pwr.pg = false) :
    (healthSnap tj tb p12 s).pwr.health = if healthDue s then healthOff else s.pwr.health := by
  cases hdue : healthDue s <;> simp [healthSnap, haux, hpg, hdue]

end

/-! ### Reads over SMBus -/

theorem exec_smbusFruRead (n : Nat) (pec : Bool) (s : State) :
    exec (.smbusFruRead n pec) s = .next (fruRead n pec s) := rfl
theorem exec_smbusHealthRead (n : Nat) (pec : Bool) (s : State) :
    exec (.smbusHealthRead n pec) s = .next (healthRead n pec s) := rfl

/-- A read from offset 0 that does not wrap gives the first bytes of the region. -/
theorem wrapRead_zero_eq_take {size n : Nat} {l : Bytes} (hsize : n ≤ size) (hlen : n ≤ l.length) :
    wrapRead size (fun i => l.getD i 0) 0 n = l.take n := by
  apply List.ext_getElem
  · simp [wrapRead, hlen]
  · intro i hi _
    have hin : i < n := by simpa [wrapRead] using hi
    have hmod : i % size = i := Nat.mod_eq_of_lt (by omega)
    have hil : i < l.length := by omega
    simp [wrapRead, hmod, hil]

theorem fruRead_out {s : State} (n : Nat) (haux : s.pwr.auxPowered = true) :
    (fruRead n false s).out = s.out ++ [.smbus (wrapRead 512 (fruAt s.part) s.pwr.smbOffFru n)] := by
  simp [fruRead, haux, smbusAnswer, emit]

theorem fruRead_one_out {s : State} (haux : s.pwr.auxPowered = true) :
    (fruRead 1 false s).out = s.out ++ [.smbus [fruAt s.part (s.pwr.smbOffFru % 512)]] := by
  rw [fruRead_out 1 haux]
  rfl

theorem healthRead_out {s : State} (n : Nat) (haux : s.pwr.auxPowered = true) :
    (healthRead n false s).out =
      s.out ++ [.smbus (wrapRead 32 (fun i => s.pwr.health.getD i 0) s.pwr.smbOffHealth n)] := by
  simp [healthRead, haux, smbusAnswer, emit]

/-- A health read from offset 0 that does not wrap answers the first bytes of the block. -/
theorem healthRead_out_of_offset_zero {s : State} {n : Nat} (haux : s.pwr.auxPowered = true) (hoff : s.pwr.smbOffHealth = 0)
    (hn : n ≤ 32) (hlen : n ≤ s.pwr.health.length) :
    (healthRead n false s).out = s.out ++ [.smbus (s.pwr.health.take n)] := by
  rw [healthRead_out n haux, hoff, wrapRead_zero_eq_take hn hlen]

/-- Settles O6: the loss of main power writes R89's block, a snapshot without main power writes it again or keeps it, and the two reads answer from
the block and the FRU data at their offsets. -/
theorem healthBlockWithMainPowerOff : Obligations.HealthBlockWithMainPowerOff := by
  unfold Obligations.HealthBlockWithMainPowerOff
  rw [← healthOff_fields]
  refine ⟨fun c s hc hpg => ?_, fun tj tb p12 s haux hpg hblock => ?_⟩
  · obtain rfl | rfl := hc
    · exact ⟨powerLoss s, exec_powerLoss s, by simp [powerLoss], by simp [powerLoss, pgOff_health hpg]⟩
    · exact ⟨pwrdisOn s, exec_pwrdisAssert s, by simp [pwrdisOn], by simp [pwrdisOn, pgOff_health hpg]⟩
  · have hfields : (healthSnap tj tb p12 s).pwr.health.take 9 = healthOff.take 9 := by
      rw [healthSnap_health_of_pg_off tj tb p12 s haux hpg]
      split
      case isTrue => rfl
      case isFalse hdue => exact hblock.resolve_left hdue
    have hpowered : (healthSnap tj tb p12 s).pwr.auxPowered = true :=
      (healthSnap_auxPowered tj tb p12 s).trans haux
    have hlen : 9 ≤ (healthSnap tj tb p12 s).pwr.health.length := by
      have htake := congrArg List.length hfields
      rw [healthOff_fields, List.length_take] at htake
      simp only [List.length_cons, List.length_nil] at htake
      omega
    refine ⟨_, exec_healthSnapshot tj tb p12 s, hfields, healthSnap_smbOffFru tj tb p12 s, healthSnap_smbOffHealth tj tb p12 s, fun hoff => ?_, ?_⟩
    · have hread := healthRead_out_of_offset_zero hpowered ((healthSnap_smbOffHealth tj tb p12 s).trans hoff) (by decide) hlen
      rw [hfields, healthSnap_out] at hread
      exact ⟨_, exec_smbusHealthRead 9 false _, hread⟩
    · have hread := fruRead_one_out hpowered
      simp only [healthSnap_out, healthSnap_part, healthSnap_smbOffFru] at hread
      exact ⟨_, exec_smbusFruRead 1 false _, hread⟩

end Sys2Proof.Machine

/-!
PROOFS. Ring occupancy, the SQ-tail doorbell and the admin queue's start (R148 to R150, R168): what each can do, said once.
-/
namespace Sys2Proof.Machine

/-! ### Positions of 17-bit indices -/

theorem idxPos_eq_div_mod {v : Nat} (n : Nat) (hv : v < 131072) : idxPos n v = v / 65536 * n + v % 65536 := by
  have hwrap : v / 65536 % 2 = v / 65536 := Nat.mod_eq_of_lt (by omega)
  rw [idxPos, idxWrap, idxSlot, hwrap]

/-- A position is the slot, in the first lap of the ring or in the second. -/
theorem idxPos_cases {v : Nat} (n : Nat) (hv : v < 131072) :
    v / 65536 = 0 ∧ idxPos n v = v % 65536 ∨ v / 65536 = 1 ∧ idxPos n v = n + v % 65536 := by
  rw [idxPos_eq_div_mod n hv]
  obtain hlap | hlap : v / 65536 = 0 ∨ v / 65536 = 1 := by omega
  · exact .inl ⟨hlap, by simp [hlap]⟩
  · exact .inr ⟨hlap, by simp [hlap]⟩

/-- The distance of two indices is the difference of their positions modulo 2N (R149). -/
theorem idxDist_cast {n h : Nat} (t : Nat) (hh : idxSlot h < n) :
    (idxDist n h t : Int) = ((idxPos n t : Int) - (idxPos n h : Int)) % (2 * (n : Int)) := by
  have hle : idxPos n h ≤ idxPos n t + 2 * n := by
    have hlt := idxPos_lt hh
    omega
  have hcast : ((idxPos n t + 2 * n - idxPos n h : Nat) : Int) = (idxPos n t : Int) - (idxPos n h : Int) + 2 * (n : Int) := by omega
  calc (idxDist n h t : Int)
      = ((idxPos n t + 2 * n - idxPos n h : Nat) : Int) % (2 * (n : Int)) := Int.natCast_emod _ _
    _ = ((idxPos n t : Int) - (idxPos n h : Int) + 2 * (n : Int)) % (2 * (n : Int)) := by rw [hcast]
    _ = ((idxPos n t : Int) - (idxPos n h : Int)) % (2 * (n : Int)) := Int.add_emod_right _ _

section
variable {n h t : Nat} (hh : h < 131072) (ht : t < 131072) (hhs : h % 65536 < n) (hts : t % 65536 < n)
include hh ht hhs hts

theorem idxDist_eq_zero_iff : idxDist n h t = 0 ↔ h = t := by
  rw [idxDist, dist_pos (idxPos_lt hhs) (idxPos_lt hts)]
  have hpos := idxPos_cases n hh
  have tpos := idxPos_cases n ht
  split <;> omega

theorem idxDist_eq_depth_iff : idxDist n h t = n ↔ h % 65536 = t % 65536 ∧ h / 65536 ≠ t / 65536 := by
  rw [idxDist, dist_pos (idxPos_lt hhs) (idxPos_lt hts)]
  have hpos := idxPos_cases n hh
  have tpos := idxPos_cases n ht
  split <;> omega

end

/-- Settles O15: the distance is the difference of the positions modulo 2N, and two positions coincide, or lie N apart, as their slots and wrap
bits say. -/
theorem ringOccupancyIsModular : Obligations.RingOccupancyIsModular := by
  unfold Obligations.RingOccupancyIsModular
  intro n h t _ _ hh ht hhs hts
  exact ⟨idxDist_cast t hhs, idxPos_eq_div_mod n ht, idxDist_eq_zero_iff hh ht hhs hts, idxDist_eq_depth_iff hh ht hhs hts⟩

/-! ### Changing one queue -/

theorem modFirst_congr {α : Type} {p : α → Bool} {g k : α → α} {l : List α} (hgk : ∀ x, l.find? p = some x → g x = k x) :
    modFirst p g l = modFirst p k l := by
  induction l with
  | nil => rfl
  | cons a l ih =>
    cases ha : p a with
    | true => simp [modFirst, ha, hgk a (by simp [ha])]
    | false => simp [modFirst, ha, ih (by simpa [ha] using hgk)]

@[simp] theorem modFirst_id {α : Type} (p : α → Bool) (l : List α) : modFirst p id l = l := by
  induction l with
  | nil => rfl
  | cons a l ih => simp [modFirst, ih]

section
variable {s : State} {f : Fn} {q : Nat} {x : Sq} (hsq : s.sq? f q = some x)
include hsq

/-- Only what a change makes of the queue itself counts. -/
theorem onSq_congr {g k : Sq → Sq} (hgk : g x = k x) : s.onSq f q g = s.onSq f q k := by
  have hfound : ∀ y, s.sq? f q = some y → g y = k y := by
    rw [hsq]
    rintro y ⟨⟩
    exact hgk
  exact congrArg (fun l => { s with sqs := l }) (modFirst_congr hfound)

theorem onSq_eq_self {g : Sq → Sq} (hg : g x = x) : s.onSq f q g = s := by
  rw [onSq_congr hsq (k := id) hg]
  exact congrArg (fun l => { s with sqs := l }) (modFirst_id _ s.sqs)

end

/-! ### The SQ-tail doorbell (R150) -/

theorem exec_sqTailDoorbell (w : RegAccess) (s : State) : exec (.sqTailDoorbell w) s = .next (doorbellWrite false w s) := rfl

/-- A tail doorbell that reaches a function or slice acts by the tail rule. -/
theorem doorbellWrite_tail {s : State} {w : RegAccess} {f : Fn} {q : Nat} (hat : doorbellAt s w = some (f, q, false))
    (hserves : serves s f = true) (hbar : barOpen s f = true) : doorbellWrite false w s = sqTailRule f q w.value s := by
  simp [doorbellWrite, hat, hserves, hbar]

/-- The four outcomes of the tail rule, on the low 17 bits of what was written, in the order in which they are tried. -/
theorem sqTailRule_eq {s : State} {f : Fn} {q : Nat} {x : Sq} (hsq : s.sq? f q = some x) (hst : x.st ≠ .error) (value : Nat) :
    sqTailRule f q value s =
    if 2 ^ x.log2 ≤ value % 131072 % 65536 then stopSq f q 0x01 (value % 131072) s
    else if 2 ^ x.log2 < idxDist (2 ^ x.log2) x.head (value % 131072) then stopSq f q 0x02 (value % 131072) s
    else if idxDist (2 ^ x.log2) x.head (value % 131072) < idxDist (2 ^ x.log2) x.head x.tail then stopSq f q 0x03 (value % 131072) s
    else s.onSq f q (fun y => { y with tail := value % 131072, arrivals := y.arrivals ++ List.replicate (idxDist (2 ^ x.log2) x.tail (value % 131072)) s.clk }) := by
  have hrun : (x.st == .error) = false := by simpa using hst
  simp only [sqTailRule, hsq, hrun, Bool.false_eq_true, if_false]
  have hadvance := onSq_congr hsq
    (g := fun y => { y with tail := value % 131072, arrivals := y.arrivals ++ List.replicate (idxDist x.depth y.tail (value % 131072)) s.clk })
    (k := fun y => { y with tail := value % 131072, arrivals := y.arrivals ++ List.replicate (idxDist x.depth x.tail (value % 131072)) s.clk }) rfl
  rw [hadvance]
  rfl

/-- A tail that is the queue's already makes no entry visible. -/
theorem onSq_tail_same {s : State} {f : Fn} {q : Nat} {x : Sq} (n : Nat) (hsq : s.sq? f q = some x) :
    s.onSq f q (fun y => { y with tail := x.tail, arrivals := y.arrivals ++ List.replicate (idxDist n x.tail x.tail) s.clk }) = s :=
  onSq_eq_self hsq (by simp [idxDist_self])

/-- Settles O16: each outcome is the branch of the tail rule that its conditions select. -/
theorem tailDoorbellTakesTheFirstOutcome : Obligations.TailDoorbellTakesTheFirstOutcome := by
  unfold Obligations.TailDoorbellTakesTheFirstOutcome
  rintro w f q n v x s hat hserves hbar hsq hst rfl rfl
  refine ⟨_, exec_sqTailDoorbell w s, ?_⟩
  rw [doorbellWrite_tail hat hserves hbar, sqTailRule_eq hsq hst]
  refine ⟨fun hrange => ?_, fun hrange hover => ?_, fun hrange hover hback => ?_, fun hrange hover hback => ?_⟩
  · rw [if_pos hrange]
    exact sq?_stopSq _ _ hsq hst
  · rw [if_neg (Nat.not_le_of_lt hrange), if_pos hover]
    exact sq?_stopSq _ _ hsq hst
  · rw [if_neg (Nat.not_le_of_lt hrange), if_neg (Nat.not_lt_of_le hover), if_pos hback]
    exact sq?_stopSq _ _ hsq hst
  · rw [if_neg (Nat.not_le_of_lt hrange), if_neg (Nat.not_lt_of_le hover), if_neg (Nat.not_lt_of_le hback)]
    refine ⟨rfl, fun hsame => ?_⟩
    rw [hsame]
    exact onSq_tail_same _ hsq

/-! ### The admin queue's start (R168) -/

theorem exec_aqEnable (f : Fn) (v : Word) (s : State) : exec (.aqEnable f v) s = .next (aqSizeWrite f v.toNat s) := rfl

theorem adminLog2Ok_iff {n : Nat} : adminLog2Ok n = true ↔ 1 ≤ n ∧ n ≤ 12 := by
  simp [adminLog2Ok]

/-- Both depth fields of an AQ_SIZE value lie in 1 to 12, and both bases are set: R168 accepts ENABLE = 1. -/
def AqStartOk (x : FnState) (v : Nat) : Prop :=
  (1 ≤ bitsOf v 0 5 ∧ bitsOf v 0 5 ≤ 12) ∧ (1 ≤ bitsOf v 8 5 ∧ bitsOf v 8 5 ≤ 12) ∧ x.aqSqBase ≠ 0 ∧ x.aqCqBase ≠ 0

/-- The model's refusal test for ENABLE = 1 fails exactly where R168 accepts. -/
theorem aqStartOk_iff {x : FnState} {v : Nat} : AqStartOk x v ↔
    (!adminLog2Ok (bitsOf v 0 5) || !adminLog2Ok (bitsOf v 8 5) || x.aqSqBase == 0 || x.aqCqBase == 0) = false := by
  simp only [AqStartOk, Bool.or_eq_false_iff, Bool.not_eq_false', adminLog2Ok_iff, beq_eq_false_iff_ne, and_assoc, ne_eq]

/-- The record of a function with the depth fields of an AQ_SIZE value stored. -/
def aqSized (x : FnState) (v : Nat) : FnState := { x with aqSqLog2 := bitsOf v 0 5, aqCqLog2 := bitsOf v 8 5 }

theorem fnOf_onFn_const {s : State} {f : Fn} {x y : FnState} (hfn : s.fn? f = some x) (hy : y.fn = f) :
    (s.onFn f (fun _ => y)).fnOf f = y := by
  apply fnOf_eq
  rw [fn?_onFn s f _ (fun _ _ => hy), hfn]
  rfl

section
variable {s : State} {f : Fn} {x : FnState} {v : Nat} (hfn : s.fn? f = some x) (hoff : x.aqEnable = false) (henable : bitOf v 31 = true)
include hfn hoff henable

/-- ENABLE = 1 is discarded while the function does not serve. -/
theorem aqSizeWrite_of_not_serves (hserves : serves s f = false) : aqSizeWrite f v s = s := by
  cases hopen : aqOpen s f <;> simp [aqSizeWrite, hfn, hoff, henable, hserves, hopen]

variable (hserves : serves s f = true) (hopen : aqOpen s f = true)
include hserves hopen

theorem aqSizeWrite_of_refused (hbad : ¬ AqStartOk x v) :
    aqSizeWrite f v s = s.onFn f (fun _ => { aqSized x v with aqConfigErr := true }) := by
  have hcheck := eq_true_of_ne_false (mt aqStartOk_iff.2 hbad)
  simp only [aqSizeWrite, hfn, hoff, henable, hserves, hopen, hcheck, Bool.or_self, Bool.not_true, Bool.false_eq_true, if_false, if_true, aqSized]

theorem aqSizeWrite_of_accepted (hgood : AqStartOk x v) :
    aqSizeWrite f v s = { s.onFn f (fun _ => { aqSized x v with aqEnable := true, aqConfigErr := false }) with
      sqs := s.sqs ++ [adminSq (aqSized x v)], cqs := s.cqs ++ [adminCq (aqSized x v)] } := by
  have hcheck := aqStartOk_iff.1 hgood
  simp only [aqSizeWrite, hfn, hoff, henable, hserves, hopen, hcheck, Bool.or_self, Bool.not_true, Bool.false_eq_true, if_false, aqSized]

end

/-- Settles O18: ENABLE = 1 is discarded, refused or accepted, and what each leaves is read off the function's record and the queues. -/
theorem adminQueueEnable : Obligations.AdminQueueEnable := by
  unfold Obligations.AdminQueueEnable
  rintro f v x s sl cl hfn hoff henable rfl rfl
  have hname : x.fn = f := fn?_fn hfn
  refine ⟨fun hserves => ?_, fun hserves hopen hbad => ⟨_, exec_aqEnable f v s, ?_⟩,
    fun hserves hopen hsl1 hsl2 hcl1 hcl2 hsq hcq => ⟨_, exec_aqEnable f v s, ?_⟩⟩
  · rw [exec_aqEnable, aqSizeWrite_of_not_serves hfn hoff henable hserves]
  · have hrefused : ¬ AqStartOk x v.toNat := by
      rintro ⟨⟨hsl1, hsl2⟩, ⟨hcl1, hcl2⟩, hsq, hcq⟩
      simp only [hsq, hcq, or_false] at hbad
      omega
    rw [aqSizeWrite_of_refused hfn hoff henable hserves hopen hrefused]
    have hrecord := fnOf_onFn_const (y := { aqSized x v.toNat with aqConfigErr := true }) hfn hname
    exact ⟨(congrArg FnState.aqEnable hrecord).trans hoff, congrArg FnState.aqConfigErr hrecord, rfl, rfl⟩
  · have haccepted : AqStartOk x v.toNat := ⟨⟨hsl1, hsl2⟩, ⟨hcl1, hcl2⟩, hsq, hcq⟩
    rw [aqSizeWrite_of_accepted hfn hoff henable hserves hopen haccepted]
    have hrecord := fnOf_onFn_const (y := { aqSized x v.toNat with aqEnable := true, aqConfigErr := false }) hfn hname
    subst hname
    exact ⟨congrArg FnState.aqEnable hrecord, congrArg FnState.aqConfigErr hrecord, rfl, rfl⟩

end Sys2Proof.Machine

/-!
PROOFS. What every command and every step keep (O54 to O59): one case per command, and the statements read off it.
-/
namespace Sys2Proof.Machine
set_option Elab.async false -- as in Laws: the one text has more theorems than threads

/-! ### One command -/

/-- The events of `c` after which an order starts anew. -/
def breaksOf (c : Instr) : Breaks where
  reset := resetsModule c = true
  restore := ∃ a, c = .restoreState a
  token := ∃ env, c = .powerGood env
  aum := appliesAums c = true

theorem exec_keepsOut (c : Instr) (s : State) : KeepsOut (breaksOf c) s (exec c s) :=
  match c with
  | .powerGood env => keeps_execPowerGood (K := breaksOf (.powerGood env)) ⟨env, rfl⟩ rfl env s (.refl s)
  | .tokenSessionRetry hs => keeps_execTokenSessionRetry rfl hs s (.refl s)
  | .startupHoldResume => keeps_execStartupHoldResume rfl s (.refl s)
  | .powerLoss => keeps_execPowerLoss rfl s (.refl s)
  | .pgDip mv ns => keeps_execPgDip mv ns s (.refl s)
  | .perstAssert => keeps_execPerstAssert rfl s (.refl s)
  | .perstDeassert env => keeps_execPerstDeassert rfl env s (.refl s)
  | .pwrdisAssert => keeps_execPwrdisAssert rfl s (.refl s)
  | .pwrdisDeassert => keeps_execPwrdisDeassert s (.refl s)
  | .auxAbsent => keeps_execAuxAbsent s (.refl s)
  | .latchOpen => keeps_execLatchOpen s (.refl s)
  | .thermalWarn celsius => keeps_execThermalWarn celsius s (.refl s)
  | .thermalWarnClear => keeps_execThermalWarnClear s (.refl s)
  | .activityStretchEnd => keeps_execActivityStretchEnd s (.refl s)
  | .smbusOffsetWrite addr off => keeps_execSmbusOffsetWrite addr off s (.refl s)
  | .smbusFruRead n pec => keeps_execSmbusFruRead n pec s (.refl s)
  | .smbusHealthRead n pec => keeps_execSmbusHealthRead n pec s (.refl s)
  | .healthSnapshot tj tb p12 => keeps_execHealthSnapshot tj tb p12 s (.refl s)
  | .strapsRead live => keeps_execStrapsRead live s (.refl s)
  | .transitNowLoRead wide => keeps_execTransitNowLoRead wide s (.refl s)
  | .ptmDialog => keeps_execPtmDialog s (.refl s)
  | .ptmResponse r => keeps_execPtmResponse r s (.refl s)
  | .coaxMarker m => keeps_execCoaxMarker m s (.refl s)
  | .coaxEdgeLoss => keeps_execCoaxEdgeLoss s (.refl s)
  | .ptmEnableClear => keeps_execPtmEnableClear s (.refl s)
  | .holdoverExpired => keeps_execHoldoverExpired s (.refl s)
  | .holdoverDriftUpdate => keeps_execHoldoverDriftUpdate s (.refl s)
  | .catchUpEnd => keeps_execCatchUpEnd s (.refl s)
  | .linkUp w speed => keeps_execLinkUp w speed s (.refl s)
  | .linkRetrain w speed => keeps_execLinkRetrain w speed s (.refl s)
  | .flrVf n => keeps_execFlrVf n s (.refl s)
  | .flrPf0 => keeps_execFlrPf0 s (.refl s)
  | .flrPf1 => keeps_execFlrPf1 s (.refl s)
  | .hotReset => keeps_execHotReset s (.refl s)
  | .secondaryBusReset => keeps_execSecondaryBusReset s (.refl s)
  | .dlDown => keeps_execDlDown s (.refl s)
  | .functionResetComplete fn => keeps_execFunctionResetComplete fn s (.refl s)
  | .d3hotEntry fn => keeps_execD3hotEntry fn s (.refl s)
  | .d0Entry fn => keeps_execD0Entry fn s (.refl s)
  | .busMasterEnableClear fn => keeps_execBusMasterEnableClear fn s (.refl s)
  | .memorySpaceEnableClear fn => keeps_execMemorySpaceEnableClear fn s (.refl s)
  | .vfEnable numVfs => keeps_execVfEnable numVfs s (.refl s)
  | .vfReady n => keeps_execVfReady n s (.refl s)
  | .vfEnableClear => keeps_execVfEnableClear s (.refl s)
  | .atsInvalidate fn req => keeps_execAtsInvalidate fn req s (.refl s)
  | .dmaReadFailure fail => keeps_execDmaReadFailure fail s (.refl s)
  | .completionTimeout t => keeps_execCompletionTimeout t s (.refl s)
  | .msixUnmask fn vec => keeps_execMsixUnmask fn vec s (.refl s)
  | .doeDiscovery index => keeps_execDoeDiscovery index s (.refl s)
  | .doeAbort => keeps_execDoeAbort s (.refl s)
  | .getVersion => keeps_execGetVersion s (.refl s)
  | .getCapabilities => keeps_execGetCapabilities s (.refl s)
  | .negotiateAlgorithms => keeps_execNegotiateAlgorithms s (.refl s)
  | .getDigests => keeps_execGetDigests s (.refl s)
  | .getCertificate off len => keeps_execGetCertificate off len s (.refl s)
  | .spdmChallenge nonce => keeps_execSpdmChallenge nonce s (.refl s)
  | .getMeasurements index signed nonce => keeps_execGetMeasurements index signed nonce s (.refl s)
  | .keyExchange req => keeps_execKeyExchange req s (.refl s)
  | .finish session mac => keeps_execFinish session mac s (.refl s)
  | .endSession session => keeps_execEndSession session s (.refl s)
  | .spdmUnsupportedRequest code => keeps_execSpdmUnsupportedRequest code s (.refl s)
  | .ideKmQuery session => keeps_execIdeKmQuery session s (.refl s)
  | .ideKmKeyProg session p => keeps_execIdeKmKeyProg session p s (.refl s)
  | .ideKmKSetGo session p => keeps_execIdeKmKSetGo session p s (.refl s)
  | .ideKmKSetStop session p => keeps_execIdeKmKSetStop session p s (.refl s)
  | .ideIntegrityFailure fail => keeps_execIdeIntegrityFailure fail s (.refl s)
  | .sqTailDoorbell w => keeps_execSqTailDoorbell w s (.refl s)
  | .cqHeadDoorbell w => keeps_execCqHeadDoorbell w s (.refl s)
  | .aqEnable fn value => keeps_execAqEnable fn value s (.refl s)
  | .evrHead fn value => keeps_execEvrHead fn value s (.refl s)
  | .evrDroppedRead fn => keeps_execEvrDroppedRead fn s (.refl s)
  | .cqInterruptTimer fn q => keeps_execCqInterruptTimer fn q s (.refl s)
  | .sqFetch fn q f => keeps_execSqFetch fn q f s (.refl s)
  | .jobReserve job => keeps_execJobReserve job s (.refl s)
  | .jobDispatch job d => keeps_execJobDispatch job d s (.refl s)
  | .jobPreempt victim by_ d => keeps_execJobPreempt victim by_ d s (.refl s)
  | .overrunToken job => keeps_execOverrunToken job s (.refl s)
  | .slotRetired slot => keeps_execSlotRetired slot s (.refl s)
  | .identify a => keeps_execIdentify a s (.refl s)
  | .createCq a => keeps_execCreateCq a s (.refl s)
  | .createSq a => keeps_execCreateSq a s (.refl s)
  | .destroySq a => keeps_execDestroySq a s (.refl s)
  | .destroyCq a => keeps_execDestroyCq a s (.refl s)
  | .abortJob a => keeps_execAbortJob a s (.refl s)
  | .getLogQueueStatus a => keeps_execGetLogQueueStatus a s (.refl s)
  | .getLogPoolStatus a => keeps_execGetLogPoolStatus a s (.refl s)
  | .setEventRing a => keeps_execSetEventRing a s (.refl s)
  | .monitorSnapshot a => keeps_execMonitorSnapshot a s (.refl s)
  | .slotInfo a => keeps_execSlotInfo a s (.refl s)
  | .domainInfo a => keeps_execDomainInfo a s (.refl s)
  | .keyAdminErase a => keeps_execKeyAdminErase a s (.refl s)
  | .eraseDomain a => keeps_execEraseDomain a s (.refl s)
  | .anchorInfo a => keeps_execAnchorInfo a s (.refl s)
  | .aumSubmit a => keeps_execAumSubmit rfl a s (.refl s)
  | .dbgCertSubmit a => keeps_execDbgCertSubmit a s (.refl s)
  | .quiesce a => keeps_execQuiesce a s (.refl s)
  | .quiesceDrained fn => keeps_execQuiesceDrained fn s (.refl s)
  | .quiesceResume a => keeps_execQuiesceResume a s (.refl s)
  | .saveState a => keeps_execSaveState a s (.refl s)
  | .restoreState a => keeps_execRestoreState (K := breaksOf (.restoreState a)) ⟨a, rfl⟩ a s (.refl s)
  | .dirtyLogEnable a => keeps_execDirtyLogEnable a s (.refl s)
  | .dirtyLogDisable a => keeps_execDirtyLogDisable a s (.refl s)
  | .dirtyLogSync a => keeps_execDirtyLogSync a s (.refl s)
  | .sliceCreate a => keeps_execSliceCreate a s (.refl s)
  | .sliceReset a => keeps_execSliceReset a s (.refl s)
  | .sliceDestroy a => keeps_execSliceDestroy a s (.refl s)
  | .mlKemEncaps x => keeps_execMlKemEncaps x s (.refl s)
  | .mlKemDecaps x => keeps_execMlKemDecaps x s (.refl s)
  | .mlDsaSign x => keeps_execMlDsaSign x s (.refl s)
  | .mlDsaVerify x => keeps_execMlDsaVerify x s (.refl s)
  | .mlDsaHashSign x => keeps_execMlDsaHashSign x s (.refl s)
  | .mlDsaHashVerify x => keeps_execMlDsaHashVerify x s (.refl s)
  | .slhDsaSign x => keeps_execSlhDsaSign x s (.refl s)
  | .slhDsaVerify x => keeps_execSlhDsaVerify x s (.refl s)
  | .slhDsaHashSign x => keeps_execSlhDsaHashSign x s (.refl s)
  | .slhDsaHashVerify x => keeps_execSlhDsaHashVerify x s (.refl s)
  | .hssSign x => keeps_execHssSign x s (.refl s)
  | .hssVerify x => keeps_execHssVerify x s (.refl s)
  | .prepare x => keeps_execPrepare x s (.refl s)
  | .publicKey x => keeps_execPublicKey x s (.refl s)
  | .codeEncaps x => keeps_execCodeEncaps x s (.refl s)
  | .codeDecaps x => keeps_execCodeDecaps x s (.refl s)
  | .loadPublic x => keeps_execLoadPublic x s (.refl s)
  | .seal x => keeps_execSeal x s (.refl s)
  | .reseal x => keeps_execReseal x s (.refl s)
  | .open_ x => keeps_execOpen x s (.refl s)
  | .rsaSign x => keeps_execRsaSign x s (.refl s)
  | .rsaVerify x => keeps_execRsaVerify x s (.refl s)
  | .rsaDecrypt x => keeps_execRsaDecrypt x s (.refl s)
  | .rsaEncrypt x => keeps_execRsaEncrypt x s (.refl s)
  | .ecdsaSign x => keeps_execEcdsaSign x s (.refl s)
  | .ecdsaVerify x => keeps_execEcdsaVerify x s (.refl s)
  | .ecdh x => keeps_execEcdh x s (.refl s)
  | .agree x => keeps_execAgree x s (.refl s)
  | .edSign x => keeps_execEdSign x s (.refl s)
  | .edVerify x => keeps_execEdVerify x s (.refl s)
  | .rawAdd x => keeps_execRawAdd x s (.refl s)
  | .rawSub x => keeps_execRawSub x s (.refl s)
  | .rawMul x => keeps_execRawMul x s (.refl s)
  | .rawSqr x => keeps_execRawSqr x s (.refl s)
  | .rawInv x => keeps_execRawInv x s (.refl s)
  | .rawExp x => keeps_execRawExp x s (.refl s)
  | .run x => keeps_execRun x s (.refl s)
  | .maeAdd m k => keeps_execMaeAdd m k s (.refl s)
  | .maeSub m k => keeps_execMaeSub m k s (.refl s)
  | .maeMul m k => keeps_execMaeMul m k s (.refl s)
  | .maeSqr m k => keeps_execMaeSqr m k s (.refl s)
  | .maeInv m k => keeps_execMaeInv m k s (.refl s)
  | .maeExp m k => keeps_execMaeExp m k s (.refl s)
  | .maeEnd m k => keeps_execMaeEnd m k s (.refl s)
  | .cbcEncrypt x => keeps_execCbcEncrypt x s (.refl s)
  | .cbcDecrypt x => keeps_execCbcDecrypt x s (.refl s)
  | .ctr x => keeps_execCtr x s (.refl s)
  | .xtsEncrypt x => keeps_execXtsEncrypt x s (.refl s)
  | .xtsDecrypt x => keeps_execXtsDecrypt x s (.refl s)
  | .gcmEncrypt x => keeps_execGcmEncrypt x s (.refl s)
  | .gcmDecrypt x => keeps_execGcmDecrypt x s (.refl s)
  | .gmacGenerate x => keeps_execGmacGenerate x s (.refl s)
  | .gmacVerify x => keeps_execGmacVerify x s (.refl s)
  | .gcmSivEncrypt x => keeps_execGcmSivEncrypt x s (.refl s)
  | .gcmSivDecrypt x => keeps_execGcmSivDecrypt x s (.refl s)
  | .ccmEncrypt x => keeps_execCcmEncrypt x s (.refl s)
  | .ccmDecrypt x => keeps_execCcmDecrypt x s (.refl s)
  | .kwWrap x => keeps_execKwWrap x s (.refl s)
  | .kwUnwrap x => keeps_execKwUnwrap x s (.refl s)
  | .kwpWrap x => keeps_execKwpWrap x s (.refl s)
  | .kwpUnwrap x => keeps_execKwpUnwrap x s (.refl s)
  | .chachaPolyEncrypt x => keeps_execChachaPolyEncrypt x s (.refl s)
  | .chachaPolyDecrypt x => keeps_execChachaPolyDecrypt x s (.refl s)
  | .ctxOpen x => keeps_execCtxOpen x s (.refl s)
  | .ctxClose x => keeps_execCtxClose x s (.refl s)
  | .hash x => keeps_execHash x s (.refl s)
  | .hmacGenerate x => keeps_execHmacGenerate x s (.refl s)
  | .hmacVerify x => keeps_execHmacVerify x s (.refl s)
  | .kmacGenerate x => keeps_execKmacGenerate x s (.refl s)
  | .kmacVerify x => keeps_execKmacVerify x s (.refl s)
  | .verifyDigest x => keeps_execVerifyDigest x s (.refl s)
  | .dgeCtxOpen x => keeps_execDgeCtxOpen x s (.refl s)
  | .dgeCtxClose x => keeps_execDgeCtxClose x s (.refl s)
  | .stateExport x => keeps_execStateExport x s (.refl s)
  | .stateImport x => keeps_execStateImport x s (.refl s)
  | .leaf x => keeps_execLeaf x s (.refl s)
  | .root x => keeps_execRoot x s (.refl s)
  | .chunkRoot x => keeps_execChunkRoot x s (.refl s)
  | .verifyPath x => keeps_execVerifyPath x s (.refl s)
  | .bouquet x => keeps_execBouquet x s (.refl s)
  | .keygen x => keeps_execKeygen x s (.refl s)
  | .derive x => keeps_execDerive x s (.refl s)
  | .unwrap x => keeps_execUnwrap x s (.refl s)
  | .wrap x => keeps_execWrap x s (.refl s)
  | .erase x => keeps_execErase x s (.refl s)
  | .random x => keeps_execRandom x s (.refl s)
  | .attestChallenge x => keeps_execAttestChallenge x s (.refl s)
  | .attestQuote x => keeps_execAttestQuote x s (.refl s)
  | .attestIdentity x => keeps_execAttestIdentity x s (.refl s)
  | .add c o => keeps_execAdd c o s (.refl s)
  | .sub c o => keeps_execSub c o s (.refl s)
  | .and_ c o => keeps_execAnd c o s (.refl s)
  | .or_ c o => keeps_execOr c o s (.refl s)
  | .xor_ c o => keeps_execXor c o s (.refl s)
  | .sll c o => keeps_execSll c o s (.refl s)
  | .srl c o => keeps_execSrl c o s (.refl s)
  | .sra c o => keeps_execSra c o s (.refl s)
  | .mul c o => keeps_execMul c o s (.refl s)
  | .mulhu c o => keeps_execMulhu c o s (.refl s)
  | .sltu c o => keeps_execSltu c o s (.refl s)
  | .lui c rd imm => keeps_execLui c rd imm s (.refl s)
  | .setvl c rd rs1 ew => keeps_execSetvl c rd rs1 ew s (.refl s)
  | .csrr c rd fn => keeps_execCsrr c rd fn s (.refl s)
  | .vmvx c rd vs j => keeps_execVmvx c rd vs j s (.refl s)
  | .vadd c o => keeps_execVadd c o s (.refl s)
  | .vsub c o => keeps_execVsub c o s (.refl s)
  | .vand c o => keeps_execVand c o s (.refl s)
  | .vor c o => keeps_execVor c o s (.refl s)
  | .vxor c o => keeps_execVxor c o s (.refl s)
  | .vsll c o => keeps_execVsll c o s (.refl s)
  | .vsrl c o => keeps_execVsrl c o s (.refl s)
  | .vmul c o => keeps_execVmul c o s (.refl s)
  | .vmulh c o => keeps_execVmulh c o s (.refl s)
  | .vcmp c rel o => keeps_execVcmp c rel o s (.refl s)
  | .slideup c o => keeps_execSlideup c o s (.refl s)
  | .slidedown c o => keeps_execSlidedown c o s (.refl s)
  | .reverse c o => keeps_execReverse c o s (.refl s)
  | .zip c o => keeps_execZip c o s (.refl s)
  | .unzip c o => keeps_execUnzip c o s (.refl s)
  | .broadcast c o => keeps_execBroadcast c o s (.refl s)
  | .shxor c o => keeps_execShxor c o s (.refl s)
  | .shand c o => keeps_execShand c o s (.refl s)
  | .shxorp c o => keeps_execShxorp c o s (.refl s)
  | .shandp c o => keeps_execShandp c o s (.refl s)
  | .shadd c o => keeps_execShadd c o s (.refl s)
  | .shref c o => keeps_execShref c o s (.refl s)
  | .shba c o => keeps_execShba c o s (.refl s)
  | .shab c o => keeps_execShab c o s (.refl s)
  | .shsel c o => keeps_execShsel c o s (.refl s)
  | .shcmpz c o => keeps_execShcmpz c o s (.refl s)
  | .svadd c o => keeps_execSvadd c o s (.refl s)
  | .svxor c o => keeps_execSvxor c o s (.refl s)
  | .svrot c o => keeps_execSvrot c o s (.refl s)
  | .svmul c o => keeps_execSvmul c o s (.refl s)
  | .vaddX c o => keeps_execVaddX c o s (.refl s)
  | .vsubX c o => keeps_execVsubX c o s (.refl s)
  | .vandX c o => keeps_execVandX c o s (.refl s)
  | .vorX c o => keeps_execVorX c o s (.refl s)
  | .vxorX c o => keeps_execVxorX c o s (.refl s)
  | .vsllX c o => keeps_execVsllX c o s (.refl s)
  | .vsrlX c o => keeps_execVsrlX c o s (.refl s)
  | .vmulX c o => keeps_execVmulX c o s (.refl s)
  | .vld c o => keeps_execVld c o s (.refl s)
  | .vst c o => keeps_execVst c o s (.refl s)
  | .shldSplit c o => keeps_execShldSplit c o s (.refl s)
  | .shldShares c o => keeps_execShldShares c o s (.refl s)
  | .shst c o => keeps_execShst c o s (.refl s)
  | .svld c o => keeps_execSvld c o s (.refl s)
  | .svst c o => keeps_execSvst c o s (.refl s)
  | .winFetch c src h => keeps_execWinFetch c src h s (.refl s)
  | .winFetchComplete c job => keeps_execWinFetchComplete c job s (.refl s)
  | .winWait c => keeps_execWinWait c s (.refl s)
  | .xmov c peer h => keeps_execXmov c peer h s (.refl s)
  | .rand c h => keeps_execRand c h s (.refl s)
  | .ntt c h => keeps_execNtt c h s (.refl s)
  | .madd c h => keeps_execMadd c h s (.refl s)
  | .msub c h => keeps_execMsub c h s (.refl s)
  | .mmul c h => keeps_execMmul c h s (.refl s)
  | .mred c h => keeps_execMred c h s (.refl s)
  | .tomont c h => keeps_execTomont c h s (.refl s)
  | .frommont c h => keeps_execFrommont c h s (.refl s)
  | .kecInit c => keeps_execKecInit c s (.refl s)
  | .kecInits c => keeps_execKecInits c s (.refl s)
  | .kecXb c h => keeps_execKecXb c h s (.refl s)
  | .kecXbs c h => keeps_execKecXbs c h s (.refl s)
  | .kecPerm c => keeps_execKecPerm c s (.refl s)
  | .kecOut c h => keeps_execKecOut c h s (.refl s)
  | .kecX4 c h => keeps_execKecX4 c h s (.refl s)
  | .sha2C256 c h => keeps_execSha2C256 c h s (.refl s)
  | .sha2C512 c h => keeps_execSha2C512 c h s (.refl s)
  | .gfmul c h => keeps_execGfmul c h s (.refl s)
  | .clmul c h => keeps_execClmul c h s (.refl s)
  | .verdictJob c h => keeps_execVerdictJob c h s (.refl s)
  | .verdictCheck c h => keeps_execVerdictCheck c h s (.refl s)
  | .beq c ra rb imm => keeps_execBeq c ra rb imm s (.refl s)
  | .bne c ra rb imm => keeps_execBne c ra rb imm s (.refl s)
  | .bltu c ra rb imm => keeps_execBltu c ra rb imm s (.refl s)
  | .jal c ra imm => keeps_execJal c ra imm s (.refl s)
  | .jr c ra => keeps_execJr c ra s (.refl s)
  | .yield_ c => keeps_execYield c s (.refl s)
  | .yieldExtend c => keeps_execYieldExtend c s (.refl s)
  | .sysFault c => keeps_execSysFault c s (.refl s)
  | .untag c ra file => keeps_execUntag c ra file s (.refl s)
  | .end_ c shared keyout x => keeps_execEnd c shared keyout x s (.refl s)
  | .watchdog c => keeps_execWatchdog c s (.refl s)
  | .tileReload c again => keeps_execTileReload c again s (.refl s)
  | .reservationCommit domain index => keeps_execReservationCommit domain index s (.refl s)
  | .tokenSessionEnd => keeps_execTokenSessionEnd s (.refl s)
  | .tokenLifeRefresh => keeps_execTokenLifeRefresh s (.refl s)
  | .almanacCommit => keeps_execAlmanacCommit s (.refl s)
  | .coalesceWindowClose kind source => keeps_execCoalesceWindowClose kind source s (.refl s)
  | .hourTick => keeps_execHourTick s (.refl s)
  | .almCursorWrite value => keeps_execAlmCursorWrite value s (.refl s)
  | .almWindow15Read => keeps_execAlmWindow15Read s (.refl s)
  | .almWindowLoad => keeps_execAlmWindowLoad s (.refl s)
  | .almStatusRead => keeps_execAlmStatusRead s (.refl s)
  | .almClear value => keeps_execAlmClear value s (.refl s)
  | .almanacCleared => keeps_execAlmanacCleared s (.refl s)
  | .lcsAdvanceIntegrator value => keeps_execLcsAdvanceIntegrator value s (.refl s)
  | .lcsAdvanceFielded value => keeps_execLcsAdvanceFielded value s (.refl s)
  | .lcsAdvanceReturned value => keeps_execLcsAdvanceReturned value s (.refl s)
  | .lcsAdvanceScrapped value => keeps_execLcsAdvanceScrapped value s (.refl s)
  | .lcsTransition => keeps_execLcsTransition s (.refl s)
  | .dbgRightsWrite value => keeps_execDbgRightsWrite value s (.refl s)
  | .dbgStepArm value => keeps_execDbgStepArm value s (.refl s)
  | .dbgStep => keeps_execDbgStep s (.refl s)
  | .dbgStepRun => keeps_execDbgStepRun s (.refl s)
  | .tamperAlarm sensor quadrant reading => keeps_execTamperAlarm sensor quadrant reading s (.refl s)
  | .sealingKeyDestroy => keeps_execSealingKeyDestroy s (.refl s)
  | .destroyZeroizeEnd => keeps_execDestroyZeroizeEnd s (.refl s)
  | .tamperHoldEnd sensor quadrant => keeps_execTamperHoldEnd sensor quadrant s (.refl s)
  | .tamperAckSensor value => keeps_execTamperAckSensor value s (.refl s)
  | .tamperAckSleepLatch value => keeps_execTamperAckSleepLatch value s (.refl s)
  | .faultAck value => keeps_execFaultAck value s (.refl s)
  | .hang unit => keeps_execHang unit s (.refl s)
  | .entropy source test => keeps_execEntropy source test s (.refl s)
  | .lockstep orrery => keeps_execLockstep orrery s (.refl s)
  | .maskReseed unit => keeps_execMaskReseed unit s (.refl s)
  | .ddpStart fn alg => keeps_execDdpStart fn alg s (.refl s)
  | .ddpRelease fn => keeps_execDdpRelease fn s (.refl s)
  | .ddpData fn w => keeps_execDdpData fn w s (.refl s)
  | .ddpLastWord fn w => keeps_execDdpLastWord fn w s (.refl s)
  | .ddpLastLength fn value => keeps_execDdpLastLength fn value s (.refl s)
  | .ddpDone fn mismatch => keeps_execDdpDone fn mismatch s (.refl s)
  | .outSend fn => keeps_execOutSend fn s (.refl s)
  | .inAck fn => keeps_execInAck fn s (.refl s)
  | .inSend => keeps_execInSend s (.refl s)
  | .outAck => keeps_execOutAck s (.refl s)
  | .registerWrite w => keeps_execRegisterWrite w s (.refl s)
  | .dramChannelLinkFailure chan => keeps_execDramChannelLinkFailure chan s (.refl s)
  | .coaxMarkerMissing => keeps_execCoaxMarkerMissing s (.refl s)
  | .tamperConditionClear sensor quadrant => keeps_execTamperConditionClear sensor quadrant s (.refl s)
  | .auxiliaryPowerOn => keeps_execAuxiliaryPowerOn s (.refl s)
  | .auxiliaryPowerLoss => keeps_execAuxiliaryPowerLoss s (.refl s)
  | .traceFrameSent => keeps_execTraceFrameSent s (.refl s)
  | .mailboxDataWrite w => keeps_execMailboxDataWrite w s (.refl s)

theorem exec_completes (c : Instr) (s : State) : ∃ t, exec c s = .next t ∧ Keeps (breaksOf c) s t := by
  have hkeeps := exec_keepsOut c s
  revert hkeeps
  cases exec c s with
  | next t => exact fun hkeeps => ⟨t, rfl, hkeeps⟩
  | fault r => exact False.elim
  | refused r => exact False.elim

/-! ### One step -/

/-- The events of the step from `s`: those of the command at the front of its queue. -/
def stepBreaks (s : State) : Breaks where
  reset := ∃ c, s.pending.head? = some c ∧ resetsModule c = true
  restore := ∃ a, s.pending.head? = some (.restoreState a)
  token := ∃ env, s.pending.head? = some (.powerGood env)
  aum := ∃ c, s.pending.head? = some c ∧ appliesAums c = true

theorem stepBreaks_cons {s : State} {c : Instr} {rest : List Instr} (hp : s.pending = c :: rest) : stepBreaks s = breaksOf c := by
  simp [stepBreaks, breaksOf, hp]

theorem step_nil {s : State} (hp : s.pending = []) : step s = .next (tick s) := by
  simp only [step, hp]

theorem step_cons {s : State} {c : Instr} {rest : List Instr} (hp : s.pending = c :: rest) :
    step s = exec c { s with pending := rest } := by
  simp only [step, hp]

theorem drop_pending_nil {s : State} (hp : s.pending = []) : { s with pending := s.pending.drop 1 } = s := by
  rw [hp, List.drop_nil, ← hp]

/-- A step answers a next state, and keeps what every command keeps of the state with the queue's rest. -/
theorem step_completes (s : State) : ∃ t, step s = .next t ∧ Keeps (stepBreaks s) { s with pending := s.pending.drop 1 } t := by
  cases hp : s.pending with
  | nil =>
    refine ⟨tick s, step_nil hp, ?_⟩
    rw [← hp, drop_pending_nil hp]
    exact keeps_tick s (.refl s)
  | cons c rest =>
    rw [step_cons hp, stepBreaks_cons hp]
    exact exec_completes c _

theorem step_keeps {s t : State} (h : step s = .next t) : Keeps (stepBreaks s) { s with pending := s.pending.drop 1 } t := by
  obtain ⟨u, hu, hkeeps⟩ := step_completes s
  rw [h] at hu
  cases hu
  exact hkeeps

/-- Settles O54: what every command and every step keep holds the queue and the part. -/
theorem everyCommandCompletes : Obligations.EveryCommandCompletes := by
  unfold Obligations.EveryCommandCompletes
  refine ⟨fun c s => ?_, fun s => ?_⟩
  · obtain ⟨t, ht, hkeeps⟩ := exec_completes c s
    exact ⟨t, ht, hkeeps.pending, hkeeps.part⟩
  · obtain ⟨t, ht, hkeeps⟩ := step_completes s
    exact ⟨t, ht, hkeeps.pending, hkeeps.part⟩

/-- Settles O53: it is how `step` is defined on a queue that is not empty. -/
theorem stepRunsTheFrontCommand : Obligations.StepRunsTheFrontCommand := by
  unfold Obligations.StepRunsTheFrontCommand
  intro c rest s hp
  exact step_cons hp

/-- Settles O55: every command keeps the clusters in order. -/
theorem stepKeepsTilesCanonical : Obligations.StepKeepsTilesCanonical := by
  unfold Obligations.StepKeepsTilesCanonical
  intro s t htiles h
  exact (step_keeps h).tiles htiles

/-- Settles O56: every command keeps the burned fuses. -/
theorem fusesStayBurned : Obligations.FusesStayBurned := by
  unfold Obligations.FusesStayBurned
  intro s t h
  exact (step_keeps h).fuses

/-- Settles O57: every command but a restore keeps the rings in order. -/
theorem ringsStayInOrder : Obligations.RingsStayInOrder := by
  unfold Obligations.RingsStayInOrder
  intro s t hrings hrestore h
  exact (step_keeps h).rings (fun ⟨a, ha⟩ => hrestore a ha) hrings

/-- Settles O58: every command keeps FREE slots without material, and, but for a reset of the module and a restore, the generations. -/
theorem slotGenerationsNeverFall : Obligations.SlotGenerationsNeverFall := by
  unfold Obligations.SlotGenerationsNeverFall
  intro s t h
  refine ⟨(step_keeps h).slots, fun hplain => (step_keeps h).gens ?_ ?_⟩
  · rintro ⟨c, hc, hreset⟩
    simp [(hplain c hc).1] at hreset
  · rintro ⟨a, ha⟩
    exact (hplain _ ha).2 a rfl

/-! ### The leaf of a SIGN (R253, R304) -/

theorem stateful?_name {s : State} {h : Nat} {k : StatefulKey} (e : stateful? s h = some k) : k.domain = hDomain h ∧ k.index = hSlot h := by
  obtain ⟨t, _, hfind⟩ := Option.bind_eq_some_iff.1 e
  simpa using List.find?_some hfind

theorem stateful?_of_tok {s t : State} (h : Nat) (htok : t.tok = s.tok) : stateful? t h = stateful? s h := by
  simp only [stateful?, anchored, htok]

/-- A change of the key that a handle names, its name kept, is what the handle finds. -/
theorem stateful?_onStateful {s : State} {h : Nat} {g : StatefulKey → StatefulKey} (hg : ∀ k, (g k).domain = k.domain ∧ (g k).index = k.index) :
    stateful? (onStateful (hDomain h) (hSlot h) g s) h = (stateful? s h).map g := by
  unfold stateful? anchored onStateful
  cases s.tok.keysLoaded with
  | false => rfl
  | true =>
    cases s.tok.socket with
    | none => rfl
    | some t => exact find_modFirst _ g (by simp [hg]) t.stateful

/-- The note of a key that runs low leaves its next leaf. -/
theorem stateful?_noteLow {s : State} {h : Nat} {k : StatefulKey} (e : stateful? s h = some k) :
    ∃ l, stateful? (noteLow (hDomain h) (hSlot h) s) h = some l ∧ l.next = k.next := by
  unfold noteLow
  split
  · exact ⟨k, e, rfl⟩
  · dsimp only
    split
    · exact ⟨k, e, rfl⟩
    · rw [stateful?_of_tok h (raiseEvent_tok ..), stateful?_onStateful, e]
      · exact ⟨_, rfl, rfl⟩
      · exact fun _ => ⟨rfl, rfl⟩

/-- The free leaf lies in a reserved range of its key, at or above the next leaf. -/
theorem freeLeaf_spec {k : StatefulKey} {g a b : Nat} (e : freeLeaf k = some (g, a, b)) :
    k.next ≤ g ∧ (a, b) ∈ k.ranges ∧ a ≤ g ∧ g < b := by
  obtain ⟨⟨ra, rb⟩, hfind, heq⟩ := Option.map_eq_some_iff.1 e
  have hbelow : max k.next ra < rb := by simpa using List.find?_some hfind
  cases heq
  exact ⟨Nat.le_max_left .., List.mem_of_find?_eq_some hfind, Nat.le_max_right .., hbelow⟩

theorem bindLeaf_sign {j : Job} (s : State) (hop : dOp j.desc = 0x1301) :
    bindLeaf j s = ({ j with leaf := (nextLeaf (dKey j.desc) s).1 }, (nextLeaf (dKey j.desc) s).2) := by
  simp [bindLeaf, hop]

/-- What taking the next leaf does: it is the free leaf of the key that the handle finds, and the key's next leaf is the one after it. -/
theorem nextLeaf_some {h g : Nat} {s t : State} (e : nextLeaf h s = (some g, t)) :
    ∃ k l a b, stateful? s h = some k ∧ freeLeaf k = some (g, a, b) ∧ stateful? t h = some l ∧ l.next = g + 1 := by
  unfold nextLeaf at e
  split at e
  case h_2 => cases e
  case h_1 k hk =>
    split at e
    case h_2 => cases e
    case h_1 g' a b hfree =>
      cases e
      obtain ⟨hdomain, hindex⟩ := stateful?_name hk
      have htaken : stateful? (onStateful (hDomain h) (hSlot h) (takeLeaf g a b) s) h = some (takeLeaf g a b k) := by
        rw [stateful?_onStateful, hk]
        · rfl
        · exact fun _ => ⟨rfl, rfl⟩
      obtain ⟨l, hl, hnext⟩ := stateful?_noteLow htaken
      rw [hdomain, hindex]
      exact ⟨k, l, a, b, hk, hfree, hl, hnext⟩

/-- Settles O59: a SIGN takes its key's free leaf and moves the next leaf past it, and every command keeps the keys' order. -/
theorem eachLeafIsTakenOnce : Obligations.EachLeafIsTakenOnce := by
  unfold Obligations.EachLeafIsTakenOnce
  refine ⟨fun j g s t hop hleaf => ?_, fun s t h htoken => ?_, fun s t h hplain => ?_⟩
  · obtain ⟨k, l, a, b, hk, hfree, hl, hnext⟩ := nextLeaf_some hleaf
    obtain ⟨hge, hmem, hlow, hhigh⟩ := freeLeaf_spec hfree
    refine ⟨by rw [bindLeaf_sign s hop, hleaf], k, l, hk, hl, hge, hnext, (a, b), hmem, hlow, hhigh, fun hok => ?_⟩
    exact ((takeLeaf_ok hfree).2.2.2 hok).1
  · exact (step_keeps h).leaves (fun ⟨env, henv⟩ => htoken env henv)
  · refine (step_keeps h).nexts ?_ ?_
    · rintro ⟨env, henv⟩
      exact absurd (hplain _ henv) (by simp [appliesAums])
    · rintro ⟨c, hc, haum⟩
      simp [hplain c hc] at haum

/-- Settles O60: the state after reset has no queue, no memory, no burned fuse; its clusters hold no byte. -/
theorem resetState : Obligations.ResetState := by
  unfold Obligations.ResetState
  refine ⟨⟨rfl, ?_⟩, rfl, rfl, rfl, rfl, rfl, rfl, rfl, rfl, rfl, rfl, rfl, rfl, rfl, rfl, rfl, rfl, rfl⟩
  intro c hc
  rw [List.eq_of_mem_replicate hc]
  rfl

end Sys2Proof.Machine

/-!
PROOFS. What requests, completions, events and the ends of jobs can change at all: which fields of the state, and which fields of a function's page.
-/
namespace Sys2Proof.Machine
set_option Elab.async false -- as in Laws: the one text has more theorems than threads

/-! ### Lists related element by element -/

/-- Two lists of one length whose elements are related place by place (Mathlib's `List.Forall₂`; the package's files stand on core Lean). -/
inductive Elementwise {α β : Type} (R : α → β → Prop) : List α → List β → Prop
  | nil : Elementwise R [] []
  | cons {x : α} {y : β} {a : List α} {b : List β} (h : R x y) (t : Elementwise R a b) : Elementwise R (x :: a) (y :: b)

theorem Elementwise.imp {α β : Type} {R S : α → β → Prop} (hRS : ∀ x y, R x y → S x y) {a : List α} {b : List β} (h : Elementwise R a b) : Elementwise S a b := by
  induction h with
  | nil => exact .nil
  | cons hxy _ ih => exact .cons (hRS _ _ hxy) ih

theorem elementwise_of_refl {α : Type} {R : α → α → Prop} (hR : ∀ x, R x x) (l : List α) : Elementwise R l l := by
  induction l with
  | nil => exact .nil
  | cons x _ ih => exact .cons (hR x) ih

theorem elementwise_map {α : Type} {R : α → α → Prop} {g : α → α} (hg : ∀ x, R x (g x)) (l : List α) : Elementwise R l (l.map g) := by
  induction l with
  | nil => exact .nil
  | cons x _ ih => exact .cons (hg x) ih

theorem elementwise_trans {α : Type} {R : α → α → Prop} (hR : ∀ x y z, R x y → R y z → R x z) {a b c : List α}
    (h : Elementwise R a b) (k : Elementwise R b c) : Elementwise R a c := by
  induction h generalizing c with
  | nil => exact k
  | cons hx _ ih =>
    cases k with
    | cons hy hl => exact .cons (hR _ _ _ hx hy) (ih hl)

theorem elementwise_modFirst {α : Type} {R : α → α → Prop} {p : α → Bool} {g : α → α} (hrefl : ∀ x, R x x) (hg : ∀ x, p x = true → R x (g x)) (l : List α) :
    Elementwise R l (modFirst p g l) := by
  induction l with
  | nil => exact .nil
  | cons a l ih =>
    unfold modFirst
    split
    case isTrue ha => exact .cons (hg a ha) (elementwise_of_refl hrefl _)
    case isFalse => exact .cons (hrefl a) ih

theorem map_modFirst {α β : Type} {p : α → Bool} {g : α → α} {k : α → β} (hk : ∀ x, k (g x) = k x) (l : List α) : (modFirst p g l).map k = l.map k := by
  induction l with
  | nil => rfl
  | cons x l ih => unfold modFirst; split <;> simp [hk, ih]

theorem elementwise_modFirst_find {α : Type} {R : α → α → Prop} {p : α → Bool} {g : α → α} (hrefl : ∀ x, R x x) {l : List α} {x : α}
    (hx : l.find? p = some x) (hg : R x (g x)) : Elementwise R l (modFirst p g l) := by
  induction l with
  | nil => cases hx
  | cons a l ih =>
    rw [List.find?_cons] at hx
    unfold modFirst
    split
    case isTrue ha =>
      rw [ha] at hx
      cases hx
      exact .cons hg (elementwise_of_refl hrefl _)
    case isFalse ha =>
      rw [eq_false_of_ne_true ha] at hx
      exact .cons (hrefl a) (ih hx)

theorem elementwise_find? {α : Type} {R : α → α → Prop} {p : α → Bool} (hp : ∀ x y, R x y → p y = p x) {a b : List α} (h : Elementwise R a b)
    {x : α} (hx : a.find? p = some x) : ∃ y, b.find? p = some y ∧ R x y := by
  induction h with
  | nil => cases hx
  | @cons u v _ _ huv _ ih =>
    rw [List.find?_cons] at hx ⊢
    rw [hp _ _ huv]
    cases hu : p u with
    | true => rw [hu] at hx; cases hx; exact ⟨v, rfl, huv⟩
    | false => rw [hu] at hx; exact ih hx

theorem elementwise_mem_right {α : Type} {R : α → α → Prop} {a b : List α} (h : Elementwise R a b) {y : α} (hy : y ∈ b) : ∃ x ∈ a, R x y := by
  induction h with
  | nil => cases hy
  | cons hxy _ ih =>
    rcases List.mem_cons.1 hy with rfl | hy
    · exact ⟨_, List.mem_cons_self, hxy⟩
    · obtain ⟨x, hx, hr⟩ := ih hy
      exact ⟨x, List.mem_cons_of_mem _ hx, hr⟩

/-! ### What is found after its change -/

/-- The page that a change under its name leaves. -/
theorem fn?_onFn_some {s : State} {f : Fn} {x : FnState} {g : FnState → FnState} (hf : s.fn? f = some x) (hg : ∀ y, (g y).fn = y.fn := by exact fun _ => rfl) :
    (s.onFn f g).fn? f = some (g x) := by
  rw [fn?_onFn s f g fun y hy => (hg y).trans hy, hf]
  rfl

/-! ### A page -/

/-- The fields of a page that requests, completions, events and the ends of jobs can change; those of its events, its pending bits and its digest
port only where something is signalled or a key ends (`loud`). -/
def Page (loud : Prop) (x y : FnState) : Prop :=
  y = { x with nextTag := y.nextTag, atc := y.atc, dirty := y.dirty, pba := y.pba, evr := y.evr, ddp := y.ddp } ∧
    (loud ∨ (y.pba = x.pba ∧ y.evr = x.evr ∧ y.ddp = x.ddp))

theorem Page.refl {loud : Prop} (x : FnState) : Page loud x x := ⟨rfl, .inr ⟨rfl, rfl, rfl⟩⟩

theorem Page.trans {loud : Prop} (x y z : FnState) (h : Page loud x y) (k : Page loud y z) : Page loud x z := by
  obtain ⟨hxy, hquiet⟩ := h
  obtain ⟨hyz, kquiet⟩ := k
  refine ⟨by rw [hyz, hxy], ?_⟩
  rcases hquiet with hl | ⟨h1, h2, h3⟩
  · exact .inl hl
  · exact kquiet.imp id fun ⟨k1, k2, k3⟩ => ⟨k1.trans h1, k2.trans h2, k3.trans h3⟩

theorem Page.fn {loud : Prop} {x y : FnState} (h : Page loud x y) : y.fn = x.fn := by rw [h.1]

theorem sq?_onSq_some {s : State} {f : Fn} {q : Nat} {x : Sq} {g : Sq → Sq} (hx : s.sq? f q = some x)
    (hg : ∀ y, (g y).fn = y.fn ∧ (g y).id = y.id := by exact fun _ => ⟨rfl, rfl⟩) : (s.onSq f q g).sq? f q = some (g x) := by
  rw [sq?_onSq s f q g hg, hx]
  rfl
theorem cq?_onCq_some {s : State} {f : Fn} {q : Nat} {x : Cq} {g : Cq → Cq} (hx : s.cq? f q = some x)
    (hg : ∀ y, (g y).fn = y.fn ∧ (g y).id = y.id := by exact fun _ => ⟨rfl, rfl⟩) : (s.onCq f q g).cq? f q = some (g x) := by
  rw [cq?_onCq s f q g hg, hx]
  rfl
theorem job?_onJob_some {s : State} {i : Nat} {x : Job} {g : Job → Job} (hx : s.job? i = some x) (hg : ∀ y, (g y).id = y.id := by exact fun _ => rfl) :
    (s.onJob i g).job? i = some (g x) := by
  rw [job?_onJob s i g hg, hx]
  rfl
theorem unit?_onUnit_some {s : State} {i : Nat} {x : UnitSt} {g : UnitSt → UnitSt} (hx : s.unit? i = some x) (hg : ∀ y, (g y).id = y.id := by exact fun _ => rfl) :
    (s.onUnit i g).unit? i = some (g x) := by
  rw [unit?_onUnit s i g hg, hx]
  rfl

theorem page_of_fn? {loud : Prop} {b t : State} (h : Elementwise (Page loud) b.fns t.fns) {f : Fn} {x : FnState} (hf : b.fn? f = some x) :
    ∃ y, t.fn? f = some y ∧ Page loud x y :=
  elementwise_find? (fun _ _ hxy => by rw [hxy.fn]) h hf

theorem names_of_pages {loud : Prop} {a b : List FnState} (h : Elementwise (Page loud) a b) : b.map (fun x => x.fn) = a.map (fun x => x.fn) := by
  induction h with
  | nil => rfl
  | cons hxy _ ih => rw [List.map_cons, List.map_cons, hxy.fn, ih]

/-- A change of what only requests count. -/
theorem page_ask {loud : Prop} (x : FnState) (tag : Nat) (atc : List (Option Nat × Nat)) (dirty : FnDirty) :
    Page loud x { x with nextTag := tag, atc := atc, dirty := dirty } := ⟨rfl, .inr ⟨rfl, rfl, rfl⟩⟩

/-- A change of a page that is heard outside it. -/
theorem page_loud {loud : Prop} (hloud : loud) (x : FnState) (pba : List Nat) (evr : FnEvr) (ddp : FnDdp) :
    Page loud x { x with pba := pba, evr := evr, ddp := ddp } := ⟨rfl, .inl hloud⟩

/-! ### What the ends of jobs can change -/

/-- Every field but those that requests, completions, events and the ends of jobs can change is as before. -/
def EndFrame (b t : State) : Prop :=
  t = { b with fns := t.fns, sqs := t.sqs, cqs := t.cqs, jobs := t.jobs, waits := t.waits, slots := t.slots, ctxs := t.ctxs, mem := t.mem, units := t.units,
               mon := t.mon, vcc := t.vcc, mae := t.mae, sc := { b.sc with wrapNonce := t.sc.wrapNonce }, dbg := t.dbg, out := t.out }

theorem EndFrame.trans {a b c : State} (h : EndFrame a b) (k : EndFrame b c) : EndFrame a c := by
  unfold EndFrame at *
  rw [k, h]

/-- Of a unit they change its job alone, which can only go. -/
def UnitFreed (x y : UnitSt) : Prop := y = { x with job := y.job } ∧ (y.job = x.job ∨ y.job = none)

theorem UnitFreed.refl (x : UnitSt) : UnitFreed x x := ⟨rfl, .inl rfl⟩

theorem UnitFreed.trans (x y z : UnitSt) (h : UnitFreed x y) (k : UnitFreed y z) : UnitFreed x z := by
  obtain ⟨hxy, hjob⟩ := h
  obtain ⟨hyz, kjob⟩ := k
  refine ⟨by rw [hyz, hxy], ?_⟩
  rcases kjob with k | k
  · exact hjob.imp k.trans k.trans
  · exact .inr k

/-- Of a slot they keep the place, and a slot that is free stays so. -/
def SlotEnded (x y : Slot) : Prop := y.idx = x.idx ∧ y.channel = x.channel ∧ (x.st = .free → y.st = .free)

theorem SlotEnded.refl (x : Slot) : SlotEnded x x := ⟨rfl, rfl, id⟩

theorem SlotEnded.trans (x y z : Slot) (h : SlotEnded x y) (k : SlotEnded y z) : SlotEnded x z :=
  ⟨k.1.trans h.1, k.2.1.trans h.2.1, k.2.2 ∘ h.2.2⟩

/-- What requests, completions, events and the ends of jobs can change: the fields of `EndFrame`, of a page those of `Page`, of a unit its job, of a slot
all but what `SlotEnded` keeps. Waiting commands can only go. -/
structure Ends (loud : Prop) (b t : State) : Prop where
  frame : EndFrame b t
  waits : b.waits = [] → t.waits = []
  pages : Elementwise (Page loud) b.fns t.fns
  units : Elementwise UnitFreed b.units t.units
  slots : Elementwise SlotEnded b.slots t.slots

section
variable {loud : Prop} {b s t : State}

theorem Ends.refl (s : State) : Ends loud s s := ⟨rfl, id, elementwise_of_refl .refl _, elementwise_of_refl .refl _,
    elementwise_of_refl .refl _⟩

theorem Ends.trans (h : Ends loud b s) (k : Ends loud s t) : Ends loud b t :=
  ⟨h.frame.trans k.frame, k.waits ∘ h.waits, elementwise_trans Page.trans h.pages k.pages, elementwise_trans UnitFreed.trans h.units k.units,
    elementwise_trans SlotEnded.trans h.slots k.slots⟩

/-- A change of other fields of the frame. -/
theorem Ends.to (h : Ends loud b s) (hframe : EndFrame s t := by exact rfl) (hwaits : s.waits = [] → t.waits = [] := by exact id)
    (hfns : t.fns = s.fns := by exact rfl) (hunits : t.units = s.units := by exact rfl) (hslots : t.slots = s.slots := by exact rfl) :
    Ends loud b t :=
  ⟨h.frame.trans hframe, hwaits ∘ h.waits, hfns ▸ h.pages, hunits ▸ h.units, hslots ▸ h.slots⟩

theorem ends_onFn {f : Fn} {g : FnState → FnState} (hg : ∀ x, Page loud x (g x)) (h : Ends loud b s) : Ends loud b (s.onFn f g) :=
  ⟨h.frame.trans rfl, h.waits, elementwise_trans Page.trans h.pages (elementwise_modFirst .refl (fun x _ => hg x) _), h.units, h.slots⟩

theorem ends_ite {c : Prop} [Decidable c] (h : Ends loud b s) (k : Ends loud b t) : Ends loud b (if c then s else t) := by
  split
  · exact h
  · exact k

theorem ends_foldl {α : Type} {f : State → α → State} {l : List α} (hf : ∀ t x, Ends loud b t → Ends loud b (f t x)) (h : Ends loud b s) :
    Ends loud b (l.foldl f s) := by
  induction l generalizing s with
  | nil => exact h
  | cons x l ih => exact ih (hf s x h)

theorem ends_emit (m : LinkMsg) (h : Ends loud b s) : Ends loud b (emit m s) := h.to
theorem ends_onSq (f : Fn) (q : Nat) (g : Sq → Sq) (h : Ends loud b s) : Ends loud b (s.onSq f q g) := h.to
theorem ends_onCq (f : Fn) (q : Nat) (g : Cq → Cq) (h : Ends loud b s) : Ends loud b (s.onCq f q g) := h.to
theorem ends_onJob (i : Nat) (g : Job → Job) (h : Ends loud b s) : Ends loud b (s.onJob i g) := h.to
theorem ends_onSlot (i : Nat) {g : Slot → Slot} (hg : ∀ x, SlotEnded x (g x)) (h : Ends loud b s) : Ends loud b (s.onSlot i g) :=
  ⟨h.frame.trans rfl, h.waits, h.pages, h.units, elementwise_trans SlotEnded.trans h.slots (elementwise_modFirst .refl (fun x _ => hg x) _)⟩
theorem ends_onCtx (i : Nat) (g : Ctx → Ctx) (h : Ends loud b s) : Ends loud b (s.onCtx i g) := h.to

/-! ### Requests -/

theorem ends_sendWrite (f : Fn) (a : Nat) (d : Bytes) (h : Ends loud b s) : Ends loud b (sendWrite f a d s) := ends_emit _ h

theorem ends_sendAsk (f : Fn) (a : Nat) (x : Tlp) (m : Tlp → LinkMsg) (h : Ends loud b s) : Ends loud b (sendAsk f a x m s) :=
  ends_onFn (fun x => page_ask x _ _ _) (ends_emit _ h)

theorem ends_atcRoom (h : Ends loud b s) : Ends loud b (atcRoom s) :=
  ends_ite h ⟨h.frame.trans rfl, h.waits, elementwise_trans Page.trans h.pages (elementwise_modFirst .refl (fun x _ => page_ask x _ _ _) _), h.units, h.slots⟩

theorem ends_translatePage (f : Fn) (p : Nat) (h : Ends loud b s) : Ends loud b (translatePage f p s) :=
  ends_ite h (ends_onFn (fun x => page_ask x _ _ _) (ends_sendAsk _ _ _ _ (ends_atcRoom h)))

theorem ends_translate (f : Fn) (a n : Nat) (h : Ends loud b s) : Ends loud b (translate f a n s) :=
  ends_foldl (fun _ _ => ends_translatePage _ _) h

theorem ends_markWord (a m : Nat) (h : Ends loud b s) : Ends loud b (markWord a m s) := by
  unfold markWord
  exact ends_sendAsk _ _ _ _ (ends_translate _ _ _ h)

theorem ends_markMap (d : DirtyMap) (l : List Nat) (h : Ends loud b s) : Ends loud b (markMap d l s) := ends_foldl (fun _ _ => ends_markWord _ _) h

theorem ends_markAll (f : Fn) (l : List (DirtyMap × Nat)) (h : Ends loud b s) : Ends loud b (markAll f l s) :=
  ends_ite h (ends_ite (ends_onFn (fun x => page_ask x _ _ _) h) (ends_foldl (fun _ _ => ends_markMap _ _) h))

theorem ends_countOutside (f : Fn) (a n : Nat) (h : Ends loud b s) : Ends loud b (countOutside f a n s) :=
  ends_ite (ends_onFn (fun x => page_ask x _ _ _) h) h

theorem ends_dirtyMark (f : Fn) (a n : Nat) (h : Ends loud b s) : Ends loud b (dirtyMark f a n s) := ends_countOutside _ _ _ (ends_markAll _ _ h)

theorem ends_writeRing (f : Fn) (a : Nat) (d : Bytes) (h : Ends loud b s) : Ends loud b (writeRing f a d s) :=
  ends_sendWrite _ _ _ (ends_translate _ _ _ (ends_dirtyMark _ _ _ h))

theorem ends_flushDirty (i : Nat) (h : Ends loud b s) : Ends loud b (flushDirty i s) := by
  unfold flushDirty
  split
  · exact ends_onJob _ _ (ends_markAll _ _ h)
  · exact h

/-! ### Interrupts, events, completion entries -/

section
variable (hloud : loud)
include hloud

theorem ends_signal (f : Fn) (v : Nat) (h : Ends loud b s) : Ends loud b (signal f v s) := by
  unfold signal
  refine ends_ite h ?_
  split
  exact ends_ite h (ends_ite (ends_onFn (fun x => page_loud hloud x _ _ _) h) (ends_emit _ h))

theorem ends_ringEvent (f : Fn) (k x d v : Nat) (h : Ends loud b s) : Ends loud b (ringEvent f k x d v s) := by
  unfold ringEvent
  split
  · exact h
  · exact ends_ite (ends_onFn (fun x => page_loud hloud x _ _ _) h)
      (ends_signal hloud _ _ (ends_onFn (fun x => page_loud hloud x _ _ _) (ends_writeRing _ _ _ h)))

theorem ends_signalCq (f : Fn) (q : Nat) (h : Ends loud b s) : Ends loud b (signalCq f q s) := by
  unfold signalCq
  split
  · exact h
  · exact ends_signal hloud _ _ (ends_onCq _ _ _ h)

theorem ends_putEntry (f : Fn) (q : Nat) (e : Bytes) (sig : Bool) (h : Ends loud b s) : Ends loud b (putEntry f q e sig s) := by
  unfold putEntry
  split
  · exact h
  · have hwritten := fun a => ends_writeRing f a e h
    exact ends_ite h (ends_ite (ends_signalCq hloud _ _ (ends_onCq _ _ _ (hwritten _))) (ends_onCq _ _ _ (hwritten _)))

theorem ends_beginEpisode (f : Fn) (q : Nat) (h : Ends loud b s) : Ends loud b (beginEpisode f q s) := by
  unfold beginEpisode
  split
  · exact h
  · exact ends_ite h (ends_ringEvent hloud _ _ _ _ _ (ends_onCq _ _ _ h))

end

theorem ends_trace (e : TraceEv) (h : Ends loud b s) : Ends loud b (trace e s) := by
  rw [trace_frame]
  exact h.to

theorem ends_releasePlace (j : Job) (h : Ends loud b s) : Ends loud b (releasePlace j s) := ends_ite h.to h.to

theorem ends_endEpisode (f : Fn) (q : Nat) (h : Ends loud b s) : Ends loud b (endEpisode f q s) := by
  unfold endEpisode
  split
  · exact h
  · exact ends_ite h.to h

theorem ends_writeCompletion (hloud : loud) (f : Fn) (q : Nat) (job : Option Job) (credited : Bool) (c : Completion) (h : Ends loud b s) :
    Ends loud b (writeCompletion f q job credited c s) := by
  unfold writeCompletion
  refine ends_beginEpisode hloud f q ?_
  have hentry := fun e sig => ends_putEntry hloud f q e sig h
  cases job with
  | none => exact ends_ite (ends_onCq _ _ _ (hentry _ _)) (hentry _ _)
  | some j =>
    refine ends_releasePlace _ (ends_trace _ (ends_onSq _ _ _ (Ends.to ?_)))
    exact ends_ite (ends_onCq _ _ _ (hentry _ _)) (hentry _ _)

theorem ends_adminDone (hloud : loud) (f : Fn) (tag : Nat) (st : Status) (inl : Bytes) (h : Ends loud b s) : Ends loud b (adminDone f tag st inl s) := by
  unfold adminDone
  split
  · exact ends_ite (ends_writeCompletion hloud _ _ _ _ _ h) h
  · exact h

theorem ends_dirtyDone (hloud : loud) (w : AdminWait) (h : Ends loud b s) : Ends loud b (dirtyDone w s) := by
  have hpage := fun (x : FnState) (d : FnDirty) => page_ask (loud := loud) x x.nextTag x.atc d
  refine ends_ite (ends_adminDone hloud _ _ _ _ h) (ends_ite (ends_adminDone hloud _ _ _ _ h) (ends_adminDone hloud _ _ _ _ (ends_ite ?_ ?_)))
  · exact (ends_onFn (f := w.target) (fun x => hpage x _) h).to
  · exact ends_onFn (fun x => hpage x _) h

/-- DIRTY_LOGs that wait complete; without a waiting command nothing is heard. -/
theorem ends_dirtyChecks (hloud : loud ∨ s.waits = []) (f : Fn) (h : Ends loud b s) : Ends loud b (dirtyChecks f s) := by
  unfold dirtyChecks
  have hgone : Ends loud b { s with waits := s.waits.filter (fun w => !(dirtyOver s f w)) } := h.to (hwaits := fun e => by rw [e]; rfl)
  rcases hloud with hl | hnone
  · exact ends_foldl (fun _ _ => ends_dirtyDone hl _) hgone
  · rw [hnone] at hgone ⊢
    exact hgone

theorem ends_settleDirty (hloud : loud ∨ b.waits = []) (f : Fn) (i : Nat) (h : Ends loud b s) : Ends loud b (settleDirty f i s) :=
  ends_dirtyChecks (hloud.imp id (ends_flushDirty i h).waits) f (ends_flushDirty i h)

/-! ### Ends of jobs -/

theorem ends_freeUnits (i : Nat) (h : Ends loud b s) : Ends loud b (freeUnits i s) := by
  refine ⟨h.frame.trans rfl, h.waits, h.pages, elementwise_trans UnitFreed.trans h.units (elementwise_map (fun x => ?_) _), h.slots⟩
  split
  · exact ⟨rfl, .inr rfl⟩
  · exact .refl x

theorem slotEnded_unpin (g : Nat) (x : Slot) : SlotEnded x (unpinSlot g x) := by
  unfold unpinSlot
  split <;> exact ⟨rfl, rfl, id⟩

theorem slotEnded_free (x : Slot) : SlotEnded x (freeSlot x) := ⟨rfl, rfl, fun _ => rfl⟩

theorem ends_releaseJob (j : Job) (h : Ends loud b s) : Ends loud b (releaseJob j s) :=
  (ends_foldl (l := j.pins) (fun _ p => ends_onSlot p.1 (slotEnded_unpin p.2)) (s := freeUnits j.id s) (ends_freeUnits j.id h)).to

theorem ends_dropNew (j : Job) (h : Ends loud b s) : Ends loud b (dropNew j s) := by
  unfold dropNew
  refine ends_ite h ?_
  split
  · exact ends_onSlot _ slotEnded_free h
  · exact h

theorem ends_endJobCtx (j : Job) (destroy : Bool) (h : Ends loud b s) :
    Ends loud b (match j.ctx with | some i => s.onCtx i (endCtx destroy) | none => s) := by
  split
  · exact ends_onCtx _ _ h
  · exact h

theorem ends_dropJob (hloud : loud ∨ b.waits = []) (i : Nat) (h : Ends loud b s) : Ends loud b (dropJob i s) := by
  unfold dropJob
  split
  · exact h
  · next j hj =>
    have hsettled := ends_settleDirty hloud j.fn i h
    have hctx := ends_endJobCtx j true (ends_ite (c := j.phase == .done) hsettled (ends_dropNew j (ends_releaseJob j hsettled)))
    have hheld := fun g => ends_onCq j.fn j.cq g hctx
    exact ends_endEpisode _ _ (ends_releasePlace _ (ends_ite (ends_onCq _ _ _ (hheld _)) (hheld _)))

theorem ends_dropJobs (hloud : loud ∨ b.waits = []) (f : Fn) (h : Ends loud b s) : Ends loud b (dropJobs f s) :=
  ends_foldl (fun _ _ => ends_dropJob hloud _) h

theorem ends_stopSq (hloud : loud) (f : Fn) (q r v : Nat) (h : Ends loud b s) : Ends loud b (stopSq f q r v s) := by
  unfold stopSq stopEvent
  split
  · exact h
  · exact ends_ite h (ends_ite (ends_ringEvent hloud _ _ _ _ _ (ends_onSq _ _ _ h)) (ends_ringEvent hloud _ _ _ _ _ (ends_onSq _ _ _ h)))

theorem ends_wrapCtx (j : Job) (h : Ends loud b s) : Ends loud b (wrapCtx j s) := by
  unfold wrapCtx
  split
  · exact ends_ite (ends_onCtx _ _ h.to) h
  · exact h

section
variable (hloud : loud)
include hloud

theorem ends_drainHeld (f : Fn) (q n : Nat) (h : Ends loud b s) : Ends loud b (drainHeld f q n s) := by
  induction n generalizing s with
  | zero => exact h
  | succ n ih =>
    unfold drainHeld
    split
    · exact h
    · refine ends_ite h ?_
      split
      · exact h
      · exact ih (ends_writeCompletion hloud _ _ _ _ _ (ends_onCq _ _ _ h))

theorem ends_drainCq (f : Fn) (q : Nat) (h : Ends loud b s) : Ends loud b (drainCq f q s) := by
  unfold drainCq
  split
  · exact h
  · exact ends_endEpisode _ _ (ends_drainHeld hloud _ _ _ h)

theorem ends_deliver (j : Job) (c : Completion) (h : Ends loud b s) : Ends loud b (deliver j c s) := by
  have hsettled := ends_settleDirty (.inl hloud) j.fn j.id h
  unfold deliver
  dsimp only
  split
  · exact hsettled.to
  · have htook := fun (g : Cq → Cq) (k : Job → Job) (p : Bool) => ends_onJob j.id k (ends_ite (c := p = true) (ends_onCq j.fn j.cq g hsettled) hsettled)
    exact ends_ite (ends_drainCq hloud _ _ (ends_writeCompletion hloud _ _ _ _ _ (htook _ _ _))) (ends_onCq _ _ _ (ends_onJob _ _ (htook _ _ _)))

theorem ends_failOne (j : Job) (c : Completion) (h : Ends loud b s) : Ends loud b (failOne j c s) :=
  ends_deliver hloud _ _ (ends_endJobCtx _ _ (ends_dropNew _ (ends_releaseJob _ h)))

theorem ends_okOne (j : Job) (c : Completion) (h : Ends loud b s) : Ends loud b (okOne j c s) :=
  ends_deliver hloud _ _ (ends_endJobCtx _ _ (ends_wrapCtx _ (ends_releaseJob _ h)))

theorem ends_failJob (j : Job) (c : Completion) (h : Ends loud b s) : Ends loud b (failJob j c s) :=
  ends_foldl (fun _ _ => ends_failOne hloud _ _) (ends_failOne hloud _ _ h)

theorem ends_okJob (j : Job) (c : Completion) (h : Ends loud b s) : Ends loud b (okJob j c s) :=
  ends_foldl (fun _ _ => ends_okOne hloud _ _) (ends_okOne hloud _ _ h)

theorem ends_abortJob (st : Status) (i : Nat) (h : Ends loud b s) : Ends loud b (abortJob st i s) := by
  unfold abortJob
  split
  · exact h
  · exact ends_ite h (ends_failJob hloud _ _ h)

/-! ### Erasures -/

theorem page_endDdp (x : FnState) : Page loud x (endDdp x) := by
  unfold endDdp
  dsimp only
  split
  · exact page_loud hloud x _ _ _
  · exact page_loud hloud x _ _ _

theorem ends_dropDdp (i : Nat) (h : Ends loud b s) : Ends loud b (dropDdp i s) := by
  refine ⟨h.frame.trans rfl, h.waits, elementwise_trans Page.trans h.pages (elementwise_map (fun x => ?_) _), h.units, h.slots⟩
  split
  · exact page_endDdp hloud x
  · exact .refl x

theorem ends_retireSlot (i : Nat) (h : Ends loud b s) : Ends loud b (retireSlot i s) := by
  unfold retireSlot
  split
  · exact h
  case h_2 x hx =>
    split
    · exact h
    case isFalse hocc =>
      have hdropped : Ends loud b (dropDdp i (endKeyCtxs (mkHandle x.domain x.ktype x.gen i) s)) := ends_dropDdp hloud _ h.to
      refine ⟨hdropped.frame.trans rfl, hdropped.waits, hdropped.pages, hdropped.units,
        elementwise_trans SlotEnded.trans hdropped.slots (elementwise_modFirst_find .refl (x := x) hx ⟨rfl, rfl, fun hfree => ?_⟩)⟩
      exact absurd hocc (by simp [hfree])

theorem ends_endEraseWaits (h : Ends loud b s) : Ends loud b (endEraseWaits s) :=
  ends_foldl (fun _ _ => ends_adminDone hloud _ _ _ _) (h.to (t := { s with waits := s.waits.filter (fun w => !(eraseOver s w)) }) (hwaits := fun e => by rw [e]; rfl))

theorem ends_finishRetire (i : Nat) (h : Ends loud b s) : Ends loud b (finishRetire i s) := by
  refine ends_endEraseWaits hloud (ends_foldl (fun _ _ => ends_okJob hloud _ _) ?_)
  unfold zeroSlot
  split
  · exact h
  · exact (ends_onSlot i slotEnded_free h).to

theorem ends_eraseSlot (force : Bool) (i : Nat) (h : Ends loud b s) : Ends loud b (eraseSlot force i s).2.2 := by
  have hretired := ends_retireSlot hloud i h
  unfold eraseSlot
  dsimp only
  split
  · exact ends_finishRetire hloud _ (ends_foldl (fun _ _ => ends_abortJob hloud _ _) hretired)
  · split
    · exact ends_finishRetire hloud _ hretired
    · exact hretired

theorem ends_wipeDomains (p : Nat → Bool) (h : Ends loud b s) : Ends loud b (wipeDomains p s) :=
  Ends.to (ends_foldl (fun _ _ => ends_eraseSlot hloud true _) h)

end

end

end Sys2Proof.Machine

/-!
PROOFS. Resets of functions, the link's resets, D3hot and D0 (R141 to R144).
-/
namespace Sys2Proof.Machine
set_option Elab.async false -- as in Laws: the one text has more theorems than threads

/-! ### The completion of an admin command -/

/-- What a completion entry's own CQ can change. -/
def CqWritten (c d : Cq) : Prop := d = { c with tail := d.tail, sinceSig := d.sinceSig, firstUnsig := d.firstUnsig, episode := d.episode }

theorem CqWritten.trans (c d e : Cq) (h : CqWritten c d) (k : CqWritten d e) : CqWritten c e := by
  unfold CqWritten at *
  rw [k, h]

theorem CqWritten.fn {c d : Cq} (h : CqWritten c d) : d.fn = c.fn := by rw [h]

/-- The completion of an admin command changes a completion queue, what requests and signals change, and nothing else. -/
structure AdminEnds (b t : State) : Prop where
  frame : t = { b with fns := t.fns, cqs := t.cqs, out := t.out }
  cqs : Elementwise CqWritten b.cqs t.cqs

section
variable {b s t : State}

theorem AdminEnds.refl (s : State) : AdminEnds s s := ⟨rfl, elementwise_of_refl (R := CqWritten) (fun _ => rfl) _⟩

/-- What goes over the link is none of the fields spoken of. -/
theorem AdminEnds.link (h : AdminEnds b s) (k : LinkOnly s t) : AdminEnds b t := by
  refine ⟨?_, ?_⟩
  · rw [k, h.frame]
  · rw [k]
    exact h.cqs

theorem adminEnds_onCq {f : Fn} {q : Nat} {g : Cq → Cq} (hg : ∀ c, CqWritten c (g c)) (h : AdminEnds b s) : AdminEnds b (s.onCq f q g) := by
  refine ⟨?_, elementwise_trans CqWritten.trans h.cqs (elementwise_modFirst (R := CqWritten) (fun _ => rfl) (fun c _ => hg c) _)⟩
  rw [h.frame]
  rfl

theorem adminEnds_ite {c : Prop} [Decidable c] (h : AdminEnds b s) (k : AdminEnds b t) : AdminEnds b (if c then s else t) := by
  split
  · exact h
  · exact k

theorem adminEnds_signalCq (f : Fn) (q : Nat) (h : AdminEnds b s) : AdminEnds b (signalCq f q s) := by
  unfold signalCq
  split
  · exact h
  · exact (adminEnds_onCq (fun _ => by exact rfl) h).link (linkOnly_signal _ _ (.refl _))

theorem adminEnds_putEntry (f : Fn) (q : Nat) (e : Bytes) (sig : Bool) (h : AdminEnds b s) : AdminEnds b (putEntry f q e sig s) := by
  unfold putEntry
  split
  · exact h
  · have hput := fun a (g : Cq → Cq) (hg : ∀ c, CqWritten c (g c)) =>
      adminEnds_onCq (f := f) (q := q) hg (h.link (linkOnly_writeRing f a e (.refl _)))
    exact adminEnds_ite h (adminEnds_ite (adminEnds_signalCq _ _ (hput _ _ fun _ => by exact rfl)) (hput _ _ fun _ => by exact rfl))

theorem adminEnds_beginEpisode (f : Fn) (q : Nat) (h : AdminEnds b s) : AdminEnds b (beginEpisode f q s) := by
  unfold beginEpisode
  split
  · exact h
  · exact adminEnds_ite h ((adminEnds_onCq (fun _ => by exact rfl) h).link (linkOnly_ringEvent _ _ _ _ _ (.refl _)))

theorem adminEnds_writeCompletion (f : Fn) (q : Nat) (c : Completion) (h : AdminEnds b s) : AdminEnds b (writeCompletion f q none false c s) :=
  adminEnds_beginEpisode _ _ (adminEnds_putEntry _ _ _ _ h)

theorem adminEnds_adminDone (f : Fn) (tag : Nat) (st : Status) (inl : Bytes) (h : AdminEnds b s) : AdminEnds b (adminDone f tag st inl s) := by
  unfold adminDone
  split
  · exact adminEnds_ite (adminEnds_writeCompletion _ _ _ h) h
  · exact h

theorem adminEnds_foldl {α : Type} {f : State → α → State} {l : List α} (hf : ∀ t x, AdminEnds b t → AdminEnds b (f t x)) (h : AdminEnds b s) :
    AdminEnds b (l.foldl f s) := by
  induction l generalizing s with
  | nil => exact h
  | cons x l ih => exact ih (hf s x h)

end

/-! ### The reset of one function -/

/-- The waiting commands that a reset of `f` leaves (R144). -/
def waitsLeft (f : Fn) (s : State) : List AdminWait :=
  (s.waits.filter (fun (w : AdminWait) => !(w.kind == .quiesce && w.target == f) && (w.fn != f || w.kind == .sliceDestroy))).map
    (fun (w : AdminWait) => if w.fn == f then { w with fn := w.target } else w)

theorem adminEnds_resetWaits (f : Fn) (s : State) : AdminEnds { s with waits := waitsLeft f s } (resetWaits f s) :=
  adminEnds_foldl (fun _ _ => adminEnds_adminDone _ _ _ _) (.refl _)

theorem resetWaits_of_no_waits {s : State} (f : Fn) (h : s.waits = []) : resetWaits f s = { s with waits := [] } := by
  simp [resetWaits, h]

theorem ends_resetWaits {loud : Prop} {b s : State} (hloud : loud ∨ s.waits = []) (f : Fn) (h : Ends loud b s) : Ends loud b (resetWaits f s) := by
  rcases hloud with hl | hnone
  · exact ends_foldl (fun _ _ => ends_adminDone hl _ _ _ _) (h.to (hwaits := fun e => by simp [e]))
  · rw [resetWaits_of_no_waits f hnone]
    exact h.to (hwaits := fun _ => rfl)

/-- No queue and no job of `f` is left. -/
def queuesGone (f : Fn) (s : State) : State :=
  { s with sqs := s.sqs.filter (fun q => q.fn != f), cqs := s.cqs.filter (fun q => q.fn != f), jobs := s.jobs.filter (fun (j : Job) => j.fn != f) }

/-- The manager hears of a message that was pending as the reset began (R435). -/
def messageLost (x : FnState) (s : State) : State := if x.mbx.inPend && s.mgr.enable then signal .pf0 s.mgr.vector s else s

/-- The manager's registers are PF0's own. -/
def managerReset (f : Fn) (s : State) : State := if f == .pf0 then { s with mgr := {} } else s

/-- The state in which a function's page is reset. -/
def beforePage (f : Fn) (x : FnState) (s : State) : State := managerReset f (messageLost x (resetWaits f (queuesGone f (dropJobs f s))))

theorem resetOne_eq {f : Fn} {x : FnState} {s : State} (hf : s.fn? f = some x) : resetOne f s = (beforePage f x s).onFn f resetPage := by
  simp only [resetOne, hf]
  rfl

/-- What a function's reset leaves: the link, the slices, and of the pages what `Page` says. -/
structure ResetEnds (loud : Prop) (b t : State) : Prop where
  link : t.link = b.link
  slices : t.slices = b.slices
  pages : Elementwise (Page loud) b.fns t.fns

theorem Ends.toReset {loud : Prop} {b t : State} (h : Ends loud b t) : ResetEnds loud b t := ⟨by rw [h.frame], by rw [h.frame], h.pages⟩

theorem ends_messageLost {loud : Prop} {b s : State} {x : FnState} (hloud : loud ∨ x.mbx.inPend = false) (h : Ends loud b s) :
    Ends loud b (messageLost x s) := by
  rcases hloud with hl | hnone
  · exact ends_ite (ends_signal hl _ _ h) h
  · simpa [messageLost, hnone] using h

/-- Without a waiting command and a pending message the reset is not heard. -/
theorem resetEnds_beforePage {loud : Prop} {f : Fn} {x : FnState} {s : State} (hloud : loud ∨ (s.waits = [] ∧ x.mbx.inPend = false)) :
    ResetEnds loud s (beforePage f x s) := by
  have hjobs : Ends loud s (dropJobs f s) := ends_dropJobs (hloud.imp id And.left) f (.refl s)
  have hgone : Ends loud s (queuesGone f (dropJobs f s)) := hjobs.to
  have hwaits := ends_resetWaits (hloud.imp id fun h => hgone.waits h.1) f hgone
  have hmessage := (ends_messageLost (hloud.imp id And.right) hwaits).toReset
  unfold beforePage managerReset
  split
  · exact ⟨hmessage.link, hmessage.slices, hmessage.pages⟩
  · exact hmessage

/-- None of the function's queues and jobs is left when its page is reset. -/
theorem beforePage_empty (f : Fn) (x : FnState) (s : State) :
    (∀ q ∈ (beforePage f x s).sqs, q.fn ≠ f) ∧ (∀ q ∈ (beforePage f x s).cqs, q.fn ≠ f) ∧ ∀ j ∈ (beforePage f x s).jobs, j.fn ≠ f := by
  have hwaits := adminEnds_resetWaits f (queuesGone f (dropJobs f s))
  have hmessage : AdminEnds _ (messageLost x (resetWaits f (queuesGone f (dropJobs f s)))) := adminEnds_ite (hwaits.link (linkOnly_signal _ _ (.refl _))) hwaits
  have hqueues : (beforePage f x s).sqs = (dropJobs f s).sqs.filter (fun q => q.fn != f) ∧ (beforePage f x s).jobs = (dropJobs f s).jobs.filter (fun j => j.fn != f) ∧
      Elementwise CqWritten ((dropJobs f s).cqs.filter (fun q => q.fn != f)) (beforePage f x s).cqs := by
    unfold beforePage managerReset
    split <;> exact ⟨by rw [hmessage.frame]; rfl, by rw [hmessage.frame]; rfl, hmessage.cqs⟩
  obtain ⟨hsqs, hjobs, hcqs⟩ := hqueues
  refine ⟨?_, fun q hq => ?_, ?_⟩
  · simp [hsqs]
  · obtain ⟨c, hc, hwritten⟩ := elementwise_mem_right hcqs hq
    rw [hwritten.fn]
    simpa using (List.mem_filter.1 hc).2
  · simp [hjobs]

/-- What a reset makes of a page that is, up to what it resets anyway, still as it was. -/
theorem resetPage_of_page {loud : Prop} {x y : FnState} (h : Page loud x y) : resetPage y = { resetPage x with pba := y.pba } := by
  rw [h.1]
  rfl

theorem resetOne_page {loud : Prop} {f : Fn} {x : FnState} {s : State} (hf : s.fn? f = some x) (hloud : loud ∨ (s.waits = [] ∧ x.mbx.inPend = false)) :
    ∃ y, Page loud x y ∧ (resetOne f s).fnOf f = { resetPage x with pba := y.pba } := by
  obtain ⟨y, hy, hpage⟩ := page_of_fn? (resetEnds_beforePage (f := f) hloud).pages hf
  refine ⟨y, hpage, ?_⟩
  rw [resetOne_eq hf, ← resetPage_of_page hpage]
  refine fnOf_eq (fn?_onFn_some hy)

/-! ### The link, the slices and the functions' names -/

/-- The link and the slices are as before, and so are the functions there are. -/
structure SameFns (b t : State) : Prop where
  link : t.link = b.link
  slices : t.slices = b.slices
  names : t.fns.map (fun x => x.fn) = b.fns.map (fun x => x.fn)

theorem SameFns.refl (s : State) : SameFns s s := ⟨rfl, rfl, rfl⟩
theorem SameFns.trans {a b c : State} (h : SameFns a b) (k : SameFns b c) : SameFns a c :=
  ⟨k.link.trans h.link, k.slices.trans h.slices, k.names.trans h.names⟩
theorem Ends.sameFns {loud : Prop} {b t : State} (h : Ends loud b t) : SameFns b t := ⟨h.toReset.link, h.toReset.slices, names_of_pages h.pages⟩

theorem sameFns_onFn (s : State) (f : Fn) {g : FnState → FnState} (hg : ∀ x, (g x).fn = x.fn) : SameFns s (s.onFn f g) :=
  ⟨rfl, rfl, map_modFirst hg _⟩

theorem sameFns_foldl {α : Type} {f : State → α → State} (hf : ∀ t x, SameFns t (f t x)) (l : List α) (s : State) : SameFns s (l.foldl f s) := by
  induction l generalizing s with
  | nil => exact .refl s
  | cons x l ih => exact (hf s x).trans (ih _)

theorem sameFns_wipeDomains (p : Nat → Bool) (s : State) : SameFns s (wipeDomains p s) := (ends_wipeDomains trivial p (.refl s)).sameFns

theorem sameFns_resetOne (f : Fn) (s : State) : SameFns s (resetOne f s) := by
  cases hf : s.fn? f with
  | none => simp only [resetOne, hf]; exact .refl s
  | some x =>
    have hbefore : ResetEnds True s (beforePage f x s) := resetEnds_beforePage (.inl trivial)
    rw [resetOne_eq hf]
    exact SameFns.trans ⟨hbefore.link, hbefore.slices, names_of_pages hbefore.pages⟩ (sameFns_onFn _ f fun _ => rfl)

theorem sameFns_resetInstance (f : Fn) (s : State) : SameFns s (resetInstance f s) := by
  unfold resetInstance
  split
  · split
    · exact .refl s
    · exact (sameFns_resetOne f s).trans (sameFns_wipeDomains _ _)
  · exact .refl s

theorem sameFns_resetPf1 (s : State) : SameFns s (resetPf1 s) := by
  unfold resetPf1
  split
  · exact .refl s
  · exact (sameFns_foldl (fun t (x : Slice) => sameFns_resetInstance (.slice x.num) t) _ _).trans (sameFns_onFn _ _ fun _ => rfl)

/-- A function that is listed under one of the names of a list. -/
theorem fn_mem_names {l : List FnState} {x : FnState} (h : x ∈ l) : x.fn ∈ l.map (fun x => x.fn) := List.mem_map_of_mem h

/-- A reset of every function leaves no slice, no VF, and VF Enable 0 (R142). -/
theorem resetAll_fns (s : State) : (resetAll s).link.vfEnable = false ∧ (resetAll s).slices = [] ∧ ∀ x ∈ (resetAll s).fns, x.fn = .pf0 ∨ x.fn = .pf1 := by
  have hslices := sameFns_resetPf1 (vfsGone s)
  unfold resetAll
  extract_lets u v w
  have hlast : SameFns w (wipeDomains (fun _ => true) (resetOne .pf0 w)) := (sameFns_resetOne .pf0 w).trans (sameFns_wipeDomains _ _)
  refine ⟨?_, ?_, fun x hx => ?_⟩
  · rw [hlast.link]
    exact congrArg LinkSt.vfEnable hslices.link
  · rw [hlast.slices]
    simp [w, releaseSlices]
  · have hx' := fn_mem_names hx
    rw [hlast.names] at hx'
    obtain ⟨y, hy, hyx⟩ := List.mem_map.1 hx'
    obtain ⟨hyu, hnot⟩ := List.mem_filter.1 hy
    have hy' := fn_mem_names (show y ∈ u.fns from hyu)
    rw [hslices.names] at hy'
    obtain ⟨z, hz, hzy⟩ := List.mem_map.1 hy'
    have hvf := (List.mem_filter.1 hz).2
    rw [← hyx]
    cases hfn : y.fn with
    | pf0 => exact .inl rfl
    | pf1 => exact .inr rfl
    | slice n => simp [hfn] at hnot
    | vf n => simp [hzy, hfn] at hvf

theorem merMove_mer (st : MerSt) (off : Int) (s : State) : (merMove st off s).mer = { s.mer with st := st } := by
  simp [merMove]

theorem merMove_frame (st : MerSt) (off : Int) (s : State) : merMove st off s = { s with mer := (merMove st off s).mer, alm := (merMove st off s).alm } := by
  unfold merMove
  rw [raiseEvent_frame]

theorem merLoss_frame (s : State) : merLoss s = { s with mer := (merLoss s).mer, alm := (merLoss s).alm } := by
  unfold merLoss
  split
  · rfl
  · rw [merMove_frame]

theorem ptmOff_frame (s : State) : ptmOff s = { s with mer := (ptmOff s).mer, alm := (ptmOff s).alm } := by
  unfold ptmOff
  dsimp only
  split
  · rw [merLoss_frame]
  · rfl

theorem ptmOff_ptmEnable (s : State) : (ptmOff s).mer.ptmEnable = false := by
  unfold ptmOff merLoss
  dsimp only
  split
  · split
    · rfl
    · simp [merClear, merMove_mer]
  · rfl

/-! ### D3hot, D0 and the end of a reset -/

theorem endSliceWaits_of_no_waits {s : State} (f : Fn) (h : s.waits = []) : endSliceWaits f s = s := by
  cases s
  cases h
  rfl

/-- Without waiting commands the end of a reset changes the function's own page. -/
theorem resetEnd_of_no_waits {f : Fn} {x : FnState} {s : State} (hf : s.fn? f = some x) (hwaits : s.waits = []) :
    resetEnd f s = if x.resetting then s.onFn f (fun y => { y with resetting := false, ready := mayServe s f && !y.d3 }) else s := by
  simp only [resetEnd, hf, endSliceWaits_of_no_waits f (s := s.onFn f _) hwaits]
  cases x.resetting <;> rfl

theorem exec_flrVf (n : Nat) (s : State) : exec (.flrVf n) s = .next (if routed s (.vf n) then resetInstance (.vf n) s else s) := rfl
theorem exec_d3hotEntry (f : Fn) (s : State) : exec (.d3hotEntry f) s = .next (enterD3 f s) := rfl
theorem exec_d0Entry (f : Fn) (s : State) : exec (.d0Entry f) s = .next (enterD0 f s) := rfl
theorem exec_functionResetComplete (f : Fn) (s : State) : exec (.functionResetComplete f) s = .next (resetComplete f s) := rfl
theorem exec_flrPf0 (s : State) : exec .flrPf0 s = .next (if s.link.up then resetPf0 s else s) := rfl
theorem exec_flrPf1 (s : State) : exec .flrPf1 s = .next (if s.link.up then resetPf1 s else s) := rfl
theorem exec_hotReset (s : State) : exec .hotReset s = .next (inBandReset s) := rfl
theorem exec_secondaryBusReset (s : State) : exec .secondaryBusReset s = .next (inBandReset s) := rfl
theorem exec_dlDown (s : State) : exec .dlDown s = .next (linkDown s) := rfl

theorem resetInstance_eq {f : Fn} {x : FnState} {s : State} (hf : s.fn? f = some x) :
    resetInstance f s = if x.resetting then s else wipeDomains (fun y => domainOf s f == some y) (resetOne f s) := by
  simp only [resetInstance, hf]

theorem resetPf0_eq {s : State} (h : (s.fnOf .pf0).resetting = false) :
    resetPf0 s = wipeDomains (fun d => !((resetOne .pf0 (vfsGone s)).slices.any (fun x => x.domain == d))) (resetOne .pf0 (vfsGone s)) := by
  simp [resetPf0, h]

theorem resetPf1_eq {s : State} (h : (s.fnOf .pf1).resetting = false) :
    resetPf1 s = (s.slices.foldl (fun u x => resetInstance (.slice x.num) u) s).onFn .pf1 (fun x => { x with resetting := true, ready := false }) := by
  simp [resetPf1, h]

theorem inBandReset_up {s : State} (h : s.link.up = true) : inBandReset s = ptmOff (resetAll s) := by simp [inBandReset, h]

/-- DL_Down ends the link, the VFs and the slices (R142). -/
theorem linkDown_up {s : State} (h : s.link.up = true) : (linkDown s).link.up = false ∧ (linkDown s).link.width = 0 ∧ (linkDown s).link.vfEnable = false ∧
    (linkDown s).mer.ptmEnable = false ∧ (linkDown s).slices = [] ∧ ∀ x ∈ (linkDown s).fns, x.fn = .pf0 ∨ x.fn = .pf1 := by
  obtain ⟨hvf, hslices, hfns⟩ := resetAll_fns s
  have hdown : linkDown s = { ptmOff (resetAll s) with link := { (ptmOff (resetAll s)).link with up := false, width := 0, speed := 0, full := 0 } } := by
    simp [linkDown, h, inBandReset_up h]
  rw [hdown]
  refine ⟨rfl, rfl, ?_, ptmOff_ptmEnable _, ?_, ?_⟩
  · rw [ptmOff_frame]; exact hvf
  · rw [ptmOff_frame]; exact hslices
  · rw [ptmOff_frame]; exact hfns

theorem enterD3_eq {f : Fn} {x : FnState} {s : State} (hf : s.fn? f = some x) (hd3 : x.d3 = false) (hr : routed s f = true) (hslice : ∀ n, f ≠ .slice n) :
    enterD3 f s = (match f with | .pf0 => resetPf0 s | .pf1 => resetPf1 s | f => resetInstance f s).onFn f (fun y => { y with d3 := true, ready := false }) := by
  have hof := fnOf_eq hf
  cases f with
  | slice n => exact absurd rfl (hslice n)
  | _ => simp [enterD3, hf, hof, hd3, hr]

theorem enterD0_spec {f : Fn} {x : FnState} {s : State} (hf : s.fn? f = some x) (hd3 : x.d3 = true) (hr : routed s f = true) :
    (enterD0 f s).fn? f = some { resetSpace x with d3 := false, ready := mayServe s f && !x.resetting } ∧ (enterD0 f s).sqs = s.sqs ∧
      (enterD0 f s).jobs = s.jobs ∧ (enterD0 f s).out = s.out := by
  have heq : enterD0 f s = resetPfSpace f (s.onFn f (fun x => { resetSpace x with d3 := false, ready := mayServe s f && !x.resetting })) := by
    simp [enterD0, fnOf_eq hf, hd3, hr]
  have hspace : ∀ u : State, (resetPfSpace f u).fns = u.fns ∧ (resetPfSpace f u).sqs = u.sqs ∧ (resetPfSpace f u).jobs = u.jobs ∧ (resetPfSpace f u).out = u.out := by
    intro u
    cases f <;> exact ⟨rfl, rfl, rfl, rfl⟩
  obtain ⟨hfns, hsqs, hjobs, hout⟩ := hspace (s.onFn f (fun x => { resetSpace x with d3 := false, ready := mayServe s f && !x.resetting }))
  rw [heq]
  refine ⟨?_, hsqs, hjobs, hout⟩
  rw [fn?_of_fns hfns]
  exact fn?_onFn_some hf

/-- Without waiting commands the end of the slices' resets leaves PF1's own page, the queues and what has left the module. -/
theorem foldl_resetEnd_of_no_waits (l : List Slice) (s : State) (hwaits : s.waits = []) :
    (l.foldl (fun s x => resetEnd (.slice x.num) s) s).fn? .pf1 = s.fn? .pf1 ∧ (l.foldl (fun s x => resetEnd (.slice x.num) s) s).sqs = s.sqs ∧
      (l.foldl (fun s x => resetEnd (.slice x.num) s) s).out = s.out := by
  induction l generalizing s with
  | nil => exact ⟨rfl, rfl, rfl⟩
  | cons y l ih =>
    have hstep : (resetEnd (.slice y.num) s).waits = [] ∧ (resetEnd (.slice y.num) s).fn? .pf1 = s.fn? .pf1 ∧
        (resetEnd (.slice y.num) s).sqs = s.sqs ∧ (resetEnd (.slice y.num) s).out = s.out := by
      cases hf : s.fn? (.slice y.num) with
      | none =>
        have hnone : resetEnd (.slice y.num) s = s := by simp only [resetEnd, hf]
        rw [hnone]
        exact ⟨hwaits, rfl, rfl, rfl⟩
      | some x =>
        rw [resetEnd_of_no_waits hf hwaits]
        split
        · exact ⟨hwaits, fn?_onFn_ne _ _ _ _ (fun _ => rfl) (by simp), rfl, rfl⟩
        · exact ⟨hwaits, rfl, rfl, rfl⟩
    obtain ⟨hw, hfn, hsqs, hout⟩ := hstep
    obtain ⟨ih1, ih2, ih3⟩ := ih _ hw
    exact ⟨ih1.trans hfn, ih2.trans hsqs, ih3.trans hout⟩

theorem resetComplete_spec {f : Fn} {x : FnState} {s : State} (hf : s.fn? f = some x) (hreset : x.resetting = true) (hwaits : s.waits = [])
    (hslice : ∀ n, f = .slice n → (s.fnOf .pf1).resetting = false) :
    (resetComplete f s).fn? f = some { x with resetting := false, ready := mayServe s f && !x.d3 } ∧ (resetComplete f s).sqs = s.sqs ∧
      (resetComplete f s).out = s.out := by
  have hend : resetEnd f s = s.onFn f (fun y => { y with resetting := false, ready := mayServe s f && !y.d3 }) := by
    simp [resetEnd_of_no_waits hf hwaits, hreset]
  have hspec : (resetEnd f s).fn? f = some { x with resetting := false, ready := mayServe s f && !x.d3 } ∧ (resetEnd f s).sqs = s.sqs ∧
      (resetEnd f s).out = s.out := by
    rw [hend]
    exact ⟨fn?_onFn_some hf, rfl, rfl⟩
  cases f with
  | pf0 => exact hspec
  | vf n => exact hspec
  | slice n => simpa [resetComplete, hslice n rfl] using hspec
  | pf1 =>
    have hfold := foldl_resetEnd_of_no_waits s.slices (resetEnd .pf1 s) (by rw [hend]; exact hwaits)
    simp only [resetComplete, fnOf_eq hf, hreset, if_true]
    exact ⟨hfold.1.trans hspec.1, hfold.2.1.trans hspec.2.1, hfold.2.2.trans hspec.2.2⟩

/-- Settles O10: the reset of one page, the resets by their scope, D3hot, D0 and the end of a reset. -/
theorem resetsAndPowerStates : Obligations.ResetsAndPowerStates := by
  unfold Obligations.ResetsAndPowerStates
  refine ⟨fun f s x y hf hy => ?_, ⟨fun n x s hf hr => ⟨fun hreset hlives => ?_, fun hreset => ?_⟩, fun s hup hreset => ?_, fun s hup hreset => ?_, fun s hup => ⟨fun hreset => ?_, fun hreset => ?_⟩,
    fun s hup => ⟨?_, ?_, ptmOff_ptmEnable _, _, exec_dlDown s, linkDown_up hup⟩, fun s hdown => ?_⟩,
    fun n x s hf hd3 hr => ?_, fun x s hf hd3 => ?_, fun x s hf hd3 => ?_, fun f x s hf hd3 hr => ⟨_, exec_d0Entry f s, enterD0_spec hf hd3 hr⟩,
    fun f x s hf hreset hwaits hslice => ⟨_, exec_functionResetComplete f s, resetComplete_spec hf hreset hwaits hslice⟩, fun n s hreset => ?_⟩
  · obtain ⟨hsqs, hcqs, hjobs⟩ := beforePage_empty f x s
    obtain ⟨z, -, hpage⟩ := resetOne_page (loud := True) hf (.inl trivial)
    have hname := fn?_fn hf
    rw [hpage] at hy
    subst hy
    rw [resetOne_eq hf]
    refine ⟨hsqs, hcqs, hjobs, rfl, rfl, rfl, rfl, rfl, rfl, rfl, rfl, rfl, rfl, rfl, rfl, rfl, rfl, fun hwaits hpend => ?_⟩
    obtain ⟨w, hquiet, hpage'⟩ := resetOne_page (loud := False) hf (.inr ⟨hwaits, hpend⟩)
    rw [hpage] at hpage'
    rw [hpage', (hquiet.2.resolve_left id).1, ← hname]
    rfl
  · refine ⟨_, exec_flrVf n s, ?_, by simp [domainOf, hlives]⟩
    simp [hr, resetInstance_eq hf, hreset]
  · simp [exec_flrVf, resetInstance_eq hf, hreset]
  · rw [exec_flrPf0, if_pos hup, resetPf0_eq hreset]
  · rw [exec_flrPf1, if_pos hup, resetPf1_eq hreset]
  · rw [exec_flrPf0, if_pos hup, resetPf0, if_pos hreset]
  · rw [exec_flrPf1, if_pos hup, resetPf1, if_pos hreset]
  · rw [exec_hotReset, inBandReset_up hup]
  · rw [exec_secondaryBusReset, inBandReset_up hup]
  · simp [exec_flrPf0, exec_flrPf1, exec_hotReset, exec_secondaryBusReset, exec_dlDown, linkDown, inBandReset, hdown]
  · rw [exec_d3hotEntry, enterD3_eq hf hd3 hr (by simp)]
  · rw [exec_d3hotEntry, enterD3_eq hf hd3 rfl (by simp)]
  · rw [exec_d3hotEntry, enterD3_eq hf hd3 rfl (by simp)]
  · simp [exec_functionResetComplete, resetComplete, hreset]

end Sys2Proof.Machine

/-!
PROOFS. Bus Master Enable clears where two jobs share a number (R128, R161).
-/
namespace Sys2Proof.Machine
set_option Elab.async false -- as in Laws: the one text has more theorems than threads

theorem exec_busMasterEnableClear (f : Fn) (s : State) : exec (.busMasterEnableClear f) s = .next (busMasterOff f s) := rfl

/-- Two slices under PF1, each with a job of the same number; slice 2 has an SQ. -/
def sharedNumber : State :=
  { fns := [{ fn := .pf1, busMaster := true }, { fn := .slice 1 }, { fn := .slice 2 }],
    sqs := [{ fn := .slice 2 }], jobs := [{ fn := .slice 1 }, { fn := .slice 2 }] }

/-- The end of slice 1's job takes slice 2's along, and slice 2's SQ is left ENABLED. -/
theorem busMasterOff_sharedNumber : ((busMasterOff .pf1 sharedNumber).sq? (.slice 2) 0).map (fun q => q.st) = some .enabled := by decide

/-- Refutes O11: job numbers are not asked to differ in the clause on SQs. With one number for a job of slice 1 and a job of slice 2 under PF1, the end
of the first removes both, and slice 2's SQ, which had a job, does not stop. -/
theorem not_enableBitsOfFunctions : ¬ Obligations.EnableBitsOfFunctions := by
  unfold Obligations.EnableBitsOfFunctions
  intro h
  obtain ⟨t, ht, -, -, -, hstops, -⟩ := h.1.1 .pf1 sharedNumber rfl rfl (by decide)
  rw [exec_busMasterEnableClear] at ht
  cases ht
  obtain ⟨y, hy, hst, -⟩ := hstops { fn := .slice 2 } (by decide) rfl { fn := .slice 2 } rfl (by decide)
  have hleft := busMasterOff_sharedNumber
  rw [hy] at hleft
  simp [hst] at hleft

end Sys2Proof.Machine

/-!
PROOFS. Failed accesses, invalidations and pending messages (R127, R131, R132, R134, R161).
-/
namespace Sys2Proof.Machine
set_option Elab.async false -- as in Laws: the one text has more theorems than threads

theorem exec_dmaReadFailure (t : DmaTarget) (why : DmaFail) (s : State) :
    exec (.dmaReadFailure { target := t, why := why }) s = .next (dmaFault t why s) := rfl
theorem exec_completionTimeout (t : DmaTarget) (s : State) : exec (.completionTimeout t) s = .next (dmaTimeout t s) := rfl
theorem exec_atsInvalidate (f : Fn) (itag : Nat) (range : Option AtsRange) (s : State) :
    exec (.atsInvalidate f { itag := itag, range := range }) s = .next (atsDone f itag range s) := rfl
theorem exec_msixUnmask (f : Fn) (v : Option Nat) (s : State) : exec (.msixUnmask f v) s = .next (unmask f v s) := rfl

/-! ### Queues that stop -/

@[simp] theorem sqs_stopEvent (f : Fn) (q k r v : Nat) (s : State) : (stopEvent f q k r v s).sqs = s.sqs := by
  unfold stopEvent
  split <;> simp
@[simp] theorem cqs_stopEvent (f : Fn) (q k r v : Nat) (s : State) : (stopEvent f q k r v s).cqs = s.cqs := by
  unfold stopEvent
  split <;> simp

/-- Another queue's stop leaves a queue alone. -/
theorem sq?_stopSq_ne {f g : Fn} {q i : Nat} (r v : Nat) (s : State) (hne : ¬ (g = f ∧ i = q)) : (stopSq f q r v s).sq? g i = s.sq? g i := by
  unfold stopSq
  split
  · rfl
  · split
    · rfl
    · rw [sq?_of_sqs (sqs_stopEvent ..)]
      refine find_modFirst_ne _ _ _ (fun x hx => ?_) (fun x hx => ?_) s.sqs
      all_goals
        simp only [Bool.and_eq_true, beq_iff_eq] at hx
        obtain ⟨rfl, rfl⟩ := hx
        simp only [Bool.and_eq_false_imp, beq_iff_eq, beq_eq_false_iff_ne]
        exact fun hfn hid => hne ⟨hfn.symm, hid.symm⟩

/-- A queue in error stays as it is, whichever queue stops. -/
theorem sq?_stopSq_error {f g : Fn} {q i : Nat} {y : Sq} (r v : Nat) {s : State} (hy : s.sq? g i = some y) (hst : y.st = .error) :
    (stopSq f q r v s).sq? g i = some y := by
  by_cases hq : g = f ∧ i = q
  · obtain ⟨rfl, rfl⟩ := hq
    simp [stopSq, hy, hst]
  · rw [sq?_stopSq_ne r v s hq, hy]

/-- After its stop an SQ is in error. -/
theorem sq?_stopSq_st {f : Fn} {q : Nat} {x : Sq} (r v : Nat) {s : State} (hx : s.sq? f q = some x) : ∃ y, (stopSq f q r v s).sq? f q = some y ∧ y.st = .error := by
  by_cases hst : x.st = .error
  · exact ⟨x, sq?_stopSq_error r v hx hst, hst⟩
  · exact ⟨_, sq?_stopSq r v hx hst, rfl⟩

/-- A run of stops leaves in error each queue that is in error or among those stopped. -/
theorem sq?_foldl_stopSq (f : Fn) (r : Nat) (v : Sq → Nat) (l : List Sq) {s : State} {i : Nat} {x : Sq} (hx : s.sq? f i = some x)
    (h : x.st = .error ∨ ∃ z ∈ l, z.id = i) : ∃ y, (l.foldl (fun s x => stopSq f x.id r (v x) s) s).sq? f i = some y ∧ y.st = .error := by
  induction l generalizing s x with
  | nil => exact ⟨x, hx, h.resolve_right (by simp)⟩
  | cons z l ih =>
    rcases h with hst | ⟨w, hw, hid⟩
    · exact ih (sq?_stopSq_error r (v z) hx hst) (.inl hst)
    · by_cases hz : z.id = i
      · obtain ⟨y, hy, hst⟩ := sq?_stopSq_st r (v z) hx
        exact ih (s := stopSq f z.id r (v z) s) (by rw [hz]; exact hy) (.inl hst)
      · have hkept := sq?_stopSq_ne (f := f) (g := f) r (v z) s (fun e => hz e.2.symm)
        rcases List.mem_cons.1 hw with rfl | hw
        · exact absurd hid hz
        · exact ih (hkept.trans hx) (.inr ⟨w, hw, hid⟩)

theorem cqs_foldl_stopSq (f : Fn) (r : Nat) (v : Sq → Nat) (l : List Sq) (s : State) : (l.foldl (fun s x => stopSq f x.id r (v x) s) s).cqs = s.cqs := by
  induction l generalizing s with
  | nil => rfl
  | cons z l ih => exact (ih _).trans (cqs_stopSq ..)

/-- A CQ that stops latches its index, and each SQ bound to it stops but the admin SQ. -/
theorem stopCq_spec {f : Fn} {q : Nat} {c : Cq} (r v : Nat) {s : State} (hc : s.cq? f q = some c) (hst : c.st ≠ .error) :
    (stopCq f q r v s).cq? f q = some { c with st := .error, reason := r, latched := v } ∧
      ∀ i x, s.sq? f i = some x → x.cq = q → i ≠ 0xFFFF → ∃ y, (stopCq f q r v s).sq? f i = some y ∧ y.st = .error := by
  have hrun : (c.st == .error) = false := by simp [hst]
  simp only [stopCq, hc, hrun, Bool.false_eq_true, if_false]
  refine ⟨?_, fun i x hx hcq hi => ?_⟩
  · rw [cq?_of_cqs (cqs_foldl_stopSq f 0x0A (fun x => x.head) _ _), cq?_of_cqs (cqs_stopEvent ..)]
    exact cq?_onCq_some hc
  · refine sq?_foldl_stopSq f 0x0A (fun x => x.head) _ ((sq?_of_sqs (sqs_stopEvent ..) f i).trans hx) (.inr ⟨x, ?_, ?_⟩)
    · have hmem := List.mem_of_find?_eq_some hx
      have hname := List.find?_some hx
      simp only [Bool.and_eq_true, beq_iff_eq] at hname
      simp [hmem, hname, hcq, hi]
    · have hname := List.find?_some hx
      simp only [Bool.and_eq_true, beq_iff_eq] at hname
      exact hname.2

/-! ### Failed accesses -/

section
variable {id : Nat} {j : Job} {s : State} (hj : s.job? id = some j)
include hj

theorem accessOwner_job : accessOwner s (.job id) = j.fn := by simp [accessOwner, hj]

theorem jobDmaFault_running (hrun : j.phase = .running) (hpast : j.pastEnd = false) (hfailed : j.failed = none) :
    jobDmaFault id s = failJob j (failEntry j .translationFault (wholeInline j)) s := by
  simp [jobDmaFault, hj, hrun, hpast, hfailed]

end

theorem dmaFault_of_ne {t : DmaTarget} {why : DmaFail} (s : State) (h : why ≠ .poisoned) : dmaFault t why s = dmaStop t (why == .denied) s := by
  simp [dmaFault, h]

/-- AER's log of an error changes a page. -/
theorem aerFatal_frame (f : Fn) (n : Nat) (s : State) : aerFatal f n s = { s with fns := (aerFatal f n s).fns } := rfl

theorem dmaFault_frame (t : DmaTarget) (why : DmaFail) (s : State) :
    dmaFault t why s = { dmaStop t (why == .denied) s with fns := (dmaFault t why s).fns } := by
  unfold dmaFault
  dsimp only
  split
  · exact aerFatal_frame ..
  · rfl

theorem dmaTimeout_job {id : Nat} {j : Job} {s : State} (hj : s.job? id = some j) :
    dmaTimeout (.job id) s = if (s.fnOf (governor j.fn)).cfg.noTimeout then s else aerFatal j.fn 14 (jobDmaFault id s) := by
  simp only [dmaTimeout, accessOwner_job hj, dmaStop]

/-! ### Pending messages -/

/-- With nothing that can leave, no message does. -/
theorem sendPending_disabled {f : Fn} {s : State} (h : (s.fnOf f).msixEnable = false) : sendPending f s = s := by simp [sendPending, h]

/-- The one pending message, of a vector that is unmasked, leaves with its entry's address and data. -/
theorem sendPending_one {f : Fn} {v : Nat} {x : FnState} {s : State} (hf : s.fn? f = some x) (hen : x.msixEnable = true) (hmask : x.fnMask = false)
    (hun : v ∈ x.unmasked) (hpba : x.pba = [v]) :
    sendPending f s = sendMsix f v (s.onFn f (fun y => { y with pba := y.pba.filter (fun w => !(x.unmasked.contains w)) })) := by
  have hgo : x.pba.filter (fun w => x.unmasked.contains w) = [v] := by simp [hpba, hun]
  simp only [sendPending, fnOf_eq hf, hen, hmask, hgo, Bool.not_true, Bool.or_self, Bool.false_eq_true, if_false, List.foldl_cons, List.foldl_nil]

theorem sendMsix_spec {f : Fn} {v : Nat} {x : FnState} {s : State} (hf : s.fn? f = some x) :
    (∃ h, h.rid = ridOf s f ∧ (sendMsix f v s).out = s.out ++ [.msix h v (msixEntry x v).1 (msixEntry x v).2]) ∧ (sendMsix f v s).fn? f = some x := by
  obtain rfl := fnOf_eq hf
  refine ⟨⟨_, ?_, rfl⟩, hf⟩
  rfl

/-- A vector is unmasked once. -/
theorem unmask_some {f : Fn} {v : Nat} {x : FnState} {s : State} (hopen : pageOpen s f = true) (hf : s.fn? f = some x) (hnew : x.unmasked.contains v = false) :
    unmask f (some v) s = sendPending f (s.onFn f (fun x => { x with unmasked := if x.unmasked.contains v then x.unmasked else x.unmasked ++ [v] })) ∧
      (s.onFn f (fun x => { x with unmasked := if x.unmasked.contains v then x.unmasked else x.unmasked ++ [v] })).fn? f =
        some { x with unmasked := x.unmasked ++ [v] } := by
  refine ⟨by simp [unmask, hopen], ?_⟩
  rw [fn?_onFn_some hf, if_neg (by rw [hnew]; decide)]

/-- Settles O12: each failed access is the branch of what it was for; an invalidation and an unmasking act on the function's page. -/
theorem dmaFailuresAndMessages : Obligations.DmaFailuresAndMessages := by
  unfold Obligations.DmaFailuresAndMessages
  refine ⟨⟨fun id why j s hj hrun hpast hfailed => ?_, fun f q why x s hx hst harr hdma => ⟨_, exec_dmaReadFailure .., ?_⟩, fun f q c s hc hst => ⟨⟨_, exec_dmaReadFailure .., ?_⟩, ?_⟩,
      fun f why x s hf hwhy hring => ⟨_, exec_dmaReadFailure .., ?_⟩, fun f why x s hf hwhy hon => ⟨_, exec_dmaReadFailure .., ?_⟩, fun f q s => ⟨?_, ?_⟩⟩,
    fun f itag range x s hup hf hr => ⟨_, exec_atsInvalidate .., ?_⟩, fun f v x s hf hopen hen hmask hnew hpba => ⟨_, exec_msixUnmask .., ?_⟩,
    fun f v x s hf hopen hen hnew => ⟨_, exec_msixUnmask .., ?_⟩, fun f v s hclosed => ?_, fun f x s hf hen => ⟨_, exec_msixUnmask .., ?_⟩⟩
  · have hfault := jobDmaFault_running hj hrun hpast hfailed
    refine ⟨fun hwhy => ?_, fun hwhy => ?_, fun hto => ?_, fun hto => ?_⟩
    · rw [exec_dmaReadFailure, dmaFault_of_ne s hwhy, ← hfault]; rfl
    · rw [exec_dmaReadFailure, hwhy, ← hfault, ← accessOwner_job hj]; rfl
    · rw [exec_completionTimeout, dmaTimeout_job hj, hto, hfault]; rfl
    · rw [exec_completionTimeout, dmaTimeout_job hj, hto]; rfl
  · have hstop : dmaStop (.sqEntry f q) (why == .denied) s = stopSq f q 0x04 x.head s := by simp [dmaStop, fetchFault, hx, hst, harr, hdma]
    rw [dmaFault_frame, hstop]
    exact ⟨sq?_stopSq 0x04 x.head hx (by simp [hst]), jobs_stopSq ..⟩
  · rw [dmaFault_of_ne s (by decide)]
    simpa [dmaStop, hc] using stopCq_spec 0x13 c.tail hc (by simp [hst])
  · rfl
  · rw [dmaFault_of_ne s hwhy]
    refine ⟨(fn?_onFn_some hf fun y => by split <;> rfl).trans ?_, rfl⟩
    rw [if_pos hring]
  · rw [dmaFault_of_ne s hwhy, dmaStop, dirtyFault, fnOf_eq hf, if_pos hon]
    exact fn?_onFn_some hf
  · simp [exec_completionTimeout, dmaTimeout]
  · simp [exec_completionTimeout, dmaTimeout]
  · have hdone : (s.link.up && (s.fn? f).isSome && routed s f) = true := by simp [hup, hf, hr]
    rw [atsDone, if_pos hdone]
    exact ⟨rfl, fn?_onFn_some hf, rfl, rfl⟩
  · obtain ⟨heq, hfn⟩ := unmask_some hopen hf hnew
    rw [heq, sendPending_one hfn hen hmask (by simp) hpba]
    obtain ⟨hsent, hpage⟩ := sendMsix_spec (v := v) (fn?_onFn_some hfn (g := fun y => { y with pba := y.pba.filter (fun w => !((x.unmasked ++ [v]).contains w)) }))
    refine ⟨hsent, hpage.trans ?_⟩
    simp [hpba]
  · obtain ⟨heq, hfn⟩ := unmask_some hopen hf hnew
    rw [heq, sendPending_disabled (by rw [fnOf_eq hfn]; exact hen)]
    exact ⟨rfl, hfn⟩
  · simp [exec_msixUnmask, unmask, hclosed]
  · have hfn := fn?_onFn_some hf (g := fun x => { x with fnMask := false })
    rw [unmask, sendPending_disabled (by rw [fnOf_eq hfn]; exact hen)]
    exact ⟨rfl, hfn⟩

end Sys2Proof.Machine

/-!
PROOFS. The CQ-head doorbell and the doorbells that change nothing (R151, R152, R157, R161).
-/
namespace Sys2Proof.Machine
set_option Elab.async false -- as in Laws: the one text has more theorems than threads

theorem exec_cqHeadDoorbell (w : RegAccess) (s : State) : exec (.cqHeadDoorbell w) s = .next (doorbellWrite true w s) := rfl

/-- A head doorbell that reaches a function or slice acts by the head rule. -/
theorem doorbellWrite_head {s : State} {w : RegAccess} {f : Fn} {q : Nat} (hat : doorbellAt s w = some (f, q, true))
    (hserves : serves s f = true) (hbar : barOpen s f = true) : doorbellWrite true w s = cqHeadRule f q w.value s := by
  simp [doorbellWrite, hat, hserves, hbar]

/-- A doorbell whose rule does nothing does nothing. -/
theorem doorbellWrite_of_rule {s : State} {w : RegAccess} {f : Fn} {q : Nat} {head : Bool} (hat : doorbellAt s w = some (f, q, head))
    (hrule : (if head then cqHeadRule f q w.value s else sqTailRule f q w.value s) = s) : doorbellWrite head w s = s := by
  simp only [doorbellWrite, hat, hrule, ite_self]

theorem doorbellAt_of_width {w : RegAccess} (s : State) (h : w.width ≠ 32) : doorbellAt s w = none := by simp [doorbellAt, h]

/-- The three outcomes of the head rule, on the low 17 bits of what was written, in the order in which they are tried. -/
theorem cqHeadRule_eq {s : State} {f : Fn} {q : Nat} {c : Cq} (hc : s.cq? f q = some c) (hst : c.st ≠ .error) (value : Nat) :
    cqHeadRule f q value s =
    if 2 ^ c.log2 ≤ value % 131072 % 65536 then stopCq f q 0x11 (value % 131072) s
    else if idxDist (2 ^ c.log2) c.head c.tail < idxDist (2 ^ c.log2) c.head (value % 131072) then stopCq f q 0x12 (value % 131072) s
    else drainCq f q (s.onCq f q (fun y => { y with head := value % 131072 })) := by
  have hrun : (c.st == .error) = false := by simpa using hst
  simp only [cqHeadRule, hc, hrun, Bool.false_eq_true, if_false]
  rfl

theorem drainHeld_of_empty {s : State} {f : Fn} {q : Nat} {c : Cq} (n : Nat) (hc : s.cq? f q = some c) (hheld : c.held = []) : drainHeld f q n s = s := by
  cases n with
  | zero => rfl
  | succ n =>
    simp only [drainHeld, hc, hheld, List.find?_nil]
    split <;> rfl

theorem endEpisode_of_none {s : State} {f : Fn} {q : Nat} {c : Cq} (hc : s.cq? f q = some c) (hno : c.episode = false) : endEpisode f q s = s := by
  simp [endEpisode, hc, hno]

/-- With nothing held and no episode there is nothing to drain. -/
theorem drainCq_of_empty {s : State} {f : Fn} {q : Nat} {c : Cq} (hc : s.cq? f q = some c) (hheld : c.held = []) (hno : c.episode = false) :
    drainCq f q s = s := by
  simp only [drainCq, hc, drainHeld_of_empty _ hc hheld, endEpisode_of_none hc hno]

/-- Settles O17: each outcome is the branch of the head rule that its conditions select; the rules do nothing to a queue in ERROR or to none. -/
theorem headDoorbellsAndIgnoredOnes : Obligations.HeadDoorbellsAndIgnoredOnes := by
  unfold Obligations.HeadDoorbellsAndIgnoredOnes
  refine ⟨?_, fun w f q x s hat hx hst => ?_, fun w f q c s hat hc hst => ?_, fun w f q s hat hx => ?_, fun w f q s hat hc => ?_, fun w s hw => ?_⟩
  · rintro w f q n v c s hat hserves hbar hc hst rfl rfl
    refine ⟨_, exec_cqHeadDoorbell w s, ?_⟩
    rw [doorbellWrite_head hat hserves hbar, cqHeadRule_eq hc hst]
    refine ⟨fun hrange => ?_, fun hrange hbeyond => ?_, fun hrange hbeyond => ?_⟩
    · rw [if_pos hrange]
      exact (stopCq_spec _ _ hc hst).1
    · rw [if_neg (Nat.not_le_of_lt hrange), if_pos hbeyond]
      exact (stopCq_spec _ _ hc hst).1
    · rw [if_neg (Nat.not_le_of_lt hrange), if_neg (Nat.not_lt_of_le hbeyond)]
      exact ⟨rfl, fun hheld hno => drainCq_of_empty (cq?_onCq_some hc) hheld hno⟩
  · rw [exec_sqTailDoorbell, doorbellWrite_of_rule hat (by simp [sqTailRule, hx, hst])]
  · rw [exec_cqHeadDoorbell, doorbellWrite_of_rule hat (by simp [cqHeadRule, hc, hst])]
  · rw [exec_sqTailDoorbell, doorbellWrite_of_rule hat (by simp [sqTailRule, hx])]
  · rw [exec_cqHeadDoorbell, doorbellWrite_of_rule hat (by simp [cqHeadRule, hc])]
  · simp [exec_sqTailDoorbell, exec_cqHeadDoorbell, doorbellWrite, doorbellAt_of_width s hw]

end Sys2Proof.Machine

/-!
PROOFS. Completion entries, credits, the event ring's head and the interrupt timer (R151, R153, R156, R157, R166, R180, R195, R511).
-/
namespace Sys2Proof.Machine
set_option Elab.async false -- as in Laws: the one text has more theorems than threads

/-! ### The bytes of an entry -/

@[simp] theorem leBytes_length (n v : Nat) : (leBytes n v).length = n := by
  induction n generalizing v with
  | zero => rfl
  | succ n ih => simp [leBytes, ih]
@[simp] theorem zeros_length (n : Nat) : (zeros n).length = n := by simp [zeros]
@[simp] theorem sliceZ_length (b : Bytes) (o n : Nat) : (sliceZ b o n).length = n := by
  simp only [sliceZ, sliceOf, List.length_append, List.length_take, zeros_length]
  omega

theorem entryBytes_spec (s : State) (c : Completion) (late : Bool) (sq head tail : Nat) (hfixed : c.fixed = none) :
    (entryBytes s c late sq head tail).length = 32 ∧ (entryBytes s c late sq head tail).getLast? = some (byteOf (1 - tail / 65536 % 2)) ∧
      (entryBytes s c late sq head tail).take 4 = leBytes 4 c.tag := by
  unfold entryBytes
  rw [hfixed]
  refine ⟨by simp [inline8], by rw [List.getLast?_append]; rfl, ?_⟩
  simp only [List.append_assoc]
  exact List.take_left' (leBytes_length 4 _)

/-! ### The entry in its ring slot -/

/-- What has left the module stays, with what follows it. -/
def OutGrows (b t : State) : Prop := ∃ l, t.out = b.out ++ l

theorem OutGrows.refl (s : State) : OutGrows s s := ⟨[], by simp⟩
theorem OutGrows.trans {a b c : State} (h : OutGrows a b) (k : OutGrows b c) : OutGrows a c := by
  obtain ⟨l, hl⟩ := h
  obtain ⟨m, hm⟩ := k
  exact ⟨l ++ m, by rw [hm, hl, List.append_assoc]⟩
theorem OutGrows.mem {b t : State} (h : OutGrows b t) {m : LinkMsg} (hm : m ∈ b.out) : m ∈ t.out := by
  obtain ⟨l, hl⟩ := h
  rw [hl]
  exact List.mem_append_left _ hm

theorem outGrows_signal (f : Fn) (v : Nat) (s : State) : OutGrows s (signal f v s) := by
  unfold signal
  split
  · exact .refl s
  · split
    dsimp only
    split
    · exact .refl s
    · split
      · exact .refl s
      · exact ⟨_, rfl⟩

theorem sendWrite_mem (f : Fn) (a : Nat) (d : Bytes) (s : State) :
    ∃ h : Tlp, h.rid = ridOf s f ∧ h.pasid = pasidOf s f ∧ LinkMsg.memWrite h a d ∈ (sendWrite f a d s).out :=
  ⟨{ tlpOf s f a with guard := ideGuard s (tlpOf s f a) 0 a d }, rfl, rfl, by simp [sendWrite, emit]⟩

/-- What goes over the link changes no routing ID and no PASID. -/
theorem ridOf_linkOnly {b t : State} (h : LinkOnly b t) (f : Fn) : ridOf t f = ridOf b f := by rw [h]; rfl
theorem pasidOf_linkOnly {b t : State} (h : LinkOnly b t) (f : Fn) : pasidOf t f = pasidOf b f := by rw [h]; cases f <;> rfl

/-- Ring entries leave under the routing IDs and PASIDs of their instances. -/
theorem writeRing_mem (f : Fn) (a : Nat) (d : Bytes) (s : State) :
    ∃ h : Tlp, h.rid = ridOf s f ∧ h.pasid = pasidOf s f ∧ LinkMsg.memWrite h a d ∈ (writeRing f a d s).out := by
  have hlink := linkOnly_translate f a d.length (linkOnly_dirtyMark f a d.length (.refl s))
  obtain ⟨h, hrid, hpasid, hmem⟩ := sendWrite_mem f a d (translate f a d.length (dirtyMark f a d.length s))
  exact ⟨h, hrid.trans (ridOf_linkOnly hlink f), hpasid.trans (pasidOf_linkOnly hlink f), hmem⟩

theorem signalCq_spec {f : Fn} {q : Nat} {c : Cq} {s : State} (hc : s.cq? f q = some c) :
    OutGrows s (signalCq f q s) ∧ (signalCq f q s).cq? f q = some { c with sinceSig := 0, firstUnsig := none } := by
  simp only [signalCq, hc]
  refine ⟨outGrows_signal _ _ (s.onCq f q _), ?_⟩
  rw [cq?_of_cqs (signal_cqs ..)]
  exact cq?_onCq_some hc

/-- Where the ring has a free slot the entry is written at the tail, and the tail advances (R153, R157). -/
theorem putEntry_spec {f : Fn} {q : Nat} {c : Cq} {s : State} (b : Bytes) (sig : Bool) (hc : s.cq? f q = some c) (hroom : c.room = true) :
    (∃ h : Tlp, h.rid = ridOf s f ∧ h.pasid = pasidOf s f ∧ LinkMsg.memWrite h (c.base + idxSlot c.tail * 32) b ∈ (putEntry f q b sig s).out) ∧
      ∃ d, (putEntry f q b sig s).cq? f q = some d ∧ d.tail = idxNext c.depth c.tail ∧ d.head = c.head ∧ d.credits = c.credits := by
  obtain ⟨h, hrid, hpasid, hmem⟩ := writeRing_mem f (c.base + idxSlot c.tail * 32) b s
  have hkept : (writeRing f (c.base + idxSlot c.tail * 32) b s).cq? f q = some c := by
    rw [← hc, linkOnly_writeRing f _ b (.refl s)]
    rfl
  have htail := cq?_onCq_some hkept (g := fun y => { y with tail := idxNext y.depth y.tail, sinceSig := y.sinceSig + 1, firstUnsig := some (y.firstUnsig.getD (writeRing f (c.base + idxSlot c.tail * 32) b s).clk) })
  simp only [putEntry, hc, hroom, Bool.not_true, Bool.false_eq_true, if_false]
  split
  · obtain ⟨hgrows, hsig⟩ := signalCq_spec htail
    exact ⟨⟨h, hrid, hpasid, hgrows.mem hmem⟩, _, hsig, rfl, rfl, rfl⟩
  · exact ⟨⟨h, hrid, hpasid, hmem⟩, _, htail, rfl, rfl, rfl⟩

/-! ### What the credits of a CQ are counted on -/

/-- What a job's credit is counted on. -/
def creditKey (j : Job) : Job := { id := j.id, fn := j.fn, cq := j.cq, credit := j.credit, phase := j.phase }

/-- The free credits and the held completions of a CQ, and what its jobs are counted on. -/
structure CreditView where
  cq : Option (Nat × List Held)
  jobs : List Job

def viewOf (f : Fn) (q : Nat) (s : State) : CreditView := { cq := (s.cq? f q).map (fun c => (c.credits, c.held)), jobs := s.jobs.map creditKey }

/-- A job that has not ended and has a credit of the CQ. -/
def holdsCredit (f : Fn) (q : Nat) (j : Job) : Bool := j.fn == f && j.cq == q && j.credit && j.phase != .done

def cqSum (c : Nat × List Held) : Nat := c.1 + c.2.countP (fun h => h.credited)
def viewSum (f : Fn) (q : Nat) (v : CreditView) : Nat := (v.cq.map cqSum).getD 0 + v.jobs.countP (holdsCredit f q)

theorem creditSum_eq_viewSum (s : State) (f : Fn) (q : Nat) : creditSum s f q = viewSum f q (viewOf f q s) := by
  unfold creditSum viewSum viewOf
  rw [List.countP_map, List.countP_eq_length_filter, Option.map_map]
  congr 2
  exact congrArg (fun g => (s.cq? f q).map g) (funext fun c => by simp [cqSum, List.countP_eq_length_filter])

/-- Job numbers differ, and the CQ's held completions are those of jobs that have ended. -/
structure ViewOk (v : CreditView) : Prop where
  ids : (v.jobs.map (fun j => j.id)).Nodup
  ended : ∀ c, v.cq = some c → ∀ h ∈ c.2, ∀ j ∈ v.jobs, j.id = h.job → j.phase = .done

theorem HeldOk.view {s : State} (h : HeldOk s) (f : Fn) (q : Nat) : ViewOk (viewOf f q s) := by
  refine ⟨?_, fun p hp x hx j hj hid => ?_⟩
  · have hids : (viewOf f q s).jobs.map (fun j => j.id) = s.jobs.map (fun j => j.id) := by simp [viewOf, creditKey, Function.comp_def]
    rw [hids]
    exact h.ids
  · obtain ⟨c, hc, rfl⟩ := Option.map_eq_some_iff.1 hp
    obtain ⟨k, hk, rfl⟩ := List.mem_map.1 hj
    exact h.ended c (List.mem_of_find?_eq_some hc) x hx k hk hid

/-! ### What leaves the view as it is -/

theorem elementwise_find?_map {α β : Type} {R : α → α → Prop} {p : α → Bool} {g : α → β} (hR : ∀ x y, R x y → p y = p x ∧ g y = g x) {a b : List α}
    (h : Elementwise R a b) : (b.find? p).map g = (a.find? p).map g := by
  induction h with
  | nil => rfl
  | @cons x y _ _ hxy _ ih =>
    obtain ⟨hp, hg⟩ := hR x y hxy
    rw [List.find?_cons, List.find?_cons, hp]
    cases p x with
    | true => exact congrArg some hg
    | false => exact ih

section
variable {f : Fn} {q : Nat} {b s t : State}

theorem viewOf_of_cqs (hcqs : Elementwise CqWritten b.cqs t.cqs) (hjobs : t.jobs.map creditKey = b.jobs.map creditKey) : viewOf f q t = viewOf f q b := by
  unfold viewOf State.cq?
  rw [hjobs, elementwise_find?_map (R := CqWritten) (g := fun (c : Cq) => (c.credits, c.held)) (fun c d h => ?_) hcqs]
  rw [h]
  exact ⟨rfl, rfl⟩

theorem viewOf_same (hcqs : t.cqs = b.cqs := by rfl) (hjobs : t.jobs.map creditKey = b.jobs.map creditKey := by rfl) : viewOf f q t = viewOf f q b := by
  unfold viewOf State.cq?
  rw [hjobs, hcqs]

theorem AdminEnds.viewOf (h : AdminEnds b t) : viewOf f q t = viewOf f q b := viewOf_of_cqs h.cqs (by rw [h.frame])

theorem LinkOnly.viewOf (h : LinkOnly b t) : viewOf f q t = viewOf f q b := by
  rw [h]
  rfl

theorem viewOf_onJob (i : Nat) {g : Job → Job} (hg : ∀ j, creditKey (g j) = creditKey j := by exact fun _ => rfl) : viewOf f q (s.onJob i g) = viewOf f q s :=
  viewOf_same (hjobs := map_modFirst hg _)

theorem viewOf_flushDirty (i : Nat) : viewOf f q (flushDirty i s) = viewOf f q s := by
  unfold flushDirty
  split
  · exact (viewOf_onJob i).trans (linkOnly_markAll _ _ (.refl s)).viewOf
  · rfl

theorem viewOf_foldl {α : Type} {h : State → α → State} (hh : ∀ s x, viewOf f q (h s x) = viewOf f q s) (l : List α) : viewOf f q (l.foldl h s) = viewOf f q s := by
  induction l generalizing s with
  | nil => rfl
  | cons x l ih => exact ih.trans (hh s x)

theorem viewOf_dirtyDone (w : AdminWait) : viewOf f q (dirtyDone w s) = viewOf f q s := by
  have hadmin := fun (n : Nat) (st : Status) (inl : Bytes) (u : State) => (adminEnds_adminDone w.fn n st inl (.refl u)).viewOf (f := f) (q := q)
  unfold dirtyDone
  dsimp only
  split
  · exact hadmin ..
  · split
    · exact hadmin ..
    · rw [hadmin]
      split
      · refine viewOf_same (hjobs := ?_)
        rw [List.map_map]
        refine List.map_congr_left fun j _ => ?_
        rw [Function.comp_apply]
        split <;> rfl
      · rfl

theorem viewOf_settleDirty (g : Fn) (i : Nat) : viewOf f q (settleDirty g i s) = viewOf f q s := by
  unfold settleDirty dirtyChecks
  exact (viewOf_foldl (fun _ w => viewOf_dirtyDone w) _).trans (viewOf_flushDirty (s := s) i)

theorem viewOf_onSlots (l : List (Nat × Nat)) (g : Nat → Slot → Slot) : viewOf f q (l.foldl (fun s p => s.onSlot p.1 (g p.2)) s) = viewOf f q s :=
  viewOf_foldl (fun _ _ => by rfl) l

theorem viewOf_releaseJob (j : Job) : viewOf f q (releaseJob j s) = viewOf f q s :=
  (viewOf_onSlots (s := freeUnits j.id s) j.pins unpinSlot).trans rfl

theorem viewOf_dropNew (j : Job) : viewOf f q (dropNew j s) = viewOf f q s := by
  unfold dropNew
  split
  · rfl
  · split <;> rfl

theorem viewOf_endEpisode (g : Fn) (n : Nat) : viewOf f q (endEpisode g n s) = viewOf f q s := by
  unfold endEpisode
  split
  · rfl
  · split
    · exact viewOf_of_cqs (elementwise_modFirst (R := CqWritten) (fun _ => rfl) (fun _ _ => by exact rfl) _) rfl
    · rfl

/-! ### What changes the view -/

/-- A credit returns, as the view shows it (R156, R511). -/
def giveCredit (c : Nat × List Held) : Nat × List Held :=
  if c.2.any (fun h => !h.credited) then (c.1, modFirst (fun h => !h.credited) (fun h => { h with credited := true }) c.2) else (c.1 + 1, c.2)

theorem giveCredit_eq (c : Cq) : ((returnCredit c).credits, (returnCredit c).held) = giveCredit (c.credits, c.held) := by
  unfold returnCredit giveCredit
  split <;> rfl

theorem viewOf_onCq {g : Cq → Cq} (k : Nat × List Held → Nat × List Held) (hk : ∀ c, ((g c).credits, (g c).held) = k (c.credits, c.held) := by exact fun _ => rfl)
    (hg : ∀ y, (g y).fn = y.fn ∧ (g y).id = y.id := by exact fun _ => ⟨rfl, rfl⟩) :
    viewOf f q (s.onCq f q g) = { viewOf f q s with cq := (viewOf f q s).cq.map k } := by
  unfold viewOf
  rw [cq?_onCq s f q g hg, Option.map_map, Option.map_map]
  congr 2
  exact funext hk

theorem returnCredit_name (c : Cq) : (returnCredit c).fn = c.fn ∧ (returnCredit c).id = c.id := by
  unfold returnCredit
  split <;> exact ⟨rfl, rfl⟩

/-- The job of a completion gives up its place. -/
def jobsLeft (job : Option Job) (l : List Job) : List Job := match job with | some j => l.filter (fun k => k.id != j.id) | none => l

theorem viewOf_releasePlace (j : Job) : viewOf f q (releasePlace j s) = { viewOf f q s with jobs := jobsLeft (some j) (viewOf f q s).jobs } := by
  have hleft : (s.jobs.filter (fun x => x.id != j.id)).map creditKey = jobsLeft (some j) (s.jobs.map creditKey) := by
    rw [jobsLeft, List.filter_map]
    rfl
  unfold viewOf
  rw [← hleft]
  unfold releasePlace
  dsimp only
  split <;> rfl

theorem viewOf_writeCompletion (job : Option Job) (c : Completion) :
    viewOf f q (writeCompletion f q job true c s) = { cq := (viewOf f q s).cq.map giveCredit, jobs := jobsLeft job (viewOf f q s).jobs } := by
  unfold writeCompletion
  rw [(adminEnds_beginEpisode _ _ (.refl _)).viewOf]
  dsimp only
  have hput : ∀ e sig, viewOf f q ((putEntry f q e sig s).onCq f q returnCredit) = { viewOf f q s with cq := (viewOf f q s).cq.map giveCredit } := fun e sig => by
    rw [viewOf_onCq giveCredit giveCredit_eq returnCredit_name, (adminEnds_putEntry _ _ _ _ (.refl s)).viewOf]
  cases job with
  | none => exact hput _ _
  | some j =>
    have htrace : ∀ (e : TraceEv) (u : State), viewOf f q (trace e u) = viewOf f q u := fun e u => viewOf_same (trace_cqs e u) (by rw [trace_jobs])
    dsimp only
    rw [viewOf_releasePlace, htrace, if_pos rfl]
    exact congrArg (fun v : CreditView => { v with jobs := jobsLeft (some j) v.jobs }) (hput _ _)

/-! ### Sums -/

theorem cqSum_giveCredit (c : Nat × List Held) : cqSum (giveCredit c) = cqSum c + 1 := by
  have hcount : ∀ l : List Held, l.any (fun h => !h.credited) = true →
      (modFirst (fun h => !h.credited) (fun h => { h with credited := true }) l).countP (fun h => h.credited) = l.countP (fun h => h.credited) + 1 := by
    intro l
    induction l with
    | nil => simp
    | cons h l ih =>
      intro hany
      cases hc : h.credited with
      | false => simp [modFirst, hc]
      | true => simp [modFirst, hc, ih (by simpa [hc] using hany)]
  unfold giveCredit
  split
  case isTrue hany => simp only [cqSum, hcount _ hany]; omega
  case isFalse => simp only [cqSum]; omega

theorem mem_giveCredit {c : Nat × List Held} {h : Held} (hh : h ∈ (giveCredit c).2) : ∃ k ∈ c.2, k.job = h.job := by
  unfold giveCredit at hh
  split at hh
  · rcases mem_modFirst hh with hm | ⟨k, hk, rfl⟩
    · exact ⟨h, hm, rfl⟩
    · exact ⟨k, List.mem_of_find?_eq_some hk, rfl⟩
  · exact ⟨h, hh, rfl⟩

/-- Jobs that have ended hold no credit. -/
theorem countP_jobsLeft (f : Fn) (q : Nat) {job : Option Job} {l : List Job} (hdone : ∀ j, job = some j → ∀ k ∈ l, k.id = j.id → k.phase = .done) :
    (jobsLeft job l).countP (holdsCredit f q) = l.countP (holdsCredit f q) := by
  cases job with
  | none => rfl
  | some j =>
    rw [jobsLeft, List.countP_filter]
    refine List.countP_congr fun k hk => ?_
    have hended := hdone j rfl k hk
    by_cases hid : k.id = j.id <;> simp [holdsCredit, hid, hended]

theorem jobsLeft_sublist (job : Option Job) (l : List Job) : (jobsLeft job l).Sublist l := by
  cases job with
  | none => exact .refl l
  | some j => exact List.filter_sublist

/-- A view with fewer jobs and held completions of the same jobs. -/
theorem ViewOk.mono {v w : CreditView} (hv : ViewOk v) (hjobs : w.jobs.Sublist v.jobs)
    (hheld : ∀ c, w.cq = some c → ∃ d, v.cq = some d ∧ ∀ h ∈ c.2, ∃ k ∈ d.2, k.job = h.job) : ViewOk w := by
  refine ⟨hv.ids.sublist (hjobs.map _), fun c hc h hh j hj hid => ?_⟩
  obtain ⟨d, hd, hfrom⟩ := hheld c hc
  obtain ⟨k, hk, hjob⟩ := hfrom h hh
  exact hv.ended d hd k hk j (hjobs.mem hj) (hid.trans hjob.symm)

/-- A completion that is written gives its credit back, and its job, which has ended, held none. -/
theorem writeCompletion_sum {job : Option Job} (c : Completion) (hc : (viewOf f q s).cq.isSome = true)
    (hdone : ∀ j, job = some j → ∀ k ∈ (viewOf f q s).jobs, k.id = j.id → k.phase = .done) :
    viewSum f q (viewOf f q (writeCompletion f q job true c s)) = viewSum f q (viewOf f q s) + 1 := by
  obtain ⟨p, hp⟩ := Option.isSome_iff_exists.1 hc
  rw [viewOf_writeCompletion]
  simp only [viewSum, hp, Option.map_some, Option.getD_some, countP_jobsLeft f q hdone, cqSum_giveCredit]
  omega

theorem writeCompletion_ok (job : Option Job) (c : Completion) (hok : ViewOk (viewOf f q s)) : ViewOk (viewOf f q (writeCompletion f q job true c s)) := by
  rw [viewOf_writeCompletion]
  refine hok.mono (jobsLeft_sublist _ _) fun p hp => ?_
  obtain ⟨d, hd, rfl⟩ := Option.map_eq_some_iff.1 hp
  exact ⟨d, hd, fun h hh => mem_giveCredit hh⟩

/-! ### The holding area -/

/-- The holding area without its first completion that holds a credit. -/
def heldRest (l : List Held) : List Held := l.takeWhile (fun x => !x.credited) ++ (l.dropWhile (fun x => !x.credited)).drop 1

theorem heldRest_spec {l : List Held} {h : Held} (hfind : l.find? (fun h => h.credited) = some h) :
    (heldRest l).countP (fun h => h.credited) + 1 = l.countP (fun h => h.credited) ∧ ∀ k ∈ heldRest l, k ∈ l := by
  induction l with
  | nil => cases hfind
  | cons a l ih =>
    cases ha : a.credited with
    | true => simp [heldRest, ha]; exact fun k hk => .inr hk
    | false =>
      obtain ⟨hcount, hmem⟩ := ih (by simpa [List.find?_cons, ha] using hfind)
      have hrest : heldRest (a :: l) = a :: heldRest l := by simp [heldRest, ha]
      rw [hrest]
      refine ⟨by simpa [ha] using hcount, fun k hk => ?_⟩
      rcases List.mem_cons.1 hk with rfl | hk
      · exact List.mem_cons_self
      · exact List.mem_cons_of_mem _ (hmem k hk)

theorem mem_jobs_of_job? {i : Nat} {j : Job} (hj : s.job? i = some j) : j.id = i := by simpa using List.find?_some hj

/-- Held completions that are written give their credits back. -/
theorem drainHeld_sum (n : Nat) (hok : ViewOk (viewOf f q s)) : viewSum f q (viewOf f q (drainHeld f q n s)) = viewSum f q (viewOf f q s) := by
  induction n generalizing s with
  | zero => rfl
  | succ n ih =>
    unfold drainHeld
    split
    · rfl
    · next c hc =>
      split
      · rfl
      · split
        · rfl
        · next h hfind =>
          obtain ⟨hcount, hmem⟩ := heldRest_spec hfind
          have hview : (viewOf f q s).cq = some (c.credits, c.held) := by simp [viewOf, hc]
          have htaken := viewOf_onCq (s := s) (f := f) (q := q) (g := fun c => { c with held := (c.held.takeWhile (fun x => !x.credited)) ++ ((c.held.dropWhile (fun x => !x.credited)).drop 1) })
            (fun c => (c.1, heldRest c.2))
          rw [hview, Option.map_some] at htaken
          have hok' := hok.mono (w := { viewOf f q s with cq := some (c.credits, heldRest c.held) }) (List.Sublist.refl _) fun p hp => by
            cases hp
            exact ⟨_, hview, fun k hk => ⟨k, hmem k hk, rfl⟩⟩
          rw [← htaken] at hok'
          rw [ih (writeCompletion_ok _ _ hok'), writeCompletion_sum]
          · rw [htaken, viewSum, viewSum, hview]
            simp only [Option.map_some, Option.getD_some, cqSum]
            omega
          · rw [htaken]; rfl
          · intro j hj k hk hid
            rw [htaken] at hk
            exact hok.ended _ hview h (List.mem_of_find?_eq_some hfind) k hk (hid.trans (mem_jobs_of_job? hj))

theorem drainCq_sum (hok : ViewOk (viewOf f q s)) : viewSum f q (viewOf f q (drainCq f q s)) = viewSum f q (viewOf f q s) := by
  unfold drainCq
  split
  · rfl
  · rw [viewOf_endEpisode]
    exact drainHeld_sum _ hok

/-! ### The end of a job -/

theorem countP_modFirst_find {α : Type} {p P : α → Bool} {g : α → α} {l : List α} {x : α} (hx : l.find? p = some x) (hg : P (g x) = false) :
    (modFirst p g l).countP P + (if P x then 1 else 0) = l.countP P := by
  induction l with
  | nil => cases hx
  | cons a l ih =>
    rw [List.find?_cons] at hx
    cases ha : p a with
    | true =>
      rw [ha] at hx
      cases hx
      simp [modFirst, ha, List.countP_cons, hg]
    | false =>
      rw [ha] at hx
      simp only [modFirst, ha, Bool.false_eq_true, if_false, List.countP_cons, ← ih hx]
      omega

theorem eq_of_nodup_map {α β : Type} {g : α → β} {l : List α} (h : (l.map g).Nodup) {x y : α} (hx : x ∈ l) (hy : y ∈ l) (hxy : g x = g y) : x = y := by
  induction l with
  | nil => cases hx
  | cons a l ih =>
    obtain ⟨hfresh, hrest⟩ := List.nodup_cons.1 h
    rcases List.mem_cons.1 hx with rfl | htx <;> rcases List.mem_cons.1 hy with rfl | hty
    · rfl
    · exact absurd (List.mem_map.2 ⟨y, hty, hxy.symm⟩) hfresh
    · exact absurd (List.mem_map.2 ⟨x, htx, hxy⟩) hfresh
    · exact ih hrest htx hty

/-- Two jobs of one number are one job. -/
theorem ViewOk.unique {v : CreditView} (hv : ViewOk v) {j k : Job} (hj : j ∈ v.jobs) (hk : k ∈ v.jobs) (hid : j.id = k.id) : j = k :=
  eq_of_nodup_map hv.ids hj hk hid

/-- A job that ends, `k` in the place of `x`: its credit is no longer counted. -/
theorem viewOf_endJob {i : Nat} {x k : Job} (hid : k.id = i) (hok : ViewOk (viewOf f q s)) (hx : s.job? i = some x) (hphase : x.phase ≠ .done) (hfn : x.fn = f) (hcq : x.cq = q) (hk : k.phase = .done) :
    (viewOf f q (s.onJob i (fun _ => k))).jobs.countP (holdsCredit f q) + (if x.credit then 1 else 0) = (viewOf f q s).jobs.countP (holdsCredit f q) ∧
      ViewOk (viewOf f q (s.onJob i (fun _ => k))) ∧
      ∀ j ∈ (viewOf f q (s.onJob i (fun _ => k))).jobs, j.id = i → j.phase = .done := by
  subst hid
  have hmap : ∀ l : List Job, (modFirst (fun j : Job => j.id == k.id) (fun _ => k) l).map creditKey = modFirst (fun j => j.id == k.id) (fun _ => creditKey k) (l.map creditKey) := by
    intro l
    induction l with
    | nil => rfl
    | cons a l ih =>
      have hid : ((creditKey a).id == k.id) = (a.id == k.id) := rfl
      simp only [modFirst, List.map_cons, hid]
      split <;> simp [ih]
  have hjobs : (viewOf f q (s.onJob k.id (fun _ => k))).jobs = modFirst (fun j => j.id == k.id) (fun _ => creditKey k) (viewOf f q s).jobs := hmap s.jobs
  have hfind : (viewOf f q s).jobs.find? (fun j => j.id == k.id) = some (creditKey x) := by
    have hx' : s.jobs.find? (fun j => j.id == k.id) = some x := hx
    rw [viewOf, List.find?_map, show ((fun j : Job => j.id == k.id) ∘ creditKey) = (fun j => j.id == k.id) from rfl, hx']
    rfl
  have hids : (modFirst (fun j : Job => j.id == k.id) (fun _ => creditKey k) (viewOf f q s).jobs).map (fun j => j.id) = (viewOf f q s).jobs.map (fun j => j.id) := by
    generalize (viewOf f q s).jobs = l
    induction l with
    | nil => rfl
    | cons a l ih =>
      unfold modFirst
      split
      case isTrue ha => simp only [List.map_cons, creditKey]; rw [eq_of_beq ha]
      case isFalse => simp [ih]
  have hok' : ViewOk (viewOf f q (s.onJob k.id (fun _ => k))) := by
    refine ⟨by rw [hjobs, hids]; exact hok.ids, fun c hc h hh j hj hid => ?_⟩
    rw [hjobs] at hj
    rcases mem_modFirst hj with hm | ⟨_, _, rfl⟩
    · exact hok.ended c hc h hh j hm hid
    · exact hk
  refine ⟨?_, hok', fun j hj hid => ?_⟩
  · have hcredit : holdsCredit f q (creditKey x) = x.credit := by simp [holdsCredit, creditKey, hfn, hcq, hphase]
    rw [hjobs, ← countP_modFirst_find hfind (g := fun _ => creditKey k) (by simp [holdsCredit, creditKey, hk]), hcredit]
  · have hmem : creditKey k ∈ (viewOf f q (s.onJob k.id (fun _ => k))).jobs := by
      rw [hjobs]
      have hput := find_modFirst (fun j : Job => j.id == k.id) (fun _ => creditKey k) (fun _ _ => by simp [creditKey]) (viewOf f q s).jobs
      rw [hfind] at hput
      exact List.mem_of_find?_eq_some hput
    rw [hok'.unique hj hmem hid]
    exact hk

/-- A job that ends without a credit takes one of those that are free (R511). -/
theorem viewOf_took (take : Bool) {c : Cq} (hview : (viewOf f q s).cq = some (c.credits, c.held)) :
    viewOf f q (if take = true then s.onCq f q (fun q => { q with credits := q.credits - 1 }) else s) =
      { viewOf f q s with cq := some (c.credits - (if take then 1 else 0), c.held) } := by
  cases take with
  | false => simp [← hview]
  | true => rw [if_pos rfl, viewOf_onCq (fun p => (p.1 - 1, p.2)), hview]; rfl

theorem job?_dirty_of_key {i : Nat} {x : Job} {t : State} (hjobs : t.jobs.map creditKey = s.jobs.map creditKey) (hx : s.job? i = some x) :
    ∃ y, t.job? i = some y ∧ creditKey y = creditKey x := by
  have hfind : ∀ u : State, (u.jobs.map creditKey).find? (fun j => j.id == i) = (u.job? i).map creditKey := fun u => List.find?_map
  have heq := hfind t
  rw [hjobs, hfind s, hx] at heq
  obtain ⟨y, hy, hkey⟩ := Option.map_eq_some_iff.1 heq.symm
  exact ⟨y, hy, hkey⟩

/-- The completion of `k`, which has ended: written where there is room, else held. -/
def entryOut (k : Job) (c : Completion) (room : Bool) (u : State) : State :=
  if room then drainCq k.fn k.cq (writeCompletion k.fn k.cq (some k) true c u)
  else (u.onJob k.id (fun j => { j with late0 := { j.late0 with cqFull := true } })).onCq k.fn k.cq
    (fun q => { q with held := q.held ++ [{ job := k.id, credited := k.credit, entry := c }] })

/-- The entry of a job with a credit gives it back; where there is no room it is held with it. -/
theorem entryOut_sum {k : Job} {c : Completion} {room : Bool} (hok : ViewOk (viewOf k.fn k.cq s)) (hcq : (viewOf k.fn k.cq s).cq.isSome = true)
    (hdone : ∀ j ∈ (viewOf k.fn k.cq s).jobs, j.id = k.id → j.phase = .done) (hroom : room = true → k.credit = true) :
    viewSum k.fn k.cq (viewOf k.fn k.cq (entryOut k c room s)) = viewSum k.fn k.cq (viewOf k.fn k.cq s) + if k.credit then 1 else 0 := by
  cases room with
  | true =>
    rw [entryOut, if_pos rfl, drainCq_sum (writeCompletion_ok _ _ hok), writeCompletion_sum c hcq (fun i hi => by cases hi; exact hdone), hroom rfl, if_pos rfl]
  | false =>
    obtain ⟨p, hp⟩ := Option.isSome_iff_exists.1 hcq
    rw [entryOut, if_neg (by decide), viewOf_onCq (fun p => (p.1, p.2 ++ [{ job := k.id, credited := k.credit, entry := c }])), viewOf_onJob, viewSum, viewSum, hp]
    simp only [Option.map_some, Option.getD_some, cqSum, List.countP_append, List.countP_singleton]
    omega

/-- A job that is delivered, its completion written or held, leaves its CQ's account as it was. -/
theorem deliver_sum {j x : Job} (c : Completion) (hheld : HeldOk s) (hx : s.job? j.id = some x) (hphase : x.phase ≠ .done) (hfn : x.fn = j.fn) (hcq : x.cq = j.cq)
    (hcredit : x.credit = j.credit) (hq : (s.cq? j.fn j.cq).isSome = true) : creditSum (deliver j c s) j.fn j.cq = creditSum s j.fn j.cq := by
  rw [creditSum_eq_viewSum, creditSum_eq_viewSum]
  have hsettled : viewOf j.fn j.cq (settleDirty j.fn j.id s) = viewOf j.fn j.cq s := viewOf_settleDirty j.fn j.id
  unfold deliver
  dsimp only
  generalize settleDirty j.fn j.id s = u at hsettled ⊢
  have hok : ViewOk (viewOf j.fn j.cq u) := by rw [hsettled]; exact hheld.view _ _
  obtain ⟨y, hy, hkey⟩ := job?_dirty_of_key (congrArg CreditView.jobs hsettled) hx
  have hfields : y.phase = x.phase ∧ y.fn = x.fn ∧ y.cq = x.cq ∧ y.credit = x.credit := by
    simp only [creditKey, Job.mk.injEq] at hkey
    simp [hkey]
  obtain ⟨c', hc', hview⟩ : ∃ d, u.cq? j.fn j.cq = some d ∧ (viewOf j.fn j.cq u).cq = some (d.credits, d.held) := by
    have hsome : ((viewOf j.fn j.cq u).cq).isSome = true := by rw [hsettled]; simpa [viewOf] using hq
    obtain ⟨p, hp⟩ := Option.isSome_iff_exists.1 hsome
    obtain ⟨d, hd, hd'⟩ := Option.map_eq_some_iff.1 hp
    exact ⟨d, hd, by rw [hp, ← hd']⟩
  rw [hc', ← hsettled]
  dsimp only
  generalize htake : (!j.credit && decide (c'.credits > 0)) = take
  have htook := viewOf_took (f := j.fn) (q := j.cq) take hview
  have hjob : (if take = true then u.onCq j.fn j.cq (fun q => { q with credits := q.credits - 1 }) else u).job? j.id = some y := by
    cases take <;> exact hy
  generalize (if take = true then u.onCq j.fn j.cq (fun q => { q with credits := q.credits - 1 }) else u) = w at htook hjob ⊢
  have hokw : ViewOk (viewOf j.fn j.cq w) := by
    rw [htook]
    exact hok.mono (List.Sublist.refl _) fun p hp => by
      cases hp
      exact ⟨_, hview, fun h hh => ⟨h, hh, rfl⟩⟩
  obtain ⟨hcount, hok', hdone⟩ := viewOf_endJob (k := { j with credit := j.credit || take, phase := .done, pastEnd := true, dirty := [] }) rfl hokw hjob
    (by rw [hfields.1]; exact hphase) (hfields.2.1.trans hfn) (hfields.2.2.1.trans hcq) rfl
  have hcqw : (viewOf j.fn j.cq (w.onJob j.id (fun _ => { j with credit := j.credit || take, phase := .done, pastEnd := true, dirty := [] }))).cq =
      some (c'.credits - (if take then 1 else 0), c'.held) := congrArg CreditView.cq htook
  refine (entryOut_sum (k := { j with credit := j.credit || take, phase := .done, pastEnd := true, dirty := [] }) (c := c)
    (room := (j.credit || take) && c'.st == .enabled && c'.room && !(c'.held.any (fun h => h.credited)) && !((w.onJob j.id _).fnOf j.fn).quiesced)
    hok' (by rw [hcqw]; rfl) hdone (fun h => by simp only [Bool.and_eq_true] at h; exact h.1.1.1.1)).trans ?_
  have hjobsw : (viewOf j.fn j.cq w).jobs = (viewOf j.fn j.cq u).jobs := by rw [htook]
  rw [hjobsw, hfields.2.2.2, hcredit] at hcount
  have hcredits : c'.credits - (if take then 1 else 0) + (if take then 1 else 0) = c'.credits := by
    have hfree : take = true → 0 < c'.credits := fun h => by simp_all
    split
    case isTrue h => have := hfree h; omega
    case isFalse => rfl
  have hone : (if j.credit then 1 else 0) + (if take then 1 else 0) = (if j.credit || take then 1 else 0) := by
    rw [← htake]
    cases j.credit with
    | true => rfl
    | false => simp
  simp only [viewSum, hcqw, hview, Option.map_some, Option.getD_some, cqSum, ← hcount, ← hone]
  omega

/-- Where numbers differ, a number's removal takes one job. -/
theorem countP_filter_ne {P : Job → Bool} {l : List Job} {k : Job} (hids : (l.map (fun j => j.id)).Nodup) (hk : k ∈ l) :
    (l.filter (fun j => j.id != k.id)).countP P + (if P k then 1 else 0) = l.countP P := by
  induction l with
  | nil => cases hk
  | cons a l ih =>
    rw [List.map_cons, List.nodup_cons] at hids
    by_cases ha : a.id = k.id
    · have hak : a = k := (List.mem_cons.1 hk).elim Eq.symm fun hm => absurd (ha ▸ List.mem_map_of_mem hm) hids.1
      have hrest : l.filter (fun j => j.id != k.id) = l := List.filter_eq_self.2 fun j hj => by
        have hne : j.id ≠ a.id := fun e => hids.1 (e ▸ List.mem_map_of_mem hj)
        simpa [← hak] using hne
      subst hak
      simp [hrest, List.countP_cons]
    · have hm : k ∈ l := (List.mem_cons.1 hk).resolve_left fun e => ha (by rw [e])
      rw [List.filter_cons_of_pos (by simpa using ha), List.countP_cons, List.countP_cons, ← ih hids.2 hm]
      omega

/-- The last steps of an end without a completion: what is held for the job goes, the credit that it or its held completion had returns. -/
def creditBack (i : Nat) (j : Job) (u : State) : State :=
  endEpisode j.fn j.cq (releasePlace j (if j.credit || ((u.cq? j.fn j.cq).map (fun q => q.held.any (fun h => h.job == i && h.credited))).getD false
    then (u.onCq j.fn j.cq (fun q => { q with held := q.held.filter (fun h => h.job != i) })).onCq j.fn j.cq returnCredit
    else u.onCq j.fn j.cq (fun q => { q with held := q.held.filter (fun h => h.job != i) })))

theorem creditBack_sum {i : Nat} {j : Job} {u : State} (hheld : HeldOk s) (hj : s.job? i = some j) (hphase : j.phase ≠ .done) (hq : (s.cq? j.fn j.cq).isSome = true)
    (hfreed : viewOf j.fn j.cq u = viewOf j.fn j.cq s) : viewSum j.fn j.cq (viewOf j.fn j.cq (creditBack i j u)) = viewSum j.fn j.cq (viewOf j.fn j.cq s) := by
  have hid := mem_jobs_of_job? hj
  have hok := hheld.view j.fn j.cq
  obtain ⟨c, hc⟩ := Option.isSome_iff_exists.1 hq
  have hview : (viewOf j.fn j.cq u).cq = some (c.credits, c.held) := by rw [hfreed]; simp [viewOf, hc]
  have hkey : creditKey j ∈ (viewOf j.fn j.cq u).jobs := by rw [hfreed]; exact List.mem_map_of_mem (List.mem_of_find?_eq_some hj)
  have hnone : ∀ h ∈ c.held, h.job ≠ i := fun h hh e =>
    hphase (hheld.ended c (List.mem_of_find?_eq_some hc) h hh j (List.mem_of_find?_eq_some hj) (hid.trans e.symm))
  have hcredited : (j.credit || ((u.cq? j.fn j.cq).map (fun q => q.held.any (fun h => h.job == i && h.credited))).getD false) = j.credit := by
    obtain ⟨d, hd, hd'⟩ := Option.map_eq_some_iff.1 hview
    have hany : c.held.any (fun h => h.job == i && h.credited) = false := by
      rw [List.any_eq_false]
      intro h hh
      simp [hnone h hh]
    rw [hd, Option.map_some, Option.getD_some, show d.held = c.held from congrArg Prod.snd hd', hany, Bool.or_false]
  have hkept : c.held.filter (fun h => h.job != i) = c.held := List.filter_eq_self.2 fun h hh => by simp [hnone h hh]
  have hempty : viewOf j.fn j.cq (u.onCq j.fn j.cq (fun q => { q with held := q.held.filter (fun h => h.job != i) })) = viewOf j.fn j.cq u := by
    rw [viewOf_onCq (fun p => (p.1, p.2.filter (fun h => h.job != i))), hview, Option.map_some, hkept, ← hview]
  have hcount := countP_filter_ne (P := holdsCredit j.fn j.cq) (hfreed ▸ hok).ids hkey
  have hheldsCredit : holdsCredit j.fn j.cq (creditKey j) = j.credit := by simp [holdsCredit, creditKey, hphase]
  rw [hheldsCredit] at hcount
  rw [creditBack, hcredited, viewOf_endEpisode, viewOf_releasePlace, ← hfreed]
  generalize u.onCq j.fn j.cq (fun q => { q with held := q.held.filter (fun h => h.job != i) }) = v at hempty ⊢
  cases hcredit : j.credit with
  | false =>
    rw [hcredit] at hcount
    rw [if_neg (by decide), hempty, viewSum, viewSum, ← hcount]
    rfl
  | true =>
    rw [hcredit] at hcount
    rw [if_pos rfl, viewOf_onCq giveCredit giveCredit_eq returnCredit_name, hempty, viewSum, viewSum, hview, ← hcount]
    simp only [Option.map_some, Option.getD_some, cqSum_giveCredit, jobsLeft, if_true, creditKey]
    omega

/-- A job that ends with no completion gives its credit back (R156, R511). -/
theorem dropJob_sum {i : Nat} {j : Job} (hheld : HeldOk s) (hj : s.job? i = some j) (hphase : j.phase ≠ .done) (hq : (s.cq? j.fn j.cq).isSome = true) :
    creditSum (dropJob i s) j.fn j.cq = creditSum s j.fn j.cq := by
  rw [creditSum_eq_viewSum, creditSum_eq_viewSum]
  have hrun : (j.phase == .done) = false := by simpa using hphase
  have hnew := (viewOf_dropNew (f := j.fn) (q := j.cq) (s := releaseJob j (settleDirty j.fn i s)) j).trans ((viewOf_releaseJob j).trans (viewOf_settleDirty j.fn i))
  unfold dropJob
  simp only [hj, hrun, Bool.false_eq_true, if_false]
  cases j.ctx with
  | none => exact creditBack_sum hheld hj hphase hq hnew
  | some c => exact creditBack_sum (u := (dropNew j (releaseJob j (settleDirty j.fn i s))).onCtx c (endCtx true)) hheld hj hphase hq hnew

end

/-! ### The event ring's head, EVR_DROPPED, the interrupt timer -/

theorem exec_evrHead (f : Fn) (v : Word) (s : State) : exec (.evrHead f v) s = .next (evrHeadWrite f v.toNat s) := rfl
theorem exec_evrDroppedRead (f : Fn) (s : State) : exec (.evrDroppedRead f) s = .next (evrDroppedRead f s) := rfl
theorem exec_cqInterruptTimer (f : Fn) (q : Nat) (s : State) : exec (.cqInterruptTimer f q) s = .next (cqTimer f q s) := rfl

/-- The two outcomes of a head write that reaches a ring in use (R151, R180). -/
theorem evrHeadWrite_eq {f : Fn} {x : FnState} {s : State} (v : Nat) (hf : s.fn? f = some x) (hring : x.evr.present = true) (hrun : x.evr.stopped = false)
    (hopen : pageOpen s f = true) : evrHeadWrite f v s =
    if 2 ^ x.evr.log2 ≤ v % 131072 % 65536 ∨ idxDist (2 ^ x.evr.log2) x.evr.head x.evr.tail < idxDist (2 ^ x.evr.log2) x.evr.head (v % 131072) then
      s.onFn f (fun y => { y with evr := { y.evr with stopped := true } })
    else s.onFn f (fun y => { y with evr := { y.evr with head := v % 131072 } }) := by
  simp [evrHeadWrite, hf, hring, hrun, hopen, idxSlot]

theorem evrDroppedRead_open {f : Fn} {x : FnState} {s : State} (hf : s.fn? f = some x) (hbar : barOpen s f = true) (hrun : x.resetting = false) :
    evrDroppedRead f s = (emit (.readValue x.evr.droppedReg) s).onFn f (fun y => { y with evr := { y.evr with droppedReg := 0 } }) := by
  simp [evrDroppedRead, answerRead, fnOf_eq hf, hbar, hrun]

/-- Settles O19: the entry's bytes and its write, the account of a CQ over a job's end, and the branches of the event ring and the timer. -/
theorem completionEntriesAndInterrupts : Obligations.CompletionEntriesAndInterrupts := by
  unfold Obligations.CompletionEntriesAndInterrupts
  refine ⟨⟨fun s c late sq head tail hfixed => entryBytes_spec s c late sq head tail hfixed, fun f q b sig c s hc hroom => putEntry_spec b sig hc (decide_eq_true hroom),
      fun j x c q s hheld hx hphase hfn hcq hcredit hq => deliver_sum c hheld hx hphase hfn hcq hcredit (by rw [hq]; rfl),
      fun i j q s hheld hj hphase hq => dropJob_sum hheld hj hphase (by rw [hq]; rfl)⟩,
    ?_, fun f x s hf hbar hrun => ⟨_, exec_evrDroppedRead f s, ?_⟩, fun f q t0 c s hc hfirst ht hdue => ?_, fun f q c s hc hnone => ?_⟩
  · rintro f v x s n i hf hring hrun hopen rfl rfl
    refine ⟨_, exec_evrHead f v s, ?_⟩
    rw [evrHeadWrite_eq v.toNat hf hring hrun hopen]
    refine ⟨fun hrange hheld => ?_, fun hbad => ?_⟩
    · rw [if_neg (by omega)]
      exact fn?_onFn_some hf
    · rw [if_pos hbad]
      exact fn?_onFn_some hf
  · rw [evrDroppedRead_open hf hbar hrun]
    exact ⟨rfl, fn?_onFn_some hf⟩
  · rw [exec_cqInterruptTimer]
    simp [cqTimer, hc, hfirst, ht, hdue, signalCq]
  · rw [exec_cqInterruptTimer]
    rcases hnone with ht | hfirst
    · cases hfirst : c.firstUnsig <;> simp [cqTimer, hc, hfirst, ht]
    · simp [cqTimer, hc, hfirst]

end Sys2Proof.Machine

/-! PROOFS. Fetch: reading an entry, and what the acceptance of one leaves of its ring (R146, R161, R189, R511). -/

namespace Sys2Proof.Machine

set_option Elab.async false -- as in Laws: the one text has more theorems than threads

/-! ## What ends and reservations leave of the rings -/

/-- The part of a submission queue that only fetches and doorbells change. -/
def ringView (x : Sq) : Fn × Nat × Nat × List Nat := (x.fn, x.id, x.head, x.arrivals)

/-- The next job number and every submission queue's ring are as before. -/
def SameRings (b t : State) : Prop := t.nextJob = b.nextJob ∧ t.sqs.map ringView = b.sqs.map ringView

theorem SameRings.refl (s : State) : SameRings s s := ⟨rfl, rfl⟩

theorem SameRings.sq? {b t : State} (h : SameRings b t) (f : Fn) (q : Nat) : (t.sq? f q).map ringView = (b.sq? f q).map ringView := by
  have hfind : ∀ s : State, (s.sq? f q).map ringView = (s.sqs.map ringView).find? (fun v => v.1 == f && v.2.1 == q) := fun s => by
    rw [List.find?_map]
    rfl
  rw [hfind, hfind, h.2]

section
variable {b s t : State}

/-- A change of fields other than the submission queues and the next job number. -/
theorem SameRings.to (h : SameRings b s) (hsqs : t.sqs = s.sqs := by exact rfl) (hnext : t.nextJob = s.nextJob := by exact rfl) : SameRings b t :=
  ⟨hnext.trans h.1, by rw [hsqs]; exact h.2⟩

theorem SameRings.map (h : SameRings b s) {g : Sq → Sq} (hg : ∀ x, ringView (g x) = ringView x) (hsqs : t.sqs = s.sqs.map g)
    (hnext : t.nextJob = s.nextJob := by exact rfl) : SameRings b t :=
  ⟨hnext.trans h.1, by rw [hsqs, List.map_map, ← h.2]; exact List.map_congr_left fun x _ => hg x⟩

theorem SameRings.linkOnly (h : SameRings b s) (hlink : LinkOnly s t) : SameRings b t := by
  rw [hlink]
  exact h.to

theorem sameRings_ite {c : Prop} [Decidable c] (h : SameRings b s) (k : SameRings b t) : SameRings b (if c then s else t) := by
  split
  · exact h
  · exact k

theorem sameRings_foldl {α : Type} {f : State → α → State} {l : List α} (hf : ∀ t x, SameRings b t → SameRings b (f t x)) (h : SameRings b s) :
    SameRings b (l.foldl f s) := by
  induction l generalizing s with
  | nil => exact h
  | cons x l ih => exact ih (hf _ _ h)

theorem sameRings_onSq (f : Fn) (q : Nat) (g : Sq → Sq) (hg : ∀ x, ringView (g x) = ringView x) (h : SameRings b s) : SameRings b (s.onSq f q g) := by
  refine ⟨h.1, Eq.trans ?_ h.2⟩
  rw [onSq_sqs]
  exact map_modFirst hg s.sqs

theorem sameRings_onCq (f : Fn) (q : Nat) (g : Cq → Cq) (h : SameRings b s) : SameRings b (s.onCq f q g) := h.to
theorem sameRings_onJob (i : Nat) (g : Job → Job) (h : SameRings b s) : SameRings b (s.onJob i g) := h.to
theorem sameRings_onSlot (i : Nat) (g : Slot → Slot) (h : SameRings b s) : SameRings b (s.onSlot i g) := h.to

theorem sameRings_trace (e : TraceEv) (h : SameRings b s) : SameRings b (trace e s) := by
  rw [trace_frame]
  exact h.to

theorem sameRings_endEpisode (f : Fn) (q : Nat) (h : SameRings b s) : SameRings b (endEpisode f q s) := by
  unfold endEpisode
  split
  · exact h
  · exact sameRings_ite (h.map (fun x => by split <;> rfl) rfl) h

theorem sameRings_releasePlace (j : Job) (h : SameRings b s) : SameRings b (releasePlace j s) :=
  sameRings_ite (h.map (by exact fun _ => rfl) rfl) h.to

theorem sameRings_beginEpisode (f : Fn) (q : Nat) (h : SameRings b s) : SameRings b (beginEpisode f q s) := by
  unfold beginEpisode
  split
  · exact h
  · exact sameRings_ite h ((sameRings_onCq _ _ _ h).linkOnly (linkOnly_ringEvent _ _ _ _ _ (.refl _)))

theorem sameRings_putEntry (f : Fn) (q : Nat) (e : Bytes) (sig : Bool) (h : SameRings b s) : SameRings b (putEntry f q e sig s) := by
  have hwritten := fun a => h.linkOnly (linkOnly_writeRing f a e (.refl s))
  unfold putEntry
  split
  · exact h
  · refine sameRings_ite h (sameRings_ite ?_ (hwritten _).to)
    unfold signalCq
    split
    · exact (hwritten _).to
    · exact SameRings.linkOnly (hwritten _).to (linkOnly_signal _ _ (.refl _))

theorem sameRings_writeCompletion (f : Fn) (q : Nat) (job : Option Job) (credited : Bool) (c : Completion) (h : SameRings b s) :
    SameRings b (writeCompletion f q job credited c s) := by
  have hentry := fun e sig => sameRings_putEntry f q e sig h
  unfold writeCompletion
  refine sameRings_beginEpisode f q ?_
  cases job with
  | none => exact sameRings_ite (sameRings_onCq _ _ _ (hentry _ _)) (hentry _ _)
  | some j =>
    refine sameRings_releasePlace _ (sameRings_trace _ (sameRings_onSq _ _ _ (by exact fun _ => rfl) (SameRings.to ?_)))
    exact sameRings_ite (sameRings_onCq _ _ _ (hentry _ _)) (hentry _ _)

theorem sameRings_adminDone (f : Fn) (tag : Nat) (st : Status) (inl : Bytes) (h : SameRings b s) : SameRings b (adminDone f tag st inl s) := by
  unfold adminDone
  split
  · exact sameRings_ite (sameRings_writeCompletion _ _ _ _ _ h) h
  · exact h

theorem sameRings_dirtyDone (w : AdminWait) (h : SameRings b s) : SameRings b (dirtyDone w s) :=
  sameRings_ite (sameRings_adminDone _ _ _ _ h) (sameRings_ite (sameRings_adminDone _ _ _ _ h) (sameRings_adminDone _ _ _ _ (sameRings_ite h.to h.to)))

theorem sameRings_settleDirty (f : Fn) (i : Nat) (h : SameRings b s) : SameRings b (settleDirty f i s) := by
  have hflushed : SameRings b (flushDirty i s) := by
    unfold flushDirty
    split
    · exact (h.linkOnly (linkOnly_markAll _ _ (.refl s))).to
    · exact h
  exact sameRings_foldl (fun _ _ => sameRings_dirtyDone _) hflushed.to

theorem sameRings_drainHeld (f : Fn) (q n : Nat) (h : SameRings b s) : SameRings b (drainHeld f q n s) := by
  induction n generalizing s with
  | zero => exact h
  | succ n ih =>
    unfold drainHeld
    split
    · exact h
    · refine sameRings_ite h ?_
      split
      · exact h
      · exact ih (sameRings_writeCompletion _ _ _ _ _ h.to)

theorem sameRings_drainCq (f : Fn) (q : Nat) (h : SameRings b s) : SameRings b (drainCq f q s) := by
  unfold drainCq
  split
  · exact h
  · exact sameRings_endEpisode _ _ (sameRings_drainHeld _ _ _ h)

theorem sameRings_deliver (j : Job) (c : Completion) (h : SameRings b s) : SameRings b (deliver j c s) := by
  have hsettled := sameRings_settleDirty j.fn j.id h
  unfold deliver
  dsimp only
  split
  · exact hsettled.to
  · have htook := fun (g : Cq → Cq) (k : Job → Job) (p : Bool) =>
      sameRings_onJob j.id k (sameRings_ite (c := p = true) (sameRings_onCq j.fn j.cq g hsettled) hsettled)
    exact sameRings_ite (sameRings_drainCq _ _ (sameRings_writeCompletion _ _ _ _ _ (htook _ _ _))) (sameRings_onCq _ _ _ (sameRings_onJob _ _ (htook _ _ _)))

theorem sameRings_releaseJob (j : Job) (h : SameRings b s) : SameRings b (releaseJob j s) :=
  (sameRings_foldl (l := j.pins) (fun _ p => sameRings_onSlot p.1 _) (s := freeUnits j.id s) h.to).to

theorem sameRings_dropNew (j : Job) (h : SameRings b s) : SameRings b (dropNew j s) := by
  unfold dropNew
  refine sameRings_ite h ?_
  split
  · exact h.to
  · exact h

theorem sameRings_failOne (j : Job) (c : Completion) (h : SameRings b s) : SameRings b (failOne j c s) := by
  have hdropped := sameRings_dropNew j (sameRings_releaseJob j h)
  refine sameRings_deliver _ _ ?_
  split
  · exact hdropped.to
  · exact hdropped

theorem sameRings_failJob (j : Job) (c : Completion) (h : SameRings b s) : SameRings b (failJob j c s) :=
  sameRings_foldl (fun _ _ => sameRings_failOne _ _) (sameRings_failOne _ _ h)

/-! ### The items of step 5 -/

theorem sameRings_takeTokens (id : Nat) (h : SameRings b s) : SameRings b (takeTokens id s) := by
  unfold takeTokens
  split
  · exact h
  · next j hj =>
    refine sameRings_ite h (sameRings_ite ?_ h.to)
    exact sameRings_onJob _ _ (sameRings_onSq _ _ _ (by exact fun _ => rfl) h)

theorem sameRings_takePlace (id : Nat) (h : SameRings b s) : SameRings b (takePlace id s) := by
  unfold takePlace
  split
  · exact h
  · exact sameRings_ite h (sameRings_ite h.to h.to)

theorem sameRings_takeCredit (id : Nat) (h : SameRings b s) : SameRings b (takeCredit id s) := by
  unfold takeCredit
  split
  · exact h
  · refine sameRings_ite h ?_
    split
    · exact h
    · exact sameRings_ite h.to h.to

theorem sameRings_reserveCtx (j : Job) (i : Nat) (h : SameRings b s) : SameRings b (reserveCtx j i s) := by
  unfold reserveCtx
  dsimp only
  split
  · exact h.to
  · exact h.to

/-- Item (d) takes nothing of a ring. -/
def StagingRings (b : State) : Staging → Prop
  | .took t => SameRings b t
  | .wait => True
  | .fail _ => True

theorem stagingRings_ite {c : Prop} [Decidable c] {x y : Staging} (hx : StagingRings b x) (hy : StagingRings b y) : StagingRings b (if c then x else y) := by
  split
  · exact hx
  · exact hy

theorem stagingRings_stageJob (j : Job) (h : SameRings b s) : StagingRings b (stageJob j s) := by
  have hwait : StagingRings b .wait := trivial
  have hfail : ∀ st, StagingRings b (.fail st) := fun _ => trivial
  have hsame : StagingRings b (.took s) := h
  have hjob : ∀ g, StagingRings b (.took (s.onJob j.id g)) := fun _ => h.to
  have hmem : ∀ m, StagingRings b (.took { s with mem := m }) := fun _ => h.to
  unfold stageJob
  dsimp only
  refine stagingRings_ite hwait (stagingRings_ite hwait (stagingRings_ite (stagingRings_ite (hfail _) (hjob _)) (stagingRings_ite
    (stagingRings_ite hwait (hmem _)) (stagingRings_ite (stagingRings_ite (hfail _) ?_) (stagingRings_ite (stagingRings_ite (hfail _) ?_)
    (stagingRings_ite (stagingRings_ite hwait ?_) ?_))))))
  · split
    · exact stagingRings_ite (sameRings_reserveCtx j _ h) hwait
    · exact hwait
  · split
    · exact stagingRings_ite hsame hwait
    · exact hsame
  · split
    · exact stagingRings_ite hwait hsame
    · exact hsame
  · split
    · refine stagingRings_ite (hmem _) ?_
      split
      · exact hmem _
      · exact hwait
    · exact stagingRings_ite hwait (sameRings_onJob _ _ (h.to (t := { s with mem := _ })))

theorem sameRings_stageJob {j : Job} (h : stageJob j s = .took t) : SameRings s t := by
  have hstaging := stagingRings_stageJob j (.refl s)
  rw [h] at hstaging
  exact hstaging

theorem SameRings.trans {c : State} (h : SameRings b s) (k : SameRings s c) : SameRings b c := ⟨k.1.trans h.1, k.2.trans h.2⟩

theorem sameRings_takeStaging (id : Nat) (h : SameRings b s) : SameRings b (takeStaging id s) := by
  unfold takeStaging
  split
  · exact h
  · refine sameRings_ite h ?_
    split
    · exact h.to
    · exact sameRings_failJob _ _ h
    · next v hv => exact (h.trans (sameRings_stageJob hv)).to

theorem sameRings_completeFailed (j : Job) (c : Completion) (h : SameRings b s) : SameRings b (completeFailed j c s) := by
  unfold completeFailed
  split
  · exact h
  · exact sameRings_ite (sameRings_deliver _ _ h) h.to

theorem sameRings_reserveJob (id : Nat) (h : SameRings b s) : SameRings b (reserveJob id s) := by
  unfold reserveJob
  split
  · exact h
  · split
    · exact sameRings_ite h (sameRings_completeFailed _ _ h)
    · exact sameRings_takeStaging _ (sameRings_takeCredit _ (sameRings_takePlace _ (sameRings_takeTokens _ h)))

end

/-! ## The fetch -/

theorem linkOnly_fetchRead_eq {s : State} {f : Fn} {q : Nat} {x : Sq} (hx : s.sq? f q = some x) :
    fetchRead f q s = postRead f (x.base + x.head % 65536 * 64) 64 s := by
  unfold fetchRead
  rw [hx]
  rfl

theorem sq?_id {s : State} {f : Fn} {q : Nat} {x : Sq} (hx : s.sq? f q = some x) : x.fn = f ∧ x.id = q := by
  have hfound := List.find?_some hx
  simpa using hfound

theorem linkOnly_blockRead (f : Fn) (d : Bytes) (s : State) : LinkOnly s (blockRead f d s) := by
  unfold blockRead
  split
  · exact .refl s
  · exact linkOnly_postRead _ _ _ (.refl s)

/-- An accepted entry's ring: the head past it, its arrival gone; one job number is used. -/
theorem ring_acceptEntry {f : Fn} {q : Nat} {x : Sq} {s : State} (d : Bytes) (blk : BlockIn) (hx : s.sq? f q = some x) (harr : x.arrivals ≠ []) :
    (acceptEntry f x d blk s).nextJob = s.nextJob + 1 ∧
      ∃ y, (acceptEntry f x d blk s).sq? f q = some y ∧ y.head = idxNext (2 ^ x.log2) x.head ∧ y.arrivals = x.arrivals.drop 1 := by
  obtain ⟨-, hid⟩ := sq?_id hx
  obtain ⟨a, hreserve, hnext, hsqs⟩ : ∃ a : State, SameRings a (acceptEntry f x d blk s) ∧ a.nextJob = s.nextJob + 1 ∧
      a.sqs = (s.onSq f x.id (fun y => { y.pass with fullStop := y.fullStop - 1, limitStop := y.limitStop - 1 })).sqs := by
    unfold acceptEntry
    dsimp only
    refine ⟨_, sameRings_reserveJob _ (.refl _), ?_, ?_⟩
    · split
      · rw [onCtx_nextJob, linkOnly_blockRead f d s]
      · rw [linkOnly_blockRead f d s]
    · split
      · rw [onCtx_sqs, linkOnly_blockRead f d s]; rfl
      · rw [linkOnly_blockRead f d s]; rfl
  refine ⟨hreserve.1.trans hnext, ?_⟩
  have hpassed := hreserve.sq? f q
  rw [sq?_of_sqs hsqs, hid, sq?_onSq_some hx (fun y => by unfold Sq.pass; split <;> exact ⟨rfl, rfl⟩), Option.map_some] at hpassed
  · obtain ⟨y, hy, hview⟩ := Option.map_eq_some_iff.1 hpassed
    simp only [ringView, Prod.mk.injEq, Sq.pass, List.isEmpty_iff, harr, if_false] at hview
    exact ⟨y, hy, hview.2.2.1, hview.2.2.2⟩

theorem exec_sqFetch (f : Fn) (q : Nat) (x : Fetch) (s : State) : exec (.sqFetch f q x) s = .next (fetchOne f q x s) := rfl

theorem fetchOne_of_canFetch {f : Fn} {q : Nat} {x : Sq} {s : State} (i : Fetch) (hx : s.sq? f q = some x) (hcan : canFetch s f x = true) :
    fetchOne f q i s =
      match i.entry with
      | none => stopSq f q 0x04 x.head (fetchRead f q s)
      | some e => if entryReason (fetchRead f q s) f q (sliceZ e 0 64) != 0 then stopSq f q (entryReason (fetchRead f q s) f q (sliceZ e 0 64)) x.head (fetchRead f q s)
        else acceptEntry f x (sliceZ e 0 64) i.block (fetchRead f q s) := by
  unfold fetchOne
  rw [hx]
  simp only [hcan]
  rfl

/-- Settles O20: the read leaves only requests; a stop keeps the head; an acceptance passes it, and no item of step 5 touches a ring. -/
theorem fetchAcceptsOrStops : Obligations.FetchAcceptsOrStops := by
  intro f q b x s v hx hcan hv
  have hread : fetchRead f q s = v := (linkOnly_fetchRead_eq hx).trans hv.symm
  have hlink : LinkOnly s v := hv ▸ linkOnly_postRead f _ 64 (.refl s)
  have hsqs : v.sqs = s.sqs := by rw [hlink]
  have hjobs : v.jobs = s.jobs := by rw [hlink]
  have hxv : v.sq? f q = some x := (sq?_of_sqs hsqs f q).trans hx
  simp only [canFetch, Bool.and_eq_true, beq_iff_eq, Bool.not_eq_true', List.isEmpty_eq_false_iff] at hcan
  have hst : x.st ≠ .error := by simp [hcan.1.1.1.1.1]
  have harr : x.arrivals ≠ [] := hcan.1.1.1.2
  have hcan : canFetch s f x = true := by simpa [canFetch] using hcan
  have hstop := fun r => And.intro (sq?_stopSq r x.head hxv hst) ((jobs_stopSq f q r x.head v).trans hjobs)
  refine ⟨⟨hsqs, hjobs⟩, ⟨_, (exec_sqFetch ..).trans (congrArg _ (fetchOne_of_canFetch _ hx hcan)), ?_⟩, fun e r hr hr0 => ?_, fun e hr => ?_⟩
  · rw [hread]
    exact hstop 0x04
  · refine ⟨_, (exec_sqFetch ..).trans (congrArg _ (fetchOne_of_canFetch _ hx hcan)), ?_⟩
    simp only [hread, hr, bne_iff_ne, ne_eq, hr0, not_false_eq_true, if_true]
    exact hstop r
  · refine ⟨_, (exec_sqFetch ..).trans (congrArg _ (fetchOne_of_canFetch _ hx hcan)), ?_⟩
    simp only [hread, hr, bne_self_eq_false, Bool.false_eq_true, if_false]
    have hring := ring_acceptEntry (sliceZ e 0 64) b hxv harr
    rw [show v.nextJob = s.nextJob by rw [hlink]] at hring
    exact ⟨trivial, hring⟩

end Sys2Proof.Machine

/-! PROOFS. The queue commands of the admin queue (R171 to R178). -/

namespace Sys2Proof.Machine

set_option Elab.async false -- as in Laws: the one text has more theorems than threads

/-! ## Lists of checks -/

/-- A list of checks answers its first failure, or lets the command's work go on. -/
theorem aChecks_cases (l : List (Bool × AdminRes)) (k : Unit → AdminRes) :
    (∃ p ∈ l, p.1 = true ∧ aChecks l k = p.2) ∨ ((∀ p ∈ l, p.1 = false) ∧ aChecks l k = k ()) := by
  induction l with
  | nil => exact .inr ⟨List.forall_mem_nil _, rfl⟩
  | cons x l ih =>
    obtain ⟨bad, r⟩ := x
    cases bad with
    | true => exact .inl ⟨_, .head _, rfl, rfl⟩
    | false =>
      rcases ih with ⟨p, hp, hbad, heq⟩ | ⟨hall, heq⟩
      · exact .inl ⟨p, .tail _ hp, hbad, heq⟩
      · exact .inr ⟨List.forall_mem_cons.2 ⟨rfl, hall⟩, heq⟩

theorem aChecks_nil (k : Unit → AdminRes) : aChecks [] k = k () := rfl

theorem aChecks_pass {bad : Bool} {r : AdminRes} {l : List (Bool × AdminRes)} {k : Unit → AdminRes} (h : bad = false) : aChecks ((bad, r) :: l) k = aChecks l k := by
  rw [h]
  rfl

theorem aChecks_stop {bad : Bool} {r : AdminRes} {l : List (Bool × AdminRes)} {k : Unit → AdminRes} (h : bad = true) : aChecks ((bad, r) :: l) k = r := by
  rw [h]
  rfl

theorem toBuf_of_room {a : AdminIn} {e data : Bytes} {k : State → AdminRes} {s : State} (hroom : data.length ≤ aBufLen e) (hok : a.writeOk = true) :
    toBuf a e data k s = k (writeOut a.fn (aBuf e) data s) := by
  simp [toBuf, Nat.not_lt.2 hroom, hok]

theorem toBuf_of_small {a : AdminIn} {e data : Bytes} {k : State → AdminRes} {s : State} (hsmall : aBufLen e < data.length) :
    toBuf a e data k s = .fail .outputTooSmall 0x30 data.length := by
  simp [toBuf, hsmall]

/-! ## The queue commands -/

theorem length_identifyBytes (s : State) (f : Fn) : (identifyBytes s f).length = 64 := by
  have hcap : (((devCap s.part).map (leBytes 4)).flatten).length = 16 := by cases s.part <;> rfl
  simp [identifyBytes, hcap]

theorem qidBad_sq {s : State} {f : Fn} {id : Nat} {x : Sq} (hx : s.sq? f id = some x) (hid : id < qpIds s f) : qidBad s f id true = false := by
  simp [qidBad, hx, hid]

theorem qidBad_cq {s : State} {f : Fn} {id : Nat} {c : Cq} (hc : s.cq? f id = some c) (hid : id < qpIds s f) : qidBad s f id false = false := by
  simp [qidBad, hc, hid]

theorem find?_filter_not {α : Type} (p : α → Bool) (l : List α) : (l.filter (fun x => !(p x))).find? p = none := by
  rw [List.find?_eq_none]
  intro x hx
  simpa using (List.mem_filter.1 hx).2

theorem adminCreateCq_of_free {e : Bytes} {a : AdminIn} {s : State} (hid : fieldLE e 24 2 < qpIds s a.fn) (hfree : s.cq? a.fn (fieldLE e 24 2) = none)
    (hlow : 1 ≤ byteAt e 26) (hhigh : byteAt e 26 ≤ 16) (halign : aBuf e % 4096 = 0) (hlen : aBufLen e = 32 * 2 ^ byteAt e 26)
    (hvec : vectorOk s a.fn (fieldLE e 28 2) = true) (hpairs : qpTotal s < 65536) :
    adminCreateCq e a s = .ok 0 [] { s with cqs := s.cqs ++ [{ fn := a.fn, id := fieldLE e 24 2, base := aBuf e, log2 := byteAt e 26, credits := 2 ^ byteAt e 26, vector := fieldLE e 28 2, k := fieldLE e 30 2, t := fieldLE e 32 2 }] } := by
  have hsize : byteAt e 26 ≠ 0 := by omega
  unfold adminCreateCq
  dsimp only
  rw [aChecks_pass (by simpa using hid), aChecks_pass (by simp [hfree]), aChecks_pass (by simp [hsize, hhigh]), aChecks_pass (by simp [halign, hlen]),
    aChecks_pass (by simp [hvec]), aChecks_pass (by simp [hpairs]), aChecks_nil]

/-- A CREATE_SQ that answers OK has passed its checks and added the queue of its entry. -/
theorem adminCreateSq_ok {e : Bytes} {a : AdminIn} {s t : State} {n : Nat} {inl : Bytes} (h : adminCreateSq e a s = .ok n inl t) :
    ∃ x, t = { s with sqs := s.sqs ++ [x] } ∧ x.fn = a.fn ∧ x.id = fieldLE e 24 2 ∧ x.head = 0 ∧ x.tail = 0 ∧ x.st = .enabled ∧ x.cq = fieldLE e 28 2 ∧
      s.sq? a.fn x.id = none ∧ (s.cq? a.fn x.cq).isSome = true ∧ domainSqs s x.domain < queueQuota s x.domain := by
  unfold adminCreateSq at h
  dsimp only at h
  rcases aChecks_cases _ _ with ⟨p, hp, -, heq⟩ | ⟨hall, heq⟩
  · rw [heq] at h
    simp only [List.mem_cons, List.not_mem_nil, or_false, aBad, aFail] at hp
    rcases hp with rfl | rfl | rfl | rfl | rfl | rfl | rfl | rfl | rfl | rfl <;> exact nomatch h
  · rw [heq] at h
    injection h with _ _ ht
    simp only [List.forall_mem_cons] at hall
    obtain ⟨-, hfree, -, -, hcq, -, -, hquota, -⟩ := hall
    refine ⟨_, ht.symm, rfl, rfl, rfl, rfl, rfl, rfl, by simpa [newSq] using hfree, ?_, by simpa [newSq] using hquota⟩
    show (s.cq? a.fn (fieldLE e 28 2)).isSome = true
    cases hfound : s.cq? a.fn (fieldLE e 28 2) with
    | none => simp [hfound] at hcq
    | some c => rfl

theorem adminDestroySq_of_drained {e : Bytes} {a : AdminIn} {s : State} {x : Sq} (hx : s.sq? a.fn (fieldLE e 24 2) = some x) (hid : fieldLE e 24 2 < qpIds s a.fn)
    (hjobs : ∀ j ∈ s.jobs, j.fn = a.fn → j.sq ≠ fieldLE e 24 2) (hempty : x.head = x.tail) :
    ∃ t, adminDestroySq e a s = .ok 0 [] t ∧ t.sq? a.fn (fieldLE e 24 2) = none ∧ t.cqs = s.cqs := by
  unfold adminDestroySq
  dsimp only
  rw [aChecks_pass (qidBad_sq hx hid), aChecks_pass (by simpa [hx, hempty] using hjobs), aChecks_nil]
  exact ⟨_, rfl, find?_filter_not _ _, rfl⟩

theorem adminDestroyCq_of_unbound {e : Bytes} {a : AdminIn} {s : State} {c : Cq} (hc : s.cq? a.fn (fieldLE e 24 2) = some c) (hid : fieldLE e 24 2 < qpIds s a.fn)
    (hfree : ∀ x ∈ s.sqs, x.fn = a.fn → x.cq = fieldLE e 24 2 → x.id = 0xFFFF) :
    ∃ t, adminDestroyCq e a s = .ok 0 [] t ∧ t.cq? a.fn (fieldLE e 24 2) = none ∧ t.sqs = s.sqs := by
  unfold adminDestroyCq
  dsimp only
  rw [aChecks_pass (qidBad_cq hc hid), aChecks_pass (by simpa using hfree), aChecks_nil]
  exact ⟨_, rfl, find?_filter_not _ _, rfl⟩

theorem adminDestroyCq_of_bound {e : Bytes} {a : AdminIn} {s : State} {c : Cq} {x : Sq} (hc : s.cq? a.fn (fieldLE e 24 2) = some c) (hid : fieldLE e 24 2 < qpIds s a.fn)
    (hx : x ∈ s.sqs) (hfn : x.fn = a.fn) (hcq : x.cq = fieldLE e 24 2) (hjob : x.id ≠ 0xFFFF) : adminDestroyCq e a s = .fail .malformedDescriptor 0x0B 0 := by
  unfold adminDestroyCq
  dsimp only
  rw [aChecks_pass (qidBad_cq hc hid), aChecks_stop]
  · rfl
  · rw [List.any_eq_true]
    exact ⟨x, hx, by simp [hfn, hcq, hjob]⟩

theorem adminAbortJob_of_no_job {e : Bytes} {a : AdminIn} {s : State} (hq : qidBad s a.fn (fieldLE e 24 2) true = false)
    (hnone : ∀ j ∈ s.jobs, j.fn = a.fn → j.sq = fieldLE e 24 2 → j.tag ≠ fieldLE e 28 4) : adminAbortJob e a s = .ok 0 [0] s := by
  have hfind : s.jobs.find? (fun (j : Job) => j.fn == a.fn && j.sq == fieldLE e 24 2 && j.tag == fieldLE e 28 4) = none := by
    rw [List.find?_eq_none]
    intro j hj hmatch
    simp only [Bool.and_eq_true, beq_iff_eq] at hmatch
    obtain ⟨⟨hfn, hsq⟩, htag⟩ := hmatch
    exact hnone j hj hfn hsq htag
  unfold adminAbortJob
  dsimp only
  rw [aChecks_pass hq, aChecks_nil, hfind]

theorem fnOf_onFn_evr (s : State) (f : Fn) (r : FnEvr) (hr : r.present = false) : ((s.onFn f (fun x => { x with evr := r })).fnOf f).evr.present = false := by
  unfold State.fnOf
  cases hf : s.fn? f with
  | some x => rw [fn?_onFn_some hf]; exact hr
  | none =>
    rw [show (s.onFn f (fun x => { x with evr := r })).fn? f = none from ?_]
    · rfl
    · unfold State.fn? at hf ⊢
      rw [onFn_fns, find_modFirst (fun x : FnState => x.fn == f) (fun x => { x with evr := r }) (fun x h => h), hf]
      rfl

theorem adminSetRing_of_zero {e : Bytes} {a : AdminIn} {s : State} (h : aBuf e = 0) :
    ∃ t, adminSetRing e a s = .ok 0 [] t ∧ (t.fnOf a.fn).evr.present = false := by
  unfold adminSetRing
  dsimp only
  rw [aChecks_pass (by simp [h]), aChecks_pass (by simp [h]), aChecks_pass (by simp [h]), aChecks_nil]
  refine ⟨_, rfl, ?_⟩
  simp only [setRing, h, bne_self_eq_false, Bool.and_false, Bool.false_and, Bool.false_eq_true, if_false, beq_self_eq_true, if_true]
  exact fnOf_onFn_evr _ _ _ rfl

/-- Settles O24: each command's list of checks passes, or answers its one failure. -/
theorem queueCommandsActOnTheirQueue : Obligations.QueueCommandsActOnTheirQueue := by
  refine ⟨fun e a s hlen hok => ⟨toBuf_of_room ((length_identifyBytes s a.fn).symm ▸ hlen) hok, length_identifyBytes s a.fn⟩,
    fun e a s id n hid hn => ?_, fun e a s t n inl => adminCreateSq_ok, fun e a s x => adminDestroySq_of_drained,
    fun e a s c hc hid => ⟨adminDestroyCq_of_unbound hc hid, fun x => adminDestroyCq_of_bound hc hid⟩, fun e a s => adminAbortJob_of_no_job,
    fun e a s => adminSetRing_of_zero⟩
  subst hid hn
  exact adminCreateCq_of_free

end Sys2Proof.Machine

/-! PROOFS. Signed containers and the key commands of the admin queue (R218, R230 to R236, R459 to R461). -/

namespace Sys2Proof.Machine

set_option Elab.async false -- as in Laws: the one text has more theorems than threads

/-! ## AUMs -/

theorem length_of_aumFormatOk {m : Bytes} (h : aumFormatOk m = true) : ¬ m.length < 12 ∧ uTotal m = m.length := by
  simp only [aumFormatOk, Bool.and_eq_true, decide_eq_true_eq, beq_iff_eq] at h
  omega

theorem adminAum_eq {e m : Bytes} {a : AdminIn} {s : State} (hm : fromBuf a (aBufLen e) = some m) :
    adminAum e a s = if m.length < 12 || uTotal m != m.length then aBad 0x50
      else match aumChecks s m with
        | .inl n => aumFailure n
        | .inr r => .ok 0 (leBytes 8 (counterNow (applyAum s.eph.configured r s))) (applyAum s.eph.configured r s) := by
  unfold adminAum
  rw [hm] <;> rfl

/-- A failed check of R235 fails the submission and needs no buffer. -/
theorem aumFailure_fails (n : Nat) : ∃ st d, aumFailure n = .fail st d 0 := by
  unfold aumFailure
  split <;> exact ⟨_, _, rfl⟩

theorem aumChecks_counter {s : State} {m : Bytes} {r : AumRec} (h : aumChecks s m = .inr r) : uCounter m = counterNow s + 1 := by
  unfold aumChecks at h
  split at h
  · exact nomatch h
  · split at h
    · exact nomatch h
    · split at h
      · exact nomatch h
      · next hcounter => simpa using hcounter

theorem aumChecks_badFormat {s : State} {m : Bytes} (h : aumFormatOk m = false) : aumChecks s m = .inl 2 := by
  unfold aumChecks
  rw [h]
  rfl

theorem aumChecks_badCounter {s : State} {m : Bytes} (hformat : aumFormatOk m = true) (hcounter : uCounter m ≠ counterNow s + 1) :
    aumChecks s m = .inl 3 ∨ aumChecks s m = .inl 4 := by
  unfold aumChecks
  by_cases htarget : uTarget m = deviceId s
  · exact .inr (by simp [hformat, hcounter, htarget])
  · exact .inl (by simp [hformat, htarget])

theorem floor_applyAum (serve : Bool) (r : AumRec) (s : State) : s.sc.floor ≤ (applyAum serve r s).sc.floor :=
  (keeps_applyAum (K := ⟨True, True, True, True⟩) trivial serve r s (.refl s)).fuses.floor

theorem adminAum_outcome {e m : Bytes} {a : AdminIn} {s : State} (hm : fromBuf a (aBufLen e) = some m) :
    (∃ st d, adminAum e a s = .fail st d 0) ∨
      (∃ t, adminAum e a s = .ok 0 (leBytes 8 (counterNow t)) t ∧ uCounter m = counterNow s + 1 ∧ uTotal m = m.length ∧ s.sc.floor ≤ t.sc.floor) := by
  rw [adminAum_eq hm]
  split
  · exact .inl ⟨_, _, rfl⟩
  · next hlen =>
    simp only [Bool.or_eq_true, decide_eq_true_eq, bne_iff_ne, ne_eq, not_or, Classical.not_not] at hlen
    cases hchecks : aumChecks s m with
    | inl n => exact .inl (aumFailure_fails n)
    | inr r => exact .inr ⟨_, rfl, aumChecks_counter hchecks, hlen.2, floor_applyAum _ _ _⟩

theorem adminAum_badFormat {e m : Bytes} {a : AdminIn} {s : State} (hm : fromBuf a (aBufLen e) = some m)
    (h : m.length < 12 ∨ uTotal m ≠ m.length ∨ aumFormatOk m = false) : adminAum e a s = .fail .malformedDescriptor 0x50 0 := by
  rw [adminAum_eq hm]
  split
  · rfl
  · next hlen =>
    simp only [Bool.or_eq_true, decide_eq_true_eq, bne_iff_ne, ne_eq, not_or, Classical.not_not] at hlen
    rw [aumChecks_badFormat ((h.resolve_left hlen.1).resolve_left (Classical.not_not.2 hlen.2))]
    rfl

theorem adminAum_badCounter {e m : Bytes} {a : AdminIn} {s : State} (hm : fromBuf a (aBufLen e) = some m) (hformat : aumFormatOk m = true)
    (hcounter : uCounter m ≠ counterNow s + 1) :
    adminAum e a s = .fail .malformedDescriptor 0x51 0 ∨ adminAum e a s = .fail .malformedDescriptor 0x52 0 := by
  obtain ⟨hshort, htotal⟩ := length_of_aumFormatOk hformat
  rw [adminAum_eq hm, if_neg (by simp [hshort, htotal])]
  rcases aumChecks_badCounter hformat hcounter with h | h
  · exact .inl (by rw [h]; rfl)
  · exact .inr (by rw [h]; rfl)

/-! ## Debug certificates -/

/-- The certificate that a message carries, as it is held. -/
def submittedCert (m : Bytes) : DbgCert := { rights := cRights m, cyclesLeft := cCycles m, target := uTarget m, counter := uCounter m, testClusters := cTests m }

/-- The state in which an accepted certificate is held, or none where it gives no right. -/
def holdCert (m : Bytes) (s : State) : State :=
  { s with dbg := { s.dbg with cert := if cRights m == 0 then none else some (submittedCert m), certLive := cRights m != 0 } }

/-- The state after an accepted certificate: held, recorded, and the rights clamped. -/
def takeCert (m : Bytes) (s : State) : State :=
  clampRights (raiseEvent 0x0305 0x0500 [byteOf (cRights m), byteOf (if cRights m == 0 then 0 else cCycles m)] (holdCert m s))

theorem adminCert_eq {e m : Bytes} {a : AdminIn} {s : State} (hm : fromBuf a (aBufLen e) = some m) :
    adminCert e a s = if m.length < 12 || uTotal m != m.length || !(certFormatOk m) then aBad 0x70
      else if uTarget m != deviceId s then aBad 0x71
      else if uCounter m != counterNow s then aBad 0x72
      else match signerOf s (uHybrid m) (cBlock m) (sliceOf m 56 8) with
      | none => aFail .keyNotFound 0x73
      | some k =>
        if !(signaturesOk k (uHybrid m) "YQ9-DEBUG" (m.take (cBody m)) (m.drop (cBody m))) then aFail .inputRejected 0x74
        else if lcCode s != 0x07 || s.tam.quarantine then aFail .keyPolicy 0x75
        else .ok 0 (leBytes 2 (cRights m) ++ [byteOf (if cRights m == 0 then 0 else cCycles m)]) (takeCert m s) := by
  unfold adminCert
  rw [hm]
  rfl

theorem setActive_cert (v : Nat) (s : State) : (setActive v s).dbg.cert = s.dbg.cert ∧ (setActive v s).dbg.certLive = s.dbg.certLive := by
  unfold setActive
  dsimp only
  split
  · exact ⟨rfl, rfl⟩
  · rw [raiseEvent_frame]
    split <;> exact ⟨rfl, rfl⟩

/-- Clamping the rights leaves the certificate, the jobs and the slots. -/
theorem clampRights_keeps (s : State) :
    (clampRights s).dbg.cert = s.dbg.cert ∧ (clampRights s).dbg.certLive = s.dbg.certLive ∧ (clampRights s).jobs = s.jobs ∧ (clampRights s).slots = s.slots := by
  have hcert : (clampRights s).dbg.cert = s.dbg.cert ∧ (clampRights s).dbg.certLive = s.dbg.certLive := by
    unfold clampRights
    split
    · exact ⟨rfl, rfl⟩
    · exact setActive_cert _ s
  exact ⟨hcert.1, hcert.2, by rw [clampRights_frame], by rw [clampRights_frame]⟩

theorem takeCert_keeps (m : Bytes) (s : State) :
    (takeCert m s).dbg.cert = (if cRights m == 0 then none else some (submittedCert m)) ∧ (takeCert m s).dbg.certLive = (cRights m != 0) ∧
      (takeCert m s).jobs = s.jobs ∧ (takeCert m s).slots = s.slots := by
  obtain ⟨hcert, hlive, hjobs, hslots⟩ := clampRights_keeps (raiseEvent 0x0305 0x0500 [byteOf (cRights m), byteOf (if cRights m == 0 then 0 else cCycles m)] (holdCert m s))
  exact ⟨hcert.trans (by rw [raiseEvent_frame]; rfl), hlive.trans (by rw [raiseEvent_frame]; rfl), hjobs.trans (by rw [raiseEvent_frame]; rfl),
    hslots.trans (by rw [raiseEvent_frame]; rfl)⟩

theorem adminCert_outcome {e m : Bytes} {a : AdminIn} {s : State} (hm : fromBuf a (aBufLen e) = some m) :
    (∃ st d, adminCert e a s = .fail st d 0) ∨
      (∃ t, adminCert e a s = .ok 0 (leBytes 2 (cRights m) ++ [byteOf (if cRights m = 0 then 0 else cCycles m)]) t ∧ uTarget m = deviceId s ∧ uCounter m = counterNow s ∧
        lcCode s = 0x07 ∧ s.tam.quarantine = false ∧ t.jobs = s.jobs ∧ t.slots = s.slots ∧ (cRights m = 0 → t.dbg.cert = none) ∧
        (cRights m ≠ 0 → ∃ c, t.dbg.cert = some c ∧ t.dbg.certLive = true ∧ c.rights = cRights m ∧ c.cyclesLeft = cCycles m ∧ c.counter = counterNow s)) := by
  rw [adminCert_eq hm]
  split
  · exact .inl ⟨_, _, rfl⟩
  · split
    · exact .inl ⟨_, _, rfl⟩
    · next htarget =>
      split
      · exact .inl ⟨_, _, rfl⟩
      · next hcounter =>
        cases signerOf s (uHybrid m) (cBlock m) (sliceOf m 56 8) with
        | none => exact .inl ⟨_, _, rfl⟩
        | some k =>
          dsimp only
          split
          · exact .inl ⟨_, _, rfl⟩
          · split
            · exact .inl ⟨_, _, rfl⟩
            · next hstate =>
              simp only [bne_iff_ne, ne_eq, Classical.not_not, Bool.or_eq_true, not_or, Bool.not_eq_true] at htarget hcounter hstate
              obtain ⟨hcert, hlive, hjobs, hslots⟩ := takeCert_keeps m s
              refine .inr ⟨takeCert m s, by simp only [beq_iff_eq], htarget, hcounter, hstate.1, hstate.2, hjobs, hslots, fun h0 => ?_, fun h0 => ?_⟩
              · simpa [h0] using hcert
              · exact ⟨submittedCert m, by simpa [h0] using hcert, hlive.trans (by simpa using h0), rfl, rfl, hcounter⟩

theorem adminCert_badFormat {e m : Bytes} {a : AdminIn} {s : State} (hm : fromBuf a (aBufLen e) = some m)
    (h : m.length < 12 ∨ uTotal m ≠ m.length ∨ certFormatOk m = false) : adminCert e a s = .fail .malformedDescriptor 0x70 0 := by
  rw [adminCert_eq hm, if_pos]
  · rfl
  · simpa [or_assoc] using h

theorem adminCert_badNames {e m : Bytes} {a : AdminIn} {s : State} (hm : fromBuf a (aBufLen e) = some m) (hlen : 12 ≤ m.length) (htotal : uTotal m = m.length)
    (hformat : certFormatOk m = true) : (uTarget m ≠ deviceId s → adminCert e a s = .fail .malformedDescriptor 0x71 0) ∧
      (uTarget m = deviceId s → uCounter m ≠ counterNow s → adminCert e a s = .fail .malformedDescriptor 0x72 0) := by
  rw [adminCert_eq hm, if_neg (by simp [Nat.not_lt.2 hlen, htotal, hformat])]
  refine ⟨fun htarget => ?_, fun htarget hcounter => ?_⟩
  · rw [if_pos (by simpa using htarget)]
    rfl
  · rw [if_neg (by simpa using htarget), if_pos (by simpa using hcounter)]
    rfl

/-! ## The gate of the key commands -/

/-- A key command for its sender's own domain, or of a sender without one, goes on. -/
theorem keyGate_pass {s : State} {a : AdminIn} {e : Bytes} {pf0Only : Bool} {dom : Nat} {k : Unit → AdminRes} (hpf0 : pf0Only = true → a.fn = .pf0)
    (hbytes : keySubReserved e = false) (hdom : ∀ c, domainOf s a.fn = some c → c = dom) : keyGate s a e pf0Only dom k = k () := by
  unfold keyGate
  rw [aChecks_pass, aChecks_pass hbytes, aChecks_pass, aChecks_nil]
  · split
    · next d hd => simpa using hdom d hd
    · rfl
  · cases pf0Only with
    | false => rfl
    | true => simp [hpf0 rfl]

theorem keyGate_foreign {s : State} {a : AdminIn} {e : Bytes} {dom c : Nat} {k : Unit → AdminRes} (hbytes : keySubReserved e = false)
    (hc : domainOf s a.fn = some c) (hne : c ≠ dom) : keyGate s a e false dom k = .fail .keyDomain 0x5A 0 := by
  unfold keyGate
  rw [aChecks_pass (Bool.false_and _), aChecks_pass hbytes, aChecks_stop]
  · rfl
  · rw [hc]
    simpa using hne

theorem keyGate_notPf0 {s : State} {a : AdminIn} {e : Bytes} {dom : Nat} {k : Unit → AdminRes} (hfn : a.fn ≠ .pf0) :
    keyGate s a e true dom k = .fail .malformedDescriptor 0x59 0 := by
  unfold keyGate
  rw [aChecks_stop (by simpa using hfn)]
  rfl

/-! ## SLOT_INFO, DOMAIN_INFO -/

@[simp] theorem length_slotRecord (s : State) (x : Slot) : (slotRecord s x).length = 32 := by simp [slotRecord]
@[simp] theorem length_domainRecord (s : State) (d : Nat) : (domainRecord s d).length = 32 := by simp [domainRecord]

theorem adminSlotInfo_eq {e : Bytes} {a : AdminIn} {s : State} (hbytes : keySubReserved e = false) (hdom : ∀ c, domainOf s a.fn = some c → c = hDomain (aHandle e)) :
    adminSlotInfo e a s = match infoSlot s (aHandle e) with
      | none => aFail .keyNotFound 0x58
      | some x => toBuf a e (slotRecord s x) (fun s => .ok 32 [] s) s :=
  keyGate_pass (fun h => nomatch h) hbytes hdom

theorem adminDomainInfo_eq {e : Bytes} {a : AdminIn} {s : State} (hbytes : keySubReserved e = false) (hdom : ∀ c, domainOf s a.fn = some c → c = fieldLE e 32 2) :
    adminDomainInfo e a s = toBuf a e (domainRecord s (fieldLE e 32 2)) (fun s => .ok 32 [] s) s :=
  keyGate_pass (fun h => nomatch h) hbytes hdom

/-! ## Erasures -/

/-- What ERASE does behind its gate. -/
def eraseWork (e : Bytes) (s : State) : AdminRes :=
  match eraseStatus s (hDomain (aHandle e)) (aHandle e) with
  | some st => aFail st (eraseDetail st)
  | none =>
    let r := eraseSlot (aForce e) (hSlot (aHandle e)) s
    if r.2.1 then .ok 0 (leBytes 4 r.1) r.2.2 else .wait { kind := .eraseSlot, arg := hSlot (aHandle e), count := r.1 } r.2.2

theorem adminErase_eq {e : Bytes} {a : AdminIn} {s : State} (hbytes : keySubReserved e = false) (hdom : ∀ c, domainOf s a.fn = some c → c = hDomain (aHandle e)) :
    adminErase e a s = eraseWork e s :=
  keyGate_pass (fun h => nomatch h) hbytes hdom

theorem eraseSlot_of_free {s : State} {i : Nat} (force : Bool) (h : slotHolders s i = []) : eraseSlot force i s = (0, true, finishRetire i (retireSlot i s)) := by
  unfold eraseSlot
  rw [h]
  cases force <;> rfl

theorem eraseSlot_of_held {s : State} {i : Nat} (h : slotHolders s i ≠ []) : eraseSlot false i s = ((slotHolders s i).length, false, retireSlot i s) := by
  simp [eraseSlot, h]

theorem slot?_of_eraseStatus {s : State} {dom h : Nat} (hs : eraseStatus s dom h = none) : ∃ x, s.slot? (hSlot h) = some x := by
  cases hx : s.slot? (hSlot h) with
  | some x => exact ⟨x, rfl⟩
  | none =>
    unfold eraseStatus at hs
    rw [hx] at hs
    dsimp only at hs
    repeat' split at hs
    all_goals exact nomatch hs

theorem slot?_onSlot_some {s : State} {i : Nat} {x : Slot} {g : Slot → Slot} (hx : s.slot? i = some x) (hg : ∀ y, (g y).idx = y.idx := by exact fun _ => rfl) :
    (s.onSlot i g).slot? i = some (g x) := by
  unfold State.slot? at hx ⊢
  rw [onSlot_slots, find_modFirst (fun y : Slot => y.idx == i) g (fun y hy => by rw [hg]; exact hy), hx]
  rfl

/-- Retiring leaves the jobs, the waiting commands, and a slot in its place. -/
theorem retireSlot_keeps {s : State} {i : Nat} {x : Slot} (hx : s.slot? i = some x) :
    (retireSlot i s).jobs = s.jobs ∧ (retireSlot i s).waits = s.waits ∧ ∃ y, (retireSlot i s).slot? i = some y := by
  unfold retireSlot
  rw [hx]
  dsimp only
  split
  · exact ⟨rfl, rfl, x, hx⟩
  · exact ⟨rfl, rfl, _, slot?_onSlot_some (s := dropDdp i (endKeyCtxs (mkHandle x.domain x.ktype x.gen i) s)) hx⟩

theorem zeroSlot_eq {s : State} {i : Nat} {x : Slot} (hx : s.slot? i = some x) :
    zeroSlot i s = { s.onSlot i freeSlot with
      mem := { s.mem with keyCache := s.mem.keyCache.filter (fun k => k.1 != i), pkCache := s.mem.pkCache.filter (fun k => k.1 != i) } } := by
  unfold zeroSlot
  rw [hx]

/-- Without a job or a command that waits, the end of a retirement is the slot's zeroization. -/
theorem finishRetire_idle {s : State} {i : Nat} {x : Slot} (hx : s.slot? i = some x) (hjobs : s.jobs = []) (hwaits : s.waits = []) :
    (finishRetire i s).slot? i = some (freeSlot x) := by
  have hzero : endEraseJobs i (zeroSlot i s) = zeroSlot i s := by
    unfold endEraseJobs
    rw [show (zeroSlot i s).jobs = [] by rw [zeroSlot_eq hx]; exact hjobs]
    rfl
  have hnone : (zeroSlot i s).waits = [] := by rw [zeroSlot_eq hx]; exact hwaits
  rw [finishRetire, hzero, endEraseWaits, hnone, zeroSlot_eq hx]
  exact slot?_onSlot_some hx

/-- What ERASE_DOMAIN does to the slots of its domain: the jobs it waits for, and the state. -/
def eraseAll (e : Bytes) (d : Nat) (s : State) : Nat × State :=
  ((s.slots.filter (fun x => x.st != .free && x.ktype != 0 && x.domain == d)).map (fun x => x.idx)).foldl
    (fun (p : Nat × State) i => let q := eraseSlot (aForce e) i p.2; (p.1 + q.1, q.2.2)) (0, s)

/-- What ERASE_DOMAIN does behind its gate. -/
def eraseDomainWork (e : Bytes) (d : Nat) (s : State) : AdminRes :=
  if (eraseAll e d s).2.slots.any (fun x => x.domain == d && x.st == .retiring) then .wait { kind := .eraseDomain, arg := d, count := (eraseAll e d s).1 } (eraseAll e d s).2
  else .ok 0 (leBytes 4 (eraseAll e d s).1) (eraseAll e d s).2

theorem adminEraseDomain_eq (e : Bytes) (a : AdminIn) (s : State) :
    adminEraseDomain e a s = keyGate s a e true (fieldLE e 32 2) (fun _ => eraseDomainWork e (fieldLE e 32 2) s) := rfl

/-- A command behind the gate that answers OK has passed it. -/
theorem keyGate_ok {s t : State} {a : AdminIn} {e inl : Bytes} {pf0Only : Bool} {dom n : Nat} {k : Unit → AdminRes} (h : keyGate s a e pf0Only dom k = .ok n inl t) :
    k () = .ok n inl t := by
  unfold keyGate at h
  rcases aChecks_cases _ _ with ⟨p, hp, -, heq⟩ | ⟨-, heq⟩
  · rw [heq] at h
    simp only [List.mem_cons, List.not_mem_nil, or_false, aBad, aFail] at hp
    rcases hp with rfl | rfl | rfl <;> exact nomatch h
  · exact heq.symm.trans h

theorem adminEraseDomain_empty {e : Bytes} {a : AdminIn} {s : State} (hbytes : keySubReserved e = false) (hfn : a.fn = .pf0)
    (hfree : ∀ x ∈ s.slots, x.domain = fieldLE e 32 2 → x.st = .free ∨ x.ktype = 0) (hnone : ∀ x ∈ s.slots, x.domain = fieldLE e 32 2 → x.st ≠ .retiring) :
    adminEraseDomain e a s = .ok 0 (leBytes 4 0) s := by
  have hids : s.slots.filter (fun x => x.st != .free && x.ktype != 0 && x.domain == fieldLE e 32 2) = [] := by
    rw [List.filter_eq_nil_iff]
    intro x hx hkey
    simp only [Bool.and_eq_true, bne_iff_ne, ne_eq, beq_iff_eq] at hkey
    obtain ⟨⟨hst, htype⟩, hdom⟩ := hkey
    exact (hfree x hx hdom).elim hst htype
  have hall : eraseAll e (fieldLE e 32 2) s = (0, s) := by
    unfold eraseAll
    rw [hids]
    rfl
  rw [adminEraseDomain_eq, keyGate_pass (fun _ => hfn) hbytes (fun c hc => by rw [hfn] at hc; exact nomatch hc), eraseDomainWork, hall, if_neg]
  simpa using hnone

theorem adminEraseDomain_ok {e : Bytes} {a : AdminIn} {s t : State} {n : Nat} {inl : Bytes} (h : adminEraseDomain e a s = .ok n inl t) :
    ∀ x ∈ t.slots, x.domain = fieldLE e 32 2 → x.st ≠ .retiring := by
  have hwork := keyGate_ok ((adminEraseDomain_eq e a s).symm.trans h)
  unfold eraseDomainWork at hwork
  split at hwork
  · exact nomatch hwork
  · next hnone =>
    injection hwork with _ _ ht
    subst ht
    simpa using hnone

/-- Settles O25: each container fails at its first check that does not hold, and each key command behind its gate. -/
theorem containersAndKeyCommandsAnswer : Obligations.ContainersAndKeyCommandsAnswer := by
  refine ⟨⟨fun e m a s hm => ⟨adminAum_outcome hm, adminAum_badFormat hm, adminAum_badCounter hm⟩,
    fun e m a s hm => ⟨adminCert_outcome hm, adminCert_badFormat hm, adminCert_badNames hm⟩⟩, fun e a s h d hh hd hbytes => ?_⟩
  subst hh hd
  refine ⟨fun hdom => ?_, fun hdom => ?_, fun c hc => ⟨fun hne => ?_, fun hne => keyGate_foreign hbytes hc hne⟩, fun hdom => ⟨fun st hst => ?_, fun hst hfree => ?_, fun hst hheld hforce => ?_⟩,
    keyGate_notPf0, adminEraseDomain_empty hbytes, fun n inl t => adminEraseDomain_ok⟩
  · rw [adminSlotInfo_eq hbytes hdom]
    refine ⟨fun hnone => by rw [hnone]; rfl, fun x hx => ?_⟩
    rw [hx]
    exact ⟨length_slotRecord s x, fun hsmall => toBuf_of_small (by rwa [length_slotRecord]), fun hroom hok => toBuf_of_room (by rwa [length_slotRecord]) hok⟩
  · rw [adminDomainInfo_eq hbytes hdom]
    exact ⟨length_domainRecord s _, fun hroom hok => toBuf_of_room (by rwa [length_domainRecord]) hok⟩
  · exact ⟨keyGate_foreign hbytes hc hne, keyGate_foreign hbytes hc hne⟩
  · rw [adminErase_eq hbytes hdom, eraseWork, hst]
    exact ⟨_, rfl⟩
  · obtain ⟨x, hx⟩ := slot?_of_eraseStatus hst
    obtain ⟨hjobs, hwaits, y, hy⟩ := retireSlot_keeps hx
    rw [adminErase_eq hbytes hdom, eraseWork, hst, eraseSlot_of_free _ hfree]
    exact ⟨rfl, fun h0 hw0 => ⟨freeSlot y, finishRetire_idle hy (hjobs.trans h0) (hwaits.trans hw0), rfl, rfl⟩⟩
  · rw [adminErase_eq hbytes hdom, eraseWork, hst, hforce, eraseSlot_of_held hheld]
    rfl

end Sys2Proof.Machine

/-! PROOFS. The commands for instances: slices, quiesce, dirty logs, saved and restored instances (R430 to R444). -/

namespace Sys2Proof.Machine

set_option Elab.async false -- as in Laws: the one text has more theorems than threads

/-! ## Slices -/

theorem adminSliceCreate_ok {e : Bytes} {a : AdminIn} {s t : State} {n : Nat} {inl : Bytes} (h : adminSliceCreate e a s = .ok n inl t) :
    t = { s with slices := s.slices ++ [sliceOfEntry e], fns := s.fns ++ [{ fn := .slice (fieldLE e 24 2), ready := true }] } ∧
      s.slice? (fieldLE e 24 2) = none ∧ (∀ y ∈ s.slices, y.domain ≠ fieldLE e 32 2 ∧ y.pasid ≠ fieldLE e 40 3) := by
  unfold adminSliceCreate at h
  dsimp only at h
  rcases aChecks_cases _ _ with ⟨p, hp, -, heq⟩ | ⟨hall, heq⟩
  · rw [heq] at h
    simp only [List.mem_cons, List.not_mem_nil, or_false, aBad, aFail] at hp
    rcases hp with rfl | rfl | rfl | rfl | rfl | rfl | rfl | rfl <;> exact nomatch h
  · rw [heq] at h
    injection h with _ _ ht
    simp only [List.forall_mem_cons, Bool.or_eq_false_iff, List.any_eq_false, beq_iff_eq] at hall
    obtain ⟨-, -, -, hfree, -, ⟨-, hpasid⟩, hdomain, -⟩ := hall
    exact ⟨ht.symm, by simpa [sliceOfEntry] using hfree, fun y hy => ⟨hdomain y hy, hpasid y hy⟩⟩

theorem adminSliceReset_of_slice {kind : AdminKind} {e : Bytes} {a : AdminIn} {s : State} {x : Slice} {y : FnState} (hmode : sliceModeBad s e = false)
    (hlimit : fieldLE e 24 2 < s.eph.cfg.sliceLimit) (hx : s.slice? (fieldLE e 24 2) = some x) (hy : s.fn? (.slice (fieldLE e 24 2)) = some y)
    (hreset : y.resetting = false) :
    adminSliceReset kind e a s = .wait { kind := kind, target := .slice (fieldLE e 24 2) }
      (wipeDomains (fun d => d == x.domain) (resetOne (.slice (fieldLE e 24 2)) s)) := by
  have hdomain : (fun d => domainOf s (.slice (fieldLE e 24 2)) == some d) = (fun d => d == x.domain) := by
    funext d
    simp [domainOf, hx, Bool.beq_comm]
  unfold adminSliceReset
  dsimp only
  rw [aChecks_pass hmode, aChecks_pass (by simp [hlimit, hx]), aChecks_nil, resetInstance_eq hy, hreset, hdomain]
  rfl

theorem adminSliceReset_fails (e : Bytes) (a : AdminIn) (s : State) : (sliceModeBad s e = true → ∀ kind, adminSliceReset kind e a s = .fail .malformedDescriptor 0x60 0) ∧
    (sliceModeBad s e = false → s.slice? (fieldLE e 24 2) = none → ∀ kind, adminSliceReset kind e a s = .fail .malformedDescriptor 0x61 0) := by
  refine ⟨fun hmode kind => ?_, fun hmode hnone kind => ?_⟩
  · unfold adminSliceReset
    dsimp only
    rw [aChecks_stop hmode]
    rfl
  · unfold adminSliceReset
    dsimp only
    rw [aChecks_pass hmode, aChecks_stop (by simp [hnone])]
    rfl

theorem fn?_none_of_names {s t : State} {f : Fn} (h : t.fns.map (fun x => x.fn) = s.fns.map (fun x => x.fn)) (hnone : s.fn? f = none) : t.fn? f = none := by
  have habsent : ∀ u : State, u.fn? f = none ↔ f ∉ u.fns.map (fun x => x.fn) := fun u => by
    simp only [State.fn?, List.find?_eq_none, List.mem_map, beq_iff_eq, not_exists, not_and]
  rw [habsent] at hnone ⊢
  rwa [h]

theorem endSliceWaits_of_destroy {f : Fn} {w : AdminWait} {s : State} (hw : s.waits = [w]) (htarget : w.target = f) (hkind : w.kind = .sliceDestroy) :
    endSliceWaits f s = adminDone w.fn w.tag .ok [] (releaseSlices (fun n => f == .slice n) { s with waits := [] }) := by
  simp [endSliceWaits, hw, htarget, hkind]

theorem releaseSlices_gone (n : Nat) (s : State) : (releaseSlices (fun m => Fn.slice n == .slice m) s).slice? n = none ∧
    (releaseSlices (fun m => Fn.slice n == .slice m) s).fn? (.slice n) = none := by
  refine ⟨List.find?_eq_none.2 fun x hx hn => ?_, List.find?_eq_none.2 fun x hx hn => ?_⟩
  · have hkept := (List.mem_filter.1 hx).2
    rw [beq_iff_eq] at hn
    simp [hn] at hkept
  · have hkept := (List.mem_filter.1 hx).2
    rw [beq_iff_eq] at hn
    simp [hn] at hkept

/-- The end of a destroyed slice's reset takes the slice away and answers its command. -/
theorem resetComplete_destroys {n tag : Nat} {x : FnState} {s : State} (hx : s.fn? (.slice n) = some x) (hreset : x.resetting = true)
    (hpf1 : (s.fnOf .pf1).resetting = false) (hwaits : s.waits = [{ kind := .sliceDestroy, fn := .pf0, target := .slice n, tag := tag }]) :
    (resetComplete (.slice n) s).waits = [] ∧ (resetComplete (.slice n) s).slice? n = none ∧ (resetComplete (.slice n) s).fn? (.slice n) = none := by
  obtain ⟨u, ht, hw, hslice, hfn⟩ : ∃ u : State, resetComplete (.slice n) s = adminDone .pf0 tag .ok [] u ∧ u.waits = [] ∧ u.slice? n = none ∧ u.fn? (.slice n) = none := by
    simp only [resetComplete, hpf1, resetEnd, hx, hreset]
    exact ⟨_, endSliceWaits_of_destroy (s := s.onFn _ _) hwaits rfl rfl, rfl, releaseSlices_gone n _⟩
  have hdone := adminEnds_adminDone .pf0 tag .ok [] (.refl u)
  have hnames := names_of_pages (ends_adminDone (loud := True) trivial .pf0 tag .ok [] (.refl u)).pages
  rw [ht]
  refine ⟨?_, ?_, fn?_none_of_names hnames hfn⟩
  · rw [hdone.frame]; exact hw
  · rw [hdone.frame]; exact hslice

theorem exec_quiesceDrained (f : Fn) (s : State) : exec (.quiesceDrained f) s = .next (quiesceDone f s) := rfl

/-! ## Quiesce -/

theorem onInstance_of_named {s : State} {e : Bytes} {f : Fn} {extra : List (Bool × AdminRes)} {k : Fn → AdminRes} (hf : aTarget e = some f)
    (hmode : modeBad s e = false) (hinst : instanceBad s e = false) : onInstance s e extra k = aChecks extra (fun _ => k f) := by
  unfold onInstance
  rw [List.cons_append, List.cons_append, List.nil_append, aChecks_pass hmode, aChecks_pass hinst, hf]
  rfl

theorem onInstance_of_modeBad {s : State} {e : Bytes} {extra : List (Bool × AdminRes)} {k : Fn → AdminRes} (hmode : modeBad s e = true) :
    onInstance s e extra k = .fail .malformedDescriptor 0x60 0 := by
  unfold onInstance
  rw [List.cons_append, aChecks_stop hmode]
  rfl

theorem endQuiesce_of_no_waits {f : Fn} {s : State} (h : s.waits = []) : endQuiesce f s = s.onFn f (fun x => { x with quiescing := false, quiesced := true }) := by
  cases s
  cases h
  rfl

theorem fnOf_onFn {f : Fn} {x : FnState} {s : State} {g : FnState → FnState} (hf : s.fn? f = some x) (hg : ∀ y, (g y).fn = y.fn := by exact fun _ => rfl) :
    (s.onFn f g).fnOf f = g x := fnOf_eq (fn?_onFn_some hf hg)

theorem adminQuiesce_of_idle {e : Bytes} {a : AdminIn} {s : State} {f : Fn} (hword : byteAt e 27 = 0) (hf : aTarget e = some f) (hmode : modeBad s e = false)
    (hinst : instanceBad s e = false) (hnot : (s.fnOf f).quiesced = false) (hsome : (s.fn? f).isSome = true) (hjobs : ∀ j ∈ s.jobs, j.fn = f → j.phase = .done)
    (hwaits : s.waits = []) : ∃ t, adminQuiesce e a s = .ok 0 [] t ∧ (t.fnOf f).quiesced = true ∧ (∀ q ∈ t.sqs, q.fn = f → q.st ≠ .enabled) := by
  obtain ⟨x, hx⟩ := Option.isSome_iff_exists.1 hsome
  have hbegun : (beginQuiesce f s).waits = [] := hwaits
  have hdrained : drained (beginQuiesce f s) f = true := by
    have hbusy : s.jobs.any (fun (j : Job) => j.fn == f && j.phase != .done && j.failed.isNone) = false := by
      rw [List.any_eq_false]
      intro j hj hmatch
      simp only [Bool.and_eq_true, beq_iff_eq, bne_iff_ne, ne_eq] at hmatch
      exact hmatch.1.2 (hjobs j hj hmatch.1.1)
    unfold drained
    rw [hbegun, show (beginQuiesce f s).jobs = s.jobs from rfl, hbusy]
    rfl
  have hrun : adminQuiesce e a s = .ok 0 [] (endQuiesce f (beginQuiesce f s)) := by
    unfold adminQuiesce
    rw [aChecks_pass (by simp [hword]), aChecks_nil, onInstance_of_named hf hmode hinst, aChecks_nil, hnot]
    dsimp only
    rw [hword]
    exact if_pos hdrained
  refine ⟨_, hrun, ?_, ?_⟩
  · rw [endQuiesce_of_no_waits hbegun]
    have hpage : (beginQuiesce f s).fn? f = some { x with quiescing := true } := fn?_onFn_some hx
    rw [fnOf_onFn hpage]
  · rw [endQuiesce_of_no_waits hbegun]
    intro q hq hfn
    obtain ⟨y, -, rfl⟩ := List.mem_map.1 hq
    split
    · simp
    · next hother =>
      rw [if_neg hother] at hfn
      simpa [hfn] using hother

/-! ## Dirty logs -/

theorem dirtyJobs_unmarked (s : State) (f : Fn) : dirtyJobs { s with jobs := s.jobs.map (fun j => if j.fn == f then { j with dirty := [] } else j) } f = [] := by
  unfold dirtyJobs
  rw [List.map_eq_nil_iff, List.filter_eq_nil_iff]
  intro j hj
  obtain ⟨k, -, rfl⟩ := List.mem_map.1 hj
  split
  · simp
  · next hother => simp [hother]

/-- A log's jobs are unmarked where it failed, and stay else. -/
theorem dirtyJobs_none {s t : State} {f : Fn} {failed : Bool} (h : failed = true ∨ dirtyJobs s f = [])
    (ht : t.jobs = s.jobs.map (fun (j : Job) => if failed && j.fn == f then { j with dirty := [] } else j)) : dirtyJobs t f = [] := by
  have hjobs : dirtyJobs t f = dirtyJobs { s with jobs := s.jobs.map (fun (j : Job) => if failed && j.fn == f then { j with dirty := [] } else j) } f := by
    unfold dirtyJobs
    rw [ht]
  rw [hjobs]
  cases failed with
  | true => simpa using dirtyJobs_unmarked s f
  | false => simpa using h

theorem dirtyInline_eq (n : Nat) (b : Bool) : dirtyInline n b = leBytes 4 n ++ [byteOf (if b = true then 1 else 0)] := by cases b <;> rfl

theorem dirtyWait_idle {op : Nat} {f : Fn} {d : FnDirty} {s : State} (h : dirtyJobs s f = []) : dirtyWait op f d s = .ok 0 (dirtyInline d.outside d.failed)
    (if op == 1 then s else if op == 0 then s.onFn f (fun x => { x with dirty := {} }) else s.onFn f (fun x => { x with dirty := { x.dirty with outside := 0 } })) := by
  unfold dirtyWait
  rw [h]
  rfl

theorem dirtyWait_due {op : Nat} {f : Fn} {d : FnDirty} {s : State} (h : dirtyJobs s f ≠ []) : ∃ w, dirtyWait op f d s = .wait w s ∧ w.due = dirtyJobs s f ∧ w.target = f := by
  unfold dirtyWait
  dsimp only
  rw [if_neg (by simpa using h)]
  exact ⟨_, rfl, rfl, rfl⟩

theorem adminDirtyEnable_starts {e : Bytes} {a : AdminIn} {s : State} {f : Fn} {x : FnState} (hf : aTarget e = some f) (hmode : modeBad s e = false)
    (hinst : instanceBad s e = false) (hx : s.fn? f = some x) (hdue : x.dirty.failed = true ∨ dirtyJobs s f = []) (hbuf : aBuf e % 8 = 0) (hlen : aBufLen e % 8 = 0)
    (hlow : 0 < aBufLen e) (hhigh : aBufLen e ≤ 268435456) (hcover : fieldLE e 52 8 % 4096 = 0) (hatomic : s.link.atomicOp = true) :
    ∃ t, adminDirtyEnable e a s = .ok 0 (leBytes 4 x.dirty.outside ++ [byteOf (if x.dirty.failed = true then 1 else 0)]) t ∧ t.sqs = s.sqs ∧ t.slots = s.slots ∧
      t.fn? f = some { x with dirty := { enabled := true, map := { bitmap := aBuf e, len := aBufLen e, cover := fieldLE e 52 8 } } } := by
  have hne : aBufLen e ≠ 0 := by omega
  unfold adminDirtyEnable
  dsimp only
  rw [onInstance_of_named hf hmode hinst, aChecks_pass (by simp [hbuf, hlen, hne, hhigh, hcover]), aChecks_pass (by simp [hatomic]), aChecks_nil, fnOf_eq hx,
    ← dirtyInline_eq]
  exact ⟨_, dirtyWait_idle (dirtyJobs_none hdue rfl), rfl, rfl, fn?_onFn_some hx⟩

theorem adminDirtyEnd_eq {off : Bool} {e : Bytes} {a : AdminIn} {s : State} {f : Fn} {x : FnState} (hf : aTarget e = some f) (hmode : modeBad s e = false)
    (hinst : instanceBad s e = false) (hx : s.fn? f = some x) (hrange : noRange e = true) :
    adminDirtyEnd off e a s = if x.dirty.failed then .fail .translationFault 0x31 1 else dirtyWait (if off then 0 else 2) f x.dirty s := by
  unfold adminDirtyEnd
  rw [aChecks_pass (by simp [hrange]), aChecks_nil, onInstance_of_named hf hmode hinst, aChecks_nil, fnOf_eq hx]

/-! ## Saved and restored instances -/

theorem take_instanceBlob (s : State) (f : Fn) (typ num d : Nat) (custody nonce : Bytes) : (instanceBlob s f typ num d custody nonce).take 4 = ascii "YQIB" := by
  unfold instanceBlob
  dsimp only
  simp only [List.append_assoc]
  rw [List.take_append_of_le_length (by decide)]
  rfl

theorem adminSave_eq {e : Bytes} {a : AdminIn} {s : State} {f : Fn} {d : Nat} {k : Bytes} (hf : aTarget e = some f) (hmode : modeBad s e = false)
    (hinst : instanceBad s e = false) (hd : domainOf s f = some d) (hquiet : (s.fnOf f).quiesced = true) (hpol : (domainPolicy s d).getLsbD 1 = true)
    (hk : custodyKey s = some k) :
    adminSave e a s = toBuf a e (instanceBlob s f (byteAt e 26) (fieldLE e 24 2) d k (drawBytes 12 s).1)
      (fun t => .ok (instanceBlob s f (byteAt e 26) (fieldLE e 24 2) d k (drawBytes 12 s).1).length
        (leBytes 4 (instanceBlob s f (byteAt e 26) (fieldLE e 24 2) d k (drawBytes 12 s).1).length) t) (drawBytes 12 s).2 := by
  unfold adminSave
  dsimp only
  simp only [hf, Option.getD_some, hd, hk]
  rw [onInstance_of_named hf hmode hinst, aChecks_pass (by simp [hquiet]), aChecks_pass (by simp [hpol]), aChecks_pass (by simp), aChecks_nil]

theorem adminSave_of_running {e : Bytes} {a : AdminIn} {s : State} {f : Fn} (hf : aTarget e = some f) (hmode : modeBad s e = false)
    (hinst : instanceBad s e = false) (hrun : (s.fnOf f).quiesced = false) : adminSave e a s = .fail .malformedDescriptor 0x66 0 := by
  unfold adminSave
  dsimp only
  simp only [hf, Option.getD_some]
  rw [onInstance_of_named hf hmode hinst, aChecks_stop (by simp [hrun])]
  rfl

/-- What RESTORE_STATE does with its blob. -/
def restoreBlob (s : State) (f : Fn) (b : Bytes) : AdminRes :=
  match custodyFor s (sliceZ b 16 8) with
  | none => aFail .keyNotFound 0x69
  | some k =>
    match openInstance k b with
    | none => aFail .verifyFailed 0x68
    | some p => restoreParts s f ((domainOf s f).getD 0) (b.take 128) p

theorem adminRestore_eq {e : Bytes} {a : AdminIn} {s : State} {f : Fn} (hf : aTarget e = some f) (hmode : modeBad s e = false)
    (hinst : instanceBad s e = false) : adminRestore e a s = match fromBuf a (aBufLen e) with
      | none => aFail .translationFault 0x31
      | some b => restoreBlob s f b := by
  unfold adminRestore
  rw [onInstance_of_named hf hmode hinst]
  cases fromBuf a (aBufLen e) with
  | none => rfl
  | some b => rfl

/-! ### The restored parts -/

/-- What a restore leaves of the state it starts from: jobs, functions until its own page is written, and every slot in use; the queues it adds are its
function's, and none of them fetches. -/
structure Restored (f : Fn) (b t : State) : Prop where
  jobs : t.jobs = b.jobs
  page : (b.fn? f).isSome = true → (t.fn? f).isSome = true
  sqs : ∀ q ∈ t.sqs, q ∈ b.sqs ∨ (q.fn = f ∧ q.st ≠ .enabled)
  slots : ∀ i y, b.slot? i = some y → y.st ≠ .free → t.slot? i = some y

section
variable {f : Fn} {b s t : State}

theorem Restored.refl (s : State) : Restored f s s := ⟨rfl, id, fun _ h => .inl h, fun _ _ h _ => h⟩

theorem Restored.to (h : Restored f b s) (hjobs : t.jobs = s.jobs := by exact rfl) (hfns : t.fns = s.fns := by exact rfl) (hsqs : t.sqs = s.sqs := by exact rfl)
    (hslots : t.slots = s.slots := by exact rfl) : Restored f b t :=
  ⟨hjobs.trans h.jobs, fun hb => by rw [fn?_of_fns hfns]; exact h.page hb, hsqs ▸ h.sqs, fun i y hy hst => by
    have := h.slots i y hy hst
    unfold State.slot? at this ⊢
    rwa [hslots]⟩

theorem restored_placeSqs {d : Nat} {l : List Bytes} (hplace : placeSqs f d l s = some t) (h : Restored f b s) : Restored f b t := by
  induction l generalizing s with
  | nil =>
    obtain rfl := Option.some.inj hplace
    exact h
  | cons r l ih =>
    unfold placeSqs at hplace
    split at hplace
    · exact nomatch hplace
    · refine ih hplace ⟨h.jobs, h.page, fun q hq => ?_, h.slots⟩
      rcases List.mem_append.1 hq with hq | hq
      · exact h.sqs q hq
      · rw [List.mem_singleton] at hq
        subst hq
        refine .inr ⟨rfl, ?_⟩
        simp only [sqRead, newSq]
        split <;> simp

theorem find?_append_of_some {α : Type} {p : α → Bool} {l : List α} {x y : α} (h : l.find? p = some y) : (l ++ [x]).find? p = some y := by
  rw [List.find?_append, h]
  rfl

/-- An entry put elsewhere leaves what is found. -/
theorem find?_putWhere_other {i : Nat} {x y : Slot} {l : List Slot} (h : l.find? (fun z => z.idx == i) = some y) (hne : x.idx ≠ i) :
    (putWhere (fun z => z.idx == x.idx) x l).find? (fun z => z.idx == i) = some y := by
  unfold putWhere
  split
  · rw [find_modFirst_ne (fun z => z.idx == x.idx) (fun z => z.idx == i) (fun _ => x) (fun _ _ => by simpa using hne)
      (fun z hz => by rw [beq_iff_eq] at hz; simpa [hz] using hne), h]
  · exact find?_append_of_some h

theorem restored_putSlot {x : Slot} (hfree : ∀ y, b.slot? x.idx = some y → y.st = .free) (h : Restored f b s) : Restored f b (putSlot x s) := by
  refine ⟨h.jobs, h.page, h.sqs, fun i y hy hst => ?_⟩
  have hne : x.idx ≠ i := fun heq => hst (hfree y (heq ▸ hy))
  exact find?_putWhere_other (x := { x with st := .occupied }) (h.slots i y hy hst) hne

theorem restored_putSlots {l : List Slot} (hfree : ∀ x ∈ l, ∀ y, b.slot? x.idx = some y → y.st = .free) (h : Restored f b s) :
    Restored f b (l.foldl (fun s x => putSlot x s) s) := by
  induction l generalizing s with
  | nil => exact h
  | cons x l ih => exact ih (fun z hz => hfree z (.tail _ hz)) (restored_putSlot (hfree x (.head _)) h)

theorem restored_putCtxs {d : Nat} {l : List Bytes} (h : Restored f b s) : Restored f b (l.foldl (fun s r => putCtx (ctxRead s d r) s) s) := by
  induction l generalizing s with
  | nil => exact h
  | cons r l ih => exact ih h.to

/-- The restored page is quiesced; its admin queue, where it has one, waits. -/
theorem restored_restoreFn (r : Bytes) (h : Restored f b s) (hpage : (b.fn? f).isSome = true) :
    Restored f b (restoreFn f r s) ∧ ((restoreFn f r s).fnOf f).quiesced = true := by
  obtain ⟨x, hx⟩ := Option.isSome_iff_exists.1 (h.page hpage)
  have hname := fn?_fn hx
  unfold restoreFn
  dsimp only
  rw [fnOf_onFn hx]
  have hkept := fun (g : FnState → FnState) (hg : ∀ y, (g y).fn = y.fn) => congrArg Option.isSome (fn?_onFn_some hx hg)
  split
  · exact ⟨⟨h.jobs, fun _ => hkept _ (by exact fun _ => rfl), h.sqs, h.slots⟩, by rw [fnOf_onFn hx]⟩
  · refine ⟨⟨h.jobs, fun _ => hkept _ (by exact fun _ => rfl), fun q hq => ?_, h.slots⟩, ?_⟩
    · rcases List.mem_append.1 hq with hq | hq
      · exact h.sqs q hq
      · rw [List.mem_singleton] at hq
        subst hq
        exact .inr ⟨hname, by simp⟩
    · exact congrArg FnState.quiesced (fnOf_onFn hx)

end

theorem restoreParts_ok {s t : State} {f : Fn} {d n : Nat} {h inl : Bytes} {p : BlobParts} (hok : restoreParts s f d h p = .ok n inl t) (hpage : (s.fn? f).isSome = true) :
    Restored f s t ∧ (t.fnOf f).quiesced = true ∧ ∀ q ∈ s.sqs, q.fn ≠ f := by
  unfold restoreParts at hok
  dsimp only at hok
  rcases aChecks_cases _ _ with ⟨r, hr, -, heq⟩ | ⟨hall, heq⟩
  · rw [heq] at hok
    simp only [List.mem_cons, List.not_mem_nil, or_false, aBad, aFail] at hr
    rcases hr with rfl | rfl | rfl | rfl | rfl | rfl <;> exact nomatch hok
  · rw [heq] at hok
    simp only [List.forall_mem_cons] at hall
    obtain ⟨-, hdest, -, -, hindex, -⟩ := hall
    have hnone : ∀ q ∈ s.sqs, q.fn ≠ f := by
      simp only [destBusy, Bool.or_eq_false_iff, List.any_eq_false, beq_iff_eq] at hdest
      exact hdest.1.1.1.2
    have hfree : ∀ x ∈ p.slots, ∀ y, s.slot? x.idx = some y → y.st = .free := by
      intro x hx y hy
      simp only [indexBusy, Bool.or_eq_false_iff, List.any_eq_false] at hindex
      exact (by simpa [hy] using hindex.1 x hx : x.idx < 16777216 ∧ y.st = .free).2
    cases hplace : placeSqs f d (p.pairs.filter prHasSq) s with
    | none => rw [hplace] at hok; exact nomatch hok
    | some u =>
      rw [hplace] at hok
      injection hok with _ _ ht
      subst ht
      have hput := restored_restoreFn p.inst (restored_putCtxs (d := d) (l := p.ctxs) (restored_putSlots hfree ((restored_placeSqs hplace (.refl s)).to
        (t := { u with cqs := u.cqs ++ (p.pairs.filter prHasCq).map (fun r => cqRead f (((heldRead u p.held).filter
          (fun h => ((u.sq? f h.1).map (fun x => x.cq)).getD 0xFFFF == prId r)).map (fun h => h.2)) r), nextJob := u.nextJob + p.held.length })))) hpage
      exact ⟨hput.1, hput.2, hnone⟩

/-- Settles O26: each command's checks pass in turn; a restore touches only indices that were free. -/
theorem instanceCommandsActOnTheirInstance : Obligations.InstanceCommandsActOnTheirInstance := by
  refine ⟨⟨fun e a s t n inl => adminSliceCreate_ok, fun kind e a s n x y hn hmode hlimit hx hy hreset => ?_, adminSliceReset_fails,
    fun n tag x s hx hreset hpf1 hwaits => ⟨_, exec_functionResetComplete _ s, resetComplete_destroys hx hreset hpf1 hwaits⟩⟩,
    ⟨fun e a s f => adminQuiesce_of_idle, fun f s hq hd => ?_, fun f s hd => ?_, fun e a s hword hmode => ⟨?_, ?_, by unfold adminDirtyEnable; exact onInstance_of_modeBad hmode⟩⟩,
    fun e a s f x hf hmode hinst hx => ⟨adminDirtyEnable_starts hf hmode hinst hx, fun hrange hfailed hdue => ?_, fun hrange hfailed hdue off => ?_,
      fun hrange hfailed off => ?_⟩,
    fun e a s f d k b n hf hmode hinst hd hquiet hpol hk hn hb => ?_, fun e a s f hf hmode hinst hpage => ⟨adminSave_of_running hf hmode hinst, fun b hb hc => ?_,
      fun b k hb hc ho => ?_, fun n inl t hok => ?_⟩⟩
  · subst hn
    exact adminSliceReset_of_slice hmode hlimit hx hy hreset
  · simp [exec_quiesceDrained, quiesceDone, hq, hd]
  · simp [exec_quiesceDrained, quiesceDone, hd]
  · unfold adminQuiesce
    rw [aChecks_pass (by simpa using hword), aChecks_nil, onInstance_of_modeBad hmode]
  · unfold adminResume
    rw [aChecks_pass (by simpa using hword), aChecks_nil, onInstance_of_modeBad hmode]
  · rw [adminDirtyEnd_eq hf hmode hinst hx hrange, adminDirtyEnd_eq hf hmode hinst hx hrange, hfailed]
    refine ⟨?_, ?_⟩
    · exact (dirtyWait_idle hdue).trans (by rw [hfailed]; rfl)
    · exact (dirtyWait_idle hdue).trans (by rw [hfailed]; rfl)
  · rw [adminDirtyEnd_eq hf hmode hinst hx hrange, hfailed]
    exact dirtyWait_due hdue
  · rw [adminDirtyEnd_eq hf hmode hinst hx hrange, hfailed]
    rfl
  · subst hn hb
    rw [adminSave_eq hf hmode hinst hd hquiet hpol hk]
    exact ⟨toBuf_of_room, toBuf_of_small, take_instanceBlob _ _ _ _ _ _ _⟩
  · rw [adminRestore_eq hf hmode hinst, hb]
    simp only [restoreBlob, hc]
    rfl
  · rw [adminRestore_eq hf hmode hinst, hb]
    simp only [restoreBlob, hc, ho]
    rfl
  · rw [adminRestore_eq hf hmode hinst] at hok
    cases hb : fromBuf a (aBufLen e) with
    | none => rw [hb] at hok; exact nomatch hok
    | some b =>
      rw [hb] at hok
      unfold restoreBlob at hok
      dsimp only at hok
      split at hok
      · exact nomatch hok
      · split at hok
        · exact nomatch hok
        · obtain ⟨hparts, hquiet, hnone⟩ := restoreParts_ok hok hpage
          exact ⟨hquiet, hnone, hparts.sqs, hparts.jobs, hparts.slots⟩

end Sys2Proof.Machine

/-! PROOFS. The engines' modular arithmetic: command words and single commands (R345 to R348). -/

namespace Sys2Proof.Machine

set_option Elab.async false -- as in Laws: the one text has more theorems than threads

/-! ## Powers and inverses -/

theorem modPowLoop_lt {m : Nat} (n acc b e : Nat) (hacc : acc < m) : modPowLoop m n acc b e < m := by
  induction n generalizing acc b e with
  | zero => exact hacc
  | succ n ih =>
    unfold modPowLoop
    refine ih _ _ _ ?_
    split
    · exact Nat.mod_lt _ (Nat.zero_lt_of_lt hacc)
    · exact hacc

/-- The loop multiplies `acc` by the power that the low `n` bits of `e` name. -/
theorem modPowLoop_mod {m : Nat} (n acc b e : Nat) : modPowLoop m n acc b e % m = acc * b ^ (e % 2 ^ n) % m := by
  induction n generalizing acc b e with
  | zero => rw [modPowLoop, Nat.pow_zero, Nat.mod_one, Nat.pow_zero, Nat.mul_one]
  | succ n ih =>
    have hbits : e % 2 ^ (n + 1) = e % 2 + 2 * (e / 2 % 2 ^ n) := by rw [Nat.pow_succ', Nat.mod_mul]
    have hsquare : (b * b % m) ^ (e / 2 % 2 ^ n) % m = b ^ (2 * (e / 2 % 2 ^ n)) % m := by
      rw [Nat.pow_mul, Nat.pow_two, ← Nat.pow_mod]
    rw [modPowLoop, ih, hbits, Nat.pow_add, ← Nat.mul_assoc, Nat.mul_mod, hsquare, ← Nat.mul_mod]
    rcases Nat.mod_two_eq_zero_or_one e with h | h
    · simp [h]
    · simp [h, Nat.mod_mul_mod]

theorem modPow_eq {m : Nat} (b e : Nat) (hm : 1 < m) : modPow b e m = b ^ e % m := by
  have hbits : e % 2 ^ (Nat.log2 e + 1) = e := Nat.mod_eq_of_lt Nat.lt_log2_self
  have hlt : modPow b e m < m := modPowLoop_lt _ _ _ _ (by rwa [Nat.mod_eq_of_lt hm])
  rw [← Nat.mod_eq_of_lt hlt, modPow, modPowLoop_mod, hbits, Nat.mod_eq_of_lt hm, Nat.one_mul, ← Nat.pow_mod]

/-- Two steps of Euclid's loop at least halve the larger number, so its fuel suffices. -/
theorem egcdLoop_gcd (k : Nat) : ∀ (fuel r0 r1 : Nat) (t0 t1 : Int), r1 < r0 → r0 < 2 ^ k → 2 * k ≤ fuel → (egcdLoop fuel r0 r1 t0 t1).1 = Nat.gcd r0 r1 := by
  induction k with
  | zero => intro fuel r0 r1 t0 t1 hlt hbound hfuel; omega
  | succ k ih =>
    intro fuel r0 r1 t0 t1 hlt hbound hfuel
    obtain ⟨g, rfl⟩ : ∃ g, fuel = g + 2 := ⟨fuel - 2, by omega⟩
    by_cases h1 : r1 = 0
    · simp [egcdLoop, h1]
    · have hrem : r0 % r1 < r1 := Nat.mod_lt _ (Nat.pos_of_ne_zero h1)
      have hgcd : Nat.gcd r0 r1 = Nat.gcd r1 (r0 % r1) := by rw [Nat.gcd_comm r0 r1, Nat.gcd_rec, Nat.gcd_comm]
      by_cases h2 : r0 % r1 = 0
      · simp [egcdLoop, h1, h2, hgcd]
      · have hhalf : 2 * (r0 % r1) < r0 := by
          have hdiv := Nat.div_add_mod r0 r1
          have hquot : 1 ≤ r0 / r1 := Nat.div_pos (Nat.le_of_lt hlt) (Nat.pos_of_ne_zero h1)
          have hone : r1 ≤ r1 * (r0 / r1) := Nat.le_mul_of_pos_right r1 hquot
          omega
        have hgcd2 : Nat.gcd r1 (r0 % r1) = Nat.gcd (r0 % r1) (r1 % (r0 % r1)) := by rw [Nat.gcd_comm r1, Nat.gcd_rec, Nat.gcd_comm]
        simp only [egcdLoop, beq_iff_eq, h1, h2, if_false]
        rw [ih g _ _ _ _ (Nat.mod_lt _ (Nat.pos_of_ne_zero h2)) (by rw [Nat.pow_succ] at hbound; omega) (by omega), hgcd, hgcd2]

/-- Each remainder of the loop is its coefficient times `a`, modulo `m`. -/
theorem egcdLoop_coefficient {a m : Int} (fuel : Nat) : ∀ (r0 r1 : Nat) (t0 t1 : Int), m ∣ t0 * a - r0 → m ∣ t1 * a - r1 →
    m ∣ (egcdLoop fuel r0 r1 t0 t1).2 * a - (egcdLoop fuel r0 r1 t0 t1).1 := by
  induction fuel with
  | zero => exact fun _ _ _ _ h0 _ => h0
  | succ f ih =>
    intro r0 r1 t0 t1 h0 h1
    unfold egcdLoop
    split
    · exact h0
    · refine ih _ _ _ _ h1 ?_
      have hrem : ((r0 % r1 : Nat) : Int) = r0 - (r0 / r1 : Nat) * r1 := by
        rw [Int.natCast_emod, Int.emod_def, Int.natCast_ediv, Int.mul_comm]
      have hstep : (t0 - (r0 / r1 : Nat) * t1) * a - ((r0 % r1 : Nat) : Int) = (t0 * a - r0) - (r0 / r1 : Nat) * (t1 * a - r1) := by
        rw [hrem, Int.sub_mul, Int.mul_sub, Int.mul_assoc]
        omega
      rw [hstep]
      exact Int.dvd_sub h0 (Int.dvd_mul_of_dvd_right h1)

theorem egcd_gcd {m : Nat} (a : Nat) (hm : 1 < m) : (egcd a m).1 = Nat.gcd a m := by
  rw [egcd, egcdLoop_gcd (Nat.log2 m + 2) _ _ _ _ _ (Nat.mod_lt _ (by omega)) (Nat.lt_trans Nat.lt_log2_self (Nat.pow_lt_pow_right (by omega) (by omega))) (Nat.le_refl _),
    Nat.gcd_comm, ← Nat.gcd_rec, Nat.gcd_comm]

theorem egcd_coefficient (a m : Nat) : (m : Int) ∣ (egcd a m).2 * a - (egcd a m).1 := by
  refine egcdLoop_coefficient _ _ _ _ _ ?_ ?_
  · rw [Int.zero_mul, Int.zero_sub]
    exact Int.dvd_neg.2 (Int.dvd_refl _)
  · rw [Int.one_mul, Int.natCast_emod]
    exact Int.dvd_self_sub_emod

theorem modInv?_some {a m d : Nat} (hm : 1 < m) (h : modInv? a m = some d) : d < m ∧ a * d % m = 1 := by
  unfold modInv? at h
  dsimp only at h
  split at h
  · next hone =>
    rw [beq_iff_eq] at hone
    have hpos : (0 : Int) < m := by omega
    have hnonneg : 0 ≤ (egcd a m).2 % (m : Int) := Int.emod_nonneg _ (by omega)
    have hd : (d : Int) = (egcd a m).2 % (m : Int) := by rw [← Option.some.inj h, Int.toNat_of_nonneg hnonneg]
    have hlt : (d : Int) < m := hd ▸ Int.emod_lt_of_pos _ hpos
    have hcoef := egcd_coefficient a m
    rw [hone] at hcoef
    have hinv : ((a * d % m : Nat) : Int) = 1 := by
      rw [Int.natCast_emod, Int.natCast_mul, hd, Int.mul_emod, Int.emod_emod, ← Int.mul_emod, Int.mul_comm, Int.emod_eq_emod_iff_emod_sub_eq_zero.2 (Int.emod_eq_zero_of_dvd hcoef)]
      exact Int.emod_eq_of_lt (by decide) (by omega)
    exact ⟨by omega, by omega⟩
  · exact nomatch h

theorem modInv?_none {a m : Nat} (hm : 1 < m) (h : modInv? a m = none) : Nat.gcd a m ≠ 1 := by
  intro hgcd
  rw [← egcd_gcd a hm] at hgcd
  simp [modInv?, hgcd] at h

/-! ## The commands' results -/

/-- The operation of a command, by its code (R346). -/
def maeOp (op w a b m : Nat) : Option Nat :=
  match op with
  | 1 => some ((a + b) % m)
  | 2 => some (modSub a b m)
  | 3 => some (a * b % m)
  | 4 => some (a * a % m)
  | 5 => modInv? a m
  | _ => some (modPow a (b % 2 ^ (64 * w)) m)

/-- A command whose operands pass validation answers its operation. -/
theorem maeResult_of_valid {op w a b m : Nat} (hm : 1 < m) (ha : a < m) (hb : op = 1 ∨ op = 2 ∨ op = 3 → b < m) (hodd : 3 ≤ op → m % 2 = 1) :
    maeResult op w a b m = maeOp op w a b m := by
  unfold maeResult
  dsimp only
  rw [if_neg]
  · rfl
  · simp only [Bool.or_eq_true, decide_eq_true_eq, Bool.and_eq_true, beq_iff_eq, Bool.not_eq_true', beq_eq_false_iff_ne, ne_eq, or_assoc]
    omega

theorem maeResult_of_invalid {op w a b m : Nat} (h : m ≤ 1 ∨ m ≤ a ∨ (3 ≤ op ∧ m % 2 = 0)) : maeResult op w a b m = none := by
  unfold maeResult
  dsimp only
  rw [if_pos]
  simp only [Bool.or_eq_true, decide_eq_true_eq, Bool.and_eq_true, beq_iff_eq, Bool.not_eq_true', beq_eq_false_iff_ne, ne_eq, or_assoc]
  omega

theorem modSub_lt {a b m : Nat} (hm : 1 < m) : modSub a b m < m := Nat.mod_lt _ (by omega)

theorem modSub_add {a b m : Nat} (ha : a < m) (hb : b < m) : (modSub a b m + b) % m = a := by
  rw [modSub, Nat.mod_eq_of_lt ha, Nat.mod_eq_of_lt hb, Nat.mod_add_mod, Nat.sub_add_cancel (by omega), Nat.add_mod_right, Nat.mod_eq_of_lt ha]

/-- A result is a residue of the modulus. -/
theorem maeResult_lt {op w a b m r : Nat} (hop : 0 < op) (h : maeResult op w a b m = some r) : r < m := by
  have hm : 1 < m := Classical.byContradiction fun hle => by
    rw [maeResult_of_invalid (.inl (by omega))] at h
    exact nomatch h
  have hpos : 0 < m := by omega
  unfold maeResult at h
  dsimp only at h
  split at h
  · exact nomatch h
  · split at h
    · exact Option.some.inj h ▸ Nat.mod_lt _ hpos
    · exact Option.some.inj h ▸ modSub_lt hm
    · exact Option.some.inj h ▸ Nat.mod_lt _ hpos
    · exact Option.some.inj h ▸ Nat.mod_lt _ hpos
    · exact (modInv?_some hm h).1
    · rw [← Option.some.inj h, modPow_eq _ _ hm]
      exact Nat.mod_lt _ hpos

/-! ## Command words -/

theorem maeReg_maeSet (m : MaeMem) (r w v : Nat) : maeReg (maeSet m r w v) r = maeReg m r / 2 ^ (64 * w) * 2 ^ (64 * w) + v % 2 ^ (64 * w) := by
  have hnone : (m.regs.filter (fun x => x.1 != r)).find? (fun x => x.1 == r) = none := find?_filter_not (fun x : Nat × Nat => x.1 == r) m.regs
  simp [maeReg, maeSet, List.find?_append, hnone]

theorem maeReg_maeSet_ne (m : MaeMem) {r i : Nat} (w v : Nat) (hne : i ≠ r) : maeReg (maeSet m r w v) i = maeReg m i := by
  have hother : (m.regs.filter (fun x => x.1 != r)).find? (fun x => x.1 == i) = m.regs.find? (fun x => x.1 == i) := by
    rw [List.find?_filter]
    congr 1
    funext x
    by_cases hx : x.1 = i
    · simp [hx, hne]
    · simp [hx]
  simp [maeReg, maeSet, List.find?_append, hother, hne.symm]

theorem bitsOf_maeWord (op : Nat) (k : MaeCmd) (hop : op ≤ 6) :
    bitsOf (maeWord op k) 56 8 = op ∧ bitsOf (maeWord op k) 48 8 = k.len % 256 ∧ bitsOf (maeWord op k) 40 7 = k.dst % 128 ∧
      bitsOf (maeWord op k) 32 7 = k.a % 128 ∧ bitsOf (maeWord op k) 24 7 = k.b % 128 ∧ bitsOf (maeWord op k) 16 7 = k.m % 128 := by
  simp only [bitsOf, maeWord]
  omega

/-- A command word of an operation, on an engine that has not ended. -/
theorem maeCommand_maeWord {m : MaeMem} {op : Nat} (k : MaeCmd) (hrun : m.ended = false) (hlow : 0 < op) (hhigh : op ≤ 6) :
    maeCommand m (maeWord op k) =
      match maeResult op (k.len % 256 + 1) (maeReg m (k.a % 128) % 2 ^ (64 * (k.len % 256 + 1))) (maeReg m (k.b % 128) % 2 ^ (64 * (k.len % 256 + 1)))
        (maeReg m (k.m % 128) % 2 ^ (64 * (k.len % 256 + 1))) with
      | some r => maeSet m (k.dst % 128) (k.len % 256 + 1) r
      | none => { m with rejected := true } := by
  obtain ⟨hcode, hlen, hdst, ha, hb, hm⟩ := bitsOf_maeWord op k hhigh
  unfold maeCommand
  simp only [hcode, hlen, hdst, ha, hb, hm, hrun, Bool.false_eq_true, if_false, beq_iff_eq, Nat.pos_iff_ne_zero.1 hlow] <;> rfl

theorem maeCommand_end {m : MaeMem} (k : MaeCmd) (hrun : m.ended = false) : maeCommand m (maeWord 0 k) = { m with ended := true } := by
  unfold maeCommand
  simp [(bitsOf_maeWord 0 k (by omega)).1, hrun]

theorem maeCommand_ended {m : MaeMem} (w : Nat) (h : m.ended = true) : maeCommand m w = m := by
  unfold maeCommand
  simp [h]

theorem maeExec_of_running {op m id : Nat} {e : MaeMem} {j : Job} {s : State} (k : MaeCmd) (he : s.mae[m]? = some e) (hjob : e.job = some id) (hj : s.job? id = some j)
    (hphase : j.phase = .running) (hop : dOp j.desc = 0x2310) : maeExec op m k s = { s with mae := modAt s.mae m (fun y => maeCommand y (maeWord op k)) } := by
  simp [maeExec, he, hjob, hj, hphase, hop]

theorem exec_maeRows (m : Nat) (k : MaeCmd) (s : State) :
    exec (.maeEnd m k) s = .next (maeExec 0 m k s) ∧ exec (.maeAdd m k) s = .next (maeExec 1 m k s) ∧ exec (.maeSub m k) s = .next (maeExec 2 m k s) ∧
      exec (.maeMul m k) s = .next (maeExec 3 m k s) ∧ exec (.maeSqr m k) s = .next (maeExec 4 m k s) ∧ exec (.maeInv m k) s = .next (maeExec 5 m k s) ∧
      exec (.maeExp m k) s = .next (maeExec 6 m k s) := ⟨rfl, rfl, rfl, rfl, rfl, rfl, rfl⟩

/-! ## Single commands -/

theorem svcRaw_eq (op : Nat) (j : Job) (inp : Bytes) (s : State) : svcRaw op j inp s =
    match maeResult op (dParam j.desc) (beNat (sliceOf inp (8 * dParam j.desc) (8 * dParam j.desc))) (beNat (sliceOf inp (8 * dParam j.desc * 2) (8 * dParam j.desc)))
      (beNat (sliceOf inp 0 (8 * dParam j.desc))) with
    | some r => ({ staged := beBytes (8 * dParam j.desc) r }, s)
    | none => (rejected, s) := by
  unfold svcRaw
  simp only [Nat.mul_one, Nat.mul_zero] <;> rfl

theorem maeResult_linear {w a b m : Nat} (hm : 1 < m) (ha : a < m) (hb : b < m) :
    maeResult 1 w a b m = some ((a + b) % m) ∧ ∃ d, maeResult 2 w a b m = some d ∧ d < m ∧ (d + b) % m = a :=
  ⟨maeResult_of_valid hm ha (fun _ => hb) (by omega), _, maeResult_of_valid hm ha (fun _ => hb) (by omega), modSub_lt hm, modSub_add ha hb⟩

theorem maeResult_odd {w a b m : Nat} (hm : 1 < m) (ha : a < m) (hodd : m % 2 = 1) :
    (b < m → maeResult 3 w a b m = some (a * b % m)) ∧ maeResult 4 w a b m = some (a * a % m) ∧
      (b < 2 ^ (64 * w) → maeResult 6 w a b m = some (a ^ b % m)) ∧ (∀ d, maeResult 5 w a b m = some d → d < m ∧ a * d % m = 1) ∧
      (maeResult 5 w a b m = none → Nat.gcd a m ≠ 1) := by
  have hinv : maeResult 5 w a b m = modInv? a m := maeResult_of_valid hm ha (by omega) (fun _ => hodd)
  refine ⟨fun hb => maeResult_of_valid hm ha (fun _ => hb) (fun _ => hodd), maeResult_of_valid hm ha (by omega) (fun _ => hodd), fun hb => ?_,
    fun d hd => modInv?_some hm (hinv.symm.trans hd), fun hnone => modInv?_none hm (hinv.symm.trans hnone)⟩
  refine (maeResult_of_valid hm ha (by omega) (fun _ => hodd)).trans ?_
  show some (modPow a (b % 2 ^ (64 * w)) m) = _
  rw [Nat.mod_eq_of_lt hb, modPow_eq _ _ hm]

/-- Settles O30: the command words by their fields, the results by modular arithmetic, the inverse by Euclid's loop. -/
theorem engineWordsAndModularCommandsCompute : Obligations.EngineWordsAndModularCommandsCompute := by
  refine ⟨fun m id k e j s he hjob hj hphase hop => ?_, fun m op w a b q k hrun hlow hhigh hw ha hb hq => ⟨fun r hr => ?_, fun hnone => ?_⟩,
    fun m k w => ⟨maeCommand_end k, maeCommand_ended w⟩,
    ⟨fun w a b m hm ha => ⟨maeResult_linear hm ha, maeResult_odd hm ha, fun heven => ?_⟩, fun op w a b m h => maeResult_of_invalid (by omega),
      fun op j inp s w hw => ⟨fun r hr => ?_, fun hnone => ?_⟩⟩⟩
  · have hexec := fun op => maeExec_of_running (op := op) k he hjob hj hphase hop
    obtain ⟨h0, h1, h2, h3, h4, h5, h6⟩ := exec_maeRows m k s
    rw [hexec] at h0 h1 h2 h3 h4 h5 h6
    exact ⟨h0, h1, h2, h3, h4, h5, h6⟩
  · subst hw ha hb hq
    have hlt : r < 2 ^ (64 * (k.len % 256 + 1)) := Nat.lt_trans (maeResult_lt hlow hr) (Nat.mod_lt _ (Nat.two_pow_pos _))
    rw [maeCommand_maeWord k hrun hlow hhigh, hr]
    refine ⟨?_, ?_, fun i hi => maeReg_maeSet_ne m _ _ hi, rfl⟩
    · rw [maeReg_maeSet, Nat.mul_add_mod_of_lt (Nat.mod_lt _ (Nat.two_pow_pos _)), Nat.mod_eq_of_lt hlt]
    · rw [maeReg_maeSet, Nat.mod_eq_of_lt hlt, Nat.add_comm, Nat.add_mul_div_right _ _ (Nat.two_pow_pos _), Nat.div_eq_of_lt hlt, Nat.zero_add]
  · subst hw ha hb hq
    rw [maeCommand_maeWord k hrun hlow hhigh, hnone]
  · exact ⟨maeResult_of_invalid (by omega), maeResult_of_invalid (by omega), maeResult_of_invalid (by omega), maeResult_of_invalid (by omega)⟩
  · subst hw
    rw [svcRaw_eq, hr]
  · subst hw
    rw [svcRaw_eq, hnone]
    rfl

end Sys2Proof.Machine

/-! PROOFS. Services of keys held elsewhere leave all but the count of free values (R273, R380). -/

namespace Sys2Proof.Machine

set_option Elab.async false -- as in Laws: the one text has more theorems than threads

/-- The two states differ at most in the count of free values, which does not fall. -/
def OnlyDraws (s t : State) : Prop := t = { s with free := t.free } ∧ s.free ≤ t.free

theorem OnlyDraws.refl (s : State) : OnlyDraws s s := ⟨rfl, Nat.le_refl _⟩

theorem OnlyDraws.trans {a b c : State} (h : OnlyDraws a b) (k : OnlyDraws b c) : OnlyDraws a c := by
  refine ⟨?_, Nat.le_trans h.2 k.2⟩
  rw [k.1, h.1]

theorem onlyDraws_drawBytes (n : Nat) (s : State) : OnlyDraws s (drawBytes n s).2 := ⟨rfl, Nat.le_add_right _ _⟩

/-- What a service answers does not matter to the state. -/
theorem onlyDraws_ite {c : Prop} [Decidable c] {s : State} {x y : Result × State} (hx : OnlyDraws s x.2) (hy : OnlyDraws s y.2) : OnlyDraws s (if c then x else y).2 := by
  split
  · exact hx
  · exact hy

theorem onlyDraws_jobRandom (j : Job) (n : Nat) (s : State) : OnlyDraws s (jobRandom j n s).2 := by
  unfold jobRandom
  split
  · exact onlyDraws_drawBytes _ _
  · exact .refl s

theorem onlyDraws_mcErrors (x : McSet) (n : Nat) (s : State) : OnlyDraws s (mcErrors x n s).2 := by
  induction n generalizing s with
  | zero => exact .refl s
  | succ n ih =>
    unfold mcErrors
    dsimp only
    split
    · exact onlyDraws_drawBytes _ _
    · exact (onlyDraws_drawBytes _ _).trans (ih _)

theorem onlyDraws_codeEncaps (ps : Nat) (pk : Bytes) (s : State) : OnlyDraws s (codeEncaps ps pk s).2 := by
  unfold codeEncaps
  split
  · exact onlyDraws_mcErrors _ _ _
  · exact onlyDraws_drawBytes _ _

theorem onlyDraws_ecdsaDraw (c : PCurve) (d : Nat) (digest : Bytes) (n : Nat) (s : State) : OnlyDraws s (ecdsaDraw c d digest n s).2 := by
  induction n generalizing s with
  | zero => exact .refl s
  | succ n ih =>
    unfold ecdsaDraw
    dsimp only
    split
    · exact (onlyDraws_drawBytes _ _).trans (ih _)
    · exact onlyDraws_drawBytes _ _

/-! ## The services -/

section
variable (j : Job) (inp : Bytes) (s : State)

theorem onlyDraws_svcMlKemEncaps : OnlyDraws s (svcMlKemEncaps j inp s).2 :=
  onlyDraws_ite (onlyDraws_drawBytes 32 s) (onlyDraws_drawBytes 32 s)

theorem onlyDraws_svcMlKemDecaps : OnlyDraws s (svcMlKemDecaps j inp s).2 := onlyDraws_ite (.refl s) (.refl s)

theorem onlyDraws_svcMlDsaSign (hashed : Bool) : OnlyDraws s (svcMlDsaSign hashed j inp s).2 := by
  unfold svcMlDsaSign
  dsimp only
  split
  · exact .refl s
  · exact onlyDraws_jobRandom _ _ _

theorem onlyDraws_svcMlDsaVerify (hashed : Bool) : OnlyDraws s (svcMlDsaVerify hashed j inp s).2 := by
  unfold svcMlDsaVerify
  dsimp only
  split <;> exact .refl s

theorem onlyDraws_svcSlhDsaSign (hashed : Bool) : OnlyDraws s (svcSlhDsaSign hashed j inp s).2 := by
  unfold svcSlhDsaSign
  dsimp only
  split
  · exact .refl s
  · exact onlyDraws_drawBytes _ _

theorem onlyDraws_svcSlhDsaVerify (hashed : Bool) : OnlyDraws s (svcSlhDsaVerify hashed j inp s).2 := by
  unfold svcSlhDsaVerify
  split <;> exact .refl s

theorem onlyDraws_svcCodeEncaps : OnlyDraws s (svcCodeEncaps j inp s).2 :=
  onlyDraws_ite (onlyDraws_codeEncaps _ _ _) (onlyDraws_codeEncaps _ _ _)

theorem onlyDraws_svcRsaVerify : OnlyDraws s (svcRsaVerify j inp s).2 := onlyDraws_ite (.refl s) (.refl s)

theorem onlyDraws_svcRsaDecrypt : OnlyDraws s (svcRsaDecrypt j inp s).2 := by
  unfold svcRsaDecrypt
  refine onlyDraws_ite (.refl s) (onlyDraws_ite (.refl s) ?_)
  split <;> exact .refl s

theorem onlyDraws_svcRsaEncrypt : OnlyDraws s (svcRsaEncrypt j inp s).2 :=
  onlyDraws_ite (onlyDraws_drawBytes _ s) (onlyDraws_drawBytes _ s)

theorem onlyDraws_svcEcdsaSign : OnlyDraws s (svcEcdsaSign j inp s).2 := by
  unfold svcEcdsaSign
  split
  · exact .refl s
  · exact onlyDraws_ecdsaDraw _ _ _ _ _

theorem onlyDraws_svcEcdsaVerify : OnlyDraws s (svcEcdsaVerify j inp s).2 := by
  unfold svcEcdsaVerify
  split
  · exact .refl s
  · dsimp only
    split
    · exact .refl s
    · exact onlyDraws_ite (.refl s) (.refl s)

theorem onlyDraws_svcEdVerify : OnlyDraws s (svcEdVerify j inp s).2 := by
  unfold svcEdVerify
  dsimp only
  split <;> exact .refl s

theorem onlyDraws_svcRaw (op : Nat) : OnlyDraws s (svcRaw op j inp s).2 := by
  unfold svcRaw
  dsimp only
  split <;> exact .refl s

end

/-! ## Verdicts -/

/-- A verification's answer is one of two. -/
def IsVerdict (r : Result) : Prop := (r.status = .ok ∧ r.inline = verdictWords true) ∨ (r.status = .verifyFailed ∧ r.inline = verdictWords false)

theorem isVerdict (ok : Bool) : IsVerdict (verdict ok) := by
  cases ok
  · exact .inr ⟨rfl, rfl⟩
  · exact .inl ⟨rfl, rfl⟩

theorem isVerdict_svcMlDsaVerify (hashed : Bool) (j : Job) (inp : Bytes) (s : State) : IsVerdict (svcMlDsaVerify hashed j inp s).1 := by
  unfold svcMlDsaVerify
  dsimp only
  split <;> exact isVerdict _

theorem isVerdict_svcSlhDsaVerify (hashed : Bool) (j : Job) (inp : Bytes) (s : State) : IsVerdict (svcSlhDsaVerify hashed j inp s).1 := by
  unfold svcSlhDsaVerify
  split <;> exact isVerdict _

/-- Settles O31: each service's state is its argument, or what its draws leave; each verification answers a verdict. -/
theorem servicesOnlyDrawRandomness : Obligations.ServicesOnlyDrawRandomness := by
  refine ⟨fun f hf j inp s => ?_, by decide, by decide, fun f j inp s hf => ?_⟩
  · show OnlyDraws s (f j inp s).2
    simp only [List.mem_cons, List.not_mem_nil, or_false] at hf
    rcases hf with rfl | rfl | rfl | rfl | rfl | rfl | rfl | rfl | rfl | rfl | rfl | rfl | rfl | rfl | rfl | rfl | rfl | rfl | rfl | rfl | rfl | rfl | rfl | rfl |
      rfl | rfl | rfl | rfl | rfl | rfl | rfl
    · exact onlyDraws_svcMlKemEncaps j inp s
    · exact onlyDraws_svcMlKemDecaps j inp s
    · exact onlyDraws_svcMlDsaSign j inp s false
    · exact onlyDraws_svcMlDsaSign j inp s true
    · exact onlyDraws_svcMlDsaVerify j inp s false
    · exact onlyDraws_svcMlDsaVerify j inp s true
    · exact onlyDraws_svcSlhDsaSign j inp s false
    · exact onlyDraws_svcSlhDsaSign j inp s true
    · exact onlyDraws_svcSlhDsaVerify j inp s false
    · exact onlyDraws_svcSlhDsaVerify j inp s true
    · exact .refl s
    · exact onlyDraws_svcCodeEncaps j inp s
    · exact .refl s
    · exact onlyDraws_drawBytes _ s
    · exact onlyDraws_svcRsaVerify j inp s
    · exact onlyDraws_svcRsaDecrypt j inp s
    · exact onlyDraws_svcRsaEncrypt j inp s
    · exact onlyDraws_svcEcdsaSign j inp s
    · exact onlyDraws_svcEcdsaVerify j inp s
    · exact .refl s
    · exact onlyDraws_svcEdVerify j inp s
    · exact onlyDraws_svcRaw j inp s 1
    · exact onlyDraws_svcRaw j inp s 2
    · exact onlyDraws_svcRaw j inp s 3
    · exact onlyDraws_svcRaw j inp s 4
    · exact onlyDraws_svcRaw j inp s 5
    · exact onlyDraws_svcRaw j inp s 6
    · exact .refl s
    · exact .refl s
    · exact .refl s
    · exact .refl s
  · simp only [List.mem_cons, List.not_mem_nil, or_false] at hf
    rcases hf with rfl | rfl | rfl | rfl
    · exact isVerdict_svcMlDsaVerify false j inp s
    · exact isVerdict_svcSlhDsaVerify false j inp s
    · exact isVerdict _
    · exact isVerdict _

end Sys2Proof.Machine

/-! PROOFS. The instructions of the vector clusters as rows, and the results of the scalar and control instructions (R393 to R412). -/

namespace Sys2Proof.Machine

set_option Elab.async false -- as in Laws: the one text has more theorems than threads

/-! ## Every instruction is a row -/

theorem haltAgain_of_other {n : Nat} {j : Job} {s : State} (h : s.dbg.halted ≠ some j.id) : haltAgain n j s = s := by
  unfold haltAgain
  rw [if_neg (by simpa using h)]

/-- An instruction that the word spells runs on the cluster's job. -/
theorem vccRun_of_ready {n : Nat} {random : VccIn → Bool} {f : VccIn → VOut} {s : State} {cl : Cluster} {r : Resid} {j : Job} (hready : vccReady n s = some (cl, r, j))
    (hrandom : random (seenBy s cl r) = true → s.sc.drbgOn = true) : vccRun n random f s = endInstr n j (seenBy s cl r) (f (seenBy s cl r)) s := by
  unfold vccRun
  rw [hready]
  refine if_neg fun h => ?_
  rw [Bool.and_eq_true, Bool.not_eq_true'] at h
  exact absurd (hrandom h.1) (by simp [h.2])

/-- An instruction that runs one effect under its word is a row of that effect. -/
theorem vccRow_of {c : Nat → Instr} {w : CodeWord} {random : VccIn → Bool} {f : VccIn → VOut} (hexec : ∀ n s, exec (c n) s = .next (onWord n w (vccRun n random f) s)) :
    VccRow c w random f := by
  intro n s₀ s cl r j hready hhalt hspell hrandom hs
  have hrun : exec (c n) s₀ = .next (endInstr n j (seenBy s₀ cl r) (f (seenBy s₀ cl r)) s₀) := by
    rw [hexec, onWord, if_pos hspell, vccRun_of_ready hready hrandom]
  have hdbg : s.dbg.halted ≠ some j.id := by rwa [hs, drawMask_dbg]
  rw [hrun, endInstr]
  subst hs
  dsimp only
  refine ⟨fun hpeer hfin => ?_, fun p hpeer hfin => ?_, fun pc hpeer hfin => ?_, fun k e t hfin => ?_⟩
  · rw [hfin, hpeer]
    exact congrArg _ (haltAgain_of_other hdbg)
  · rw [hfin, hpeer]
    exact congrArg _ (haltAgain_of_other hdbg)
  · rw [hfin, hpeer]
    exact congrArg _ (haltAgain_of_other hdbg)
  · rw [hfin]

/-- Settles O32: each instruction is a row of its effect. -/
theorem registerInstructionsRetire : Obligations.RegisterInstructionsRetire := by
  unfold Obligations.RegisterInstructionsRetire
  and_intros <;> intros <;> exact vccRow_of fun _ _ => rfl

/-- Settles O33: each instruction is a row of its effect. -/
theorem otherInstructionsRetire : Obligations.OtherInstructionsRetire := by
  unfold Obligations.OtherInstructionsRetire
  and_intros <;> intros <;> exact vccRow_of fun _ _ => rfl

end Sys2Proof.Machine

/-! PROOFS. The results of the scalar, system and control instructions (R393 to R411). -/

namespace Sys2Proof.Machine

set_option Elab.async false -- as in Laws: the one text has more theorems than threads

/-! ## Scalar registers -/

theorem gWrite_zero (v : BitVec 64) (t : Bool) (r : RegSave) : gWrite 0 v t r = r := rfl

theorem getD_modAt_same {α : Type} (l : List α) (i : Nat) (g : α → α) (d : α) (h : i < l.length) : (modAt l i g).getD i d = g (l.getD i d) := by
  induction l generalizing i with
  | nil => exact absurd h (Nat.not_lt_zero _)
  | cons x l ih =>
    cases i with
    | zero => rfl
    | succ i => exact ih i (Nat.lt_of_succ_lt_succ h)

theorem getD_modAt_ne {α : Type} (l : List α) {i k : Nat} (g : α → α) (d : α) (h : k ≠ i) : (modAt l i g).getD k d = l.getD k d := by
  induction l generalizing i k with
  | nil => rfl
  | cons x l ih =>
    cases i with
    | zero =>
      cases k with
      | zero => exact absurd rfl h
      | succ k => rfl
    | succ i =>
      cases k with
      | zero => rfl
      | succ k => exact ih fun e => h (congrArg _ e)

theorem gRead_gWrite_same {i : Nat} (v : BitVec 64) (t : Bool) {r : RegSave} (hi : i ≠ 0) (hlen : i < r.g.length) : gRead (gWrite i v t r) i = v := by
  have hi : (i == 0) = false := by simpa using hi
  simp only [gRead, gWrite, hi]
  exact getD_modAt_same r.g i (fun _ => v) 0 hlen

theorem gRead_gWrite_ne {i k : Nat} (v : BitVec 64) (t : Bool) (r : RegSave) (h : k ≠ i) : gRead (gWrite i v t r) k = gRead r k := by
  unfold gWrite
  split
  · rfl
  · exact congrArg (if k == 0 then 0 else ·) (getD_modAt_ne r.g (fun _ => v) 0 h)

/-! ## What an instruction of an effect does -/

section
variable {c : Nat → Instr} {w : CodeWord} {random : VccIn → Bool} {f : VccIn → VOut} {n : Nat} {s : State} {cl : Cluster} {r : Resid} {j : Job}

/-- An effect on registers alone. -/
theorem VccRow.regs {g : RegSave} (hrow : VccRow c w random f) (hready : vccReady n s = some (cl, r, j)) (hhalt : s.dbg.halted ≠ some j.id) (hspell : spells n w s = true)
    (hrandom : random (seenBy s cl r) = false) (hf : f (seenBy s cl r) = (seenBy s cl r).regs g) : exec (c n) s = .next (retired n { cl with regs := g } (cl.pc + 1) s) := by
  have h := (hrow n s s cl r j hready hhalt hspell (fun h => absurd (hrandom.symm.trans h) Bool.false_ne_true) (by rw [hf]; rfl)).1
  rw [hf] at h
  exact h rfl rfl

/-- An effect that leaves the cluster and goes to a word. -/
theorem VccRow.goto {pc : Nat} {g : Cluster} (hrow : VccRow c w random f) (hready : vccReady n s = some (cl, r, j)) (hhalt : s.dbg.halted ≠ some j.id) (hspell : spells n w s = true)
    (hrandom : random (seenBy s cl r) = false) (hf : f (seenBy s cl r) = { cl := g, free := s.free, fin := .goto pc }) : exec (c n) s = .next (retired n g pc s) := by
  have h := (hrow n s s cl r j hready hhalt hspell (fun h => absurd (hrandom.symm.trans h) Bool.false_ne_true) (by rw [hf]; rfl)).2.2.1 pc
  rw [hf] at h
  exact h rfl rfl

/-- An effect stopped by a secret where none may go. -/
theorem VccRow.secret (hrow : VccRow c w random f) (hready : vccReady n s = some (cl, r, j)) (hhalt : s.dbg.halted ≠ some j.id) (hspell : spells n w s = true)
    (hrandom : random (seenBy s cl r) = false) (hf : f (seenBy s cl r) = (seenBy s cl r).stop .secretFlow) : exec (c n) s = .next (kernelDefect n j 1 cl.pc s) := by
  have h := (hrow n s s cl r j hready hhalt hspell (fun h => absurd (hrandom.symm.trans h) Bool.false_ne_true) (by rw [hf]; rfl)).2.2.2 .secretFlow 0 0
  rw [hf] at h
  exact h rfl

end

/-! ## Scalar results -/

theorem writeG_pass {x : VccIn} {rd : Nat} {v : BitVec 64} {t : Bool} (h : t = false ∨ rd < 24) : writeG x rd v t 0 = x.regs (gWrite rd v t x.cl.regs) := by
  unfold writeG
  rw [if_neg]
  rcases h with h | h
  · simp [h]
  · simp [isAddrReg, h]

theorem scalarOp_pass {f : BitVec 64 → BitVec 64 → BitVec 64} {o : ScalarOps} {x : VccIn} (h : scalarTag x.cl.regs o = false ∨ o.rd < 24) :
    scalarOp f o x = x.regs (gWrite o.rd (f (gRead x.cl.regs o.rs1) (scalarB x.cl.regs o)) (scalarTag x.cl.regs o) x.cl.regs) := writeG_pass h

theorem scalarShift_pass {f : BitVec 64 → Nat → BitVec 64} {o : ScalarOps} {x : VccIn} (h : scalarTag x.cl.regs o = false ∨ o.rd < 24)
    (hamount : (scalarB x.cl.regs o).toNat < 64) :
    scalarShift f o x = x.regs (gWrite o.rd (f (gRead x.cl.regs o.rs1) (scalarB x.cl.regs o).toNat) (scalarTag x.cl.regs o) x.cl.regs) := by
  unfold scalarShift
  dsimp only
  rw [if_pos hamount, if_pos hamount]
  exact writeG_pass h

theorem scalarOp_stop {f : BitVec 64 → BitVec 64 → BitVec 64} {o : ScalarOps} {x : VccIn} (htag : scalarTag x.cl.regs o = true) (hrd : 24 ≤ o.rd) :
    scalarOp f o x = x.stop .secretFlow := by
  unfold scalarOp writeG
  rw [if_pos]
  simp [htag, isAddrReg, hrd]

theorem toNat_mulhu (a b : BitVec 64) : (mulhu a b).toNat = a.toNat * b.toNat / 2 ^ 64 := by
  have hlt : a.toNat * b.toNat / 2 ^ 64 < 2 ^ 64 := by
    rw [Nat.div_lt_iff_lt_mul (by decide)]
    exact Nat.mul_lt_mul'' a.isLt b.isLt
  exact (BitVec.toNat_ofNat _ _).trans (Nat.mod_eq_of_lt hlt)

theorem toInt_sra (a : BitVec 64) (k : Nat) : (a.sshiftRight k).toInt = a.toInt / 2 ^ k := by
  rw [BitVec.toInt_sshiftRight, Int.shiftRight_eq_div_pow, Int.natCast_pow]
  rfl

section
variable {n : Nat} {s : State} {cl : Cluster} {r : Resid} {j : Job} (hready : vccReady n s = some (cl, r, j)) (hhalt : s.dbg.halted ≠ some j.id)
include hready hhalt

/-- A scalar instruction whose tag may go where it writes writes the value that its words name. -/
theorem exec_scalar {o : ScalarOps} (htag : scalarTag cl.regs o = false ∨ o.rd < 24) {c : Instr} {w : CodeWord} {a b v : BitVec 64} (ha : a = gRead cl.regs o.rs1)
    (hb : b = scalarB cl.regs o)
    (hc : (c = .add n o ∧ w = .add o ∧ v = a + b) ∨ (c = .sub n o ∧ w = .sub o ∧ v = a - b) ∨ (c = .and_ n o ∧ w = .and_ o ∧ v = a &&& b) ∨
      (c = .or_ n o ∧ w = .or_ o ∧ v = a ||| b) ∨ (c = .xor_ n o ∧ w = .xor_ o ∧ v = a ^^^ b) ∨ (c = .mul n o ∧ w = .mul o ∧ v = a * b) ∨
      (c = .mulhu n o ∧ w = .mulhu o ∧ v.toNat = a.toNat * b.toNat / 2 ^ 64) ∨ (c = .sltu n o ∧ w = .sltu o ∧ v = (if a.toNat < b.toNat then 1 else 0)) ∨
      (c = .sll n o ∧ w = .sll o ∧ b.toNat < 64 ∧ v = a <<< b.toNat) ∨ (c = .srl n o ∧ w = .srl o ∧ b.toNat < 64 ∧ v = a >>> b.toNat) ∨
      (c = .sra n o ∧ w = .sra o ∧ b.toNat < 64 ∧ v.toInt = a.toInt / 2 ^ b.toNat))
    (hspell : spells n w s = true) : exec c s = .next (retired n { cl with regs := gWrite o.rd v (scalarTag cl.regs o) cl.regs } (cl.pc + 1) s) := by
  subst ha hb
  have hop := fun f => scalarOp_pass (f := f) (o := o) (x := seenBy s cl r) htag
  have hshift := fun f => scalarShift_pass (f := f) (o := o) (x := seenBy s cl r) htag
  rcases hc with ⟨rfl, rfl, rfl⟩ | ⟨rfl, rfl, rfl⟩ | ⟨rfl, rfl, rfl⟩ | ⟨rfl, rfl, rfl⟩ | ⟨rfl, rfl, rfl⟩ | ⟨rfl, rfl, rfl⟩ | ⟨rfl, rfl, hv⟩ | ⟨rfl, rfl, rfl⟩ |
    ⟨rfl, rfl, hlt, rfl⟩ | ⟨rfl, rfl, hlt, rfl⟩ | ⟨rfl, rfl, hlt, hv⟩
  · exact VccRow.regs (c := fun n => .add n o) (vccRow_of fun _ _ => rfl) hready hhalt hspell rfl (hop _)
  · exact VccRow.regs (c := fun n => .sub n o) (vccRow_of fun _ _ => rfl) hready hhalt hspell rfl (hop _)
  · exact VccRow.regs (c := fun n => .and_ n o) (vccRow_of fun _ _ => rfl) hready hhalt hspell rfl (hop _)
  · exact VccRow.regs (c := fun n => .or_ n o) (vccRow_of fun _ _ => rfl) hready hhalt hspell rfl (hop _)
  · exact VccRow.regs (c := fun n => .xor_ n o) (vccRow_of fun _ _ => rfl) hready hhalt hspell rfl (hop _)
  · exact VccRow.regs (c := fun n => .mul n o) (vccRow_of fun _ _ => rfl) hready hhalt hspell rfl (hop _)
  · obtain rfl : v = mulhu (gRead cl.regs o.rs1) (scalarB cl.regs o) := BitVec.eq_of_toNat_eq (hv.trans (toNat_mulhu _ _).symm)
    exact VccRow.regs (c := fun n => .mulhu n o) (vccRow_of fun _ _ => rfl) hready hhalt hspell rfl (hop _)
  · exact VccRow.regs (c := fun n => .sltu n o) (vccRow_of fun _ _ => rfl) hready hhalt hspell rfl (hop sltu)
  · exact VccRow.regs (c := fun n => .sll n o) (vccRow_of fun _ _ => rfl) hready hhalt hspell rfl (hshift _ hlt)
  · exact VccRow.regs (c := fun n => .srl n o) (vccRow_of fun _ _ => rfl) hready hhalt hspell rfl (hshift _ hlt)
  · obtain rfl : v = (gRead cl.regs o.rs1).sshiftRight (scalarB cl.regs o).toNat := BitVec.eq_of_toInt_eq (hv.trans (toInt_sra _ _).symm)
    exact VccRow.regs (c := fun n => .sra n o) (vccRow_of fun _ _ => rfl) hready hhalt hspell rfl (hshift _ hlt)

theorem exec_add_secret {o : ScalarOps} (htag : scalarTag cl.regs o = true) (hrd : 24 ≤ o.rd) (hspell : spells n (.add o) s = true) :
    exec (.add n o) s = .next (kernelDefect n j 1 cl.pc s) :=
  VccRow.secret (c := fun n => .add n o) (vccRow_of fun _ _ => rfl) hready hhalt hspell rfl (scalarOp_stop htag hrd)

theorem exec_setvl {rd rs1 ew : Nat} (htag : cl.regs.gTag.contains rs1 = false) (hspell : spells n (.setvl rd rs1 ew) s = true) :
    exec (.setvl n rd rs1 ew) s = .next (retired n { cl with regs := gWrite rd (BitVec.ofNat 64 (min (gRead cl.regs rs1).toNat (Config.vlen s.part / (8 * 2 ^ (ew % 4))))) false { cl.regs with vl := min (gRead cl.regs rs1).toNat (Config.vlen s.part / (8 * 2 ^ (ew % 4))), ew := ew } } (cl.pc + 1) s) :=
  VccRow.regs (c := fun n => .setvl n rd rs1 ew) (vccRow_of fun _ _ => rfl) hready hhalt hspell rfl (if_neg (by rw [tagged]; exact ne_true_of_eq_false htag))

theorem exec_csrr {rd fn : Nat} {v : BitVec 64} (hv : csrrOp rd fn (seenBy s cl r) = writeG (seenBy s cl r) rd v false 0) (hspell : spells n (.csrr rd fn) s = true) :
    exec (.csrr n rd fn) s = .next (retired n { cl with regs := gWrite rd v false cl.regs } (cl.pc + 1) s) :=
  VccRow.regs (c := fun n => .csrr n rd fn) (vccRow_of fun _ _ => rfl) hready hhalt hspell rfl (hv.trans (writeG_pass (.inl rfl)))

theorem exec_lui {rd : Nat} {imm : Int} (hspell : spells n (.lui rd imm) s = true) :
    exec (.lui n rd imm) s = .next (retired n { cl with regs := gWrite rd (BitVec.ofInt 64 (imm * 2 ^ 17)) false cl.regs } (cl.pc + 1) s) :=
  VccRow.regs (c := fun n => .lui n rd imm) (vccRow_of fun _ _ => rfl) hready hhalt hspell rfl (writeG_pass (.inl rfl))

theorem exec_vmvx {rd vs k : Nat} (hinside : k < Config.vlen s.part / ewBits cl.regs.ew) (htag : cl.regs.vTag.contains vs = false) (hspell : spells n (.vmvx rd vs k) s = true) :
    exec (.vmvx n rd vs k) s = .next (retired n { cl with regs := gWrite rd (BitVec.ofNat 64 (vRead cl.regs vs / 2 ^ (ewBits cl.regs.ew * k) % 2 ^ ewBits cl.regs.ew)) false cl.regs } (cl.pc + 1) s) := by
  refine VccRow.regs (c := fun n => .vmvx n rd vs k) (vccRow_of fun _ _ => rfl) hready hhalt hspell rfl ?_
  have hin : k < Config.vlen (seenBy s cl r).part / ewBits (seenBy s cl r).cl.regs.ew := hinside
  simp only [vmvxOp, if_pos hin, tagged, show (seenBy s cl r).cl.regs.vTag.contains vs = false from htag]
  exact writeG_pass (.inl rfl)

/-! ## Branches -/

theorem exec_branch {c : Nat → Instr} {w : CodeWord} {cond : BitVec 64 → BitVec 64 → Bool} {ra rb : Nat} {imm : Int} (hrow : VccRow c w (fun _ => false) (branchOp cond ra rb imm))
    (ha : cl.regs.gTag.contains ra = false) (hb : cl.regs.gTag.contains rb = false) (hspell : spells n w s = true) :
    exec (c n) s = .next (if cond (gRead cl.regs ra) (gRead cl.regs rb) = true then retired n cl ((cl.pc : Int) + imm).toNat s else retired n cl (cl.pc + 1) s) := by
  have hclear : branchOp cond ra rb imm (seenBy s cl r) =
      { cl := cl, free := s.free, fin := if cond (gRead cl.regs ra) (gRead cl.regs rb) then .goto ((cl.pc : Int) + imm).toNat else .next } :=
    if_neg (by rw [tagged, tagged, Bool.or_eq_true, not_or]; exact ⟨ne_true_of_eq_false ha, ne_true_of_eq_false hb⟩)
  cases hcond : cond (gRead cl.regs ra) (gRead cl.regs rb) with
  | true =>
    rw [hcond] at hclear
    exact hrow.goto hready hhalt hspell rfl hclear
  | false =>
    rw [hcond] at hclear
    exact hrow.regs hready hhalt hspell rfl hclear

theorem exec_jal {ra : Nat} {imm : Int} (hspell : spells n (.jal ra imm) s = true) :
    exec (.jal n ra imm) s = .next (retired n { cl with regs := gWrite ra (BitVec.ofNat 64 (cl.pc + 1)) false cl.regs } ((cl.pc : Int) + imm).toNat s) :=
  VccRow.goto (c := fun n => .jal n ra imm) (vccRow_of fun _ _ => rfl) hready hhalt hspell rfl rfl

theorem exec_jr {ra : Nat} (ha : cl.regs.gTag.contains ra = false) (hspell : spells n (.jr ra) s = true) :
    exec (.jr n ra) s = .next (retired n cl (gRead cl.regs ra).toNat s) :=
  VccRow.goto (c := fun n => .jr n ra) (vccRow_of fun _ _ => rfl) hready hhalt hspell rfl (if_neg (by rw [tagged]; exact ne_true_of_eq_false ha))

theorem exec_beq_secret {ra rb : Nat} {imm : Int} (ha : cl.regs.gTag.contains ra = true) (hspell : spells n (.beq ra rb imm) s = true) :
    exec (.beq n ra rb imm) s = .next (kernelDefect n j 1 cl.pc s) :=
  VccRow.secret (c := fun n => .beq n ra rb imm) (vccRow_of fun _ _ => rfl) hready hhalt hspell rfl (if_pos (by rw [tagged, Bool.or_eq_true]; exact .inl ha))

theorem exec_jr_secret {ra : Nat} (ha : cl.regs.gTag.contains ra = true) (hspell : spells n (.jr ra) s = true) :
    exec (.jr n ra) s = .next (kernelDefect n j 1 cl.pc s) :=
  VccRow.secret (c := fun n => .jr n ra) (vccRow_of fun _ _ => rfl) hready hhalt hspell rfl (if_pos (by rw [tagged]; exact ha))

theorem exec_untag_g {ra : Nat} (hspell : spells n (.untag ra 0) s = true) :
    exec (.untag n ra 0) s = .next (retired n { cl with regs := { cl.regs with gTag := cl.regs.gTag.filter (fun i => i != ra) } } (cl.pc + 1) s) :=
  VccRow.regs (c := fun n => .untag n ra 0) (vccRow_of fun _ _ => rfl) hready hhalt hspell rfl rfl

end

/-- Settles O34: each instruction is a row of a write to one register. -/
theorem scalarAndSystemResults : Obligations.ScalarAndSystemResults := by
  refine ⟨⟨fun _ => rfl, gWrite_zero, fun i v t r => gRead_gWrite_same v t, fun i k v t r => gRead_gWrite_ne v t r⟩, fun n s cl r j o a b tag hready hhalt ha hb htag => ⟨fun hpass c w v hc hspell => ?_, fun htrue hrd hspell => ?_⟩,
    fun n s cl r j hready hhalt => ⟨fun rd rs1 ew vl htag hvl hspell => ?_, fun rd => ⟨exec_csrr hready hhalt rfl, exec_csrr hready hhalt rfl, exec_csrr hready hhalt rfl, exec_csrr hready hhalt rfl⟩,
      fun rd imm => exec_lui hready hhalt, fun rd vs k w hw hinside htag hspell => ?_⟩⟩
  · subst htag
    exact exec_scalar hready hhalt hpass ha hb hc hspell
  · exact exec_add_secret hready hhalt (htag.symm.trans htrue) hrd hspell
  · subst hvl
    exact exec_setvl hready hhalt htag hspell
  · subst hw
    exact exec_vmvx hready hhalt hinside htag hspell

/-- Settles O39: each branch is a row of a jump, or of the next word. -/
theorem branchResults : Obligations.BranchResults := by
  intro n s cl r j hready hhalt
  refine ⟨fun ra rb imm a b yes no ha hb hva hvb hyes hno => ⟨fun hspell => ?_, fun hspell => ?_, fun hspell => ?_⟩, fun ra imm => exec_jal hready hhalt, fun ra => exec_jr hready hhalt,
    fun ra rb imm ha => ⟨exec_beq_secret hready hhalt ha, exec_jr_secret hready hhalt ha⟩, fun ra hspell => ⟨_, exec_untag_g hready hhalt hspell, rfl, ?_⟩, fun ra rb imm hspell => ?_⟩
  · subst hva hvb hyes hno
    simpa only [beq_iff_eq] using exec_branch (c := fun n => .beq n ra rb imm) hready hhalt (vccRow_of fun _ _ => rfl) ha hb hspell
  · subst hva hvb hyes hno
    have h := exec_branch (c := fun n => .bne n ra rb imm) hready hhalt (vccRow_of fun _ _ => rfl) ha hb hspell
    simpa only [bne_iff_ne, ne_eq, ite_not] using h
  · subst hva hvb hyes hno
    simpa only [decide_eq_true_eq, BitVec.lt_def] using exec_branch (c := fun n => .bltu n ra rb imm) hready hhalt (vccRow_of fun _ _ => rfl) ha hb hspell
  · simp
  · show Host.Outcome.next (onWord n (.beq ra rb imm) _ s) = _
    rw [onWord, hspell]
    rfl

end Sys2Proof.Machine

/-! PROOFS. Vector results by element, fresh sharings, and what tile memory reads (R395 to R404). -/

namespace Sys2Proof.Machine

set_option Elab.async false -- as in Laws: the one text has more theorems than threads

/-! ## Elements of a register -/

theorem packElems_getElem (w : Nat) (l : List Nat) {j : Nat} (hj : j < l.length) : packElems w l / 2 ^ (w * j) % 2 ^ w = l.getD j 0 % 2 ^ w := by
  induction l generalizing j with
  | nil => exact absurd hj (Nat.not_lt_zero _)
  | cons e l ih =>
    have hpos : 0 < 2 ^ w := Nat.two_pow_pos w
    cases j with
    | zero => simp [packElems, Nat.add_mul_mod_self_left]
    | succ j =>
      have hshift : packElems w (e :: l) / 2 ^ w = packElems w l := by
        rw [packElems, Nat.add_mul_div_left _ _ hpos, Nat.div_eq_of_lt (Nat.mod_lt _ hpos), Nat.zero_add]
      rw [Nat.mul_succ, Nat.add_comm, Nat.pow_add, ← Nat.div_div_eq_div_mul, hshift]
      exact ih (Nat.lt_of_succ_lt_succ hj)

@[simp] theorem length_elems (w n x : Nat) : (elems w n x).length = n := by simp [elems]

theorem getD_elems {w n x j : Nat} (hj : j < n) : (elems w n x).getD j 0 = x / 2 ^ (w * j) % 2 ^ w := by simp [elems, hj]

theorem getD_vElems {x : VccIn} {w i j : Nat} (hj : j < Config.vlen x.part / w) : (vElems x w i).getD j 0 = vRead x.cl.regs i / 2 ^ (w * j) % 2 ^ w := getD_elems hj

theorem getD_mergeElems {on : Nat → Bool} {f : Nat → Nat} {old : List Nat} {j : Nat} (hj : j < old.length) :
    (mergeElems on f old).getD j 0 = if on j then f j else old.getD j 0 := by
  simp [mergeElems, hj]

/-- Element `j` of what a vector instruction writes: its operation's value where it is on, else the old one. -/
theorem vectorOp_elementwise {o : VecOps} {srcTag : Bool} {f : Nat → Nat} {x : VccIn} (hvl : 0 < x.count (ewBits o.ew)) :
    ∃ v tag, vectorOp o srcTag 0 f x = x.regs (vWrite o.vd v tag x.cl.regs) ∧ ∀ j, j < Config.vlen x.part / ewBits o.ew → v / 2 ^ (ewBits o.ew * j) % 2 ^ ewBits o.ew =
      (if j < x.count (ewBits o.ew) ∧ x.active o.me o.vm j = true then f j % 2 ^ ewBits o.ew else vRead x.cl.regs o.vd / 2 ^ (ewBits o.ew * j) % 2 ^ ewBits o.ew) := by
  have hrun : (x.count (ewBits o.ew) == 0) = false := by simpa using Nat.ne_of_gt hvl
  refine ⟨_, _, by unfold vectorOp; dsimp only; rw [hrun]; exact if_neg Bool.false_ne_true, fun j hj => ?_⟩
  have hlen : j < (vElems x (ewBits o.ew) o.vd).length := by rwa [vElems, length_elems]
  rw [packElems_getElem _ _ (by rw [mergeElems, List.length_mapIdx]; exact hlen), getD_mergeElems hlen, getD_vElems hj]
  simp only [Bool.and_eq_true, decide_eq_true_eq]
  split
  · rfl
  · exact Nat.mod_mod _ _

theorem vvOp_elementwise (f : Nat → Nat → Nat → Nat) (o : VecOps) (x : VccIn) (hvl : 0 < x.count (ewBits o.ew)) :
    ∃ v tag, vvOp f o x = x.regs (vWrite o.vd v tag x.cl.regs) ∧ ∀ j, j < Config.vlen x.part / ewBits o.ew → v / 2 ^ (ewBits o.ew * j) % 2 ^ ewBits o.ew =
      (if j < x.count (ewBits o.ew) ∧ x.active o.me o.vm j = true then
        f (ewBits o.ew) (vRead x.cl.regs o.vs1 / 2 ^ (ewBits o.ew * j) % 2 ^ ewBits o.ew) (vRead x.cl.regs o.vs2 / 2 ^ (ewBits o.ew * j) % 2 ^ ewBits o.ew) % 2 ^ ewBits o.ew
       else vRead x.cl.regs o.vd / 2 ^ (ewBits o.ew * j) % 2 ^ ewBits o.ew) := by
  obtain ⟨v, tag, heq, hv⟩ := vectorOp_elementwise (srcTag := vvTag x o)
    (f := fun j => f (ewBits o.ew) ((vElems x (ewBits o.ew) o.vs1).getD j 0) ((vElems x (ewBits o.ew) o.vs2).getD j 0)) hvl
  refine ⟨v, tag, heq, fun j hj => ?_⟩
  rw [hv j hj, getD_vElems hj, getD_vElems hj]

theorem vsOp_elementwise (f : Nat → Nat → Nat → Nat) (o : VecOps) (x : VccIn) (hvl : 0 < x.count (ewBits o.ew)) :
    ∃ v tag, vsOp f o x = x.regs (vWrite o.vd v tag x.cl.regs) ∧ ∀ j, j < Config.vlen x.part / ewBits o.ew → v / 2 ^ (ewBits o.ew * j) % 2 ^ ewBits o.ew =
      (if j < x.count (ewBits o.ew) ∧ x.active o.me o.vm j = true then
        f (ewBits o.ew) (vRead x.cl.regs o.vs1 / 2 ^ (ewBits o.ew * j) % 2 ^ ewBits o.ew) ((gRead x.cl.regs o.vs2).toNat % 2 ^ ewBits o.ew) % 2 ^ ewBits o.ew
       else vRead x.cl.regs o.vd / 2 ^ (ewBits o.ew * j) % 2 ^ ewBits o.ew) := by
  obtain ⟨v, tag, heq, hv⟩ := vectorOp_elementwise (srcTag := tagged x.cl.regs.vTag o.vs1 || tagged x.cl.regs.gTag o.vs2)
    (f := fun j => f (ewBits o.ew) ((vElems x (ewBits o.ew) o.vs1).getD j 0) (vsScalar x o)) hvl
  refine ⟨v, tag, heq, fun j hj => ?_⟩
  rw [hv j hj, getD_vElems hj]
  rfl

theorem vectorOp_of_none {o : VecOps} {srcTag : Bool} {used : Nat} {f : Nat → Nat} {x : VccIn} (h : x.count (ewBits o.ew) = 0) :
    vectorOp o srcTag used f x = x.regs x.cl.regs := by
  unfold vectorOp
  dsimp only
  rw [h]
  rfl

/-- Settles O35: a vector instruction writes a register packed from its elements. -/
theorem vectorResultsAreElementwise : Obligations.VectorResultsAreElementwise := by
  refine ⟨fun f o x w hw hvl => ?_, fun f o x w hw hvl => ?_, fun f o x hvl => ⟨vectorOp_of_none hvl, vectorOp_of_none hvl⟩, fun w a b ha hb => ⟨rfl, ?_, rfl, rfl, rfl, rfl⟩⟩
  · subst hw
    exact vvOp_elementwise f o x hvl
  · subst hw
    exact vsOp_elementwise f o x hvl
  · rw [elSub, Nat.sub_add_cancel (by omega), Nat.add_mod_right, Nat.mod_eq_of_lt ha]

/-! ## Fresh sharings -/

theorem foldl_xor (l : List Nat) (v : Nat) : l.foldl (· ^^^ ·) v = v ^^^ l.foldl (· ^^^ ·) 0 := by
  induction l generalizing v with
  | nil => simp
  | cons x l ih => rw [List.foldl_cons, List.foldl_cons, ih, ih (0 ^^^ x), Nat.zero_xor, Nat.xor_assoc]

theorem xorValue_shareXor (x : VccIn) (w i v : Nat) : xorValue (shareXor x w i v) = v := by
  rw [xorValue, shareXor, List.foldl_append, List.foldl_cons, List.foldl_nil, foldl_xor _ v, Nat.xor_comm v, ← Nat.xor_assoc, Nat.xor_self, Nat.zero_xor]

theorem sum_fresh_le (x : VccIn) (w i n : Nat) : ((List.range n).map (fun k => x.fresh w (i + k))).sum ≤ n * 2 ^ w := by
  induction n with
  | zero => exact Nat.zero_le _
  | succ n ih =>
    have hlast : x.fresh w (i + n) ≤ 2 ^ w := Nat.le_of_lt (Nat.mod_lt _ (Nat.two_pow_pos w))
    rw [List.range_succ, List.map_append, List.sum_append, List.map_singleton, List.sum_singleton, Nat.succ_mul]
    exact Nat.add_le_add ih hlast

theorem sumValue_shareSum (x : VccIn) {w v : Nat} (i : Nat) (hv : v < 2 ^ w) : sumValue w (shareSum x w i v) = v := by
  have hle : ((List.range (x.n - 1)).map (fun k => x.fresh w (i + k))).sum ≤ x.n * 2 ^ w := Nat.le_trans (sum_fresh_le x w i _) (Nat.mul_le_mul_right _ (Nat.sub_le _ _))
  rw [sumValue, shareSum, List.sum_append, List.sum_singleton, Nat.add_mod_mod, Nat.add_sub_cancel' (by omega), Nat.add_mul_mod_self_right, Nat.mod_eq_of_lt hv]

/-- Settles O36: the last share closes the sum of the others. -/
theorem freshSharesRecombine : Obligations.FreshSharesRecombine := fun x w i v hv =>
  ⟨xorValue_shareXor x w i v, sumValue_shareSum x i hv, by simp [shareXor, VccIn.n], by simp [shareSum, VccIn.n]⟩

/-! ## Tile memory -/

theorem cellRead_of_below {m : List Host.Cell} {a : Nat} (h : ∀ c ∈ m, a < c.1) : cellRead m a = 0 := by
  induction m with
  | nil => rfl
  | cons c r ih =>
    rw [cellRead, if_neg (Nat.ne_of_gt (h c (.head _)))]
    exact ih fun d hd => h d (.tail _ hd)

/-- A byte written reads back, and every other byte reads as before. -/
theorem cellRead_cellWrite {m : List Host.Cell} (a : Nat) (b : Byte) (k : Nat) (h : Memory.wf m = true) : cellRead (cellWrite m a b) k = if k = a then b else cellRead m k := by
  have hsorted := ((wf_iff m).1 h).2
  clear h
  induction m with
  | nil =>
    by_cases hb : b = 0
    · simp [cellWrite, hb, cellRead]
    · rw [cellWrite, if_neg hb, cellRead]
      exact ite_congr (propext eq_comm) (fun _ => rfl) fun _ => rfl
  | cons c r ih =>
    obtain ⟨hc, hr⟩ := List.pairwise_cons.1 hsorted
    unfold cellWrite
    by_cases hlt : a < c.1
    · have hzero : cellRead (c :: r) a = 0 := cellRead_of_below (List.forall_mem_cons.2 ⟨hlt, fun d hd => Nat.lt_trans hlt (hc d hd)⟩)
      rw [if_pos hlt]
      by_cases hb : b = 0
      · rw [if_pos hb]
        split
        · next hk => rw [hk, hzero, hb]
        · rfl
      · rw [if_neg hb, cellRead]
        exact ite_congr (propext eq_comm) (fun _ => rfl) fun _ => rfl
    · rw [if_neg hlt]
      by_cases heq : a = c.1
      · have hzero : cellRead r a = 0 := cellRead_of_below (fun d hd => heq ▸ hc d hd)
        have hother : k ≠ a → cellRead (c :: r) k = cellRead r k := fun hk => by rw [cellRead, if_neg (heq ▸ hk.symm)]
        rw [if_pos heq]
        by_cases hb : b = 0
        · rw [if_pos hb]
          split
          · next hk => rw [hk, hzero, hb]
          · next hk => exact (hother hk).symm
        · rw [if_neg hb, cellRead]
          split
          · next hk => rw [if_pos hk.symm]
          · next hk => rw [if_neg (Ne.symm hk), hother (Ne.symm hk)]
      · rw [if_neg heq, cellRead, cellRead]
        split
        · next hk => rw [if_neg (hk ▸ Ne.symm heq)]
        · exact ih hr

theorem cellRead_cellsWrite_outside {m : List Host.Cell} {a k : Nat} (b : Bytes) (h : Memory.wf m = true) (hk : k < a ∨ a + b.length ≤ k) :
    cellRead (cellsWrite m a b) k = cellRead m k := by
  induction b generalizing m a with
  | nil => rfl
  | cons x b ih =>
    rw [List.length_cons] at hk
    rw [cellsWrite, ih (wf_cellWrite a x h) (by omega), cellRead_cellWrite a x k h, if_neg (by omega)]

theorem cellRead_cellsWrite_inside {m : List Host.Cell} {a i : Nat} {b : Bytes} (h : Memory.wf m = true) (hi : i < b.length) :
    cellRead (cellsWrite m a b) (a + i) = b[i] := by
  induction b generalizing m a i with
  | nil => exact absurd hi (Nat.not_lt_zero _)
  | cons x b ih =>
    have hx := wf_cellWrite a x h
    rw [cellsWrite]
    cases i with
    | zero => rw [cellRead_cellsWrite_outside b hx (by omega), cellRead_cellWrite a x _ h, if_pos (by omega), List.getElem_cons_zero]
    | succ i => rw [show a + (i + 1) = a + 1 + i by omega, ih hx (Nat.lt_of_succ_lt_succ hi), List.getElem_cons_succ]

theorem cellsRead_cellsWrite {m : List Host.Cell} (a : Nat) (b : Bytes) (h : Memory.wf m = true) : cellsRead (cellsWrite m a b) a b.length = b := by
  refine List.ext_getElem (by simp [cellsRead]) fun i h1 h2 => ?_
  simp only [cellsRead, List.getElem_map, List.getElem_range]
  exact cellRead_cellsWrite_inside h h2

/-- Settles O37: byte by byte, in the canonical form. -/
theorem tileMemoryReadsWhatWasWritten : Obligations.TileMemoryReadsWhatWasWritten := fun _ a b h =>
  ⟨cellsRead_cellsWrite a b h, fun _ => cellRead_cellsWrite_outside b h, wf_cellsWrite b a h⟩

end Sys2Proof.Machine

/-! PROOFS. What the stores of a vector cluster touch (R393 to R412). -/

namespace Sys2Proof.Machine

set_option Elab.async false -- as in Laws: the one text has more theorems than threads

/-! ## Stores at an address -/

/-- A cluster that differs at most in its tiles, their tags and their check words. -/
def TilesOnly (c d : Cluster) : Prop := d = { c with tiles := d.tiles, tileTags := d.tileTags, badChecks := d.badChecks }

theorem TilesOnly.refl (c : Cluster) : TilesOnly c c := rfl
theorem TilesOnly.regs {c d : Cluster} (h : TilesOnly c d) : d.regs = c.regs := by rw [h]

theorem tilesOnly_storeAt {c d : Cluster} (p : Nat) (data : Bytes) (t : Bool) (h : TilesOnly c d) : TilesOnly c (storeAt p data t d) := by
  unfold TilesOnly at h ⊢
  rw [h]
  rfl

/-- A cluster in canonical form whose byte at `a` is that of another. -/
def SameByte (a : Nat) (c d : Cluster) : Prop := Memory.wf d.tiles = true ∧ cellRead d.tiles a = cellRead c.tiles a

theorem sameByte_storeAt {a : Nat} {c d : Cluster} {p : Nat} {data : Bytes} (t : Bool) (hout : a < p ∨ p + data.length ≤ a) (h : SameByte a c d) :
    SameByte a c (storeAt p data t d) :=
  ⟨wf_cellsWrite data p h.1, (cellRead_cellsWrite_outside data h.1 hout).trans h.2⟩

theorem tilesOnly_storeView {c d : Cluster} (r : Resid) (b : Nat) (data : Bytes) (t : Bool) (h : TilesOnly c d) : TilesOnly c (storeView r b data t d) := by
  unfold storeView
  split
  · exact tilesOnly_storeAt _ _ _ h
  · exact h

theorem sameByte_storeView {a : Nat} {c d : Cluster} {r : Resid} {b : Nat} {data : Bytes} (t : Bool)
    (hout : ∀ p, viewPhys r true b data.length = some p → a < p ∨ p + data.length ≤ a) (h : SameByte a c d) : SameByte a c (storeView r b data t d) := by
  unfold storeView
  split
  · next p hp => exact sameByte_storeAt _ (hout p hp) h
  · exact h

theorem foldl_ind {α β : Type} {Q : β → Prop} {f : β → α → β} {l : List α} {b : β} (hb : Q b) (hf : ∀ x ∈ l, ∀ c, Q c → Q (f c x)) : Q (l.foldl f b) := by
  induction l generalizing b with
  | nil => exact hb
  | cons x l ih => exact ih (hf x (.head _) b hb) fun y hy => hf y (.tail _ hy)

/-! ## The elements of a store, one after another -/

/-- The physical addresses of an element that nothing stops. -/
def ElemAt (x : VccIn) (n : Nat) (as ps : List Nat) : Prop := Elementwise (fun a p => viewPhys x.r true a n = some p) as ps

theorem elemStop_store {x : VccIn} {n j : Nat} {as : List Nat} {e : VEnd ⊕ List Nat} (h : elemStop x true n j as = e) :
    e = .inl (.trap .grant j 0) ∨ ∃ ps, e = .inr ps ∧ ElemAt x n as ps := by
  subst h
  unfold elemStop
  dsimp only
  split
  · exact .inl rfl
  · next hall =>
    refine .inr ⟨_, rfl, ?_⟩
    induction as with
    | nil => exact .nil
    | cons a as ih =>
      simp only [List.map_cons, List.any_cons, Bool.or_eq_true, not_or] at hall
      obtain ⟨ha, has⟩ := hall
      obtain ⟨p, hp⟩ : ∃ p, (if a % n == 0 then viewPhys x.r true a n else none) = some p := Option.ne_none_iff_exists'.1 (fun h => ha (by rw [h]; rfl))
      rw [List.map_cons, hp]
      refine .cons ?_ (ih has)
      split at hp
      · exact hp
      · exact nomatch hp

/-- A store ends at the next word, or with a trap at one of its elements. -/
theorem memLoop_fin {x : VccIn} {n : Nat} {addrs : Nat → List Nat} {act : Nat → Bool} {move : Nat → List Nat → Cluster → Cluster} {l : List Nat} {cl : Cluster}
    {k : TrapKind} {e t : Nat} (h : (memLoop x true n addrs act move l cl).1 = .trap k e t) : e ∈ l := by
  induction l generalizing cl with
  | nil => exact nomatch h
  | cons j l ih =>
    unfold memLoop at h
    rcases elemStop_store (x := x) (n := n) (j := j) (as := addrs j) rfl with heq | ⟨ps, heq, -⟩
    · rw [heq] at h
      injection h with _ hj _
      exact hj ▸ .head _
    · rw [heq] at h
      exact .tail _ (ih h)

/-- What holds before a store, and is kept by each active element before its trap, holds after it. -/
theorem memLoop_ind {x : VccIn} {n : Nat} {addrs : Nat → List Nat} {act : Nat → Bool} {move : Nat → List Nat → Cluster → Cluster} {Q : Cluster → Prop} {l : List Nat}
    (hl : l.Pairwise (· < ·)) {cl : Cluster} (hQ : Q cl)
    (hmove : ∀ j ∈ l, ∀ ps c, (∀ k e t, (memLoop x true n addrs act move l cl).1 = .trap k e t → j < e) → act j = true → ElemAt x n (addrs j) ps → Q c → Q (move j ps c)) :
    Q (memLoop x true n addrs act move l cl).2 := by
  induction l generalizing cl with
  | nil => exact hQ
  | cons j l ih =>
    obtain ⟨hj, hl⟩ := List.pairwise_cons.1 hl
    unfold memLoop at hmove ⊢
    rcases elemStop_store (x := x) (n := n) (j := j) (as := addrs j) rfl with heq | ⟨ps, heq, hps⟩
    · rw [heq]
      exact hQ
    · rw [heq] at hmove ⊢
      refine ih hl ?_ fun i hi qs c htrap => hmove i (.tail _ hi) qs c htrap
      split
      · next hact => exact hmove j (.head _) ps cl (fun k e t htrap => hj e (memLoop_fin htrap)) hact hps hQ
      · exact hQ

/-- The same of a whole instruction that stores. -/
theorem memOp_ind {o : MemOps} {stride : Bool} {used : Nat} {addrs : Nat → List Nat} {move : Nat → List Nat → Cluster → Cluster} {x : VccIn} {Q : Cluster → Prop} (hQ : Q x.cl)
    (hmove : ∀ j ps c, x.cl.vresume ≤ j → j < x.count (ewBits o.ew) → (∀ k e t, (memOp o stride true used addrs move x).fin = .trap k e t → j < e) →
      x.active o.me o.vm j = true → ElemAt x (2 ^ (o.ew % 4)) (addrs j) ps → Q c → Q (move j ps c)) :
    Q (memOp o stride true used addrs move x).cl := by
  unfold memOp at hmove ⊢
  split
  · exact hQ
  · next htag =>
    rw [if_neg htag] at hmove
    refine memLoop_ind (List.Pairwise.filter _ List.pairwise_lt_range) hQ fun j hj ps c htrap hact hps hc => ?_
    obtain ⟨hcount, hresume⟩ := List.mem_filter.1 hj
    exact hmove j ps c (by simpa using hresume) (List.mem_range.1 hcount) htrap hact hps hc

/-- A memory instruction copies to no peer and draws no mask of its own. -/
theorem memOp_quiet (o : MemOps) (stride store : Bool) (used : Nat) (addrs : Nat → List Nat) (move : Nat → List Nat → Cluster → Cluster) (x : VccIn) :
    (memOp o stride store used addrs move x).peer = none ∧ (memOp o stride store used addrs move x).mask = 0 := by
  unfold memOp
  split <;> exact ⟨rfl, rfl⟩

theorem vccReady_vcc {n : Nat} {s : State} {cl : Cluster} {r : Resid} {j : Job} (h : vccReady n s = some (cl, r, j)) : s.vcc[n]? = some cl := by
  unfold vccReady at h
  split at h
  · exact nomatch h
  · next k hk =>
    split at h
    · exact nomatch h
    · split at h
      · exact nomatch h
      · split at h
        · exact nomatch h
        · rw [hk, (Prod.mk.inj (Option.some.inj h)).1]

/-! ## VST, SHST, SVST -/

section
variable (o : MemOps) (x : VccIn)

/-- The outside of a store: no active element before its trap has a physical address over `a`. -/
def Outside (addrs : Nat → List Nat) (fin : VEnd) (a : Nat) : Prop :=
  ∀ i b p, x.cl.vresume ≤ i → i < x.count (8 * 2 ^ (o.ew % 4)) → (∀ k e t, fin = .trap k e t → i < e) → x.active o.me o.vm i = true → b ∈ addrs i →
    viewPhys x.r true b (2 ^ (o.ew % 4)) = some p → a < p ∨ p + 2 ^ (o.ew % 4) ≤ a

theorem tilesOnly_vstOp : TilesOnly x.cl (vstOp o x).cl := memOp_ind (.refl _) fun _ _ _ _ _ _ _ _ h => tilesOnly_storeAt _ _ _ h

theorem sameByte_vstOp {a : Nat} (hwf : Memory.wf x.cl.tiles = true) (hout : Outside o x (fun i => [elemAddr x o i]) (vstOp o x).fin a) : SameByte a x.cl (vstOp o x).cl := by
  refine memOp_ind ⟨hwf, rfl⟩ fun j ps c hresume hcount htrap hact hps h => sameByte_storeAt _ ?_ h
  obtain _ | ⟨hp, hnil⟩ := hps
  cases hnil
  rw [leBytes_length]
  exact hout j _ _ hresume hcount htrap hact (.head _) hp

/-- The shares of one element are stored one after another. -/
theorem foldl_shares_ind {Q : Cluster → Prop} {n : Nat} {as ps : List Nat} {g : Nat → Bytes} {t : Nat → Bool} {c : Cluster} (hps : ElemAt x n as ps) (hc : Q c)
    (hstore : ∀ b ∈ as, ∀ p k d, viewPhys x.r true b n = some p → Q d → Q (storeAt p (g k) (t k) d)) :
    Q ((ps.mapIdx (fun k p => (k, p))).foldl (fun c p => storeAt p.2 (g p.1) (t p.1) c) c) := by
  refine foldl_ind hc fun q hq d hd => ?_
  obtain ⟨k, hk, rfl⟩ := List.mem_mapIdx.1 hq
  obtain ⟨b, hb, hp⟩ := elementwise_mem_right hps (List.getElem_mem hk)
  exact hstore b hb _ _ _ hp hd

/-- What holds before SHST, and is kept by each share of each active element before its trap, holds after it. -/
theorem shstOp_ind {Q : Cluster → Prop} (hQ : Q x.cl)
    (hstore : ∀ j b p data t d, x.cl.vresume ≤ j → j < x.count (ewBits o.ew) → (∀ k e t, (shstOp o x).fin = .trap k e t → j < e) → x.active o.me o.vm j = true →
      b ∈ shareAddrs x o j → viewPhys x.r true b (2 ^ (o.ew % 4)) = some p → data.length = 2 ^ (o.ew % 4) → Q d → Q (storeAt p data t d)) : Q (shstOp o x).cl := by
  refine memOp_ind hQ fun j ps c hresume hcount htrap hact hps h => ?_
  exact foldl_shares_ind x (g := fun k => leBytes (2 ^ (o.ew % 4)) ((vElems x (ewBits o.ew) (o.vr + k)).getD j 0))
    (t := fun k => tagged x.cl.regs.vTag (o.vr + k) || maskTag x o) hps h
    fun b hb p k d hp hd => hstore j b p _ _ d hresume hcount htrap hact hb hp (leBytes_length _ _) hd

theorem tilesOnly_shstOp : TilesOnly x.cl (shstOp o x).cl := shstOp_ind o x (.refl _) fun _ _ _ _ _ _ _ _ _ _ _ _ _ h => tilesOnly_storeAt _ _ _ h

theorem sameByte_shstOp {a : Nat} (hwf : Memory.wf x.cl.tiles = true) (hout : Outside o x (shareAddrs x o) (shstOp o x).fin a) : SameByte a x.cl (shstOp o x).cl :=
  shstOp_ind o x ⟨hwf, rfl⟩ fun j b p data t d hresume hcount htrap hact hb hp hlen h =>
    sameByte_storeAt t (by rw [hlen]; exact hout j b p hresume hcount htrap hact hb hp) h

/-- SVST stores its 32 bytes, or nothing. -/
theorem shortMem_store_ind {Q : Cluster → Prop} (hQ : Q x.cl)
    (hstore : Q (storeView x.r (gRead x.cl.regs (baseReg o)).toNat (leBytes 32 (sRead x.cl.regs o.vr)) (tagged x.cl.regs.sTag o.vr) x.cl)) : Q (shortMem o true x).cl := by
  unfold shortMem
  split
  · exact hQ
  · split
    · exact hQ
    · dsimp only
      split
      · exact hQ
      · split
        · exact hQ
        · exact hstore

end

/-! ## The stores of the hash and copy instructions -/

theorem hGuard_ind {x : VccIn} {l : List Nat} {k : Unit → VOut} {Q : VOut → Prop} (hstop : Q (x.stop .secretFlow)) (hk : Q (k ())) : Q (hGuard x l k) := by
  unfold hGuard
  split
  · exact hstop
  · exact hk

theorem hClass_ind {x : VccIn} {reads writes : List (Nat × Nat)} {k : Unit → VOut} {Q : VOut → Prop} (hstop : ∀ e, Q { cl := x.cl, free := x.free, fin := e }) (hk : Q (k ())) :
    Q (hClass x reads writes k) := by
  unfold hClass
  split
  · exact hstop _
  · exact hk

theorem length_kecOut (state fill : Bytes) (n : Nat) (hfill : fill.length = n - 200) : ((sliceZ state 0 200 ++ fill).take n).length = n := by
  rw [List.length_take, List.length_append, sliceZ_length, hfill]
  omega

/-- KEC OUT stores outputs of its rate at the starts of its shares. -/
theorem kecOutOp_ind {h : HOps} {x : VccIn} {Q : Cluster → Prop} (hQ : Q x.cl)
    (hstore : ∀ b ∈ shareStarts (hReg x h.a) (hReg x h.b) x.cl.regs.kec.length, ∀ data d, data.length = hReg x h.c → Q d → Q (storeView x.r b data (kecShared x) d)) :
    Q (kecOutOp h x).cl := by
  unfold kecOutOp
  refine hGuard_ind (Q := fun o => Q o.cl) hQ (hClass_ind (Q := fun o => Q o.cl) (fun _ => hQ) (foldl_ind hQ fun q hq d hd => ?_))
  obtain ⟨k, hk, rfl⟩ := List.mem_mapIdx.1 hq
  exact hstore _ (List.getElem_mem hk) _ _ (length_kecOut _ _ _ (by simp)) hd

theorem randOp_ind {h : HOps} {x : VccIn} {Q : Cluster → Prop} (hQ : Q x.cl)
    (hstore : ∀ data, data.length = hReg x h.b → Q (storeView x.r (hReg x h.a) data true x.cl)) : Q (randOp h x).cl :=
  hGuard_ind (Q := fun o => Q o.cl) hQ (hClass_ind (Q := fun o => Q o.cl) (fun _ => hQ) (hstore _ (by simp)))

theorem winFetchOp_cl (src : Nat) (h : HOps) (x : VccIn) : (winFetchOp src h x).cl = { x.cl with resid := (winFetchOp src h x).cl.resid } := by
  refine hGuard_ind (Q := fun o => o.cl = { x.cl with resid := o.cl.resid }) rfl ?_
  dsimp only
  split
  · rfl
  · rfl

theorem xmovOp_cl (peer : Nat) (h : HOps) (x : VccIn) : (xmovOp peer h x).cl = x.cl := by
  refine hGuard_ind (Q := fun o => o.cl = x.cl) rfl ?_
  dsimp only
  split
  · rfl
  · exact hClass_ind (Q := fun o => o.cl = x.cl) (fun _ => rfl) rfl

/-! ## A copy to a peer -/

theorem getElem?_modAt_ne {α : Type} (l : List α) {i k : Nat} (g : α → α) (h : k ≠ i) : (modAt l i g)[k]? = l[k]? := by
  induction l generalizing i k with
  | nil => rfl
  | cons x l ih =>
    cases i with
    | zero =>
      cases k with
      | zero => exact absurd rfl h
      | succ k => rfl
    | succ i =>
      cases k with
      | zero => rfl
      | succ k => exact ih fun e => h (congrArg _ e)

theorem getElem?_modAt_same {α : Type} {l : List α} {i : Nat} {x : α} (g : α → α) (h : l[i]? = some x) : (modAt l i g)[i]? = some (g x) := by
  induction l generalizing i with
  | nil => exact nomatch h
  | cons y l ih =>
    cases i with
    | zero => exact congrArg (fun o => o.map g) h
    | succ i => exact ih h

theorem peerCopy_same {job c b : Nat} {d : Bytes} {ts : List Nat} {s : State} {k : Cluster} {r : Resid} (hk : s.vcc[c]? = some k) (hr : k.resid.find? (fun q => q.job == job) = some r) :
    ∃ m, (peerCopy job (c, b, d, ts) s).vcc[c]? = some m ∧ m.regs = (storeView r b d false k).regs ∧ m.tiles = (storeView r b d false k).tiles := by
  refine ⟨_, getElem?_modAt_same _ hk, ?_⟩
  dsimp only
  rw [hr]
  exact ⟨rfl, rfl⟩

/-! ## Instructions that store nothing -/

/-- An instruction's cluster differs at most in its registers. -/
def RegsOnly (x : VccIn) (o : VOut) : Prop := o.cl = { x.cl with regs := o.cl.regs }

theorem regsOnly_regs (x : VccIn) (r : RegSave) (used mask : Nat) : RegsOnly x (x.regs r used mask) := rfl

theorem regsOnly_ite {c : Prop} [Decidable c] {x : VccIn} {a b : VOut} (ha : RegsOnly x a) (hb : RegsOnly x b) : RegsOnly x (if c then a else b) := by
  split
  · exact ha
  · exact hb

theorem regsOnly_writeG (x : VccIn) (rd : Nat) (v : BitVec 64) (t : Bool) (used : Nat) : RegsOnly x (writeG x rd v t used) := regsOnly_ite rfl rfl
theorem regsOnly_vectorOp (o : VecOps) (t : Bool) (used : Nat) (f : Nat → Nat) (x : VccIn) : RegsOnly x (vectorOp o t used f x) := regsOnly_ite rfl rfl

/-- Settles O38: the stores of each instruction one after another, each at its physical address. -/
theorem storesTouchOnlyTheirElements : Obligations.StoresTouchOnlyTheirElements := by
  refine ⟨fun n s cl r j o hready hhalt hspell htag hwf hfin => ?_, fun o x y z n a hwf hy hz hn => ?_, fun h x a hwf => ⟨⟨?_, fun hout => ?_⟩, ⟨?_, fun hout => ?_⟩, fun src => winFetchOp_cl src h x, fun peer => xmovOp_cl peer h x⟩,
    fun job c b d ts s => ⟨fun u hu => getElem?_modAt_ne _ _ hu, fun k r hk hr hwf => ?_⟩,
    fun x => ⟨fun f o => regsOnly_writeG .., fun f o => regsOnly_writeG .., fun f o => regsOnly_vectorOp .., fun f o => regsOnly_vectorOp .., fun f o => regsOnly_vectorOp .., fun f o => regsOnly_vectorOp ..,
      fun b f o => regsOnly_vectorOp .., fun f o => regsOnly_ite (x := x) rfl rfl, fun o m f => regsOnly_ite (x := x) rfl rfl, fun k o => regsOnly_ite (x := x) rfl rfl, fun o => regsOnly_ite (x := x) rfl rfl⟩⟩
  · have hexec := ((vccRow_of (c := fun n => .vst n o) fun _ _ => rfl) n s _ cl r j hready hhalt hspell (fun h => nomatch h) rfl).1 (memOp_quiet ..).1 hfin
    refine ⟨_, hexec, _, getElem?_modAt_same (x := cl) _ ?_, ?_, rfl, fun a hout => (sameByte_vstOp o (seenBy s cl r) hwf ?_).2⟩
    · rw [vstOp, (memOp_quiet ..).2]
      exact vccReady_vcc hready
    · exact (tilesOnly_vstOp o (seenBy s cl r)).regs
    · intro i b p hresume hcount htrap hact hb hp
      rw [List.mem_singleton] at hb
      exact hout i p hresume hcount hact (hb ▸ hp)
  · subst hy hz hn
    refine ⟨⟨tilesOnly_vstOp o x, fun hout => (sameByte_vstOp o x hwf ?_).2⟩, ⟨tilesOnly_shstOp o x, fun hout => (sameByte_shstOp o x hwf hout).2⟩,
      (shortMem_store_ind o x (Q := TilesOnly x.cl) (.refl _) (tilesOnly_storeView _ _ _ _ (.refl _))).regs, fun hout => ?_⟩
    · intro i b p hresume hcount htrap hact hb hp
      rw [List.mem_singleton] at hb
      exact hout i p hresume hcount htrap hact (hb ▸ hp)
    · refine (shortMem_store_ind o x (Q := SameByte a x.cl) ⟨hwf, rfl⟩ (sameByte_storeView _ ?_ ⟨hwf, rfl⟩)).2
      rw [leBytes_length]
      exact hout
  · exact (kecOutOp_ind (Q := TilesOnly x.cl) (.refl _) fun _ _ _ _ _ h => tilesOnly_storeView _ _ _ _ h).regs
  · exact (kecOutOp_ind (Q := SameByte a x.cl) ⟨hwf, rfl⟩ fun b hb data d hlen h => sameByte_storeView _ (by rw [hlen]; exact hout b hb) h).2
  · exact (randOp_ind (Q := TilesOnly x.cl) (.refl _) fun _ _ => tilesOnly_storeView _ _ _ _ (.refl _)).regs
  · exact (randOp_ind (Q := SameByte a x.cl) ⟨hwf, rfl⟩ fun data hlen => sameByte_storeView _ (by rw [hlen]; exact hout) ⟨hwf, rfl⟩).2
  · obtain ⟨m, hm, hregs, htiles⟩ := peerCopy_same (b := b) (d := d) (ts := ts) hk hr
    refine ⟨m, hm, hregs.trans ((tilesOnly_storeView r b d false (.refl k)).regs), fun a hout => ?_⟩
    rw [htiles]
    exact (sameByte_storeView false hout ⟨hwf, rfl⟩).2

end Sys2Proof.Machine

/-!
PROOFS. The token and the rights: what journal records, notices, the end of a session and a change of the rights leave unchanged.
-/
namespace Sys2Proof.Machine
set_option Elab.async false -- as in Laws: the one text has more theorems than threads

/-! ### The token's memory -/

theorem eraseBlock_frame (l : Nat) (t : Token) : eraseBlock l t =
    { t with units := (eraseBlock l t).units, wearCount := (eraseBlock l t).wearCount, blockMap := (eraseBlock l t).blockMap, spare := (eraseBlock l t).spare,
             retired := (eraseBlock l t).retired, readOnly := (eraseBlock l t).readOnly } := by
  unfold eraseBlock
  split
  · rfl
  · split
    · rfl
    · dsimp only
      split
      · split <;> rfl
      · rfl

/-- What a record in the journal can change of a token: its wear and its blocks, and the reservations that are burned where it refuses an erase. -/
def Worn (t u : Token) : Prop :=
  u = { t with seq := u.seq, journalPages := u.journalPages, journalFree := u.journalFree, units := u.units, wearCount := u.wearCount, blockMap := u.blockMap,
               spare := u.spare, retired := u.retired, readOnly := u.readOnly, stateful := u.stateful } ∧
    (u.stateful = t.stateful ∨ u.stateful = t.stateful.map burnLeaves)

theorem worn_journalPage (t : Token) : Worn t (journalPage t) := by
  refine ⟨?_, .inl (stateful_journalPage t)⟩
  unfold journalPage
  dsimp only
  split
  · rfl
  · split
    · rfl
    · split <;> rw [eraseBlock_frame]

/-- The token with its open reservations burned. -/
def burnAll (t : Token) : Token := { t with stateful := t.stateful.map burnLeaves }

theorem worn_burnAll_journalPage (t : Token) : Worn t (burnAll (journalPage t)) := by
  refine ⟨?_, .inr (by rw [burnAll, stateful_journalPage])⟩
  unfold burnAll
  rw [(worn_journalPage t).1]

/-! ### Records and notices -/

/-- Every field but those that a record in the token's journal, or a notice about the token, can change is as before. -/
def TokenFrame (b t : State) : Prop := t = { b with fns := t.fns, tok := t.tok, alm := t.alm, out := t.out }

theorem TokenFrame.trans {a b c : State} (h : TokenFrame a b) (k : TokenFrame b c) : TokenFrame a c := by
  unfold TokenFrame at *
  rw [k, h]

theorem tokenEvent_frame (k p : Nat) (s : State) :
    tokenEvent k p s = { s with fns := (tokenEvent k p s).fns, alm := (tokenEvent k p s).alm, out := (tokenEvent k p s).out } := by
  unfold tokenEvent
  rw [raiseEvent_frame, show LinkOnly s (ringEvent .pf0 0x0020 0xFFFF (tokenStatus s) 0 s) from linkOnly_ringEvent _ _ _ _ _ (.refl s)]

theorem noteLife_frame (t : Token) (s : State) : TokenFrame s (noteLife t s) := by
  unfold noteLife TokenFrame
  dsimp only
  split
  · split
    · rw [tokenEvent_frame, tokenEvent_frame]; rfl
    · rw [tokenEvent_frame]
  · split
    · rw [tokenEvent_frame]; rfl
    · rfl

/-- Of the module's side of the token a notice changes only the two status bits, and of the token in the socket its reservations. -/
theorem noteLife_tok (t : Token) (s : State) :
    (noteLife t s).tok = { s.tok with wear := (noteLife t s).tok.wear, readOnly := (noteLife t s).tok.readOnly, socket := (noteLife t s).tok.socket } ∧
      ((noteLife t s).tok.socket = s.tok.socket ∨ (noteLife t s).tok.socket = s.tok.socket.map burnAll) := by
  unfold noteLife
  dsimp only
  split
  · split
    · rw [tokenEvent_frame]; exact ⟨by rw [tokenEvent_frame]; rfl, .inr (by rw [tokenEvent_frame]; rfl)⟩
    · rw [tokenEvent_frame]; exact ⟨rfl, .inl rfl⟩
  · split
    · rw [tokenEvent_frame]; exact ⟨rfl, .inr rfl⟩
    · exact ⟨rfl, .inl rfl⟩

theorem noteToken_frame (s : State) : TokenFrame s (noteToken s) := by
  unfold noteToken
  split
  · split
    · exact noteLife_frame _ s
    · exact rfl
  · exact rfl

theorem noteToken_tok (s : State) :
    (noteToken s).tok = { s.tok with wear := (noteToken s).tok.wear, readOnly := (noteToken s).tok.readOnly, socket := (noteToken s).tok.socket } ∧
      ((noteToken s).tok.socket = s.tok.socket ∨ (noteToken s).tok.socket = s.tok.socket.map burnAll) := by
  unfold noteToken
  split
  · split
    · exact noteLife_tok _ s
    · exact ⟨rfl, .inl rfl⟩
  · exact ⟨rfl, .inl rfl⟩

theorem onJournal_frame (s : State) (f : Token → Token) : TokenFrame s (s.onJournal f) :=
  TokenFrame.trans (b := s.framed.onToken fun t => journalPage (f t)) rfl (noteToken_frame _)

theorem onJournal_tok (s : State) (f : Token → Token) :
    (s.onJournal f).tok = { s.tok with wear := (s.onJournal f).tok.wear, readOnly := (s.onJournal f).tok.readOnly, socket := (s.onJournal f).tok.socket,
                                       txCount := s.tok.txCount + 1, rxCount := s.tok.rxCount + 1 } :=
  (noteToken_tok (s.framed.onToken fun t => journalPage (f t))).1

/-- The token of which a record is written: changed by it, and worn. -/
theorem onJournal_socket (s : State) (f : Token → Token) : ∃ g : Token → Token, (s.onJournal f).tok.socket = s.tok.socket.map g ∧ ∀ t, Worn (f t) (g t) := by
  rcases (noteToken_tok (s.framed.onToken fun t => journalPage (f t))).2 with h | h
  · exact ⟨fun t => journalPage (f t), h, fun t => worn_journalPage (f t)⟩
  · exact ⟨fun t => burnAll (journalPage (f t)), h.trans (Option.map_map _ _ _), fun t => worn_burnAll_journalPage (f t)⟩

theorem saveOverflow_frame (s : State) : TokenFrame s (saveOverflow s) := by
  unfold saveOverflow
  split
  · exact onJournal_frame _ _
  · exact rfl

theorem saveOverflow_full {s : State} (h : fullSession s = true) : saveOverflow s = s.onJournal (fun t => { t with overflow := s.alm.overflow }) := by
  unfold saveOverflow
  rw [if_pos h]

theorem fullSession_onJournal (s : State) (f : Token → Token) : fullSession (s.onJournal f) = fullSession s := by
  unfold fullSession
  rw [onJournal_tok]

theorem fullSession_saveOverflow (s : State) : fullSession (saveOverflow s) = fullSession s := by
  unfold saveOverflow
  split
  · exact fullSession_onJournal _ _
  · rfl

/-! ### Rights -/

/-- Every field but those of the debug unit and of the Almanac path is as before. -/
def RightsFrame (b t : State) : Prop := t = { b with dbg := t.dbg, alm := t.alm }

theorem setActive_frame (v : Nat) (s : State) : RightsFrame s (setActive v s) := by
  unfold setActive RightsFrame
  dsimp only
  split
  · rfl
  · split
    · rw [raiseEvent_frame]; rfl
    · rw [raiseEvent_frame]

theorem eraseCert_frame (s : State) : RightsFrame s (eraseCert s) := by
  unfold eraseCert RightsFrame
  rw [clampRights_frame]

theorem setActive_active (v : Nat) (s : State) : (setActive v s).dbg.active = BitVec.ofNat 6 (v &&& rightsAvailable s) := by
  unfold setActive
  dsimp only
  split
  case isTrue h => exact (eq_of_beq h).symm
  case isFalse =>
    rw [raiseEvent_dbg]
    split <;> rfl

/-- Where no right is active, none is. -/
theorem clampRights_zero {s : State} (h : s.dbg.active = 0) : clampRights s = s := by
  unfold clampRights
  rw [h]
  rfl

theorem eraseCert_zero {s : State} (h : s.dbg.active = 0) : eraseCert s = { s with dbg := { s.dbg with cert := none, certLive := false } } :=
  clampRights_zero h

theorem setActive_zero (s : State) : (setActive 0 s).dbg.active = 0 := by
  rw [setActive_active, Nat.zero_and]
  rfl

/-! ### The end of a session -/

theorem endSession_none {s : State} (h : anySession s = false) : endSession s = s := by
  unfold endSession
  rw [h]
  rfl

theorem endSession_frame (s : State) : endSession s =
    { s with fns := (endSession s).fns, tok := (endSession s).tok, alm := (endSession s).alm, out := (endSession s).out, dbg := (endSession s).dbg,
             sc := { s.sc with heldAuth := (endSession s).sc.heldAuth, heldAttest := (endSession s).sc.heldAttest } } := by
  unfold endSession
  split
  · rfl
  · dsimp only
    rw [clampRights_frame, show ∀ x, sessionEvent x = tokenEvent 0x0401 (tokenStatus x) x from fun _ => rfl, tokenEvent_frame]
    rfl

theorem endSession_tok {s : State} (h : anySession s = true) :
    (endSession s).tok = { dropSessionKeys s.tok with session := .ended, life := none, keysLoaded := false, socket := s.tok.socket.map burnAll } ∧
      (endSession s).sc = { s.sc with heldAuth := [], heldAttest := none } := by
  unfold endSession
  rw [h]
  have hnext : ∀ x, (clampRights (sessionEvent x)).tok = x.tok ∧ (clampRights (sessionEvent x)).sc = x.sc := fun x => by
    constructor <;> rw [clampRights_frame, show sessionEvent x = tokenEvent 0x0401 (tokenStatus x) x from rfl, tokenEvent_frame]
  exact ⟨(hnext _).1, (hnext _).2⟩

theorem anySession_of_full {s : State} (h : fullSession s = true) : anySession s = true := by
  unfold anySession
  unfold fullSession at h
  rw [h]
  rfl

end Sys2Proof.Machine

/-!
PROOFS. Lifecycle transitions.
-/
namespace Sys2Proof.Machine
set_option Elab.async false -- as in Laws: the one text has more theorems than threads

theorem exec_lcsAdvanceIntegrator (v : Word) (s : State) : exec (.lcsAdvanceIntegrator v) s = .next (lcsWrite v.toNat s) := rfl
theorem exec_lcsAdvanceFielded (v : Word) (s : State) : exec (.lcsAdvanceFielded v) s = .next (lcsWrite v.toNat s) := rfl
theorem exec_lcsAdvanceReturned (v : Word) (s : State) : exec (.lcsAdvanceReturned v) s = .next (lcsWrite v.toNat s) := rfl
theorem exec_lcsAdvanceScrapped (v : Word) (s : State) : exec (.lcsAdvanceScrapped v) s = .next (lcsWrite v.toNat s) := rfl
theorem exec_lcsTransition (s : State) : exec .lcsTransition s = .next (lcsFinish s) := rfl

/-! ### Acceptance -/

theorem lcsWrite_refused {v : Nat} {s : State} (hopen : pageOpen s .pf0 = true) (h : lcsRefusal s v ≠ 0) : lcsWrite v s = lcsRefused v (lcsRefusal s v) s := by
  unfold lcsWrite
  rw [hopen]
  simp [h]

theorem lcsWrite_accepted {v : Nat} {s : State} (hopen : pageOpen s .pf0 = true) (h : lcsRefusal s v = 0) : lcsWrite v s = lcsBegin (v % 256) s := by
  unfold lcsWrite
  rw [hopen, h]
  rfl

theorem lcsRefused_keeps (v why : Nat) (s : State) :
    (lcsRefused v why s).lcs = { s.lcs with refused := sat8 s.lcs.refused, lastRefuse := why } ∧ (lcsRefused v why s).sc = s.sc ∧ (lcsRefused v why s).tok = s.tok ∧
      (lcsRefused v why s).jobs = s.jobs ∧ (lcsRefused v why s).slots = s.slots := by
  unfold lcsRefused
  rw [raiseEvent_frame]
  exact ⟨rfl, rfl, rfl, rfl, rfl⟩

/-- The target is not the low byte's complement. -/
theorem lcsRefusal_pair {s : State} {v : Nat} (h : v / 256 % 256 + v % 256 ≠ 255) : lcsRefusal s v = 1 := by
  have hpair : (bitsOf v 8 8 != 255 - v % 256) = true := by
    rw [bne_iff_ne]
    have hbits : bitsOf v 8 8 = v / 256 % 256 := by simp [bitsOf]
    omega
  unfold lcsRefusal
  simp [hpair]

/-- What a write with the complement pair is refused for. -/
theorem lcsRefusal_of_pair {s : State} {v : Nat} (hv : v < 65536) (h : v / 256 % 256 + v % 256 = 255) (hcode : stateCodes.contains (v % 256) = true) :
    lcsRefusal s v = if !(targetAllowed (lcCode s) (v % 256)) then 2 else if !(targetReady s (v % 256)) then 3 else if s.lcs.busy then 4 else 0 := by
  have hpair : bitsOf v 8 8 = 255 - v % 256 := by
    have hbits : bitsOf v 8 8 = v / 256 % 256 := by simp [bitsOf]
    omega
  unfold lcsRefusal
  simp only [hpair, hcode, bne_self_eq_false, Bool.not_true, Bool.or_false]
  rw [if_neg (by simpa using hv)]

/-! ### The begin -/

/-- BUSY, the BEGIN record and the begin fuse; rights lapse. -/
def lcsMarked (target : Nat) (s : State) : State :=
  let s := { s with lcs := { s.lcs with busy := true, target := target } }
  clampRights (burnBegin (fuseOf target) (if fullSession s then s.onJournal (fun (t : Token) => { t with lcsBegin := some target }) else s))

/-- The side effects come after the begin fuse; the module's own service ends first. -/
theorem lcsBegin_eq (target : Nat) (s : State) : lcsBegin target s =
    (let t := if target == 0x0F || target == 0x1F then endService (lcsMarked target s) else lcsMarked target s
     if target == 0x07 then tokenEffects target (dieEffects target t) else dieEffects target (tokenEffects target t)) := rfl

theorem lcsBegin_integrator (s : State) : lcsBegin 0x03 s = tokenEffects 0x03 (lcsMarked 0x03 s) := by simp [lcsBegin_eq, dieEffects]
theorem lcsBegin_fielded (s : State) : lcsBegin 0x07 s = tokenEffects 0x07 (dieEffects 0x07 (lcsMarked 0x07 s)) := by simp [lcsBegin_eq]
theorem lcsBegin_ended {target : Nat} (h : target = 0x0F ∨ target = 0x1F) (s : State) :
    lcsBegin target s = dieEffects target (tokenEffects target (endService (lcsMarked target s))) := by
  rcases h with rfl | rfl <;> simp [lcsBegin_eq]

theorem lcsMarked_frame (target : Nat) (s : State) : lcsMarked target s =
    { s with fns := (lcsMarked target s).fns, tok := (lcsMarked target s).tok, alm := (lcsMarked target s).alm, out := (lcsMarked target s).out,
             dbg := (lcsMarked target s).dbg, lcs := { s.lcs with busy := true, target := target },
             sc := { s.sc with lcFuses := if s.sc.lcFuses.contains (fuseOf target) then s.sc.lcFuses else s.sc.lcFuses ++ [fuseOf target] } } := by
  unfold lcsMarked burnBegin
  dsimp only
  rw [clampRights_frame]
  split
  · rw [onJournal_frame]
  · rfl

theorem mem_burned (k : Nat) (l : List Nat) : k ∈ if l.contains k then l else l ++ [k] := by
  split
  case isTrue h => simpa using h
  case isFalse => simp

theorem lcsMarked_fuse (target : Nat) (s : State) : fuseOf target ∈ (lcsMarked target s).sc.lcFuses := by
  rw [lcsMarked_frame]
  exact mem_burned _ _

theorem fullSession_lcsMarked (target : Nat) (s : State) : fullSession (lcsMarked target s) = fullSession s := by
  unfold lcsMarked burnBegin
  dsimp only
  unfold fullSession
  rw [clampRights_frame]
  split
  · rw [onJournal_tok]
  · rfl

/-! ### The side effects -/

theorem tokenEffects_frame (target : Nat) (s : State) : tokenEffects target s =
    { s with fns := (tokenEffects target s).fns, tok := (tokenEffects target s).tok, alm := (tokenEffects target s).alm, out := (tokenEffects target s).out,
             dbg := (tokenEffects target s).dbg,
             sc := { s.sc with policies := (tokenEffects target s).sc.policies, heldAuth := (tokenEffects target s).sc.heldAuth,
                               heldAttest := (tokenEffects target s).sc.heldAttest } } := by
  unfold tokenEffects
  split
  · rfl
  · dsimp only
    split
    · rw [endSession_frame]
      unfold State.onToken
      dsimp only
      rw [onJournal_frame]
      split
      · unfold zeroArea State.onToken
        dsimp only
        rw [saveOverflow_frame]
      · rw [saveOverflow_frame]
    · rw [onJournal_frame]
      split
      · unfold zeroArea State.onToken
        dsimp only
        rw [saveOverflow_frame]
      · rw [saveOverflow_frame]

theorem dieEffects_fielded (s : State) :
    (dieEffects 0x07 s).sc = { s.sc with debugLock := true } ∧ (dieEffects 0x07 s).lcs = s.lcs ∧ (dieEffects 0x07 s).jobs = s.jobs ∧
      (dieEffects 0x07 s).dbg.active = 0 ∧ (dieEffects 0x07 s).dbg.cert = none := by
  have hdie : dieEffects 0x07 s = eraseCert (setActive 0 { s with sc := { s.sc with debugLock := true } }) := rfl
  rw [hdie, eraseCert_zero (setActive_zero _)]
  exact ⟨by rw [setActive_frame], by rw [setActive_frame], by rw [setActive_frame], setActive_zero _, rfl⟩

/-- Every entry of the custody bank is blown. -/
theorem blowCustody_bank (s : State) : ∀ e ∈ (blowCustody s).sc.custodyBank, e.live = false := by
  intro e he
  rcases List.mem_append.1 he with h | h
  · obtain ⟨_, _, rfl⟩ := List.mem_map.1 h
    rfl
  · rw [List.eq_of_mem_replicate h]

/-- The state that the die-side rows of RETURNED and SCRAPPED leave, but for the rights. -/
def blownState (target : Nat) (s : State) : State :=
  { blowCustody s with sc := { (blowCustody s).sc with rootBlown := true, drsBlown := s.sc.drsBlown || target == 0x1F } }

theorem dieEffects_ended {target : Nat} (h : target = 0x0F ∨ target = 0x1F) (s : State) : dieEffects target s = eraseCert (blownState target s) := by
  rcases h with rfl | rfl <;> simp [dieEffects, blownState, blowCustody]

theorem eraseCert_cert (s : State) : (eraseCert s).dbg.cert = none := (clampRights_keeps _).1

theorem dieEffects_ended_keeps {target : Nat} (h : target = 0x0F ∨ target = 0x1F) (s : State) :
    (dieEffects target s).lcs = s.lcs ∧ (dieEffects target s).tam = s.tam ∧ (dieEffects target s).tok = s.tok ∧ (dieEffects target s).dbg.cert = none ∧
      (dieEffects target s).sc.lcFuses = s.sc.lcFuses ∧ (dieEffects target s).sc.wrapKey = s.sc.wrapKey ∧ (dieEffects target s).sc.rootBlown = true ∧
      (dieEffects target s).sc.drsBlown = (s.sc.drsBlown || target == 0x1F) ∧ (∀ e ∈ (dieEffects target s).sc.custodyBank, e.live = false) := by
  rw [dieEffects_ended h]
  refine ⟨?_, ?_, ?_, eraseCert_cert _, ?_, ?_, ?_, ?_, ?_⟩ <;> rw [eraseCert_frame]
  case refine_8 => exact blowCustody_bank s
  all_goals rfl

theorem endService_keeps (s : State) :
    (endService s).lcs = s.lcs ∧ (endService s).tam.quarantine = true ∧ (endService s).sc.wrapKey = none ∧ fullSession (endService s) = fullSession s ∧
      (∀ k, k ∈ s.sc.lcFuses → k ∈ (endService s).sc.lcFuses) := by
  have hends : Ends True s (abortJobs .abortedHost (fun _ => true) s) := ends_foldl (fun _ _ => ends_abortJob trivial _ _) (.refl s)
  refine ⟨?_, rfl, rfl, ?_, ?_⟩
  · rw [show (endService s).lcs = (abortJobs .abortedHost (fun _ => true) s).lcs from rfl, hends.frame]
  · unfold fullSession
    rw [show (endService s).tok.session = (abortJobs .abortedHost (fun _ => true) s).tok.session from rfl, hends.frame]
  · intro k hk
    exact (keeps_endService (K := ⟨True, True, True, True⟩) s (.refl s)).fuses.lc k hk

/-- SCRAPPED's token-side rows but for the end of the session. -/
def scrapToken (s : State) : State :=
  ((zeroArea (saveOverflow s)).onJournal fun t => { t with lcsBegin := none }).onToken fun t => { t with claim := none }

theorem tokenEffects_scrapped_eq {s : State} (h : fullSession s = true) : tokenEffects 0x1F s = endSession (scrapToken s) := by
  simp [tokenEffects, scrapToken, h]

theorem scrapToken_full {s : State} (h : fullSession s = true) : fullSession (scrapToken s) = true :=
  ((fullSession_onJournal (zeroArea (saveOverflow s)) _).trans (fullSession_saveOverflow s)).trans h

theorem scrapToken_socket {s : State} {u : Token} (hu : (scrapToken s).tok.socket = some u) :
    u.masters = [] ∧ u.authorities = [] ∧ u.stateful = [] ∧ u.policies = [] ∧ u.claim = none := by
  obtain ⟨g, hg, hworn⟩ := onJournal_socket (zeroArea (saveOverflow s)) (fun t => { t with lcsBegin := none })
  obtain ⟨t, ht, rfl⟩ := Option.map_eq_some_iff.1 hu
  rw [hg] at ht
  obtain ⟨z, hz, rfl⟩ := Option.map_eq_some_iff.1 ht
  obtain ⟨r, _, rfl⟩ := Option.map_eq_some_iff.1 hz
  obtain ⟨hsame, hstateful⟩ := hworn (zeroAnchored r)
  exact ⟨congrArg Token.masters hsame, congrArg Token.authorities hsame, hstateful.elim id id, congrArg Token.policies hsame, rfl⟩

/-- The token of a FULL session after SCRAPPED: no anchored key, no claim. -/
theorem tokenEffects_scrapped {s : State} (h : fullSession s = true) {u : Token} (hu : (tokenEffects 0x1F s).tok.socket = some u) :
    u.masters = [] ∧ u.authorities = [] ∧ u.stateful = [] ∧ u.policies = [] ∧ u.claim = none := by
  rw [tokenEffects_scrapped_eq h, (endSession_tok (anySession_of_full (scrapToken_full h))).1] at hu
  obtain ⟨t, ht, rfl⟩ := Option.map_eq_some_iff.1 hu
  obtain ⟨hmasters, hauth, hstateful, hpolicies, hclaim⟩ := scrapToken_socket ht
  exact ⟨hmasters, hauth, by rw [burnAll, hstateful]; rfl, hpolicies, hclaim⟩

/-! ### The end -/

theorem lcsFinish_idle {s : State} (h : s.lcs.busy = false) : lcsFinish s = s := by
  unfold lcsFinish
  rw [h]
  rfl

theorem lcsFinish_busy {s : State} (h : s.lcs.busy = true) (hseal : s.sc.sealDead = false) :
    lcsFinish s = closeTransition (fuseOf s.lcs.target) { s with lcs := { s.lcs with busy := false, target := 0 } } := by
  have hdead : ∀ k x, (closeTransition k x).sc.sealDead = x.sc.sealDead := fun k x => by
    unfold closeTransition
    rw [raiseEvent_frame]
    rfl
  unfold lcsFinish
  simp [h, hdead, hseal]

theorem lcsFinish_does {s : State} (h : s.lcs.busy = true) (hseal : s.sc.sealDead = false) : Does .lcsTransition s (fun t => t.lcs.busy = false ∧
    fuseOf s.lcs.target ∈ t.sc.endFuses ∧ t.sc.lcFuses = s.sc.lcFuses ∧ t.alm.eventSeq = sat32 s.alm.eventSeq) := by
  refine ⟨_, exec_lcsTransition s, ?_⟩
  rw [lcsFinish_busy h hseal]
  unfold closeTransition
  refine ⟨?_, ?_, ?_, ?_⟩
  · rw [raiseEvent_lcs]; rfl
  · rw [raiseEvent_sc]; exact mem_burned _ _
  · rw [raiseEvent_sc]; rfl
  · rw [raiseEvent_alm_eventSeq]; rfl

/-! ### What a write does -/

/-- What RETURNED and SCRAPPED leave. -/
theorem lcsBegin_ended_does {target : Nat} (h : target = 0x0F ∨ target = 0x1F) (s : State) :
    (lcsBegin target s).lcs.busy = true ∧ fuseOf target ∈ (lcsBegin target s).sc.lcFuses ∧ (lcsBegin target s).sc.rootBlown = true ∧
      (target = 0x1F → (lcsBegin target s).sc.drsBlown = true) ∧ (lcsBegin target s).sc.wrapKey = none ∧ (lcsBegin target s).tam.quarantine = true ∧
      (lcsBegin target s).dbg.cert = none ∧ (∀ e ∈ (lcsBegin target s).sc.custodyBank, e.live = false) := by
  obtain ⟨hlcs, htam, hwrap, _, hfuses⟩ := endService_keeps (lcsMarked target s)
  rw [lcsBegin_ended h]
  obtain ⟨klcs, ktam, _, kcert, kfuses, kwrap, kroot, kdrs, kbank⟩ := dieEffects_ended_keeps h (tokenEffects target (endService (lcsMarked target s)))
  refine ⟨?_, ?_, kroot, ?_, ?_, ?_, kcert, kbank⟩
  · rw [klcs, tokenEffects_frame, hlcs, lcsMarked_frame]
  · rw [kfuses, tokenEffects_frame]
    exact hfuses _ (lcsMarked_fuse target s)
  · rintro rfl
    rw [kdrs]
    exact Bool.or_true _
  · rw [kwrap, tokenEffects_frame]
    exact hwrap
  · rw [ktam, tokenEffects_frame]
    exact htam

theorem lcsBegin_scrapped_token {s : State} (h : fullSession s = true) {u : Token} (hu : (lcsBegin 0x1F s).tok.socket = some u) :
    u.masters = [] ∧ u.authorities = [] ∧ u.stateful = [] ∧ u.policies = [] ∧ u.claim = none := by
  obtain ⟨_, _, _, hfull, _⟩ := endService_keeps (lcsMarked 0x1F s)
  rw [lcsBegin_ended (.inr rfl), (dieEffects_ended_keeps (.inr rfl) _).2.2.1] at hu
  exact tokenEffects_scrapped (hfull.trans ((fullSession_lcsMarked _ s).trans h)) hu

theorem tokenEffects_open {target : Nat} (h : target = 0x03 ∨ target = 0x07) (s : State) : TokenFrame s (tokenEffects target s) := by
  by_cases hfull : fullSession s = true
  · have heffects : tokenEffects target s = (saveOverflow s).onJournal fun t => { t with lcsBegin := none } := by
      rcases h with rfl | rfl <;> simp [tokenEffects, hfull]
    rw [heffects]
    exact (saveOverflow_frame s).trans (onJournal_frame _ _)
  · have heffects : tokenEffects target s = s := by simp [tokenEffects, hfull]
    rw [heffects]
    exact rfl

/-- Settles O45: the list of refusals, then each target's rows in their order. -/
theorem lifecycleTransitions : Obligations.LifecycleTransitions := by
  refine ⟨fun v s hopen => ⟨?_, ?_, ?_, ?_, ?_, lcsFinish_does, fun h => ?_⟩, fun v s hv => ⟨lcsRefusal_pair, ?_, ?_, ?_, ?_, ?_, ?_, ?_⟩⟩
  · rintro why rfl hwhy
    refine ⟨⟨_, exec_lcsAdvanceFielded v s, ?_⟩, rfl, rfl, rfl⟩
    rw [lcsWrite_refused hopen hwhy]
    exact lcsRefused_keeps _ _ s
  · intro h htarget
    refine ⟨_, exec_lcsAdvanceIntegrator v s, ?_⟩
    rw [lcsWrite_accepted hopen h, htarget, lcsBegin_integrator, tokenEffects_open (.inl rfl)]
    refine ⟨?_, ?_, lcsMarked_fuse 0x03 s, ?_, ?_, ?_⟩ <;> rw [lcsMarked_frame]
  · intro h htarget
    refine ⟨_, exec_lcsAdvanceFielded v s, ?_⟩
    obtain ⟨ksc, klcs, kjobs, kactive, kcert⟩ := dieEffects_fielded (lcsMarked 0x07 s)
    rw [lcsWrite_accepted hopen h, htarget, lcsBegin_fielded, tokenEffects_open (.inr rfl)]
    refine ⟨?_, ?_, ?_, kactive, kcert, ?_⟩
    · exact (congrArg Lifecycle.busy klcs).trans (by rw [lcsMarked_frame])
    · rw [ksc]
      exact lcsMarked_fuse 0x07 s
    · rw [ksc]
    · exact kjobs.trans (by rw [lcsMarked_frame])
  · intro h htarget
    refine ⟨_, exec_lcsAdvanceReturned v s, ?_⟩
    rw [lcsWrite_accepted hopen h, htarget]
    obtain ⟨hbusy, hfuse, hroot, _, hwrap, hquar, hcert, hbank⟩ := lcsBegin_ended_does (.inl rfl) s
    exact ⟨hbusy, hfuse, hroot, hwrap, hquar, hcert, hbank⟩
  · intro h htarget
    refine ⟨_, exec_lcsAdvanceScrapped v s, ?_⟩
    rw [lcsWrite_accepted hopen h, htarget]
    obtain ⟨hbusy, hfuse, hroot, hdrs, hwrap, hquar, _, _⟩ := lcsBegin_ended_does (.inr rfl) s
    exact ⟨hbusy, hfuse, hroot, hdrs rfl, hwrap, hquar, fun hfull u hu => lcsBegin_scrapped_token hfull hu⟩
  · rw [exec_lcsTransition, lcsFinish_idle h]
  all_goals intro hpair htarget
  · intro hcode
    rw [lcsRefusal_of_pair hv hpair (by rw [htarget]; rfl), htarget]
    simp [targetAllowed, hcode]
  · intro hcode
    rw [lcsRefusal_of_pair hv hpair (by rw [htarget]; rfl), htarget]
    simp [targetAllowed, hcode]
  · intro hcode
    rw [lcsRefusal_of_pair hv hpair (by rw [htarget]; rfl), htarget]
    simp [targetAllowed, hcode]
  · intro hcode hbank
    rw [lcsRefusal_of_pair hv hpair (by rw [htarget]; rfl), htarget]
    simp [targetAllowed, targetReady, hcode, hbank]
  · intro hcode hroot
    rw [lcsRefusal_of_pair hv hpair (by rw [htarget]; rfl), htarget]
    simp [targetAllowed, targetReady, hcode, hroot]
  · intro hcode hroot hbusy
    rw [lcsRefusal_of_pair hv hpair (by rw [htarget]; rfl), htarget]
    simp [targetAllowed, targetReady, hcode, hroot, hbusy]
  · intro hbusy
    rw [lcsRefusal_of_pair hv hpair (by rw [htarget]; rfl), htarget]
    simp [targetAllowed, targetReady, hbusy]

end Sys2Proof.Machine

/-!
PROOFS. Tamper alarms by their class.
-/
namespace Sys2Proof.Machine
set_option Elab.async false -- as in Laws: the one text has more theorems than threads

theorem exec_tamperAlarm (n q reading : Nat) (s : State) : exec (.tamperAlarm n q reading) s = .next (tamperAlarm n q reading s) := rfl

/-! ### Classes -/

theorem minClass_le_setClass (s : State) (n : Nat) : minClass n ≤ setClass s n := Nat.le_max_left _ _

theorem alarmClass_ne_destroy {s : State} (h : lcCode s ≠ 0x07) (n : Nat) : alarmClass s n ≠ 3 := by
  unfold alarmClass
  split
  · decide
  · split
    · decide
    case isFalse hset =>
      intro hthree
      exact hset (by simp [hthree, h])

theorem alarmClass_erase {s : State} {n : Nat} (hn : 10 ≤ n) (hn' : n < 15) (hscan : s.dbg.active.getLsbD 5 = false) : 2 ≤ alarmClass s n := by
  have hmin : minClass n = 2 := by
    unfold minClass
    rw [if_neg (by omega), if_pos hn']
  unfold alarmClass
  rw [hscan, Bool.and_false, Bool.false_and, if_neg Bool.false_ne_true]
  split
  · exact Nat.le_refl 2
  · exact hmin ▸ minClass_le_setClass s n

theorem tamperAlarm_quiet {s : State} {n : Nat} (h : canAlarm s n = false) (q reading : Nat) : tamperAlarm n q reading s = s := by
  unfold tamperAlarm
  rw [h]
  rfl

/-! ### The record -/

theorem noteAlarm_frame (n q cls reading : Nat) (s : State) : noteAlarm n q cls reading s =
    { s with tam := noteSensor n q cls reading s.tam, fns := (noteAlarm n q cls reading s).fns, out := (noteAlarm n q cls reading s).out,
             dbg := (noteAlarm n q cls reading s).dbg, alm := (noteAlarm n q cls reading s).alm } := by
  unfold noteAlarm
  dsimp only
  split
  · rw [trace_frame, show ∀ d v (x : State), ringEvent .pf0 0x0030 0xFFFF d v x =
      { x with fns := (ringEvent .pf0 0x0030 0xFFFF d v x).fns, out := (ringEvent .pf0 0x0030 0xFFFF d v x).out } from fun _ _ x => linkOnly_ringEvent _ _ _ _ _ (.refl x),
      raiseEvent_frame]
  · rw [raiseEvent_frame]

theorem noteSensor_bit {n : Nat} (hn : n < 16) (q cls reading : Nat) (t : Tamper) : (noteSensor n q cls reading t).sensor.getLsbD n = true := by
  unfold noteSensor
  rw [BitVec.getLsbD_or, BitVec.getLsbD_ofNat, Nat.testBit_two_pow_self]
  simp [hn]

theorem tamperAlarm_run {s : State} {n : Nat} (hcan : canAlarm s n = true) (hpg : s.pwr.pg = true) (hdone : s.boot.done = true) (q reading : Nat) :
    tamperAlarm n q reading s = runAlarm n q (alarmClass s n) (noteAlarm n q (alarmClass s n) reading s) := by
  have hpwr : (noteAlarm n q (alarmClass s n) reading s).pwr = s.pwr := by rw [noteAlarm_frame]
  have hboot : (noteAlarm n q (alarmClass s n) reading s).boot = s.boot := by rw [noteAlarm_frame]
  unfold tamperAlarm
  simp [hcan, hpwr, hboot, hpg, hdone]

/-! ### ABORT -/

theorem rerunAdmission_keeps (p : Pool) (s : State) : (rerunAdmission p s).units = s.units ∧ (rerunAdmission p s).tam = s.tam := by
  unfold rerunAdmission
  dsimp only
  split <;> simp

theorem foldl_view {α β : Type} {f : State → α → State} {v : State → β} (hf : ∀ t x, v (f t x) = v t) (l : List α) (s : State) : v (l.foldl f s) = v s := by
  induction l generalizing s with
  | nil => rfl
  | cons x l ih => exact (ih (f s x)).trans (hf s x)

/-- The jobs of an ABORT's units have ended. -/
def abortedOn (n q : Nat) (s : State) : State :=
  let hit := (s.units.filter (fun (u : UnitSt) => underSensor s.part n q u.id)).map (fun (u : UnitSt) => u.id)
  ((hit.flatMap (fun u => jobsOn u s)).eraseDups).foldl (fun s i => abortJob .abortedTamper i s) s

theorem ends_abortedOn (n q : Nat) (s : State) : Ends True s (abortedOn n q s) := ends_foldl (fun _ _ => ends_abortJob trivial _ _) (.refl s)

/-- The units under an alarm, by their ids. -/
def hitBy (n q : Nat) (s : State) : List Nat := (s.units.filter (fun (u : UnitSt) => underSensor s.part n q u.id)).map (fun (u : UnitSt) => u.id)

theorem abortUnits_units (n q : Nat) (s : State) : (abortUnits n q s).units =
    (abortedOn n q s).units.map (fun u => if (hitBy n q s).contains u.id && u.st == UnitState.inService then { u with st := .heldTamper } else u) := by
  unfold abortUnits
  dsimp only
  rw [foldl_view (v := State.units) fun t p => (rerunAdmission_keeps p t).1]
  rfl

theorem abortUnits_tam (n q : Nat) (s : State) : (abortUnits n q s).tam = { s.tam with holds := (abortUnits n q s).tam.holds } := by
  unfold abortUnits
  dsimp only
  rw [foldl_view (v := State.tam) fun t p => (rerunAdmission_keeps p t).2]
  have hends := (ends_abortedOn n q s).frame
  unfold abortedOn at hends
  dsimp only at hends
  rw [hends]

/-- A unit under an ABORT is not in service. -/
theorem abortUnits_held {n q : Nat} {s : State} {u : UnitSt} (hu : u ∈ (abortUnits n q s).units) (hunder : underSensor s.part n q u.id = true) : u.st ≠ .inService := by
  rw [abortUnits_units] at hu
  obtain ⟨x, hx, rfl⟩ := List.mem_map.1 hu
  obtain ⟨y, hy, hfreed, _⟩ := elementwise_mem_right (ends_abortedOn n q s).units hx
  have hid : (if (hitBy n q s).contains x.id && x.st == UnitState.inService then { x with st := .heldTamper } else x).id = y.id := by
    rw [show y.id = x.id by rw [hfreed]]
    split <;> rfl
  rw [hid] at hunder
  have hhit : (hitBy n q s).contains x.id = true := by
    rw [List.contains_iff_mem, show x.id = y.id by rw [hfreed]]
    exact List.mem_map.2 ⟨y, List.mem_filter.2 ⟨hy, hunder⟩, rfl⟩
  rw [hhit, Bool.true_and]
  split
  · exact fun h => nomatch h
  case isFalse h => simpa using h

theorem abortAlarm_governed {n q : Nat} {s : State} (h : (alarmsNow s).erase = true) : abortAlarm n q s = s := by
  unfold abortAlarm
  dsimp only
  rw [if_pos h]

theorem abortAlarm_free {n q : Nat} {s : State} (h : (alarmsNow s).erase = false) :
    (abortAlarm n q s).units = (abortUnits n q s).units ∧ (abortAlarm n q s).tam.sensor = s.tam.sensor ∧ (abortAlarm n q s).tam.quarantine = s.tam.quarantine := by
  have hsensor : (abortUnits n q s).tam.sensor = s.tam.sensor := by rw [abortUnits_tam]
  have hquar : (abortUnits n q s).tam.quarantine = s.tam.quarantine := by rw [abortUnits_tam]
  unfold abortAlarm
  dsimp only
  rw [h, if_neg Bool.false_ne_true]
  exact ⟨rfl, hsensor, hquar⟩

/-! ### ERASE -/

theorem governAborts_tam (s : State) : (governAborts s).tam = { s.tam with now := (governAborts s).tam.now, holds := (governAborts s).tam.holds } := by
  unfold governAborts
  dsimp only
  split <;> rfl

theorem quarantine_tam (c : Nat) (s : State) : (quarantine c s).tam = { s.tam with quarantine := true, qCause := (quarantine c s).tam.qCause } := by
  unfold quarantine
  split
  case isTrue h => rw [← h]
  case isFalse => rfl

/-- The module's keys are gone, its service has stopped. -/
def erasedKeys (s : State) : State := eraseKeys (abortJobs .abortedTamper (fun _ => true) (quarantine 1 (governAborts s)))

/-- A DESTROY's writes are pending. -/
def destroyMarked (cls : Nat) (s : State) : State := { s with tam := { s.tam with destroyPending := s.tam.destroyPending || cls == 3 } }

theorem eraseAlarm_eq (s : State) : eraseAlarm s =
    { setActive 0 (eraseCert (erasedKeys s)) with tam := { (setActive 0 (eraseCert (erasedKeys s))).tam with sessionOver := true } } := rfl

theorem erasedKeys_tam (s : State) : (erasedKeys s).tam = (quarantine 1 (governAborts s)).tam := by
  have hends : Ends True _ (abortJobs .abortedTamper (fun _ => true) (quarantine 1 (governAborts s))) := ends_foldl (fun _ _ => ends_abortJob trivial _ _) (.refl _)
  exact (by rw [hends.frame] : (abortJobs .abortedTamper (fun _ => true) (quarantine 1 (governAborts s))).tam = _)

theorem eraseAlarm_does (s : State) : (eraseAlarm s).tam.sensor = s.tam.sensor ∧ (eraseAlarm s).tam.quarantine = true ∧ (eraseAlarm s).sc.wrapKey = none ∧
    (eraseAlarm s).sc.sealDead = true ∧ (eraseAlarm s).dbg.active = 0 ∧ (eraseAlarm s).tam.sessionOver = true ∧
    (eraseAlarm s).tam.destroyPending = s.tam.destroyPending := by
  have hrest : RightsFrame (erasedKeys s) (setActive 0 (eraseCert (erasedKeys s))) := by
    unfold RightsFrame
    rw [setActive_frame, eraseCert_frame]
  rw [eraseAlarm_eq]
  refine ⟨?_, ?_, ?_, ?_, setActive_zero (eraseCert (erasedKeys s)), rfl, ?_⟩ <;> rw [hrest]
  case refine_1 => exact (congrArg Tamper.sensor (erasedKeys_tam s)).trans (by rw [quarantine_tam, governAborts_tam])
  case refine_2 => exact (congrArg Tamper.quarantine (erasedKeys_tam s)).trans (by rw [quarantine_tam])
  case refine_5 => exact (congrArg Tamper.destroyPending (erasedKeys_tam s)).trans (by rw [quarantine_tam, governAborts_tam])
  all_goals rfl

theorem runAlarm_warn (n q : Nat) (s : State) : runAlarm n q 0 s = s := rfl
theorem runAlarm_abort (n q : Nat) (s : State) : runAlarm n q 1 s = abortAlarm n q s := rfl
theorem runAlarm_erase {cls : Nat} (h : 2 ≤ cls) (n q : Nat) (s : State) : runAlarm n q cls s = eraseAlarm (destroyMarked cls s) := by
  unfold runAlarm
  rw [if_neg (by simp; omega), if_neg (by simp; omega)]
  rfl

/-! ### The obligation -/

theorem canAlarm_of {s : State} {n : Nat} (hpg : s.pwr.pg = true) (haux : n = 12 ∨ n = 13 ∨ n = 15 → s.pwr.auxPowered = true)
    (hrate : n = 14 → 8 ≤ (s.tam.mismatches.filter (fun t => s.clk < t + 100000000)).length) : canAlarm s n = true := by
  have hpower : (if auxSensor n then s.pwr.auxPowered else s.pwr.pg) = true := by
    split
    case isTrue h => exact haux (by simpa [auxSensor] using h)
    case isFalse => exact hpg
  unfold canAlarm
  rw [hpower, Bool.true_and]
  by_cases h : n = 14
  · simpa [h] using hrate h
  · simp [h]

/-- Settles O47: the class decides between the record alone, the abort of the units under the sensor, and the erasure. -/
theorem tamperAlarmsByClass : Obligations.TamperAlarmsByClass := by
  refine ⟨fun n q reading s hn hpg hdone haux hrate => ⟨_, exec_tamperAlarm n q reading s, ?_⟩, fun n q reading s hpg h12 h13 h15 => ?_, fun q reading s _ hfew => ?_,
    fun s n => ⟨fun h => if_pos h, fun h h' => ?_, fun h => alarmClass_ne_destroy h n, alarmClass_erase⟩⟩
  · rw [tamperAlarm_run (canAlarm_of hpg haux hrate) hpg hdone]
    generalize alarmClass s n = cls
    have hframe := noteAlarm_frame n q cls reading s
    have htam : (noteAlarm n q cls reading s).tam = noteSensor n q cls reading s.tam := by rw [hframe]
    have hbit : (noteAlarm n q cls reading s).tam.sensor.getLsbD n = true := htam ▸ noteSensor_bit hn q cls reading s.tam
    have hquar : (noteAlarm n q cls reading s).tam.quarantine = s.tam.quarantine := by rw [htam]; rfl
    have hnow : (alarmsNow (noteAlarm n q cls reading s)).erase = (alarmsNow s).erase := by
      unfold alarmsNow
      rw [hframe]
      rfl
    obtain rfl | rfl | hcls : cls = 0 ∨ cls = 1 ∨ 2 ≤ cls := by omega
    · rw [runAlarm_warn]
      refine ⟨hbit, fun _ => ⟨hquar, ?_, ?_, ?_, ?_⟩, (nomatch ·), (nomatch ·), fun h => absurd h (by decide)⟩
      · exact (by rw [hframe] : (noteAlarm n q 0 reading s).jobs = s.jobs)
      · exact (by rw [hframe] : (noteAlarm n q 0 reading s).units = s.units)
      · exact (by rw [hframe] : (noteAlarm n q 0 reading s).slots = s.slots)
      · exact (by rw [hframe] : (noteAlarm n q 0 reading s).sc = s.sc)
    · rw [runAlarm_abort]
      refine ⟨?_, (nomatch ·), fun _ he => ?_, fun _ he => ?_, fun h => absurd h (by decide)⟩
      · by_cases hgov : (alarmsNow s).erase = true
        · rw [abortAlarm_governed (hnow.trans hgov)]
          exact hbit
        · rw [(abortAlarm_free (hnow.trans (eq_false_of_ne_true hgov))).2.1]
          exact hbit
      · obtain ⟨hunits, _, hkept⟩ := abortAlarm_free (n := n) (q := q) (hnow.trans he)
        refine ⟨hkept.trans hquar, fun u hu hunder => abortUnits_held (hunits ▸ hu) ?_⟩
        rw [hframe]
        exact hunder
      · rw [abortAlarm_governed (hnow.trans he), hframe]
        exact ⟨rfl, rfl⟩
    · obtain ⟨esensor, equar, ewrap, edead, eactive, eover, edestroy⟩ := eraseAlarm_does (destroyMarked cls (noteAlarm n q cls reading s))
      rw [runAlarm_erase hcls]
      refine ⟨esensor ▸ hbit, fun h => by omega, fun h => by omega, fun h => by omega, fun _ => ⟨equar, ewrap, edead, eactive, eover, ?_⟩⟩
      rintro rfl
      exact edestroy.trans (Bool.or_true _)
  · rw [exec_tamperAlarm, tamperAlarm_quiet]
    unfold canAlarm auxSensor
    simp [h12, h13, h15, hpg]
  · rw [exec_tamperAlarm, tamperAlarm_quiet]
    have hlen := List.length_filter_le (fun t => decide (s.clk < t + 100000000)) s.tam.mismatches
    unfold canAlarm
    simp
    omega
  · unfold minClass
    rw [if_neg (by omega), if_pos h']

end Sys2Proof.Machine

/-!
PROOFS. How tamper responses end.
-/
namespace Sys2Proof.Machine
set_option Elab.async false -- as in Laws: the one text has more theorems than threads

theorem exec_sealingKeyDestroy (s : State) : exec .sealingKeyDestroy s = .next (destroySeal s) := rfl
theorem exec_destroyZeroizeEnd (s : State) : exec .destroyZeroizeEnd s = .next (zeroizeEnd s) := rfl
theorem exec_tamperHoldEnd (n q : Nat) (s : State) : exec (.tamperHoldEnd n q) s = .next (holdEnd n q s) := rfl
theorem exec_tamperConditionClear (n q : Nat) (s : State) : exec (.tamperConditionClear n q) s = .next (condClear n q s) := rfl
theorem exec_tamperAckSensor (v : Word) (s : State) : exec (.tamperAckSensor v) s = .next (ackSensors v.toNat s) := rfl
theorem exec_tamperAckSleepLatch (v : Word) (s : State) : exec (.tamperAckSleepLatch v) s = .next (ackLatch v.toNat s) := rfl

/-! ### The sealing key and the anchored area -/

theorem destroySeal_acts {s : State} (hdead : s.sc.sealDead = true) (hkey : s.sc.sealKey.isSome = true) : destroySeal s =
    { s with sc := { s.sc with sealKey := none }, slots := s.slots.map (fun x => { freeSlot x with changed := none }), mem := { s.mem with pkCache := [] } } := by
  unfold destroySeal
  rw [hdead, hkey]
  rfl

theorem destroySeal_idle {s : State} (h : s.sc.sealDead = false ∨ s.sc.sealKey = none) : destroySeal s = s := by
  unfold destroySeal
  rcases h with h | h
  · rw [h]; rfl
  · rw [h, Option.isSome_none, Bool.and_false]; rfl

theorem zeroizeEnd_idle {s : State} (h : s.pwr.pg = false ∨ s.tam.destroyPending = false ∨ fullSession s = false) : zeroizeEnd s = s := by
  unfold zeroizeEnd
  rcases h with h | h | h <;> simp [h]

/-- The area reads zeros and DESTROY's mark is cleared, before the session ends. -/
def areaZeroed (s : State) : State := { zeroArea s with tam := { s.tam with destroyPending := false } }

theorem zeroizeEnd_acts {s : State} (hpg : s.pwr.pg = true) (hpending : s.tam.destroyPending = true) (hfull : fullSession s = true) :
    zeroizeEnd s = endSession (areaZeroed s) := by
  unfold zeroizeEnd
  rw [hpg, hpending, hfull]
  rfl

theorem zeroizeEnd_does {s : State} {tk : Token} (hpg : s.pwr.pg = true) (hpending : s.tam.destroyPending = true) (hfull : fullSession s = true)
    (htoken : s.tok.socket = some tk) : (zeroizeEnd s).tam.destroyPending = false ∧ (zeroizeEnd s).tok.session = .ended ∧
      (zeroizeEnd s).tok.socket = some (burnAll (zeroAnchored tk)) := by
  rw [zeroizeEnd_acts hpg hpending hfull]
  have htok := (endSession_tok (s := areaZeroed s) (anySession_of_full hfull)).1
  refine ⟨by rw [endSession_frame]; rfl, by rw [htok], ?_⟩
  rw [htok]
  exact congrArg (Option.map burnAll) (congrArg (Option.map zeroAnchored) htoken)

/-! ### Holds and conditions -/

theorem holdEnd_early {n q : Nat} {s : State} (h : ∀ c ∈ s.tam.conds, c.1 = n → c.2.2 = none ∨ ∃ a, c.2.2 = some a ∧ s.clk < a + 1024000) : holdEnd n q s = s := by
  unfold holdEnd
  dsimp only
  rw [if_neg]
  rw [List.any_eq_true]
  rintro ⟨c, hc, hclear⟩
  simp only [Bool.and_eq_true, beq_iff_eq] at hclear
  obtain ⟨⟨hn, _⟩, hlong⟩ := hclear
  unfold clearLong at hlong
  rcases h c hc hn with hnone | ⟨a, ha, hlt⟩
  · simp [hnone] at hlong
  · simp [ha] at hlong
    omega

/-- The holds that a sensor's return leaves. -/
def holdsLeft (n q : Nat) (s : State) : List (Nat × Option Nat) := s.tam.holds.filter (fun h => !(h.2 == some n && underSensor s.part n q h.1))

/-- A unit that nothing holds any more. -/
def heldNoMore (n q : Nat) (s : State) (u : UnitSt) : Bool := u.st == .heldTamper && !((holdsLeft n q s).any (fun h => h.1 == u.id))

theorem holdEnd_acts {n q p a : Nat} {s : State} (hp : p = if quadrantLocal n = true then q else 0) (hc : (n, p, some a) ∈ s.tam.conds) (hlong : a + 1024000 ≤ s.clk) :
    (holdEnd n q s).tam.holds = holdsLeft n q s ∧ (holdEnd n q s).jobs = s.jobs ∧ (holdEnd n q s).slots = s.slots ∧
      (holdEnd n q s).units = s.units.map (fun u => if heldNoMore n q s u then { u with st := .inService } else u) := by
  have hany : s.tam.conds.any (fun c => c.1 == n && c.2.1 == (if quadrantLocal n then q else 0) && clearLong s c) = true :=
    List.any_eq_true.2 ⟨_, hc, by simp [← hp, clearLong, hlong]⟩
  unfold holdEnd
  dsimp only
  rw [if_pos hany]
  exact ⟨rfl, rfl, rfl, rfl⟩

theorem mem_holdsLeft {n q : Nat} {s : State} {h : Nat × Option Nat} :
    h ∈ holdsLeft n q s ↔ h ∈ s.tam.holds ∧ ¬(h.2 = some n ∧ underSensor s.part n q h.1 = true) := by
  simp only [holdsLeft, List.mem_filter, Bool.not_eq_true', ← Bool.not_eq_true, Bool.and_eq_true, beq_iff_eq]

theorem heldNoMore_of_all {n q : Nat} {s : State} {x : UnitSt} (hst : x.st = .heldTamper)
    (h : ∀ y ∈ s.tam.holds, y.1 = x.id → y.2 = some n ∧ underSensor s.part n q x.id = true) : heldNoMore n q s x = true := by
  unfold heldNoMore
  rw [hst, Bool.and_eq_true, Bool.not_eq_true', List.any_eq_false]
  refine ⟨rfl, fun y hy hid => ?_⟩
  obtain ⟨hmem, hkept⟩ := mem_holdsLeft.1 hy
  have heq : y.1 = x.id := eq_of_beq hid
  exact hkept (heq ▸ h y hmem heq)

theorem heldNoMore_false {n q : Nat} {s : State} {x : UnitSt}
    (h : x.st ≠ .heldTamper ∨ ∃ y ∈ s.tam.holds, y.1 = x.id ∧ ¬(y.2 = some n ∧ underSensor s.part n q x.id = true)) : heldNoMore n q s x = false := by
  unfold heldNoMore
  rcases h with h | ⟨y, hy, hid, hkept⟩
  · simp [h]
  · have hleft : (holdsLeft n q s).any (fun h => h.1 == x.id) = true := List.any_eq_true.2 ⟨y, mem_holdsLeft.2 ⟨hy, hid ▸ hkept⟩, by simp [hid]⟩
    rw [hleft, Bool.not_true, Bool.and_false]

/-! ### TAMPER_ACK -/

theorem getElem?_modAt_none {α : Type} {l : List α} {i : Nat} (g : α → α) (h : l[i]? = none) : (modAt l i g)[i]? = none := by
  induction l generalizing i with
  | nil => rfl
  | cons y l ih =>
    cases i with
    | zero => cases h
    | succ i => exact ih h

/-- A sensor's bit clears, where `p` accepts it. -/
def ackOne (p : Nat → Bool) (n : Nat) (t : Tamper) : Tamper := if p n then clearSensor n t else t

/-- The bits of a list of sensors clear, where `p` accepts them. -/
def ackFold (p : Nat → Bool) (l : List Nat) (t : Tamper) : Tamper := l.foldl (fun t n => ackOne p n t) t

theorem ackSensors_acts {s : State} (hbar : barOpen s .pf0 = true) (hreset : (s.fnOf .pf0).resetting = false) (v : Nat) :
    ackSensors v s = { s with tam := ackFold (fun n => bitOf v n && sensorAckable s n) (List.range 16) s.tam } := by
  unfold ackSensors
  rw [hbar, hreset]
  rfl

/-- The acknowledgement of the sensors that `q` accepts leads from `t` to `u`. -/
structure Acked (q : Nat → Bool) (t u : Tamper) : Prop where
  sensor : ∀ m, m < 16 → u.sensor.getLsbD m = (t.sensor.getLsbD m && !q m)
  counts : ∀ m, u.counts[m]? = t.counts[m]?.map (fun c => if q m then 0 else c)
  classOf : ∀ c, c ∈ u.classOf ↔ c ∈ t.classOf ∧ q c.1 = false
  rest : u = { t with sensor := u.sensor, classOf := u.classOf, counts := u.counts }

theorem acked_none {q : Nat → Bool} (h : ∀ m, q m = false) (t : Tamper) : Acked q t t :=
  ⟨fun m _ => by simp [h], fun m => by simp [h], fun c => by simp [h], rfl⟩

theorem Acked.trans {q r z : Nat → Bool} {t u v : Tamper} (hz : ∀ m, z m = (q m || r m)) (h : Acked q t u) (k : Acked r u v) : Acked z t v := by
  refine ⟨fun m hm => ?_, fun m => ?_, fun c => ?_, by rw [k.rest, h.rest]⟩
  · rw [k.sensor m hm, h.sensor m hm, hz, Bool.not_or, Bool.and_assoc]
  · rw [k.counts, h.counts, hz, Option.map_map]
    congr 1
    funext c
    cases q m <;> cases r m <;> rfl
  · rw [k.classOf, h.classOf, hz, Bool.or_eq_false_iff, and_assoc]

theorem acked_clearSensor (n : Nat) (t : Tamper) : Acked (fun m => m == n) t (clearSensor n t) := by
  refine ⟨fun m hm => ?_, fun m => ?_, fun c => ?_, rfl⟩
  · unfold clearSensor
    rw [BitVec.getLsbD_and, BitVec.getLsbD_not, BitVec.getLsbD_ofNat, Nat.testBit_two_pow]
    by_cases h : n = m
    · simp [h, hm]
    · simp [h, hm, Ne.symm h]
  · unfold clearSensor
    by_cases h : m = n
    · subst h
      cases hc : t.counts[m]? with
      | none => exact (getElem?_modAt_none _ hc).trans (by simp)
      | some c => exact (getElem?_modAt_same _ hc).trans (by simp)
    · exact (getElem?_modAt_ne _ _ h).trans (by simp [h])
  · unfold clearSensor
    rw [List.mem_filter, bne_iff_ne, beq_eq_false_iff_ne]

theorem acked_ackFold (p : Nat → Bool) (l : List Nat) (t : Tamper) : Acked (fun m => l.contains m && p m) t (ackFold p l t) := by
  induction l generalizing t with
  | nil => exact acked_none (fun _ => rfl) t
  | cons n l ih =>
    have hone : Acked (fun m => m == n && p m) t (ackOne p n t) := by
      unfold ackOne
      split
      case isTrue hp =>
        refine Acked.trans (r := fun _ => false) (fun m => ?_) (acked_clearSensor n t) (acked_none (fun _ => rfl) _)
        by_cases h : m = n
        · simp [h, hp]
        · simp [h]
      case isFalse hp =>
        refine acked_none (fun m => ?_) t
        by_cases h : m = n
        · simp [h, hp]
        · simp [h]
    refine Acked.trans (fun m => ?_) hone (ih (ackOne p n t))
    rw [List.contains_cons, Bool.and_or_distrib_right]

/-! ### The obligation -/

theorem sensorAck_does {s : State} (v : Word) (hbar : barOpen s .pf0 = true) (hreset : (s.fnOf .pf0).resetting = false) : Does (.tamperAckSensor v) s (fun t =>
    t = { s with tam := { s.tam with sensor := t.tam.sensor, classOf := t.tam.classOf, counts := t.tam.counts } } ∧
      ∀ n, n < 16 → t.tam.sensor.getLsbD n = (s.tam.sensor.getLsbD n && !(bitOf v.toNat n && sensorAckable s n)) ∧
        (∀ c, s.tam.counts[n]? = some c → t.tam.counts[n]? = some (if bitOf v.toNat n = true ∧ sensorAckable s n = true then 0 else c)) ∧
        (∀ k, (n, k) ∈ t.tam.classOf ↔ (n, k) ∈ s.tam.classOf ∧ ¬(bitOf v.toNat n = true ∧ sensorAckable s n = true))) := by
  have hacked := acked_ackFold (fun n => bitOf v.toNat n && sensorAckable s n) (List.range 16) s.tam
  refine ⟨_, exec_tamperAckSensor v s, ?_⟩
  rw [ackSensors_acts hbar hreset]
  refine ⟨congrArg (fun u => { s with tam := u }) hacked.rest, fun n hn => ?_⟩
  have hin : (List.range 16).contains n = true := by simpa using hn
  refine ⟨by rw [hacked.sensor n hn, hin, Bool.true_and], fun c hc => ?_, fun k => ?_⟩
  · rw [hacked.counts, hc, hin, Bool.true_and]
    simp
  · rw [hacked.classOf, hin, Bool.true_and, ← Bool.not_eq_true, Bool.and_eq_true]

theorem latchAck_does {s : State} (v : Word) (hbar : barOpen s .pf0 = true) (hreset : (s.fnOf .pf0).resetting = false) :
    (bitOf v.toNat 26 = true → s.tam.destroyPending = false → exec (.tamperAckSleepLatch v) s = .next { s with tam := { s.tam with sleepLatch := false } }) ∧
      (bitOf v.toNat 26 = false ∨ s.tam.destroyPending = true → exec (.tamperAckSleepLatch v) s = .next s) := by
  rw [exec_tamperAckSleepLatch]
  unfold ackLatch
  refine ⟨fun hbit hnone => by simp [hbar, hreset, hbit, hnone], fun h => ?_⟩
  rcases h with h | h <;> simp [h]

theorem condition_clears {n q p : Nat} {s : State} (hp : p = if quadrantLocal n = true then q else 0) : Does (.tamperConditionClear n q) s (fun t =>
    t = { s with tam := { s.tam with conds := t.tam.conds } } ∧ t.tam.conds.length = s.tam.conds.length ∧
      ∀ (i : Nat) (c : Nat × Nat × Option Nat), s.tam.conds[i]? = some c →
        (c.1 = n → c.2.1 = p → t.tam.conds[i]? = some (n, p, some (c.2.2.getD s.clk))) ∧ (c.1 ≠ n ∨ c.2.1 ≠ p → t.tam.conds[i]? = some c)) := by
  refine ⟨_, exec_tamperConditionClear n q s, rfl, List.length_map _, fun i c hc => ⟨fun hn hq => ?_, fun hne => ?_⟩⟩
  · exact (List.getElem?_map ..).trans (by simp [hc, ← hp, hn, hq])
  · exact (List.getElem?_map ..).trans (by rcases hne with h | h <;> simp [hc, ← hp, h])

theorem hold_ends {n q p a : Nat} {s : State} (hp : p = if quadrantLocal n = true then q else 0) (hc : (n, p, some a) ∈ s.tam.conds) (hlong : a + 1024000 ≤ s.clk) :
    Does (.tamperHoldEnd n q) s (fun t => t.units.length = s.units.length ∧ t.jobs = s.jobs ∧ t.slots = s.slots ∧
      (∀ h, h ∈ t.tam.holds ↔ h ∈ s.tam.holds ∧ ¬(h.2 = some n ∧ underSensor s.part n q h.1 = true)) ∧
      ∀ (i : Nat) (x : UnitSt), s.units[i]? = some x →
        (x.st = .heldTamper → (∀ h ∈ s.tam.holds, h.1 = x.id → h.2 = some n ∧ underSensor s.part n q x.id = true) → t.units[i]? = some { x with st := .inService }) ∧
        (x.st ≠ .heldTamper ∨ (∃ h ∈ s.tam.holds, h.1 = x.id ∧ ¬(h.2 = some n ∧ underSensor s.part n q x.id = true)) → t.units[i]? = some x)) := by
  obtain ⟨hholds, hjobs, hslots, hunits⟩ := holdEnd_acts hp hc hlong
  refine ⟨_, exec_tamperHoldEnd n q s, by rw [hunits, List.length_map], hjobs, hslots, fun h => by rw [hholds, mem_holdsLeft], fun i x hx => ⟨fun hst hall => ?_, fun hkept => ?_⟩⟩
  · rw [hunits, List.getElem?_map, hx, Option.map_some, if_pos (heldNoMore_of_all hst hall)]
  · rw [hunits, List.getElem?_map, hx, Option.map_some, heldNoMore_false hkept, if_neg Bool.false_ne_true]

/-- Settles O48: each response's end is one change of the state, or none. -/
theorem tamperResponsesEnd : Obligations.TamperResponsesEnd := by
  refine ⟨⟨fun s hdead hkey => ⟨_, exec_sealingKeyDestroy s, ?_⟩, fun s h => ?_, fun tk s hpg hpending hfull htoken => ⟨_, exec_destroyZeroizeEnd s, ?_⟩, fun s h => ?_⟩,
    fun n q s h => ?_, fun n q p a s hp => hold_ends hp, fun n q p s => condition_clears, fun v s => sensorAck_does v, fun v s => latchAck_does v, fun v s h => ?_⟩
  · rw [destroySeal_acts hdead hkey]
    exact ⟨rfl, List.length_map _, fun i x hx => ⟨(List.getElem?_map ..).trans (by rw [hx]; rfl), rfl, rfl, rfl⟩, rfl, rfl⟩
  · rw [exec_sealingKeyDestroy, destroySeal_idle h]
  · obtain ⟨hmark, hsession, hsocket⟩ := zeroizeEnd_does hpg hpending hfull htoken
    exact ⟨hmark, hsession, _, hsocket, rfl, rfl, rfl, rfl, rfl, rfl, rfl⟩
  · rw [exec_destroyZeroizeEnd, zeroizeEnd_idle h]
  · rw [exec_tamperHoldEnd, holdEnd_early h]
  · rw [exec_tamperAckSensor, exec_tamperAckSleepLatch]
    unfold ackSensors ackLatch
    rcases h with h | h <;> simp [h]

end Sys2Proof.Machine

/-!
PROOFS. Faults of units, sources and channels, and their acknowledgement.
-/
namespace Sys2Proof.Machine
set_option Elab.async false -- as in Laws: the one text has more theorems than threads

theorem exec_faultAck (v : Word) (s : State) : exec (.faultAck v) s = .next (faultAck v.toNat s) := rfl
theorem exec_hang (u : Nat) (s : State) : exec (.hang u) s = .next (unitHang u s) := rfl
theorem exec_entropy (n test : Nat) (s : State) : exec (.entropy n test) s = .next (sourceFails n test s) := rfl
theorem exec_lockstep (orrery : Bool) (s : State) : exec (.lockstep orrery) s = .next (lockstepFault orrery s) := rfl
theorem exec_maskReseed (u : Nat) (s : State) : exec (.maskReseed u) s = .next (reseedMask u s) := rfl
theorem exec_dramChannelLinkFailure (ch : Nat) (s : State) : exec (.dramChannelLinkFailure ch) s = .next (channelFails ch s) := rfl

/-! ### FAULT_ACK -/

/-- The mask of the first `k` bits that `go` accepts. -/
def ackMask (go : Nat → Bool) (k : Nat) : Nat := ((List.range k).map (fun n => bitAt (go n) n)).sum

theorem ackMask_succ (go : Nat → Bool) (k : Nat) : ackMask go (k + 1) = 2 ^ k * (go k).toNat + ackMask go k := by
  unfold ackMask
  rw [List.range_succ, List.map_append, List.sum_append, Nat.add_comm]
  cases h : go k <;> simp [bitAt, h]

theorem ackMask_lt (go : Nat → Bool) (k : Nat) : ackMask go k < 2 ^ k := by
  induction k with
  | zero => exact Nat.zero_lt_one
  | succ k ih =>
    rw [ackMask_succ, Nat.pow_succ]
    cases go k <;> simp <;> omega

theorem testBit_ackMask (go : Nat → Bool) {k n : Nat} (h : n < k) : (ackMask go k).testBit n = go n := by
  induction k with
  | zero => cases h
  | succ k ih =>
    rw [ackMask_succ, Nat.testBit_two_pow_mul_add _ (ackMask_lt go k)]
    split
    case isTrue hlt => exact ih hlt
    case isFalse hge =>
      obtain rfl : n = k := by omega
      rw [Nat.sub_self]
      cases go n <;> rfl

/-- A FAULT_STATUS bit that a write acknowledges. -/
def ackedFault (v : Nat) (s : State) (n : Nat) : Bool := bitOf v n && !(faultPending s n)

theorem faultAck_acts {s : State} (hbar : barOpen s .pf0 = true) (hreset : (s.fnOf .pf0).resetting = false) (v : Nat) : faultAck v s =
    { s with flt := { s.flt with status := s.flt.status &&& ~~~(BitVec.ofNat 16 (ackMask (ackedFault v s) 16)),
                                 counts := s.flt.counts.mapIdx (fun n c => if ackedFault v s n then 0 else c) } } := by
  unfold faultAck
  rw [hbar, hreset]
  rfl

theorem faultAck_does {s : State} (v : Word) (hbar : barOpen s .pf0 = true) (hreset : (s.fnOf .pf0).resetting = false) : Does (.faultAck v) s (fun t =>
    (∀ n, n < 16 → t.flt.status.getLsbD n = (s.flt.status.getLsbD n && !(bitOf v.toNat n && !(faultPending s n)))) ∧
    (∀ n c, s.flt.counts[n]? = some c → t.flt.counts[n]? = some (if bitOf v.toNat n = true ∧ faultPending s n = false then 0 else c)) ∧
    t = { s with flt := { s.flt with status := t.flt.status, counts := t.flt.counts } }) := by
  refine ⟨_, exec_faultAck v s, ?_⟩
  rw [faultAck_acts hbar hreset]
  refine ⟨fun n hn => ?_, fun n c hc => ?_, rfl⟩
  · rw [BitVec.getLsbD_and, BitVec.getLsbD_not, BitVec.getLsbD_ofNat, testBit_ackMask _ hn]
    simp [hn, ackedFault]
  · rw [List.getElem?_mapIdx, hc]
    simp [ackedFault]

/-! ### What re-executions and reruns keep -/

theorem ends_requeueJob {loud : Prop} {b s : State} (bad : List Nat) (j : Job) (h : Ends loud b s) : Ends loud b (requeueJob bad j s) :=
  ends_onJob j.id _ (ends_freeUnits j.id h).to

theorem ends_retryJob {loud : Prop} (hloud : loud) {b s : State} (bad : List Nat) (i : Nat) (h : Ends loud b s) : Ends loud b (retryJob bad i s) := by
  unfold retryJob
  split
  · exact h
  · exact ends_ite h (ends_ite (ends_failJob hloud _ _ h) (ends_requeueJob _ _ h))

theorem ends_endJob {loud : Prop} (hloud : loud) {b s : State} (st : Status) (inline : Job → Bytes) (i : Nat) (h : Ends loud b s) :
    Ends loud b (endJob st inline i s) := by
  unfold endJob
  split
  · exact ends_ite h (ends_failJob hloud _ _ h)
  · exact h

/-- The FAULT_STATUS, the channels, the places of slots and the states of units are kept; DEGRADED stays set. -/
structure Serves (b t : State) : Prop where
  units : Elementwise UnitFreed b.units t.units
  slots : Elementwise SlotEnded b.slots t.slots
  status : t.flt.status = b.flt.status
  degraded : b.flt.degraded = true → t.flt.degraded = true
  chans : t.chans = b.chans

theorem Serves.refl (s : State) : Serves s s := ⟨elementwise_of_refl .refl _, elementwise_of_refl .refl _, rfl, id, rfl⟩

theorem Serves.trans {a b c : State} (h : Serves a b) (k : Serves b c) : Serves a c :=
  ⟨elementwise_trans UnitFreed.trans h.units k.units, elementwise_trans SlotEnded.trans h.slots k.slots, k.status.trans h.status, k.degraded ∘ h.degraded,
    k.chans.trans h.chans⟩

theorem Serves.to {b s t : State} (h : Serves b s) (hunits : t.units = s.units) (hslots : t.slots = s.slots) (hstatus : t.flt.status = s.flt.status)
    (hdegraded : s.flt.degraded = true → t.flt.degraded = true) (hchans : t.chans = s.chans) : Serves b t :=
  ⟨hunits ▸ h.units, hslots ▸ h.slots, hstatus.trans h.status, hdegraded ∘ h.degraded, hchans.trans h.chans⟩

theorem Ends.serves {loud : Prop} {b t : State} (h : Ends loud b t) : Serves b t :=
  ⟨h.units, h.slots, by rw [h.frame], by rw [h.frame]; exact id, by rw [h.frame]⟩

theorem serves_rerunAdmission {b s : State} (p : Pool) (h : Serves b s) : Serves b (rerunAdmission p s) := by
  unfold rerunAdmission
  dsimp only
  refine h.to ?_ ?_ ?_ ?_ ?_ <;> split <;> simp

theorem serves_endStranded {b s : State} (h : Serves b s) : Serves b (endStranded s) :=
  h.trans (ends_foldl (loud := True) (fun _ _ => ends_endJob trivial _ _ _) (.refl s)).serves

theorem serves_retryJobs {b s : State} (bad l : List Nat) (h : Serves b s) : Serves b (l.foldl (fun s i => retryJob bad i s) s) :=
  h.trans (ends_foldl (loud := True) (fun _ _ => ends_retryJob trivial _ _) (.refl s)).serves

theorem serves_abortJobs {b s : State} (st : Status) (p : Job → Bool) (h : Serves b s) : Serves b (abortJobs st p s) :=
  h.trans (ends_foldl (loud := True) (fun _ _ => ends_abortJob trivial _ _) (.refl s)).serves

theorem serves_emptyPool {b s : State} (p : Pool) (h : Serves b s) : Serves b (emptyPool p s) := by
  have hgrants : ∀ g : Mem, Serves b { s with mem := g } := fun g => h.to rfl rfl rfl id rfl
  unfold emptyPool
  dsimp only
  split
  · exact hgrants _
  · refine serves_abortJobs _ _ (h.to ?_ ?_ ?_ ?_ ?_) <;> rw [raiseEvent_frame]
    exact id

/-! ### A unit that is fenced -/

/-- A unit is marked as fenced: its state, the status bit, the event, the record and the trace frame. -/
def unitFenced (u cause : Nat) (s : State) : State :=
  let s := s.onUnit u (fun y => { y with st := .fencedFault, cause := cause, fenceAt := transitNow s })
  let s := setFault 13 s
  let s := ringEvent .pf0 0x0031 0xFFFF s.flt.status.toNat u s
  let s := raiseEvent 0x0601 u (byteOf cause :: leBytes 8 (transitNow s)) s
  trace { kind := 4, unit := frameUnit u } s

theorem fenceUnit_acts {u cause : Nat} {s : State} {x : UnitSt} {p : Pool} (hx : s.unit? u = some x) (hpool : poolOfUnit u = some p) (hst : x.st = .inService) :
    fenceUnit u cause s =
      emptyPool p (rerunAdmission p (endStranded (((jobsOn u s).eraseDups).foldl (fun s i => retryJob [u] i s) (unitFenced u cause s)))) := by
  have hserving : (x.st == .fencedFault || x.st == .fencedKat) = false := by rw [hst]; rfl
  unfold fenceUnit unitFenced
  rw [hx, hpool]
  dsimp only
  rw [hserving, if_neg Bool.false_ne_true]

theorem setFault_bit {n : Nat} (hn : n < 16) (s : State) : (setFault n s).flt.status.getLsbD n = true := by
  rw [setFault_flt, BitVec.getLsbD_or, BitVec.getLsbD_ofNat, Nat.testBit_two_pow_self]
  simp [hn]

theorem unitFenced_marks {u cause : Nat} {s : State} {x : UnitSt} (hx : s.unit? u = some x) :
    (unitFenced u cause s).flt.status.getLsbD 13 = true ∧
      ∃ y, (unitFenced u cause s).unit? u = some y ∧ y.st = .fencedFault ∧ y.cause = cause := by
  unfold unitFenced
  dsimp only
  refine ⟨?_, { x with st := .fencedFault, cause := cause, fenceAt := transitNow s }, ?_, rfl, rfl⟩
  · rw [trace_flt, raiseEvent_flt, ringEvent_flt]
    exact setFault_bit (by decide) _
  · unfold State.unit?
    rw [trace_units, raiseEvent_units, ringEvent_units, setFault_units]
    exact unit?_onUnit_some hx

theorem serves_unit? {b t : State} (h : Serves b t) {u : Nat} {y : UnitSt} (hy : b.unit? u = some y) : ∃ z, t.unit? u = some z ∧ z.st = y.st ∧ z.cause = y.cause := by
  obtain ⟨z, hz, hfreed⟩ := elementwise_find? (fun x y hxy => by rw [hxy.1]) h.units hy
  exact ⟨z, hz, by rw [hfreed.1], by rw [hfreed.1]⟩

theorem fenceUnit_does {u cause : Nat} {s : State} {x : UnitSt} (hx : s.unit? u = some x) (hpool : (poolOfUnit u).isSome = true) (hst : x.st = .inService) :
    (fenceUnit u cause s).flt.status.getLsbD 13 = true ∧ ∃ y, (fenceUnit u cause s).unit? u = some y ∧ y.st = .fencedFault ∧ y.cause = cause := by
  obtain ⟨p, hp⟩ := Option.isSome_iff_exists.1 hpool
  obtain ⟨hbit, y, hy, hyst, hcause⟩ := unitFenced_marks (cause := cause) hx
  rw [fenceUnit_acts hx hp hst]
  have hserves := serves_emptyPool p (serves_rerunAdmission p (serves_endStranded (serves_retryJobs [u] (jobsOn u s).eraseDups (.refl (unitFenced u cause s)))))
  obtain ⟨z, hz, hzst, hzcause⟩ := serves_unit? hserves hy
  refine ⟨?_, z, hz, hzst.trans hyst, hzcause.trans hcause⟩
  rw [hserves.status]
  exact hbit

/-! ### Hangs -/

theorem unitHang_early {u i : Nat} {s : State} {x : UnitSt} (hx : s.unit? u = some x) (hjob : x.job = some i) (h : s.clk < x.busySince + 20000) : unitHang u s = s := by
  unfold unitHang
  rw [hx, Option.bind_some, hjob]
  simp [h]

theorem unitHang_late {u i : Nat} {s : State} {x : UnitSt} (hx : s.unit? u = some x) (hjob : x.job = some i) (hhalt : s.dbg.halted ≠ some i)
    (h : x.busySince + 20000 ≤ s.clk) : unitHang u s = fenceUnit u 13 (raiseEvent 0x060F u (leBytes 2 (((s.job? i).map (fun (j : Job) => dOp j.desc)).getD 0)) s) := by
  unfold unitHang
  rw [hx, Option.bind_some, hjob]
  simp [hhalt, Nat.not_lt.2 h]

theorem hang_does {u i : Nat} {s : State} {x : UnitSt} (hx : s.unit? u = some x) (hjob : x.job = some i) (hhalt : s.dbg.halted ≠ some i) (hst : x.st = .inService)
    (hpool : (poolOfUnit u).isSome = true) (h : x.busySince + 20000 ≤ s.clk) :
    Does (.hang u) s (fun t => t.flt.status.getLsbD 13 = true ∧ ∃ y, t.unit? u = some y ∧ y.st = .fencedFault ∧ y.cause = 13) := by
  refine ⟨_, exec_hang u s, ?_⟩
  rw [unitHang_late hx hjob hhalt h]
  exact fenceUnit_does (x := x) (by unfold State.unit?; rw [raiseEvent_units]; exact hx) hpool hst

/-! ### Noise sources -/

theorem sourceFails_idle {n : Nat} {s : State} (h : s.pwr.pg = false ∨ s.sc.sources[n]? ≠ some true) (test : Nat) : sourceFails n test s = s := by
  unfold sourceFails
  rcases h with h | h
  · rw [h]; rfl
  · have hout : s.sc.sources.getD n false = false := by
      rw [List.getD_eq_getElem?_getD]
      cases hs : s.sc.sources[n]? with
      | none => rfl
      | some b => cases b with
        | false => rfl
        | true => exact absurd hs h
    rw [hout, Bool.and_false]
    rfl

/-- A source is excluded and recorded. -/
def sourceOut (n test : Nat) (s : State) : State :=
  faultEvent 10 0x060B (0x600 + n) [byteOf n, byteOf test] { s with sc := { s.sc with sources := modAt s.sc.sources n (fun _ => false) } }

theorem sourceFails_acts {n : Nat} {s : State} (hpg : s.pwr.pg = true) (hin : s.sc.sources[n]? = some true) (test : Nat) :
    sourceFails n test s = if sourcesOk (sourceOut n test s) < 2 && (sourceOut n test s).sc.drbgOn then stopDrbgs (sourceOut n test s) else sourceOut n test s := by
  have hget : s.sc.sources.getD n false = true := by rw [List.getD_eq_getElem?_getD, hin]; rfl
  unfold sourceFails
  rw [hpg, hget]
  rfl

theorem sourceOut_keeps (n test : Nat) (s : State) :
    (sourceOut n test s).sc = { s.sc with sources := modAt s.sc.sources n (fun _ => false) } ∧ (sourceOut n test s).flt.status.getLsbD 10 = true := by
  unfold sourceOut
  rw [faultEvent_frame]
  exact ⟨rfl, setFault_bit (by decide) _⟩

theorem stopDrbgs_keeps (s : State) : (stopDrbgs s).sc.sources = s.sc.sources ∧ (stopDrbgs s).sc.drbgOn = false ∧ (stopDrbgs s).flt.status = s.flt.status := by
  have hends : Ends True _ (stopDrbgs s) := ends_foldl (fun _ _ => ends_abortJob trivial _ _) (.refl { s with sc := { s.sc with drbgOn := false }, flt := { s.flt with degraded := true } })
  rw [hends.frame]
  exact ⟨rfl, rfl, rfl⟩

theorem entropy_does {n : Nat} {s : State} (test : Nat) (hpg : s.pwr.pg = true) (hin : s.sc.sources[n]? = some true) : Does (.entropy n test) s (fun t =>
    t.flt.status.getLsbD 10 = true ∧ t.sc.sources = modAt s.sc.sources n (fun _ => false) ∧
      (t.sc.drbgOn = true ↔ s.sc.drbgOn = true ∧ 2 ≤ ((modAt s.sc.sources n (fun _ => false)).filter id).length)) := by
  obtain ⟨hsc, hbit⟩ := sourceOut_keeps n test s
  obtain ⟨ksources, kon, kstatus⟩ := stopDrbgs_keeps (sourceOut n test s)
  have hok : sourcesOk (sourceOut n test s) = ((modAt s.sc.sources n (fun _ => false)).filter id).length := by
    unfold sourcesOk
    rw [hsc]
  refine ⟨_, exec_entropy n test s, ?_⟩
  rw [sourceFails_acts hpg hin]
  split
  case isTrue h =>
    obtain ⟨hfew, _⟩ := Bool.and_eq_true_iff.1 h
    refine ⟨by rw [kstatus]; exact hbit, by rw [ksources, hsc], ?_⟩
    rw [kon, ← hok]
    simp only [Bool.false_eq_true, false_iff, not_and, Nat.not_le]
    exact fun _ => of_decide_eq_true hfew
  case isFalse h =>
    refine ⟨hbit, by rw [hsc], ?_⟩
    rw [hok, hsc] at h
    rw [hsc]
    refine ⟨fun hon => ⟨hon, ?_⟩, And.left⟩
    have hon' : s.sc.drbgOn = true := hon
    simp only [hon', Bool.and_true, decide_eq_true_eq, Nat.not_lt] at h
    exact h

/-! ### Lockstep and masks -/

/-- The record of a lockstep mismatch. -/
def lockstepNoted (orrery : Bool) (s : State) : State :=
  noteMismatch (faultEvent 11 0x060C (if orrery then 0x0900 else 0x0500) [byteOf (bitAt orrery 0)] s)

theorem lockstepNoted_keeps (orrery : Bool) (s : State) : (lockstepNoted orrery s).flt.status.getLsbD 11 = true ∧
    (lockstepNoted orrery s).tam.quarantine = s.tam.quarantine ∧ (lockstepNoted orrery s).slots = s.slots ∧ (lockstepNoted orrery s).jobs = s.jobs := by
  unfold lockstepNoted noteMismatch
  rw [faultEvent_frame]
  exact ⟨setFault_bit (by decide) _, rfl, rfl, rfl⟩

theorem lockstepFault_acts {s : State} (hpg : s.pwr.pg = true) (orrery : Bool) :
    lockstepFault orrery s = if orrery then lockstepNoted orrery s else quarantine 4 (lockstepNoted orrery s) := by
  unfold lockstepFault
  rw [hpg]
  rfl

theorem quarantine_keeps (c : Nat) (s : State) :
    (quarantine c s).tam.quarantine = true ∧ (quarantine c s).flt = s.flt ∧ (quarantine c s).slots = s.slots ∧ (quarantine c s).jobs = s.jobs := by
  unfold quarantine
  split
  case isTrue h => exact ⟨h, rfl, rfl, rfl⟩
  case isFalse => exact ⟨rfl, rfl, rfl, rfl⟩

theorem maskReseed_does {u : Nat} {x : UnitSt} {s : State} (hx : s.unit? u = some x) : Does (.maskReseed u) s (fun t =>
    t.jobs = s.jobs ∧ (s.sc.drbgOn = false → t.sc = s.sc) ∧ ∃ d : Bytes,
      t.unit? u = some { x with maskBlocks := x.maskBlocks - 2 ^ 20, maskSeed := x.maskNext, maskNext := d } ∧ (s.sc.drbgOn = false → d = [])) := by
  refine ⟨_, exec_maskReseed u s, ?_⟩
  unfold reseedMask
  cases hon : s.sc.drbgOn with
  | false => exact ⟨rfl, fun _ => rfl, [], unit?_onUnit_some hx, fun _ => rfl⟩
  | true =>
    have hdrawn : (drawSeed (quadrantOf s.part u) s).2.unit? u = some x := hx
    exact ⟨rfl, nofun, _, unit?_onUnit_some hdrawn, nofun⟩

/-! ### Channels -/

/-- A channel is marked as fenced: its state, the status bit, the event and the record. -/
def chanFenced (ch : Nat) (s : State) : State :=
  let s := { s with chans := modAt s.chans ch (fun c => { c with inService := false, fenceAt := transitNow s }) }
  let s := setFault 13 s
  let s := ringEvent .pf0 0x0031 0xFFFF s.flt.status.toNat (0x400 + ch) s
  raiseEvent 0x0601 (0x400 + ch) (byteOf 5 :: leBytes 8 (transitNow s)) s

/-- What lies on a channel that is lost. -/
def lostOn (ch : Nat) (x : Slot) : Bool := touches ch x && x.st != .free

/-- The slots and contexts of a channel are lost. -/
def chanLost (ch : Nat) (s : State) : State :=
  let gone := fun (i : Nat) => s.slots.any (fun x => x.idx == i && lostOn ch x)
  { s with slots := s.slots.map (fun x => if lostOn ch x then lostSlot x else x),
           ctxs := s.ctxs.map (fun (x : Ctx) => if x.live && x.spilled && spillChan x.idx == ch then killCtx x else x),
           mem := { s.mem with pkCache := s.mem.pkCache.filter (fun k => !(gone k.1)), keyCache := s.mem.keyCache.filter (fun k => !(gone k.1)) },
           flt := { s.flt with degraded := true } }

theorem channelFails_acts {ch : Nat} {c : Chan} {s : State} (hpg : s.pwr.pg = true) (hc : s.chans[ch]? = some c) (hin : c.inService = true) : channelFails ch s =
    rerunAdmission .vcc ((((chanLost ch (chanFenced ch s)).jobs.filter (usesChan ch)).map (fun j => j.id)).foldl (fun s i => retryJob [] i s) (chanLost ch (chanFenced ch s))) := by
  have hserving : ((s.chans[ch]?).map (fun c => c.inService)).getD false = true := by rw [hc]; exact hin
  unfold channelFails fenceChannel
  rw [if_pos hpg, if_pos hserving]
  rfl

theorem touches_own (x : Slot) {ch : Nat} (h : x.channel % 8 = ch) : touches ch x = true := by
  unfold touches
  exact List.any_eq_true.2 ⟨0, List.mem_range.2 (by omega), by simp [h]⟩

theorem chanLost_slots {ch : Nat} {s : State} {x : Slot} (hx : x ∈ (chanLost ch s).slots) (hch : x.channel % 8 = ch) : x.st = .free := by
  obtain ⟨y, _, rfl⟩ := List.mem_map.1 hx
  split
  case isTrue => rfl
  case isFalse h =>
    rw [if_neg h] at hch
    unfold lostOn at h
    rw [touches_own y hch, Bool.true_and] at h
    simpa using h

theorem chanFenced_keeps {ch : Nat} {c : Chan} {s : State} (hc : s.chans[ch]? = some c) : (∃ d, (chanFenced ch s).chans[ch]? = some d ∧ d.inService = false) ∧
    (chanFenced ch s).flt.status.getLsbD 13 = true := by
  unfold chanFenced
  dsimp only
  refine ⟨⟨{ c with inService := false, fenceAt := transitNow s }, ?_, rfl⟩, ?_⟩
  · rw [raiseEvent_chans, ringEvent_chans]
    exact getElem?_modAt_same _ hc
  · rw [raiseEvent_flt, ringEvent_flt]
    exact setFault_bit (by decide) _

theorem channelFailure_does {ch : Nat} {c : Chan} {s : State} (hpg : s.pwr.pg = true) (hc : s.chans[ch]? = some c) (hin : c.inService = true) :
    Does (.dramChannelLinkFailure ch) s (fun t => (∃ d, t.chans[ch]? = some d ∧ d.inService = false) ∧ t.flt.status.getLsbD 13 = true ∧ t.flt.degraded = true ∧
      ∀ x ∈ t.slots, x.channel % 8 = ch → x.st = .free) := by
  obtain ⟨⟨d, hd, hout⟩, hbit⟩ := chanFenced_keeps hc
  have hserves := serves_rerunAdmission .vcc
    (serves_retryJobs [] (((chanLost ch (chanFenced ch s)).jobs.filter (usesChan ch)).map (fun j => j.id)) (.refl (chanLost ch (chanFenced ch s))))
  refine ⟨_, exec_dramChannelLinkFailure ch s, ?_⟩
  rw [channelFails_acts hpg hc hin]
  refine ⟨⟨d, by rw [hserves.chans]; exact hd, hout⟩, by rw [hserves.status]; exact hbit, hserves.degraded rfl, fun x hx hch => ?_⟩
  obtain ⟨y, hy, _, hplace, hfree⟩ := elementwise_mem_right hserves.slots hx
  exact hfree (chanLost_slots hy (hplace ▸ hch))

/-- Settles O49: every fault row by what it marks, and by what its re-executions and the admission rerun keep. -/
theorem faultUnitRows : Obligations.FaultUnitRows := by
  refine ⟨fun v s => faultAck_does v, fun u i x s hx hjob hhalt hst hpool => hang_does hx hjob hhalt hst hpool, fun u i x s hx hjob h => ?_,
    fun n test s => entropy_does test, fun n test s h => ?_, fun s hpg => ⟨⟨_, exec_lockstep false s, ?_⟩, ⟨_, exec_lockstep true s, ?_⟩⟩,
    fun u x s hx => maskReseed_does hx, fun ch c s => channelFailure_does⟩
  · rw [exec_hang, unitHang_early hx hjob h]
  · rw [exec_entropy, sourceFails_idle h]
  · obtain ⟨hbit, _, hslots, hjobs⟩ := lockstepNoted_keeps false s
    obtain ⟨kquar, kflt, kslots, kjobs⟩ := quarantine_keeps 4 (lockstepNoted false s)
    rw [lockstepFault_acts hpg, if_neg Bool.false_ne_true]
    exact ⟨by rw [kflt]; exact hbit, kquar, kslots.trans hslots, kjobs.trans hjobs⟩
  · obtain ⟨hbit, hquar, _, hjobs⟩ := lockstepNoted_keeps true s
    rw [lockstepFault_acts hpg, if_pos rfl]
    exact ⟨hbit, hquar, hjobs⟩

end Sys2Proof.Machine

/-!
PROOFS. The debug rights, stepping and the trace output.
-/
namespace Sys2Proof.Machine
set_option Elab.async false -- as in Laws: the one text has more theorems than threads

theorem exec_dbgRightsWrite (v : Word) (s : State) : exec (.dbgRightsWrite v) s = .next (rightsWrite v.toNat s) := rfl
theorem exec_dbgStepArm (v : Word) (s : State) : exec (.dbgStepArm v) s = .next (armWrite v.toNat s) := rfl
theorem exec_dbgStep (s : State) : exec .dbgStep s = .next (stepWrite s) := rfl
theorem exec_dbgStepRun (s : State) : exec .dbgStepRun s = .next (runWrite s) := rfl
theorem exec_traceFrameSent (s : State) : exec .traceFrameSent s = .next (frameSent s) := rfl

theorem rightsWrite_open {s : State} (hbar : barOpen s .pf0 = true) (hreset : (s.fnOf .pf0).resetting = false) (v : Nat) : rightsWrite v s = setActive (v % 64) s := by
  unfold rightsWrite
  rw [hbar, hreset]
  rfl

/-- Rights that do not change leave everything; a change is recorded. -/
theorem setActive_unchanged {v : Nat} {s : State} (h : (setActive v s).dbg.active = s.dbg.active) : setActive v s = s := by
  rw [setActive_active] at h
  unfold setActive
  rw [h]
  exact if_pos (beq_self_eq_true _)

theorem setActive_recorded {v : Nat} {s : State} (h : (setActive v s).dbg.active ≠ s.dbg.active) : (setActive v s).alm.eventSeq = sat32 s.alm.eventSeq := by
  rw [setActive_active] at h
  have hnew : (BitVec.ofNat 6 (v &&& rightsAvailable s) == s.dbg.active) = false := beq_eq_false_iff_ne.2 h
  unfold setActive
  dsimp only
  rw [hnew, if_neg Bool.false_ne_true, raiseEvent_alm_eventSeq]
  split <;> rfl

theorem maystep_on {s : State} (hbar : barOpen s .pf0 = true) (hreset : (s.fnOf .pf0).resetting = false) (hstep : s.dbg.active.getLsbD 3 = true)
    (hsettled : settled s = true) : maystep s = true := by
  unfold maystep
  rw [hbar, hreset, hstep, hsettled]
  rfl

theorem maystep_off {s : State} (h : s.dbg.active.getLsbD 3 = false ∨ settled s = false) : maystep s = false := by
  unfold maystep
  rcases h with h | h
  · rw [h, Bool.and_false, Bool.false_and]
  · rw [h, Bool.and_false]

theorem steps_off {s : State} (h : maystep s = false) (v : Nat) : armWrite v s = s ∧ stepWrite s = s ∧ runWrite s = s := by
  unfold armWrite stepWrite runWrite
  rw [h]
  exact ⟨rfl, rfl, rfl⟩

theorem steps_unhalted {s : State} (h : s.dbg.halted = none) : stepWrite s = s ∧ runWrite s = s := by
  unfold stepWrite runWrite
  rw [h, Option.isSome_none, Bool.and_false]
  exact ⟨rfl, rfl⟩

theorem steps_halted {s : State} {i : Nat} (hmay : maystep s = true) (h : s.dbg.halted = some i) :
    stepWrite s = { s with dbg := { s.dbg with stepOne := true } } ∧
      runWrite s = { s with dbg := { s.dbg with arm := false, stepOne := false, halted := none, haltEnd := some s.clk } } := by
  unfold stepWrite runWrite stepRun
  rw [hmay, h]
  exact ⟨rfl, rfl⟩

theorem frameSent_none {s : State} (h : s.dbg.traceNext = none) : frameSent s = { s with dbg := { s.dbg with traceBusy := false } } := by
  unfold frameSent
  rw [h]
  show { s with dbg := { s.dbg with traceBusy := false, traceNext := none } } = _
  rw [← h]

theorem frameSent_next {s : State} {b : Bytes} (h : s.dbg.traceNext = some b) (hon : traceOn s = true) :
    frameSent s = { s with dbg := { s.dbg with traceBusy := true, traceNext := none }, out := s.out ++ [.trace b] } := by
  unfold frameSent
  rw [h]
  exact if_pos hon

/-- Settles O46: the rights by `setActive`, the step registers by whether they work. -/
theorem debugRows : Obligations.DebugRows := by
  refine ⟨fun v s hbar hreset => ⟨_, exec_dbgRightsWrite v s, ?_⟩, fun v i s hbar hreset hstep hsettled => ?_, fun v s h => ?_, fun s => ⟨fun h => ?_, fun b h hon => ?_⟩⟩
  · rw [rightsWrite_open hbar hreset]
    exact ⟨setActive_active _ _, by rw [setActive_frame], by rw [setActive_frame], setActive_unchanged, setActive_recorded⟩
  · have hmay := maystep_on hbar hreset hstep hsettled
    refine ⟨?_, fun h => ?_, fun h => ?_⟩
    · rw [exec_dbgStepArm, armWrite, if_pos hmay]
    · rw [exec_dbgStep, exec_dbgStepRun, (steps_halted hmay h).1, (steps_halted hmay h).2]
      exact ⟨rfl, rfl⟩
    · rw [exec_dbgStep, exec_dbgStepRun, (steps_unhalted h).1, (steps_unhalted h).2]
      exact ⟨rfl, rfl⟩
  · obtain ⟨harm, hone, hrun⟩ := steps_off (maystep_off h) v.toNat
    rw [exec_dbgStepArm, exec_dbgStep, exec_dbgStepRun, harm, hone, hrun]
    exact ⟨rfl, rfl, rfl⟩
  · rw [exec_traceFrameSent, frameSent_none h]
  · rw [exec_traceFrameSent, frameSent_next h hon]

end Sys2Proof.Machine

/-!
PROOFS. The Almanac: records, windows, the hour, the Eyepiece and the clear.
-/
namespace Sys2Proof.Machine
set_option Elab.async false -- as in Laws: the one text has more theorems than threads

theorem exec_almanacCommit (s : State) : exec .almanacCommit s = .next (commitNext s) := rfl
theorem exec_coalesceWindowClose (k x : Nat) (s : State) : exec (.coalesceWindowClose k x) s = .next (windowEnd k x s) := rfl
theorem exec_hourTick (s : State) : exec .hourTick s = .next (hourPassed s) := rfl
theorem exec_almCursorWrite (v : Word) (s : State) : exec (.almCursorWrite v) s = .next (cursorWrite v.toNat s) := rfl
theorem exec_almWindow15Read (s : State) : exec .almWindow15Read s = .next (window15Read s) := rfl
theorem exec_almWindowLoad (s : State) : exec .almWindowLoad s = .next (windowLoad s) := rfl
theorem exec_almStatusRead (s : State) : exec .almStatusRead s = .next (almStatusRead s) := rfl
theorem exec_almClear (v : Word) (s : State) : exec (.almClear v) s = .next (almClearWrite v.toNat s) := rfl
theorem exec_almanacCleared (s : State) : exec .almanacCleared s = .next (clearDone s) := rfl

/-! ### Records -/

theorem recordHead_length (s : State) (r : AlmRec) : (recordHead s r).length = 60 := by simp [recordHead]

theorem recordOut_length (s : State) (r : AlmRec) : (recordOut s r).length = 64 := by simp [recordOut, recordHead_length]

theorem recordOut_check (s : State) (r : AlmRec) : (recordOut s r).drop 60 = leBytes 4 (crc32c 0xFFFFFFFF ((recordOut s r).take 60)).toNat := by
  have hlen := recordHead_length s r
  unfold recordOut
  dsimp only
  rw [List.drop_left' hlen, List.take_left' hlen]

/-! ### Commits -/

theorem filter_dropFirst {α : Type} (p : α → Bool) (l : List α) : (dropFirst p l).filter p = (l.filter p).drop 1 := by
  induction l with
  | nil => rfl
  | cons x l ih =>
    unfold dropFirst
    split
    case isTrue h => rw [List.filter_cons_of_pos h]; rfl
    case isFalse h => rw [List.filter_cons_of_neg h, List.filter_cons_of_neg h, ih]

theorem filter_not_dropFirst {α : Type} (p : α → Bool) (l : List α) : (dropFirst p l).filter (fun x => !p x) = l.filter (fun x => !p x) := by
  induction l with
  | nil => rfl
  | cons x l ih =>
    unfold dropFirst
    split
    case isTrue h => rw [List.filter_cons_of_neg (by simp [h])]
    case isFalse h => rw [List.filter_cons_of_pos (by simp [h]), List.filter_cons_of_pos (by simp [h]), ih]

/-- The first waiting record leaves the commit order. -/
theorem waiting_popRecord (s : State) : waiting (popRecord s) = (waiting s).drop 1 := by
  have hnot : (fun r : AlmRec => r.severity != 4) = fun r => !(r.severity == 4) := rfl
  unfold popRecord
  split
  case isTrue h =>
    obtain ⟨r, hr, hsev⟩ := List.any_eq_true.1 h
    have hne : s.alm.staging.filter (fun r => r.severity == 4) ≠ [] := List.ne_nil_of_mem (List.mem_filter.2 ⟨hr, hsev⟩)
    unfold waiting
    dsimp only
    rw [hnot, filter_dropFirst, filter_not_dropFirst, List.append_assoc, List.append_assoc, List.drop_append_of_le_length (List.length_pos_iff.2 hne)]
  case isFalse h =>
    have hnone : ∀ l : List AlmRec, (∀ x ∈ l, x ∈ s.alm.staging) → l.filter (fun r => r.severity == 4) = [] ∧ l.filter (fun r => r.severity != 4) = l := fun l hl => by
      have hsev : ∀ x ∈ l, ¬(x.severity == 4) = true := fun x hx hsev => h (List.any_eq_true.2 ⟨x, hl x hx, hsev⟩)
      exact ⟨List.filter_eq_nil_iff.2 hsev, List.filter_eq_self.2 fun x hx => by simpa using hsev x hx⟩
    have hwait : waiting s = s.alm.staging ++ s.alm.queue := by
      unfold waiting
      rw [(hnone _ fun _ hx => hx).1, (hnone _ fun _ hx => hx).2]
      rfl
    rw [hwait]
    split
    case isTrue hempty =>
      have hnil : s.alm.staging = [] := List.isEmpty_iff.1 hempty
      unfold waiting
      simp [hnil]
    case isFalse hempty =>
      have hne : s.alm.staging ≠ [] := fun e => hempty (by rw [e]; rfl)
      have hsub : ∀ x ∈ s.alm.staging.drop 1, x ∈ s.alm.staging := fun x hx => List.mem_of_mem_drop hx
      unfold waiting
      dsimp only
      rw [(hnone _ hsub).1, (hnone _ hsub).2, List.drop_append_of_le_length (List.length_pos_iff.2 hne)]
      rfl

theorem popRecord_frame (s : State) :
    popRecord s = { s with alm := { s.alm with staging := (popRecord s).alm.staging, queue := (popRecord s).alm.queue } } := by
  unfold popRecord
  split
  · rfl
  · split <;> rfl

theorem commitNext_acts {s : State} {tk : Token} {r : AlmRec} (hpg : s.pwr.pg = true) (hfull : fullSession s = true) (hclear : s.alm.clearing = false)
    (htok : s.tok.socket = some tk) (hroom : tk.almNext < 258048) (hr : (waiting s).head? = some r) :
    commitNext s = (popRecord s).framed.onToken (appendRecord tk.almNext (recordOut s r)) := by
  have hplace : placeRecord tk r.severity = some tk.almNext := if_pos hroom
  unfold commitNext commitOne
  rw [hpg, hfull, hclear, htok, hr]
  dsimp only
  rw [hplace]
  rfl

theorem commitNext_idle {s : State} (h : fullSession s = false ∨ s.alm.clearing = true) : commitNext s = s := by
  unfold commitNext
  rcases h with h | h <;> simp [h]

theorem almanacCommit_does {s : State} {tk : Token} {r : AlmRec} (hpg : s.pwr.pg = true) (hfull : fullSession s = true) (hclear : s.alm.clearing = false)
    (htok : s.tok.socket = some tk) (hroom : tk.almNext < 258048) (hr : (waiting s).head? = some r) :
    Does .almanacCommit s (fun t => waiting t = (waiting s).drop 1 ∧ ∃ u, t.tok.socket = some u ∧
      u.almRecords = tk.almRecords ++ [(tk.almNext, recordOut s r)] ∧ u.almNext = tk.almNext + 1 ∧ t.alm.eventSeq = s.alm.eventSeq) := by
  refine ⟨_, exec_almanacCommit s, ?_⟩
  rw [commitNext_acts hpg hfull hclear htok hroom hr]
  refine ⟨waiting_popRecord s, appendRecord tk.almNext (recordOut s r) tk, ?_, ?_, ?_, ?_⟩
  · exact congrArg (Option.map _) ((by rw [popRecord_frame] : (popRecord s).tok.socket = s.tok.socket).trans htok)
  · unfold appendRecord
    split <;> rfl
  · unfold appendRecord
    rw [if_pos hroom]
  · exact (by rw [popRecord_frame] : (popRecord s).alm.eventSeq = s.alm.eventSeq)

/-! ### Windows and the hour -/

theorem windowEnd_only {s : State} {w : CoalWin} (h : s.alm.windows = [w]) :
    windowEnd w.kind w.source s = if s.clk ≥ w.openAt + s.eph.cfg.coalesceMs * 1000000 then closeWindow w s else s := by
  unfold windowEnd
  simp [h]

/-- No window is open. -/
def windowsShut (s : State) : State := { s with alm := { s.alm with windows := [] } }

theorem closeWindow_only {s : State} {w : CoalWin} (h : s.alm.windows = [w]) :
    closeWindow w s = match w.first with | some r => bufferRecord (summaryOf w r) (windowsShut s) | none => windowsShut s := by
  have hshut : dropFirst (fun (x : CoalWin) => x.kind == w.kind && x.source == w.source) s.alm.windows = [] := by
    rw [h]
    exact if_pos (by simp)
  unfold closeWindow windowsShut
  dsimp only
  rw [hshut] <;> rfl

theorem bufferRecord_audit {s : State} {r : AlmRec} (hsev : r.severity = 1) (hqueue : s.alm.queue = []) :
    bufferRecord r s = { s with alm := { s.alm with queue := [r] } } := by
  unfold bufferRecord
  simp [hsev, hqueue]

theorem summaryOf_count (w : CoalWin) (r : AlmRec) : (summaryOf w r).payload.take 4 = leBytes 4 w.count := by
  unfold summaryOf
  simp only [List.append_assoc]
  exact List.take_left' (leBytes_length 4 _)

theorem hourPassed_early {s : State} (h : s.alm.hourNs < 3600000000000) : hourPassed s = s := by
  unfold hourPassed
  simp [h]

/-- A whole hour is counted and saved. -/
def hourCounted (s : State) : State :=
  { s with alm := { s.alm with hours := (s.alm.hours + 1) % 2 ^ 24, hourNs := s.alm.hourNs - 3600000000000, copyHours := (s.alm.hours + 1) % 2 ^ 24,
                               copyCycle := s.alm.powerCycle } }

theorem hourPassed_acts {s : State} (hpg : s.pwr.pg = true) (h : 3600000000000 ≤ s.alm.hourNs) : hourPassed s = saveOverflow (hourCounted s) := by
  unfold hourPassed
  rw [hpg, Bool.true_and, decide_eq_true h]
  rfl

/-- The counters of the Almanac path that events leave alone. -/
def SameCounters (b t : State) : Prop :=
  t.alm.hours = b.alm.hours ∧ t.alm.hourNs = b.alm.hourNs ∧ t.alm.copyHours = b.alm.copyHours ∧ t.alm.copyCycle = b.alm.copyCycle ∧ t.alm.clearing = b.alm.clearing

theorem SameCounters.trans {a b c : State} (h : SameCounters a b) (k : SameCounters b c) : SameCounters a c := by
  obtain ⟨h1, h2, h3, h4, h5⟩ := h
  obtain ⟨k1, k2, k3, k4, k5⟩ := k
  exact ⟨k1.trans h1, k2.trans h2, k3.trans h3, k4.trans h4, k5.trans h5⟩

theorem sameCounters_tokenEvent (k p : Nat) (s : State) : SameCounters s (tokenEvent k p s) := by
  unfold tokenEvent
  exact ⟨by simp, by simp, by simp, by simp, by simp⟩

/-- The first half of a notice: WEAR. -/
def wearNoted (t : Token) (s : State) : State :=
  if decide (t.units ≤ 1024000) && !s.tok.wear then
    tokenEvent 0x0402 (tokenLife { s with tok := { s.tok with wear := true } }) { s with tok := { s.tok with wear := true } }
  else s

/-- The second half: the token has become read-only. -/
def readOnlyNoted (t : Token) (s : State) : State :=
  if t.readOnly && !s.tok.readOnly then
    let u : State := { s with tok := { s.tok with readOnly := true, socket := s.tok.socket.map burnAll } }
    tokenEvent 0x0403 (tokenLife u) u
  else s

theorem noteLife_eq (t : Token) (s : State) : noteLife t s = readOnlyNoted t (wearNoted t s) := rfl

theorem sameCounters_wearNoted (t : Token) (s : State) : SameCounters s (wearNoted t s) := by
  unfold wearNoted
  split
  · exact sameCounters_tokenEvent 0x0402 _ { s with tok := { s.tok with wear := true } }
  · exact ⟨rfl, rfl, rfl, rfl, rfl⟩

theorem sameCounters_readOnlyNoted (t : Token) (s : State) : SameCounters s (readOnlyNoted t s) := by
  unfold readOnlyNoted
  split
  · exact sameCounters_tokenEvent 0x0403 _ { s with tok := { s.tok with readOnly := true, socket := s.tok.socket.map burnAll } }
  · exact ⟨rfl, rfl, rfl, rfl, rfl⟩

theorem sameCounters_noteLife (t : Token) (s : State) : SameCounters s (noteLife t s) := by
  rw [noteLife_eq]
  exact (sameCounters_wearNoted t s).trans (sameCounters_readOnlyNoted t _)

theorem sameCounters_onJournal (s : State) (f : Token → Token) : SameCounters s (s.onJournal f) := by
  unfold State.onJournal noteToken
  split
  · split
    · exact sameCounters_noteLife _ (s.framed.onToken fun t => journalPage (f t))
    · exact ⟨rfl, rfl, rfl, rfl, rfl⟩
  · exact ⟨rfl, rfl, rfl, rfl, rfl⟩

theorem sameCounters_saveOverflow (s : State) : SameCounters s (saveOverflow s) := by
  unfold saveOverflow
  split
  · exact sameCounters_onJournal _ _
  · exact ⟨rfl, rfl, rfl, rfl, rfl⟩

theorem hourTick_does {s : State} (hpg : s.pwr.pg = true) (h : 3600000000000 ≤ s.alm.hourNs) : Does .hourTick s (fun t =>
    t.alm.hours = (s.alm.hours + 1) % 2 ^ 24 ∧ t.alm.copyHours = t.alm.hours ∧ t.alm.copyCycle = s.alm.powerCycle ∧
      t.alm.hourNs + 3600000000000 = s.alm.hourNs ∧ t.jobs = s.jobs) := by
  obtain ⟨hhours, hns, hcopy, hcycle, _⟩ := sameCounters_saveOverflow (hourCounted s)
  refine ⟨_, exec_hourTick s, ?_⟩
  rw [hourPassed_acts hpg h]
  refine ⟨hhours, hcopy.trans hhours.symm, hcycle, ?_, by rw [saveOverflow_frame]; rfl⟩
  rw [hns]
  exact Nat.sub_add_cancel h

/-- Settles O43: the commit order loses its first record, a window its place, and the hour is counted before the table is saved. -/
theorem almanacRecordsAndWindows : Obligations.AlmanacRecordsAndWindows := by
  refine ⟨⟨fun tk r s hpg hfull hclear htok hroom hr => almanacCommit_does hpg hfull hclear htok hroom hr, fun s h => ?_, fun s r => ⟨recordOut_length s r, recordOut_check s r⟩,
    fun s a b hstage ha hb => ?_⟩, fun w s h => ⟨fun hearly => ?_, fun hlate => ⟨fun hnone => ?_, fun r hr hsev hqueue => ⟨_, exec_coalesceWindowClose _ _ s, ?_⟩⟩⟩,
    fun s hpg h => hourTick_does hpg h, fun s h => ?_⟩
  · rw [exec_almanacCommit, commitNext_idle h]
  · unfold waiting
    simp [hstage, ha, hb]
  · rw [exec_coalesceWindowClose, windowEnd_only h, if_neg (Nat.not_le.2 hearly)]
  · rw [exec_coalesceWindowClose, windowEnd_only h, if_pos hlate, closeWindow_only h, hnone]
    rfl
  · rw [windowEnd_only h, if_pos hlate, closeWindow_only h, hr]
    dsimp only
    rw [bufferRecord_audit (r := summaryOf w r) (s := windowsShut s) hsev hqueue]
    exact ⟨rfl, summaryOf w r, rfl, rfl, rfl, rfl, summaryOf_count w r⟩
  · rw [exec_hourTick, hourPassed_early h]

end Sys2Proof.Machine

/-!
PROOFS. The Eyepiece and the clear of the Almanac; the rows of the ledger token.
-/
namespace Sys2Proof.Machine
set_option Elab.async false -- as in Laws: the one text has more theorems than threads

/-! ### The Eyepiece -/

section
variable {s : State} (hbar : barOpen s .pf0 = true) (hreset : (s.fnOf .pf0).resetting = false)
include hbar hreset

theorem answerRead_open (v : Nat) : answerRead .pf0 v s = { s with out := s.out ++ [.readValue v] } := by
  unfold answerRead
  rw [hbar, hreset]
  rfl

theorem cursorWrite_open (v : Nat) : cursorWrite v s = loadAt v s := by
  unfold cursorWrite
  rw [hbar, hreset]
  rfl

theorem window15Read_loading (h : s.alm.loading = true) : window15Read s = { s with out := s.out ++ [.readValue 0] } := by
  unfold window15Read
  rw [h, if_pos rfl, answerRead_open hbar hreset, Bool.not_true, Bool.and_false]
  rfl

theorem window15Read_loaded (h : s.alm.loading = false) : window15Read s =
    { s with alm := { s.alm with cursor := (s.alm.cursor + 1) % 262144, loading := true }, out := s.out ++ [.readValue (fieldLE s.alm.window 60 4)] } := by
  unfold window15Read
  rw [h, if_neg Bool.false_ne_true, answerRead_open hbar hreset, hbar, hreset]
  rfl

theorem almStatusRead_open : almStatusRead s = { s with alm := { s.alm with drops := 0 }, out := s.out ++ [.readValue (almStatus s)] } := by
  unfold almStatusRead
  rw [answerRead_open hbar hreset, hbar, hreset]
  rfl

/-- What a clear takes besides its code: the right or RETURNED, and a FULL session with a token that takes writes. -/
theorem almClearWrite_accepted {tk : Token} {v : Nat} (htok : s.tok.socket = some tk) (htk : tk.readOnly = false) (hmod : s.tok.readOnly = false)
    (hfull : fullSession s = true) (hclear : s.alm.clearing = false) (hcode : bitsOf v 8 8 = 0xA5) (hbit : bitOf v 0 = true)
    (hright : s.dbg.active.getLsbD 1 = true ∨ lcCode s = 0x0F) :
    almClearWrite v s = { s.onJournal (fun t => { t with almBegin := true }) with
      alm := { (s.onJournal (fun t => { t with almBegin := true })).alm with clearing := true } } := by
  have hallowed : (s.dbg.active.getLsbD 1 || lcCode s == 0x0F) = true := by
    rcases hright with h | h <;> rw [h]
    · rfl
    · exact Bool.or_true _
  unfold almClearWrite
  dsimp only
  rw [hbar, hreset, hcode, hbit, hallowed, hfull, hmod, htok, hclear]
  simp [htk]

end

theorem windowLoad_acts {s : State} (h : s.alm.loading = true) : windowLoad s = { s with alm := { s.alm with loading := false, window := cursorRecord s } } := if_pos h
theorem windowLoad_idle {s : State} (h : s.alm.loading = false) : windowLoad s = s := by
  unfold windowLoad
  rw [h]
  rfl

theorem almClearWrite_refused {s : State} {v : Nat} (h : bitsOf v 8 8 ≠ 0xA5 ∨ (s.dbg.active.getLsbD 1 = false ∧ lcCode s ≠ 0x0F)) : almClearWrite v s = s := by
  unfold almClearWrite
  dsimp only
  rw [if_neg]
  rintro hgo
  simp only [Bool.and_eq_true, Bool.or_eq_true, beq_iff_eq] at hgo
  obtain ⟨⟨⟨⟨⟨_, hcode⟩, _⟩, hallowed⟩, _⟩, _⟩ := hgo
  rcases h with h | ⟨hright, hlc⟩
  · exact h hcode
  · rcases hallowed with h | h
    · exact absurd h (by rw [hright]; exact Bool.false_ne_true)
    · exact hlc h

/-! ### The clear's end -/

theorem eraseBlock_spent {l : Nat} {t : Token} (h : (eraseBlock l t).readOnly = false) : t.readOnly = false ∧ (eraseBlock l t).units + 1 = t.units := by
  unfold eraseBlock at h ⊢
  split at h
  case isTrue hro => exact absurd hro (by rw [h]; exact Bool.false_ne_true)
  case isFalse hro =>
    rw [if_neg hro]
    split at h
    · cases h
    case isFalse hunits =>
      rw [if_neg hunits]
      refine ⟨eq_false_of_ne_true hro, ?_⟩
      have hspent : t.units - 1 + 1 = t.units := by omega
      dsimp only
      split
      · split <;> exact hspent
      · exact hspent

/-- Blocks that are erased without a refusal spend a unit each, and change the token's wear alone. -/
theorem eraseBlocks_spent {ls : List Nat} {t : Token} (h : (eraseBlocks ls t).readOnly = false) : t.readOnly = false ∧ (eraseBlocks ls t).units + ls.length = t.units := by
  induction ls generalizing t with
  | nil => exact ⟨h, rfl⟩
  | cons l ls ih =>
    obtain ⟨hro, hunits⟩ := ih (t := eraseBlock l t) h
    obtain ⟨kro, kunits⟩ := eraseBlock_spent hro
    refine ⟨kro, ?_⟩
    rw [List.length_cons, ← Nat.add_assoc, show eraseBlocks (l :: ls) t = eraseBlocks ls (eraseBlock l t) from rfl, hunits, kunits]

theorem eraseBlocks_journalFree (ls : List Nat) (t : Token) : (eraseBlocks ls t).journalFree = t.journalFree := by
  induction ls generalizing t with
  | nil => rfl
  | cons l ls ih => exact (ih (eraseBlock l t)).trans (by rw [eraseBlock_frame])

/-- A token with a free journal block takes a record without an erase. -/
theorem journalPage_free {t : Token} (h : 1 < t.journalFree) :
    journalPage t = { t with seq := t.seq + 1, journalPages := (journalPage t).journalPages, journalFree := (journalPage t).journalFree } := by
  unfold journalPage
  dsimp only
  split
  · rfl
  · rfl

/-- A record that the token takes without an erase leaves nothing to notice. -/
theorem onJournal_free {s : State} {f : Token → Token} {t : Token} (ht : s.tok.socket = some t) (hfree : 1 < (f t).journalFree) (hro : (f t).readOnly = false) :
    s.onJournal f = s.framed.onToken fun t => journalPage (f t) := by
  have hsocket : (s.framed.onToken fun t => journalPage (f t)).tok.socket = some (journalPage (f t)) := congrArg (Option.map _) ht
  have hkept : (journalPage (f t)).readOnly = false := by rw [journalPage_free hfree]; exact hro
  unfold State.onJournal noteToken
  rw [hsocket]
  dsimp only
  rw [hkept]
  rfl

/-- The Almanac starts again on the erased token. -/
def almanacEmptied (u : Token) (s : State) : State :=
  { s.onToken (fun _ => { u with almRecords := [], almNext := 0, almReserve := 0, overflow := [] }) with alm := { s.alm with eventSeq := 1, overflow := [] } }

/-- ALMANAC_CLEARED as the first record of `u`, the erased token. -/
def clearedRecord (u t : Token) (s : State) : AlmRec :=
  makeRecord 0x0307 0xFF00 (leBytes 4 (t.almNext + t.almReserve) ++ leBytes 4 (min (s.alm.overflow.map (fun x => x.2)).sum 0xFFFFFFFF)) false (almanacEmptied u s)

/-- The erased token with one record. -/
def clearedToken (b : Bytes) (u : Token) : Token := { u with almRecords := [(0, b)], almNext := 1, almReserve := 0, overflow := [] }

/-- The cleared Almanac with its first record, before the clear's END record. -/
def almanacRestarted (u t : Token) (s : State) : State :=
  (almanacEmptied u s).onToken (appendRecord 0 (recordOut (almanacEmptied u s) (clearedRecord u t s)))

section
variable {s : State} {tk u : Token} (htok : s.tok.socket = some tk) (hu : eraseBlocks (blocksOf .almanac) tk = u) (hro : u.readOnly = false)
include htok hu hro

theorem clearDone_acts (hfull : fullSession s = true) (hclear : s.alm.clearing = true) : clearDone s =
    { (almanacRestarted u tk s).onJournal (fun t => { t with almBegin := false }) with
      alm := { ((almanacRestarted u tk s).onJournal (fun t => { t with almBegin := false })).alm with clearing := false } } := by
  unfold clearDone clearAlmanac
  rw [hclear, hfull, htok]
  dsimp only
  rw [hu, Bool.and_self, if_pos rfl, if_neg (ne_true_of_eq_false hro)]
  rfl

/-- The token after the clear, once its END record is written. -/
theorem almanacCleared_does (hfull : fullSession s = true) (hclear : s.alm.clearing = true) (hfree : 1 < tk.journalFree) : Does .almanacCleared s (fun t =>
      t.alm.clearing = false ∧ t.alm.eventSeq = 1 ∧ t.alm.overflow = [] ∧ ∃ v b, t.tok.socket = some v ∧ v.almRecords = [(0, b)] ∧ v.almNext = 1 ∧
        v.almReserve = 0 ∧ v.almBegin = false ∧ v.units + 256 = tk.units ∧ b.length = 64) := by
  have hunits : u.units + 256 = tk.units := by
    have hlen : (blocksOf .almanac).length = 256 := List.length_range'
    rw [← hlen, ← hu]
    exact (eraseBlocks_spent (hu ▸ hro)).2
  have hjournal : 1 < u.journalFree := by
    rw [← hu, eraseBlocks_journalFree]
    exact hfree
  have hrestarted : (almanacRestarted u tk s).tok.socket = some (clearedToken (recordOut (almanacEmptied u s) (clearedRecord u tk s)) u) :=
    congrArg (Option.map _) (congrArg (Option.map _) htok)
  generalize hb : recordOut (almanacEmptied u s) (clearedRecord u tk s) = b at hrestarted
  have hpage := journalPage_free (t := { clearedToken b u with almBegin := false }) hjournal
  refine ⟨_, exec_almanacCleared s, ?_⟩
  rw [clearDone_acts htok hu hro hfull hclear, onJournal_free hrestarted hjournal hro]
  refine ⟨rfl, rfl, rfl, journalPage { clearedToken b u with almBegin := false }, b, congrArg (Option.map _) hrestarted, ?_⟩
  rw [hpage]
  exact ⟨rfl, rfl, rfl, rfl, hunits, hb ▸ recordOut_length _ _⟩

end

theorem clearDone_idle {s : State} (h : s.alm.clearing = false) : clearDone s = s := by
  unfold clearDone
  rw [h]
  rfl

theorem almClear_does {s : State} {tk : Token} {v : Word} (hbar : barOpen s .pf0 = true) (hreset : (s.fnOf .pf0).resetting = false) (htok : s.tok.socket = some tk)
    (htk : tk.readOnly = false) (hmod : s.tok.readOnly = false) (hfull : fullSession s = true) (hclear : s.alm.clearing = false) (hcode : bitsOf v.toNat 8 8 = 0xA5)
    (hbit : bitOf v.toNat 0 = true) (hright : s.dbg.active.getLsbD 1 = true ∨ lcCode s = 0x0F) : Does (.almClear v) s (fun t =>
      t.alm.clearing = true ∧ t.jobs = s.jobs ∧ t.slots = s.slots ∧ ∃ u, t.tok.socket = some u ∧ u.almBegin = true ∧ u.almRecords = tk.almRecords) := by
  obtain ⟨g, hg, hworn⟩ := onJournal_socket s (fun t => { t with almBegin := true })
  have hjobs : (s.onJournal fun t => { t with almBegin := true }).jobs = s.jobs := by rw [onJournal_frame]
  have hslots : (s.onJournal fun t => { t with almBegin := true }).slots = s.slots := by rw [onJournal_frame]
  refine ⟨_, exec_almClear v s, ?_⟩
  rw [almClearWrite_accepted hbar hreset htok htk hmod hfull hclear hcode hbit hright]
  refine ⟨rfl, hjobs, hslots, g tk, hg.trans (by rw [htok]; rfl), ?_, ?_⟩
  · rw [(hworn tk).1]
  · rw [(hworn tk).1]

/-- Settles O44: the Eyepiece by its window, the clear by the records at its two ends. -/
theorem eyepieceAndClear : Obligations.EyepieceAndClear := by
  refine fun s hbar hreset => ⟨fun v => ?_, fun h => ⟨?_, ?_⟩, fun h => ⟨?_, ?_⟩, ?_, fun v tk htok htk hmod hfull hclear => ⟨?_, fun h => ?_⟩, ?_, fun h => ?_⟩
  · rw [exec_almCursorWrite, cursorWrite_open hbar hreset]
    rfl
  · rw [exec_almWindowLoad, windowLoad_acts h]
  · rw [exec_almWindow15Read, window15Read_loading hbar hreset h]
  · rw [exec_almWindowLoad, windowLoad_idle h]
  · rw [exec_almWindow15Read, window15Read_loaded hbar hreset h]
  · rw [exec_almStatusRead, almStatusRead_open hbar hreset]
  · exact almClear_does hbar hreset htok htk hmod hfull hclear
  · rw [exec_almClear, almClearWrite_refused h]
  · intro tk htok _ hfull hclear hro hfree
    exact almanacCleared_does htok rfl hro hfull hclear hfree
  · rw [exec_almanacCleared, clearDone_idle h]

/-! ### The rows of the ledger token -/

theorem exec_tokenSessionEnd (s : State) : exec .tokenSessionEnd s = .next (endSession s) := rfl
theorem exec_tokenLifeRefresh (s : State) : exec .tokenLifeRefresh s = .next (lifeTick s) := rfl
theorem exec_reservationCommit (d i : Nat) (s : State) : exec (.reservationCommit d i) s = .next (reservationDone d i s) := rfl

theorem tokenSessionEnd_does {s : State} {tk : Token} (hsession : anySession s = true) (htok : s.tok.socket = some tk) : Does .tokenSessionEnd s (fun t =>
    t.tok.session = .ended ∧ t.tok.life = none ∧ t.tok.keysLoaded = false ∧ t.sc.heldAuth = [] ∧ t.sc.heldAttest = none ∧ t.jobs = s.jobs ∧ t.slots = s.slots ∧
      ∃ u, t.tok.socket = some u ∧ u.stateful.length = tk.stateful.length ∧ ∀ k ∈ u.stateful, k.ranges = [] ∧ k.endLeaf ≤ k.next) := by
  obtain ⟨htoken, hsc⟩ := endSession_tok hsession
  refine ⟨_, exec_tokenSessionEnd s, by rw [htoken], by rw [htoken], by rw [htoken], by rw [hsc], by rw [hsc], by rw [endSession_frame], by rw [endSession_frame],
    burnAll tk, by rw [htoken, htok]; rfl, List.length_map _, fun k hk => ?_⟩
  obtain ⟨_, _, rfl⟩ := List.mem_map.1 hk
  exact ⟨rfl, Nat.le_max_right _ _⟩

theorem lifeTick_early {s : State} (h : s.clk < s.tok.lifeAt + 1000000000) : lifeTick s = s := by
  unfold lifeTick
  rw [decide_eq_false (Nat.not_le.2 h), Bool.and_false]
  rfl

/-- TOKEN_LIFE as read from the token, by one exchange. -/
def lifeRead (tk : Token) (s : State) : State :=
  { s with tok := { s.tok with life := some tk.units, lifeAt := s.clk, txCount := s.tok.txCount + 1, rxCount := s.tok.rxCount + 1 } }

theorem lifeTick_late {s : State} {tk : Token} (hsession : anySession s = true) (htok : s.tok.socket = some tk) (h : s.tok.lifeAt + 1000000000 ≤ s.clk) :
    lifeTick s = noteLife tk (lifeRead tk s) := by
  unfold lifeTick refreshLife
  rw [hsession, decide_eq_true h, htok]
  rfl

theorem readOnlyNoted_none {tk : Token} (h : tk.readOnly = false) (s : State) : readOnlyNoted tk s = s := by
  unfold readOnlyNoted
  rw [h]
  rfl

theorem noteLife_healthy {tk : Token} (h : tk.readOnly = false) (hunits : 1024000 < tk.units) (s : State) : noteLife tk s = s := by
  rw [noteLife_eq, readOnlyNoted_none h]
  unfold wearNoted
  rw [decide_eq_false (Nat.not_le.2 hunits)]
  rfl

theorem noteLife_worn {tk : Token} {s : State} (h : tk.readOnly = false) (hunits : tk.units ≤ 1024000) (hwear : s.tok.wear = false) :
    noteLife tk s = tokenEvent 0x0402 (tokenLife { s with tok := { s.tok with wear := true } }) { s with tok := { s.tok with wear := true } } := by
  rw [noteLife_eq, readOnlyNoted_none h]
  unfold wearNoted
  rw [decide_eq_true hunits, hwear]
  rfl

theorem eventSeq_tokenEvent (k p : Nat) (s : State) : (tokenEvent k p s).alm.eventSeq = sat32 s.alm.eventSeq := by
  unfold tokenEvent
  rw [raiseEvent_alm_eventSeq, ringEvent_alm]

theorem lifeRefresh_worn {s : State} {tk : Token} (hsession : anySession s = true) (htok : s.tok.socket = some tk) (hro : tk.readOnly = false)
    (hlate : s.tok.lifeAt + 1000000000 ≤ s.clk) (hunits : tk.units ≤ 1024000) (hwear : s.tok.wear = false) : Does .tokenLifeRefresh s (fun t =>
      t.tok.wear = true ∧ t.tok.life = some tk.units ∧ t.tok.readOnly = s.tok.readOnly ∧ t.alm.eventSeq = sat32 s.alm.eventSeq) := by
  refine ⟨_, exec_tokenLifeRefresh s, ?_⟩
  rw [lifeTick_late hsession htok hlate, noteLife_worn (s := lifeRead tk s) hro hunits hwear]
  refine ⟨?_, ?_, ?_, eventSeq_tokenEvent _ _ _⟩ <;> rw [tokenEvent_frame]
  · rfl
  · rfl

/-! ### Reservations -/

theorem stateful_find {tk : Token} {k : StatefulKey} {d i : Nat} (hkeys : tk.stateful = [k]) (hd : k.domain = d) (hi : k.index = i) :
    tk.stateful.find? (fun k => k.domain == d && k.index == i) = some k := by
  rw [hkeys]
  simp [hd, hi]

theorem anchored_loaded {s : State} (h : s.tok.keysLoaded = true) : anchored s = s.tok.socket := if_pos h

theorem logProgram_room {t : Token} (h : 4 ≤ t.logFree) (tck : Bytes) (r : LeafRec) :
    2 ≤ (logProgram tck r t).logFree ∧ (logProgram tck r t).stateful = t.stateful ∧ (logProgram tck r t).readOnly = t.readOnly := by
  unfold logProgram logOpen
  split
  case h_1 hfull =>
    split at hfull
    · cases hfull
    · rw [if_neg (by simp; omega)] at hfull
      cases hfull
  case h_2 u hu =>
    split at hu
    · cases hu
      exact ⟨show 2 ≤ t.logFree by omega, rfl, rfl⟩
    · rw [if_neg (by simp; omega)] at hu
      cases hu
      exact ⟨show 2 ≤ t.logFree - 1 by omega, rfl, rfl⟩

/-- A record programmed into a log with room: no compaction. -/
theorem logRecord_room {t : Token} (h : 4 ≤ t.logFree) (tck : Bytes) (r : LeafRec) :
    (logRecord tck r t).stateful = t.stateful ∧ (logRecord tck r t).readOnly = t.readOnly := by
  obtain ⟨hfree, hkeys, hro⟩ := logProgram_room h tck r
  unfold logRecord
  dsimp only
  rw [decide_eq_true hfree]
  exact ⟨hkeys, hro⟩

theorem writeLeafRec_room {s : State} {t : Token} (ht : s.tok.socket = some t) (h : 4 ≤ t.logFree) (hro : t.readOnly = false) (r : LeafRec) :
    ∃ u, (writeLeafRec r s).tok.socket = some u ∧ u.stateful = t.stateful ∧ (writeLeafRec r s).tok.keysLoaded = s.tok.keysLoaded := by
  obtain ⟨hkeys, kro⟩ := logRecord_room h (s.tok.tck.getD []) r
  have hsocket : (s.framed.onToken (logRecord (s.tok.tck.getD []) r)).tok.socket = some (logRecord (s.tok.tck.getD []) r t) := congrArg (Option.map _) ht
  have hquiet : writeLeafRec r s = s.framed.onToken (logRecord (s.tok.tck.getD []) r) := by
    unfold writeLeafRec noteToken
    rw [hsocket]
    dsimp only
    rw [kro, hro]
    rfl
  rw [hquiet]
  exact ⟨_, hsocket, hkeys, rfl⟩

/-- The end of the leaves that a key's reservation reserves. -/
def reservedEnd (s : State) (k : StatefulKey) : Nat := max k.endLeaf (min (k.endLeaf + 2 ^ reserveExp s k) (leafCount k))

/-- The reservation of `k` commits in the token's record `m` of it. -/
def commitKey (s : State) (k m : StatefulKey) : StatefulKey :=
  { m with ranges := m.ranges ++ (if k.endLeaf < reservedEnd s k then [(k.endLeaf, reservedEnd s k)] else []), endLeaf := reservedEnd s k, writing := false }

theorem commitKey_end {s : State} {k : StatefulKey} (h : k.endLeaf < leafCount k) :
    (commitKey s k k).endLeaf = min (k.endLeaf + 2 ^ reserveExp s k) (leafCount k) ∧ (commitKey s k k).ranges = k.ranges ++ [(k.endLeaf, (commitKey s k k).endLeaf)] := by
  have hpos : 0 < 2 ^ reserveExp s k := Nat.two_pow_pos _
  unfold commitKey reservedEnd
  dsimp only
  refine ⟨by omega, ?_⟩
  rw [if_pos (by omega)]

theorem reservationDone_acts {s : State} {tk : Token} {k : StatefulKey} {d i : Nat} (hfull : fullSession s = true) (hmod : s.tok.readOnly = false)
    (hloaded : s.tok.keysLoaded = true) (hpg : s.pwr.pg = true) (htok : s.tok.socket = some tk) (hkeys : tk.stateful = [k]) (hd : k.domain = d) (hi : k.index = i) :
    reservationDone d i s = if k.writing then
      noteLow d i (writeLeafRec { keyId := k.keyId, first := k.endLeaf, last := reservedEnd s k } (onStateful d i (commitKey s k) s))
      else s := by
  have hkey : (anchored s).bind (fun (t : Token) => t.stateful.find? (fun k => k.domain == d && k.index == i)) = some k := by
    rw [anchored_loaded hloaded, htok]
    exact stateful_find hkeys hd hi
  unfold reservationDone
  rw [hkey]
  dsimp only
  rw [hfull, hmod, hpg]
  cases k.writing <;> rfl

theorem onStateful_only {s : State} {tk : Token} {k : StatefulKey} {d i : Nat} (htok : s.tok.socket = some tk) (hkeys : tk.stateful = [k]) (hd : k.domain = d)
    (hi : k.index = i) (g : StatefulKey → StatefulKey) : (onStateful d i g s).tok.socket = some { tk with stateful := [g k] } := by
  have hmod : modFirst (fun (k : StatefulKey) => k.domain == d && k.index == i) g tk.stateful = [g k] := by
    rw [hkeys]
    exact if_pos (by simp [hd, hi])
  unfold onStateful
  dsimp only
  rw [htok, Option.map_some, hmod]

/-- A key that runs low is only noted. -/
theorem noteLow_only {s : State} {tk : Token} {k : StatefulKey} {d i : Nat} (hloaded : s.tok.keysLoaded = true) (htok : s.tok.socket = some tk)
    (hkeys : tk.stateful = [k]) (hd : k.domain = d) (hi : k.index = i) :
    ∃ u b, (noteLow d i s).tok.socket = some u ∧ u.stateful = [{ k with lowNoted := b }] := by
  have hkey : (anchored s).bind (fun (t : Token) => t.stateful.find? (fun k => k.domain == d && k.index == i)) = some k := by
    rw [anchored_loaded hloaded, htok]
    exact stateful_find hkeys hd hi
  unfold noteLow
  rw [hkey]
  dsimp only
  split
  · exact ⟨tk, k.lowNoted, htok, hkeys⟩
  · rw [raiseEvent_tok]
    exact ⟨_, true, onStateful_only htok hkeys hd hi _, rfl⟩

theorem reservationCommit_does {s : State} {tk : Token} {k : StatefulKey} {d i : Nat} (hfull : fullSession s = true) (hmod : s.tok.readOnly = false)
    (hloaded : s.tok.keysLoaded = true) (hpg : s.pwr.pg = true) (htok : s.tok.socket = some tk) (hro : tk.readOnly = false) (hkeys : tk.stateful = [k])
    (hd : k.domain = d) (hi : k.index = i) (hroom : 4 ≤ tk.logFree) (hwriting : k.writing = true) (hend : k.endLeaf < leafCount k) :
    Does (.reservationCommit d i) s (fun t => ∃ u m, t.tok.socket = some u ∧ u.stateful = [m] ∧
      m.endLeaf = min (k.endLeaf + 2 ^ reserveExp s k) (leafCount k) ∧ m.ranges = k.ranges ++ [(k.endLeaf, m.endLeaf)] ∧ m.writing = false ∧ m.next = k.next) := by
  refine ⟨_, exec_reservationCommit d i s, ?_⟩
  rw [reservationDone_acts hfull hmod hloaded hpg htok hkeys hd hi, hwriting, if_pos rfl]
  obtain ⟨u, hu, hukeys, huloaded⟩ := writeLeafRec_room (onStateful_only htok hkeys hd hi (commitKey s k)) hroom hro { keyId := k.keyId, first := k.endLeaf, last := reservedEnd s k }
  obtain ⟨v, b, hv, hvkeys⟩ := noteLow_only (huloaded.trans hloaded) hu hukeys hd hi
  obtain ⟨hlast, hranges⟩ := commitKey_end (s := s) hend
  exact ⟨v, _, hv, hvkeys, hlast, hranges, rfl, rfl⟩

/-- Settles O42: the end of the session, the refresh by what the token's life is, the commit by the key that is being written. -/
theorem ledgerTokenRows : Obligations.LedgerTokenRows := by
  refine ⟨fun tk s => tokenSessionEnd_does, fun s h => ?_, fun tk s hsession htok hro => ⟨fun h => ?_, fun hlate hunits => ?_, lifeRefresh_worn hsession htok hro⟩,
    fun d i tk k s hfull hmod hloaded hpg htok hro hkeys hd hi hroom =>
      ⟨reservationCommit_does hfull hmod hloaded hpg htok hro hkeys hd hi hroom, fun hidle => ?_⟩⟩
  · rw [exec_tokenSessionEnd, endSession_none h]
  · rw [exec_tokenLifeRefresh, lifeTick_early h]
  · rw [exec_tokenLifeRefresh, lifeTick_late hsession htok hlate, noteLife_healthy hro hunits]
    rfl
  · rw [exec_reservationCommit, reservationDone_acts hfull hmod hloaded hpg htok hkeys hd hi, hidle]
    rfl

end Sys2Proof.Machine

/-!
PROOFS. How sections and programs of the clusters end; the supervisor's reloads and copies.
-/
namespace Sys2Proof.Machine
set_option Elab.async false -- as in Laws: the one text has more theorems than threads

theorem exec_yield (n : Nat) (s : State) : exec (.yield_ n) s = .next (onWord n .yield_ (yieldAt false n) s) := rfl
theorem exec_yieldExtend (n : Nat) (s : State) : exec (.yieldExtend n) s = .next (onWord n .yieldExtend (yieldAt true n) s) := rfl
theorem exec_end (n : Nat) (shared keyout : Bool) (x : JobRun) (s : State) :
    exec (.end_ n shared keyout x) s = .next (onWord n (.end_ shared keyout) (endAt shared keyout x n) s) := rfl
theorem exec_watchdog (n : Nat) (s : State) : exec (.watchdog n) s = .next (watchdogAt n s) := rfl
theorem exec_tileReload (n : Nat) (again : Bool) (s : State) : exec (.tileReload n again) s = .next (reloadTile again n s) := rfl

theorem onWord_of_spelled {n : Nat} {i : CodeWord} {s : State} (h : spells n i s = true) (f : State → State) : onWord n i f s = f s := if_pos h

/-! ### The context store -/

/-- A job but for what is saved of it. -/
def SavesOnly (x y : Job) : Prop := y = { x with saves := y.saves }

theorem SavesOnly.trans (x y z : Job) (h : SavesOnly x y) (k : SavesOnly y z) : SavesOnly x z := by
  unfold SavesOnly at *
  rw [k, h]

theorem savesOnly_onJob {b s : State} {i : Nat} {g : Job → Job} (hg : ∀ x, SavesOnly x (g x)) (h : Elementwise SavesOnly b.jobs s.jobs) :
    Elementwise SavesOnly b.jobs (s.onJob i g).jobs :=
  elementwise_trans SavesOnly.trans h (elementwise_modFirst (R := SavesOnly) (fun _ => rfl) (fun x _ => hg x) _)

theorem savesOnly_spillable {b s t : State} {x : Nat × (State → State)} (hx : x ∈ spillable s) (h : Elementwise SavesOnly b.jobs t.jobs) :
    Elementwise SavesOnly b.jobs (x.2 t).jobs := by
  simp only [spillable, List.mem_append, List.mem_map] at hx
  obtain ⟨c, -, rfl⟩ | ⟨j, -, rfl⟩ := hx
  · exact h
  · exact savesOnly_onJob (fun _ => rfl) h

/-- Of two contexts the one used less recently, the former where neither was. -/
def olderOf (b : Option (Nat × (State → State))) (x : Nat × (State → State)) : Option (Nat × (State → State)) :=
  match b with
  | some y => if x.1 < y.1 then some x else some y
  | none => some x

theorem olderOf_either (o : Option (Nat × (State → State))) (x : Nat × (State → State)) : olderOf o x = some x ∨ olderOf o x = o := by
  cases o with
  | none => exact .inl rfl
  | some y =>
    unfold olderOf
    dsimp only
    split
    · exact .inl rfl
    · exact .inr rfl

theorem savesOnly_fitStore {b : State} (n : Nat) {s : State} (h : Elementwise SavesOnly b.jobs s.jobs) : Elementwise SavesOnly b.jobs (fitStore n s).jobs := by
  induction n generalizing s with
  | zero => exact h
  | succ n ih =>
    have hstep : fitStore (n + 1) s = if storeUsed s ≤ 8192 then s else match (spillable s).foldl olderOf none with
      | some v => fitStore n (v.2 s)
      | none => s := rfl
    rw [hstep]
    split
    · exact h
    · cases hv : (spillable s).foldl olderOf none with
      | none => exact h
      | some v => exact ih (savesOnly_spillable ((foldl_pick_mem _ olderOf_either _ _ hv).resolve_right (fun e => nomatch e)) h)

theorem savesOnly_saveCtxs {b : State} (j : Job) (us : List Nat) (spilled : Bool) {s : State} (h : Elementwise SavesOnly b.jobs s.jobs) :
    Elementwise SavesOnly b.jobs (saveCtxs j us spilled s).jobs := by
  unfold saveCtxs
  exact savesOnly_fitStore _ (savesOnly_onJob (fun _ => rfl) h)

theorem yieldOverrun_does {j : Job} {s : State} (hj : s.job? j.id = some j) (input rnd : Bytes) (round : Nat) :
    ∃ y, (yieldOverrun j input rnd round s).job? j.id = some y ∧ y.phase = .overrun ∧ y.rnd = rnd ∧ y.round = round := by
  have hmarked : ∀ v : List Cluster, (({ freeUnits j.id s with vcc := v } : State).onJob j.id fun j =>
      { j with phase := .overrun, units := if (jobPools j).contains .vcc then j.units else [], rnd := rnd, round := round, input := input }).job? j.id =
      some { j with phase := .overrun, units := if (jobPools j).contains .vcc then j.units else [], rnd := rnd, round := round, input := input } :=
    fun v => job?_onJob_some hj
  unfold yieldOverrun
  dsimp only
  split
  · exact ⟨_, hmarked _, rfl, rfl, rfl⟩
  · obtain ⟨y, hy, hsaved⟩ := elementwise_find? (fun x y hxy => by rw [hxy]) (savesOnly_saveCtxs j (j.units.take 1) true (elementwise_of_refl (R := SavesOnly) (fun _ => rfl) _)) (hmarked _)
    exact ⟨y, hy, by rw [hsaved], by rw [hsaved], by rw [hsaved]⟩

/-! ### YIELD -/

/-- A job alone on its cluster has passed its YIELD. -/
def yieldPassed (n : Nat) (j : Job) (s : State) : State :=
  let s := onResid j.id [n] (fun q => { q with atYield := false, yielded := s.clk, point := true }) s
  { s with vcc := modAt s.vcc n (fun (k : Cluster) => { k with pc := k.pc + 1, vresume := 0, reloaded := [] }) }

section
variable {n : Nat} {s : State} {cl : Cluster} {r : Resid} {j : Job}

theorem preemptAsked_idle {t : State} (h : ∀ b ∈ t.jobs, isReady b = false) : preemptAsked j t = false := by
  unfold preemptAsked
  rw [List.any_eq_false]
  intro b hb
  unfold mayPreempt
  simp [h b hb]

theorem yieldPassed_cluster (hcl : s.vcc[n]? = some cl) :
    ∃ k, (yieldPassed n j s).vcc[n]? = some k ∧ k.pc = cl.pc + 1 ∧ k.regs = cl.regs ∧ k.tiles = cl.tiles :=
  ⟨_, getElem?_modAt_same _ (getElem?_modAt_same _ hcl), rfl, rfl, rfl⟩

theorem vccReady_job (h : vccReady n s = some (cl, r, j)) : s.job? j.id = some j := by
  unfold vccReady at h
  split at h
  · cases h
  · split at h
    · cases h
    · split at h
      · cases h
      case h_2 k hk =>
        split at h
        · cases h
        · cases h
          rw [mem_jobs_of_job? hk]
          exact hk

variable (hready : vccReady n s = some (cl, r, j)) (hhalt : s.dbg.halted ≠ some j.id) (hgang : r.view.gang = [])
include hready hgang

theorem yieldAt_alone (hhalt : s.dbg.halted ≠ some j.id) (extend : Bool) : yieldAt extend n s =
    if extend then yieldOverrun j j.input j.rnd j.round (yieldPassed n j s)
    else if preemptAsked j (yieldPassed n j s) then saveJob j (yieldPassed n j s) else yieldPassed n j s := by
  have hclusters : gangClusters n r = [n] := by
    unfold gangClusters
    rw [hgang]
    rfl
  have hkeep : haltAgain n j (yieldPassed n j s) = yieldPassed n j s := haltAgain_of_other hhalt
  unfold yieldAt
  rw [hready]
  dsimp only
  rw [hclusters]
  simp only [List.any_cons, List.any_nil, bne_self_eq_false, Bool.false_and, Bool.or_false, Bool.false_eq_true, if_false, List.foldl_cons, List.foldl_nil]
  exact congrArg (fun t => if extend then yieldOverrun j j.input j.rnd j.round t else if preemptAsked j t then saveJob j t else t) hkeep

theorem endAt_alone {shared keyout : Bool} {x : JobRun} : endAt shared keyout x n s =
    match j.inBad with
    | some st => endJob st wholeInline j.id s
    | none =>
      match [n].find? (fun u => ((residOn s j.id u).map (fun (q : Resid) => q.faulted)).getD false), vccInOf s j.id n with
      | some u, _ => selfFault u j s
      | none, some y => finishEnd n j y shared keyout { x with job := j.id } s
      | none, none => s := by
  have hclusters : gangClusters n r = [n] := by
    unfold gangClusters
    rw [hgang]
    rfl
  unfold endAt
  rw [hready]
  dsimp only
  rw [hclusters]
  simp only [List.any_cons, List.any_nil, bne_self_eq_false, Bool.false_and, Bool.or_false, Bool.false_eq_true, if_false]
  rfl

theorem endAt_breach {shared keyout : Bool} {x : JobRun} {st : Status} (hbad : j.inBad = some st) : endAt shared keyout x n s = endJob st wholeInline j.id s := by
  rw [endAt_alone hready hgang, hbad]

theorem endAt_faulted {shared keyout : Bool} {x : JobRun} (hbad : j.inBad = none) (hfault : r.faulted = true) (hr : residOn s j.id n = some r) :
    endAt shared keyout x n s = selfFault n j s := by
  rw [endAt_alone hready hgang, hbad, List.find?_cons, hr, Option.map_some, Option.getD_some, hfault]

theorem endAt_finishes {shared keyout : Bool} {x : JobRun} (hbad : j.inBad = none) (hfault : r.faulted = false) (hr : residOn s j.id n = some r) :
    endAt shared keyout x n s = finishEnd n j (seenBy s cl r) shared keyout { x with job := j.id } s := by
  have hin : vccInOf s j.id n = some (seenBy s cl r) := by
    unfold vccInOf
    rw [vccReady_vcc hready, hr]
    rfl
  rw [endAt_alone hready hgang, hbad, hin, List.find?_cons, hr, Option.map_some, Option.getD_some, hfault]
  rfl

omit hgang in
theorem watchdogAt_eq : watchdogAt n s = if s.clk > r.yielded + r.view.nps then kernelDefect n j 2 cl.pc s else s := by
  unfold watchdogAt
  rw [hready]

end

/-- Settles O40: the clusters that must meet are the job's own one. -/
theorem sectionsAndProgramsEnd : Obligations.SectionsAndProgramsEnd := by
  intro n s cl r j hready hhalt hgang
  refine ⟨fun hidle hspell => ⟨_, exec_yield n s, ?_⟩, fun hspell => ⟨_, exec_yieldExtend n s, ?_⟩, fun shared keyout x hspell hbad hfault hr => ?_,
    fun shared keyout x hspell hbad hfault hr => ?_, fun shared keyout x st hspell hbad => ?_, fun h => ?_, fun h => ?_⟩
  · rw [onWord_of_spelled hspell, yieldAt_alone hready hgang hhalt, preemptAsked_idle (t := yieldPassed n j s) hidle]
    exact ⟨rfl, rfl, yieldPassed_cluster (vccReady_vcc hready)⟩
  · rw [onWord_of_spelled hspell, yieldAt_alone hready hgang hhalt, if_pos rfl]
    have hjob : s.job? j.id = some j := vccReady_job hready
    exact yieldOverrun_does (s := yieldPassed n j s) hjob _ _ _
  · rw [exec_end, onWord_of_spelled hspell, endAt_faulted hready hgang hbad hfault hr]
  · rw [exec_end, onWord_of_spelled hspell, endAt_finishes hready hgang hbad hfault hr]
  · rw [exec_end, onWord_of_spelled hspell, endAt_breach hready hgang hbad]
  · rw [exec_watchdog, watchdogAt_eq hready, if_pos h]
  · rw [exec_watchdog, watchdogAt_eq hready, if_neg (Nat.not_lt.2 h)]

/-! ### The supervisor -/

theorem exec_winFetchComplete (n job : Nat) (s : State) : exec (.winFetchComplete n job) s = .next (winLand n job s) := rfl

theorem testRun_keeps (corrupt : Bool) (n : Nat) (s : State) : (testRun corrupt n s).jobs = s.jobs ∧ (testRun corrupt n s).units = s.units ∧ (testRun corrupt n s).flt = s.flt := by
  unfold testRun
  split
  · exact ⟨rfl, rfl, rfl⟩
  · split
    · exact ⟨rfl, rfl, rfl⟩
    · split
      · exact ⟨rfl, rfl, rfl⟩
      · unfold putCluster
        dsimp only
        rw [raiseEvent_frame, raiseEvent_frame]
        exact ⟨rfl, rfl, rfl⟩

/-- The cluster after a reload. -/
def reloadedBy (again : Bool) (t : Trap) (k : Cluster) : Cluster :=
  { k with trap := none, reloaded := k.reloaded ++ [t.tile], badChecks := if again then k.badChecks else keptChecks (fun b => b == t.tile) k }

theorem reloadTile_acts {n : Nat} {s : State} {k : Cluster} {t : Trap} (htest : testCluster s n = false) (hk : s.vcc[n]? = some k) (ht : k.trap = some t) (again : Bool) :
    reloadTile again n s = putCluster n (reloadedBy again t k) s := by
  unfold reloadTile
  rw [htest, hk]
  dsimp only
  rw [ht]
  rfl

/-- A tile whose check word is written anew does not fail. -/
theorem tileFails_reloaded (t : Trap) (k : Cluster) : tileFails (reloadedBy false t k) t.tile = false := by
  have hnone : (keptChecks (fun b => b == t.tile) k).find? (fun x => x.1 == t.tile) = none := by
    rw [List.find?_eq_none]
    intro x hx
    simpa using (List.mem_filter.1 hx).2
  unfold tileFails syndrome reloadedBy
  rw [if_neg Bool.false_ne_true, hnone]
  rfl

/-- The cluster after the oldest copy of a job has landed. -/
def landedOn (job : Nat) (r : Resid) (w : Nat × Nat × Nat × Nat) (rest : List (Nat × Nat × Nat × Nat)) (k : Cluster) : Cluster :=
  { landFetch r w k with resid := modFirst (fun q => q.job == job) (fun q => { q with window := rest }) k.resid }

theorem winLand_acts {n job : Nat} {s : State} {k : Cluster} {r : Resid} {w : Nat × Nat × Nat × Nat} {rest : List (Nat × Nat × Nat × Nat)} (hk : s.vcc[n]? = some k)
    (hr : k.resid.find? (fun q => q.job == job) = some r) (hw : r.window = w :: rest) : winLand n job s = putCluster n (landedOn job r w rest k) s := by
  unfold winLand
  rw [hk]
  dsimp only
  rw [hr]
  dsimp only
  rw [hw]
  rfl

/-- Settles O41: one cluster is replaced. -/
theorem supervisorReloadsAndCopies : Obligations.SupervisorReloadsAndCopies := by
  refine ⟨fun n again cl tr s hcl htrap htest => ⟨_, exec_tileReload n again s, ?_⟩, fun n again s htest => ⟨_, exec_tileReload n again s, ?_⟩,
    fun n job cl r w rest s hcl hr hw => ⟨_, exec_winFetchComplete n job s, ?_⟩⟩
  · rw [reloadTile_acts htest hcl htrap]
    refine ⟨_, getElem?_modAt_same _ hcl, rfl, rfl, rfl, ?_, ?_, rfl⟩
    · rintro rfl
      exact tileFails_reloaded tr cl
    · rintro rfl
      rfl
  · unfold reloadTile
    rw [if_pos htest]
    exact testRun_keeps again n s
  · rw [winLand_acts hcl hr hw]
    refine ⟨_, { r with window := rest }, getElem?_modAt_same _ hcl, ?_, rfl, rfl⟩
    exact (find_modFirst (fun q : Resid => q.job == job) (fun q => { q with window := rest }) (fun _ hx => hx) cl.resid).trans (by rw [hr]; rfl)

end Sys2Proof.Machine

/-!
PROOFS. Power, resets, the rails, supervision and the SMBus.
-/
namespace Sys2Proof.Machine
set_option Elab.async false -- as in Laws: the one text has more theorems than threads

theorem exec_powerGood (env : BootEnv) (s : State) : exec (.powerGood env) s = .next (powerUp env s) := rfl
theorem exec_pwrdisDeassert (s : State) : exec .pwrdisDeassert s = .next (pwrdisOff s) := rfl
theorem exec_perstAssert (s : State) : exec .perstAssert s = .next (perstOn s) := rfl
theorem exec_perstDeassert (env : BootEnv) (s : State) : exec (.perstDeassert env) s = .next (perstOff env s) := rfl
theorem exec_tokenSessionRetry (hs : Handshake) (s : State) : exec (.tokenSessionRetry hs) s = .next (retryToken hs s) := rfl
theorem exec_startupHoldResume (s : State) : exec .startupHoldResume s = .next (resumeStart s) := rfl
theorem exec_pgDip (mv ns : Nat) (s : State) : exec (.pgDip mv ns) s = .next (pgDip mv ns s) := rfl
theorem exec_auxAbsent (s : State) : exec .auxAbsent s = .next (auxMissing s) := rfl
theorem exec_auxiliaryPowerLoss (s : State) : exec .auxiliaryPowerLoss s = .next (auxOff s) := rfl
theorem exec_auxiliaryPowerOn (s : State) : exec .auxiliaryPowerOn s = .next (auxOn s) := rfl
theorem exec_thermalWarn (c : Int) (s : State) : exec (.thermalWarn c) s = .next (thermalWarn c s) := rfl
theorem exec_activityStretchEnd (s : State) : exec .activityStretchEnd s = .next (activityOff s) := rfl
theorem exec_strapsRead (live : Byte) (s : State) : exec (.strapsRead live) s = .next (strapsRead live s) := rfl
theorem exec_latchOpen (s : State) : exec .latchOpen s = .next (latchForced s) := rfl
theorem exec_smbusOffsetWrite (addr : Nat) (off : Byte) (s : State) : exec (.smbusOffsetWrite addr off) s = .next (smbusOffset addr off s) := rfl

/-! ### POWER_GOOD -/

theorem powerUp_idle {env : BootEnv} {s : State} (h : s.pwr.pg = true ∨ s.pwr.pwrdis = true) : powerUp env s = s := by
  unfold powerUp
  rcases h with h | h <;> simp [h]

/-- The power cycle is counted, the token sensed, power-good shown. -/
def poweredUp (env : BootEnv) (s : State) : State :=
  let s := seatToken env (auxFirst { s with pwr := { s.pwr with main := true, aux := env.aux } })
  { s with pwr := { s.pwr with pg := true, perst := true, perstSeen := false, auxNoted := false, strapNoted := false },
           alm := { s.alm with powerCycle := (s.alm.powerCycle + 1) % 2 ^ 32 } }

theorem powerUp_acts {env : BootEnv} {s : State} (hpg : s.pwr.pg = false) (hdis : s.pwr.pwrdis = false) :
    powerUp env s = beginStart true env (if env.aux then poweredUp env s else auxMissing (poweredUp env s)) := by
  unfold powerUp
  rw [hpg, hdis]
  rfl

/-- What POWER_GOOD shows before the start begins. -/
def ShowsPower (s u : State) : Prop :=
  u.pwr.pg = true ∧ u.pwr.main = true ∧ u.pwr.perst = true ∧ u.alm.powerCycle = (s.alm.powerCycle + 1) % 2 ^ 32 ∧ u.tok.latchClosed = true ∧
    u.tok.present = u.tok.socket.isSome ∧ u.sc = s.sc ∧ u.clk = s.clk

theorem poweredUp_shows {env : BootEnv} {s : State} (haux : s.pwr.auxPowered = true) : ShowsPower s (poweredUp env s) := by
  have hfirst : auxFirst { s with pwr := { s.pwr with main := true, aux := env.aux } } = { s with pwr := { s.pwr with main := true, aux := env.aux } } := if_pos haux
  unfold poweredUp
  rw [hfirst]
  exact ⟨rfl, rfl, rfl, rfl, rfl, rfl, rfl, rfl⟩

theorem auxMissing_frame (s : State) : auxMissing s = { s with pwr := { s.pwr with aux := (auxMissing s).pwr.aux, auxNoted := (auxMissing s).pwr.auxNoted }, alm := (auxMissing s).alm } := by
  unfold auxMissing
  split
  · rfl
  · dsimp only
    split
    · rfl
    · rw [raiseEvent_frame]

theorem auxMissing_powerCycle (s : State) : (auxMissing s).alm.powerCycle = s.alm.powerCycle := by
  unfold auxMissing
  split
  · rfl
  · dsimp only
    split
    · rfl
    · rw [raiseEvent_alm_powerCycle]

theorem ShowsPower.auxMissing {s u : State} (h : ShowsPower s u) : ShowsPower s (Machine.auxMissing u) := by
  unfold ShowsPower at *
  rw [auxMissing_powerCycle, auxMissing_frame]
  exact h

theorem powerGood_does {env : BootEnv} {s : State} (hpg : s.pwr.pg = false) (hdis : s.pwr.pwrdis = false) (haux : s.pwr.auxPowered = true) :
    ∃ u, exec (.powerGood env) s = .next (beginStart true env u) ∧ ShowsPower s u := by
  refine ⟨_, (exec_powerGood env s).trans (congrArg _ (powerUp_acts hpg hdis)), ?_⟩
  split
  · exact poweredUp_shows haux
  · exact (poweredUp_shows haux).auxMissing

/-! ### The loss of power, and PERST# -/

theorem closeWindow_frame (w : CoalWin) (s : State) : closeWindow w s = { s with alm := (closeWindow w s).alm } := by
  unfold closeWindow
  dsimp only
  split
  · rw [bufferRecord_frame]
  · rfl

theorem closeWindows_frame (s : State) : closeWindows s = { s with alm := (closeWindows s).alm } := by
  unfold closeWindows
  generalize s.alm.windows = l
  induction l generalizing s with
  | nil => rfl
  | cons w l ih =>
    rw [List.foldl_cons, ih (closeWindow w s), closeWindow_frame]

theorem volatileReset_keeps (s : State) : (volatileReset s).sc = keepFuses s.sc ∧ (volatileReset s).out = s.out ∧ (volatileReset s).pwr = s.pwr := by
  unfold volatileReset
  dsimp only
  rw [closeWindows_frame]
  exact ⟨rfl, rfl, rfl⟩

/-- Nothing of a service is left: no queue, job, slot, context or unit record, no key but the fuses'. -/
def NoService (s t : State) : Prop :=
  t.jobs = [] ∧ t.sqs = [] ∧ t.cqs = [] ∧ t.slots = [] ∧ t.ctxs = [] ∧ t.units = [] ∧ t.sc = keepFuses s.sc ∧ t.out = s.out

theorem volatileReset_noService (s : State) : NoService s (volatileReset s) := by
  obtain ⟨hsc, hout, _⟩ := volatileReset_keeps s
  exact ⟨rfl, rfl, rfl, rfl, rfl, rfl, hsc, hout⟩

theorem NoService.auxGone {s t : State} (h : NoService s t) : NoService s (Machine.auxGone t) := by
  unfold Machine.auxGone
  split
  · exact h
  · exact h

/-- The state at the loss of power-good, but for its levels. -/
theorem pgOff_acts {s : State} (hpg : s.pwr.pg = true) : NoService s (pgOff s) ∧ (pgOff s).pwr.pg = false ∧ (pgOff s).pwr.perst = true ∧
    (pgOff s).pwr.main = s.pwr.main := by
  have hmain : (volatileReset s).pwr.main = s.pwr.main := by rw [(volatileReset_keeps s).2.2]
  unfold pgOff
  rw [hpg]
  exact ⟨volatileReset_noService s, rfl, rfl, hmain⟩

theorem pgOff_idle {s : State} (hpg : s.pwr.pg = false) : pgOff s = s := by
  unfold pgOff
  rw [hpg]
  rfl

theorem auxGone_pwr (s : State) : (auxGone s).pwr.pg = s.pwr.pg ∧ (auxGone s).pwr.perst = s.pwr.perst ∧ (auxGone s).pwr.main = s.pwr.main := by
  unfold auxGone
  split <;> exact ⟨rfl, rfl, rfl⟩

theorem powerLoss_does {s : State} (hpg : s.pwr.pg = true) : NoService s (powerLoss s) ∧ (powerLoss s).pwr.pg = false ∧ (powerLoss s).pwr.perst = true ∧
    (powerLoss s).pwr.main = false := by
  obtain ⟨hgone, hoff, hperst, _⟩ := pgOff_acts hpg
  obtain ⟨kpg, kperst, kmain⟩ := auxGone_pwr { pgOff s with pwr := { (pgOff s).pwr with main := false } }
  exact ⟨NoService.auxGone hgone, kpg.trans hoff, kperst.trans hperst, kmain⟩

theorem pwrdisOn_does {s : State} (hpg : s.pwr.pg = true) : NoService s (pwrdisOn s) ∧ (pwrdisOn s).pwr.pg = false ∧ (pwrdisOn s).pwr.perst = true ∧
    (pwrdisOn s).pwr.pwrdis = true ∧ (pwrdisOn s).pwr.main = s.pwr.main := by
  obtain ⟨hgone, hoff, hperst, hmain⟩ := pgOff_acts hpg
  exact ⟨hgone, hoff, hperst, rfl, hmain⟩

/-- Settles O1: POWER_GOOD up to the start it begins, the losses by what a volatile reset leaves. -/
theorem mainPowerComesAndGoes : Obligations.MainPowerComesAndGoes := by
  refine ⟨⟨fun env s hpg hdis haux => powerGood_does hpg hdis haux, fun env s h => ?_⟩, fun c s hc hpg => ?_, fun s hpg => ?_, fun s => rfl⟩
  · rw [exec_powerGood, powerUp_idle h]
  · rcases hc with rfl | rfl
    · obtain ⟨⟨hjobs, hsqs, hcqs, hslots, hctxs, hunits, hsc, hout⟩, hoff, hperst, hmain⟩ := powerLoss_does hpg
      exact ⟨_, exec_powerLoss s, hoff, hperst, hjobs, hsqs, hcqs, hslots, hctxs, hunits, by rw [hsc]; rfl, by rw [hsc]; rfl, by rw [hsc]; rfl, by rw [hsc]; rfl,
        by rw [hsc]; rfl, by rw [hsc]; rfl, hout, fun _ => hmain, (nomatch ·)⟩
    · obtain ⟨⟨hjobs, hsqs, hcqs, hslots, hctxs, hunits, hsc, hout⟩, hoff, hperst, hdis, hmain⟩ := pwrdisOn_does hpg
      exact ⟨_, exec_pwrdisAssert s, hoff, hperst, hjobs, hsqs, hcqs, hslots, hctxs, hunits, by rw [hsc]; rfl, by rw [hsc]; rfl, by rw [hsc]; rfl, by rw [hsc]; rfl,
        by rw [hsc]; rfl, by rw [hsc]; rfl, hout, (nomatch ·), fun _ => ⟨hdis, hmain⟩⟩
  · rw [exec_pwrdisAssert, pwrdisOn, pgOff_idle hpg]

/-! ### PERST# and the start -/

theorem perstOn_does {s : State} (hpg : s.pwr.pg = true) (hperst : s.pwr.perst = false) :
    NoService s (perstOn s) ∧ (perstOn s).pwr = { s.pwr with perst := true } := by
  have hpwr := (volatileReset_keeps s).2.2
  unfold perstOn
  rw [hpg, hperst]
  exact ⟨volatileReset_noService s, congrArg (fun p => { p with perst := true }) hpwr⟩

theorem perstOff_first {env : BootEnv} {s : State} (hpg : s.pwr.pg = true) (hperst : s.pwr.perst = true) (hseen : s.pwr.perstSeen = false) :
    perstOff env s = { s with pwr := { s.pwr with perst := false, perstSeen := true } } := by
  unfold perstOff
  rw [hpg, hperst, hseen]
  rfl

theorem perstOff_later {env : BootEnv} {s : State} (hpg : s.pwr.pg = true) (hperst : s.pwr.perst = true) (hseen : s.pwr.perstSeen = true) :
    perstOff env s = beginStart false env { s with pwr := { s.pwr with perst := false } } := by
  unfold perstOff
  rw [if_neg (by rw [hpg, hperst]; decide), if_neg (by rw [hseen]; decide)]

theorem retryToken_late {hs : Handshake} {s : State} (hwait : s.boot.waiting = true) (hhold : s.boot.hold = false)
    (h : s.boot.retryAt + retryDelay s.boot.attempt ≤ s.clk) :
    retryToken hs s = bootFrom 15 { s with boot := { s.boot with waiting := false, env := { s.boot.env with hs := hs } } } := by
  unfold retryToken
  rw [if_pos (by rw [hwait, hhold, decide_eq_true h]; rfl)]

theorem retryToken_early {hs : Handshake} {s : State} (h : s.clk < s.boot.retryAt + retryDelay s.boot.attempt) : retryToken hs s = s := by
  unfold retryToken
  rw [decide_eq_false (Nat.not_le.2 h), Bool.and_false]
  rfl

theorem resumeStart_clear {s : State} (hhold : s.boot.hold = true) (hconds : s.tam.conds = []) :
    resumeStart s = bootFrom 15 { s with boot := { s.boot with hold := false } } := by
  unfold resumeStart
  rw [if_pos (by rw [hhold, hconds]; rfl)]

/-- Settles O2: an assertion leaves a volatile reset, a deassertion or a retry its start. -/
theorem perstAndStartUp : Obligations.PerstAndStartUp := by
  refine ⟨⟨fun env s hpg hperst hseen => ?_, fun s hpg hperst => ⟨_, exec_perstAssert s, ?_⟩, fun env s hpg hperst hseen => ?_, fun s hperst => ?_⟩,
    fun hs s hwait hhold h => ?_, fun hs s h => ?_, fun s hhold hconds => ?_⟩
  · rw [exec_perstDeassert, perstOff_first hpg hperst hseen]
  · obtain ⟨⟨hjobs, hsqs, hcqs, hslots, hctxs, _, hsc, hout⟩, hpwr⟩ := perstOn_does hpg hperst
    exact ⟨by rw [hpwr], by rw [hpwr], hjobs, hsqs, hcqs, hslots, hctxs, by rw [hsc]; rfl, by rw [hsc]; rfl, by rw [hsc]; rfl, by rw [hsc]; rfl, hout⟩
  · rw [exec_perstDeassert, perstOff_later hpg hperst hseen]
  · rw [exec_perstAssert, perstOn, hperst, Bool.or_true]
    rfl
  · rw [exec_tokenSessionRetry, retryToken_late hwait hhold h]
  · rw [exec_tokenSessionRetry, retryToken_early h]
  · rw [exec_startupHoldResume, resumeStart_clear hhold hconds]

/-! ### The rails -/

theorem pgDip_acts {mv ns : Nat} {s : State} (hpg : s.pwr.pg = true) (hlow : mv < 11040) (hshort : 10800 ≤ mv ∨ ns ≤ 20000) :
    pgDip mv ns s = if mv < 10000 && ns ≥ 50 then tamperAlarm 1 0 mv (raiseEvent 0x0101 0xFF00 (leBytes 4 mv) s) else raiseEvent 0x0101 0xFF00 (leBytes 4 mv) s := by
  unfold pgDip
  exact if_neg (by simp [hpg, hlow]; omega)

theorem auxMissing_noted {s : State} (hmain : s.pwr.main = true) (h : s.pwr.auxNoted = true) : auxMissing s = { s with pwr := { s.pwr with aux := false } } := by
  unfold auxMissing
  rw [hmain]
  exact if_pos h

theorem auxMissing_first {s : State} (hmain : s.pwr.main = true) (h : s.pwr.auxNoted = false) :
    auxMissing s = raiseEvent 0x0102 0xFF00 [] { s with pwr := { s.pwr with aux := false, auxNoted := true } } := by
  unfold auxMissing
  rw [hmain]
  exact if_neg (ne_true_of_eq_false h)

theorem auxOff_acts {s : State} (hpg : s.pwr.pg = false) (hmain : s.pwr.main = false) :
    auxOff s = { s with pwr := { s.pwr with aux := false, auxPowered := false, auxLost := true }, alm := { s.alm with windows := [] } } := by
  unfold auxOff auxGone
  rw [if_neg (ne_true_of_eq_false hpg)]
  exact if_neg (by rw [Bool.false_or]; exact ne_true_of_eq_false hmain)

theorem auxOn_powered {s : State} (h : s.pwr.auxPowered = true) : auxOn s = { s with pwr := { s.pwr with aux := true } } := if_pos h

/-- The auxiliary domain at its reset values. -/
theorem auxOn_first {s : State} (h : s.pwr.auxPowered = false) : auxOn s =
    { s with pwr := { s.pwr with aux := true, auxPowered := true, healthAt := none }, flt := { degraded := s.flt.degraded },
             tam := { quarantine := s.tam.quarantine, qCause := s.tam.qCause, destroyPending := s.tam.destroyPending, sleepLatch := s.tam.sleepLatch },
             alm := { s.alm with staging := [], lostCount := 0, powerCycle := s.alm.copyCycle, hours := s.alm.copyHours, hourNs := 0, offNs := 0 } } :=
  if_neg (ne_true_of_eq_false h)

/-- Settles O3: each row by whether main power and the auxiliary domain stand. -/
theorem dipsAndAuxiliaryRail : Obligations.DipsAndAuxiliaryRail := by
  refine ⟨⟨fun mv ns s hpg hlow hshort hmild => ?_, fun mv ns s hpg hdeep hlong hshort => ?_⟩, fun s hmain h => ?_, fun s hmain h => ?_, fun s hpg hmain => ?_,
    fun s h => ⟨_, exec_auxiliaryPowerOn s, ?_⟩, fun s h => ?_⟩
  · rw [exec_pgDip, pgDip_acts hpg hlow hshort, if_neg]
    simp only [Bool.and_eq_true, decide_eq_true_eq]
    omega
  · rw [exec_pgDip, pgDip_acts hpg (by omega) (.inr hshort), if_pos]
    simp only [Bool.and_eq_true, decide_eq_true_eq]
    exact ⟨hdeep, hlong⟩
  · rw [exec_auxAbsent, auxMissing_first hmain h]
  · rw [exec_auxAbsent, auxMissing_noted hmain h]
  · rw [exec_auxiliaryPowerLoss, auxOff_acts hpg hmain]
  · rw [auxOn_first h]
    exact ⟨rfl, rfl, rfl, rfl, rfl, rfl, rfl, rfl, rfl⟩
  · rw [exec_auxiliaryPowerOn, auxOn_powered h]

/-! ### Supervision -/

theorem thermalWarn_first {c : Int} {s : State} (hpg : s.pwr.pg = true) (hc : 100 ≤ c) (h : s.pwr.thermWarn = false) :
    thermalWarn c s = raiseEvent 0x0106 0xFF00 [byteOf (c % 256).toNat] { s with pwr := { s.pwr with thermWarn := true } } := by
  unfold thermalWarn
  rw [if_neg (by simp [hpg, hc, h])]

theorem thermalWarn_again {c : Int} {s : State} (h : s.pwr.thermWarn = true) : thermalWarn c s = s := by
  unfold thermalWarn
  rw [if_pos (by simp [h])]

theorem jobsActive_iff (s : State) : jobsActive s = true ↔ ∃ j ∈ s.jobs, j.dispatched = true := List.any_eq_true

theorem activityOff_due {s : State} (hon : s.pwr.activity = true) (hidle : ∀ j ∈ s.jobs, j.dispatched = false) (h : s.pwr.activityAt + 20000000 ≤ s.clk) :
    activityOff s = { s with pwr := { s.pwr with activity := false } } := by
  have hnone : jobsActive s = false := List.any_eq_false.2 fun j hj => ne_true_of_eq_false (hidle j hj)
  unfold activityOff
  rw [if_pos (by rw [hon, hnone, decide_eq_true h]; rfl)]

theorem activityOff_not {s : State} (h : (∃ j ∈ s.jobs, j.dispatched = true) ∨ s.clk < s.pwr.activityAt + 20000000) : activityOff s = s := by
  unfold activityOff
  rcases h with h | h
  · rw [(jobsActive_iff s).2 h, Bool.not_true, Bool.and_false, Bool.false_and]
    rfl
  · rw [decide_eq_false (Nat.not_le.2 h), Bool.and_false]
    rfl

section
variable {live : Byte} {s : State} (hbar : barOpen s .pf0 = true) (hreset : (s.fnOf .pf0).resetting = false)
include hbar hreset

theorem strapsRead_eq : strapsRead live s = if live != s.pwr.straps && !s.pwr.strapNoted then
    raiseEvent 0x0104 0xFF00 [s.pwr.straps, live]
      { s with pwr := { s.pwr with live := live, strapNoted := true }, out := s.out ++ [.readValue (live.toNat * 256 + s.pwr.straps.toNat)] }
    else { s with pwr := { s.pwr with live := live }, out := s.out ++ [.readValue (live.toNat * 256 + s.pwr.straps.toNat)] } := by
  unfold strapsRead
  rw [answerRead_open hbar hreset, hbar, hreset]
  rfl

theorem strapsRead_quiet (h : live = s.pwr.straps ∨ s.pwr.strapNoted = true) :
    strapsRead live s = { s with pwr := { s.pwr with live := live }, out := s.out ++ [.readValue (live.toNat * 256 + s.pwr.straps.toNat)] } := by
  rw [strapsRead_eq hbar hreset, if_neg]
  rcases h with h | h <;> simp [h]

theorem strapsRead_noted (hdiff : live ≠ s.pwr.straps) (h : s.pwr.strapNoted = false) : strapsRead live s =
    raiseEvent 0x0104 0xFF00 [s.pwr.straps, live]
      { s with pwr := { s.pwr with live := live, strapNoted := true }, out := s.out ++ [.readValue (live.toNat * 256 + s.pwr.straps.toNat)] } := by
  rw [strapsRead_eq hbar hreset, if_pos (by simp [hdiff, h])]

end

/-- The latch is open, and the token counts as removed. -/
def latchOpened (s : State) : State := { s with tok := { s.tok with latchClosed := false, present := false } }

theorem latchForced_acts {s : State} (hpg : s.pwr.pg = true) (hlatch : s.tok.latchClosed = true) : latchForced s = raiseEvent 0x0107 0x0C00 [] (endSession (latchOpened s)) := by
  unfold latchForced
  rw [hpg, hlatch]
  rfl

theorem latchOpened_ends (s : State) : (endSession (latchOpened s)).tok.present = false ∧ (endSession (latchOpened s)).tok.latchClosed = false ∧
    (endSession (latchOpened s)).tok.socket.isSome = s.tok.socket.isSome ∧
    (anySession s = true → (endSession (latchOpened s)).tok.session = .ended ∧ (endSession (latchOpened s)).tok.keysLoaded = false ∧ (endSession (latchOpened s)).sc.heldAuth = []) := by
  cases h : anySession s with
  | false =>
    rw [endSession_none (s := latchOpened s) h]
    exact ⟨rfl, rfl, rfl, (nomatch ·)⟩
  | true =>
    obtain ⟨htok, hsc⟩ := endSession_tok (s := latchOpened s) h
    rw [htok, hsc]
    exact ⟨rfl, rfl, Option.isSome_map, fun _ => ⟨rfl, rfl, rfl⟩⟩

/-- Settles O4: the warning, the activity signal, the straps and the latch, each by its condition. -/
theorem supervisionRows : Obligations.SupervisionRows := by
  refine ⟨⟨fun c s hpg hc h => ?_, fun c s h => ?_, fun s => rfl, fun s hon hidle h => ?_, fun s h => ?_⟩, fun live s hbar hreset => ⟨fun h => ?_, fun hdiff h => ?_⟩,
    fun s hpg hlatch => ⟨endSession (latchOpened s), (exec_latchOpen s).trans (congrArg _ (latchForced_acts hpg hlatch)), ?_⟩⟩
  · rw [exec_thermalWarn, thermalWarn_first hpg hc h]
  · rw [exec_thermalWarn, thermalWarn_again h]
  · rw [exec_activityStretchEnd, activityOff_due hon hidle h]
  · rw [exec_activityStretchEnd, activityOff_not h]
  · rw [exec_strapsRead, strapsRead_quiet hbar hreset h]
  · rw [exec_strapsRead, strapsRead_noted hbar hreset hdiff h]
  · obtain ⟨hpresent, hclosed, hsocket, hsession⟩ := latchOpened_ends s
    have hframe := endSession_frame (latchOpened s)
    exact ⟨hpresent, hclosed, hsocket, by rw [hframe]; rfl, by rw [hframe]; rfl, by rw [hframe]; rfl, hsession⟩

/-! ### SMBus -/

theorem smbusOffset_powered {s : State} (h : s.pwr.auxPowered = true) (addr : Nat) (off : Byte) : smbusOffset addr off s =
    if addr == 0x53 then { s with pwr := { s.pwr with smbOffFru := off.toNat } }
    else if addr == 0x3A then { s with pwr := { s.pwr with smbOffHealth := off.toNat % 32 } } else s := by
  unfold smbusOffset
  rw [h]
  rfl

/-- Without the PEC clocked, a read answers its data alone. -/
theorem smbusAnswer_noPec (addr : Nat) (data : Bytes) (s : State) : smbusAnswer addr data false s = { s with out := s.out ++ [.smbus data] } := by
  unfold smbusAnswer
  rw [if_neg Bool.false_ne_true, List.append_nil]
  rfl

theorem fruRead_powered {s : State} (h : s.pwr.auxPowered = true) (n : Nat) : fruRead n false s =
    { s with pwr := { s.pwr with smbOffFru := (s.pwr.smbOffFru + n) % 512 }, out := s.out ++ [.smbus (wrapRead 512 (fruAt s.part) s.pwr.smbOffFru n)] } := by
  unfold fruRead
  simp only [h, smbusAnswer_noPec]
  rfl

theorem healthRead_powered {s : State} (h : s.pwr.auxPowered = true) (n : Nat) : healthRead n false s =
    { s with pwr := { s.pwr with smbOffHealth := (s.pwr.smbOffHealth + n) % 32 },
             out := s.out ++ [.smbus (wrapRead 32 (fun i => s.pwr.health.getD i 0) s.pwr.smbOffHealth n)] } := by
  unfold healthRead
  simp only [h, smbusAnswer_noPec]
  rfl

theorem healthSnap_due {s : State} (h : s.pwr.auxPowered = true) (hpg : s.pwr.pg = true) (hdue : healthDue s = true) (tj tb : Int) (p12 : Nat) :
    healthSnap tj tb p12 s = { s with pwr := { s.pwr with healthAt := some s.clk, health := healthBytes tj tb p12 s } } := by
  unfold healthSnap
  rw [h, hdue, hpg]
  rfl

theorem healthSnap_notDue {s : State} (hdue : healthDue s = false) (tj tb : Int) (p12 : Nat) : healthSnap tj tb p12 s = s :=
  if_pos (by rw [hdue, Bool.not_false, Bool.or_true])

/-- Settles O5: the offset that each address sets, the wrap of a read, and the snapshot by its period. -/
theorem smbusRows : Obligations.SmbusRows := by
  refine ⟨fun addr off s h => ⟨?_, ?_, fun hfru hhealth => ?_⟩, fun n s h => ?_, fun n s h => ?_, fun tj tb p12 s h hpg => ⟨fun hdue => ?_, fun hdue => ?_⟩⟩
  · rw [exec_smbusOffsetWrite, smbusOffset_powered h]
    rfl
  · rw [exec_smbusOffsetWrite, smbusOffset_powered h]
    rfl
  · rw [exec_smbusOffsetWrite, smbusOffset_powered h, if_neg (by simpa using hfru), if_neg (by simpa using hhealth)]
  · rw [exec_smbusFruRead, fruRead_powered h]
    rfl
  · rw [exec_smbusHealthRead, healthRead_powered h]
    rfl
  · rw [exec_healthSnapshot, healthSnap_due h hpg hdue]
  · rw [exec_healthSnapshot, healthSnap_notDue hdue]

end Sys2Proof.Machine

/-!
PROOFS. The digest port of a function page (spec/15, R389 to R392) and the mailboxes (spec/17, R433 to R435): what each write makes of the port and of the
window, by the port's condition.
-/
namespace Sys2Proof.Machine
set_option Elab.async false -- as in Laws: the one text has more theorems than threads

/-! ### The port of a page -/

theorem exec_ddpStart (f : Fn) (alg : Nat) (s : State) : exec (.ddpStart f alg) s = .next (ddpStart f alg s) := rfl
theorem exec_ddpRelease (f : Fn) (s : State) : exec (.ddpRelease f) s = .next (ddpRelease f s) := rfl
theorem exec_ddpData (f : Fn) (w : RegAccess) (s : State) : exec (.ddpData f w) s = .next (ddpDataWrite f w s) := rfl
theorem exec_ddpLastWord (f : Fn) (w : RegAccess) (s : State) : exec (.ddpLastWord f w) s = .next (ddpLastWordWrite f w s) := rfl
theorem exec_ddpLastLength (f : Fn) (v : Word) (s : State) : exec (.ddpLastLength f v) s = .next (ddpLengthWrite f v.toNat s) := rfl
theorem exec_ddpDone (f : Fn) (mismatch : Bool) (s : State) : exec (.ddpDone f mismatch) s = .next (ddpFinish f mismatch s) := rfl

theorem fnOf_onDdp {f : Fn} {x : FnState} {s : State} (hf : s.fn? f = some x) (g : FnDdp → FnDdp) : ((onDdp f g s).fnOf f).ddp = g x.ddp :=
  congrArg FnState.ddp (fnOf_onFn (g := fun y => { y with ddp := g y.ddp }) hf)

theorem fnOf_of_fns {s t : State} (h : t.fns = s.fns) (f : Fn) : t.fnOf f = s.fnOf f := by
  unfold State.fnOf State.fn?
  rw [h]

/-- A mismatch that is noted with its fault leaves the pages. -/
theorem fnOf_mismatch (bit kind source : Nat) (payload : Bytes) (f : Fn) (s : State) : (noteMismatch (faultEvent bit kind source payload s)).fnOf f = s.fnOf f :=
  fnOf_of_fns (raiseEvent_fns kind source payload false (setFault bit s)) f

/-! ### START and RELEASE -/

/-- The port as START leaves it, before its key is resolved. -/
def started (alg now : Nat) (d : FnDdp) : FnDdp :=
  { ddpIdle d with alg := alg, runAlg := alg, error := 0, restarted := false, keyed := none, kmac := false, keyLost := false, drainAt := now }

theorem ddpResolve_unoffered {f : Fn} {alg h : Nat} {s : State} (halg : ddpAlgs.contains alg = false) : ddpResolve f alg h s = .error 3 :=
  if_pos (by rw [halg]; rfl)

theorem ddpResolve_unkeyed {f : Fn} {alg h : Nat} {s : State} (halg : ddpAlgs.contains alg = true) (hkmac : alg ≠ 0x0F) (hkey : hType h = 0) :
    ddpResolve f alg h s = .unkeyed := by
  unfold ddpResolve
  rw [halg, hkey, if_neg (c := (alg == 0x0F) = true) (by simp [hkmac])]
  rfl

/-- A START on a page that answers, by what its key resolves to. -/
theorem ddpStart_open {f : Fn} {alg : Nat} {s : State} (hopen : pageOpen s f = true) : ddpStart f alg s =
    match ddpResolve f alg (s.fnOf f).ddp.key s with
    | .error c => onDdp f (fun d => { started alg s.clk d with error := c }) s
    | .unkeyed => onDdp f (fun d => { started alg s.clk d with busy := true }) s
    | .keyed i g m k => onDdp f (fun d => { started alg s.clk d with busy := true, keyed := some (i, g, m), kmac := k }) s := by
  unfold ddpStart
  rw [hopen]
  rfl

section
variable {f : Fn} {x : FnState} {s : State} (hf : s.fn? f = some x) (hopen : pageOpen s f = true)
include hf hopen

theorem start_does (alg : Nat) :
    (ddpAlgs.contains alg = false → Does (.ddpStart f alg) s (fun t => (t.fnOf f).ddp.error = 3 ∧ (t.fnOf f).ddp.busy = false)) ∧
    (ddpAlgs.contains alg = true → alg ≠ 0x0F → hType x.ddp.key = 0 → Does (.ddpStart f alg) s (fun t => (t.fnOf f).ddp.error = 0 ∧ (t.fnOf f).ddp.busy = true ∧
      (t.fnOf f).ddp.done = false ∧ (t.fnOf f).ddp.msg = [] ∧ (t.fnOf f).ddp.runAlg = alg ∧ (t.fnOf f).ddp.keyed = none)) := by
  refine ⟨fun h => ⟨_, exec_ddpStart f alg s, ?_⟩, fun h halg hkey => ⟨_, exec_ddpStart f alg s, ?_⟩⟩
  · rw [ddpStart_open hopen, ddpResolve_unoffered h]
    dsimp only
    rw [fnOf_onDdp hf]
    exact ⟨rfl, rfl⟩
  · rw [ddpStart_open hopen, fnOf_eq hf, ddpResolve_unkeyed h halg hkey]
    dsimp only
    rw [fnOf_onDdp hf]
    exact ⟨rfl, rfl, rfl, rfl, rfl, rfl⟩

theorem release_does : Does (.ddpRelease f) s (fun t => (t.fnOf f).ddp.busy = false ∧ (t.fnOf f).ddp.done = false ∧ (t.fnOf f).ddp.digest = [] ∧ (t.fnOf f).ddp.keyed = none) := by
  refine ⟨_, (exec_ddpRelease f s).trans (congrArg _ (if_pos hopen)), ?_⟩
  dsimp only
  rw [fnOf_onDdp hf]
  exact ⟨rfl, rfl, rfl, rfl⟩

end

/-! ### The words of a message -/

theorem ddpDrain_buffered_le (now : Nat) (d : FnDdp) : (ddpDrain now d).buffered ≤ d.buffered := Nat.sub_le _ _

theorem ddpDrain_now (d : FnDdp) : (ddpDrain d.drainAt d).buffered = d.buffered := by
  show d.buffered - (d.drainAt - d.drainAt) / 5 = d.buffered
  rw [Nat.sub_self, Nat.zero_div, Nat.sub_zero]

/-- A port that takes the words of a message: busy, with no error and no digest due. -/
def Taking (d : FnDdp) : Prop := d.error = 0 ∧ d.busy = true ∧ d.done = false ∧ d.ending = false

section
variable {d : FnDdp} {now : Nat} {word : Bytes}

theorem ddpShut_taking (h : Taking d) : ddpShut d = false := by
  obtain ⟨herr, hbusy, -, -⟩ := h
  unfold ddpShut
  rw [herr, hbusy]
  rfl

theorem ddpShut_idle (hbusy : d.busy = false) (hdone : d.done = false) : ddpShut d = true := by
  unfold ddpShut
  rw [hbusy, hdone]
  exact Bool.or_true _

theorem ddpWord_taken (h : Taking d) (hroom : d.buffered < 512) :
    ddpWord now word d = { ddpDrain now d with msg := d.msg ++ word, buffered := (ddpDrain now d).buffered + 1 } := by
  have hshut := ddpShut_taking h
  obtain ⟨-, -, hdone, hending⟩ := h
  unfold ddpWord
  rw [hshut, hdone, hending]
  exact if_neg (Nat.not_le.2 (Nat.lt_of_le_of_lt (ddpDrain_buffered_le now d) hroom))

theorem ddpWord_full (h : Taking d) (hfull : 512 ≤ d.buffered) : ddpWord d.drainAt word d = { ddpIdle (ddpDrain d.drainAt d) with error := 1 } := by
  have hshut := ddpShut_taking h
  obtain ⟨-, -, hdone, hending⟩ := h
  unfold ddpWord
  rw [hshut, hdone, hending]
  exact if_pos (Nat.le_trans hfull (Nat.le_of_eq (ddpDrain_now d).symm))

theorem ddpWord_shut (hbusy : d.busy = false) (hdone : d.done = false) : ddpWord now word d = { d with error := 5 } := if_pos (ddpShut_idle hbusy hdone)

theorem ddpLastWord_taken (h : Taking d) (hroom : d.buffered < 512) : ddpLastWord now word d = { ddpDrain now d with lastWord := word } := by
  have hshut := ddpShut_taking h
  obtain ⟨-, -, hdone, hending⟩ := h
  unfold ddpLastWord
  rw [hshut, hdone, hending]
  exact if_neg (Nat.not_le.2 (Nat.lt_of_le_of_lt (ddpDrain_buffered_le now d) hroom))

theorem ddpLength_taken (h : Taking d) (v : Nat) : ddpLength now v d = { ddpDrain now d with msg := d.msg ++ lastBytes v d.lastWord, ending := true } := by
  have hshut := ddpShut_taking h
  obtain ⟨-, -, hdone, hending⟩ := h
  unfold ddpLength
  rw [hshut, hdone, hending]
  rfl

end

section
variable {f : Fn} {x : FnState} {s : State} (hf : s.fn? f = some x)
include hf

theorem data_does {w : RegAccess} (hland : ddpLands f 0x810 w s = true) :
    (Taking x.ddp → x.ddp.buffered < 512 →
      Does (.ddpData f w) s (fun t => (t.fnOf f).ddp.msg = x.ddp.msg ++ leBytes 8 w.value ∧ (t.fnOf f).ddp.busy = true ∧ (t.fnOf f).ddp.error = 0)) ∧
    (Taking x.ddp → 512 ≤ x.ddp.buffered → x.ddp.drainAt = s.clk →
      Does (.ddpData f w) s (fun t => (t.fnOf f).ddp.error = 1 ∧ (t.fnOf f).ddp.busy = false)) ∧
    (x.ddp.busy = false → x.ddp.done = false → Does (.ddpData f w) s (fun t => (t.fnOf f).ddp.error = 5)) := by
  have hdo : exec (.ddpData f w) s = .next (onDdp f (ddpWord s.clk (leBytes 8 w.value)) s) := (exec_ddpData f w s).trans (congrArg _ (if_pos hland))
  refine ⟨fun htake hroom => ⟨_, hdo, ?_⟩, fun htake hfull hnow => ⟨_, hdo, ?_⟩, fun hbusy hdone => ⟨_, hdo, ?_⟩⟩ <;> dsimp only <;> rw [fnOf_onDdp hf]
  · rw [ddpWord_taken htake hroom]
    obtain ⟨herr, hbusy, -, -⟩ := htake
    exact ⟨rfl, hbusy, herr⟩
  · rw [← hnow, ddpWord_full htake hfull]
    exact ⟨rfl, rfl⟩
  · rw [ddpWord_shut hbusy hdone]

theorem lastWord_does {w : RegAccess} (hland : ddpLands f 0x818 w s = true) (htake : Taking x.ddp) (hroom : x.ddp.buffered < 512) :
    Does (.ddpLastWord f w) s (fun t => (t.fnOf f).ddp.lastWord = leBytes 8 w.value ∧ (t.fnOf f).ddp.msg = x.ddp.msg) := by
  refine ⟨_, (exec_ddpLastWord f w s).trans (congrArg _ (if_pos hland)), ?_⟩
  dsimp only
  rw [fnOf_onDdp hf, ddpLastWord_taken htake hroom]
  exact ⟨rfl, rfl⟩

theorem lastLength_does (hopen : pageOpen s f = true) (v : Word) (htake : Taking x.ddp) : Does (.ddpLastLength f v) s (fun t =>
    (t.fnOf f).ddp.ending = true ∧ (t.fnOf f).ddp.busy = true ∧ (t.fnOf f).ddp.msg = x.ddp.msg ++ lastBytes v.toNat x.ddp.lastWord) := by
  refine ⟨_, (exec_ddpLastLength f v s).trans (congrArg _ (if_pos hopen)), ?_⟩
  dsimp only
  rw [fnOf_onDdp hf, ddpLength_taken htake]
  obtain ⟨-, hbusy, -, -⟩ := htake
  exact ⟨rfl, hbusy, rfl⟩

/-! ### The end of a computation -/

theorem ddpFinish_agrees (hbusy : x.ddp.busy = true) (hending : x.ddp.ending = true) :
    ddpFinish f false s = onDdp f (fun d => { ddpIdle d with done := true, seq := (d.seq + 1) % 65536, digest := ddpDigest d }) s := by
  unfold ddpFinish
  dsimp only
  rw [fnOf_eq hf, hbusy, hending]
  rfl

theorem ddpFinish_differs (hbusy : x.ddp.busy = true) (hending : x.ddp.ending = true) :
    ddpFinish f true s = noteMismatch (faultEvent 15 0x0603 0x0800 (leBytes 2 0 ++ leBytes 8 0) (onDdp f (fun d => { ddpIdle d with error := 4 }) s)) := by
  unfold ddpFinish
  dsimp only
  rw [fnOf_eq hf, hbusy, hending]
  rfl

theorem done_does (hbusy : x.ddp.busy = true) (hending : x.ddp.ending = true) :
    Does (.ddpDone f false) s (fun t => (t.fnOf f).ddp.done = true ∧ (t.fnOf f).ddp.busy = false ∧ (t.fnOf f).ddp.seq = (x.ddp.seq + 1) % 65536 ∧
      (x.ddp.keyed = none → (t.fnOf f).ddp.digest = hashFixed x.ddp.runAlg x.ddp.msg) ∧ t.jobs = s.jobs ∧ t.slots = s.slots) ∧
    Does (.ddpDone f true) s (fun t => (t.fnOf f).ddp.error = 4 ∧ (t.fnOf f).ddp.digest = [] ∧ (t.fnOf f).ddp.done = false ∧ t.flt.status.getLsbD 15 = true) := by
  refine ⟨⟨_, (exec_ddpDone f false s).trans (congrArg _ (ddpFinish_agrees hf hbusy hending)), ?_⟩, ⟨_, (exec_ddpDone f true s).trans (congrArg _ (ddpFinish_differs hf hbusy hending)), ?_⟩⟩
  · dsimp only
    rw [fnOf_onDdp hf]
    refine ⟨rfl, rfl, rfl, fun hkey => ?_, rfl, rfl⟩
    show ddpDigest x.ddp = _
    unfold ddpDigest
    rw [hkey]
  · dsimp only
    rw [fnOf_mismatch, fnOf_onDdp hf]
    refine ⟨rfl, rfl, rfl, ?_⟩
    show (faultEvent 15 0x0603 0x0800 _ _).flt.status.getLsbD 15 = true
    unfold faultEvent
    rw [raiseEvent_flt]
    exact setFault_bit (by decide) _

end

/-- Settles O50: each write by the port's condition, a message's words taken while the port is busy, without an error and without a digest due. -/
theorem digestPortHashesItsWords : Obligations.DigestPortHashesItsWords := by
  intro f x s hf hopen
  refine ⟨start_does hf hopen, fun w hland => ?_, fun w hland herr hbusy hdone hending => lastWord_does hf hland ⟨herr, hbusy, hdone, hending⟩,
    fun v herr hbusy hdone hending => lastLength_does hf hopen v ⟨herr, hbusy, hdone, hending⟩, done_does hf, release_does hf hopen⟩
  obtain ⟨htaken, hfull, hshut⟩ := data_does hf hland
  exact ⟨fun herr hbusy hdone hending => htaken ⟨herr, hbusy, hdone, hending⟩, fun herr hbusy hdone hending => hfull ⟨herr, hbusy, hdone, hending⟩, hshut⟩

/-! ### The mailboxes -/

theorem exec_outSend (f : Fn) (s : State) : exec (.outSend f) s = .next (mbxOutSend f s) := rfl
theorem exec_inAck (f : Fn) (s : State) : exec (.inAck f) s = .next (mbxInAck f s) := rfl
theorem exec_inSend (s : State) : exec .inSend s = .next (mbxInSend s) := rfl
theorem exec_outAck (s : State) : exec .outAck s = .next (mbxOutAck s) := rfl
theorem exec_mailboxDataWrite (w : RegAccess) (s : State) : exec (.mailboxDataWrite w) s = .next (mailboxWrite w s) := rfl

/-- The rule of a manager's vector that stays disabled. -/
theorem signalManager_disabled {s : State} (h : s.mgr.enable = false) : signalManager s = s := if_neg (ne_true_of_eq_false h)

theorem fnOf_onMbx {f : Fn} {x : FnState} {s : State} (hf : s.fn? f = some x) (g : FnMbx → FnMbx) : ((onMbx f g s).fnOf f).mbx = g x.mbx :=
  congrArg FnState.mbx (fnOf_onFn (g := fun y => { y with mbx := g y.mbx }) hf)

section
variable {f : Fn} {x : FnState} {s : State} (hf : s.fn? f = some x) (hhas : hasMailbox f = true) (hopen : pageOpen s f = true)
include hf hhas hopen

theorem mbxOutSend_eq : mbxOutSend f s = if x.mbx.outPend then onMbx f (fun m => { m with overrun := true }) s
    else signalManager (onMbx f (fun m => { m with outPend := true, outSent := m.outLen }) s) := by
  unfold mbxOutSend
  rw [hhas, hopen, fnOf_eq hf]
  rfl

theorem mbxInAck_eq : mbxInAck f s = if x.mbx.inPend then signalManager (onMbx f (fun m => { m with inPend := false }) s) else s := by
  unfold mbxInAck
  rw [hhas, hopen, fnOf_eq hf]
  cases x.mbx.inPend <;> rfl

theorem instance_does (hoff : s.mgr.enable = false) :
    (x.mbx.outPend = false → exec (.outSend f) s = .next (onMbx f (fun m => { m with outPend := true, outSent := m.outLen }) s)) ∧
    (x.mbx.outPend = true → exec (.outSend f) s = .next (onMbx f (fun m => { m with overrun := true }) s)) ∧
    (x.mbx.inPend = true → exec (.inAck f) s = .next (onMbx f (fun m => { m with inPend := false }) s)) ∧
    (x.mbx.inPend = false → exec (.inAck f) s = .next s) := by
  rw [exec_outSend, exec_inAck, mbxOutSend_eq hf hhas hopen, mbxInAck_eq hf hhas hopen, signalManager_disabled (s := onMbx _ _ _) hoff, signalManager_disabled (s := onMbx _ _ _) hoff]
  exact ⟨fun h => by rw [h]; rfl, fun h => by rw [h]; rfl, fun h => by rw [h]; rfl, fun h => by rw [h]; rfl⟩

/-- A word into MBX_OUT of a page that answers. -/
theorem mailboxWrite_page {w : RegAccess} {o : Nat} (hwidth : w.width = 32) (halign : w.off % 4 = 0) (hide : ideDiscards s w = false)
    (hpage : pageAt s w.target w.off = some (f, o)) (hlo : 0x500 ≤ o) (hhi : o < 0x600) : mailboxWrite w s =
    if x.mbx.outPend then onMbx f (fun m => { m with overrun := true }) s
    else onMbx f (fun m => { m with outWin := overwrite m.outWin (o - 0x500) (leBytes 4 w.value) }) s := by
  unfold mailboxWrite
  simp only [hwidth, halign, hide, hpage, hhas, hopen, hlo, hhi, fnOf_eq hf]
  rfl

end

/-- A disabled vector gives no signal; a change of the mailbox that leaves ENABLE leaves it so. -/
theorem signalInstance_disabled {f : Fn} {x : FnState} {s : State} (hf : s.fn? f = some x) (hoff : x.mbx.enable = false) (g : FnMbx → FnMbx)
    (hg : (g x.mbx).enable = x.mbx.enable) : signalInstance f (onMbx f g s) = onMbx f g s :=
  if_neg (by rw [fnOf_onMbx hf, hg, hoff]; exact Bool.false_ne_true)

section
variable {f : Fn} {x : FnState} {s : State} (hf : s.fn? f = some x) (hsel : selected s = some f) (hopen : pageOpen s .pf0 = true) (hoff : x.mbx.enable = false)
include hf hsel hopen hoff

theorem manager_does :
    (x.mbx.inPend = false → exec .inSend s = .next (onMbx f (fun m => { m with inPend := true, inLen := s.mgr.inLen }) s)) ∧
    (x.mbx.inPend = true → exec .inSend s = .next { s with mgr := { s.mgr with overrun := true } }) ∧
    (x.mbx.outPend = true → exec .outAck s = .next (onMbx f (fun m => { m with outPend := false }) s)) ∧
    (x.mbx.outPend = false → exec .outAck s = .next s) := by
  rw [exec_inSend, exec_outAck]
  unfold mbxInSend mbxOutAck
  simp only [hsel, hopen, fnOf_eq hf, signalInstance_disabled hf hoff (fun m => { m with inPend := true, inLen := s.mgr.inLen }) rfl,
    signalInstance_disabled hf hoff (fun m => { m with outPend := false }) rfl]
  exact ⟨fun h => by rw [h]; rfl, fun h => by rw [h]; rfl, fun h => by rw [h]; rfl, fun h => by rw [h]; rfl⟩

end

/-- Settles O51: each command by whether a message is pending, and by the vector that its reader enabled. -/
theorem mailboxMessagesWaitForTheirReader : Obligations.MailboxMessagesWaitForTheirReader := by
  refine ⟨fun f x s hf hhas hopen => instance_does hf hhas hopen, fun f x s hf hsel hopen => manager_does hf hsel hopen, fun f x s hf hhas hopen hon hpend => ?_,
    fun w f x o s hwidth halign hide hpage hlo hhi hf hhas hopen => ?_, fun s hsel => ?_, fun f s hhas => ?_⟩
  · rw [exec_outSend, mbxOutSend_eq hf hhas hopen, hpend]
    exact congrArg _ (if_pos hon)
  · rw [exec_mailboxDataWrite, mailboxWrite_page hf hhas hopen hwidth halign hide hpage hlo hhi]
    exact ⟨fun h => by rw [h]; rfl, fun h => by rw [h]; rfl⟩
  · rw [exec_inSend, exec_outAck]
    unfold mbxInSend mbxOutAck
    rw [hsel]
    exact ⟨rfl, rfl⟩
  · rw [exec_outSend, exec_inAck]
    unfold mbxOutSend mbxInAck
    rw [hhas]
    exact ⟨rfl, rfl⟩

end Sys2Proof.Machine

/-!
PROOFS. The link's training and retraining (spec/03, spec/04, spec/05, R94, R116, R117): the width that part and strap allow, and the records of a change.
-/
namespace Sys2Proof.Machine
set_option Elab.async false -- as in Laws: the one text has more theorems than threads

theorem exec_linkUp (w speed : Nat) (s : State) : exec (.linkUp w speed) s = .next (linkUpAt w speed s) := rfl
theorem exec_linkRetrain (w speed : Nat) (s : State) : exec (.linkRetrain w speed) s = .next (linkRetrained w speed s) := rfl

/-- The strap's width by its two bits. -/
theorem strapLanes_eq (straps : BitVec 8) :
    strapLanes straps = if bitsOf straps.toNat 4 2 = 0 then 16 else if bitsOf straps.toNat 4 2 = 1 then 8 else 4 := by
  unfold strapLanes
  rw [show bitsOf straps.toNat 4 2 = straps.toNat / 16 % 4 from rfl]
  generalize straps.toNat / 16 % 4 = n
  split
  case h_1 => rfl
  case h_2 => rfl
  case h_3 h0 h1 => rw [if_neg h0, if_neg h1]

theorem linkUpAt_acts (w speed : Nat) {s : State} (hpg : s.pwr.pg = true) (hperst : s.pwr.perst = false) (hdown : s.link.up = false) {width : Nat}
    (hwidth : width = min w (min (Config.lanes s.part) (strapLanes s.pwr.straps))) :
    linkUpAt w speed s = { s with link := { s.link with up := true, width := width, speed := speed, full := width } } := by
  rw [hwidth]
  unfold linkUpAt
  rw [hpg, hperst, hdown]
  rfl

theorem linkUpAt_idle (w speed : Nat) {s : State} (h : s.pwr.perst = true ∨ s.link.up = true) : linkUpAt w speed s = s :=
  if_pos (by rcases h with h | h <;> simp [h])

/-! ### A retrain -/

/-- The link at the width and speed that a retrain finds. -/
def retrainedTo (w speed : Nat) (s : State) : State := { s with link := { s.link with width := w, speed := speed } }

/-- A record of the link where its condition holds. -/
def linkRecord (due : Bool) (kind : Nat) (body : Bytes) (s : State) : State := if due then raiseEvent kind 0x0A00 body s else s

theorem linkRecord_frame (due : Bool) (kind : Nat) (body : Bytes) (s : State) : linkRecord due kind body s = { s with alm := (linkRecord due kind body s).alm } := by
  cases due
  · rfl
  · exact raiseEvent_frame kind 0x0A00 body s false

/-- The record of a lower width or speed, then the one of the full width. -/
theorem linkRetrained_up (w speed : Nat) {s : State} (hup : s.link.up = true) {v : Nat} (hv : v = min w s.link.full) : linkRetrained w speed s =
    linkRecord (v == s.link.full && decide (s.link.width < s.link.full)) 0x0109 [byteOf v, byteOf speed]
      (linkRecord (decide (v < s.link.width) || decide (speed < s.link.speed)) 0x0108 [byteOf v, byteOf speed] (retrainedTo v speed s)) := by
  rw [hv]
  unfold linkRetrained
  rw [hup]
  rfl

/-- Settles O9: the width at training, and the two records of a retrain by their conditions. -/
theorem linkComesUpAndRetrains : Obligations.LinkComesUpAndRetrains := by
  refine ⟨fun w speed s => ⟨fun cap width hcap hwidth hpg hperst hdown => ?_, fun h => ?_⟩, fun w speed v s u lower restored hup hv hu hlower hrestored => ?_, rfl⟩
  · rw [exec_linkUp, linkUpAt_acts w speed hpg hperst hdown (hwidth.trans (by rw [strapLanes_eq, hcap]))]
  · rw [exec_linkUp, linkUpAt_idle w speed h]
  · have hlow : (decide (v < s.link.width) || decide (speed < s.link.speed)) = true ↔ lower := by rw [Bool.or_eq_true, decide_eq_true_iff, decide_eq_true_iff, hlower]
    have hback : (v == s.link.full && decide (s.link.width < s.link.full)) = true ↔ restored := by rw [Bool.and_eq_true, beq_iff_eq, decide_eq_true_iff, hrestored]
    have hu' : retrainedTo v speed s = u := hu.symm
    unfold Does
    rw [exec_linkRetrain, linkRetrained_up w speed hup hv, hu', ← hlow, ← hback]
    generalize (decide (v < s.link.width) || decide (speed < s.link.speed)) = low
    generalize (v == s.link.full && decide (s.link.width < s.link.full)) = back
    refine ⟨fun hl hr => ?_, fun hl hr => ?_, fun hl hr => ?_, fun hl hr => ?_, _, rfl, ?_⟩
    · rw [hl, eq_false_of_ne_true hr]
      rfl
    · rw [hr, eq_false_of_ne_true hl]
      rfl
    · rw [hl, hr]
      rfl
    · rw [eq_false_of_ne_true hl, eq_false_of_ne_true hr]
      rfl
    · rw [linkRecord_frame back, linkRecord_frame low]

end Sys2Proof.Machine

/-!
PROOFS. The Meridian unit (spec/02, spec/05, R36 to R45, R133): its registers and limits, a nanosecond that passes, and the rules by which a reference locks
and is lost.
-/
namespace Sys2Proof.Machine
set_option Elab.async false -- as in Laws: the one text has more theorems than threads

theorem exec_transitNowLoRead (wide : Bool) (s : State) : exec (.transitNowLoRead wide) s = .next (transitRead wide s) := rfl
theorem exec_holdoverDriftUpdate (s : State) : exec .holdoverDriftUpdate s = .next (driftUpdate s) := rfl
theorem exec_holdoverExpired (s : State) : exec .holdoverExpired s = .next (holdoverEnd s) := rfl
theorem exec_catchUpEnd (s : State) : exec .catchUpEnd s = .next (catchUpDone s) := rfl
theorem exec_ptmDialog (s : State) : exec .ptmDialog s = .next (ptmDialog s) := rfl
theorem exec_ptmResponse (r : PtmResult) (s : State) : exec (.ptmResponse r) s = .next (ptmResponse r s) := rfl
theorem exec_ptmEnableClear (s : State) : exec .ptmEnableClear s = .next (ptmOff s) := rfl
theorem exec_coaxMarker (m : CoaxMarker) (s : State) : exec (.coaxMarker m) s = .next (coaxMark m s) := rfl
theorem exec_coaxMarkerMissing (s : State) : exec .coaxMarkerMissing s = .next (if onCoax s then markerBad s else s) := rfl
theorem exec_coaxEdgeLoss (s : State) : exec .coaxEdgeLoss s = .next (coaxEdges s) := rfl

/-! ### Registers and limits -/

theorem transitRead_open (wide : Bool) {s : State} (hbar : barOpen s .pf0 = true) (hreset : (s.fnOf .pf0).resetting = false) : transitRead wide s =
    { s with mer := { s.mer with hiLatch := transitNow s / 2 ^ 32 % 2 ^ 32 },
             out := s.out ++ [.readValue (if wide then transitNow s % 2 ^ 64 else transitNow s % 2 ^ 32)] } := by
  unfold transitRead
  dsimp only
  rw [answerRead_open hbar hreset, hbar, hreset]
  rfl

theorem driftUpdate_acts {s : State} (h : s.mer.st = .holdover ∨ s.mer.st = .freeRun) : driftUpdate s = { s with mer := { s.mer with
    drift := satAt 0xFFFFFFFF (s.mer.lossResid + (s.clk - s.mer.lossAt) * 2000 / 1000000000 + (if s.mer.slewing = true then s.mer.slewLeft else 0)) } } :=
  if_pos (by rcases h with h | h <;> rw [h] <;> rfl)

theorem holdoverEnd_due {s : State} (hst : s.mer.st = .holdover) (hlimit : 0 < s.mer.holdoverS) (hpast : s.mer.lossAt + s.mer.holdoverS * 1000000000 ≤ s.clk) :
    holdoverEnd s = raiseEvent 0x0202 0x0B00 (leBytes 4 s.mer.drift) (merMove .freeRun 0 s) :=
  if_pos (by simp [hst, hlimit, hpast])

theorem holdoverEnd_unlimited {s : State} (h : s.mer.holdoverS = 0) : holdoverEnd s = s := if_neg (by simp [h])

theorem catchUpDone_absorbed {s : State} (hslew : s.mer.slewing = true) (hleft : s.mer.slewLeft = 0) :
    catchUpDone s = { s with mer := { s.mer with slewing := false, slewHalf := false } } :=
  if_pos (by rw [hslew, hleft]; rfl)

@[simp] theorem merMove_clk (st : MerSt) (off : Int) (s : State) : (merMove st off s).clk = s.clk := raiseEvent_clk _ _ _ _ _

/-! ### A nanosecond -/

section
variable {m : Meridian}

theorem merTick_free (hrun : m.running = true) (h : m.slewing = false ∨ m.slewLeft = 0) : merTick m = { m with ns := (m.ns + 1) % 2 ^ 64 } := by
  unfold merTick
  rw [hrun, if_neg (c := (m.slewing && decide (m.slewLeft > 0)) = true) (by rcases h with h | h <;> simp [h])]
  rfl

/-- The first half of a nanosecond of catch-up: one of the offset is absorbed, and time stands. -/
theorem merTick_half (hrun : m.running = true) (hslew : m.slewing = true) (hleft : 0 < m.slewLeft) (hhalf : m.slewHalf = false) :
    merTick m = { m with slewHalf := true, slewLeft := m.slewLeft - 1 } := by
  unfold merTick
  rw [hrun, hslew, decide_eq_true hleft, hhalf]
  rfl

/-- After a first half, time rises, whether or not more of the offset is left. -/
theorem merTick_whole (hrun : m.running = true) (hhalf : m.slewHalf = true) : (merTick m).ns = (m.ns + 1) % 2 ^ 64 ∧ (merTick m).slewLeft = m.slewLeft := by
  unfold merTick
  rw [hrun, hhalf]
  cases m.slewing && decide (m.slewLeft > 0) <;> exact ⟨rfl, rfl⟩

end

/-- The instant of a nanosecond is over: the changes of its slots, and the session that an ERASE ends. -/
def settledNow (s : State) : State := settleErase (settleSlots s)

theorem settledNow_frame (s : State) : ∃ t : State, settledNow s = { settleSlots s with fns := t.fns, tok := t.tok, alm := t.alm, out := t.out, dbg := t.dbg, sc := t.sc, tam := t.tam } := by
  refine ⟨settledNow s, ?_⟩
  unfold settledNow settleErase
  split
  · rfl
  · dsimp only
    split
    · rfl
    · rw [endSession_frame]

theorem settledNow_quiet {s : State} (h : s.tam.sessionOver = false) : settledNow s = settleSlots s := if_pos (by rw [show (settleSlots s).tam = s.tam from rfl, h]; rfl)

theorem tick_eq (s : State) : ∃ (k : Option Token) (a : Almanac), tick s =
    { settledNow s with tok := { (settledNow s).tok with socket := k }, clk := (settledNow s).clk + 1, mer := merTick (settledNow s).mer, alm := a } := by
  unfold tick
  rw [show settleErase (settleSlots s) = settledNow s from rfl]
  dsimp only
  split
  · exact ⟨_, _, rfl⟩
  · exact ⟨(settledNow s).tok.socket, _, rfl⟩

/-- What an idle nanosecond makes of the state. -/
theorem tick_does (s : State) : (tick s).clk = s.clk + 1 ∧ (tick s).mer = merTick s.mer ∧ (tick s).pending = s.pending ∧
    (tick s).jobs = s.jobs ∧ (tick s).sqs = s.sqs ∧ (tick s).cqs = s.cqs ∧ (tick s).slots = s.slots.map (fun x => { x with changed := none }) ∧
    (s.tam.sessionOver = false → (tick s).out = s.out ∧ (tick s).sc = s.sc ∧ ∃ k, (tick s).tok = { s.tok with socket := k }) := by
  obtain ⟨k, a, htick⟩ := tick_eq s
  obtain ⟨t, ht⟩ := settledNow_frame s
  rw [htick]
  refine ⟨?_, ?_, ?_, ?_, ?_, ?_, ?_, fun h => ?_⟩
  case refine_8 =>
    rw [settledNow_quiet h]
    exact ⟨rfl, rfl, k, rfl⟩
  all_goals rw [ht]; rfl

theorem step_idle {s : State} (h : s.pending = []) : step s = .next (tick s) := by
  unfold step
  rw [h]

/-- Settles O7: the unit's registers and limits by their conditions; a nanosecond is the unit's tick beside what the instant's end settles. -/
theorem meridianTime : Obligations.MeridianTime := by
  refine ⟨fun wide s hbar hreset => ?_, ⟨fun s h bound hbound => ?_, fun s hst hlimit hpast => ⟨?_, merMove_mer .freeRun 0 s⟩, fun s h => ?_, fun s hslew hleft => ?_⟩, fun s hidle => ?_⟩
  · rw [exec_transitNowLoRead, transitRead_open wide hbar hreset]
    rfl
  · rw [exec_holdoverDriftUpdate, driftUpdate_acts h, hbound]
  · rw [exec_holdoverExpired, holdoverEnd_due hst hlimit hpast]
  · rw [exec_holdoverExpired, holdoverEnd_unlimited h]
  · rw [exec_catchUpEnd, catchUpDone_absorbed hslew hleft]
  · obtain ⟨hclk, hmer, hpend, hjobs, hsqs, hcqs, hslots, hquiet⟩ := tick_does s
    refine ⟨tick s, step_idle hidle, hclk, fun hrun h => ?_, fun hrun hslew hleft hhalf => ?_, hjobs, hsqs, hcqs, hslots, hquiet⟩
    · rw [hmer, merTick_free hrun h]
    · obtain ⟨hclk', hmer', -⟩ := tick_does (tick s)
      rw [merTick_half hrun hslew hleft hhalf] at hmer
      obtain ⟨hns, hrest⟩ := merTick_whole (m := (tick s).mer) (by rw [hmer]; exact hrun) (by rw [hmer])
      refine ⟨tick (tick s), step_idle (hpend.trans hidle), ?_, by rw [hclk', hclk], ?_⟩
      · rw [hmer', hns, hmer]
      · rw [hmer', hrest, hmer]
        exact Nat.sub_add_cancel hleft

/-! ### Lock and loss -/

/-- The unit as a loss of the reference leaves it. -/
def lostMer (now : Nat) (m : Meridian) : Meridian :=
  { merClear { m with st := .holdover } with lossCount := satAt 0xFF (m.lossCount + 1), lossAt := now, lossResid := residOf m.source,
                                             drift := satAt 0xFFFFFFFF (residOf m.source + m.slewLeft) }

theorem merLoss_mer {s : State} (hst : s.mer.st = .locked) (hsource : s.mer.source ≠ 2) : (merLoss s).mer = lostMer s.clk s.mer := by
  unfold merLoss
  rw [if_neg (by simp [hst, hsource])]
  dsimp only
  rw [merMove_mer, merMove_clk]
  rfl

/-- The unit as a lock leaves it. -/
theorem merLock_mer (off : Int) (s : State) : (merLock off s).mer = merOffset off { merClear { s.mer with st := .locked } with drift := 0 } := by
  unfold merLock
  dsimp only
  rw [merMove_mer]

theorem merLock_clk (off : Int) (s : State) : (merLock off s).clk = s.clk := merMove_clk .locked off s

theorem merOffset_keeps (off : Int) (m : Meridian) : (merOffset off m).st = m.st ∧ (merOffset off m).good = m.good := by
  unfold merOffset
  dsimp only
  split <;> exact ⟨rfl, rfl⟩

theorem merOffset_forward {off : Int} (h : 0 ≤ off) (m : Meridian) : (merOffset off m).ns = (m.ns + off.toNat) % 2 ^ 64 ∧ (merOffset off m).slewing = false := by
  unfold merOffset
  dsimp only
  rw [if_pos (ge_iff_le.2 h)]
  exact ⟨rfl, rfl⟩

theorem merOffset_behind {off : Int} (h : off < 0) (m : Meridian) :
    (merOffset off m).ns = m.ns ∧ (merOffset off m).slewing = true ∧ (merOffset off m).slewLeft = (-off).toNat := by
  unfold merOffset
  dsimp only
  rw [if_neg (Int.not_le.2 h)]
  exact ⟨rfl, rfl, rfl⟩

/-! ### PTM -/

theorem ptmDialog_due {s : State} (hrun : s.mer.running = true) (hsource : s.mer.source = 0) (hptm : s.mer.ptmEnable = true) (hup : s.link.up = true)
    (hclosed : s.mer.dialogOpen = false) (hdue : s.mer.dialogAt + s.mer.dialogMs * 1000000 ≤ s.clk) :
    ptmDialog s = { s with mer := { s.mer with dialogOpen := true, dialogAt := s.clk }, out := s.out ++ [.ptmRequest] } := by
  unfold ptmDialog
  dsimp only
  rw [if_neg (by simp [hrun, hsource, hptm, hup, hdue]), if_neg (ne_true_of_eq_false hclosed)]
  rfl

theorem ptmDialog_idle {s : State} (h : s.mer.source ≠ 0 ∨ s.mer.ptmEnable = false) : ptmDialog s = s :=
  if_pos (by rcases h with h | h <;> simp [h])

theorem ptmResponse_open {s : State} (hopen : s.mer.dialogOpen = true) (hsource : s.mer.source = 0) :
    ptmResponse .failed s = ptmFail s ∧ ∀ residual offset, ptmResponse (.answered residual offset) s = ptmAnswer residual offset s := by
  unfold ptmResponse
  rw [hopen, hsource]
  exact ⟨rfl, fun _ _ => rfl⟩

/-- The fourth near answer in a row, out of lock, locks. -/
theorem ptmAnswer_locks {residual offset : Int} {s : State} (hst : s.mer.st ≠ .locked) (hgood : s.mer.good = 3) (hnear : residual.natAbs ≤ 200) :
    ptmAnswer residual offset s = merLock offset { s with mer := { s.mer with dialogOpen := false, bad := 0, good := 4, beyond := 0 } } := by
  unfold ptmAnswer
  have hfar : ¬residual.natAbs > 1000 := by omega
  simp [hst, hgood, hnear, hfar]

/-- The third failure in a row, in lock, loses the reference. -/
theorem ptmFail_loses {s : State} (hbad : s.mer.bad = 2) : ptmFail s = merLoss { s with mer := { s.mer with good := 0, beyond := 0, bad := 3, dialogOpen := false } } := by
  unfold ptmFail
  simp [hbad]

theorem ptmOff_loses {s : State} (hptm : s.mer.ptmEnable = true) (hsource : s.mer.source = 0) :
    ptmOff s = merLoss { s with mer := { s.mer with ptmEnable := false, dialogOpen := false } } := by
  unfold ptmOff
  dsimp only
  rw [if_pos (by rw [hptm, hsource]; rfl)]

theorem ptmAnswer_does {residual offset : Int} {s : State} (hopen : s.mer.dialogOpen = true) (hsource : s.mer.source = 0) (hst : s.mer.st ≠ .locked)
    (hgood : s.mer.good = 3) (hnear : residual.natAbs ≤ 200) :
    Does (.ptmResponse (.answered residual offset)) s (fun t => t.mer.st = .locked ∧ t.mer.good = 0 ∧ t.clk = s.clk ∧
      (0 ≤ offset → t.mer.ns = (s.mer.ns + offset.toNat) % 2 ^ 64 ∧ t.mer.slewing = false) ∧
      (offset < 0 → t.mer.ns = s.mer.ns ∧ t.mer.slewing = true ∧ t.mer.slewLeft = (-offset).toNat)) := by
  obtain ⟨-, hresponse⟩ := ptmResponse_open hopen hsource
  refine ⟨_, (exec_ptmResponse _ s).trans (congrArg _ ((hresponse residual offset).trans (ptmAnswer_locks hst hgood hnear))), ?_⟩
  dsimp only
  rw [merLock_mer, merLock_clk]
  obtain ⟨hst', hgood'⟩ := merOffset_keeps offset { merClear { s.mer with dialogOpen := false, bad := 0, good := 4, beyond := 0, st := .locked } with drift := 0 }
  exact ⟨hst', hgood', rfl, fun h => merOffset_forward h _, fun h => merOffset_behind h _⟩

theorem ptmFail_does {s : State} (hopen : s.mer.dialogOpen = true) (hsource : s.mer.source = 0) (hst : s.mer.st = .locked) (hbad : s.mer.bad = 2) :
    Does (.ptmResponse .failed) s (fun t => t.mer.st = .holdover ∧ t.mer.lossCount = satAt 0xFF (s.mer.lossCount + 1) ∧ t.mer.lossAt = s.clk ∧ t.mer.ns = s.mer.ns) := by
  obtain ⟨hresponse, -⟩ := ptmResponse_open hopen hsource
  refine ⟨_, (exec_ptmResponse _ s).trans (congrArg _ (hresponse.trans (ptmFail_loses hbad))), ?_⟩
  dsimp only
  rw [merLoss_mer]
  · exact ⟨rfl, rfl, rfl, rfl⟩
  · exact hst
  · exact fun h => absurd (hsource.symm.trans h) (by decide)

theorem ptmOff_does {s : State} (hptm : s.mer.ptmEnable = true) (hsource : s.mer.source = 0) (hst : s.mer.st = .locked) :
    Does .ptmEnableClear s (fun t => t.mer.st = .holdover ∧ t.mer.ptmEnable = false ∧ t.mer.lossCount = satAt 0xFF (s.mer.lossCount + 1)) := by
  refine ⟨_, (exec_ptmEnableClear s).trans (congrArg _ (ptmOff_loses hptm hsource)), ?_⟩
  dsimp only
  rw [merLoss_mer]
  · exact ⟨rfl, rfl, rfl⟩
  · exact hst
  · exact fun h => absurd (hsource.symm.trans h) (by decide)

/-! ### The coax -/

theorem onCoax_source {s : State} (h : onCoax s = true) : s.mer.source = 1 := by
  unfold onCoax at h
  simp only [Bool.and_eq_true, beq_iff_eq] at h
  exact h.1.2

theorem markerBad_first {s : State} (hmiss : s.mer.markerMiss = 0) : markerBad s = { s with mer := { s.mer with markerMiss := 1, good := 0 } } := by
  unfold markerBad
  simp [hmiss]

theorem markerBad_second {s : State} (hmiss : s.mer.markerMiss = 1) : markerBad s = merLoss { s with mer := { s.mer with markerMiss := 2, good := 0 } } := by
  unfold markerBad
  simp [hmiss]

section
variable {m : CoaxMarker} {s : State} (hon : onCoax s = true)
include hon

/-- The third marker in a row at the right spacing, in ACQUIRING, locks at the next whole second. -/
theorem coaxMark_locks (hst : s.mer.st = .acquiring) (hgood : s.mer.good = 2) (hlo : 9999950 ≤ m.edges) (hhi : m.edges ≤ 10000050) :
    coaxMark m s = merLock (nextSecond s.mer.ns : Int) { s with mer := { s.mer with good := 3 } } := by
  have hfits : inPlace 1 m.edges = true := decide_eq_true ⟨by omega, by omega⟩
  unfold coaxMark
  simp [hon, hst, hgood, hfits]

/-- A marker two seconds after the last in place, with one missed between, forgives it. -/
theorem coaxMark_forgives (hst : s.mer.st = .locked) (hmiss : s.mer.markerMiss = 1) (hedges : s.mer.markerEdges = 0) (hlo : 19999900 ≤ m.edges) (hhi : m.edges ≤ 20000100) :
    coaxMark m s = { s with mer := { s.mer with markerMiss := 0 } } := by
  have hplace : inPlace (s.mer.markerMiss + 1) (s.mer.markerEdges + m.edges) = true := by
    rw [hmiss, hedges]
    exact decide_eq_true ⟨by omega, by omega⟩
  unfold coaxMark
  dsimp only
  rw [hon, hst, hplace, ← hedges]
  rfl

theorem coaxMark_does (hst : s.mer.st = .acquiring) (hgood : s.mer.good = 2) (hlo : 9999950 ≤ m.edges) (hhi : m.edges ≤ 10000050) :
    Does (.coaxMarker m) s (fun t => t.mer.st = .locked ∧ t.mer.ns = (s.mer.ns + (1000000000 - s.mer.ns % 1000000000) % 1000000000) % 2 ^ 64) := by
  refine ⟨_, (exec_coaxMarker m s).trans (congrArg _ (coaxMark_locks hon hst hgood hlo hhi)), ?_⟩
  dsimp only
  rw [merLock_mer]
  obtain ⟨hst', -⟩ := merOffset_keeps (nextSecond s.mer.ns : Int) { merClear { s.mer with good := 3, st := .locked } with drift := 0 }
  obtain ⟨hns, -⟩ := merOffset_forward (Int.natCast_nonneg (nextSecond s.mer.ns)) { merClear { s.mer with good := 3, st := .locked } with drift := 0 }
  exact ⟨hst', hns⟩

theorem markerMissing_does (hst : s.mer.st = .locked) (hmiss : s.mer.markerMiss = 1) : Does .coaxMarkerMissing s (fun t => t.mer.st = .holdover) := by
  refine ⟨_, (exec_coaxMarkerMissing s).trans (congrArg _ ((if_pos hon).trans (markerBad_second hmiss))), ?_⟩
  dsimp only
  rw [merLoss_mer]
  · rfl
  · exact hst
  · exact fun h => absurd ((onCoax_source hon).symm.trans h) (by decide)

theorem edgeLoss_does (hst : s.mer.st = .locked) :
    Does .coaxEdgeLoss s (fun t => t.mer.st = .holdover ∧ t.mer.lossCount = satAt 0xFF (s.mer.lossCount + 1) ∧ t.mer.lossAt = s.clk) := by
  refine ⟨_, (exec_coaxEdgeLoss s).trans (congrArg _ (if_pos hon)), ?_⟩
  dsimp only
  rw [merLoss_mer]
  · exact ⟨rfl, rfl, rfl⟩
  · exact hst
  · exact fun h => absurd ((onCoax_source hon).symm.trans h) (by decide)

end

/-- Settles O8: each answer and each marker by the count that it completes, with the lock or the loss that follows. -/
theorem referencesLockAndAreLost : Obligations.ReferencesLockAndAreLost := by
  refine ⟨⟨fun s hrun hsource hptm hup hclosed hdue => ?_, fun s h => ?_, fun residual offset s => ptmAnswer_does, fun s => ptmFail_does, fun s => ptmOff_does⟩,
    fun m s hon => coaxMark_does hon, fun s hon _ hmiss => ?_, fun m s hon hst hmiss hedges hlo hhi => ?_, fun s hon => markerMissing_does hon, fun s hon => edgeLoss_does hon,
    fun m s hoff => ⟨?_, congrArg _ (if_neg (ne_true_of_eq_false hoff)), congrArg _ (if_neg (ne_true_of_eq_false hoff))⟩⟩
  · rw [exec_ptmDialog, ptmDialog_due hrun hsource hptm hup hclosed hdue]
  · rw [exec_ptmDialog, ptmDialog_idle h]
  · rw [exec_coaxMarkerMissing, if_pos hon, markerBad_first hmiss]
  · rw [exec_coaxMarker, coaxMark_forgives hon hst hmiss hedges hlo hhi]
  · rw [exec_coaxMarker]
    exact congrArg _ (if_pos (by rw [hoff]; rfl))

end Sys2Proof.Machine

/-!
PROOFS. Register writes (spec/05, spec/20, R122, R128, R132, R134, R167, R180, R491, R501, R503): where an address leads, and what its field takes.
-/
namespace Sys2Proof.Machine
set_option Elab.async false -- as in Laws: the one text has more theorems than threads

theorem exec_registerWrite (w : RegAccess) (s : State) : exec (.registerWrite w) s = .next (regWrite w s) := rfl

/-- A write under no stream, whose packet meets no error, goes where its target says. -/
theorem regWrite_clean {w : RegAccess} (s : State) (hide : w.ide = none) (herr : w.error = none) : regWrite w s =
    match w.target with
    | .config f fld => cfgWrite f fld w.value s
    | .bar2 _ => doorbellWrite true w (doorbellWrite false w s)
    | .bar4 f => bar4Write f w s
    | .bar0 _ => bar0Write w s := by
  unfold regWrite ideDiscards
  rw [herr, hide]
  rfl

/-! ### Changing one page -/

section
variable {s : State} {f : Fn} {x : FnState} (hf : s.fn? f = some x)
include hf

/-- Only what a change makes of the page itself counts. -/
theorem onFn_congr {g k : FnState → FnState} (hgk : g x = k x) : s.onFn f g = s.onFn f k := by
  have hfound : ∀ y, s.fn? f = some y → g y = k y := by
    rw [hf]
    rintro y ⟨⟩
    exact hgk
  exact congrArg (fun l => { s with fns := l }) (modFirst_congr hfound)

theorem onFn_eq_self {g : FnState → FnState} (hg : g x = x) : s.onFn f g = s := by
  rw [onFn_congr hf (k := id) hg]
  exact congrArg (fun l => { s with fns := l }) (modFirst_id _ _)

end

/-! ### BAR0 -/

/-- The write of `v` in `width` bits at an offset of a BAR0, under no stream. -/
abbrev atBar0 (f : Fn) (off width v : Nat) : RegAccess := { target := .bar0 f, off := off, width := width, value := v }

theorem bar0Write_width {f : Fn} {off width v : Nat} (s : State) (h32 : width ≠ 32) (h64 : width ≠ 64) : bar0Write (atBar0 f off width v) s = s := by
  unfold bar0Write
  rw [if_neg (by simpa using h64), if_pos (by simp [h32])]

theorem bar0Write_unaligned {f : Fn} {off v : Nat} (s : State) (h : off % 4 ≠ 0) : bar0Write (atBar0 f off 32 v) s = s := by
  unfold bar0Write
  exact (if_neg Bool.false_ne_true).trans (if_pos (by simp [h]))

/-- An aligned word goes to the page at its offset, or to the blocks of PF0. -/
theorem bar0Write_word {off v : Nat} (s : State) (halign : off % 4 = 0) : bar0Write (atBar0 .pf0 off 32 v) s =
    if 0x100000 ≤ off ∧ off < 0x101000 then pageWrite .pf0 (off - 0x100000) (atBar0 .pf0 off 32 v) s else blockWrite off (atBar0 .pf0 off 32 v) s := by
  unfold bar0Write
  refine ((if_neg Bool.false_ne_true).trans (if_neg (by simp [halign]))).trans ?_
  unfold pageAt
  by_cases h : 0x100000 ≤ off ∧ off < 0x101000
  · rw [if_pos h]
    dsimp only
    rw [if_pos (by simpa using h)]
  · rw [if_neg h]
    dsimp only
    rw [if_neg (by simpa using h)]

theorem pageOpen_of_barOpen {s : State} {f : Fn} (h : barOpen s f = false) : pageOpen s f = false := by
  unfold pageOpen
  rw [h, Bool.false_and]

theorem pageWrite_closed {f : Fn} {off : Nat} {w : RegAccess} {s : State} (h : pageOpen s f = false) : pageWrite f off w s = s := if_pos (by rw [h]; rfl)
theorem blockWrite_closed {off : Nat} {w : RegAccess} {s : State} (h : pageOpen s .pf0 = false) : blockWrite off w s = s := if_pos (by rw [h]; rfl)

theorem bar0Write_closed {off v : Nat} {s : State} (h : barOpen s .pf0 = false) : bar0Write (atBar0 .pf0 off 32 v) s = s := by
  by_cases halign : off % 4 = 0
  · rw [bar0Write_word s halign, pageWrite_closed (pageOpen_of_barOpen h), blockWrite_closed (pageOpen_of_barOpen h), ite_self]
  · exact bar0Write_unaligned s halign

theorem barOpen_of_pageOpen {s : State} {f : Fn} (h : pageOpen s f = true) : barOpen s f = true := by
  unfold pageOpen at h
  exact (Bool.and_eq_true_iff.1 h).1

theorem resetting_of_pageOpen {s : State} {f : Fn} (h : pageOpen s f = true) : (s.fnOf f).resetting = false := by
  unfold pageOpen at h
  unfold State.fnOf
  cases hf : s.fn? f with
  | none => rfl
  | some x =>
    rw [hf] at h
    exact (Bool.not_eq_true' _).mp (Bool.and_eq_true_iff.1 h).2

/-- A page whose admin queue takes a low word of its SQ base, unless it is locked. -/
def sqBaseLow (v : Nat) (x : FnState) : FnState := if x.aqEnable then x else { x with aqSqBase := putLow x.aqSqBase (v / 4096 * 4096) }

section
variable {s : State} (hopen : pageOpen s .pf0 = true) (v : Nat)
include hopen

/-- The blocks of PF0 that the obligation names. -/
theorem blockWrite_acts (w : RegAccess) (hv : w.value = v) :
    blockWrite 0x60000 w s = { s with alm := { s.alm with cursor := v % 262144, loading := true } } ∧
    blockWrite 0x60010 w s = { s with alm := { s.alm with ovfSel := v % 65536 } } ∧
    blockWrite 0x80008 w s = { s with mgr := { s.mgr with enable := bitOf v 31, vector := bitsOf v 0 11 } } := by
  refine ⟨?_, ?_, ?_⟩ <;> unfold blockWrite <;> rw [hopen, hv]
  · exact cursorWrite_open (barOpen_of_pageOpen hopen) (resetting_of_pageOpen hopen) v
  · rfl
  · rfl

theorem aqOpen_pf0 : aqOpen s .pf0 = true := by
  unfold aqOpen
  rw [hopen]
  exact Bool.not_or_self s.boot.done

theorem pageWrite_aqSqLow {w : RegAccess} (hv : w.value = v) :
    pageWrite .pf0 0x100 w s = s.onFn .pf0 (sqBaseLow v) := by
  unfold pageWrite
  rw [hopen, hv]
  unfold aqBaseWrite
  rw [aqOpen_pf0 hopen]
  rfl

theorem pageWrite_evrHead {w : RegAccess} (hv : w.value = v) : pageWrite .pf0 0x200 w s = evrHeadWrite .pf0 v s := by
  unfold pageWrite
  rw [hopen, hv]
  rfl

end

/-- A low word whose page bits count keeps the high word. -/
theorem putLow_page (x : BitVec 64) (v : Nat) : (putLow x (v / 4096 * 4096)).toNat = x.toNat / 2 ^ 32 * 2 ^ 32 + v % 2 ^ 32 / 4096 * 4096 := by
  unfold putLow
  rw [BitVec.toNat_ofNat]
  have := x.isLt
  omega

/-- EVR_HEAD takes the low 17 bits of a word. -/
theorem evrHeadWrite_word (f : Fn) (v : Nat) (s : State) : evrHeadWrite f (BitVec.ofNat 32 v).toNat s = evrHeadWrite f v s := by
  unfold evrHeadWrite
  rw [BitVec.toNat_ofNat, Nat.mod_mod_of_dvd v (by decide : 131072 ∣ 2 ^ 32)]

theorem adminBase_does {x : FnState} {s : State} (hf : s.fn? .pf0 = some x) (hopen : pageOpen s .pf0 = true) (v : Nat) :
    (x.aqEnable = true → exec (.registerWrite (atBar0 .pf0 0x100100 32 v)) s = .next s) ∧
    (x.aqEnable = false → Does (.registerWrite (atBar0 .pf0 0x100100 32 v)) s (fun t =>
      (t.fnOf .pf0).aqSqBase.toNat = x.aqSqBase.toNat / 2 ^ 32 * 2 ^ 32 + v % 2 ^ 32 / 4096 * 4096 ∧ (t.fnOf .pf0).aqCqBase = x.aqCqBase)) := by
  have hdo : exec (.registerWrite (atBar0 .pf0 0x100100 32 v)) s =
      .next (s.onFn .pf0 (sqBaseLow v)) := by
    rw [exec_registerWrite, regWrite_clean s rfl rfl]
    exact congrArg _ ((bar0Write_word s rfl).trans (pageWrite_aqSqLow hopen v rfl))
  refine ⟨fun hon => ?_, fun hoff => ⟨_, hdo, ?_⟩⟩
  · rw [hdo, onFn_eq_self (g := sqBaseLow v) hf (if_pos hon)]
  · dsimp only
    rw [onFn_congr (g := sqBaseLow v) hf (k := fun x => { x with aqSqBase := putLow x.aqSqBase (v / 4096 * 4096) }) (if_neg (ne_true_of_eq_false hoff)), fnOf_onFn hf]
    exact ⟨putLow_page _ v, rfl⟩

/-! ### Configuration space -/

theorem cfgWrite_down {f : Fn} {fld : CfgField} {v : Nat} {s : State} (h : s.link.up = false) : cfgWrite f fld v s = s := by
  unfold cfgWrite cfgOpen
  rw [h]
  rfl

/-- A word into an aligned place of BAR4. -/
theorem regWrite_bar4 {f : Fn} {s : State} {w : RegAccess} (htarget : w.target = .bar4 f) (hwidth : w.width = 32) (hide : w.ide = none) (herr : w.error = none) (halign : w.off % 4 = 0) :
    regWrite w s = tableWrite f w.off w.value s := by
  rw [regWrite_clean s hide herr, htarget]
  exact if_pos (by rw [hwidth, halign]; rfl)

section
variable {f : Fn} {s : State} (hopen : cfgOpen s f = true)
include hopen

theorem cfgWrite_bar {n : Nat} (hpf : f = .pf0 ∨ f = .pf1) (hn : n = 0 ∨ n = 2 ∨ n = 4) (v : Nat) :
    cfgWrite f (.bar n) v s = s.onFn f (fun y => { y with cfg := { y.cfg with bars := modAt y.cfg.bars (n / 2) (fun _ => v % 2 ^ 64) } }) := by
  unfold cfgWrite ctlCfgWrite
  rw [hopen]
  rcases hpf with rfl | rfl <;> rcases hn with rfl | rfl | rfl <;> rfl

theorem cfgWrite_aer (hpf : f = .pf0 ∨ f = .pf1) (v : Nat) :
    cfgWrite f .aerUncorrectable v s = s.onFn f (fun y => { y with cfg := { y.cfg with aer := aerWrite .aerUncorrectable v y.cfg.aer } }) ∧
    cfgWrite f .aerCorrectable v s = s.onFn f (fun y => { y with cfg := { y.cfg with aer := aerWrite .aerCorrectable v y.cfg.aer } }) := by
  unfold cfgWrite ctlCfgWrite
  rw [hopen]
  rcases hpf with rfl | rfl <;> exact ⟨rfl, rfl⟩

theorem cfgWrite_msixEnable (v : Nat) : cfgWrite f .msixEnable v s = sendPending f (s.onFn f (fun y => { y with msixEnable := v % 2 == 1 })) := by
  unfold cfgWrite
  rw [hopen]
  rfl

theorem fnBars_of_cfgOpen : fnBars f = true := by
  cases f with
  | slice n => rw [cfgOpen, Bool.and_false] at hopen; cases hopen
  | pf0 | pf1 | vf n => rfl

end

section
variable {f : Fn} {x : FnState} {s : State} (hf : s.fn? f = some x)
include hf

/-- A status bit is cleared where 1 is written. -/
theorem aer_does (hopen : cfgOpen s f = true) (hpf : f = .pf0 ∨ f = .pf1) (v : Nat) :
    Does (.registerWrite { target := .config f .aerUncorrectable, value := v }) s (fun t => ∃ a, t = s.onFn f (fun y => { y with cfg := { y.cfg with aer := a } }) ∧
      (∀ i, i < 32 → a.unc.getLsbD i = (x.cfg.aer.unc.getLsbD i && !(v.testBit i))) ∧ a.cor = x.cfg.aer.cor ∧ a.uncMask = x.cfg.aer.uncMask) ∧
    Does (.registerWrite { target := .config f .aerCorrectable, value := v }) s (fun t => ∃ a, t = s.onFn f (fun y => { y with cfg := { y.cfg with aer := a } }) ∧
      (∀ i, i < 32 → a.cor.getLsbD i = (x.cfg.aer.cor.getLsbD i && !(v.testBit i))) ∧ a.unc = x.cfg.aer.unc ∧ a.header = x.cfg.aer.header) := by
  obtain ⟨hunc, hcor⟩ := cfgWrite_aer hopen hpf v
  have hbits : ∀ (r : BitVec 32) (i : Nat), i < 32 → (r &&& ~~~BitVec.ofNat 32 v).getLsbD i = (r.getLsbD i && !(v.testBit i)) := by
    intro r i hi
    rw [BitVec.getLsbD_and, BitVec.getLsbD_not, BitVec.getLsbD_ofNat, decide_eq_true hi, Bool.true_and, Bool.true_and]
  refine ⟨⟨_, (exec_registerWrite _ s).trans (congrArg _ hunc), aerWrite .aerUncorrectable v x.cfg.aer, onFn_congr hf rfl, hbits _, rfl, rfl⟩,
    ⟨_, (exec_registerWrite _ s).trans (congrArg _ hcor), aerWrite .aerCorrectable v x.cfg.aer, onFn_congr hf rfl, hbits _, rfl, rfl⟩⟩

/-- Nothing pends that MSI-X Enable could send. -/
theorem sendPending_nothing {on : Bool} (h : on = false ∨ x.pba = []) :
    sendPending f (s.onFn f (fun y => { y with msixEnable := on })) = s.onFn f (fun y => { y with msixEnable := on }) := by
  have hpage : (s.onFn f (fun y => { y with msixEnable := on })).fnOf f = { x with msixEnable := on } := fnOf_onFn hf
  rcases h with rfl | hpba
  · exact sendPending_disabled (by rw [hpage])
  · unfold sendPending
    dsimp only
    rw [hpage]
    dsimp only
    rw [hpba]
    split
    · rfl
    · exact onFn_eq_self (fn?_onFn_some hf) (by dsimp only; rw [hpba]; rfl)

/-! ### The MSI-X table -/

theorem putEntryOf_entries {n : Nat} (e : Nat × Nat) : msixEntry ((s.onFn f (putEntryOf n e)).fnOf f) n = e ∧
    ∀ k, k ≠ n → msixEntry ((s.onFn f (putEntryOf n e)).fnOf f) k = msixEntry x k := by
  rw [fnOf_onFn hf]
  unfold msixEntry putEntryOf
  dsimp only
  refine ⟨?_, fun k hk => ?_⟩
  · rw [List.find?_append, List.find?_eq_none.2 fun y hy => ?_]
    · simp
    · have := (List.mem_filter.1 hy).2
      simpa using this
  · have hother : ∀ y : Nat × (Nat × Nat), decide ((y.1 != n) = true ∧ (y.1 == k) = true) = (y.1 == k) := by
      intro y
      by_cases hy : y.1 = k <;> simp [hy, hk]
    rw [List.find?_append, List.find?_filter, funext hother]
    simp [Ne.symm hk]

/-- The words of a table entry, of a function with BARs of its own, on a page that answers. -/
theorem tableWrite_words {n : Nat} (hfn : fnBars f = true) (hpage : pageOpen s f = true) (hn : n < tableVectors f) (v : Nat) :
    tableWrite f (16 * n) v s = s.onFn f (putEntryOf n ((msixEntry x n).1 / 2 ^ 32 * 2 ^ 32 + v % 2 ^ 32 / 4 * 4, (msixEntry x n).2)) ∧
    tableWrite f (16 * n + 8) v s = s.onFn f (putEntryOf n ((msixEntry x n).1, v % 2 ^ 32)) ∧
    tableWrite f (16 * n + 12) v s = fnCfgWrite f (.vectorMask n) v s := by
  have hword : ∀ o, o < 16 → (16 * n + o) / 16 = n ∧ (16 * n + o) % 16 = o ∧ ¬(!(fnBars f) || !(pageOpen s f) || decide (16 * n + o ≥ 16 * tableVectors f)) = true := by
    intro o ho
    refine ⟨by omega, by omega, ?_⟩
    rw [hfn, hpage]
    simp
    omega
  refine ⟨?_, ?_, ?_⟩ <;> unfold tableWrite <;> dsimp only
  · obtain ⟨hdiv, hmod, hin⟩ := hword 0 (by decide)
    rw [Nat.add_zero] at hdiv hmod hin
    rw [if_neg hin, hdiv, hmod, fnOf_eq hf]
    rfl
  · obtain ⟨hdiv, hmod, hin⟩ := hword 8 (by decide)
    rw [if_neg hin, hdiv, hmod, fnOf_eq hf]
    rfl
  · obtain ⟨hdiv, hmod, hin⟩ := hword 12 (by decide)
    rw [if_neg hin, hdiv, hmod]
    rfl

theorem table_does {n : Nat} {u : RegAccess} (hopen : cfgOpen s f = true) (hpage : pageOpen s f = true) (hn : n < tableVectors f) (htarget : u.target = .bar4 f)
    (hwidth : u.width = 32) (hide : u.ide = none) (herr : u.error = none) :
    (u.off = 16 * n → Does (.registerWrite u) s (fun t => msixEntry (t.fnOf f) n = ((msixEntry x n).1 / 2 ^ 32 * 2 ^ 32 + u.value % 2 ^ 32 / 4 * 4, (msixEntry x n).2) ∧
      (∀ k, k ≠ n → msixEntry (t.fnOf f) k = msixEntry x k) ∧ t.out = s.out)) ∧
    (u.off = 16 * n + 8 → Does (.registerWrite u) s (fun t => msixEntry (t.fnOf f) n = ((msixEntry x n).1, u.value % 2 ^ 32) ∧
      (∀ k, k ≠ n → msixEntry (t.fnOf f) k = msixEntry x k) ∧ t.out = s.out)) ∧
    (u.off = 16 * n + 12 → u.value % 2 = 1 → Does (.registerWrite u) s (fun t => (t.fnOf f).unmasked.contains n = false ∧ t.out = s.out)) := by
  obtain ⟨haddr, hdata, hmask⟩ := tableWrite_words hf (fnBars_of_cfgOpen hopen) hpage hn u.value
  have hword : u.off % 4 = 0 → exec (.registerWrite u) s = .next (tableWrite f u.off u.value s) := fun halign =>
    (exec_registerWrite u s).trans (congrArg _ (regWrite_bar4 htarget hwidth hide herr halign))
  refine ⟨fun hoff => ⟨_, hword (by omega), ?_⟩, fun hoff => ⟨_, hword (by omega), ?_⟩, fun hoff hone => ⟨_, hword (by omega), ?_⟩⟩ <;> rw [hoff]
  · rw [haddr]
    obtain ⟨hsame, hother⟩ := putEntryOf_entries hf (n := n) ((msixEntry x n).1 / 2 ^ 32 * 2 ^ 32 + u.value % 2 ^ 32 / 4 * 4, (msixEntry x n).2)
    exact ⟨hsame, hother, rfl⟩
  · rw [hdata]
    obtain ⟨hsame, hother⟩ := putEntryOf_entries hf (n := n) ((msixEntry x n).1, u.value % 2 ^ 32)
    exact ⟨hsame, hother, rfl⟩
  · have hfilter : fnCfgWrite f (.vectorMask n) u.value s = s.onFn f (fun y => { y with unmasked := y.unmasked.filter (fun m => m != n) }) := by
      unfold fnCfgWrite
      rw [hpage, hone]
      rfl
    rw [hmask, hfilter]
    dsimp only
    rw [fnOf_onFn hf]
    exact ⟨by simp, rfl⟩

end

theorem numVfs_does {v : Nat} {s : State} (hopen : cfgOpen s .pf0 = true) :
    cfgWrite .pf0 .numVfs v s = if s.link.vfEnable then s else { s with link := { s.link with numVfs := min v 255 } } := by
  unfold cfgWrite
  rw [hopen]
  rfl

/-- Settles O52: each address and each field by the rule of its register. -/
theorem registerWritesReachTheirRegister : Obligations.RegisterWritesReachTheirRegister := by
  refine ⟨fun f off v width s h32 h64 => ?_, fun f off v s h => ?_, fun off v s h => ?_, fun f fld v s h => ?_, fun v s hopen => ?_, fun v x s hf hopen => ?_, fun f x v s hf hopen => ?_⟩
  · rw [exec_registerWrite, regWrite_clean s rfl rfl]
    exact congrArg _ (bar0Write_width s h32 h64)
  · rw [exec_registerWrite, regWrite_clean s rfl rfl]
    exact congrArg _ (bar0Write_unaligned s h)
  · rw [exec_registerWrite, regWrite_clean s rfl rfl]
    exact congrArg _ (bar0Write_closed h)
  · rw [exec_registerWrite, regWrite_clean s rfl rfl]
    exact congrArg _ (cfgWrite_down h)
  · have hblock : ∀ off, off % 4 = 0 → off < 0x100000 → exec (.registerWrite (atBar0 .pf0 off 32 v)) s = .next (blockWrite off (atBar0 .pf0 off 32 v) s) := by
      intro off halign hoff
      rw [exec_registerWrite, regWrite_clean s rfl rfl]
      exact congrArg _ ((bar0Write_word s halign).trans (if_neg (by omega)))
    obtain ⟨hcursor, -, -⟩ := blockWrite_acts hopen v (atBar0 .pf0 0x60000 32 v) rfl
    obtain ⟨-, hsel, -⟩ := blockWrite_acts hopen v (atBar0 .pf0 0x60010 32 v) rfl
    obtain ⟨-, -, hmgr⟩ := blockWrite_acts hopen v (atBar0 .pf0 0x80008 32 v) rfl
    exact ⟨(hblock 0x60000 rfl (by decide)).trans (congrArg _ hcursor), (hblock 0x60010 rfl (by decide)).trans (congrArg _ hsel),
      (hblock 0x80008 rfl (by decide)).trans (congrArg _ hmgr)⟩
  · obtain ⟨hlocked, hfree⟩ := adminBase_does hf hopen v
    refine ⟨hlocked, hfree, evrHeadWrite .pf0 v s, ?_, (exec_evrHead .pf0 _ s).trans (congrArg _ (evrHeadWrite_word .pf0 v s))⟩
    rw [exec_registerWrite, regWrite_clean s rfl rfl]
    exact congrArg _ ((bar0Write_word (off := 0x100200) s rfl).trans (pageWrite_evrHead hopen v rfl))
  · refine ⟨fun hpf => ⟨fun n hn => ?_, aer_does hf hopen hpf v⟩, fun h => ?_, fun n u hpage hn htarget hwidth hide herr => table_does hf hopen hpage hn htarget hwidth hide herr, ?_⟩
    · rw [exec_registerWrite, regWrite_clean s rfl rfl]
      exact congrArg _ (cfgWrite_bar hopen hpf hn v)
    · rw [exec_registerWrite, regWrite_clean s rfl rfl]
      refine congrArg _ ((cfgWrite_msixEnable hopen v).trans (sendPending_nothing hf (h.imp (fun h => ?_) id)))
      rw [h]
      rfl
    · rintro rfl
      rw [exec_registerWrite, regWrite_clean s rfl rfl]
      exact ⟨fun h => congrArg _ ((numVfs_does hopen).trans (if_neg (ne_true_of_eq_false h))), fun h => congrArg _ ((numVfs_does hopen).trans (if_pos h))⟩

end Sys2Proof.Machine

/-!
PROOFS. Step 5 of a job's way (spec/01, spec/06, R511): its items in order, each taken, waited for, or answered with a status; and the end of a retirement
(spec/08, R218).
-/
namespace Sys2Proof.Machine
set_option Elab.async false -- as in Laws: the one text has more theorems than threads

theorem exec_jobReserve (id : Nat) (s : State) : exec (.jobReserve id) s = .next (reserveJob id s) := rfl
theorem exec_slotRetired (i : Nat) (s : State) : exec (.slotRetired i) s = .next (slotRetired i s) := rfl

/-! ### An item whose turn it is not -/

section
variable {id : Nat} {j : Job} {s : State} (hj : s.job? id = some j)
include hj

theorem takeTokens_other (h : j.phase ≠ .waitTokens) : takeTokens id s = s := by
  unfold takeTokens
  rw [hj]
  exact if_pos (bne_iff_ne.2 h)

theorem takePlace_other (h : j.phase ≠ .waitPlace) : takePlace id s = s := by
  unfold takePlace
  rw [hj]
  exact if_pos (bne_iff_ne.2 h)

theorem takeCredit_other (h : j.phase ≠ .waitCredit) : takeCredit id s = s := by
  unfold takeCredit
  rw [hj]
  exact if_pos (by rw [bne_iff_ne.2 h]; rfl)

theorem takeStaging_other (h : j.phase ≠ .waitStaging) : takeStaging id s = s := by
  unfold takeStaging
  rw [hj]
  exact if_pos (bne_iff_ne.2 h)

/-! ### An item whose turn it is -/

theorem takeTokens_due (h : j.phase = .waitTokens) : takeTokens id s =
    if (jobTokens s j.cls j.desc j.block).isEmpty || tokensFree s j (jobTokens s j.cls j.desc j.block) then
      (spendTokens s j (jobTokens s j.cls j.desc j.block)).onJob id (fun j => { j with phase := .waitPlace })
    else s.onJob id (fun j => { j with late0 := { j.late0 with budget := true } }) := by
  unfold takeTokens
  rw [hj]
  exact if_neg (by rw [h]; decide)

theorem takePlace_due (h : j.phase = .waitPlace) : takePlace id s =
    if decide ((s.jobs.filter (fun x => x.inPlace && x.domain == j.domain)).length < inflightQuota s j.domain) && decide ((s.jobs.filter (fun x => x.inPlace)).length < 8192) then
      s.onJob id (fun j => { j with inPlace := true, phase := .waitCredit })
    else s.onJob id (fun j => { j with late0 := { j.late0 with resource := true } }) := by
  unfold takePlace
  rw [hj]
  exact if_neg (by rw [h]; decide)

theorem takeCredit_due {c : Cq} (h : j.phase = .waitCredit) (hfail : j.failed = none) (hc : s.cq? j.fn j.cq = some c) : takeCredit id s =
    if c.credits > 0 then (s.onCq j.fn j.cq (fun c => { c with credits := c.credits - 1 })).onJob id (fun j => { j with credit := true, phase := .waitStaging })
    else s.onJob id (fun j => { j with late0 := { j.late0 with cqFull := true } }) := by
  unfold takeCredit
  rw [hj]
  dsimp only
  rw [if_neg (by rw [h, hfail]; decide), hc]

theorem takeStaging_due (h : j.phase = .waitStaging) : takeStaging id s =
    match stageJob j s with
    | .wait => s.onJob id (fun j => { j with late0 := { j.late0 with resource := true } })
    | .fail st => failJob j (failEntry j st []) s
    | .took s' => s'.onJob id (fun j => { j with phase := .ready }) := by
  unfold takeStaging
  rw [hj]
  exact if_neg (by rw [h]; decide)

/-! ### A job goes on from where it stands -/

theorem reserveJob_live (hfail : j.failed = none) : reserveJob id s = takeStaging id (takeCredit id (takePlace id (takeTokens id s))) := by
  unfold reserveJob
  rw [hj]
  dsimp only
  rw [hfail]

theorem reserveJob_place (hfail : j.failed = none) (h : j.phase = .waitPlace) : reserveJob id s = takeStaging id (takeCredit id (takePlace id s)) := by
  rw [reserveJob_live hj hfail, takeTokens_other hj (by rw [h]; decide)]

theorem reserveJob_credit (hfail : j.failed = none) (h : j.phase = .waitCredit) : reserveJob id s = takeStaging id (takeCredit id s) := by
  rw [reserveJob_live hj hfail, takeTokens_other hj (by rw [h]; decide), takePlace_other hj (by rw [h]; decide)]

theorem reserveJob_staging (hfail : j.failed = none) (h : j.phase = .waitStaging) : reserveJob id s = takeStaging id s := by
  rw [reserveJob_live hj hfail, takeTokens_other hj (by rw [h]; decide), takePlace_other hj (by rw [h]; decide), takeCredit_other hj (by rw [h]; decide)]

/-- The items behind one that is waited for do nothing. -/
theorem later_wait {g : Job → Job} (hid : ∀ y, (g y).id = y.id) (hphase : (g j).phase = j.phase) :
    (j.phase ≠ .waitPlace → takePlace id (s.onJob id g) = s.onJob id g) ∧ (j.phase ≠ .waitCredit → takeCredit id (s.onJob id g) = s.onJob id g) ∧
    (j.phase ≠ .waitStaging → takeStaging id (s.onJob id g) = s.onJob id g) := by
  have hsome := job?_onJob_some hj hid
  exact ⟨fun h => takePlace_other hsome (by rw [hphase]; exact h), fun h => takeCredit_other hsome (by rw [hphase]; exact h),
    fun h => takeStaging_other hsome (by rw [hphase]; exact h)⟩

/-! ### The items -/

theorem tokens_does {need : List (Pool × Nat)} (hfail : j.failed = none) (h : j.phase = .waitTokens) (hneed : need = jobTokens s j.cls j.desc j.block) :
    (need ≠ [] → tokensFree s j need = false → exec (.jobReserve id) s = .next (s.onJob id (fun y => { y with late0 := { y.late0 with budget := true } }))) ∧
    (need = [] ∨ tokensFree s j need = true → exec (.jobReserve id) s = exec (.jobReserve id) ((spendTokens s j need).onJob id (fun y => { y with phase := .waitPlace }))) := by
  refine ⟨fun hsome hfree => ?_, fun hgives => ?_⟩
  · have hwait : takeTokens id s = s.onJob id (fun y => { y with late0 := { y.late0 with budget := true } }) := by
      rw [takeTokens_due hj h, ← hneed, hfree, if_neg (by simpa using hsome)]
    obtain ⟨hplace, hcredit, hstaging⟩ := later_wait hj (g := fun y => { y with late0 := { y.late0 with budget := true } }) (fun _ => rfl) rfl
    rw [exec_jobReserve, reserveJob_live hj hfail, hwait, hplace (by rw [h]; decide), hcredit (by rw [h]; decide), hstaging (by rw [h]; decide)]
  · have htook : takeTokens id s = (spendTokens s j need).onJob id (fun y => { y with phase := .waitPlace }) := by
      rw [takeTokens_due hj h, ← hneed, if_pos (hgives.elim (fun hnone => by rw [hnone]; rfl) fun hfree => by rw [hfree, Bool.or_true])]
    have hnow : ((spendTokens s j need).onJob id (fun y => { y with phase := .waitPlace })).job? id = some { j with phase := .waitPlace } :=
      job?_onJob_some (s := spendTokens s j need) hj
    rw [exec_jobReserve, exec_jobReserve, reserveJob_live hj hfail, htook, reserveJob_place hnow hfail rfl]

theorem place_does {mine all : Nat} (hfail : j.failed = none) (h : j.phase = .waitPlace)
    (hmine : mine = (s.jobs.filter (fun x => x.inPlace && x.domain == j.domain)).length) (hall : all = (s.jobs.filter (fun x => x.inPlace)).length) :
    (inflightQuota s j.domain ≤ mine ∨ 8192 ≤ all → exec (.jobReserve id) s = .next (s.onJob id (fun y => { y with late0 := { y.late0 with resource := true } }))) ∧
    (mine < inflightQuota s j.domain → all < 8192 → exec (.jobReserve id) s = exec (.jobReserve id) (s.onJob id (fun y => { y with inPlace := true, phase := .waitCredit }))) := by
  have hdue := takePlace_due hj h
  rw [← hmine, ← hall] at hdue
  refine ⟨fun hfull => ?_, fun hquota hlimit => ?_⟩
  · rw [if_neg (by simp; omega)] at hdue
    obtain ⟨-, hcredit, hstaging⟩ := later_wait hj (g := fun y => { y with late0 := { y.late0 with resource := true } }) (fun _ => rfl) rfl
    rw [exec_jobReserve, reserveJob_place hj hfail h, hdue, hcredit (by rw [h]; decide), hstaging (by rw [h]; decide)]
  · rw [if_pos (by simp [hquota, hlimit])] at hdue
    have hnow : (s.onJob id (fun y => { y with inPlace := true, phase := .waitCredit })).job? id = some { j with inPlace := true, phase := .waitCredit } := job?_onJob_some hj
    rw [exec_jobReserve, exec_jobReserve, reserveJob_place hj hfail h, hdue, reserveJob_credit hnow hfail rfl]

theorem credit_does {c : Cq} (hfail : j.failed = none) (h : j.phase = .waitCredit) (hc : s.cq? j.fn j.cq = some c) :
    (c.credits = 0 → exec (.jobReserve id) s = .next (s.onJob id (fun y => { y with late0 := { y.late0 with cqFull := true } }))) ∧
    (0 < c.credits → exec (.jobReserve id) s = exec (.jobReserve id) ((s.onCq j.fn j.cq (fun y => { y with credits := y.credits - 1 })).onJob id
      (fun y => { y with credit := true, phase := .waitStaging }))) := by
  have hdue := takeCredit_due hj h hfail hc
  refine ⟨fun hnone => ?_, fun hsome => ?_⟩
  · rw [if_neg (by omega)] at hdue
    obtain ⟨-, -, hstaging⟩ := later_wait hj (g := fun y => { y with late0 := { y.late0 with cqFull := true } }) (fun _ => rfl) rfl
    rw [exec_jobReserve, reserveJob_credit hj hfail h, hdue, hstaging (by rw [h]; decide)]
  · rw [if_pos hsome] at hdue
    have hnow : ((s.onCq j.fn j.cq (fun y => { y with credits := y.credits - 1 })).onJob id (fun y => { y with credit := true, phase := .waitStaging })).job? id =
        some { j with credit := true, phase := .waitStaging } := job?_onJob_some (s := s.onCq j.fn j.cq (fun y => { y with credits := y.credits - 1 })) hj
    rw [exec_jobReserve, exec_jobReserve, reserveJob_credit hj hfail h, hdue, reserveJob_staging hnow hfail rfl]

theorem staging_does (hfail : j.failed = none) (h : j.phase = .waitStaging) :
    (stageJob j s = .wait → exec (.jobReserve id) s = .next (s.onJob id (fun y => { y with late0 := { y.late0 with resource := true } }))) ∧
    (∀ st, stageJob j s = .fail st → exec (.jobReserve id) s = .next (failJob j (failEntry j st []) s)) ∧
    (∀ v, stageJob j s = .took v → exec (.jobReserve id) s = .next (v.onJob id (fun y => { y with phase := .ready }))) := by
  rw [exec_jobReserve, reserveJob_staging hj hfail h, takeStaging_due hj h]
  exact ⟨fun hs => by rw [hs], fun st hs => by rw [hs], fun v hs => by rw [hs]⟩

end

/-! ### A retirement -/

/-- Without a job or a command that waits, the end of a retirement is the slot's zeroization, and nothing else. -/
theorem finishRetire_zeroes {i : Nat} {s : State} (hwaits : s.waits = []) (hjobs : s.jobs = []) {x : Slot} (hx : s.slot? i = some x) : finishRetire i s = zeroSlot i s := by
  have hzero : endEraseJobs i (zeroSlot i s) = zeroSlot i s := by
    unfold endEraseJobs
    rw [show (zeroSlot i s).jobs = [] by rw [zeroSlot_eq hx]; exact hjobs]
    rfl
  have hnone : (zeroSlot i s).waits = [] := by rw [zeroSlot_eq hx]; exact hwaits
  have hover : endEraseWaits (zeroSlot i s) = { zeroSlot i s with waits := [] } := by
    unfold endEraseWaits
    rw [hnone]
    rfl
  rw [finishRetire, hzero, hover, ← hnone]

theorem retired_does {i : Nat} {x : Slot} {s : State} (hx : s.slot? i = some x) (hst : x.st = .retiring) (hrefs : slotRefs s x = 0) (hwaits : s.waits = []) (hjobs : s.jobs = []) :
    Does (.slotRetired i) s (fun t => t = zeroSlot i s ∧ t.slot? i = some (freeSlot x) ∧ (freeSlot x).material = [] ∧ (freeSlot x).gen = x.gen) := by
  have hgo : slotRetired i s = finishRetire i s := by
    unfold slotRetired
    rw [hx]
    exact if_pos (by rw [hst, hrefs]; rfl)
  exact ⟨_, (exec_slotRetired i s).trans (congrArg _ hgo), finishRetire_zeroes hwaits hjobs hx, finishRetire_idle hx hjobs hwaits, rfl, rfl⟩

/-- Settles O21: each item by its phase, the items before it passed and those behind it not reached. -/
theorem reservationTakesItemsInOrder : Obligations.ReservationTakesItemsInOrder :=
  ⟨fun _ _ _ _ hj hfail h hneed => tokens_does hj hfail h hneed, fun _ _ _ _ _ hj hfail h hmine hall => place_does hj hfail h hmine hall,
    fun _ _ _ _ hj hfail h hc => credit_does hj hfail h hc, fun _ _ _ hj hfail h => staging_does hj hfail h,
    fun _ _ _ hx hst hrefs hwaits hjobs => retired_does hx hst hrefs hwaits hjobs⟩

end Sys2Proof.Machine

/-!
PROOFS. Dispatch, preemption and further tokens (spec/02, spec/07, spec/10, R54, R60, R207, R276): what each command does by where the job stands, and what
the dispatched, the saved and the overrun job become.
-/
namespace Sys2Proof.Machine
set_option Elab.async false -- as in Laws: the one text has more theorems than threads

theorem exec_jobDispatch (id : Nat) (d : DispatchIn) (s : State) : exec (.jobDispatch id d) s = .next (dispatchJob id d s) := rfl
theorem exec_jobPreempt (victim by_ : Nat) (d : DispatchIn) (s : State) : exec (.jobPreempt victim by_ d) s = .next (preemptJob victim by_ d s) := rfl
theorem exec_overrunToken (id : Nat) (s : State) : exec (.overrunToken id) s = .next (overrunTake id s) := rfl

/-! ### Where a dispatch leads -/

section
variable {id : Nat} {d : DispatchIn} {j : Job} {us : List Nat} {s : State} (hj : s.job? id = some j)
include hj

theorem dispatchJob_placed (hready : isReady j = true) (hnext : isNextUp s j = true) (hplace : placeUnits s j d.units = some us) : dispatchJob id d s =
    if j.phase == .preempted then resumeJob j us d s
    else match dispatchStop s j with
    | some (.check c) => checkedOut j c (unprepare j s)
    | some .noRandom => failJob j (failEntry j .abortedFault (wholeInline j)) s
    | some .noLeaf => s.onJob id (fun j => { j with phase := .waitStaging, late0 := { j.late0 with resource := true } })
    | none => startJob j us d s := by
  unfold dispatchJob
  rw [hj]
  dsimp only
  rw [hready, hnext, hplace]
  rfl

theorem dispatchJob_starts (hphase : j.phase = .ready) (hnext : isNextUp s j = true) (hplace : placeUnits s j d.units = some us) (hstop : dispatchStop s j = none) :
    dispatchJob id d s = startJob j us d s := by
  rw [dispatchJob_placed hj (by rw [isReady, hphase]; rfl) hnext hplace, if_neg (by rw [hphase]; decide), hstop]

theorem dispatchJob_resumes (hphase : j.phase = .preempted) (hnext : isNextUp s j = true) (hplace : placeUnits s j d.units = some us) :
    dispatchJob id d s = resumeJob j us d s := by
  rw [dispatchJob_placed hj (by rw [isReady, hphase]; rfl) hnext hplace, if_pos (by rw [hphase]; rfl)]

theorem dispatchJob_idle (h : isNextUp s j = false ∨ placeUnits s j d.units = none ∨ isReady j = false) : dispatchJob id d s = s := by
  unfold dispatchJob
  rw [hj]
  dsimp only
  rcases h with h | h | h
  · exact if_pos (by rw [h, Bool.not_false, Bool.or_true])
  · rw [h]
    exact ite_self s
  · exact if_pos (by rw [h]; rfl)

end

/-! ### A job followed through its start

`Noted` is a job but for its saved contexts and its wait marks; `Bound` is a job but for what its dispatch binds it to. -/

def Noted (x y : Job) : Prop := y = { x with saves := y.saves, late0 := y.late0 }

theorem Noted.trans (x y z : Job) (h : Noted x y) (k : Noted y z) : Noted x z := by
  unfold Noted at *
  rw [k, h]

theorem noted_of_saves {a b : List Job} (h : Elementwise SavesOnly a b) : Elementwise Noted a b :=
  Elementwise.imp (fun x y hxy => by unfold SavesOnly at hxy; unfold Noted; rw [hxy]) h

def Bound (x y : Job) : Prop := y = { x with newSlot := y.newSlot, pins := y.pins, leaf := y.leaf, skey := y.skey, mkey := y.mkey }

theorem Bound.trans {x y z : Job} (h : Bound x y) (k : Bound y z) : Bound x z := by
  unfold Bound at *
  rw [k, h]

/-- The job of a list that another one's jobs are but for saves and marks. -/
theorem noted_job {b t : State} {i : Nat} {x : Job} (hx : b.job? i = some x) (h : Elementwise Noted b.jobs t.jobs) : ∃ y, t.job? i = some y ∧ Noted x y :=
  elementwise_find? (fun x y hxy => by rw [hxy]) h hx

theorem reserveSlot_jobs (dom i : Nat) (s : State) : (reserveSlot dom i s).jobs = s.jobs := by
  unfold reserveSlot
  split <;> rfl

theorem bindSlot_binds (want : Nat) (j : Job) (s : State) : Bound j (bindSlot want j s).1 ∧ (bindSlot want j s).2.jobs = s.jobs := by
  unfold bindSlot
  split
  · split
    · exact ⟨rfl, reserveSlot_jobs _ _ s⟩
    · exact ⟨rfl, rfl⟩
  · exact ⟨rfl, rfl⟩

theorem bindPins_binds (hs : List Nat) (j : Job) (s : State) : Bound j (bindPins hs j s).1 ∧ (bindPins hs j s).2.jobs = s.jobs := by
  unfold bindPins
  split
  · exact ⟨rfl, foldl_view (v := State.jobs) (f := fun s h => s.onSlot (hSlot h) (fun x => (pinFor s.clk h x).1)) (fun _ _ => rfl) hs s⟩
  · exact ⟨rfl, rfl⟩

theorem useKeys_jobs (hs : List Nat) (s : State) : (useKeys hs s).jobs = s.jobs := by
  unfold useKeys
  refine foldl_view (v := State.jobs) ?_ hs s
  exact fun _ _ => rfl

theorem noteLow_jobs (dom index : Nat) (s : State) : (noteLow dom index s).jobs = s.jobs := by
  unfold noteLow
  split
  · rfl
  · dsimp only
    split
    · rfl
    · exact raiseEvent_jobs _ _ _ _ _

theorem nextLeaf_jobs (h : Nat) (s : State) : (nextLeaf h s).2.jobs = s.jobs := by
  unfold nextLeaf
  split
  · split
    · exact noteLow_jobs _ _ _
    · rfl
  · rfl

theorem bindLeaf_binds (j : Job) (s : State) : Bound j (bindLeaf j s).1 ∧ (bindLeaf j s).2.jobs = s.jobs := by
  unfold bindLeaf
  split
  · exact ⟨rfl, nextLeaf_jobs _ s⟩
  · exact ⟨rfl, rfl⟩

theorem useCtx_jobs (i : Nat) (s : State) : Elementwise Noted s.jobs (useCtx i s).jobs :=
  noted_of_saves (savesOnly_fitStore 1 (s := { s.onCtx i (fun c => { c with spilled := false, use := s.mem.lruTick + 1 }) with mem := { s.mem with lruTick := s.mem.lruTick + 1 } })
    (elementwise_of_refl (R := SavesOnly) (fun _ => rfl) _))

theorem noted_refl (s : State) : Elementwise Noted s.jobs s.jobs := elementwise_of_refl (R := Noted) (fun _ => rfl) _

/-- A job replaced under its number. -/
theorem job?_onJob_const {i : Nat} {x k : Job} {s : State} (hx : s.job? i = some x) (hk : k.id = i) : (s.onJob i fun _ => k).job? i = some k := by
  show (modFirst (fun x => x.id == i) (fun _ => k) s.jobs).find? (fun x => x.id == i) = some k
  rw [find_modFirst (fun x : Job => x.id == i) (fun _ => k) (fun _ _ => beq_iff_eq.2 hk), show s.jobs.find? (fun x => x.id == i) = some x from hx]
  rfl

/-- The job, bound, stands in the state that its dispatch binds. -/
theorem bindJob_binds {j : Job} {s : State} (hj : s.job? j.id = some j) (d : DispatchIn) : ∃ k, (bindJob j d s).job? j.id = some k ∧ Bound j k := by
  unfold bindJob
  dsimp only
  obtain ⟨hslot, hslots⟩ := bindSlot_binds d.slot j s
  generalize bindSlot d.slot j s = p1 at *
  obtain ⟨hpin, hpins⟩ := bindPins_binds (pinHandles p1.2 p1.1) p1.1 p1.2
  generalize bindPins (pinHandles p1.2 p1.1) p1.1 p1.2 = p2 at *
  obtain ⟨hleaf, hleafs⟩ := bindLeaf_binds p2.1 (useKeys (pinHandles p1.2 p1.1) p2.2)
  generalize bindLeaf p2.1 (useKeys (pinHandles p1.2 p1.1) p2.2) = p3 at *
  have hbound : Bound j (bindKeys p3.2 p3.1) := ((hslot.trans hpin).trans hleaf).trans rfl
  have hjobs : p3.2.jobs = s.jobs := hleafs.trans ((useKeys_jobs _ _).trans (hpins.trans hslots))
  have hnoted : Elementwise Noted s.jobs (match (bindKeys p3.2 p3.1).ctx with | some i => useCtx i p3.2 | none => p3.2).jobs := by
    rw [← hjobs]
    split
    · exact useCtx_jobs _ _
    · exact noted_refl _
  obtain ⟨y, hy, -⟩ := noted_job hj hnoted
  have hid : (bindKeys p3.2 p3.1).id = j.id := by rw [hbound]
  refine ⟨bindKeys p3.2 p3.1, ?_, hbound⟩
  rw [hid]
  exact job?_onJob_const hy hid

/-! ### A start -/

theorem inputReads_jobs (j : Job) (list : List Bytes) (s : State) : (inputReads j list s).jobs = s.jobs := by
  have hdata : ∀ (l : List (Nat × Nat)) (n : Nat) {b t : State}, LinkOnly b t → LinkOnly b (dataReads j.fn l n t) := by
    intro l
    induction l with
    | nil => exact fun _ _ _ h => h
    | cons r l ih => exact fun n _ _ h => ih _ (linkOnly_postRead _ _ _ h)
  have hnamed : LinkOnly s ((namedReads j).foldl (fun s r => if r.2 == 0 then s else postRead j.fn r.1 r.2 s) s) :=
    linkOnly_foldl (fun _ _ h => linkOnly_ite h (linkOnly_postRead _ _ _ h)) (.refl s)
  have hreads : LinkOnly s (inputReads j list s) := by
    unfold inputReads
    exact linkOnly_ite (hdata _ _ (linkOnly_foldl (fun _ _ h => linkOnly_postRead _ _ _ h) hnamed)) (linkOnly_postRead _ _ _ hnamed)
  rw [hreads]

theorem splitShares_jobs (n : Nat) (x : Bytes) (s : State) : (splitShares n x s).2.jobs = s.jobs := by
  unfold splitShares
  generalize List.range (n - 1) = l
  generalize hacc : (([], s) : List Bytes × State) = acc
  rw [show s = acc.2 by rw [← hacc]]
  clear hacc
  induction l generalizing acc with
  | nil => rfl
  | cons _ l ih => exact ih _

theorem enterCluster_jobs (j : Job) (d : DispatchIn) (gang : List Nat) (u : Nat) (s : State) : (enterCluster j d gang u s).jobs = s.jobs := by
  unfold enterCluster
  split
  · rfl
  · exact (splitShares_jobs _ _ _).trans (splitShares_jobs _ _ _)

theorem loadEngines_jobs (j : Job) (us : List Nat) (input : Bytes) (s : State) : (loadEngines j us input s).jobs = s.jobs := by
  unfold loadEngines
  split
  · split <;> rfl
  · rfl

theorem noteDispatch_jobs (j : Job) (us : List Nat) (fresh : Bool) (s : State) : Elementwise Noted s.jobs (noteDispatch j us fresh s).jobs := by
  have htrace : ∀ e, (trace e (showActivity s)).jobs = s.jobs := fun e => trace_jobs e _
  unfold noteDispatch
  dsimp only
  split
  · rw [← htrace]
    refine elementwise_map (fun x => ?_) _
    split <;> rfl
  · rw [htrace]
    exact noted_refl s

theorem noteStall_jobs (id : Nat) (stalled : Bool) (s : State) : Elementwise Noted s.jobs (noteStall id stalled s).jobs := by
  unfold noteStall
  split
  · refine elementwise_modFirst (R := Noted) ?_ ?_ _
    · exact fun _ => rfl
    · exact fun _ _ => rfl
  · exact noted_refl s

/-- Without a memory error and a failed context tag, nothing troubles a start. -/
theorem memTroubles_quiet (j : Job) (us : List Nat) {d : DispatchIn} (s : State) (herr : d.memErr = none) (htag : d.ctxTagBad = false) : memTroubles j us d s = s := by
  unfold memTroubles
  rw [herr, htag]
  rfl

theorem inputStop_read {j : Job} (s : State) (h : j.inBad = none) : inputStop j s = s := by
  unfold inputStop
  rw [h]

theorem enterClusters_jobs (j : Job) (d : DispatchIn) (us : List Nat) (s : State) :
    (if poolOfOp j.desc == some .vcc then us.foldl (fun s u => enterCluster j d us u s) s else s).jobs = s.jobs := by
  split
  · exact foldl_view (v := State.jobs) (fun s u => enterCluster_jobs j d us u s) us s
  · rfl

/-- What a start notes of a dispatched job leaves it but for its marks. -/
theorem noted_dispatch (j : Job) (us : List Nat) (fresh stalled : Bool) (i : Nat) (s : State) :
    Elementwise Noted s.jobs (noteStall i stalled (noteDispatch j us fresh s)).jobs :=
  elementwise_trans Noted.trans (noteDispatch_jobs j us fresh s) (noteStall_jobs i stalled _)

theorem startJob_does {j : Job} {us : List Nat} {d : DispatchIn} {s : State} (hj : s.job? j.id = some j) (herr : d.memErr = none) (htag : d.ctxTagBad = false)
    (hin : (inputOf j.desc d.input d.inList).2 = none) :
    ∃ k, (startJob j us d s).job? j.id = some k ∧ k.phase = .running ∧ k.units = us ∧ k.desc = j.desc ∧ k.deadline = j.deadline := by
  obtain ⟨y, hy, hbound⟩ := bindJob_binds hj d
  have hread : (inputReads j d.inList (bindJob j d s)).job? j.id = some y := (job?_of_jobs (inputReads_jobs j d.inList _) _).trans hy
  unfold startJob
  dsimp only
  rw [hin]
  generalize inputReads j d.inList (bindJob j d s) = s1 at *
  generalize (inputOf j.desc d.input d.inList).1 = inp
  have hmarked : (s1.onJob j.id (fun j => { j with phase := .running, units := us, dispatched := true, restarted := j.again, inBad := none })).job? j.id =
      some { y with phase := .running, units := us, dispatched := true, restarted := y.again, inBad := none } := job?_onJob_some hread
  generalize s1.onJob j.id (fun j => { j with phase := .running, units := us, dispatched := true, restarted := j.again, inBad := none }) = s2 at *
  have hid : y.id = j.id := by rw [hbound]
  generalize hy' : ({ y with phase := .running, units := us, dispatched := true, restarted := y.again, inBad := none } : Job) = y' at *
  have hid' : y'.id = j.id := by rw [← hy', hid]
  rw [show (claimUnits j us s2).job? j.id = s2.job? j.id from rfl, hmarked]
  dsimp only [Option.getD_some]
  rw [memTroubles_quiet _ _ _ herr htag, hid']
  have hplaced : ∀ t : State, t.jobs = s2.jobs → (loadEngines y' us inp t).job? j.id = some y' := fun t ht =>
    (job?_of_jobs ((loadEngines_jobs _ _ _ _).trans ht) _).trans hmarked
  obtain ⟨k, hk, hnoted⟩ := noted_job (hplaced _ (enterClusters_jobs y' { d with input := inp } us (claimUnits j us s2))) (noted_dispatch y' us true d.stalled j.id _)
  have hinBad : k.inBad = none := by rw [hnoted, ← hy']
  refine ⟨k, ?_, by rw [hnoted, ← hy'], by rw [hnoted, ← hy'], by rw [hnoted, ← hy', hbound], by rw [hnoted, ← hy', hbound]⟩
  rw [hk]
  dsimp only
  rw [inputStop_read _ hinBad, ite_self]
  exact hk

theorem resumeJob_does {j : Job} {us : List Nat} {d : DispatchIn} {s : State} (hj : s.job? j.id = some j) (herr : d.memErr = none) (htag : d.ctxTagBad = false) :
    ∃ k, (resumeJob j us d s).job? j.id = some k ∧ k.phase = .running ∧ k.units = us ∧ k.rnd = j.rnd := by
  unfold resumeJob
  dsimp only
  have hmarked : (claimUnits j us (s.onJob j.id (fun j => { j with phase := .running, units := us, saves := [] }))).job? j.id =
      some { j with phase := .running, units := us, saves := [] } := job?_onJob_some hj
  generalize claimUnits j us (s.onJob j.id (fun j => { j with phase := .running, units := us, saves := [] })) = s1 at *
  have hctx : Elementwise Noted s1.jobs (match j.ctx with | some i => useCtx i s1 | none => s1).jobs := by
    split
    · exact useCtx_jobs _ s1
    · exact noted_refl s1
  have hvcc : ∀ t : State, Elementwise Noted s1.jobs t.jobs → Elementwise Noted s1.jobs (if poolOfOp j.desc == some .vcc then
      us.foldl (fun s u => { s with vcc := modAt s.vcc u (restoreCluster s.clk (kernelFor s j).1 j.id) }) t else t).jobs := by
    intro t ht
    split
    · rw [foldl_view (v := State.jobs) (f := fun s u => { s with vcc := modAt s.vcc u (restoreCluster s.clk (kernelFor s j).1 j.id) }) (fun _ _ => rfl) us t]
      exact ht
    · exact ht
  obtain ⟨k, hk, hnoted⟩ := noted_job hmarked (elementwise_trans Noted.trans (hvcc _ hctx) (noted_dispatch j us false d.stalled j.id _))
  rw [memTroubles_quiet _ _ _ herr htag]
  exact ⟨k, hk, by rw [hnoted], by rw [hnoted], by rw [hnoted]⟩

/-! ### Preemption -/

/-- A preemption is counted in the pools of a saved job. -/
def preemptCounted (v : Job) (m : Monitors) : Monitors :=
  let count := fun (i : Nat) (p : PoolMon) => if ((jobPools v).map poolClass).contains i then { p with preempt := sat32 p.preempt } else p
  { m with poolLive := m.poolLive.mapIdx count }

/-- The units of a saved job free, and its registers in its save area. -/
def leaving (v : Job) (s : State) : State :=
  let s := freeUnits v.id s
  { s with vcc := s.vcc.map (fun c => if c.resid.any (fun r => r.job == v.id) then saveCluster v.id c else c), mon := preemptCounted v s.mon }

/-- The frame of a preemption. -/
def leftFrame (v : Job) : TraceEv := { kind := 3, unit := frameUnit (v.units.headD 0), inst := fnCode v.fn, sq := v.sq, value := v.tag, opcode := dOp v.desc, cls := v.cls }

theorem saveJob_eq (v : Job) (s : State) : saveJob v s =
    trace (leftFrame v) (saveCtxs v (if (jobPools v).contains .vcc then [] else v.units) false
      ((leaving v s).onJob v.id (fun v' => { v' with phase := .preempted, units := if (jobPools v).contains .vcc then v'.units else [] }))) := rfl

theorem saveJob_does {v : Job} {s : State} (hv : s.job? v.id = some v) :
    ∃ k, (saveJob v s).job? v.id = some k ∧ k.phase = .preempted ∧ k.deadline = v.deadline ∧ k.credit = v.credit := by
  have hmarked : ((leaving v s).onJob v.id (fun v' => { v' with phase := .preempted, units := if (jobPools v).contains .vcc then v'.units else [] })).job? v.id =
      some { v with phase := .preempted, units := if (jobPools v).contains .vcc then v.units else [] } := job?_onJob_some (s := leaving v s) hv
  rw [saveJob_eq, job?_of_jobs (trace_jobs (leftFrame v) _)]
  obtain ⟨k, hk, hsaved⟩ := elementwise_find? (fun x y hxy => by rw [hxy])
    (savesOnly_saveCtxs v (if (jobPools v).contains .vcc then [] else v.units) false (elementwise_of_refl (R := SavesOnly) (fun _ => rfl) _)) hmarked
  exact ⟨k, hk, by rw [hsaved], by rw [hsaved], by rw [hsaved]⟩

section
variable {victim by_ : Nat} {d : DispatchIn} {b : Job} {s : State} (hb : s.job? by_ = some b)
include hb

theorem preemptJob_room {vs : List Nat} {t : State} (hmay : mayPreempt s b = true) (hroom : roomFor s b = some (vs, t)) :
    preemptJob victim by_ d s = if vs.contains victim && vs.all (fun i => (s.job? i).all (atPoint s)) then dispatchJob by_ d t else s := by
  unfold preemptJob
  rw [hb]
  dsimp only
  rw [hmay, hroom]
  rfl

theorem preemptJob_idle (h : mayPreempt s b = false ∨ roomFor s b = none) : preemptJob victim by_ d s = s := by
  unfold preemptJob
  rw [hb]
  dsimp only
  rcases h with h | h
  · exact if_pos (by rw [h]; rfl)
  · rw [h]
    exact ite_self s

omit hb in
/-- The jobs to be saved stand at their points. -/
theorem allAtPoint_iff {vs : List Nat} : vs.all (fun i => (s.job? i).all (atPoint s)) = true ↔ ∀ i ∈ vs, ∀ v, s.job? i = some v → atPoint s v = true := by
  have hone : ∀ i, (s.job? i).all (atPoint s) = true ↔ ∀ v, s.job? i = some v → atPoint s v = true := by
    intro i
    cases s.job? i with
    | none => exact ⟨fun _ _ h => (nomatch h), fun _ => rfl⟩
    | some v => exact ⟨fun h _ hv => Option.some.inj hv ▸ h, fun h => h v rfl⟩
  simp only [List.all_eq_true, hone]

end

/-! ### Further tokens -/

section
variable {id : Nat} {j : Job} {s : State} (hj : s.job? id = some j) (hphase : j.phase = .overrun)
include hj hphase

theorem overrunTake_eq : overrunTake id s =
    if tokensFree s j ((orderPools j).map (fun p => (p, 1))) then
      ({ spendTokens s j ((orderPools j).map (fun p => (p, 1))) with
          mon := { s.mon with live := modAt s.mon.live j.cls (fun m => { m with signOverrun := sat32 m.signOverrun }) } } : State).onJob id
        (fun y => { y with phase := .preempted, deadline := y.deadline + deadlineOf s y.cls, extra := y.extra + 1 })
    else s.onJob id (fun y => { y with late0 := { y.late0 with budget := true } }) := by
  unfold overrunTake
  rw [hj]
  dsimp only
  rw [if_neg (by rw [hphase]; decide)]
  rfl

theorem overrun_does (hfree : tokensFree s j ((orderPools j).map (fun p => (p, 1))) = true) : Does (.overrunToken id) s (fun t =>
    t.job? id = some { j with phase := .preempted, deadline := j.deadline + deadlineOf s j.cls, extra := j.extra + 1 } ∧ t.out = s.out) := by
  refine ⟨_, (exec_overrunToken id s).trans (congrArg _ ((overrunTake_eq hj hphase).trans (if_pos hfree))), job?_onJob_some hj, rfl⟩

end

/-- Settles O22: each command by where the job stands; the job is followed through what its start, its resumption and its save do to it. -/
theorem dispatchPreemptionTokens : Obligations.DispatchPreemptionTokens := by
  refine ⟨⟨fun id d j us s hj hphase hnext hplace hstop herr htag hin => ?_, fun id d j us s hj hphase hnext hplace herr htag => ?_, fun id d j s hj h => ?_⟩,
    fun victim by_ d b vs s t hb hmay hroom => ⟨fun hall hvictim => ?_, fun hnot => ?_⟩, fun victim by_ d b s hb h => ?_, fun v s hv => saveJob_does hv,
    fun id j s hj hphase hfree => overrun_does hj hphase hfree, fun id j s hj hphase hfree => ?_⟩
  · obtain rfl := mem_jobs_of_job? hj
    exact ⟨_, (exec_jobDispatch _ d s).trans (congrArg _ (dispatchJob_starts hj hphase hnext hplace hstop)), rfl, startJob_does hj herr htag hin⟩
  · obtain rfl := mem_jobs_of_job? hj
    exact ⟨_, (exec_jobDispatch _ d s).trans (congrArg _ (dispatchJob_resumes hj hphase hnext hplace)), rfl, resumeJob_does hj herr htag⟩
  · rw [exec_jobDispatch, dispatchJob_idle hj h]
  · rw [exec_jobPreempt, preemptJob_room hb hmay hroom, if_pos]
    rw [Bool.and_eq_true, List.contains_iff_mem, allAtPoint_iff]
    exact ⟨hvictim, hall⟩
  · rw [exec_jobPreempt, preemptJob_room hb hmay hroom, if_neg]
    rw [Bool.and_eq_true, List.contains_iff_mem, allAtPoint_iff]
    rintro ⟨hvictim, hall⟩
    rcases hnot with hnot | ⟨i, hi, v, hv, hoff⟩
    · exact hnot hvictim
    · exact absurd (hall i hi v hv) (ne_true_of_eq_false hoff)
  · rw [exec_jobPreempt, preemptJob_idle hb h]
  · rw [exec_overrunToken, overrunTake_eq hj hphase, if_neg (ne_true_of_eq_false hfree)]

end Sys2Proof.Machine

/-!
PROOFS. The DOE mailbox and the SPDM responder (spec/05, R136 to R138): the gate of a message, the negotiation of a connection, certificates and
measurements.
-/
namespace Sys2Proof.Machine
set_option Elab.async false -- as in Laws: the one text has more theorems than threads

theorem exec_doeDiscovery (i : Nat) (s : State) : exec (.doeDiscovery i) s = .next (whileOpen (answer (discovery i)) s) := rfl
theorem exec_doeAbort (s : State) : exec .doeAbort s = .next (if doeOpen s then { s with doe := { s.doe with error := false, mailbox := [] } } else s) := rfl
theorem exec_getVersion (s : State) : exec .getVersion s = .next (whileOpen spdmVersion s) := rfl
theorem exec_getCapabilities (s : State) : exec .getCapabilities s = .next (mailed spdmCaps s) := rfl
theorem exec_negotiateAlgorithms (s : State) : exec .negotiateAlgorithms s = .next (mailed spdmAlgs s) := rfl
theorem exec_getDigests (s : State) : exec .getDigests s = .next (whileOpen (negotiated spdmDigests) s) := rfl
theorem exec_getCertificate (off len : Nat) (s : State) : exec (.getCertificate off len) s = .next (whileOpen (negotiated (spdmCertificate off len)) s) := rfl
theorem exec_spdmChallenge (nonce : Bytes) (s : State) : exec (.spdmChallenge nonce) s = .next (object (4 + nonce.length) (negotiated (spdmChallenge nonce)) s) := rfl
theorem exec_getMeasurements (index : Nat) (signed : Bool) (nonce : Bytes) (s : State) :
    exec (.getMeasurements index signed nonce) s = .next (object (5 + nonce.length) (negotiated (spdmMeasure index signed nonce)) s) := rfl
theorem exec_keyExchange (req : Bytes) (s : State) : exec (.keyExchange req) s = .next (object req.length (negotiated (spdmExchange req)) s) := rfl
theorem exec_spdmUnsupportedRequest (code : Nat) (s : State) :
    exec (.spdmUnsupportedRequest code) s = .next (whileOpen (emit (.doe [0x12, 0x7F, 0x07, byteOf code])) s) := rfl

/-! ### The gate of a message -/

/-- The mailbox answers nothing. -/
theorem whileOpen_shut (k : State → State) {s : State} (h : doeOpen s = false ∨ s.doe.error = true) : whileOpen k s = s :=
  if_neg (by rcases h with h | h <;> simp [h])

theorem mailed_shut (k : Bytes → State → State) {s : State} (h : doeOpen s = false ∨ s.doe.error = true) : mailed k s = s := by
  unfold mailed object
  exact whileOpen_shut _ h

section
variable {s : State} (hopen : doeOpen s = true) (herr : s.doe.error = false)
include hopen herr

theorem whileOpen_open (k : State → State) : whileOpen k s = k s := if_pos (by rw [hopen, herr]; rfl)

theorem object_fits {n : Nat} (k : State → State) (h : n ≤ 16376) : object n k s = k s := by
  unfold object
  rw [whileOpen_open hopen herr]
  exact if_neg (by omega)

theorem object_long {n : Nat} (k : State → State) (h : 16376 < n) : object n k s = { s with doe := { s.doe with error := true } } := by
  unfold object
  rw [whileOpen_open hopen herr]
  exact if_pos (by omega)

theorem mailed_fits {req : Bytes} (k : Bytes → State → State) (hreq : s.doe.mailbox = req) (h : req.length ≤ 16376) :
    mailed k s = k req { s with doe := { s.doe with mailbox := [] } } := by
  unfold mailed
  rw [object_fits hopen herr _ (hreq ▸ h), hreq]

/-! ### The negotiation of a connection -/

theorem version_does : Does .getVersion s (fun t => ∃ a,
    t = { s with doe := { s.doe with version := true, caps := false, algs := false, vca := [0x10, 0x84, 0, 0] ++ a }, out := s.out ++ [.doe a] }) :=
  ⟨_, (exec_getVersion s).trans (congrArg _ (whileOpen_open hopen herr _)), _, rfl⟩

theorem caps_does {req : Bytes} (hreq : s.doe.mailbox = req) (hlen : req.length ≤ 16376) :
    (s.doe.version = true → Does .getCapabilities s (fun t => ∃ a,
      t = { s with doe := { s.doe with caps := true, mailbox := [], vca := s.doe.vca ++ req ++ a }, out := s.out ++ [.doe a] })) ∧
    (s.doe.version = false → exec .getCapabilities s = .next { s with doe := { s.doe with mailbox := [] }, out := s.out ++ [.spdmError 0x04] }) := by
  rw [exec_getCapabilities, mailed_fits hopen herr _ hreq hlen]
  refine ⟨fun hversion => ⟨_, (exec_getCapabilities s).trans (congrArg _ (mailed_fits hopen herr _ hreq hlen)), ?_⟩, fun hversion => congrArg _ ?_⟩
  · unfold spdmCaps
    rw [if_neg (by simp [hversion])]
    exact ⟨_, rfl⟩
  · exact if_pos (by simp [hversion])

theorem algs_does {req : Bytes} (hreq : s.doe.mailbox = req) (hlen : req.length ≤ 16376) :
    (s.doe.caps = true → Does .negotiateAlgorithms s (fun t => ∃ a,
      t = { s with doe := { s.doe with algs := true, mailbox := [], vca := s.doe.vca ++ req ++ a }, out := s.out ++ [.doe a] })) ∧
    (s.doe.caps = false → exec .negotiateAlgorithms s = .next { s with doe := { s.doe with mailbox := [] }, out := s.out ++ [.spdmError 0x04] }) := by
  rw [exec_negotiateAlgorithms, mailed_fits hopen herr _ hreq hlen]
  refine ⟨fun hcaps => ⟨_, (exec_negotiateAlgorithms s).trans (congrArg _ (mailed_fits hopen herr _ hreq hlen)), ?_⟩, fun hcaps => congrArg _ ?_⟩
  · unfold spdmAlgs
    dsimp only
    rw [if_neg (by simp [hcaps])]
    exact ⟨_, rfl⟩
  · exact if_pos (by simp [hcaps])

end

/-! ### Certificates -/

theorem onlyDraws_spdmSign (purpose : String) (transcript : Bytes) (s : State) : OnlyDraws s (spdmSign purpose transcript s).2 := by
  unfold spdmSign
  split
  · exact onlyDraws_ecdsaDraw _ _ _ _ _
  · exact .refl s

section
variable {s : State} (hopen : doeOpen s = true) (herr : s.doe.error = false) (halgs : s.doe.algs = true)
include hopen herr halgs

/-- A message of a negotiated connection. -/
theorem connected_fits {n : Nat} (k : State → State) (h : n ≤ 16376) : object n (negotiated k) s = k s ∧ whileOpen (negotiated k) s = k s := by
  rw [object_fits hopen herr _ h, whileOpen_open hopen herr]
  exact ⟨if_pos halgs, if_pos halgs⟩

theorem digests_does :
    (s.sc.certBank = true → exec .getDigests s = .next { s with out := s.out ++ [.doe ([0x12, 0x01, 0, 1] ++ sha384 Config.spdmChain)] }) ∧
    (s.sc.certBank = false → exec .getDigests s = .next { s with out := s.out ++ [.doe [0x12, 0x01, 0, 0]] }) := by
  obtain ⟨-, hgo⟩ := connected_fits hopen herr halgs (n := 0) spdmDigests (by decide)
  rw [exec_getDigests, hgo]
  exact ⟨fun h => congrArg _ (if_pos h), fun h => congrArg _ (if_neg (ne_true_of_eq_false h))⟩

theorem certificate_does (off len : Nat) :
    (s.sc.certBank = true → Does (.getCertificate off len) s (fun t => ∃ hd, hd.length = 8 ∧ t = { s with out := s.out ++ [.doe (hd ++ sliceOf Config.spdmChain off len)] })) ∧
    (s.sc.certBank = false → exec (.getCertificate off len) s = .next { s with out := s.out ++ [.spdmError 0x01] }) := by
  obtain ⟨-, hgo⟩ := connected_fits hopen herr halgs (n := 0) (spdmCertificate off len) (by decide)
  have hdo := (exec_getCertificate off len s).trans (congrArg _ hgo)
  refine ⟨fun h => ⟨_, hdo, ?_⟩, fun h => hdo.trans (congrArg _ (if_pos (by simp [h])))⟩
  unfold spdmCertificate
  dsimp only
  rw [if_neg (by simp [h])]
  refine ⟨_, ?_, rfl⟩
  simp [leBytes_length]

theorem challenge_does {nonce : Bytes} (hlen : nonce.length ≤ 16371) :
    (s.sc.certBank = true → Does (.spdmChallenge nonce) s (fun t => t.doe = s.doe ∧ t.sc = s.sc ∧
      ∃ r, t.out = s.out ++ [.doe ([0x12, 0x03, 0, 1] ++ (sha384 Config.spdmChain ++ r))])) ∧
    (s.sc.certBank = false → exec (.spdmChallenge nonce) s = .next { s with out := s.out ++ [.spdmError 0x01] }) := by
  obtain ⟨hgo, -⟩ := connected_fits hopen herr halgs (n := 4 + nonce.length) (spdmChallenge nonce) (by omega)
  have hdo := (exec_spdmChallenge nonce s).trans (congrArg _ hgo)
  refine ⟨fun h => ⟨_, hdo, ?_⟩, fun h => hdo.trans (congrArg _ (if_pos (by simp [h])))⟩
  unfold spdmChallenge
  rw [if_neg (by simp [h])]
  dsimp only
  have hanswer : ∀ g : Bytes × State, OnlyDraws (drawBytes 32 s).2 g.2 →
      (answer ([0x12, 0x03, 0, 1] ++ sha384 Config.spdmChain ++ (drawBytes 32 s).1 ++ zeros 2 ++ g.1) g.2).doe = s.doe ∧
      (answer ([0x12, 0x03, 0, 1] ++ sha384 Config.spdmChain ++ (drawBytes 32 s).1 ++ zeros 2 ++ g.1) g.2).sc = s.sc ∧
      ∃ r, (answer ([0x12, 0x03, 0, 1] ++ sha384 Config.spdmChain ++ (drawBytes 32 s).1 ++ zeros 2 ++ g.1) g.2).out =
        s.out ++ [.doe ([0x12, 0x03, 0, 1] ++ (sha384 Config.spdmChain ++ r))] := by
    rintro ⟨sig, t⟩ ⟨ht, -⟩
    dsimp only at ht ⊢
    rw [ht]
    refine ⟨rfl, rfl, (drawBytes 32 s).1 ++ (zeros 2 ++ sig), ?_⟩
    simp only [answer, emit, List.append_assoc]
    rfl
  exact hanswer _ (onlyDraws_spdmSign _ _ _)

/-! ### Measurements -/

/-- The answer of an unsigned request, and what it holds behind its header. -/
theorem measure_does {nonce : Bytes} (hlen : nonce.length ≤ 16371) {index : Nat} {bs : List Bytes} (hindex : index = 0xFF ∨ index ≤ 6)
    (hbs : bs = if index == 0xFF then measurements s else if index == 0 then [] else ((measurements s).drop (index - 1)).take 1) :
    Does (.getMeasurements index false nonce) s (fun t => t.doe = s.doe ∧ ∃ hd r, hd.length = 8 ∧ t.out = s.out ++ [.doe (hd ++ (bs.flatten ++ r))]) := by
  obtain ⟨hgo, -⟩ := connected_fits hopen herr halgs (n := 5 + nonce.length) (spdmMeasure index false nonce) (by omega)
  refine ⟨_, (exec_getMeasurements index false nonce s).trans (congrArg _ hgo), ?_⟩
  unfold spdmMeasure
  dsimp only
  rw [← hbs, if_neg (by rcases hindex with h | h <;> simp [h])]
  refine ⟨rfl, [0x12, 0x60, byteOf (if index == 0 then 6 else 0), 0, byteOf bs.length] ++ leBytes 3 bs.flatten.length, (drawBytes 32 s).1 ++ zeros 2, ?_, ?_⟩
  · simp [leBytes_length]
  · simp only [answer, emit, List.append_assoc]
    rfl

theorem measurement_unknown {nonce : Bytes} (hlen : nonce.length ≤ 16371) : exec (.getMeasurements 7 false nonce) s = .next { s with out := s.out ++ [.spdmError 0x01] } := by
  obtain ⟨hgo, -⟩ := connected_fits hopen herr halgs (n := 5 + nonce.length) (spdmMeasure 7 false nonce) (by omega)
  rw [exec_getMeasurements, hgo]
  rfl

theorem oneMeasurement_does {nonce : Bytes} (hlen : nonce.length ≤ 16371) {i : Nat} (hi : i < 6) : Does (.getMeasurements (i + 1) false nonce) s (fun t =>
    t.doe = s.doe ∧ ∃ b hd r, (measurements s)[i]? = some b ∧ hd.length = 8 ∧ t.out = s.out ++ [.doe (hd ++ (b ++ r))]) := by
  have hin : i < (measurements s).length := hi
  have hone : ((measurements s).drop i).take 1 = [(measurements s)[i]] := by rw [List.drop_eq_getElem_cons hin]; rfl
  have hbs : [(measurements s)[i]] = if i + 1 == 0xFF then measurements s else if i + 1 == 0 then [] else ((measurements s).drop (i + 1 - 1)).take 1 := by
    rw [if_neg (by simp; omega), if_neg (by simp), Nat.add_sub_cancel, hone]
  obtain ⟨t, ht, hdoe, hd, r, hlength, hout⟩ := measure_does hopen herr halgs hlen (.inr hi) hbs
  exact ⟨t, ht, hdoe, _, hd, r, List.getElem?_eq_getElem hin, hlength, by rw [hout, List.flatten_cons, List.flatten_nil, List.append_nil]⟩

end

/-- Settles O13: each message by the gate that it passes and by what its answer holds. -/
theorem mailboxAndCertificates : Obligations.MailboxAndCertificates := by
  refine ⟨⟨fun req s hopen herr hreq hlen => ?_, fun req s hopen herr hlong => ⟨fun hreq => ?_, ?_⟩, fun s hopen => ?_, fun s h => ?_⟩, fun nonce s hopen herr halgs hlen => ?_⟩
  · obtain ⟨hcaps, hnocaps⟩ := caps_does hopen herr hreq hlen
    obtain ⟨halgs, hnoalgs⟩ := algs_does hopen herr hreq hlen
    exact ⟨version_does hopen herr, hcaps, hnocaps, halgs, hnoalgs, fun i => congrArg _ (whileOpen_open hopen herr _), fun code => congrArg _ (whileOpen_open hopen herr _)⟩
  · rw [exec_getCapabilities, mailed, hreq, object_long hopen herr _ hlong]
  · rw [exec_keyExchange, object_long hopen herr _ hlong]
  · rw [exec_doeAbort, if_pos hopen]
  · exact ⟨congrArg _ (whileOpen_shut _ h), congrArg _ (mailed_shut _ h), congrArg _ (mailed_shut _ h), congrArg _ (whileOpen_shut _ h), congrArg _ (whileOpen_shut _ h)⟩
  · obtain ⟨hdigests, hnodigests⟩ := digests_does hopen herr halgs
    obtain ⟨hchallenge, hnochallenge⟩ := challenge_does hopen herr halgs hlen
    refine ⟨fun hbank => ⟨hdigests hbank, fun off len => (certificate_does hopen herr halgs off len).1 hbank, hchallenge hbank⟩,
      fun hbank => ⟨hnodigests hbank, fun off len => (certificate_does hopen herr halgs off len).2 hbank, hnochallenge hbank⟩,
      measure_does hopen herr halgs hlen (.inl rfl) rfl, fun i => oneMeasurement_does hopen herr halgs hlen, measurement_unknown hopen herr halgs hlen⟩

end Sys2Proof.Machine

/-!
PROOFS. SPDM sessions and IDE streams (spec/05, R137, R139, R140): how a session starts, is established and ends, and what the requests inside it do to the
streams.
-/
namespace Sys2Proof.Machine
set_option Elab.async false -- as in Laws: the one text has more theorems than threads

theorem exec_finish (n : Nat) (mac : Bytes) (s : State) : exec (.finish n mac) s = .next (object (4 + mac.length) (spdmFinish n mac) s) := rfl
theorem exec_endSession (n : Nat) (s : State) : exec (.endSession n) s = .next (whileOpen (spdmEnd n) s) := rfl
theorem exec_ideKmQuery (n : Nat) (s : State) : exec (.ideKmQuery n) s = .next (whileOpen (ideQuery n) s) := rfl
theorem exec_ideKmKeyProg (n : Nat) (p : IdeSlot) (s : State) : exec (.ideKmKeyProg n p) s = .next (whileOpen (ideProg n p) s) := rfl
theorem exec_ideKmKSetGo (n : Nat) (p : IdeSlot) (s : State) : exec (.ideKmKSetGo n p) s = .next (whileOpen (ideGo n p) s) := rfl
theorem exec_ideKmKSetStop (n : Nat) (p : IdeSlot) (s : State) : exec (.ideKmKSetStop n p) s = .next (whileOpen (ideStop n p) s) := rfl
theorem exec_ideIntegrityFailure (f : IdeLoss) (s : State) : exec (.ideIntegrityFailure f) s = .next (ideFail f.stream f.lost s) := rfl

/-! ### KEY_EXCHANGE -/

section
variable {req : Bytes} {s : State} (hbank : s.sc.certBank = true) (hslot : byteAt req 3 = 0)
include hbank hslot

theorem spdmExchange_first (hnone : s.doe.sessions = []) : spdmExchange req s =
    match spdmAgree (exchangeData req) s with
    | none => refuse spdmInvalid s
    | some (z, own, u) =>
      let r := drawBytes 32 u
      let summary := if byteAt req 2 == 0 then [] else sha384 (measurements s).flatten
      let body := [0x12, 0x64, 0, 0] ++ leBytes 2 0 ++ [0, 0] ++ r.1 ++ own ++ summary ++ zeros 2
      let t := s.doe.vca ++ sha384 Config.spdmChain ++ req ++ body
      let g := spdmSign "responder-key_exchange_rsp signing" t r.2
      let k := handshakeKeys 0 (fieldLE req 4 2 + 65536 * 0) z (t ++ g.1)
      let v := spdmMac (finishedKey k.response) (sha384 k.transcript)
      let k := { k with transcript := k.transcript ++ v }
      answer (body ++ g.1 ++ v) { g.2 with doe := { g.2.doe with sessions := g.2.doe.sessions ++ [(0, false)], secrets := g.2.doe.secrets ++ [k] } } := by
  unfold spdmExchange
  rw [hbank, hslot, hnone]
  rfl

theorem spdmExchange_third {a b : Bool} (hboth : s.doe.sessions = [(0, a), (1, b)]) : spdmExchange req s = refuse spdmLimit s := by
  unfold spdmExchange
  rw [hbank, hslot, hboth]
  rfl

end

theorem spdmAgree_draws {peer z own : Bytes} {s u : State} (h : spdmAgree peer s = some (z, own, u)) : OnlyDraws s u := by
  unfold spdmAgree at h
  split at h
  · cases h
  · split at h
    · cases h
    · injection h with h
      obtain ⟨-, hrest⟩ := Prod.mk.inj h
      obtain ⟨-, rfl⟩ := Prod.mk.inj hrest
      exact onlyDraws_drawBytes _ s

theorem exchange_does {req : Bytes} {s : State} (hopen : doeOpen s = true) (herr : s.doe.error = false) (hlen : req.length ≤ 16376) (halgs : s.doe.algs = true)
    (hbank : s.sc.certBank = true) :
    (byteAt req 3 = 0 → s.doe.sessions = [] → (spdmAgree (exchangeData req) s).isSome = true →
      Does (.keyExchange req) s (fun t => t.doe.sessions = [(0, false)] ∧ t.doe.streams = s.doe.streams ∧ t.sc = s.sc ∧ ∃ a, t.out = s.out ++ [.doe a])) ∧
    (byteAt req 3 = 0 → s.doe.sessions = [] → spdmAgree (exchangeData req) s = none → exec (.keyExchange req) s = .next { s with out := s.out ++ [.spdmError 0x01] }) ∧
    (∀ a b : Bool, byteAt req 3 = 0 → s.doe.sessions = [(0, a), (1, b)] → exec (.keyExchange req) s = .next { s with out := s.out ++ [.spdmError 0x0A] }) := by
  obtain ⟨hgo, -⟩ := connected_fits hopen herr halgs (spdmExchange req) hlen
  have hdo := (exec_keyExchange req s).trans (congrArg _ hgo)
  refine ⟨fun hslot hnone hagree => ⟨_, hdo, ?_⟩, fun hslot hnone hagree => ?_, fun a b hslot hboth => ?_⟩
  · obtain ⟨⟨z, own, u⟩, hagree⟩ := Option.isSome_iff_exists.1 hagree
    have hanswer : ∀ (b : Bytes) (k : SpdmKeys) (t : State), OnlyDraws s t →
        (answer b { t with doe := { t.doe with sessions := t.doe.sessions ++ [(0, false)], secrets := t.doe.secrets ++ [k] } }).doe.sessions = [(0, false)] ∧
        (answer b { t with doe := { t.doe with sessions := t.doe.sessions ++ [(0, false)], secrets := t.doe.secrets ++ [k] } }).doe.streams = s.doe.streams ∧
        (answer b { t with doe := { t.doe with sessions := t.doe.sessions ++ [(0, false)], secrets := t.doe.secrets ++ [k] } }).sc = s.sc ∧
        ∃ a, (answer b { t with doe := { t.doe with sessions := t.doe.sessions ++ [(0, false)], secrets := t.doe.secrets ++ [k] } }).out = s.out ++ [.doe a] := by
      rintro b k t ⟨ht, -⟩
      rw [ht]
      refine ⟨?_, rfl, rfl, b, rfl⟩
      show s.doe.sessions ++ [(0, false)] = _
      rw [hnone]
      rfl
    rw [spdmExchange_first hbank hslot hnone, hagree]
    exact hanswer _ _ _ ((spdmAgree_draws hagree).trans ((onlyDraws_drawBytes 32 u).trans (onlyDraws_spdmSign _ _ _)))
  · rw [hdo, spdmExchange_first hbank hslot hnone, hagree]
    rfl
  · rw [hdo, spdmExchange_third hbank hslot hboth]
    rfl

/-! ### The requests of a session -/

theorem opened_empty {n : Nat} {body : Bytes} {k : State → State} {s : State} (h : s.doe.mailbox = []) : opened n body k s = k (counted n s) := if_pos (by rw [h]; rfl)

/-- A record in the mailbox is opened under the session's keys. -/
theorem opened_record {n : Nat} {body : Bytes} {k : State → State} {s : State} (h : s.doe.mailbox ≠ []) : opened n body k s =
    match openRequest (secretsOf s n) s.doe.mailbox with
    | none => refuse spdmDecrypt (dropSession n { s with doe := { s.doe with mailbox := [] } })
    | some b => if b == body then k (counted n s) else refuse spdmInvalid (counted n s) := if_neg (by simpa using h)

/-- To take a request counts it, and changes nothing else of the session's secrets. -/
theorem secretsOf_counted (n : Nat) (s : State) : ∃ r, secretsOf (counted n s) n = { secretsOf s n with received := r } := by
  unfold secretsOf
  rw [show (counted n s).doe.secrets = modFirst (fun k => k.session == n) (fun k => { k with received := k.received + 1 }) s.doe.secrets from rfl,
    find_modFirst (fun k : SpdmKeys => k.session == n) (fun k => { k with received := k.received + 1 }) (fun _ hk => hk)]
  cases s.doe.secrets.find? (fun k => k.session == n) with
  | none => exact ⟨0, rfl⟩
  | some k => exact ⟨_, rfl⟩

theorem finishMac_counted (n : Nat) (s : State) : finishMac (counted n s) n = finishMac s n := by
  obtain ⟨r, hr⟩ := secretsOf_counted n s
  unfold finishMac
  rw [hr]

/-- A session that is dropped is gone, and its streams are Insecure. -/
theorem dropSession_drops (n : Nat) (s : State) : (∀ x ∈ (dropSession n s).doe.sessions, x.1 ≠ n) ∧ (∀ x ∈ (dropSession n s).doe.streams, x.session = n → x.secure = false) := by
  refine ⟨fun x hx => by simpa using (List.mem_filter.1 hx).2, fun x hx hn => ?_⟩
  obtain ⟨y, -, rfl⟩ := List.mem_map.1 hx
  by_cases hy : (y.session == n) = true
  · rw [if_pos hy]
  · rw [if_neg hy] at hn
    exact absurd (beq_iff_eq.2 hn) hy

theorem finish_does {n : Nat} {mac : Bytes} {s : State} (hopen : doeOpen s = true) (herr : s.doe.error = false) (hlen : mac.length ≤ 16372) (hempty : s.doe.mailbox = [])
    (hsession : s.doe.sessions.contains (n, false) = true) :
    (mac = finishMac s n →
      Does (.finish n mac) s (fun t => t.doe.sessions = s.doe.sessions.map (fun x => if x.1 = n then (n, true) else x) ∧ t.doe.streams = s.doe.streams)) ∧
    (mac ≠ finishMac s n → Does (.finish n mac) s (fun t => (∀ x ∈ t.doe.sessions, x.1 ≠ n) ∧ (∀ x ∈ t.doe.streams, x.session = n → x.secure = false))) := by
  have hgo : spdmFinish n mac s = if mac != finishMac s n then refuse spdmDecrypt (dropSession n (counted n s))
      else establish n mac (answerIn n [0x12, 0x65, 0, 0] (counted n s)) := by
    unfold spdmFinish
    rw [hsession, opened_empty hempty, finishMac_counted]
    rfl
  have hdo := (exec_finish n mac s).trans (congrArg _ ((object_fits hopen herr _ (by omega)).trans hgo))
  refine ⟨fun hmac => ⟨_, hdo.trans (congrArg _ (if_neg (by simp [hmac]))), ?_, rfl⟩, fun hmac => ⟨_, hdo.trans (congrArg _ (if_pos (by simpa using hmac))), ?_⟩⟩
  · exact List.map_congr_left fun x _ => by simp
  · exact dropSession_drops n (counted n s)

section
variable {n : Nat} {s : State} (hopen : doeOpen s = true) (herr : s.doe.error = false)
include hopen herr

theorem whileOpen_inSession (body : Bytes) (k : State → State) (hsession : s.doe.sessions.contains (n, true) = true) :
    whileOpen (inSession n body k) s = opened n body k s := (whileOpen_open hopen herr _).trans (if_pos hsession)

theorem whileOpen_noSession (body : Bytes) (k : State → State) (hsession : s.doe.sessions.contains (n, true) = false) :
    whileOpen (inSession n body k) s = { s with out := s.out ++ [.spdmError 0x02] } := (whileOpen_open hopen herr _).trans (if_neg (ne_true_of_eq_false hsession))

theorem endSession_does (hsession : s.doe.sessions.contains (n, true) = true)
    (hmail : s.doe.mailbox = [] ∨ openRequest (secretsOf s n) s.doe.mailbox = none ∨ openRequest (secretsOf s n) s.doe.mailbox = some [0x12, 0xEC, 0, 0]) :
    Does (.endSession n) s (fun t => (∀ x ∈ t.doe.sessions, x.1 ≠ n) ∧ (∀ x ∈ t.doe.streams, x.session = n → x.secure = false) ∧ t.doe.mailbox = [] ∧
      (s.doe.mailbox ≠ [] → openRequest (secretsOf s n) s.doe.mailbox = none → t.out = s.out ++ [.spdmError 0x06])) := by
  have hdo := (exec_endSession n s).trans (congrArg _ (whileOpen_inSession hopen herr [0x12, 0xEC, 0, 0] (fun s => dropSession n (answerIn n [0x12, 0x6C, 0, 0] s)) hsession))
  obtain ⟨hsessions, hstreams⟩ := dropSession_drops n (answerIn n [0x12, 0x6C, 0, 0] (counted n s))
  by_cases hempty : s.doe.mailbox = []
  · exact ⟨_, hdo.trans (congrArg _ (opened_empty hempty)), hsessions, hstreams, rfl, fun h => absurd hempty h⟩
  · rw [opened_record hempty] at hdo
    rcases hmail.resolve_left hempty with hnone | hsome
    · rw [hnone] at hdo
      obtain ⟨hsessions, hstreams⟩ := dropSession_drops n { s with doe := { s.doe with mailbox := [] } }
      exact ⟨_, hdo, hsessions, hstreams, rfl, fun _ _ => rfl⟩
    · rw [hsome] at hdo
      exact ⟨_, hdo, hsessions, hstreams, rfl, fun _ h => by rw [hsome] at h; cases h⟩

/-- A request of a session whose mailbox holds no record, taken. -/
theorem taken (body : Bytes) (k : State → State) (hempty : s.doe.mailbox = []) (hsession : s.doe.sessions.contains (n, true) = true) :
    whileOpen (inSession n body k) s = k (counted n s) := (whileOpen_inSession hopen herr body k hsession).trans (opened_empty hempty)

/-! ### IDE key management -/

section
variable (hempty : s.doe.mailbox = []) (hsession : s.doe.sessions.contains (n, true) = true)
include hempty hsession

theorem keyProg_does {p : IdeSlot} (hset : p.keySet ≤ 1) (hsub : p.sub ≤ 2) (hstream : p.stream ≤ 255) (hnone : s.doe.streams = []) :
    (p.key.length = 32 → p.iv.length = 8 → Does (.ideKmKeyProg n p) s (fun t => t.doe.streams =
      [{ id := p.stream, session := n, keys := [(p.keySet, p.sub, p.rx)], mats := [((p.keySet, p.sub, p.rx), p.key, p.iv)] }] ∧ t.out.length = s.out.length + 1)) ∧
    (p.key.length ≠ 32 ∨ p.iv.length ≠ 8 → Does (.ideKmKeyProg n p) s (fun t => t.doe.streams = [] ∧ t.out.length = s.out.length + 1)) := by
  have hdo := (exec_ideKmKeyProg n p s).trans (congrArg _ (taken hopen herr (ideRequest 2 p) _ hempty hsession))
  have hstreams : (counted n s).doe.streams = [] := hnone
  refine ⟨fun hkey hiv => ⟨_, hdo, ?_⟩, fun hbad => ⟨_, hdo, ?_⟩⟩ <;> dsimp only <;> rw [hstreams]
  · rw [if_neg (by simp; omega), if_neg (by simp [hkey, hiv])]
    refine ⟨?_, List.length_append⟩
    show modFirst (fun (x : IdeStream) => x.id == p.stream) _ [{ id := p.stream, session := n }] = _
    simp [modFirst, ideKey, ideMats]
  · rw [if_neg (by simp; omega), if_pos (by simpa using hbad)]
    exact ⟨hnone, List.length_append⟩

theorem query_does (hnone : s.doe.streams = []) : Does (.ideKmQuery n) s (fun t => t.doe.streams = s.doe.streams ∧ t.doe.sessions = s.doe.sessions ∧
    t.out = s.out ++ [.doe (sealAnswer (secretsOf s n) (vendorMsg 0x7E [1, 0, 8]))]) := by
  have hdo := (exec_ideKmQuery n s).trans (congrArg _ (taken hopen herr (vendorMsg 0xFE [0, 0, 0]) _ hempty hsession))
  have hstreams : (counted n s).doe.streams = [] := hnone
  refine ⟨_, hdo, rfl, rfl, ?_⟩
  obtain ⟨r, hr⟩ := secretsOf_counted n s
  show s.out ++ [.doe (sealAnswer (secretsOf (counted n s) n) (vendorMsg 0x7E ([1, 0, 8] ++ (counted n s).doe.streams.flatMap (fun (x : IdeStream) => [byteOf x.id, byteOf (bitAt x.secure 0)]))))] = _
  rw [hr, hstreams]
  rfl

theorem setGo_does {p : IdeSlot} {x : IdeStream} (hone : s.doe.streams = [x]) (hid : x.id = p.stream) (hkey : x.keys.contains (ideKey p) = true) :
    Does (.ideKmKSetGo n p) s (fun t => ∃ y, t.doe.streams = [y] ∧ y.active.contains (ideKey p) = true ∧ y.secure = allActive y ∧ y.keys = x.keys) := by
  have hdo := (exec_ideKmKSetGo n p s).trans (congrArg _ (taken hopen herr (ideRequest 4 p) _ hempty hsession))
  have hstreams : (counted n s).doe.streams = [x] := hone
  refine ⟨_, hdo, ?_⟩
  dsimp only
  rw [hstreams, modFirst, if_pos (beq_iff_eq.2 hid)]
  rw [if_pos hkey]
  exact ⟨_, rfl, by simp, rfl, rfl⟩

theorem setStop_does {p : IdeSlot} {x : IdeStream} (hone : s.doe.streams = [x]) (hid : x.id = p.stream) (hactive : x.active.contains (ideKey p) = true) :
    Does (.ideKmKSetStop n p) s (fun t => ∃ y, t.doe.streams = [y] ∧ y.active.contains (ideKey p) = false ∧ y.secure = false) := by
  have hdo := (exec_ideKmKSetStop n p s).trans (congrArg _ (taken hopen herr (ideRequest 5 p) _ hempty hsession))
  have hstreams : (counted n s).doe.streams = [x] := hone
  refine ⟨_, hdo, ?_⟩
  dsimp only
  rw [hstreams, modFirst, if_pos (beq_iff_eq.2 hid)]
  rw [if_pos hactive]
  exact ⟨_, rfl, by simp, rfl⟩

end

/-! ### An integrity failure -/

omit hopen herr in
theorem ideFail_secure {x : IdeStream} (hone : s.doe.streams = [x]) (hsecure : x.secure = true) (lost : Option Nat) : ideFail x.id lost s =
    match lost with
    | some id => jobDmaFault id { s with doe := { s.doe with streams := [{ x with secure := false }] } }
    | none => { s with doe := { s.doe with streams := [{ x with secure := false }] } } := by
  have hinsecure : ideInsecure x.id s = { s with doe := { s.doe with streams := [{ x with secure := false }] } } := by
    unfold ideInsecure
    rw [hone, modFirst, if_pos (beq_self_eq_true x.id)]
  unfold ideFail
  rw [if_neg (by simp [hone, hsecure]), hinsecure] <;> cases lost <;> rfl

end

/-- Settles O14: each request by its gate (the mailbox, the session, the record) and by what it does behind it. -/
theorem sessionsAndIdeStreams : Obligations.SessionsAndIdeStreams := by
  refine ⟨⟨fun req s hopen herr hlen halgs hbank => exchange_does hopen herr hlen halgs hbank, fun n mac s hopen herr hlen hempty hsession => finish_does hopen herr hlen hempty hsession,
      fun n s hopen herr hsession hmail => endSession_does hopen herr hsession hmail, fun n s hopen herr hsession => congrArg _ (whileOpen_noSession hopen herr _ _ hsession)⟩,
    fun n p s hopen herr hempty hsession hset hsub hstream hnone => ?_, fun n p x s hopen herr hempty hsession hone hid hkey => ?_, fun n p s hopen herr hsession => ?_,
    fun x u s hone hsecure hu => ?_⟩
  · obtain ⟨hgood, hbad⟩ := keyProg_does hopen herr hempty hsession hset hsub hstream hnone
    exact ⟨hgood, hbad, query_does hopen herr hempty hsession hnone⟩
  · exact ⟨setGo_does hopen herr hempty hsession hone hid hkey, fun hactive => setStop_does hopen herr hempty hsession hone hid hactive⟩
  · exact ⟨congrArg _ (whileOpen_noSession hopen herr _ _ hsession), congrArg _ (whileOpen_noSession hopen herr _ _ hsession),
      congrArg _ (whileOpen_noSession hopen herr _ _ hsession), congrArg _ (whileOpen_noSession hopen herr _ _ hsession)⟩
  · rw [hu]
    exact ⟨(exec_ideIntegrityFailure _ s).trans (congrArg _ (ideFail_secure hone hsecure none)),
      fun id => (exec_ideIntegrityFailure _ s).trans (congrArg _ (ideFail_secure hone hsecure (some id)))⟩

end Sys2Proof.Machine

/-!
PROOFS. The admin queue's gate (spec/04, spec/06, R108, R169 to R171): how a command starts, which shared check it fails first, and how its answer becomes its
completion.
-/
namespace Sys2Proof.Machine
set_option Elab.async false -- as in Laws: the one text has more theorems than threads

/-! ### A command starts -/

theorem linkOnly_bufRead {b s : State} (f : Fn) (e : Bytes) (h : LinkOnly b s) : LinkOnly b (bufRead f e s) := linkOnly_ite h (linkOnly_postRead _ _ _ h)

/-- To start a command changes nothing of the configuration. -/
theorem entryTaken_eph (f : Fn) (s : State) : (entryTaken f s).eph = s.eph := by
  show (fetchRead f 0xFFFF s).eph = s.eph
  rw [show LinkOnly s (fetchRead f 0xFFFF s) from linkOnly_fetchRead f 0xFFFF (.refl s)]

theorem commandTaken_eph (a : AdminIn) (e : Bytes) (s : State) : (commandTaken a e s).eph = s.eph := by
  rw [show LinkOnly (entryTaken a.fn s) (commandTaken a e s) from linkOnly_bufRead a.fn e (.refl _)]
  exact entryTaken_eph a.fn s

/-- An entry without a row reads no buffer. -/
theorem commandTaken_unknown {a : AdminIn} {e : Bytes} (s : State) (h : rowCode e = none) : commandTaken a e s = entryTaken a.fn s := by
  unfold commandTaken bufRead bufReadLen
  rw [h]
  rfl

theorem sliceZ_whole {e : Bytes} {n : Nat} (h : e.length = n) : sliceZ e 0 n = e := by
  unfold sliceZ sliceOf
  rw [List.drop_zero, List.take_of_length_le (by omega)]
  simp [h, zeros]

/-- A command that its function can start, of the row or of none. -/
theorem adminRun_starts {row : Nat} {body : Bytes → AdminIn → State → AdminRes} {a : AdminIn} {e : Bytes} {q : Sq} {s : State} (hq : s.sq? a.fn 0xFFFF = some q)
    (hcan : adminCanStart s a.fn q = true) (hentry : a.entry = some e) (hlen : e.length = 64) (hrow : rowCode e = some row ∨ rowCode e = none) :
    adminRun row body a s = adminFinish a.fn (aTag e) (commandTaken a e s)
      (adminGate (commandTaken a e s) a.fn e (fun _ => if (rowCode e).isNone then unknownSub e else body e a (commandTaken a e s))) := by
  unfold adminRun
  rw [hq]
  dsimp only
  rw [hcan, hentry]
  dsimp only
  rw [sliceZ_whole hlen]
  have hpass : ¬(!(rowCode e == some row || (rowCode e).isNone)) = true := by rcases hrow with h | h <;> simp [h]
  exact (if_neg (by decide)).trans (if_neg hpass)

/-! ### The gate -/

section
variable {f : Fn} {e : Bytes} {s : State} (k : Unit → AdminRes)

theorem adminGate_unknownOp (h : adminOp (aOp e) = false) : adminGate s f e k = aBad 0x01 := if_pos (by rw [h]; rfl)

variable (hop : adminOp (aOp e) = true) (hfn : 16 ≤ aOp e → f = .pf0)
include hop hfn

/-- Behind the first check, the other two. -/
theorem adminGate_known : adminGate s f e k = if (!s.eph.configured && !(unconfOk e)) = true then aFail .algorithmDisabled 0x40 else if (!(reservedOk e)) = true then aBad 0x02 else k () := by
  refine if_neg ?_
  by_cases h : 16 ≤ aOp e <;> simp [hop, h]
  exact hfn h

end

/-- An opcode of the table's rows is one of the admin table. -/
theorem adminOp_of_row {e : Bytes} {row : Nat} (h : rowCode e = some row) : adminOp (aOp e) = true := by
  cases hop : adminOp (aOp e) with
  | true => rfl
  | false =>
    have hout : ¬(1 ≤ aOp e ∧ aOp e ≤ 0x0D ∨ 0x10 ≤ aOp e ∧ aOp e ≤ 0x16) := by simpa [adminOp] using hop
    unfold rowCode at h
    dsimp only at h
    simp only [beq_iff_eq, Bool.or_eq_true, Bool.and_eq_true, decide_eq_true_eq] at h
    rw [if_neg (by omega), if_neg (by omega), if_neg (by omega), if_neg (by omega), if_neg (by omega), if_neg hout] at h
    cases h

/-! ### The rows -/

theorem adminRun_ready {row : Nat} {body : Bytes → AdminIn → State → AdminRes} {a : AdminIn} {e : Bytes} {s : State} (h : AdminReady row a e s) :
    adminRun row body a s = adminFinish a.fn (aTag e) (commandTaken a e s) (body e a (commandTaken a e s)) := by
  obtain ⟨⟨q, hq, hcan⟩, hentry, hlen, hrow, hfn, hconf, hres⟩ := h
  have heph := commandTaken_eph a e s
  rw [adminRun_starts hq hcan hentry hlen (.inl hrow), adminGate_known _ (adminOp_of_row hrow) hfn, heph, if_neg (by rcases hconf with h | h <;> simp [h]), if_neg (by simp [hres]),
    hrow]
  rfl

/-- A command that runs a body as its row answers as its body does. -/
theorem adminRow_of_run {c : AdminIn → Instr} {row : Nat} {body : Bytes → AdminIn → State → AdminRes} (hexec : ∀ a s, exec (c a) s = .next (adminRun row body a s)) :
    AdminRow c row body := by
  intro a e s h
  rw [hexec, adminRun_ready h]
  refine ⟨fun n inl t hbody => ?_, fun st detail need hbody => ?_, fun w t hbody => ?_⟩ <;> rw [hbody]
  · rfl
  · refine ⟨if st == .outputTooSmall then need else 0, failInline detail need, fun h0 => ?_, rfl⟩
    rw [h0]
    rfl
  · rfl

/-! ### The shared checks -/

section
variable {a : AdminIn} {e : Bytes} {q : Sq} {s : State} (hq : s.sq? a.fn 0xFFFF = some q) (hcan : adminCanStart s a.fn q = true) (hentry : a.entry = some e)
  (hlen : e.length = 64) (hrow : rowCode e = none)
include hq hcan hentry hlen hrow

theorem exec_identify_unknown : exec (.identify a) s = .next (adminFinish a.fn (aTag e) (entryTaken a.fn s) (adminGate (entryTaken a.fn s) a.fn e (fun _ => unknownSub e))) := by
  show Host.Outcome.next (adminRun 0x0100 adminIdentify a s) = _
  rw [adminRun_starts hq hcan hentry hlen (.inr hrow), commandTaken_unknown s hrow, hrow]
  rfl

theorem unknown_answers :
    (adminOp (aOp e) = false → exec (.identify a) s = .next (writeCompletion a.fn 0xFFFF none false
      { tag := aTag e, status := .malformedDescriptor, inline := [0x01] } (entryTaken a.fn s))) ∧
    (adminOp (aOp e) = true → aOp e < 16 → s.eph.configured = false → unconfOk e = false → exec (.identify a) s = .next (writeCompletion a.fn 0xFFFF none false
      { tag := aTag e, status := .algorithmDisabled, inline := [0x40] } (entryTaken a.fn s))) ∧
    (adminOp (aOp e) = true → aOp e < 16 → s.eph.configured = true → reservedOk e = false → exec (.identify a) s = .next (writeCompletion a.fn 0xFFFF none false
      { tag := aTag e, status := .malformedDescriptor, inline := [0x02] } (entryTaken a.fn s))) := by
  rw [exec_identify_unknown hq hcan hentry hlen hrow]
  refine ⟨fun hop => ?_, fun hop hlow hconf hun => ?_, fun hop hlow hconf hres => ?_⟩
  · rw [adminGate_unknownOp _ hop]
    rfl
  · rw [adminGate_known _ hop (by omega), entryTaken_eph, if_pos (by simp [hconf, hun])]
    rfl
  · rw [adminGate_known _ hop (by omega), entryTaken_eph, if_neg (by simp [hconf]), if_pos (by simp [hres])]
    rfl

end

/-- Settles O23: every row runs its body behind the gate, and an entry of no row fails with the first shared check. -/
theorem adminCommandsPassTheGateAndAnswer : Obligations.AdminCommandsPassTheGateAndAnswer := by
  refine ⟨?_, fun a e q s hq hcan hentry hlen hrow => unknown_answers hq hcan hentry hlen hrow⟩
  refine ⟨?_, ?_, ?_, ?_, ?_, ?_, ?_, ?_, ?_, ?_, ?_, ?_, ?_, ?_, ?_, ?_, ?_, ?_, ?_, ?_, ?_, ?_, ?_, ?_, ?_, ?_, ?_, ?_, ?_, ?_⟩ <;> exact adminRow_of_run fun _ _ => rfl

end Sys2Proof.Machine

/-!
PROOFS. A dispatched job's run (spec/07, R185 to R193, R225): a run that reads all its input and meets no fault ends as its service's result says; the rows of
families 0x10 to 0x15, 0x20 to 0x23, 0x30 to 0x32 and 0x40 to 0x42, a Bouquet's end by its stages and ERASE follow.
-/
namespace Sys2Proof.Machine
set_option Elab.async false -- as in Laws: the one text has more theorems than threads

/-! ### A run without a fault -/

theorem metFault_none {x : JobRun} (s : State) (j : Job) (h : x.fault = none) : metFault s j x = none := by
  unfold metFault
  rw [h]
  rfl

theorem fencePair_first {j : Job} (n : Nat) (s : State) (h : j.restarted = false) : fencePair j n s = s := if_neg (by simp [h])

section
variable {op : Nat} {want grain : State → Job → Nat} {svc : Svc} {x : JobRun} {j : Job} {inp : Bytes} {s : State}

/-- A run that reads its strings and its whole input, and meets no fault, ends by its service's result. -/
theorem runOn_ready (h : JobReady op (want s j) x j inp s) :
    runOn want grain svc x j s =
      finishJob j x inp (svc j inp ((x.strings.getD []).take (want s j)) s).1 (svc j inp ((x.strings.getD []).take (want s j)) s).2 := by
  obtain ⟨-, hinput, hstrings, hfault, -, hmore, -, -, -⟩ := h
  have hread : (if j.round > 0 then (j.input, none) else inputOf j.desc x.input x.inList) = (inp, none) := by
    rcases hinput with ⟨h0, hin⟩ | ⟨hround, rfl⟩
    · rw [if_neg (by omega), hin]
    · exact if_pos hround
  have hshort : ¬(want s j > 0 && (x.strings.isNone || decide ((x.strings.getD []).length < want s j))) = true := by
    rcases hstrings with h0 | ⟨b, hb, hlen⟩
    · simp [h0]
    · simp [hb, hlen]
  unfold runOn
  rw [hread, metFault_none s j hfault]
  dsimp only
  rw [if_neg hshort, if_neg (by simp [hmore])]

theorem runJob_ready (h : JobReady op (want s j) x j inp s) :
    runJob op want grain svc x s =
      finishJob j x inp (svc j inp ((x.strings.getD []).take (want s j)) s).1 (svc j inp ((x.strings.getD []).take (want s j)) s).2 := by
  have hstall : noteStall x.job x.stalled s = s := if_neg (by simp [h.stalled])
  unfold runJob
  rw [hstall, h.run]
  exact runOn_ready h

end

/-! ### The end of a run by its result -/

section
variable {j : Job} {x : JobRun} {r : Result} {t u : State}

theorem outputStop_none (hdenied : x.denied = false) (hlist : (outputOf j.desc x.outList).bad = none) : outputStop x (outputOf j.desc x.outList) r = none := by
  unfold outputStop
  rw [hdenied, hlist]
  exact ite_self _

/-- A first run's result, neither overrun nor faulty, gives its completion by its status alone. -/
theorem finishJob_first (inp : Bytes) (hover : r.overrun = none) (hfaulty : r.faulty = false) (hfirst : j.restarted = false) :
    finishJob j x inp r t = if r.status == .ok then finishOk j x r t else failJob j (failEntry j r.status (if r.status == .verifyFailed then r.inline else [])) t := by
  unfold finishJob
  rw [hover, hfaulty, fencePair_first _ _ hfirst]
  exact if_neg (by decide)

variable (hu : u = listTaken x j t) (hbehind : (replaces j.desc && eraseBehind u j (hSlot (gTarget j.block))) = false) (hdenied : x.denied = false)
  (hlist : (outputOf j.desc x.outList).bad = none) (hfirst : j.restarted = false)
include hu hbehind hdenied hlist hfirst

/-- A result without a new key goes out, and its completion. -/
theorem finishOk_plain (hkey : r.key = none) :
    finishOk j x r t = okJob j { tag := j.tag, bytes := (r.streamed ++ r.staged).length, inline := r.inline, implicit := r.implicit }
      (writeOutput j (outputOf j.desc x.outList).frags (r.streamed ++ r.staged) u) := by
  subst hu
  unfold finishOk
  dsimp only
  rw [outputStop_none hdenied hlist, hkey, hfirst]
  exact if_neg (ne_true_of_eq_false hbehind)

/-- A new key takes its slot first; a slot that has changed fails the job. -/
theorem finishOk_key {k : NewKey} (hkey : r.key = some k) :
    finishOk j x r t = match placeKey j k u with
      | some (h, v) => okJob j { tag := j.tag, bytes := (r.streamed ++ r.staged).length, inline := leBytes 8 h, implicit := r.implicit }
          (writeOutput j (outputOf j.desc x.outList).frags (r.streamed ++ r.staged) v)
      | none => failJob j (failEntry j .keyRetired []) u := by
  subst hu
  unfold finishOk
  dsimp only
  rw [outputStop_none hdenied hlist, hkey, hfirst]
  exact if_neg (ne_true_of_eq_false hbehind)

end

/-- A command that runs a service on the state that `pre` leaves completes as the service's result says. -/
theorem jobRowAfter_of_run {pre : JobRun → State → State} {c : JobRun → Instr} {op : Nat} {want : State → Job → Nat} {svc : Svc} (grain : State → Job → Nat)
    (hexec : ∀ x s, exec (c x) s = .next (runJob op want grain svc x (pre x s))) : JobRowAfter pre c op want svc := by
  intro x s₀ s t u j inp r hpre hready hsvc hover hfaulty hu hbehind
  have hrun : exec (c x) s₀ = .next (if r.status == .ok then finishOk j x r t
      else failJob j (failEntry j r.status (if r.status == .verifyFailed then r.inline else [])) t) := by
    rw [hexec, hpre, runJob_ready hready, hsvc, finishJob_first inp hover hfaulty hready.first]
  obtain ⟨hdenied, hlist, hfirst⟩ := And.intro hready.denied (And.intro hready.list hready.first)
  rw [hrun]
  refine ⟨fun hok hkey => ?_, fun k h v hok hkey hplace => ?_, fun k hok hkey hplace => ?_, fun hbad => ?_⟩
  · rw [if_pos (by simp [hok]), finishOk_plain hu hbehind hdenied hlist hfirst hkey]
  · rw [if_pos (by simp [hok]), finishOk_key hu hbehind hdenied hlist hfirst hkey, hplace]
  · rw [if_pos (by simp [hok]), finishOk_key hu hbehind hdenied hlist hfirst hkey, hplace]
  · rw [if_neg (by simp [hbad])]
    simp only [beq_iff_eq]

/-- A row that streams in units of one byte. -/
theorem jobRow_bytewise {c : JobRun → Instr} {op : Nat} {want : State → Job → Nat} {svc : Svc}
    (hexec : ∀ x s, exec (c x) s = .next (runJob op want (fun _ _ => 1) svc x s)) : JobRow c op want svc :=
  jobRowAfter_of_run (fun _ _ => 1) hexec

/-- A row that streams nothing and reads no strings. -/
theorem jobRow_plain {c : JobRun → Instr} {op : Nat} {f : Job → Bytes → State → Result × State} (hexec : ∀ x s, exec (c x) s = .next (runPlain op f x s)) :
    JobRow c op noStrings (plainSvc f) :=
  jobRow_bytewise hexec

/-- A row of the symmetric engines, which stream in the units of their mode. -/
theorem jobRow_symmetric {c : JobRun → Instr} {op : Nat} (hexec : ∀ x s, exec (c x) s = .next (runJob op symWant symGrain svcSym x s)) : JobRow c op symWant svcSym :=
  jobRowAfter_of_run symGrain hexec

/-- Settles O27: each service's command is a run of that service. -/
theorem asymmetricJobsRun : Obligations.AsymmetricJobsRun := by
  refine ⟨⟨?_, ?_, ?_, ?_, ?_, ?_, ?_, ?_, ?_, ?_, jobRowAfter_of_run (fun _ _ => 1) fun _ _ => rfl, ?_, ?_, ?_, ?_, ?_, ?_, ?_, ?_, ?_⟩,
    ⟨?_, ?_, ?_, ?_, ?_, ?_, ?_, ?_, ?_, ?_, ?_, ?_, ?_, ?_, ?_, ?_, ?_⟩⟩ <;> exact jobRow_plain fun _ _ => rfl

/-- Settles O28: each service's command is a run of that service. -/
theorem symmetricAndDigestJobsRun : Obligations.SymmetricAndDigestJobsRun := by
  refine ⟨⟨?_, ?_, ?_, ?_, ?_, ?_, ?_, ?_, ?_, ?_, ?_, ?_, ?_, ?_, ?_, ?_, ?_, ?_, ?_, jobRow_bytewise fun _ _ => rfl, jobRow_bytewise fun _ _ => rfl⟩, ?_⟩
  iterate 19 exact jobRow_symmetric fun _ _ => rfl
  refine ⟨?_, ?_, ?_, ?_, ?_, ?_, ?_, ?_, ?_, ?_, ?_, ?_, ?_, ?_⟩ <;> exact jobRow_bytewise fun _ _ => rfl

/-! ### A Bouquet's end -/

section
variable {x : JobRun} {j : Job} {inp : Bytes} {outs : List StageOut} {frs : List Frags} {s : State}

theorem bouquetStop_eq_check (hdenied : x.denied = false) (hfits : ∀ f ∈ frs, f.bad = none) :
    bouquetStop x inp.length outs frs = (outs.findIdx? (fun o => o.res.status != .ok)).map (fun i => (i, (outs.getD i {}).res.status, inp.length)) := by
  have hlist : frs.findIdx? (fun f => f.bad.isSome) = none := List.findIdx?_eq_none_iff.2 fun f hf => by rw [hfits f hf]; rfl
  have hwrite : deniedAt x hasOutput outs = none := if_pos (by simp [hdenied])
  unfold bouquetStop
  rw [hlist, hwrite]
  cases outs.findIdx? (fun o => o.res.status != .ok) <;> exact ite_self _

/-- Where every stage passes, the stages' outputs go out in order. -/
theorem bouquetEnd_passes (hop : dOp j.desc = 0x3801) (hdenied : x.denied = false) (hfits : ∀ f ∈ frs, f.bad = none) (hpass : ∀ o ∈ outs, o.res.status = .ok) :
    bouquetEnd j x inp outs frs s = okJob j { tag := j.tag, restarted := j.restarted, bytes := inp.length, inline := [0xFF, byteOf (dSpec j.desc 52)] }
      ((outs.zip frs).foldl (fun t o => writeStage j o.2.frags o.1.res.streamed o.1.res.staged t) s) := by
  have hnone : outs.findIdx? (fun o => o.res.status != .ok) = none := List.findIdx?_eq_none_iff.2 fun o ho => by simp [hpass o ho]
  have hinline : stageInline j 0xFF = [0xFF, byteOf (dSpec j.desc 52)] := if_pos (by simp [hop])
  unfold bouquetEnd
  rw [bouquetStop_eq_check hdenied hfits, hnone, hinline]
  rfl

/-- The first stage that fails gives the Bouquet its status and its number. -/
theorem bouquetEnd_fails {i : Nat} {o : StageOut} (hdenied : x.denied = false) (hfits : ∀ f ∈ frs, f.bad = none) (hi : outs[i]? = some o) (hbad : o.res.status ≠ .ok)
    (hbefore : ∀ k p, k < i → outs[k]? = some p → p.res.status = .ok) :
    bouquetEnd j x inp outs frs s =
      endJob o.res.status (fun k => stageInline k i) j.id (streamStages j (min x.progress inp.length) inp.length outs frs s) := by
  obtain ⟨hlt, rfl⟩ := List.getElem?_eq_some_iff.1 hi
  have hfirst : outs.findIdx? (fun o => o.res.status != .ok) = some i := by
    refine List.findIdx?_eq_some_iff_getElem.2 ⟨hlt, by simpa using hbad, fun k hk => ?_⟩
    simp [hbefore k outs[k] hk (List.getElem?_eq_getElem _)]
  unfold bouquetEnd
  rw [bouquetStop_eq_check hdenied hfits, hfirst]
  simp only [Option.map_some, List.getD_eq_getElem?_getD, hi, Option.getD_some]

/-- A Bouquet whose stages read no strings, with its whole input and without a fault, ends by its stages. -/
theorem bouquetRun_ready (hrun : runnable s 0x3801 x = some j) (hstall : x.stalled = false) (hmore : x.more = false) (hin : inputOf j.desc x.input x.inList = (inp, none))
    (hwant : ∀ r ∈ stages j.block, stageWant r = 0) (hfault : x.fault = none) :
    bouquetRun x s = bouquetEnd j x inp (stagesRun s j inp (stages j.block) ((stages j.block).map (fun _ => [])) [] true) (stageFrags (stages j.block) x.stageLists) s := by
  have hlink : noteStall x.job x.stalled s = s := if_neg (by simp [hstall])
  have hnone : ∀ i, stageWant ((stages j.block).getD i []) = 0 := fun i => by
    rw [List.getD_eq_getElem?_getD]
    cases hi : (stages j.block)[i]? with
    | none => rfl
    | some r => exact hwant r (List.mem_of_getElem? hi)
  have hstrs : (stages j.block).mapIdx (fun i r => ((x.stageStrings.getD i (some [])).getD []).take (stageWant r)) = (stages j.block).map (fun _ => []) := by
    refine List.ext_getElem (by simp) fun i h _ => ?_
    simp [hwant _ (List.getElem_mem (by simpa using h))]
  unfold bouquetRun
  rw [hlink, hrun]
  unfold bouquetOn
  dsimp only
  rw [hstrs, hin, metFault_none s j hfault]
  dsimp only
  split
  next i hfind =>
    have hshort := List.find?_some hfind
    rw [hnone i] at hshort
    cases hb : x.stageStrings.getD i (some []) <;> rw [hb] at hshort <;> simp at hshort
  next => rw [if_neg (by simp [hmore])]

end

/-! ### ERASE -/

theorem runnable_op {s : State} {op : Nat} {x : JobRun} {j : Job} (h : runnable s op x = some j) : dOp j.desc = op := by
  unfold runnable at h
  split at h
  · split at h
    next hc =>
      cases h
      simp only [Bool.and_eq_true, beq_iff_eq] at hc
      exact hc.1.1
    · cases h
  · cases h

theorem eraseSlot_zeroized {s : State} {i : Nat} (force : Bool) (h : slotHolders s i = []) :
    (eraseSlot force i s).1 = 0 ∧ (eraseSlot force i s).2.1 = true := by
  rw [eraseSlot_of_free force h]
  exact ⟨rfl, rfl⟩

section
variable {x : JobRun} {s : State} {j : Job} (hrun : runnable s 0x4005 x = some j) (hnew : j.newSlot = none) (hbehind : eraseBehind s j (hSlot (dKey j.desc)) = false)
include hrun hnew hbehind

theorem eraseRun_fails {st : Status} (h : eraseStatus s j.domain (dKey j.desc) = some st) : eraseRun x s = failJob j (failEntry j st []) s := by
  unfold eraseRun
  rw [hrun]
  dsimp only
  rw [hnew, hbehind, h]
  exact if_neg (by decide)

theorem eraseRun_zeroizes (h : eraseStatus s j.domain (dKey j.desc) = none) (hfree : slotHolders s (hSlot (dKey j.desc)) = []) :
    eraseRun x s = okJob j { tag := j.tag, restarted := j.restarted, inline := leBytes 4 0 } (eraseSlot (flag10 j.desc) (hSlot (dKey j.desc)) s).2.2 := by
  obtain ⟨hcount, hdone⟩ := eraseSlot_zeroized (flag10 j.desc) hfree
  unfold eraseRun
  rw [hrun]
  dsimp only
  rw [hnew, hbehind, h, hcount, hdone]
  exact (if_neg (by decide)).trans (if_pos rfl)

end

/-- Settles O29: the rows are runs of their services; a Bouquet's end and an ERASE's go by their own rules. -/
theorem keyBouquetAndEraseJobsRun : Obligations.KeyBouquetAndEraseJobsRun := by
  refine ⟨⟨?_, ?_, ?_, ?_, jobRowAfter_of_run (fun _ _ => 1) fun _ _ => rfl, ?_, ?_, ?_⟩, ?_, fun x s j hrun hnew hbehind => ⟨fun hst hfree => ?_, fun st hst => ?_⟩⟩
  iterate 7 exact jobRow_plain fun _ _ => rfl
  · intro x s j inp outs frs hrun hstall hmore hin hwant hfault hdenied hfrs hfits houts
    have hend : exec (.bouquet x) s = .next (bouquetEnd j x inp outs frs s) := by
      rw [houts, hfrs]
      exact congrArg _ (bouquetRun_ready hrun hstall hmore hin hwant hfault)
    rw [hend]
    exact ⟨fun hpass => congrArg _ (bouquetEnd_passes (runnable_op hrun) hdenied hfits hpass),
      fun i o hi hbad hbefore => congrArg _ (bouquetEnd_fails hdenied hfits hi hbad hbefore)⟩
  · exact congrArg _ (eraseRun_zeroizes hrun hnew hbehind hst hfree)
  · exact congrArg _ (eraseRun_fails hrun hnew hbehind hst)

end Sys2Proof.Machine
